-- ==== Sys2Proof/Word.lean ====
section
/-! DEFINITION. The word types of the model. -/

namespace Sys2Proof

abbrev Byte := BitVec 8
/-- A 32-bit register or dword. -/
abbrev W32 := BitVec 32
/-- A register image; a 32-bit register uses the low half. -/
abbrev W64 := BitVec 64
/-- A 128-bit block of AES and GHASH. -/
abbrev Block := BitVec 128
/-- A 64-byte line; byte `i` is bits [8i+7:8i]. -/
abbrev Line := BitVec 512
/-- A stored codeword of 80 symbols; symbol `i` is bits [8i+7:8i] (R276). -/
abbrev Codeword := BitVec 640

/-- A register file: (management-view offset, value) of every register whose value differs from reset. -/
abbrev Machine.RegFile := List (Nat × W64)

/-- What a codeword carries: 64 data bytes and the 32-bit metadata word (R276). -/
structure Machine.Payload where
  data : Line
  md : BitVec 32
  deriving DecidableEq, Repr

/-- Outcome of a read of a codeword (R282): an uncorrectable one holds the values as read. -/
inductive Machine.CwOut where
  | clean (p : Machine.Payload)
  | corrected (p : Machine.Payload) (dev : Nat)
  | uncorrectable (p : Machine.Payload)
  deriving DecidableEq, Repr

/-- What the serial-presence data of a module says (Tables 9.1, 9.14): module type (1 RDIMM, 2 MRDIMM, 0 other), device width
(0 x4, 1 x8), density, rank count and 3DS height codes, RFM requirement, whether it has ECC on 40-bit subchannels, the rate
codes it lists, its identity, and its timing minimums in ps in the order of `spdNames`. -/
structure Machine.Spd where
  ty : Nat
  width : Nat
  density : Nat
  ranks : Nat
  height : Nat
  rfm : Bool
  ecc : Bool
  rates : List Nat
  ident : Nat
  mins : List Nat
  deriving DecidableEq, Repr

/-- Instructions of the boundary-scan TAP that R490 names, BYPASS, and the others by their code. -/
inductive Machine.TapInstr where
  | bypass | extest | extestPulse | extestTrain | intest | clamp
  | other (code : Nat)
  deriving DecidableEq, Repr

/-- The view that a register access uses: the management view's BAR0, an LD's tenant window, or the configuration space of a
function (LDs 0–15, 16 the management view). -/
inductive Machine.RegView where
  | mgmt
  | tenant (n : Nat)
  | config (fn : Nat)
  deriving DecidableEq, Repr

/-- Severity of a record, which names its log (R106): the four standard logs and the Dynamic Capacity log. -/
inductive Machine.Sev where
  | info | warning | failure | fatal | dcd
  deriving DecidableEq, Repr

/-- Kinds of record (R107): Keaden vendor records, and the standard's own. -/
inductive Machine.RecKind where
  | vendor | generalMedia | dram | memoryModule
  | addCapacity | releaseCapacity | forcedRelease | regionUpdated
  deriving DecidableEq, Repr

/-- What the device counts (R434 and the counter lists of chapters 4 to 13). A counter of State is named by what it counts, the unit
that counts it, and a part of that (a cause, a class, a rank, a state) where the list has one. -/
inductive Machine.EvKind where
  /-- head: late completions; reads timed out -/
  | lateCompletion | readTimeout
  /-- home slice: requests admitted; corrected single-bit errors of Sward data -/
  | admitted | swardCe
  /-- Tedder: entries scanned; samples; sketch words reset for parity; demotions by target state; demotion failures (0 budget,
  1 poisoned line, 2 FCTR, 3 baler fault); commit aborts; promotions by source state; holds; relocations -/
  | scan | sample | sketchParity | demoted | demoteFail | commitAbort | promoted | held | relocated
  /-- baler: jobs by class; 64 B units in and out; compression failures (0 budget, 1 fault); re-codes; stored swaths; swaths by
  table; decode failures by cause -/
  | balJob | balIn | balOut | balFail | recode | storedSwath | tableSwath | decodeFail
  /-- counter-cache partition: hits, misses, merges, forwarded lookups, re-encryptions, dual verifications -/
  | ctrHit | ctrMiss | ctrMerge | ctrForward | reencryption | dualVerify
  /-- cipher unit: tag mismatches by key domain, zero reads by row of Table 8.5 -/
  | tagMismatch | zeroRead
  /-- channel: reads, writes and activates by subchannel; row hits; drain-mode, in-order-mode and urgent entries; REFab, REFsb,
  forced refreshes, neighbour refreshes, RFMs; sideband retries -/
  | chnRead | chnWrite | chnAct | rowHit | drainEntry | inOrderEntry | urgentEntry | refAb | refSb | forcedRef | neighbourRef | rfm
  | sidebandRetry
  /-- channel: reads by outcome and source; corrections by device; corrective writes issued and dropped; poison codewords written;
  scrub reads; copy reads; copy writes dropped -/
  | cwRead | cwDevice | correctiveWrite | correctiveDrop | poisonWrite | scrubRead | copyRead | copyDrop
  /-- channel: frequency changes, reverts, power-down entries by rank, 1.25 ns steps in power-down by rank -/
  | freqChange | freqRevert | powerDown | powerDownTime
  /-- ring set: descriptors fetched; commands by opcode, and by status; lines written by FILL, ZERO and COPY; pages sanitized;
  sanitize retries; completion-ring full stalls; MSI-X messages -/
  | descriptor | cmdOpcode | cmdStatus | lineWritten | pageSanitized | sanitizeRetry | cqStall | message
  /-- Ley port: payload, idle and control flits sent and received; flits corrected and discarded; NAKs; replays; duplicates; retrains
  by cause; resizes; collisions; entries by VC -/
  | flitSent | flitReceived | flitCorrected | flitDiscarded | nak | replay | duplicate | retrain | resize | collision | vcEntry
  deriving DecidableEq, Repr

structure Machine.EvKey where
  kind : Machine.EvKind
  unit : Nat
  part : Nat
  deriving DecidableEq, Repr

/-- What a head offers to the core as values (Table 2.7): the tail of a ring of a ring set, link rate and width, and its counters. -/
inductive Machine.HeadVal where
  | tail (set ring : Nat) | link | counter (c : Nat)
  deriving DecidableEq, Repr

/-- What a channel offers as values: its lags and counters. -/
inductive Machine.ChnVal where
  | refreshLag | scrubLag | counter (c : Nat)
  deriving DecidableEq, Repr

/-- What a Ley port offers as values: the credit window and the low-water mark of a VC, and counters. -/
inductive Machine.LeyVal where
  | window (vc : Nat) | lowWater (vc : Nat) | counter (c : Nat)
  deriving DecidableEq, Repr

/-- What the core offers to the management controller as values: speed indices, lags, and its counters by ID. -/
inductive Machine.MgtVal where
  | speed (q : Nat) | epochLag (t : Nat) | sweepLag | counter (id : Nat)
  deriving DecidableEq, Repr

/-- The crossings of Table 2.7. `n` is the instance. -/
inductive Machine.XId where
  | headRx (n : Nat) | headTx (n : Nat) | headEvt (n : Nat) | headVal (n : Nat) (v : Machine.HeadVal)
  | chnCmd (n : Nat) | chnRet (n : Nat) | chnCtl (n : Nat) | chnVal (n : Nat) (v : Machine.ChnVal)
  | leyTx (n : Nat) | leyRx (n : Nat) | leyEvt (n : Nat) | leyVal (n : Nat) (v : Machine.LeyVal)
  | regIn (island : Nat) | regOut (island : Nat)
  | mgtEvt | mgtVal (v : Machine.MgtVal) | trng
  deriving DecidableEq, Repr

/-- One sample of Stile's inputs in an evaluation step (R391): voltages in 10 mV, shunt voltages in 2 µV, signed. -/
structure Machine.StlSample where
  vinA : Nat
  vinB : Nat
  midA : Nat
  midB : Nat
  vout : Nat
  isnsA : Int
  isnsB : Int
  /-- the pass gate has reached full enhancement (R395) -/
  fullA : Bool
  fullB : Bool
  /-- STL_OFF_N is low (R408) -/
  offLow : Bool
  deriving DecidableEq, Repr

/-- The units of R57. -/
inductive Machine.LagUnit where
  | refresh (c : Nat)
  | scrub (c : Nat)
  | epoch (t : Nat)
  | sweep
  deriving DecidableEq, Repr

/-- A holder's answer to a back-invalidate. -/
inductive Machine.BiAnswer where
  | i | s | e
  deriving DecidableEq, Repr

/-- What a completion carries: data; data with poison; Unsupported Request; Completer Abort. -/
inductive Machine.CplStatus where
  | ok | poisoned | unsupported | abort
  deriving DecidableEq, Repr

/-- What RELOCATION moves: a sward page, or, under field locks, a page table or a sheaf map. -/
inductive Machine.RelocWhat where
  | page (page : Nat)
  | table (field : Nat)
  | sheafMap (ted run : Nat)
  deriving DecidableEq, Repr

/-- How far a burn has come when power is lost (R429): the BEGIN bits burned; body bytes burned; bits of the last 8 bytes burned. -/
structure Machine.BurnPoint where
  begun : Nat
  body : Nat
  last : Nat
  deriving DecidableEq, Repr

/-- Parts of a Transfer FW. -/
inductive Machine.FwPart where
  | full | first | middle | last | abort
  deriving DecidableEq, Repr

/-- MetaValue of a CXL.mem request (spec 05, Table 5.4). -/
inductive Machine.MetaValue where
  | i | s | a
  deriving DecidableEq, Repr

/-- An error that the lookup of a request's line meets in on-chip SRAM (R117, R121): none; a corrected directory error; an
uncorrectable one in a way of the line's directory set; a corrected one, and an uncorrectable one, in the line's Sward data. -/
inductive Machine.SramErr where
  | none
  | dirCe
  | dirUe (way : Nat)
  | swdCe
  | swdUe
  deriving DecidableEq, Repr

/-- The IDE streams of a head (R97). -/
inductive Machine.IdeStream where
  | link | selective | cxl
  deriving DecidableEq, Repr

end Sys2Proof
end

