-- ==== Sys2Proof/Syntax.lean ====
section
/-! DEFINITION. The commands: one constructor per row of the table of operations and events, each with what the row leaves
to the moment or to the outside. Heads are 0–7 (HP0A to HP3B), LDs 0–15, Ley ports and Tedders 0–3, channels 0–23, balers 0–31,
Stile feeds 0 (A) and 1 (B); `line`, `page` are DPA[47:6], DPA[47:12]; `frame` is SA[47:12]; `fields` count 2 MiB. -/

namespace Sys2Proof

inductive Instr where
  /-- MEM_RD (R125). `m` is MetaValue; `uio`: it comes as a UIO request (R60, R110); `e` the SRAM error that the lookup meets (R117, R121). -/
  | memRd (h ldid hpa tag : Nat) (m : Machine.MetaValue) (uio : Bool) (e : Machine.SramErr)
  /-- MEM_RD_DATA (R125). -/
  | memRdData (h ldid hpa tag : Nat) (e : Machine.SramErr)
  /-- MEM_INV (R125). -/
  | memInv (h ldid hpa tag : Nat) (m : Machine.MetaValue) (e : Machine.SramErr)
  /-- MEM_INV_NT (R125). -/
  | memInvNt (h ldid hpa tag : Nat) (m : Machine.MetaValue) (e : Machine.SramErr)
  /-- MEM_SPEC_RD (R87). -/
  | memSpecRd (h ldid hpa : Nat)
  /-- MEM_CLN_EVCT (R125). -/
  | memClnEvct (h ldid hpa tag : Nat) (e : Machine.SramErr)
  /-- MEM_WR (R17). `m` is MetaValue; `poison`: the data is poisoned. -/
  | memWr (h ldid hpa tag : Nat) (m : Machine.MetaValue) (data : Line) (poison uio : Bool) (e : Machine.SramErr)
  /-- MEM_WR_PTL (R18). `mask`: bit i enables byte i. -/
  | memWrPtl (h ldid hpa tag : Nat) (m : Machine.MetaValue) (data : Line) (mask : BitVec 64) (poison uio : Bool) (e : Machine.SramErr)
  /-- BIRSP (R127). `a` is the holder state after the answer. -/
  | birsp (ld line : Nat) (a : Machine.BiAnswer)
  /-- BICONFLICT (R128). -/
  | biconflict (ld line : Nat)
  /-- DIRECTORY_EVICTION_COMPLETE (R134). -/
  | directoryEvictionComplete (line : Nat)
  /-- LINE_LOCK_RELEASE (R129). -/
  | lineLockRelease (line : Nat)
  /-- BISNP_TIMEOUT (R137). -/
  | bisnpTimeout (ld line : Nat)
  /-- UNRESPONSIVE_SWEEP_COMPLETE (R139). -/
  | unresponsiveSweepComplete (ld : Nat)
  /-- HOME_GRANT_WRITE (R113). `v` is the register value written. -/
  | homeGrantWrite (n v : Nat)
  /-- GRANT_REVOCATION_COMPLETE (R113). -/
  | grantRevocationComplete (n : Nat)
  /-- DEFHINT_WRITE (R120). `v` is the value of DEFHINT. -/
  | defhintWrite (v : Nat)
  /-- TEDDER_SAMPLE (R158). `par` are the rows of the sketch whose word fails parity. -/
  | tedderSample (t : Nat) (par : List Nat)
  /-- HEAD_LINK_UP (R81), or a retrain of a head that is up (R80). `nego`: the partner negotiates CXL; `proto` and `rate` are its highest codes (Tables 4.12, 4.13);
  `width` lanes; `flit256`: 256-byte flits agreed; `credits`: response credits (R22). -/
  | headLinkUp (h : Nat) (nego : Bool) (proto rate width : Nat) (flit256 : Bool) (credits : Nat)
  /-- PERST_N_ASSERT (R103). -/
  | perstNAssert (h : Nat)
  /-- PERST_N_RELEASE (R103). -/
  | perstNRelease (h : Nat)
  /-- HOT_RESET (R103). -/
  | hotReset (h : Nat)
  /-- LINK_DOWN (R103). -/
  | linkDown (h : Nat)
  /-- FLR (R105). -/
  | flr (n : Nat)
  /-- CXL_RESET (R103). -/
  | cxlReset (n : Nat)
  /-- HEAD_RESET_DELIVERY (R104). -/
  | headResetDelivery (h : Nat)
  /-- FLR_COMPLETE (R105). -/
  | flrComplete (n : Nat)
  /-- IDE_CHECK_FAILURE (R97). `st` is the stream. -/
  | ideCheckFailure (h : Nat) (st : Machine.IdeStream)
  /-- IDE_KM (R97). A key of 256 bits for stream `st`; `containment`: the CXL.cachemem stream in containment mode. -/
  | ideKm (h : Nat) (st : Machine.IdeStream) (key : Nat) (containment : Bool)
  /-- LDBIND_ENABLE (R84). -/
  | ldbindEnable (n : Nat)
  /-- LDBIND_DISABLE (R84). -/
  | ldbindDisable (n : Nat)
  /-- MEDIA_READY (R88). -/
  | mediaReady (n : Nat)
  /-- DOE_DISCOVERY (R92). `fn` is the function: an LD, or 16 for the management view. -/
  | doeDiscovery (fn index : Nat)
  /-- SPDM (R421). `block` is the measurement block asked for; a block above 4 stands for another request. -/
  | spdm (fn block : Nat)
  /-- CDAT_TABLE_ACCESS (R93). -/
  | cdatTableAccess (fn handle : Nat)
  /-- DECK_REQUEST (R94). -/
  | deckRequest (fn handle : Nat)
  /-- READ_COMPLETION (R101). `idOk`: the requester ID agrees; `count` and `lower` are the byte count and lower address of the
  header; `st` its status. -/
  | readCompletion (h tag : Nat) (idOk : Bool) (count lower : Nat) (st : Machine.CplStatus) (data : List Nat)
  /-- COMPLETION_TIMEOUT (R100). -/
  | completionTimeout (h tag : Nat)
  /-- TAG_QUARANTINE_END (R100). -/
  | tagQuarantineEnd (h tag : Nat)
  /-- HDM_COMMIT (R58). Commit = 1 is written to decoder `i` with IG, IW and Lock On Commit. -/
  | hdmCommit (n i ig iw : Nat) (lock : Bool)
  /-- HDM_COMMIT_TAKES_EFFECT (R62). -/
  | hdmCommitTakesEffect (n i : Nat)
  /-- HDM_UNCOMMIT (R62). -/
  | hdmUncommit (n i : Nat)
  /-- HDM_UNCOMMIT_TAKES_EFFECT (R62). -/
  | hdmUncommitTakesEffect (n i : Nat)
  /-- ADD_CAPACITY (R174). An extent of `fields` fields from field `first`, with tag `label`. -/
  | addCapacity (n first fields label : Nat)
  /-- RELEASE_DYNAMIC_CAPACITY (R331). -/
  | releaseDynamicCapacity (n first fields : Nat)
  /-- FORCED_REMOVAL (R177). -/
  | forcedRemoval (n first fields : Nat)
  /-- DC_REGION_CONFIGURE (R96). Region `i`: first field, fields, and block size code. -/
  | dcRegionConfigure (n i base len k : Nat)
  /-- EXTENT_REMOVAL_COMPLETE (R177). -/
  | extentRemovalComplete (n : Nat)
  /-- LDWIN_ENABLE (R59). -/
  | ldwinEnable (n : Nat)
  /-- WINDOW_BUILD_COMPLETE (R168). -/
  | windowBuildComplete (n : Nat)
  /-- LDWIN_DISABLE (R171). -/
  | ldwinDisable (n : Nat)
  /-- WINDOW_TEARDOWN_COMPLETE (R171). -/
  | windowTeardownComplete (n : Nat)
  /-- SET_COMMIT (R70). -/
  | setCommit (n : Nat)
  /-- SET_COMMITTED (R70). -/
  | setCommitted (n : Nat)
  /-- COUNTER_REGION_READY (R212). -/
  | counterRegionReady (n : Nat)
  /-- SET_UNCOMMIT (R71). -/
  | setUncommit (n : Nat)
  /-- VALUE_CROSSING_OFFER (R42). `x` names the crossing. -/
  | valueCrossingOffer (x : Machine.XId) (v : Nat)
  /-- VALUE_CROSSING_ACK (R42). -/
  | valueCrossingAck (x : Machine.XId)
  /-- EVENT_CROSSING_OFFER (R44). `k` is the kind of event. -/
  | eventCrossingOffer (x : Machine.XId) (k : Nat)
  /-- EVENT_CROSSING_ACK (R44). -/
  | eventCrossingAck (x : Machine.XId)
  /-- QUEUE_ENTRY_OFFER (R46). -/
  | queueEntryOffer (x : Machine.XId) (v : Nat)
  /-- QUEUE_SLOT_CREDIT (R46). -/
  | queueSlotCredit (x : Machine.XId)
  /-- CROSSING_DELIVERY (R47). -/
  | crossingDelivery (x : Machine.XId)
  /-- ISLAND_RESET (R49). -/
  | islandReset (k : Nat)
  /-- LAG_BEYOND_PERIOD (R57). `u` is the periodic unit. -/
  | lagBeyondPeriod (u : Machine.LagUnit)
  /-- MAXLAG_CLR (R57). -/
  | maxlagClr (u : Machine.LagUnit)
  /-- AVS_DECISION (R37). -/
  | avsDecision
  /-- AVS_SETTLE_END (R37). -/
  | avsSettleEnd
  /-- SPEED_WINDOW_END (R36). -/
  | speedWindowEnd (q speed : Nat)
  /-- AVSBUS_FAILURE (R39). -/
  | avsbusFailure (q : Nat)
  /-- AVS_SETPOINT_WRITE (R40). -/
  | avsSetpointWrite (q code : Nat)
  /-- BUS_ERR_CLEAR (R39). -/
  | busErrClear (q : Nat)
  /-- PROMOTION_START (R156). `bad` are the lines whose burst is uncorrectable. -/
  | promotionStart (page : Nat) (bad : List Nat)
  /-- PROMOTION_COMMIT (R156). -/
  | promotionCommit (page : Nat)
  /-- SHEAF_RELEASE (R156). -/
  | sheafRelease (page : Nat)
  /-- PROMOTION_HOLD_EXPIRY (R175). -/
  | promotionHoldExpiry (page : Nat)
  /-- TEDDER_EPOCH (R159). `lost` are the map lines whose read is uncorrectable, `par` the words of the sketch that fail parity, word w of
  row r as r × 2^15 + w. -/
  | tedderEpoch (t : Nat) (lost par : List Nat)
  /-- DEMOTION_START (R162). `bad` are the lines whose burst is uncorrectable. -/
  | demotionStart (page : Nat) (bad : List Nat)
  /-- RELOCATION (R166). `bad` are the lines whose burst is uncorrectable. -/
  | relocation (w : Machine.RelocWhat) (bad : List Nat)
  /-- FALLOW_MOVE (R165). `bad` are the lines whose burst is uncorrectable. -/
  | fallowMove (page : Nat) (bad : List Nat)
  /-- TEDDER_MOVE_COMMIT (R154). -/
  | tedderMoveCommit (page : Nat)
  /-- POOL_ENABLE (R167). -/
  | poolEnable (k : Nat)
  /-- POOL_DRAIN (R166). -/
  | poolDrain (k : Nat)
  /-- POOL_DRAINED (R166). -/
  | poolDrained (k : Nat)
  /-- POOL_DISABLE (R166). -/
  | poolDisable (k : Nat)
  /-- WATERMARK_WRITE (R175). -/
  | watermarkWrite (v : Nat)
  /-- RELEASE_REQUEST_INTERVAL (R176). -/
  | releaseRequestInterval
  /-- BALER_JOB_WAIT_DISPATCH (R198). -/
  | balerJobWaitDispatch
  /-- BALER_JOB_START (R198). -/
  | balerJobStart (b : Nat)
  /-- BALER_JOB_COMPLETE (R192). -/
  | balerJobComplete (b : Nat)
  /-- BALER_FAULT (R199). `n`: swaths of the job in progress that were completed. -/
  | balerFault (b n : Nat)
  /-- BALER_RESET (R199). -/
  | balerReset (b : Nat)
  /-- BAL_EN_WRITE (R201). -/
  | balEnWrite (v : Nat)
  /-- COUNTER_LINE_MERGE (R215). -/
  | counterLineMerge
  /-- REENCRYPTION_ENTRY_FREE (R223). -/
  | reencryptionEntryFree (q : Nat)
  /-- REENCRYPTION_COMPLETE (R223). -/
  | reencryptionComplete (frame : Nat)
  /-- ERASE_SWEEP_COMPLETE (R228). -/
  | eraseSweepComplete (n : Nat)
  /-- CHANNEL_READ_RETURN (R220). -/
  | channelReadReturn (c : Nat)
  /-- WRITE_ACCEPTANCE (R257). -/
  | writeAcceptance (c : Nat)
  /-- CHANNEL_COMMAND_ENTRY (R256). -/
  | channelCommandEntry (c : Nat)
  /-- COMMAND_ISSUE (R259). `held`: commands that the timing set does not allow in the slot, as bank key × 16 + kind. -/
  | commandIssue (c i : Nat) (held : List Nat)
  /-- PAGE_IDLE_TIMEOUT (R260). `bank` is the bank key. -/
  | pageIdleTimeout (c i bank : Nat)
  /-- REFRESH_DUE (R267). -/
  | refreshDue (c r : Nat)
  /-- NRF_RESEED (R272). `arrived`: a TRNG word is there. -/
  | nrfReseed (c : Nat) (arrived : Bool)
  /-- DIMM_THERMAL_READ (R244). `t0`, `t1`: the readings of the two slots in °C; none where the read failed. -/
  | dimmThermalRead (c : Nat) (t0 t1 : Option Nat)
  /-- SIDEBAND_ERROR (R243). -/
  | sidebandError (bus hub : Nat)
  /-- PMIC_FAULT (R245). `slots` is a mask of the slots. -/
  | pmicFault (c slots : Nat)
  /-- CHANNEL_TRAINING_COMPLETE (R246). `eyeRd`, `eyeWr`: the narrowest eyes in 1/128 UI; `geometry`: the geometry found is
  the one expected; `turn`, `turnAlt`: turnarounds measured at the rate and at the alternate rate. -/
  | channelTrainingComplete (c eyeRd eyeWr : Nat) (geometry : Bool) (turn turnAlt : List Nat)
  /-- TRAINING_RECORD_WRITE (R251). `ok`: the flash write succeeds. -/
  | trainingRecordWrite (c : Nat) (ok : Bool)
  /-- ZQ_CALIBRATION (R252). -/
  | zqCalibration (c slot : Nat)
  /-- DQS_OSCILLATOR_READ (R252). -/
  | dqsOscillatorRead (c r : Nat)
  /-- CODEWORD_READ (R280). `err`: the bits that the bus flips. -/
  | codewordRead (c i : Nat) (err : BitVec 640)
  /-- ECC_WINDOW_END (R285). -/
  | eccWindowEnd (c : Nat)
  /-- SCRUB_READ (R289). -/
  | scrubRead (c : Nat)
  /-- SPARE_START (R293). -/
  | spareStart (c : Nat)
  /-- SPARE_COPY_READ (R294). -/
  | spareCopyRead (c : Nat)
  /-- SPARE_COPY_COMPLETE (R297). -/
  | spareCopyComplete (c : Nat)
  /-- RANK_RETIRE (R299). -/
  | rankRetire (c : Nat)
  /-- FREQUENCY_CHANGE (R302). -/
  | frequencyChange (c : Nat)
  /-- FREQUENCY_CHANGE_CHECK (R303). `failed`: the first rank that fails its check. -/
  | frequencyChangeCheck (c : Nat) (failed : Option Nat)
  /-- POWER_DOWN_ENTRY (R307). -/
  | powerDownEntry (c r : Nat)
  /-- DOORBELL (R314). `s_` is the ring set (LD, or 16 for the management set), `r` the command ring, `v` the TAIL written. -/
  | doorbell (s_ r v : Nat)
  /-- DESCRIPTOR_FETCH (R314). -/
  | descriptorFetch (s_ r : Nat)
  /-- CR_ENABLE (R312). -/
  | crEnable (s_ r : Nat)
  /-- CR_DISABLE (R312). -/
  | crDisable (s_ r : Nat)
  /-- CQ_ENABLE (R313). -/
  | cqEnable (s_ q : Nat)
  /-- CQ_DISABLE (R313). -/
  | cqDisable (s_ q : Nat)
  /-- CQ_HEAD_WRITE (R321). `q` is the completion ring, `v` the HEAD written. -/
  | cqHeadWrite (s_ q v : Nat)
  /-- NOP (R316). -/
  | nop
  /-- SET_HINT (R329). -/
  | setHint
  /-- TIER_POLICY (R330). -/
  | tierPolicy
  /-- COMP_POLICY (R330). -/
  | compPolicy
  /-- PROMOTE (R330). -/
  | promote
  /-- DEMOTE (R330). -/
  | demote
  /-- FILL (R324). -/
  | fill
  /-- ZERO (R327). -/
  | zero
  /-- COPY (R326). -/
  | copy
  /-- SANITIZE (R328). -/
  | sanitize
  /-- CAP_QUERY (R331). -/
  | capQuery
  /-- RELEASE_ACK (R331). -/
  | releaseAck
  /-- SNAPSHOT (R332). -/
  | snapshot
  /-- SAMPLE_CFG (R453). -/
  | sampleCfg
  /-- COMMAND_COMPLETE (R319). -/
  | commandComplete
  /-- INTERRUPT_COALESCING_TIMEOUT (R334). -/
  | interruptCoalescingTimeout (s_ q : Nat)
  /-- LEY_ENABLE (R340). -/
  | leyEnable (p : Nat)
  /-- LEY_DISABLE (R362). -/
  | leyDisable (p : Nat)
  /-- LEY_PARTNER_DETECT (R340). -/
  | leyPartnerDetect (p : Nat)
  /-- LEY_TRAIN_COMPLETE (R339). `rate`: the highest rate that the partner offers; `lanes`: a mask of those that pass
  training. -/
  | leyTrainComplete (p rate lanes : Nat)
  /-- LEY_FLIT_RECEIVE (R346). -/
  | leyFlitReceive (p : Nat) (flit : BitVec 2048)
  /-- LEY_FLIT_TRANSMIT (R349). -/
  | leyFlitTransmit (p : Nat)
  /-- REPLAY_TIMEOUT (R348). -/
  | replayTimeout (p : Nat)
  /-- SETTLED_WINDOW (R356). -/
  | settledWindow (p v : Nat)
  /-- RT_REQ (R357). -/
  | rtReq (p : Nat)
  /-- RS_REQ (R360). -/
  | rsReq (p : Nat)
  /-- LANE_LOCK_LOSS (R357). -/
  | laneLockLoss (p : Nat)
  /-- RTRQ (R357). `pass`: lanes that pass at the current rate; `lower`: at the next lower one. -/
  | rtrq (p pass lower : Nat)
  /-- RTACK (R357). `pass`: lanes that pass at the current rate; `lower`: at the next lower one. -/
  | rtack (p pass lower : Nat)
  /-- RSRQ (R360). -/
  | rsrq (p : Nat)
  /-- RSACK (R360). -/
  | rsack (p : Nat)
  /-- RESIZE_COMPLETE (R360). -/
  | resizeComplete (p : Nat)
  /-- RESIZE_TIMEOUT (R360). -/
  | resizeTimeout (p : Nat)
  /-- IDENT (R357). -/
  | ident (p : Nat)
  /-- RESYNC (R358). -/
  | resync (p : Nat)
  /-- DOWN (R362). -/
  | down (p : Nat)
  /-- RETRAIN_STEP_TIMEOUT (R357). -/
  | retrainStepTimeout (p : Nat)
  /-- LEY_DOWN_EXPIRY (R340). -/
  | leyDownExpiry (p : Nat)
  /-- LEY_CRED_CLR (R356). -/
  | leyCredClr (p v : Nat)
  /-- FOLD (R362). -/
  | fold (p : Nat)
  /-- RD (R351). -/
  | rd (p : Nat)
  /-- WR (R351). -/
  | wr (p : Nat)
  /-- RDATA (R350). -/
  | rdata (p : Nat)
  /-- WACC (R351). -/
  | wacc (p : Nat)
  /-- JOIN (R373). -/
  | join (p : Nat)
  /-- MEMBER_JOIN_READY (R373). -/
  | memberJoinReady
  /-- JOINRSP (R373). -/
  | joinrsp (p : Nat)
  /-- REGRD (R374). -/
  | regrd (p : Nat)
  /-- REGWR (R374). -/
  | regwr (p : Nat)
  /-- REGRSP (R375). -/
  | regrsp (p : Nat)
  /-- RECORD (R376). -/
  | record (p : Nat)
  /-- FOLDNOTE (R382). -/
  | foldnote (p : Nat)
  /-- REOPEN (R383). -/
  | reopen (p : Nat)
  /-- CAS_REOPEN (R384). -/
  | casReopen
  /-- FORGET (R385). -/
  | forget
  /-- MEMBER_REG_ACCESS (R375). -/
  | memberRegAccess
  /-- FOLDMAP_ENABLE (R380). -/
  | foldmapEnable
  /-- MEMBER_RECOVERY_COMPLETE (R384). -/
  | memberRecoveryComplete (m : Nat)
  /-- MEMBER_LINK_DOWN (R383). -/
  | memberLinkDown (p : Nat)
  /-- DOWNSTREAM_LINK_DOWN (R382). -/
  | downstreamLinkDown (p : Nat)
  /-- STILE_POR (R389). The three strap samples (R390): DLY in [2:0], RTY in [4:3], RMP in [6:5], FT in [8:7]. -/
  | stilePor (s1 s2 s3 : Nat)
  /-- STILE_EVALUATION_STEP (R391). -/
  | stileEvaluationStep (x : Machine.StlSample)
  /-- QUALIFICATION_COMPLETE (R393). -/
  | qualificationComplete (i : Nat)
  /-- RAMP_TIMEOUT (R395). `i` is the feed (0 A, 1 B), `vin` its input at the event in 10 mV. -/
  | rampTimeout (i vin : Nat)
  /-- CURRENT_LIMIT (R396). -/
  | currentLimit (i : Nat)
  /-- FAULT_TIMER_EXPIRY (R396). -/
  | faultTimerExpiry (i vin : Nat)
  /-- FAULT_TIMER_CLEAR (R396). -/
  | faultTimerClear (i : Nat)
  /-- FAST_TRIP (R397). -/
  | fastTrip (i vin : Nat)
  /-- COOL_EXPIRY (R398). -/
  | coolExpiry (i : Nat)
  /-- RETRY_COUNT_RESET (R398). -/
  | retryCountReset (i : Nat)
  /-- PASS_FET_DAMAGED (R400). -/
  | passFetDamaged (i vin : Nat)
  /-- ORING_FET_DAMAGED (R401). -/
  | oringFetDamaged (i vin : Nat)
  /-- REVERSE_TURN_OFF (R403). -/
  | reverseTurnOff (i : Nat)
  /-- PG_HOLD_EXPIRY (R406). -/
  | pgHoldExpiry
  /-- ORDERLY_GATE_OFF (R406). -/
  | orderlyGateOff
  /-- LATCH_INPUT_LOW_EXPIRY (R393). -/
  | latchInputLowExpiry (i : Nat)
  /-- STL_OFF_N_ASSERT (R408). -/
  | stlOffNAssert
  /-- STL_OFF_N_RELEASE (R408). -/
  | stlOffNRelease
  /-- FEED_ENABLE (R393). -/
  | feedEnable (i : Nat)
  /-- FEED_DISABLE (R406). -/
  | feedDisable (i : Nat)
  /-- RESTART (R393). -/
  | restart (i : Nat)
  /-- CLR_FET (R402). -/
  | clrFet (i : Nat)
  /-- STL_VTHR_WRITE (R392). -/
  | stlVthrWrite (v : Nat)
  /-- POP (R412). -/
  | pop
  /-- STILE_LOG_DRAIN (R412). -/
  | stileLogDrain
  /-- STILE_LINK_LOST (R410). -/
  | stileLinkLost
  /-- STILE_MEASUREMENT (R413). -/
  | stileMeasurement (x : Machine.StlSample)
  /-- STILE_THERMAL_SHUTDOWN (R491). -/
  | stileThermalShutdown (vinA vinB : Nat)
  /-- PWR_OK_RISE (R415). -/
  | pwrOkRise
  /-- PWR_OK_FALL (R415). `at_`: how far a burn has come (R429). -/
  | pwrOkFall (at_ : Machine.BurnPoint)
  /-- POWER_ON_RESET_RELEASE (R416). Three strap samples; the modules by slot; slots whose hub does not answer; channels whose
  training record fails its CRC. -/
  | powerOnResetRelease (s1 s2 s3 : Nat) (spd : List (Option Machine.Spd)) (nack crcBad : List Nat)
  /-- DRAM_READY (R416). -/
  | dramReady
  /-- WATCHDOG_EXPIRY (R420). -/
  | watchdogExpiry
  /-- TRANSFER_FW (R419). `good`: the image verifies when it is whole. -/
  | transferFw (part : Machine.FwPart) (slot off len : Nat) (good : Bool)
  /-- ACTIVATE_FW (R419). -/
  | activateFw (slot : Nat) (online : Bool)
  /-- PLIUTH_TRANSFER (R427). -/
  | pliuthTransfer (off : Nat) (data : List Nat)
  /-- PLIUTH_COMMIT (R428). -/
  | pliuthCommit
  /-- GET_CONFIGURATION_STATE (R427). -/
  | getConfigurationState
  /-- PLIUTH_ABORT (R427). -/
  | pliuthAbort
  /-- HOLD_COMMIT_RESET (R428). -/
  | holdCommitReset
  /-- GBL_RESET (R430). -/
  | gblReset
  /-- TALLY_SWEEP (R441). `par`, `ue`: counters whose parity, or whose snapshot buffer word, is in error; `ce`: corrected
  buffer errors. -/
  | tallySweep (par ue : List Nat) (ce : Nat)
  /-- SNAPSHOT_PASS (R442). `par`, `ue`, `ce` as for TALLY_SWEEP. -/
  | snapshotPass (par ue : List Nat) (ce : Nat)
  /-- SAMPLE_RECORD_COMPLETE (R449). -/
  | sampleRecordComplete
  /-- SAMPLE_RECORD_WRITE (R451). -/
  | sampleRecordWrite (n : Nat)
  /-- REGISTER_WRITE (R467). Head `h`, or the MCTP sideband (8), carries a write of `size` bytes of `v` at offset `off` of a view. -/
  | registerWrite (view : Machine.RegView) (h off size v : Nat)
  /-- INVALID_REGISTER_ACCESS (R462). -/
  | invalidRegisterAccess (view : Machine.RegView) (h off size : Nat) (write : Bool)
  /-- GBL_LOCK_SET (R473). -/
  | gblLockSet
  /-- INTERRUPT_ACK (R476). -/
  | interruptAck
  /-- THERMTRIP (R491). `at_`: how far a burn has come (R429). -/
  | thermtrip (at_ : Machine.BurnPoint)
  /-- BOUNDARY_SCAN_INSTRUCTION (R490). `trstLow`: TRST_N is low. -/
  | boundaryScanInstruction (trstLow : Bool) (t : Machine.TapInstr)
  /-- CONTROLLER_RESTART_COMPLETE (R420). -/
  | controllerRestartComplete
  /-- COMMIT_BURN_COMPLETE (R428). `stuck`: the bits of the slot (byte × 8 + bit) that do not burn. -/
  | commitBurnComplete (stuck : List Nat)
  /-- STILE_STANDBY_LOSS (R389). `ms`: how long both inputs stay below 15 V. -/
  | stileStandbyLoss (ms : Nat)
  /-- RESPONSE_CREDIT_RETURN (R22). `n` credits. -/
  | responseCreditReturn (h n : Nat)
  /-- CLEAR_EVENT_RECORDS (R106). The `n` oldest records of log `log` of an LD, or of the management view (16). -/
  | clearEventRecords (owner log n : Nat)
  deriving DecidableEq, Repr

end Sys2Proof
end

