-- ==== Sys2Proof/Decode.lean ====
section
/-! DEFINITION. The decoder of the operation table's words. The table gives no row any bits (the block takes commands at its
ports, registers and pins, not instruction words), so no word spells a command. -/

namespace Sys2Proof

/-- The command that a word spells by the table's bits: none, since no row has bits. -/
def decodeTableWord (_nbits _w : Nat) : Option Instr := none

end Sys2Proof
end

