-- ==== Sys2Proof/Machine/Bits.lean ====
section
/-! DEFINITION. Bit-field, sign and byte-order helpers, shared by every unit. Registers and structures in memory are
little-endian (spec 00, Notation). -/

namespace Sys2Proof.Machine

/-- Bits [hi:lo] of a natural number. -/
def bitsOf (v hi lo : Nat) : Nat := (v >>> lo) % 2 ^ (hi + 1 - lo)

/-- Bit `i` of a natural number. -/
def bitOf (v i : Nat) : Bool := v.testBit i

/-- `v` with bits [hi:lo] replaced by `x` (taken modulo the field's width). -/
def putBits (v hi lo x : Nat) : Nat :=
  v - (bitsOf v hi lo <<< lo) + ((x % 2 ^ (hi + 1 - lo)) <<< lo)

/-- 1 for true, 0 for false. -/
def b2n (b : Bool) : Nat := if b then 1 else 0

/-- `v` with bit `i` set to `b`. -/
def putBit (v i : Nat) (b : Bool) : Nat := putBits v i i (b2n b)

/-- Value saturated at `2^w - 1`. -/
def satTo (w v : Nat) : Nat := min v (2 ^ w - 1)

/-- Byte `i` of a number, little-endian. -/
def byteOf (v i : Nat) : Nat := (v >>> (8 * i)) % 256

/-- The `n` low bytes of a number, least significant first. -/
def toBytes (n v : Nat) : List Nat := (List.range n).map (byteOf v)

/-- The number whose bytes are `bs`, least significant first. -/
def ofBytes : List Nat → Nat
  | [] => 0
  | b :: bs => b % 256 + 256 * ofBytes bs

/-- The quotient rounded up. -/
def ceilDiv (a b : Nat) : Nat := (a + b - 1) / b

/-- Element `i` of a list, or `d`. -/
def nthD {α : Type} (l : List α) (i : Nat) (d : α) : α := l.getD i d

/-- The list with element `i` replaced, when there is one. -/
def setNth {α : Type} (l : List α) (i : Nat) (x : α) : List α := l.set i x

/-- The list with `f` applied to element `i`. -/
def modNth {α : Type} (l : List α) (i : Nat) (f : α → α) : List α := l.modify i f

end Sys2Proof.Machine
end

