-- ==== Sys2Proof/Machine/BalCodec.lean ====
section
/-! DEFINITION. The compressed-page format of chapter 7: elements and predictors, symbols, code tables, the page, decoding
and encoding (R180 to R196). A page is a list of 64 lines, each as a number. -/

namespace Sys2Proof.Machine

/-! ### Elements, predictors, residues (R180 to R182) -/

/-- Element width of a grain code. -/
def grainBits (g : Nat) : Nat := 8 * 2 ^ g

/-- Element `j` of a line. -/
def elemOf (g line j : Nat) : Nat := (line >>> (grainBits g * j)) % 2 ^ grainBits g

/-- Elements of a line. -/
def lineElems (g line : Nat) : List Nat := (List.range (512 / grainBits g)).map (elemOf g line)

/-- The prediction from the left, above and above-left neighbours (Table 7.1). -/
def predict (g p l a al : Nat) : Nat :=
  match p with
  | 1 => l
  | 2 => a
  | 3 => (l + a + (2 ^ grainBits g - al)) % 2 ^ grainBits g
  | _ => 0

/-- The zig-zag value of a residue (R182). -/
def zigzag (g r : Nat) : Nat :=
  let w := grainBits g
  if r < 2 ^ (w - 1) then 2 * r else 2 * (2 ^ w - r) - 1

/-- The residue of a zig-zag value. -/
def unzigzag (g z : Nat) : Nat :=
  let w := grainBits g
  if z % 2 = 0 then z / 2 else 2 ^ w - (z + 1) / 2

/-- Zig-zag values of one line, given the line above: walks both with the left neighbours. -/
def lineResidues (g p : Nat) : List Nat → List Nat → Nat → Nat → List Nat
  | x :: xs, a :: as, l, al =>
    zigzag g ((x + (2 ^ grainBits g - predict g p l a al)) % 2 ^ grainBits g) :: lineResidues g p xs as x a
  | _, _, _, _ => []

/-- Zig-zag values of a swath of lines, in order. -/
def swathResidues (g p : Nat) (lines : List Nat) : List Nat :=
  let rows := lines.map (lineElems g)
  let zero := List.replicate (512 / grainBits g) 0
  (List.zipWith (fun above row => lineResidues g p row above 0 0) (zero :: rows) rows).flatten

/-! ### Symbols (R183, R184) -/

/-- Raw bits of escape `k` (Table 7.2). -/
def escBits (k : Nat) : Nat := if k ≤ 15 then k + 1 else [20, 24, 28, 32, 40, 48, 56, 64].getD (k - 16) 64

/-- Bits of a number; zero has none. -/
def bitLen (z : Nat) : Nat := if z = 0 then 0 else Nat.log2 z + 1

/-- The escape of a value: the least k with enough raw bits. -/
def escFor (z : Nat) : Nat := ((List.range 24).find? fun k => decide (max 1 (bitLen z) ≤ escBits k)).getD 23

/-- A code table: length and code of each symbol. -/
structure CodeTab where
  len : Array Nat
  code : Array Nat
  deriving DecidableEq, Repr

/-- The symbol that codes a value under a table. -/
def symFor (t : CodeTab) (z : Nat) : Nat :=
  if z < 1000 ∧ t.len.getD z 0 ≠ 0 then z else 1000 + escFor z

/-! ### Code tables (R185 to R187) -/

/-- Symbols of each length from 1 to 15, with the first code of the length. -/
def canonRows (lens : Array Nat) : List (Nat × Nat × List Nat) :=
  let syms (n : Nat) : List Nat := (List.range 1024).filter fun s => lens.getD s 0 == n
  ((List.range 15).foldl (fun (acc : List (Nat × Nat × List Nat) × Nat) i =>
    let n := i + 1
    let ss := syms n
    let first := acc.2 * 2
    ((n, first, ss) :: acc.1, first + ss.length)) ([], 0)).1.reverse

/-- The table whose lengths are given, with canonical codes. -/
def mkTab (lens : Array Nat) : CodeTab :=
  let code := (canonRows lens).foldl (fun (a : Array Nat) r =>
    (r.2.2.foldl (fun (x : Array Nat × Nat) s => (x.1.setIfInBounds s x.2, x.2 + 1)) (a, r.2.1)).1)
    (Array.replicate 1024 0)
  { len := lens, code := code }

/-- A table is valid: a symbol is present and the sum of 2^−l is at most 1. -/
def tabValid (lens : Array Nat) : Bool :=
  let s := lens.foldl (fun v l => if l = 0 then v else v + 2 ^ (15 - l)) 0
  decide (0 < s) && decide (s ≤ 2 ^ 15)

/-- Rows of Table 7.3: (first symbol, last symbol, length). -/
def staticRows (t : Nat) : List (Nat × Nat × Nat) :=
  match t with
  | 0 => [(0, 0, 1), (1, 2, 3), (3, 6, 5), (7, 14, 7), (15, 30, 9), (31, 62, 11), (63, 126, 13), (127, 190, 15), (1000, 1023, 12)]
  | 1 => [(0, 0, 2), (1, 2, 3), (3, 6, 4), (7, 14, 6), (15, 30, 8), (31, 62, 10), (63, 126, 12), (127, 254, 15), (1000, 1023, 11)]
  | 2 => [(0, 3, 4), (4, 15, 6), (16, 63, 8), (64, 191, 9), (192, 255, 10), (256, 415, 12), (1000, 1023, 10)]
  | 3 => [(0, 15, 6), (16, 127, 9), (128, 151, 10), (152, 999, 11), (1000, 1023, 8)]
  | 4 => [(0, 0, 2), (1, 2, 4), (3, 14, 7), (15, 62, 10), (63, 286, 11), (1000, 1023, 6)]
  | _ => [(0, 0, 1), (1, 2, 4), (3, 6, 6), (7, 38, 9), (39, 166, 11), (1000, 1023, 7)]

def staticTab (t : Nat) : CodeTab :=
  mkTab ((staticRows t).foldl (fun a r =>
    (List.range (r.2.1 + 1 - r.1)).foldl (fun (a : Array Nat) i => a.setIfInBounds (r.1 + i) r.2.2) a) (Array.replicate 1024 0))

/-- A node of the Huffman merging: weight, 0 for a leaf or 1 for a merged node, symbol or merge number, symbols with depths. -/
structure HufNode where
  w : Nat
  kind : Nat
  idx : Nat
  syms : List (Nat × Nat)
  deriving DecidableEq, Repr

def HufNode.before (a b : HufNode) : Bool :=
  decide (a.w < b.w) || (a.w == b.w && (decide (a.kind < b.kind) || (a.kind == b.kind && decide (a.idx < b.idx))))

def hufInsert (n : HufNode) : List HufNode → List HufNode
  | [] => [n]
  | m :: ms => if n.before m then n :: m :: ms else m :: hufInsert n ms

/-- Merges the two lightest nodes until one remains (R187). -/
def hufMerge : Nat → Nat → List HufNode → List HufNode
  | 0, _, ns => ns
  | f + 1, k, a :: b :: ns =>
    let deeper := (a.syms ++ b.syms).map fun p => (p.1, p.2 + 1)
    hufMerge f (k + 1) (hufInsert { w := a.w + b.w, kind := 1, idx := k, syms := deeper } ns)
  | _ + 1, _, ns => ns

/-- Code lengths of a histogram of symbols; halves the counts and repeats while a length exceeds 15. -/
def hufLens : Nat → List (Nat × Nat) → Array Nat
  | 0, _ => Array.replicate 1024 0
  | f + 1, hist =>
    match hist with
    | [(s, _)] => (Array.replicate 1024 0).setIfInBounds s 1
    | _ =>
      let leaves := hist.foldl (fun l p => hufInsert { w := p.2, kind := 0, idx := p.1, syms := [(p.1, 0)] } l) []
      let syms := ((hufMerge hist.length 0 leaves).headD { w := 0, kind := 0, idx := 0, syms := [] }).syms
      if syms.any fun p => decide (15 < p.2) then hufLens f (hist.map fun p => (p.1, (p.2 + 1) / 2))
      else syms.foldl (fun (a : Array Nat) p => a.setIfInBounds p.1 p.2) (Array.replicate 1024 0)

/-- Symbol of a value under a dynamic table: every value below 1,000 is direct. -/
def dynSym (z : Nat) : Nat := if z < 1000 then z else 1000 + escFor z

def histogram (zs : List Nat) : List (Nat × Nat) :=
  let a := zs.foldl (fun (a : Array Nat) z => a.modify (dynSym z) (· + 1)) (Array.replicate 1024 0)
  (List.range 1024).filterMap fun s => if a.getD s 0 = 0 then none else some (s, a.getD s 0)

def dynTab (zs : List Nat) : CodeTab := mkTab (hufLens 32 (histogram zs))

/-! ### Writing a swath (R190) -/

/-- The `n` low bits of a number, most significant first. -/
def msbBits (n v : Nat) : List Bool := (List.range n).map fun i => v.testBit (n - 1 - i)

/-- LENS items: lengths, and runs of up to 16 absent symbols. -/
def lensItems : Nat → List Nat → List Bool
  | 0, _ => []
  | _ + 1, [] => []
  | f + 1, l :: ls =>
    if l ≠ 0 then msbBits 4 l ++ lensItems f ls
    else
      let run := min 16 ((l :: ls).takeWhile (· = 0)).length
      msbBits 4 0 ++ msbBits 4 (run - 1) ++ lensItems f ((l :: ls).drop run)

/-- The dynamic table as the swath carries it (R187). -/
def dynTabBits (t : CodeTab) : List Bool :=
  let nlo := ((List.range 1000).filter fun s => t.len.getD s 0 != 0).foldl (fun m s => max m (s + 1)) 0
  let mask := (List.range 24).map fun k => t.len.getD (1000 + k) 0 != 0
  msbBits 10 nlo ++ lensItems (nlo + 1) ((List.range nlo).map fun s => t.len.getD s 0) ++ mask ++
    ((List.range 24).filter fun k => t.len.getD (1000 + k) 0 != 0).flatMap fun k => msbBits 4 (t.len.getD (1000 + k) 0)

/-- The code of a value and the raw bits of its escape. -/
def valueBits (t : CodeTab) (z : Nat) : List Bool :=
  let s := symFor t z
  msbBits (t.len.getD s 0) (t.code.getD s 0) ++ (if 1000 ≤ s then msbBits (escBits (s - 1000)) z else [])

/-- Bits that a table takes for a list of values. -/
def valueCost (t : CodeTab) (zs : List Nat) : Nat :=
  zs.foldl (fun n z => let s := symFor t z; n + t.len.getD s 0 + (if 1000 ≤ s then escBits (s - 1000) else 0)) 0

/-- Packs the first `8 n` bits into bytes from bit 7 down, zeros after the last. -/
def packGo : Nat → List Bool → List Nat
  | 0, _ => []
  | n + 1, bs => ((List.range 8).foldl (fun v i => 2 * v + b2n (bs.getD i false)) 0) :: packGo n (bs.drop 8)

def packBits (bs : List Bool) : List Nat := packGo (ceilDiv bs.length 8) bs

/-- A coded swath: its bytes, STAB and predictor. -/
structure SwathForm where
  bytes : List Nat
  stab : Nat
  pred : Nat
  deriving DecidableEq, Repr

/-- The 1,024 bytes of a swath's lines. -/
def swathBytes (lines : List Nat) : List Nat := lines.flatMap (toBytes 64)

def storedForm (lines : List Nat) : SwathForm := { bytes := 0xE0 :: swathBytes lines, stab := 7, pred := 0 }

/-- A coded form, or the stored form when it would exceed 1,025 bytes (R195). -/
def orStored (lines : List Nat) (stab pred : Nat) (bits : List Bool) : SwathForm :=
  if 8200 < bits.length then storedForm lines else { bytes := packBits bits, stab := stab, pred := pred }

def staticTabs : List CodeTab := (List.range 6).map staticTab

/-- The static form: the table with the fewest bits, the lowest on a tie. -/
def staticForm (lines : List Nat) (pred : Nat) (zs : List Nat) : SwathForm :=
  let costs := staticTabs.map fun t => valueCost t zs
  let best := (List.range 6).foldl (fun b t => if costs.getD t 0 < costs.getD b 0 then t else b) 0
  if 8200 < 5 + costs.getD best 0 then storedForm lines
  else
    let t := staticTabs.getD best (staticTab 0)
    orStored lines best pred (msbBits 3 best ++ msbBits 2 pred ++ zs.flatMap (valueBits t))

/-- The dynamic form. -/
def dynForm (lines : List Nat) (pred : Nat) (zs : List Nat) : SwathForm :=
  let t := dynTab zs
  orStored lines 6 pred (msbBits 3 6 ++ msbBits 2 pred ++ dynTabBits t ++ zs.flatMap (valueBits t))

/-! ### Encoding a page (R188, R189, R194 to R196) -/

/-- Cost of a residue in the selection (R194). -/
def zCost (z : Nat) : Nat := 2 * bitLen z + 1

/-- The predictor of a swath at a grain with its cost: the least cost, the lowest on a tie. -/
def bestPred (g : Nat) (lines : List Nat) : Nat × Nat :=
  let cost (p : Nat) : Nat := (swathResidues g p lines).foldl (fun n z => n + zCost z) 0
  (List.range 4).foldl (fun (b : Nat × Nat) p => let c := cost p; if p = 0 ∨ c < b.2 then (p, c) else b) (0, 0)

/-- Swath `s` of a page. -/
def swathOf (page : List Nat) (s : Nat) : List Nat := (page.drop (16 * s)).take 16

/-- The grain and the predictors (R194); `hint` is the grain of PGC. -/
def selection (page : List Nat) (hint : Nat) : Nat × List Nat :=
  let rows := (List.range 4).map fun g => (List.range 4).map fun s => bestPred g (swathOf page s)
  let total (g : Nat) : Nat := ((rows.getD g []).map Prod.snd).sum
  let least := (List.range 4).foldl (fun m g => min m (total g)) (total 0)
  let g := if hint < 4 ∧ total hint = least then hint
    else ((List.range 4).find? fun g => total g == least).getD 0
  (g, (rows.getD g []).map Prod.fst)

/-- The 16-bit sum of a swath's words (R191). -/
def swathCheck (bytes : List Nat) : Nat :=
  ((List.range 512).foldl (fun n i => n + bytes.getD (2 * i) 0 + 256 * bytes.getD (2 * i + 1) 0) 0) % 65536

/-- What a compression job returns (chapter 7, Encoding). -/
structure PageForm where
  bytes : List Nat
  scnt : Nat
  tsel : Nat
  pgc : Nat
  deriving DecidableEq, Repr

/-- The value that most items of a list take, the lowest on a tie. -/
def mostOf (l : List Nat) : Nat :=
  (List.range 8).foldl (fun b v => if l.count b < l.count v then v else b) 0

/-- Sheaves that a page of coded swaths needs. -/
def sheavesFor (fs : List SwathForm) : Nat := ceilDiv (16 + (fs.map (·.bytes.length)).sum) 256

/-- Writes the page (R188, R189). -/
def writePage (page : List Nat) (g : Nat) (fs : List SwathForm) : PageForm :=
  let lens := fs.map (·.bytes.length)
  let o1 := 16 + lens.getD 0 0
  let o2 := o1 + lens.getD 1 0
  let o3 := o2 + lens.getD 2 0
  let e := o3 + lens.getD 3 0
  let scnt := ceilDiv e 256
  let tsel := mostOf (fs.map (·.stab))
  let coded := (fs.filter fun f => f.stab != 7).map (·.pred)
  let lo := 1 + g * 2 ^ 4 + tsel * 2 ^ 6 + scnt * 2 ^ 9 + o1 * 2 ^ 16 + o2 * 2 ^ 28 + o3 * 2 ^ 40 + e * 2 ^ 52
  let hi := (List.range 4).foldl (fun v s => v + swathCheck (swathBytes (swathOf page s)) * 2 ^ (16 * s)) 0
  let body := toBytes 8 lo ++ toBytes 8 hi ++ fs.flatMap (·.bytes)
  { bytes := body ++ List.replicate (256 * scnt - e) 0, scnt := scnt, tsel := tsel,
    pgc := g * 8 + (if coded.isEmpty then 4 else mostOf coded) }

/-- The grain and the swath forms of a compression job before its budget counts (R194, R195), and whether its page was re-coded. `budget` is
in sheaves, 1 to 15. -/
def pageForms (page : List Nat) (cpol thresh budget pgc : Nat) (low : Bool) : Nat × Bool × List SwathForm :=
  let (g, preds) := selection page (pgc / 8 % 4)
  let cpol := if low ∨ cpol = 1 then 1 else cpol
  let swaths := (List.range 4).map fun s =>
    let lines := swathOf page s
    let p := preds.getD s 0
    (lines, p, swathResidues g p lines)
  let stat := if cpol = 1 then [] else swaths.map fun x => staticForm x.1 x.2.1 x.2.2
  let dyn (_ : Unit) : List SwathForm := swaths.map fun x => dynForm x.1 x.2.1 x.2.2
  if cpol = 1 then (g, false, dyn ())
  else if cpol = 2 ∧ (thresh < sheavesFor stat ∨ budget < sheavesFor stat) then
    (g, true, List.zipWith (fun s t => if t.bytes.length < s.bytes.length then t else s) stat (dyn ()))
  else (g, false, stat)

/-- A compression job (R194 to R196): the page form, or none when the budget is passed. -/
def compressPage (page : List Nat) (cpol thresh budget pgc : Nat) (low : Bool) : Option PageForm :=
  let (g, _, fs) := pageForms page cpol thresh budget pgc low
  if 256 * budget < 16 + (fs.map (·.bytes.length)).sum then none else some (writePage page g fs)

/-! ### Decoding (R189 to R193) -/

/-- A bit reader's result: a value and the remaining bits, or a cause of Table 7.6. -/
abbrev Reader (α : Type) := Except Nat (α × List Bool)

/-- Reads `n` bits, most significant first; cause 5 at the end of the stream. -/
def readBits (n : Nat) (bs : List Bool) : Reader Nat :=
  if bs.length < n then .error 5 else .ok ((bs.take n).foldl (fun v b => 2 * v + b2n b) 0, bs.drop n)

/-- Bits of bytes from bit 7 down. -/
def bitsOfBytes (bs : List Nat) : List Bool := bs.flatMap (msbBits 8)

/-- Reads LENS: `left` symbols are still to come (R187). -/
def readLens : Nat → Nat → List Nat → List Bool → Reader (List Nat)
  | 0, _, acc, bs => .ok (acc.reverse, bs)
  | f + 1, left, acc, bs =>
    if left = 0 then .ok (acc.reverse, bs)
    else match readBits 4 bs with
      | .error c => .error c
      | .ok (l, bs) =>
        if l ≠ 0 then readLens f (left - 1) (l :: acc) bs
        else match readBits 4 bs with
          | .error c => .error c
          | .ok (r, bs) => if left < r + 1 then .error 2 else readLens f (left - (r + 1)) (List.replicate (r + 1) 0 ++ acc) bs

/-- Reads ESCLEN for the escapes of the mask. -/
def readEscLens : List Bool → List Nat → List Bool → Reader (List Nat)
  | [], acc, bs => .ok (acc.reverse, bs)
  | false :: ms, acc, bs => readEscLens ms (0 :: acc) bs
  | true :: ms, acc, bs =>
    match readBits 4 bs with
    | .error c => .error c
    | .ok (l, bs) => if l = 0 then .error 2 else readEscLens ms (l :: acc) bs

/-- Reads a dynamic table. -/
def readTable (bs : List Bool) : Reader (Array Nat) :=
  match readBits 10 bs with
  | .error c => .error c
  | .ok (nlo, bs) =>
    if 1000 < nlo then .error 2
    else match readLens (nlo + 1) nlo [] bs with
      | .error c => .error c
      | .ok (lo, bs) =>
        match readBits 24 bs with
        | .error c => .error c
        | .ok (mask, bs) =>
          match readEscLens (msbBits 24 mask) [] bs with
          | .error c => .error c
          | .ok (esc, bs) =>
            let lens := (lo ++ List.replicate (1000 - nlo) 0 ++ esc).toArray
            if tabValid lens then .ok (lens, bs) else .error 2

/-- Reads one code: tries the lengths in order. -/
def readCode : List (Nat × Nat × Array Nat) → Nat → List Bool → Reader Nat
  | [], _, _ => .error 3
  | (_, first, syms) :: rows, c, bs =>
    match bs with
    | [] => .error 5
    | b :: bs =>
      let c := 2 * c + b2n b
      if first ≤ c ∧ c < first + syms.size then .ok (syms.getD (c - first) 0, bs) else readCode rows c bs

/-- Reads one value: a direct symbol or an escape with its raw bits (R183), checked against the grain. -/
def readValue (g : Nat) (rows : List (Nat × Nat × Array Nat)) (bs : List Bool) : Reader Nat :=
  match readCode rows 0 bs with
  | .error c => .error c
  | .ok (s, bs) =>
    let check (z : Nat) (bs : List Bool) : Reader Nat := if z < 2 ^ grainBits g then .ok (z, bs) else .error 4
    if s < 1000 then check s bs
    else match readBits (escBits (s - 1000)) bs with
      | .error c => .error c
      | .ok (z, bs) => check z bs

/-- Reads one line of elements, given the line above. -/
def readLine (g p : Nat) (rows : List (Nat × Nat × Array Nat)) : List Nat → Nat → Nat → List Nat → List Bool → Reader (List Nat)
  | [], _, _, acc, bs => .ok (acc.reverse, bs)
  | a :: as, l, al, acc, bs =>
    match readValue g rows bs with
    | .error c => .error c
    | .ok (z, bs) =>
      let x := (predict g p l a al + unzigzag g z) % 2 ^ grainBits g
      readLine g p rows as x a (x :: acc) bs

/-- Reads `n` lines. -/
def readLines (g p : Nat) (rows : List (Nat × Nat × Array Nat)) : Nat → List Nat → List (List Nat) → List Bool →
    Reader (List (List Nat))
  | 0, _, acc, bs => .ok (acc.reverse, bs)
  | n + 1, above, acc, bs =>
    match readLine g p rows above 0 0 [] bs with
    | .error c => .error c
    | .ok (row, bs) => readLines g p rows n row (row :: acc) bs

/-- The line whose elements are given. -/
def lineOfElems (g : Nat) (es : List Nat) : Nat := es.foldr (fun e v => v * 2 ^ grainBits g + e) 0

/-- What must hold after the last field: fewer than eight bits, all zero. -/
def endCheck (bs : List Bool) (lines : List Nat) : Except Nat (List Nat) :=
  if 8 ≤ bs.length then .error 5 else if bs.any id then .error 6 else .ok lines

/-- Decodes a swath's stream into its 16 lines, or the cause of Table 7.6 that stream order meets first. -/
def decodeStream (g : Nat) (bytes : List Nat) : Except Nat (List Nat) :=
  match readBits 5 (bitsOfBytes bytes) with
  | .error c => .error c
  | .ok (h, bs) =>
    let stab := h / 4
    let pred := h % 4
    if stab = 7 then
      if pred ≠ 0 then .error 6
      else match readBits 3 bs with
        | .error c => .error c
        | .ok (pad, bs) =>
          if pad ≠ 0 then .error 6
          else if bs.length < 8192 then .error 5
          else endCheck (bs.drop 8192)
            ((List.range 16).map fun i => ofBytes (((bytes.drop 1).drop (64 * i)).take 64))
    else
      let tab : Reader (Array Nat) := if stab = 6 then readTable bs else .ok ((staticTabs.getD stab (staticTab 0)).len, bs)
      match tab with
      | .error c => .error c
      | .ok (lens, bs) =>
        let rows := (canonRows lens).map fun r => (r.1, r.2.1, r.2.2.toArray)
        match readLines g pred rows 16 (List.replicate (512 / grainBits g) 0) [] bs with
        | .error c => .error c
        | .ok (ls, bs) => endCheck bs (ls.map (lineOfElems g))

/-- The header of a compressed page (Table 7.4), as its offsets and checks. -/
structure PageHead where
  grain : Nat
  offs : List Nat
  chk : List Nat
  deriving DecidableEq, Repr

/-- Reads and checks the header (R189). -/
def readHead (bytes : List Nat) (scnt : Nat) : Option PageHead :=
  let lo := ofBytes (bytes.take 8)
  let hi := ofBytes ((bytes.drop 8).take 8)
  let o1 := bitsOf lo 27 16
  let o2 := bitsOf lo 39 28
  let o3 := bitsOf lo 51 40
  let e := bitsOf lo 63 52
  if bitsOf lo 3 0 = 1 ∧ bitsOf lo 15 13 = 0 ∧ bitsOf lo 12 9 = scnt ∧ 16 < o1 ∧ o1 < o2 ∧ o2 < o3 ∧ o3 < e ∧
      e ≤ 256 * scnt ∧ 256 * (scnt - 1) < e then
    some { grain := bitsOf lo 5 4, offs := [16, o1, o2, o3, e],
           chk := (List.range 4).map fun s => bitsOf hi (16 * s + 15) (16 * s) }
  else none

/-- Decodes swath `s` of a fallow page from its deciphered lines and their poison marks, in the order of R193. -/
def decodeSwath (bytes : List Nat) (poison : List Bool) (scnt s : Nat) : Except Nat (List Nat) :=
  if poison.headD false then .error 8
  else match readHead bytes scnt with
    | none => .error 1
    | some h =>
      let a := h.offs.getD s 0
      let b := h.offs.getD (s + 1) 0
      if (List.range (4 * scnt)).any fun i => poison.getD i false && decide (64 * i < b) && decide (a < 64 * i + 64) then .error 8
      else match decodeStream h.grain ((bytes.drop a).take (b - a)) with
        | .error c => .error c
        | .ok lines => if swathCheck (swathBytes lines) = h.chk.getD s 0 then .ok lines else .error 7

end Sys2Proof.Machine
end

