-- ==== Sys2Proof/Config.lean ====
section
/-! DEFINITION. What one part fixes and the values that the manual leaves open. An `opaque` constant has no body:
nothing is known of its value, so a claim that mentions it holds for every value. -/

namespace Sys2Proof

/-- The device-unique serial number (R471). -/
opaque Config.serial : BitVec 64

/-- The k-th 256-bit word that the TRNG puts out (R205, R272). Free value, log entry 3. -/
opaque Config.trng : Nat → BitVec 256

/-- What the counter of an ID counts, for the IDs that the manual leaves to the Deck catalogue (R434, R436); none where it is none of
the events that the manual lists. Free value. -/
opaque Config.counterEvent : (id : Nat) → Option Machine.EvKey

/-- Value, at a time, of a level counter (R434, R436). Free value. -/
opaque Config.counterValue : (id : Nat) → (clk : Nat) → BitVec 48

/-- What an event counter that counts none of the listed events gains in one step of 1.25 ns, modulo 5 (R434: at most 3.2 G per second,
which is 4). Free value. -/
opaque Config.counterStep : (id : Nat) → (clk : Nat) → Nat

/-- Whether a counter shows a level rather than counting events (R434: the Deck catalogue says so). Free value. -/
opaque Config.counterLevel : (id : Nat) → Bool

/-- Time between read `i` of a Tally pass begun at a time and the read before it, in ns less 1, modulo 22 (R439, R445: at
most 22 ns). Free value. -/
opaque Config.talGap : (clk i : Nat) → Nat

/-- Whether draw `k` of a channel's neighbour-refresh generator, seeded from TRNG word `w`, hits with probability 2^−K
(R269, R272). Free value. -/
opaque Config.nrfHit : (chan w k kk : Nat) → Bool

/-- Initiation and maximum thresholds of the rolling activate count of a channel's banks, and what a refresh takes off it
(R273: the DDR5 standard and the devices' mode registers give them). Free values. -/
opaque Config.rfmInit : (chan : Nat) → Nat
opaque Config.rfmMax : (chan : Nat) → Nat
opaque Config.rfmRefresh : (chan : Nat) → Nat

/-- The devices of a channel support RFMsb, which covers one bank index of a rank (R273). Free value. -/
opaque Config.rfmSb : (chan : Nat) → Bool

/-- The least value of turnaround field `i` of CHN_TIMx3 that the DDR5 standard derives from CL and CWL (R254). Free value. -/
opaque Config.turnMin : (i cl cwl : Nat) → Nat

/-- The fixed hash of row `r` of a Tedder's hotness sketch over DPA[47:12] (R158); used modulo 256 Ki. Free value. -/
opaque Config.sketchHash : (r page : Nat) → Nat

/-- Session number `k` that a dealer draws (R373, Table 14.2: not zero); taken modulo 2^32 − 1, plus 1. Free value. -/
opaque Config.session : Nat → Nat

/-- A field of an event record for which the manual gives no value; the k-th such field. Free value. -/
opaque Config.unstated : Nat → BitVec 64

/-- Keaden's vendor identifier (R2), and the UUID of its event records (Table 4.8). Free values. -/
opaque Config.vendorId : BitVec 16
opaque Config.vendorUuid : BitVec 128

/-- Names of the Deck table's counter and event type entries, 20 bytes each (R95, Table 4.9). Free values. -/
opaque Config.deckName : (type index : Nat) → BitVec 160

/-- Dwords of the standard's structures that the manual leaves to the standard or to the part: configuration space by function and
offset (R90, R91), and component and device registers (R458). Free values. -/
opaque Config.configDword : (fn off : Nat) → BitVec 32
opaque Config.standardDword : (fn off : Nat) → BitVec 32

/-- What a main-die temperature sensor reads, in °C, and the other bytes of the standard's health and alert answers (ch. 19). Free values. -/
opaque Config.sensorTemp : (drawn sensor : Nat) → BitVec 8
opaque Config.healthByte : (drawn i : Nat) → BitVec 8
opaque Config.alertByte : (i : Nat) → BitVec 8

/-- SPDM measurement blocks 0 and 1 (R421: boot ROM; firmware of the running slot), and the rest of an SPDM answer, which the
standard gives. Free values. -/
opaque Config.measurement : (block slot : Nat) → List Nat
opaque Config.attestation : (fn : Nat) → List Nat

/-- What an LD in a host error reads, and how its requests are bound, the k-th time (R7: unpredictable). Free values. -/
opaque Config.wildLine : Nat → BitVec 512
opaque Config.wildBit : Nat → Bool

/-- At the k-th device-wide reset: the hub of module slot `i` (channel × 2 + slot) does not answer (R243); the stored training record of a
channel fails its CRC (R249). Free values. -/
opaque Config.hubSilent : (k i : Nat) → Bool
opaque Config.recordBad : (k chan : Nat) → Bool

end Sys2Proof
end

