-- ==== Sys2Proof/Machine/Registers.lean ====
section
/-! DEFINITION. The register catalogue: every register of Table 18.12 as a constructor of `Reg`, with its
management-view offset, its width, and the fields of its table (bits, access type of Table 0.3, reset value). -/

namespace Sys2Proof.Machine

/-- Access types of Table 0.3 (R5). -/
inductive Acc where
  | rw | ro | rw1c | rws | rwl | wo | rsv
  deriving DecidableEq, Repr

/-- A bit range [hi:lo] of a register. -/
structure Fld where
  hi : Nat
  lo : Nat
  deriving DecidableEq, Repr

/-- One row of a register's field table. -/
structure FieldDef where
  hi : Nat
  lo : Nat
  acc : Acc
  reset : Nat
  deriving DecidableEq, Repr

/-- The registers of Table 18.12 (R461); an argument is the instance index that the table gives. -/
inductive Reg where
  | gblId
  | gblSerial
  | gblStrap
  | gblLock
  | gblAccerr
  | gblReset
  | gblBoot
  | gblIntStat
  | gblIntEn
  | gblIntCtrl
  | gblAvsCtrl
  | gblAvsQ (n : Nat)
  | gblAvsSpd (n : Nat)
  | gblLdwin (n : Nat)
  | gblFtab
  | gblLdbind (n : Nat)
  | hpCfg (p : Nat)
  | hpStat (p : Nat) (h : Nat)
  | hpBmstat (p : Nat) (h : Nat)
  | homeCtrl
  | homeBitimer
  | homeLdstat
  | homeQstat (s : Nat)
  | homeEcccnt (s : Nat)
  | homeGrant (n : Nat)
  | homeGrantstat
  | tedCtrl (t : Nat)
  | tedQuota (t : Nat)
  | tedCursor (t : Nat)
  | tedEpochLag (t : Nat)
  | tedEpochMaxlag (t : Nat)
  | tedThresh
  | tedPool (k : Nat)
  | tedPoolFree
  | tedPoolResv
  | tedWm
  | tedHold
  | tedPoolStat
  | tedLdcap (n : Nat)
  | tedLdflat (n : Nat)
  | tedLduse (n : Nat)
  | tedLdgrant (n : Nat)
  | balEn
  | balFault
  | balStat
  | balQ (n : Nat)
  | cipLdkey (n : Nat)
  | cipSetstat
  | cipMajhw
  | cipQstat (q : Nat)
  | chnStat (c : Nat)
  | chnPop (c : Nat)
  | chnQcfg (q : Nat)
  | chnSched (c : Nat)
  | chnQstat (c : Nat)
  | chnRef (c : Nat)
  | chnRefLag (c : Nat)
  | chnRefMaxlag (c : Nat)
  | chnNrf (c : Nat)
  | chnNrfstat (c : Nat)
  | chnRfm (c : Nat)
  | chnTrain (c : Nat)
  | chnEccCtrl (c : Nat)
  | chnEccWin (c : Nat)
  | chnEccRank (c : Nat) (r : Nat)
  | chnRankstat (c : Nat)
  | chnSpare (c : Nat)
  | chnSpareCp (c : Nat)
  | chnScrub (c : Nat)
  | chnScrubPos (c : Nat)
  | chnScrubLag (c : Nat)
  | chnScrubMaxlag (c : Nat)
  | chnFchg (c : Nat)
  | chnFchgTime (c : Nat)
  | chnPwr (c : Nat)
  | chnPwrstat (c : Nat)
  | chnAmap (c : Nat)
  | chnRankmap (c : Nat)
  | chnTim0 (c : Nat) (x : Nat)
  | chnTim1 (c : Nat) (x : Nat)
  | chnTim2 (c : Nat) (x : Nat)
  | chnTim3 (c : Nat) (x : Nat)
  | leyCtrl (p : Nat)
  | leyStat (p : Nat)
  | leyRtcfg (p : Nat)
  | leyErr (p : Nat)
  | leyCred (p : Nat) (v : Nat)
  | leyLast (p : Nat)
  | casId
  | casCtrl
  | casFoldmap
  | casFoldstat
  | casMacc
  | casMdata
  | casMember (d : Nat)
  | casMser (d : Nat)
  | casSetMap (n : Nat)
  | casSetCtrl (n : Nat)
  | casTgt (k : Nat)
  | rngCrBase (s : Nat) (r : Nat)
  | rngCrCtrl (s : Nat) (r : Nat)
  | rngCrTail (s : Nat) (r : Nat)
  | rngCrStat (s : Nat) (r : Nat)
  | rngCqBase (s : Nat) (r : Nat)
  | rngCqCtrl (s : Nat) (r : Nat)
  | rngCqHead (s : Nat) (r : Nat)
  | rngCqStat (s : Nat) (r : Nat)
  | rngSnapstat (s : Nat)
  | talCtrl
  | talStat
  | talTime
  | talSweepLag
  | talSweepMaxlag
  | talWatch (k : Nat)
  | talWatchstat
  | stlStat
  | stlFeedCtrl (x : Nat)
  | stlFeedStat (x : Nat)
  | stlVthr
  | stlIlim
  | stlTime
  | stlPfw
  | stlMeas0
  | stlMeas1
  | stlLogstat
  | stlLog (k : Nat)
  | otpStat
  | otpCommit
  | crossHead (n : Nat)
  | crossChn (n : Nat)
  | crossLey (n : Nat)
  | crossMgt
  | crossSum0
  | crossSum1
  | crossIntEn0
  | crossIntEn1
  deriving DecidableEq, Repr

/-- Management-view offset (Table 18.12). -/
def Reg.offset : Reg → Nat
  | .gblId => 0x100000
  | .gblSerial => 0x100008
  | .gblStrap => 0x100010
  | .gblLock => 0x100020
  | .gblAccerr => 0x100028
  | .gblReset => 0x100040
  | .gblBoot => 0x100044
  | .gblIntStat => 0x100100
  | .gblIntEn => 0x100104
  | .gblIntCtrl => 0x100108
  | .gblAvsCtrl => 0x100400
  | .gblAvsQ n => 0x100410 + 0x4 * n
  | .gblAvsSpd n => 0x100420 + 0x4 * n
  | .gblLdwin n => 0x100500 + 0x8 * n
  | .gblFtab => 0x100580
  | .gblLdbind n => 0x100600 + 0x4 * n
  | .hpCfg p => 0x200000 + 0x40000 * p
  | .hpStat p h => 0x200100 + 0x40000 * p + 0x4 * h
  | .hpBmstat p h => 0x200110 + 0x40000 * p + 0x4 * h
  | .homeCtrl => 0x400000
  | .homeBitimer => 0x400008
  | .homeLdstat => 0x400010
  | .homeQstat s => 0x400020 + 0x10000 * s
  | .homeEcccnt s => 0x400024 + 0x10000 * s
  | .homeGrant n => 0x400100 + 0x4 * n
  | .homeGrantstat => 0x400140
  | .tedCtrl t => 0x600000 + 0x40000 * t
  | .tedQuota t => 0x600004 + 0x40000 * t
  | .tedCursor t => 0x600008 + 0x40000 * t
  | .tedEpochLag t => 0x600040 + 0x40000 * t
  | .tedEpochMaxlag t => 0x600044 + 0x40000 * t
  | .tedThresh => 0x600100
  | .tedPool k => 0x600200 + 0x8 * k
  | .tedPoolFree => 0x600300
  | .tedPoolResv => 0x600308
  | .tedWm => 0x600310
  | .tedHold => 0x600318
  | .tedPoolStat => 0x600320
  | .tedLdcap n => 0x600400 + 0x10 * n
  | .tedLdflat n => 0x600408 + 0x10 * n
  | .tedLduse n => 0x600600 + 0x10 * n
  | .tedLdgrant n => 0x600608 + 0x10 * n
  | .balEn => 0x700000
  | .balFault => 0x700004
  | .balStat => 0x700008
  | .balQ n => 0x700100 + 0x4 * n
  | .cipLdkey n => 0x800000 + 0x4 * n
  | .cipSetstat => 0x800040
  | .cipMajhw => 0x800048
  | .cipQstat q => 0x800080 + 0x4 * q
  | .chnStat c => 0x900000 + 0x20000 * c
  | .chnPop c => 0x900004 + 0x20000 * c
  | .chnQcfg q => 0x900008 + 0xc0000 * q
  | .chnSched c => 0x900020 + 0x20000 * c
  | .chnQstat c => 0x900024 + 0x20000 * c
  | .chnRef c => 0x900030 + 0x20000 * c
  | .chnRefLag c => 0x900040 + 0x20000 * c
  | .chnRefMaxlag c => 0x900044 + 0x20000 * c
  | .chnNrf c => 0x900050 + 0x20000 * c
  | .chnNrfstat c => 0x900054 + 0x20000 * c
  | .chnRfm c => 0x900058 + 0x20000 * c
  | .chnTrain c => 0x900070 + 0x20000 * c
  | .chnEccCtrl c => 0x900080 + 0x20000 * c
  | .chnEccWin c => 0x900084 + 0x20000 * c
  | .chnEccRank c r => 0x900090 + 0x20000 * c + 0x4 * r
  | .chnRankstat c => 0x9000b0 + 0x20000 * c
  | .chnSpare c => 0x9000b4 + 0x20000 * c
  | .chnSpareCp c => 0x9000b8 + 0x20000 * c
  | .chnScrub c => 0x9000c0 + 0x20000 * c
  | .chnScrubPos c => 0x9000c8 + 0x20000 * c
  | .chnScrubLag c => 0x9000d0 + 0x20000 * c
  | .chnScrubMaxlag c => 0x9000d4 + 0x20000 * c
  | .chnFchg c => 0x9000e0 + 0x20000 * c
  | .chnFchgTime c => 0x9000e4 + 0x20000 * c
  | .chnPwr c => 0x9000f0 + 0x20000 * c
  | .chnPwrstat c => 0x9000f4 + 0x20000 * c
  | .chnAmap c => 0x900100 + 0x20000 * c
  | .chnRankmap c => 0x900104 + 0x20000 * c
  | .chnTim0 c x => 0x900200 + 0x20000 * c + 0x40 * x
  | .chnTim1 c x => 0x900208 + 0x20000 * c + 0x40 * x
  | .chnTim2 c x => 0x900210 + 0x20000 * c + 0x40 * x
  | .chnTim3 c x => 0x900218 + 0x20000 * c + 0x40 * x
  | .leyCtrl p => 0xc00000 + 0x10000 * p
  | .leyStat p => 0xc00004 + 0x10000 * p
  | .leyRtcfg p => 0xc00008 + 0x10000 * p
  | .leyErr p => 0xc0000c + 0x10000 * p
  | .leyCred p v => 0xc00010 + 0x10000 * p + 0x8 * v
  | .leyLast p => 0xc00030 + 0x10000 * p
  | .casId => 0xd00000
  | .casCtrl => 0xd00004
  | .casFoldmap => 0xd00008
  | .casFoldstat => 0xd00010
  | .casMacc => 0xd00020
  | .casMdata => 0xd00028
  | .casMember d => 0xd00040 + 0x10 * d
  | .casMser d => 0xd00048 + 0x10 * d
  | .casSetMap n => 0xd01000 + 0x10 * n
  | .casSetCtrl n => 0xd01008 + 0x10 * n
  | .casTgt k => 0xd02000 + 0x4 * k
  | .rngCrBase s r => 0xe00000 + 0x2000 * s + 0x20 * r
  | .rngCrCtrl s r => 0xe00008 + 0x2000 * s + 0x20 * r
  | .rngCrTail s r => 0xe0000c + 0x2000 * s + 0x20 * r
  | .rngCrStat s r => 0xe00010 + 0x2000 * s + 0x20 * r
  | .rngCqBase s r => 0xe00100 + 0x2000 * s + 0x20 * r
  | .rngCqCtrl s r => 0xe00108 + 0x2000 * s + 0x20 * r
  | .rngCqHead s r => 0xe0010c + 0x2000 * s + 0x20 * r
  | .rngCqStat s r => 0xe00110 + 0x2000 * s + 0x20 * r
  | .rngSnapstat s => 0xe00200 + 0x2000 * s
  | .talCtrl => 0xf00000
  | .talStat => 0xf00004
  | .talTime => 0xf00008
  | .talSweepLag => 0xf00040
  | .talSweepMaxlag => 0xf00044
  | .talWatch k => 0xf00100 + 0x10 * k
  | .talWatchstat => 0xf00200
  | .stlStat => 0x1000004
  | .stlFeedCtrl x => 0x1000010 + 0x4 * x
  | .stlFeedStat x => 0x1000018 + 0x4 * x
  | .stlVthr => 0x1000020
  | .stlIlim => 0x1000028
  | .stlTime => 0x100002c
  | .stlPfw => 0x1000030
  | .stlMeas0 => 0x1000040
  | .stlMeas1 => 0x1000048
  | .stlLogstat => 0x1000050
  | .stlLog k => 0x1000080 + 0x8 * k
  | .otpStat => 0x1100000
  | .otpCommit => 0x1100004
  | .crossHead n => 0x1200000 + 0x4 * n
  | .crossChn n => 0x1200040 + 0x4 * n
  | .crossLey n => 0x12000c0 + 0x4 * n
  | .crossMgt => 0x12000e0
  | .crossSum0 => 0x1200100
  | .crossSum1 => 0x1200104
  | .crossIntEn0 => 0x1200108
  | .crossIntEn1 => 0x120010c

/-- Width in bits (R461). -/
def Reg.width : Reg → Nat
  | .gblId => 32
  | .gblSerial => 64
  | .gblStrap => 32
  | .gblLock => 32
  | .gblAccerr => 64
  | .gblReset => 32
  | .gblBoot => 32
  | .gblIntStat => 32
  | .gblIntEn => 32
  | .gblIntCtrl => 32
  | .gblAvsCtrl => 32
  | .gblAvsQ _ => 32
  | .gblAvsSpd _ => 32
  | .gblLdwin _ => 64
  | .gblFtab => 64
  | .gblLdbind _ => 32
  | .hpCfg _ => 32
  | .hpStat _ _ => 32
  | .hpBmstat _ _ => 32
  | .homeCtrl => 32
  | .homeBitimer => 32
  | .homeLdstat => 32
  | .homeQstat _ => 32
  | .homeEcccnt _ => 32
  | .homeGrant _ => 32
  | .homeGrantstat => 32
  | .tedCtrl _ => 32
  | .tedQuota _ => 32
  | .tedCursor _ => 64
  | .tedEpochLag _ => 32
  | .tedEpochMaxlag _ => 32
  | .tedThresh => 32
  | .tedPool _ => 64
  | .tedPoolFree => 64
  | .tedPoolResv => 64
  | .tedWm => 64
  | .tedHold => 32
  | .tedPoolStat => 32
  | .tedLdcap _ => 64
  | .tedLdflat _ => 64
  | .tedLduse _ => 64
  | .tedLdgrant _ => 64
  | .balEn => 32
  | .balFault => 32
  | .balStat => 32
  | .balQ _ => 32
  | .cipLdkey _ => 32
  | .cipSetstat => 32
  | .cipMajhw => 64
  | .cipQstat _ => 32
  | .chnStat _ => 32
  | .chnPop _ => 32
  | .chnQcfg _ => 32
  | .chnSched _ => 32
  | .chnQstat _ => 32
  | .chnRef _ => 32
  | .chnRefLag _ => 32
  | .chnRefMaxlag _ => 32
  | .chnNrf _ => 32
  | .chnNrfstat _ => 32
  | .chnRfm _ => 32
  | .chnTrain _ => 32
  | .chnEccCtrl _ => 32
  | .chnEccWin _ => 32
  | .chnEccRank _ _ => 32
  | .chnRankstat _ => 32
  | .chnSpare _ => 32
  | .chnSpareCp _ => 64
  | .chnScrub _ => 32
  | .chnScrubPos _ => 64
  | .chnScrubLag _ => 32
  | .chnScrubMaxlag _ => 32
  | .chnFchg _ => 32
  | .chnFchgTime _ => 32
  | .chnPwr _ => 32
  | .chnPwrstat _ => 32
  | .chnAmap _ => 32
  | .chnRankmap _ => 32
  | .chnTim0 _ _ => 64
  | .chnTim1 _ _ => 64
  | .chnTim2 _ _ => 64
  | .chnTim3 _ _ => 64
  | .leyCtrl _ => 32
  | .leyStat _ => 32
  | .leyRtcfg _ => 32
  | .leyErr _ => 32
  | .leyCred _ _ => 64
  | .leyLast _ => 32
  | .casId => 32
  | .casCtrl => 32
  | .casFoldmap => 64
  | .casFoldstat => 32
  | .casMacc => 64
  | .casMdata => 32
  | .casMember _ => 64
  | .casMser _ => 64
  | .casSetMap _ => 64
  | .casSetCtrl _ => 32
  | .casTgt _ => 32
  | .rngCrBase _ _ => 64
  | .rngCrCtrl _ _ => 32
  | .rngCrTail _ _ => 32
  | .rngCrStat _ _ => 32
  | .rngCqBase _ _ => 64
  | .rngCqCtrl _ _ => 32
  | .rngCqHead _ _ => 32
  | .rngCqStat _ _ => 32
  | .rngSnapstat _ => 64
  | .talCtrl => 32
  | .talStat => 32
  | .talTime => 64
  | .talSweepLag => 32
  | .talSweepMaxlag => 32
  | .talWatch _ => 64
  | .talWatchstat => 32
  | .stlStat => 32
  | .stlFeedCtrl _ => 32
  | .stlFeedStat _ => 32
  | .stlVthr => 64
  | .stlIlim => 32
  | .stlTime => 32
  | .stlPfw => 32
  | .stlMeas0 => 64
  | .stlMeas1 => 64
  | .stlLogstat => 32
  | .stlLog _ => 64
  | .otpStat => 32
  | .otpCommit => 32
  | .crossHead _ => 32
  | .crossChn _ => 32
  | .crossLey _ => 32
  | .crossMgt => 32
  | .crossSum0 => 32
  | .crossSum1 => 32
  | .crossIntEn0 => 32
  | .crossIntEn1 => 32

/-- The field table of each register, in descending bit order. -/
def Reg.fieldDefs : Reg → List FieldDef
  | .gblId => [⟨31, 24, .ro, 1⟩, ⟨23, 16, .ro, 1⟩, ⟨15, 0, .ro, 37376⟩]
  | .gblSerial => [⟨63, 0, .ro, Config.serial.toNat⟩]
  | .gblStrap => [⟨31, 31, .ro, 0⟩, ⟨30, 6, .rsv, 0⟩, ⟨5, 4, .ro, 0⟩, ⟨3, 3, .rsv, 0⟩, ⟨2, 0, .ro, 0⟩]
  | .gblLock => [⟨31, 1, .rsv, 0⟩, ⟨0, 0, .rwl, 0⟩]
  | .gblAccerr => [⟨63, 63, .rw1c, 0⟩, ⟨62, 60, .ro, 0⟩, ⟨59, 57, .ro, 0⟩, ⟨56, 56, .ro, 0⟩, ⟨55, 52, .ro, 0⟩, ⟨51, 48, .rsv, 0⟩, ⟨47, 32, .ro, 0⟩, ⟨31, 25, .rsv, 0⟩, ⟨24, 0, .ro, 0⟩]
  | .gblReset => [⟨31, 8, .rsv, 0⟩, ⟨7, 0, .wo, 0⟩]
  | .gblBoot => [⟨31, 31, .ro, 0⟩, ⟨30, 30, .ro, 0⟩, ⟨29, 29, .ro, 0⟩, ⟨28, 28, .ro, 0⟩, ⟨27, 27, .ro, 0⟩, ⟨26, 24, .rsv, 0⟩, ⟨23, 0, .ro, 0⟩]
  | .gblIntStat => [⟨31, 8, .rsv, 0⟩, ⟨7, 7, .ro, 0⟩, ⟨6, 6, .ro, 0⟩, ⟨5, 5, .ro, 0⟩, ⟨4, 4, .ro, 0⟩, ⟨3, 3, .ro, 0⟩, ⟨2, 2, .ro, 0⟩, ⟨1, 1, .ro, 0⟩, ⟨0, 0, .ro, 0⟩]
  | .gblIntEn => [⟨31, 8, .rsv, 0⟩, ⟨7, 7, .rw, 0⟩, ⟨6, 6, .rw, 0⟩, ⟨5, 5, .rw, 0⟩, ⟨4, 4, .rw, 0⟩, ⟨3, 3, .rw, 0⟩, ⟨2, 2, .rw, 0⟩, ⟨1, 1, .rw, 0⟩, ⟨0, 0, .rw, 0⟩]
  | .gblIntCtrl => [⟨31, 31, .wo, 0⟩, ⟨30, 30, .ro, 1⟩, ⟨29, 6, .rsv, 0⟩, ⟨5, 0, .rw, 0⟩]
  | .gblAvsCtrl => [⟨31, 31, .rw, 1⟩, ⟨30, 24, .rsv, 0⟩, ⟨23, 16, .rw, 10⟩, ⟨15, 8, .rw, 31⟩, ⟨7, 4, .rw, 2⟩, ⟨3, 0, .rw, 2⟩]
  | .gblAvsQ _ => [⟨31, 31, .rw1c, 0⟩, ⟨30, 30, .rw1c, 0⟩, ⟨29, 24, .rsv, 0⟩, ⟨23, 16, .rw, 30⟩, ⟨15, 8, .rw, 41⟩, ⟨7, 0, .rw, 30⟩]
  | .gblAvsSpd _ => [⟨31, 16, .ro, 0⟩, ⟨15, 0, .ro, 0⟩]
  | .gblLdwin _ => [⟨63, 63, .rw, 0⟩, ⟨62, 62, .rw1c, 0⟩, ⟨61, 60, .rsv, 0⟩, ⟨59, 32, .rw, 0⟩, ⟨31, 27, .rsv, 0⟩, ⟨26, 0, .rw, 0⟩]
  | .gblFtab => [⟨63, 48, .rsv, 0⟩, ⟨47, 12, .rwl, 0⟩, ⟨11, 0, .rsv, 0⟩]
  | .gblLdbind _ => [⟨31, 31, .rw, 0⟩, ⟨30, 30, .rw1c, 0⟩, ⟨29, 8, .rsv, 0⟩, ⟨7, 4, .rw, 0⟩, ⟨3, 3, .rsv, 0⟩, ⟨2, 0, .rw, 0⟩]
  | .hpCfg _ => [⟨31, 31, .rws, 0⟩, ⟨30, 28, .rsv, 0⟩, ⟨27, 24, .rw, 6⟩, ⟨23, 20, .rw, 6⟩, ⟨19, 18, .rw, 3⟩, ⟨17, 16, .rw, 3⟩, ⟨15, 0, .rsv, 0⟩]
  | .hpStat _ _ => [⟨31, 31, .ro, 0⟩, ⟨30, 28, .ro, 0⟩, ⟨27, 27, .ro, 0⟩, ⟨26, 26, .ro, 0⟩, ⟨25, 25, .ro, 0⟩, ⟨24, 24, .ro, 0⟩, ⟨23, 20, .ro, 0⟩, ⟨19, 15, .ro, 0⟩, ⟨14, 10, .ro, 0⟩, ⟨9, 0, .rsv, 0⟩]
  | .hpBmstat _ _ => [⟨31, 22, .ro, 0⟩, ⟨21, 12, .ro, 0⟩, ⟨11, 0, .rsv, 0⟩]
  | .homeCtrl => [⟨31, 12, .rsv, 0⟩, ⟨11, 8, .rw, 8⟩, ⟨7, 6, .rsv, 0⟩, ⟨5, 4, .rw, 0⟩, ⟨3, 0, .rsv, 0⟩]
  | .homeBitimer => [⟨31, 20, .rsv, 0⟩, ⟨19, 0, .rw, 10000⟩]
  | .homeLdstat => [⟨31, 16, .ro, 0⟩, ⟨15, 0, .ro, 0⟩]
  | .homeQstat _ => [⟨31, 31, .rw1c, 0⟩, ⟨30, 30, .rw1c, 0⟩, ⟨29, 23, .rsv, 0⟩, ⟨22, 16, .ro, 0⟩, ⟨15, 9, .rsv, 0⟩, ⟨8, 0, .ro, 0⟩]
  | .homeEcccnt _ => [⟨31, 16, .ro, 0⟩, ⟨15, 8, .ro, 0⟩, ⟨7, 0, .ro, 0⟩]
  | .homeGrant _ => [⟨31, 16, .rw, 0⟩, ⟨15, 0, .rw, 0⟩]
  | .homeGrantstat => [⟨31, 16, .rsv, 0⟩, ⟨15, 0, .ro, 0⟩]
  | .tedCtrl _ => [⟨31, 31, .rw, 1⟩, ⟨30, 28, .rsv, 0⟩, ⟨27, 24, .rw, 4⟩, ⟨23, 22, .rsv, 0⟩, ⟨21, 16, .rw, 7⟩, ⟨15, 0, .rw, 1024⟩]
  | .tedQuota _ => [⟨31, 16, .rsv, 0⟩, ⟨15, 0, .rw, 64⟩]
  | .tedCursor t => [⟨63, 36, .rsv, 0⟩, ⟨35, 9, .ro, t⟩, ⟨8, 0, .ro, 0⟩]
  | .tedEpochLag _ => [⟨31, 31, .ro, 0⟩, ⟨30, 0, .ro, 0⟩]
  | .tedEpochMaxlag _ => [⟨31, 31, .wo, 0⟩, ⟨30, 0, .ro, 0⟩]
  | .tedThresh => [⟨31, 20, .rsv, 0⟩, ⟨19, 16, .rw, 12⟩, ⟨15, 12, .rsv, 0⟩, ⟨11, 8, .rw, 2⟩, ⟨7, 4, .rsv, 0⟩, ⟨3, 0, .rw, 0⟩]
  | .tedPool _ => [⟨63, 63, .rw, 0⟩, ⟨62, 62, .rw, 0⟩, ⟨61, 61, .ro, 0⟩, ⟨60, 60, .rw1c, 0⟩, ⟨59, 51, .rsv, 0⟩, ⟨50, 32, .rw, 0⟩, ⟨31, 18, .rsv, 0⟩, ⟨17, 0, .rw, 0⟩]
  | .tedPoolFree => [⟨63, 36, .rsv, 0⟩, ⟨35, 0, .ro, 0⟩]
  | .tedPoolResv => [⟨63, 36, .rsv, 0⟩, ⟨35, 0, .ro, 0⟩]
  | .tedWm => [⟨63, 63, .rw1c, 0⟩, ⟨62, 56, .rsv, 0⟩, ⟨55, 48, .rw, 32⟩, ⟨47, 32, .rw, 4096⟩, ⟨31, 16, .rw, 2048⟩, ⟨15, 0, .rw, 512⟩]
  | .tedHold => [⟨31, 28, .rsv, 0⟩, ⟨27, 20, .rw, 10⟩, ⟨19, 0, .rw, 10000⟩]
  | .tedPoolStat => [⟨31, 31, .ro, 0⟩, ⟨30, 30, .ro, 0⟩, ⟨29, 29, .ro, 0⟩, ⟨28, 28, .rw1c, 0⟩, ⟨27, 24, .rsv, 0⟩, ⟨23, 0, .ro, 0⟩]
  | .tedLdcap _ => [⟨63, 63, .rw1c, 0⟩, ⟨62, 62, .ro, 0⟩, ⟨61, 56, .rsv, 0⟩, ⟨55, 40, .rw, 0⟩, ⟨39, 35, .rsv, 0⟩, ⟨34, 32, .rw, 0⟩, ⟨31, 29, .rsv, 0⟩, ⟨28, 28, .rw, 0⟩, ⟨27, 0, .rw, 0⟩]
  | .tedLdflat _ => [⟨63, 48, .rsv, 0⟩, ⟨47, 21, .rw, 0⟩, ⟨20, 0, .rsv, 0⟩]
  | .tedLduse _ => [⟨63, 42, .rsv, 0⟩, ⟨41, 0, .ro, 0⟩]
  | .tedLdgrant _ => [⟨63, 43, .rsv, 0⟩, ⟨42, 32, .ro, 0⟩, ⟨31, 28, .rsv, 0⟩, ⟨27, 0, .ro, 0⟩]
  | .balEn => [⟨31, 0, .rw, 4294967295⟩]
  | .balFault => [⟨31, 0, .rw1c, 0⟩]
  | .balStat => [⟨31, 31, .rw1c, 0⟩, ⟨30, 6, .rsv, 0⟩, ⟨5, 0, .ro, 32⟩]
  | .balQ _ => [⟨31, 31, .ro, 0⟩, ⟨30, 24, .ro, 0⟩, ⟨23, 16, .rsv, 0⟩, ⟨15, 0, .ro, 0⟩]
  | .cipLdkey _ => [⟨31, 31, .rws, 1⟩, ⟨30, 30, .ro, 0⟩, ⟨29, 29, .rw1c, 0⟩, ⟨28, 26, .rsv, 0⟩, ⟨25, 24, .ro, 0⟩, ⟨23, 16, .rsv, 0⟩, ⟨15, 0, .ro, 0⟩]
  | .cipSetstat => [⟨31, 16, .ro, 0⟩, ⟨15, 0, .ro, 0⟩]
  | .cipMajhw => [⟨63, 0, .ro, 0⟩]
  | .cipQstat _ => [⟨31, 31, .rw1c, 0⟩, ⟨30, 29, .rsv, 0⟩, ⟨28, 24, .ro, 0⟩, ⟨23, 22, .rsv, 0⟩, ⟨21, 16, .ro, 0⟩, ⟨15, 0, .rsv, 0⟩]
  | .chnStat _ => [⟨31, 28, .ro, 0⟩, ⟨27, 24, .ro, 0⟩, ⟨23, 20, .ro, 0⟩, ⟨19, 18, .ro, 0⟩, ⟨17, 16, .ro, 0⟩, ⟨15, 15, .ro, 0⟩, ⟨14, 0, .rsv, 0⟩]
  | .chnPop _ => [⟨31, 16, .ro, 0⟩, ⟨15, 15, .ro, 0⟩, ⟨14, 13, .ro, 0⟩, ⟨12, 12, .ro, 0⟩, ⟨11, 10, .ro, 0⟩, ⟨9, 8, .ro, 0⟩, ⟨7, 6, .ro, 0⟩, ⟨5, 5, .ro, 0⟩, ⟨4, 4, .rsv, 0⟩, ⟨3, 0, .ro, 0⟩]
  | .chnQcfg _ => [⟨31, 30, .ro, 0⟩, ⟨29, 28, .rsv, 0⟩, ⟨27, 24, .rws, 0⟩, ⟨23, 0, .rsv, 0⟩]
  | .chnSched _ => [⟨31, 24, .rw, 64⟩, ⟨23, 16, .rw, 64⟩, ⟨15, 8, .rw, 48⟩, ⟨7, 0, .rw, 16⟩]
  | .chnQstat _ => [⟨31, 24, .ro, 0⟩, ⟨23, 16, .ro, 0⟩, ⟨15, 8, .ro, 0⟩, ⟨7, 0, .ro, 0⟩]
  | .chnRef _ => [⟨31, 31, .rw, 0⟩, ⟨30, 16, .rsv, 0⟩, ⟨15, 8, .rw, 85⟩, ⟨7, 2, .rsv, 0⟩, ⟨1, 0, .rw, 2⟩]
  | .chnRefLag _ => [⟨31, 31, .ro, 0⟩, ⟨30, 0, .ro, 0⟩]
  | .chnRefMaxlag _ => [⟨31, 31, .wo, 0⟩, ⟨30, 0, .ro, 0⟩]
  | .chnNrf _ => [⟨31, 31, .rw, 1⟩, ⟨30, 28, .rsv, 0⟩, ⟨27, 24, .rw, 11⟩, ⟨23, 16, .rsv, 0⟩, ⟨15, 8, .rw, 64⟩, ⟨7, 0, .rsv, 0⟩]
  | .chnNrfstat _ => [⟨31, 31, .rw1c, 0⟩, ⟨30, 30, .rw1c, 0⟩, ⟨29, 13, .rsv, 0⟩, ⟨12, 8, .ro, 0⟩, ⟨7, 5, .rsv, 0⟩, ⟨4, 0, .ro, 0⟩]
  | .chnRfm _ => [⟨31, 31, .ro, 0⟩, ⟨30, 2, .rsv, 0⟩, ⟨1, 0, .rw, 1⟩]
  | .chnTrain _ => [⟨31, 31, .ro, 0⟩, ⟨30, 28, .rsv, 0⟩, ⟨27, 24, .rws, 0⟩, ⟨23, 20, .ro, 0⟩, ⟨19, 16, .rsv, 0⟩, ⟨15, 8, .ro, 0⟩, ⟨7, 0, .ro, 0⟩]
  | .chnEccCtrl _ => [⟨31, 31, .rw, 1⟩, ⟨30, 30, .rw, 0⟩, ⟨29, 29, .rw, 1⟩, ⟨28, 28, .rw, 1⟩, ⟨27, 24, .rsv, 0⟩, ⟨23, 16, .rw, 2⟩, ⟨15, 0, .rw, 1024⟩]
  | .chnEccWin _ => [⟨31, 16, .rsv, 0⟩, ⟨15, 0, .rw, 1440⟩]
  | .chnEccRank _ _ => [⟨31, 16, .ro, 0⟩, ⟨15, 8, .ro, 0⟩, ⟨7, 4, .ro, 15⟩, ⟨3, 3, .rw1c, 0⟩, ⟨2, 2, .rw1c, 0⟩, ⟨1, 0, .rsv, 0⟩]
  | .chnRankstat _ => [⟨31, 24, .rsv, 0⟩, ⟨23, 21, .ro, 0⟩, ⟨20, 18, .ro, 0⟩, ⟨17, 15, .ro, 0⟩, ⟨14, 12, .ro, 0⟩, ⟨11, 9, .ro, 0⟩, ⟨8, 6, .ro, 0⟩, ⟨5, 3, .ro, 0⟩, ⟨2, 0, .ro, 0⟩]
  | .chnSpare _ => [⟨31, 31, .wo, 0⟩, ⟨30, 30, .wo, 0⟩, ⟨29, 29, .rw1c, 0⟩, ⟨28, 27, .ro, 0⟩, ⟨26, 26, .rws, 0⟩, ⟨25, 23, .rws, 0⟩, ⟨22, 20, .rw, 0⟩, ⟨19, 16, .rws, 0⟩, ⟨15, 8, .rw, 8⟩, ⟨7, 0, .rsv, 0⟩]
  | .chnSpareCp _ => [⟨63, 33, .rsv, 0⟩, ⟨32, 0, .ro, 0⟩]
  | .chnScrub _ => [⟨31, 31, .rw, 1⟩, ⟨30, 8, .rsv, 0⟩, ⟨7, 0, .rw, 24⟩]
  | .chnScrubPos _ => [⟨63, 36, .rsv, 0⟩, ⟨35, 33, .ro, 0⟩, ⟨32, 0, .ro, 0⟩]
  | .chnScrubLag _ => [⟨31, 31, .ro, 0⟩, ⟨30, 0, .ro, 0⟩]
  | .chnScrubMaxlag _ => [⟨31, 31, .wo, 0⟩, ⟨30, 0, .ro, 0⟩]
  | .chnFchg _ => [⟨31, 31, .wo, 0⟩, ⟨30, 30, .ro, 0⟩, ⟨29, 29, .rw1c, 0⟩, ⟨28, 28, .rw1c, 0⟩, ⟨27, 26, .ro, 0⟩, ⟨25, 25, .ro, 0⟩, ⟨24, 0, .rsv, 0⟩]
  | .chnFchgTime _ => [⟨31, 16, .ro, 0⟩, ⟨15, 0, .ro, 0⟩]
  | .chnPwr _ => [⟨31, 31, .rw, 1⟩, ⟨30, 16, .rsv, 0⟩, ⟨15, 0, .rw, 512⟩]
  | .chnPwrstat _ => [⟨31, 8, .rsv, 0⟩, ⟨7, 0, .ro, 0⟩]
  | .chnAmap _ => [⟨31, 13, .rsv, 0⟩, ⟨12, 12, .rw, 1⟩, ⟨11, 10, .rw, 0⟩, ⟨9, 8, .rw, 1⟩, ⟨7, 7, .rw, 1⟩, ⟨6, 6, .rw, 1⟩, ⟨5, 5, .rw, 1⟩, ⟨4, 0, .rsv, 0⟩]
  | .chnRankmap _ => [⟨31, 28, .rw, 0⟩, ⟨27, 24, .rw, 0⟩, ⟨23, 20, .rw, 0⟩, ⟨19, 16, .rw, 0⟩, ⟨15, 12, .rw, 0⟩, ⟨11, 8, .rw, 0⟩, ⟨7, 4, .rw, 0⟩, ⟨3, 0, .rw, 0⟩]
  | .chnTim0 _ _ => [⟨63, 60, .rw, 0⟩, ⟨59, 52, .rw, 0⟩, ⟨51, 44, .rw, 0⟩, ⟨43, 36, .rw, 0⟩, ⟨35, 28, .rw, 0⟩, ⟨27, 18, .rw, 0⟩, ⟨17, 8, .rw, 0⟩, ⟨7, 0, .rw, 0⟩]
  | .chnTim1 _ _ => [⟨63, 56, .rw, 0⟩, ⟨55, 48, .rw, 0⟩, ⟨47, 40, .rw, 0⟩, ⟨39, 32, .rw, 0⟩, ⟨31, 24, .rw, 0⟩, ⟨23, 16, .rw, 0⟩, ⟨15, 8, .rw, 0⟩, ⟨7, 0, .rw, 0⟩]
  | .chnTim2 _ _ => [⟨63, 50, .rw, 0⟩, ⟨49, 38, .rw, 0⟩, ⟨37, 28, .rw, 0⟩, ⟨27, 16, .rw, 0⟩, ⟨15, 6, .rw, 0⟩, ⟨5, 0, .rw, 0⟩]
  | .chnTim3 _ _ => [⟨63, 56, .rw, 0⟩, ⟨55, 48, .rw, 0⟩, ⟨47, 40, .rw, 0⟩, ⟨39, 32, .rw, 0⟩, ⟨31, 24, .rw, 0⟩, ⟨23, 16, .rw, 0⟩, ⟨15, 0, .rsv, 0⟩]
  | .leyCtrl _ => [⟨31, 31, .rw, 0⟩, ⟨30, 30, .wo, 0⟩, ⟨29, 29, .wo, 0⟩, ⟨28, 27, .rw, 0⟩, ⟨26, 25, .rw, 2⟩, ⟨24, 24, .rw1c, 0⟩, ⟨23, 16, .rsv, 0⟩, ⟨15, 8, .rw, 8⟩, ⟨7, 4, .rw, 4⟩, ⟨3, 0, .rw, 3⟩]
  | .leyStat _ => [⟨31, 28, .ro, 0⟩, ⟨27, 26, .ro, 0⟩, ⟨25, 24, .ro, 3⟩, ⟨23, 16, .ro, 0⟩, ⟨15, 13, .ro, 0⟩, ⟨12, 11, .ro, 0⟩, ⟨10, 0, .rsv, 0⟩]
  | .leyRtcfg _ => [⟨31, 31, .rw, 1⟩, ⟨30, 24, .rw, 75⟩, ⟨23, 16, .rsv, 0⟩, ⟨15, 0, .rw, 50⟩]
  | .leyErr _ => [⟨31, 31, .rw1c, 0⟩, ⟨30, 30, .rw1c, 0⟩, ⟨29, 29, .rw1c, 0⟩, ⟨28, 28, .rw1c, 0⟩, ⟨27, 27, .rw1c, 0⟩, ⟨26, 26, .rw1c, 0⟩, ⟨25, 25, .rw1c, 0⟩, ⟨24, 24, .rw1c, 0⟩, ⟨23, 23, .rw1c, 0⟩, ⟨22, 22, .rw1c, 0⟩, ⟨21, 0, .rsv, 0⟩]
  | .leyCred _ _ => [⟨63, 63, .wo, 0⟩, ⟨62, 57, .rsv, 0⟩, ⟨56, 48, .ro, 0⟩, ⟨47, 41, .rsv, 0⟩, ⟨40, 32, .ro, 0⟩, ⟨31, 25, .rsv, 0⟩, ⟨24, 16, .ro, 0⟩, ⟨15, 9, .rsv, 0⟩, ⟨8, 0, .ro, 0⟩]
  | .leyLast _ => [⟨31, 28, .ro, 0⟩, ⟨27, 8, .ro, 0⟩, ⟨7, 4, .rsv, 0⟩, ⟨3, 0, .ro, 0⟩]
  | .casId => [⟨31, 29, .ro, 0⟩, ⟨28, 27, .ro, 0⟩, ⟨26, 25, .ro, 0⟩, ⟨24, 24, .ro, 0⟩, ⟨23, 0, .rsv, 0⟩]
  | .casCtrl => [⟨31, 31, .rw, 1⟩, ⟨30, 30, .wo, 0⟩, ⟨29, 29, .wo, 0⟩, ⟨28, 28, .rw1c, 0⟩, ⟨27, 25, .rw, 0⟩, ⟨24, 0, .rsv, 0⟩]
  | .casFoldmap => [⟨63, 63, .rw, 0⟩, ⟨62, 48, .rsv, 0⟩, ⟨47, 27, .rw, 0⟩, ⟨26, 0, .rsv, 0⟩]
  | .casFoldstat => [⟨31, 25, .ro, 0⟩, ⟨24, 24, .rw1c, 0⟩, ⟨23, 13, .rsv, 0⟩, ⟨12, 0, .ro, 0⟩]
  | .casMacc => [⟨63, 63, .wo, 0⟩, ⟨62, 62, .ro, 1⟩, ⟨61, 61, .rw1c, 0⟩, ⟨60, 60, .rw, 0⟩, ⟨59, 57, .rw, 0⟩, ⟨56, 25, .rsv, 0⟩, ⟨24, 0, .rw, 0⟩]
  | .casMdata => [⟨31, 0, .rw, 0⟩]
  | .casMember _ => [⟨63, 61, .ro, 0⟩, ⟨60, 59, .ro, 0⟩, ⟨58, 57, .ro, 0⟩, ⟨56, 32, .rsv, 0⟩, ⟨31, 0, .ro, 0⟩]
  | .casMser _ => [⟨63, 0, .ro, 0⟩]
  | .casSetMap _ => [⟨63, 51, .rsv, 0⟩, ⟨50, 32, .rw, 0⟩, ⟨31, 29, .rsv, 0⟩, ⟨28, 18, .rw, 0⟩, ⟨17, 0, .rw, 0⟩]
  | .casSetCtrl _ => [⟨31, 31, .rw, 0⟩, ⟨30, 30, .ro, 0⟩, ⟨29, 29, .rw1c, 0⟩, ⟨28, 26, .rsv, 0⟩, ⟨25, 16, .rw, 0⟩, ⟨15, 12, .rw, 0⟩, ⟨11, 8, .rw, 2⟩, ⟨7, 5, .rw, 0⟩, ⟨4, 0, .rw, 18⟩]
  | .casTgt _ => [⟨31, 9, .rsv, 0⟩, ⟨8, 8, .rw, 0⟩, ⟨7, 5, .rw, 0⟩, ⟨4, 0, .rw, 0⟩]
  | .rngCrBase _ _ => [⟨63, 6, .rw, 0⟩, ⟨5, 0, .rsv, 0⟩]
  | .rngCrCtrl _ _ => [⟨31, 31, .rw, 0⟩, ⟨30, 30, .rw1c, 0⟩, ⟨29, 24, .rsv, 0⟩, ⟨23, 19, .rw, 4⟩, ⟨18, 16, .rw, 0⟩, ⟨15, 0, .rsv, 0⟩]
  | .rngCrTail _ _ => [⟨31, 16, .rsv, 0⟩, ⟨15, 0, .rw, 0⟩]
  | .rngCrStat _ _ => [⟨31, 31, .ro, 0⟩, ⟨30, 30, .ro, 0⟩, ⟨29, 20, .rsv, 0⟩, ⟨19, 16, .ro, 0⟩, ⟨15, 0, .ro, 0⟩]
  | .rngCqBase _ _ => [⟨63, 5, .rw, 0⟩, ⟨4, 0, .rsv, 0⟩]
  | .rngCqCtrl _ _ => [⟨31, 31, .rw, 0⟩, ⟨30, 30, .rw1c, 0⟩, ⟨29, 28, .rw, 1⟩, ⟨27, 22, .rw, 0⟩, ⟨21, 17, .rw, 4⟩, ⟨16, 16, .rsv, 0⟩, ⟨15, 8, .rw, 1⟩, ⟨7, 0, .rw, 0⟩]
  | .rngCqHead _ _ => [⟨31, 16, .rsv, 0⟩, ⟨15, 0, .rw, 0⟩]
  | .rngCqStat _ _ => [⟨31, 31, .rw1c, 0⟩, ⟨30, 30, .ro, 0⟩, ⟨29, 16, .rsv, 0⟩, ⟨15, 0, .ro, 0⟩]
  | .rngSnapstat _ => [⟨63, 48, .ro, 0⟩, ⟨47, 40, .ro, 0⟩, ⟨39, 35, .rsv, 0⟩, ⟨34, 32, .ro, 0⟩, ⟨31, 0, .ro, 0⟩]
  | .talCtrl => [⟨31, 31, .rw, 1⟩, ⟨30, 16, .rsv, 0⟩, ⟨15, 0, .rw, 1000⟩]
  | .talStat => [⟨31, 31, .ro, 0⟩, ⟨30, 30, .ro, 0⟩, ⟨29, 29, .rw1c, 0⟩, ⟨28, 28, .rw1c, 0⟩, ⟨27, 16, .rsv, 0⟩, ⟨15, 0, .ro, 0⟩]
  | .talTime => [⟨63, 0, .ro, 0⟩]
  | .talSweepLag => [⟨31, 31, .ro, 0⟩, ⟨30, 0, .ro, 0⟩]
  | .talSweepMaxlag => [⟨31, 31, .wo, 0⟩, ⟨30, 0, .ro, 0⟩]
  | .talWatch _ => [⟨63, 63, .rw, 0⟩, ⟨62, 62, .rw, 0⟩, ⟨61, 48, .rsv, 0⟩, ⟨47, 32, .rw, 0⟩, ⟨31, 0, .rw, 0⟩]
  | .talWatchstat => [⟨31, 16, .rsv, 0⟩, ⟨15, 0, .rw1c, 0⟩]
  | .stlStat => [⟨31, 31, .ro, 0⟩, ⟨30, 30, .ro, 1⟩, ⟨29, 29, .ro, 0⟩, ⟨28, 27, .ro, 0⟩, ⟨26, 11, .rsv, 0⟩, ⟨10, 8, .ro, 0⟩, ⟨7, 6, .ro, 0⟩, ⟨5, 4, .ro, 0⟩, ⟨3, 2, .ro, 0⟩, ⟨1, 0, .rsv, 0⟩]
  | .stlFeedCtrl _ => [⟨31, 31, .rw, 1⟩, ⟨30, 30, .wo, 0⟩, ⟨29, 29, .wo, 0⟩, ⟨28, 28, .rw1c, 0⟩, ⟨27, 23, .rsv, 0⟩, ⟨22, 20, .rw, 0⟩, ⟨19, 18, .rw, 0⟩, ⟨17, 0, .rsv, 0⟩]
  | .stlFeedStat _ => [⟨31, 29, .ro, 0⟩, ⟨28, 25, .ro, 0⟩, ⟨24, 21, .ro, 0⟩, ⟨20, 20, .ro, 0⟩, ⟨19, 19, .ro, 0⟩, ⟨18, 0, .rsv, 0⟩]
  | .stlVthr => [⟨63, 63, .rw1c, 0⟩, ⟨62, 50, .rsv, 0⟩, ⟨49, 40, .rw, 400⟩, ⟨39, 30, .rw, 605⟩, ⟨29, 20, .rw, 620⟩, ⟨19, 10, .rw, 385⟩, ⟨9, 0, .rw, 360⟩]
  | .stlIlim => [⟨31, 24, .rw, 50⟩, ⟨23, 16, .rw, 20⟩, ⟨15, 8, .rw, 10⟩, ⟨7, 0, .rsv, 0⟩]
  | .stlTime => [⟨31, 24, .rw, 0⟩, ⟨23, 16, .rw, 0⟩, ⟨15, 0, .rw, 1000⟩]
  | .stlPfw => [⟨31, 16, .rsv, 0⟩, ⟨15, 0, .rw, 50⟩]
  | .stlMeas0 => [⟨63, 48, .ro, 0⟩, ⟨47, 32, .ro, 0⟩, ⟨31, 16, .ro, 0⟩, ⟨15, 0, .ro, 0⟩]
  | .stlMeas1 => [⟨63, 48, .ro, 0⟩, ⟨47, 32, .ro, 0⟩, ⟨31, 16, .ro, 0⟩, ⟨15, 8, .ro, 0⟩, ⟨7, 0, .ro, 0⟩]
  | .stlLogstat => [⟨31, 31, .rw1c, 0⟩, ⟨30, 30, .wo, 0⟩, ⟨29, 13, .rsv, 0⟩, ⟨12, 8, .ro, 0⟩, ⟨7, 4, .rsv, 0⟩, ⟨3, 0, .ro, 0⟩]
  | .stlLog _ => [⟨63, 32, .ro, 0⟩, ⟨31, 31, .ro, 0⟩, ⟨30, 27, .ro, 0⟩, ⟨26, 23, .ro, 0⟩, ⟨22, 22, .ro, 0⟩, ⟨21, 16, .rsv, 0⟩, ⟨15, 0, .ro, 0⟩]
  | .otpStat => [⟨31, 31, .ro, 0⟩, ⟨30, 28, .ro, 0⟩, ⟨27, 24, .ro, 0⟩, ⟨23, 16, .ro, 0⟩, ⟨15, 8, .ro, 0⟩, ⟨7, 0, .ro, 0⟩]
  | .otpCommit => [⟨31, 16, .ro, 0⟩, ⟨15, 15, .ro, 0⟩, ⟨14, 12, .rsv, 0⟩, ⟨11, 8, .ro, 0⟩, ⟨7, 3, .rsv, 0⟩, ⟨2, 0, .ro, 0⟩]
  | .crossHead _ => [⟨31, 6, .rsv, 0⟩, ⟨5, 5, .rsv, 0⟩, ⟨4, 4, .rw1c, 0⟩, ⟨3, 3, .rsv, 0⟩, ⟨2, 2, .rw1c, 0⟩, ⟨1, 1, .rw1c, 0⟩, ⟨0, 0, .rw1c, 0⟩]
  | .crossChn _ => [⟨31, 6, .rsv, 0⟩, ⟨5, 5, .rw1c, 0⟩, ⟨4, 4, .rsv, 0⟩, ⟨3, 3, .rsv, 0⟩, ⟨2, 2, .rw1c, 0⟩, ⟨1, 1, .rw1c, 0⟩, ⟨0, 0, .rw1c, 0⟩]
  | .crossLey _ => [⟨31, 6, .rsv, 0⟩, ⟨5, 5, .rsv, 0⟩, ⟨4, 4, .rw1c, 0⟩, ⟨3, 3, .rsv, 0⟩, ⟨2, 2, .rw1c, 0⟩, ⟨1, 1, .rw1c, 0⟩, ⟨0, 0, .rw1c, 0⟩]
  | .crossMgt => [⟨31, 6, .rsv, 0⟩, ⟨5, 5, .rw1c, 0⟩, ⟨4, 4, .rsv, 0⟩, ⟨3, 3, .rw1c, 0⟩, ⟨2, 2, .rsv, 0⟩, ⟨1, 1, .rw1c, 0⟩, ⟨0, 0, .rw1c, 0⟩]
  | .crossSum0 => [⟨31, 8, .ro, 0⟩, ⟨7, 0, .ro, 0⟩]
  | .crossSum1 => [⟨31, 5, .rsv, 0⟩, ⟨4, 4, .ro, 0⟩, ⟨3, 0, .ro, 0⟩]
  | .crossIntEn0 => [⟨31, 8, .rw, 0⟩, ⟨7, 0, .rw, 0⟩]
  | .crossIntEn1 => [⟨31, 5, .rsv, 0⟩, ⟨4, 4, .rw, 0⟩, ⟨3, 0, .rw, 0⟩]

/-- Index of an offset in a run of `cnt` registers `stride` apart from `base`. -/
def runIndex (base cnt stride off : Nat) : Option Nat :=
  if base ≤ off ∧ (off - base) % stride = 0 ∧ (off - base) / stride < cnt then
    some ((off - base) / stride) else none

/-- Indices of an offset in a two-level run. -/
def runIndex2 (base cnt stride cnt2 stride2 off : Nat) : Option (Nat × Nat) :=
  if base ≤ off ∧ (off - base) / stride < cnt ∧ (off - base) % stride % stride2 = 0
      ∧ (off - base) % stride / stride2 < cnt2 then
    some ((off - base) / stride, (off - base) % stride / stride2) else none

/-- Registers of the block at 0x100000 by offset. -/
def regAtBlock01 (off : Nat) : Option Reg :=
  [ (if off = 0x100000 then some .gblId else none),
    (if off = 0x100008 then some .gblSerial else none),
    (if off = 0x100010 then some .gblStrap else none),
    (if off = 0x100020 then some .gblLock else none),
    (if off = 0x100028 then some .gblAccerr else none),
    (if off = 0x100040 then some .gblReset else none),
    (if off = 0x100044 then some .gblBoot else none),
    (if off = 0x100100 then some .gblIntStat else none),
    (if off = 0x100104 then some .gblIntEn else none),
    (if off = 0x100108 then some .gblIntCtrl else none),
    (if off = 0x100400 then some .gblAvsCtrl else none),
    ((runIndex 0x100410 4 0x4 off).map .gblAvsQ),
    ((runIndex 0x100420 4 0x4 off).map .gblAvsSpd),
    ((runIndex 0x100500 16 0x8 off).map .gblLdwin),
    (if off = 0x100580 then some .gblFtab else none),
    ((runIndex 0x100600 16 0x4 off).map .gblLdbind) ].findSome? id

/-- Registers of the block at 0x200000 by offset. -/
def regAtBlock02 (off : Nat) : Option Reg :=
  [ ((runIndex 0x200000 4 0x40000 off).map .hpCfg),
    ((runIndex2 0x200100 4 0x40000 2 0x4 off).map fun p => .hpStat p.1 p.2),
    ((runIndex2 0x200110 4 0x40000 2 0x4 off).map fun p => .hpBmstat p.1 p.2) ].findSome? id

/-- Registers of the block at 0x400000 by offset. -/
def regAtBlock04 (off : Nat) : Option Reg :=
  [ (if off = 0x400000 then some .homeCtrl else none),
    (if off = 0x400008 then some .homeBitimer else none),
    (if off = 0x400010 then some .homeLdstat else none),
    ((runIndex 0x400020 16 0x10000 off).map .homeQstat),
    ((runIndex 0x400024 16 0x10000 off).map .homeEcccnt),
    ((runIndex 0x400100 16 0x4 off).map .homeGrant),
    (if off = 0x400140 then some .homeGrantstat else none) ].findSome? id

/-- Registers of the block at 0x600000 by offset. -/
def regAtBlock06 (off : Nat) : Option Reg :=
  [ ((runIndex 0x600000 4 0x40000 off).map .tedCtrl),
    ((runIndex 0x600004 4 0x40000 off).map .tedQuota),
    ((runIndex 0x600008 4 0x40000 off).map .tedCursor),
    ((runIndex 0x600040 4 0x40000 off).map .tedEpochLag),
    ((runIndex 0x600044 4 0x40000 off).map .tedEpochMaxlag),
    (if off = 0x600100 then some .tedThresh else none),
    ((runIndex 0x600200 16 0x8 off).map .tedPool),
    (if off = 0x600300 then some .tedPoolFree else none),
    (if off = 0x600308 then some .tedPoolResv else none),
    (if off = 0x600310 then some .tedWm else none),
    (if off = 0x600318 then some .tedHold else none),
    (if off = 0x600320 then some .tedPoolStat else none),
    ((runIndex 0x600400 16 0x10 off).map .tedLdcap),
    ((runIndex 0x600408 16 0x10 off).map .tedLdflat),
    ((runIndex 0x600600 16 0x10 off).map .tedLduse),
    ((runIndex 0x600608 16 0x10 off).map .tedLdgrant) ].findSome? id

/-- Registers of the block at 0x700000 by offset. -/
def regAtBlock07 (off : Nat) : Option Reg :=
  [ (if off = 0x700000 then some .balEn else none),
    (if off = 0x700004 then some .balFault else none),
    (if off = 0x700008 then some .balStat else none),
    ((runIndex 0x700100 32 0x4 off).map .balQ) ].findSome? id

/-- Registers of the block at 0x800000 by offset. -/
def regAtBlock08 (off : Nat) : Option Reg :=
  [ ((runIndex 0x800000 16 0x4 off).map .cipLdkey),
    (if off = 0x800040 then some .cipSetstat else none),
    (if off = 0x800048 then some .cipMajhw else none),
    ((runIndex 0x800080 4 0x4 off).map .cipQstat) ].findSome? id

/-- Registers of the block at 0x900000 by offset. -/
def regAtBlock09 (off : Nat) : Option Reg :=
  [ ((runIndex 0x900000 24 0x20000 off).map .chnStat),
    ((runIndex 0x900004 24 0x20000 off).map .chnPop),
    ((runIndex 0x900008 4 0xc0000 off).map .chnQcfg),
    ((runIndex 0x900020 24 0x20000 off).map .chnSched),
    ((runIndex 0x900024 24 0x20000 off).map .chnQstat),
    ((runIndex 0x900030 24 0x20000 off).map .chnRef),
    ((runIndex 0x900040 24 0x20000 off).map .chnRefLag),
    ((runIndex 0x900044 24 0x20000 off).map .chnRefMaxlag),
    ((runIndex 0x900050 24 0x20000 off).map .chnNrf),
    ((runIndex 0x900054 24 0x20000 off).map .chnNrfstat),
    ((runIndex 0x900058 24 0x20000 off).map .chnRfm),
    ((runIndex 0x900070 24 0x20000 off).map .chnTrain),
    ((runIndex 0x900080 24 0x20000 off).map .chnEccCtrl),
    ((runIndex 0x900084 24 0x20000 off).map .chnEccWin),
    ((runIndex2 0x900090 24 0x20000 8 0x4 off).map fun p => .chnEccRank p.1 p.2),
    ((runIndex 0x9000b0 24 0x20000 off).map .chnRankstat),
    ((runIndex 0x9000b4 24 0x20000 off).map .chnSpare),
    ((runIndex 0x9000b8 24 0x20000 off).map .chnSpareCp),
    ((runIndex 0x9000c0 24 0x20000 off).map .chnScrub),
    ((runIndex 0x9000c8 24 0x20000 off).map .chnScrubPos),
    ((runIndex 0x9000d0 24 0x20000 off).map .chnScrubLag),
    ((runIndex 0x9000d4 24 0x20000 off).map .chnScrubMaxlag),
    ((runIndex 0x9000e0 24 0x20000 off).map .chnFchg),
    ((runIndex 0x9000e4 24 0x20000 off).map .chnFchgTime),
    ((runIndex 0x9000f0 24 0x20000 off).map .chnPwr),
    ((runIndex 0x9000f4 24 0x20000 off).map .chnPwrstat),
    ((runIndex 0x900100 24 0x20000 off).map .chnAmap),
    ((runIndex 0x900104 24 0x20000 off).map .chnRankmap),
    ((runIndex2 0x900200 24 0x20000 2 0x40 off).map fun p => .chnTim0 p.1 p.2),
    ((runIndex2 0x900208 24 0x20000 2 0x40 off).map fun p => .chnTim1 p.1 p.2),
    ((runIndex2 0x900210 24 0x20000 2 0x40 off).map fun p => .chnTim2 p.1 p.2),
    ((runIndex2 0x900218 24 0x20000 2 0x40 off).map fun p => .chnTim3 p.1 p.2) ].findSome? id

/-- Registers of the block at 0xc00000 by offset. -/
def regAtBlock0C (off : Nat) : Option Reg :=
  [ ((runIndex 0xc00000 4 0x10000 off).map .leyCtrl),
    ((runIndex 0xc00004 4 0x10000 off).map .leyStat),
    ((runIndex 0xc00008 4 0x10000 off).map .leyRtcfg),
    ((runIndex 0xc0000c 4 0x10000 off).map .leyErr),
    ((runIndex2 0xc00010 4 0x10000 4 0x8 off).map fun p => .leyCred p.1 p.2),
    ((runIndex 0xc00030 4 0x10000 off).map .leyLast) ].findSome? id

/-- Registers of the block at 0xd00000 by offset. -/
def regAtBlock0D (off : Nat) : Option Reg :=
  [ (if off = 0xd00000 then some .casId else none),
    (if off = 0xd00004 then some .casCtrl else none),
    (if off = 0xd00008 then some .casFoldmap else none),
    (if off = 0xd00010 then some .casFoldstat else none),
    (if off = 0xd00020 then some .casMacc else none),
    (if off = 0xd00028 then some .casMdata else none),
    ((runIndex 0xd00050 7 0x10 off).map fun d => .casMember (d + 1)),
    ((runIndex 0xd00058 7 0x10 off).map fun d => .casMser (d + 1)),
    ((runIndex 0xd01000 16 0x10 off).map .casSetMap),
    ((runIndex 0xd01008 16 0x10 off).map .casSetCtrl),
    ((runIndex 0xd02000 1024 0x4 off).map .casTgt) ].findSome? id

/-- Registers of the block at 0xe00000 by offset. -/
def regAtBlock0E (off : Nat) : Option Reg :=
  [ ((runIndex2 0xe00000 17 0x2000 8 0x20 off).map fun p => .rngCrBase p.1 p.2),
    ((runIndex2 0xe00008 17 0x2000 8 0x20 off).map fun p => .rngCrCtrl p.1 p.2),
    ((runIndex2 0xe0000c 17 0x2000 8 0x20 off).map fun p => .rngCrTail p.1 p.2),
    ((runIndex2 0xe00010 17 0x2000 8 0x20 off).map fun p => .rngCrStat p.1 p.2),
    ((runIndex2 0xe00100 17 0x2000 8 0x20 off).map fun p => .rngCqBase p.1 p.2),
    ((runIndex2 0xe00108 17 0x2000 8 0x20 off).map fun p => .rngCqCtrl p.1 p.2),
    ((runIndex2 0xe0010c 17 0x2000 8 0x20 off).map fun p => .rngCqHead p.1 p.2),
    ((runIndex2 0xe00110 17 0x2000 8 0x20 off).map fun p => .rngCqStat p.1 p.2),
    ((runIndex 0xe00200 17 0x2000 off).map .rngSnapstat) ].findSome? id

/-- Registers of the block at 0xf00000 by offset. -/
def regAtBlock0F (off : Nat) : Option Reg :=
  [ (if off = 0xf00000 then some .talCtrl else none),
    (if off = 0xf00004 then some .talStat else none),
    (if off = 0xf00008 then some .talTime else none),
    (if off = 0xf00040 then some .talSweepLag else none),
    (if off = 0xf00044 then some .talSweepMaxlag else none),
    ((runIndex 0xf00100 16 0x10 off).map .talWatch),
    (if off = 0xf00200 then some .talWatchstat else none) ].findSome? id

/-- Registers of the block at 0x1000000 by offset. -/
def regAtBlock10 (off : Nat) : Option Reg :=
  [ (if off = 0x1000004 then some .stlStat else none),
    ((runIndex 0x1000010 2 0x4 off).map .stlFeedCtrl),
    ((runIndex 0x1000018 2 0x4 off).map .stlFeedStat),
    (if off = 0x1000020 then some .stlVthr else none),
    (if off = 0x1000028 then some .stlIlim else none),
    (if off = 0x100002c then some .stlTime else none),
    (if off = 0x1000030 then some .stlPfw else none),
    (if off = 0x1000040 then some .stlMeas0 else none),
    (if off = 0x1000048 then some .stlMeas1 else none),
    (if off = 0x1000050 then some .stlLogstat else none),
    ((runIndex 0x1000080 16 0x8 off).map .stlLog) ].findSome? id

/-- Registers of the block at 0x1100000 by offset. -/
def regAtBlock11 (off : Nat) : Option Reg :=
  [ (if off = 0x1100000 then some .otpStat else none),
    (if off = 0x1100004 then some .otpCommit else none) ].findSome? id

/-- Registers of the block at 0x1200000 by offset. -/
def regAtBlock12 (off : Nat) : Option Reg :=
  [ ((runIndex 0x1200000 8 0x4 off).map .crossHead),
    ((runIndex 0x1200040 24 0x4 off).map .crossChn),
    ((runIndex 0x12000c0 4 0x4 off).map .crossLey),
    (if off = 0x12000e0 then some .crossMgt else none),
    (if off = 0x1200100 then some .crossSum0 else none),
    (if off = 0x1200104 then some .crossSum1 else none),
    (if off = 0x1200108 then some .crossIntEn0 else none),
    (if off = 0x120010c then some .crossIntEn1 else none) ].findSome? id

/-- The register at a management-view offset, if one starts there (Table 18.12; R456, R462). -/
def regAt (off : Nat) : Option Reg :=
  match off / 0x100000 with
  | 1 => regAtBlock01 off
  | 2 => regAtBlock02 off
  | 4 => regAtBlock04 off
  | 6 => regAtBlock06 off
  | 7 => regAtBlock07 off
  | 8 => regAtBlock08 off
  | 9 | 10 | 11 => regAtBlock09 off
  | 12 => regAtBlock0C off
  | 13 => regAtBlock0D off
  | 14 => regAtBlock0E off
  | 15 => regAtBlock0F off
  | 16 => regAtBlock10 off
  | 17 => regAtBlock11 off
  | 18 => regAtBlock12 off
  | _ => none

end Sys2Proof.Machine

/-! Field names: `F.<register>_<FIELD>` is the bit range of that field. -/
namespace Sys2Proof.Machine.F

def gblId_STEP : Fld := ⟨31, 24⟩
def gblId_DECK : Fld := ⟨23, 16⟩
def gblId_DEVICE : Fld := ⟨15, 0⟩
def gblSerial_SERIAL : Fld := ⟨63, 0⟩
def gblStrap_VOTE_DIFF : Fld := ⟨31, 31⟩
def gblStrap_MGT_SBA : Fld := ⟨5, 4⟩
def gblStrap_CAS_ROLE : Fld := ⟨2, 0⟩
def gblLock_LOCK : Fld := ⟨0, 0⟩
def gblAccerr_SEEN : Fld := ⟨63, 63⟩
def gblAccerr_CAUSE : Fld := ⟨62, 60⟩
def gblAccerr_HEAD : Fld := ⟨59, 57⟩
def gblAccerr_MGT : Fld := ⟨56, 56⟩
def gblAccerr_LD : Fld := ⟨55, 52⟩
def gblAccerr_COUNT : Fld := ⟨47, 32⟩
def gblAccerr_OFFSET : Fld := ⟨24, 0⟩
def gblReset_CODE : Fld := ⟨7, 0⟩
def gblBoot_DRAM_READY : Fld := ⟨31, 31⟩
def gblBoot_HOLD : Fld := ⟨30, 30⟩
def gblBoot_FWSLOT : Fld := ⟨29, 29⟩
def gblBoot_COLD : Fld := ⟨28, 28⟩
def gblBoot_STORED_ALL : Fld := ⟨27, 27⟩
def gblBoot_BOOT_MS : Fld := ⟨23, 0⟩
def gblIntStat_ECC : Fld := ⟨7, 7⟩
def gblIntStat_FLOOR : Fld := ⟨6, 6⟩
def gblIntStat_BALER : Fld := ⟨5, 5⟩
def gblIntStat_FOLD : Fld := ⟨4, 4⟩
def gblIntStat_STILE : Fld := ⟨3, 3⟩
def gblIntStat_WATCH : Fld := ⟨2, 2⟩
def gblIntStat_AVS : Fld := ⟨1, 1⟩
def gblIntStat_CROSS : Fld := ⟨0, 0⟩
def gblIntEn_ECC : Fld := ⟨7, 7⟩
def gblIntEn_FLOOR : Fld := ⟨6, 6⟩
def gblIntEn_BALER : Fld := ⟨5, 5⟩
def gblIntEn_FOLD : Fld := ⟨4, 4⟩
def gblIntEn_STILE : Fld := ⟨3, 3⟩
def gblIntEn_WATCH : Fld := ⟨2, 2⟩
def gblIntEn_AVS : Fld := ⟨1, 1⟩
def gblIntEn_CROSS : Fld := ⟨0, 0⟩
def gblIntCtrl_ACK : Fld := ⟨31, 31⟩
def gblIntCtrl_ARMED : Fld := ⟨30, 30⟩
def gblIntCtrl_VECTOR : Fld := ⟨5, 0⟩
def gblAvsCtrl_EN : Fld := ⟨31, 31⟩
def gblAvsCtrl_INTERVAL : Fld := ⟨23, 16⟩
def gblAvsCtrl_MARGIN : Fld := ⟨15, 8⟩
def gblAvsCtrl_STEP : Fld := ⟨7, 4⟩
def gblAvsCtrl_SETTLE : Fld := ⟨3, 0⟩
def gblAvsQ_AT_CEIL : Fld := ⟨31, 31⟩
def gblAvsQ_BUS_ERR : Fld := ⟨30, 30⟩
def gblAvsQ_SETPOINT : Fld := ⟨23, 16⟩
def gblAvsQ_CEIL : Fld := ⟨15, 8⟩
def gblAvsQ_FLOOR : Fld := ⟨7, 0⟩
def gblAvsSpd_SEQ : Fld := ⟨31, 16⟩
def gblAvsSpd_SPEED : Fld := ⟨15, 0⟩
def gblLdwin_EN : Fld := ⟨63, 63⟩
def gblLdwin_ERR : Fld := ⟨62, 62⟩
def gblLdwin_FIELDS : Fld := ⟨59, 32⟩
def gblLdwin_BASE : Fld := ⟨26, 0⟩
def gblFtab_BASE : Fld := ⟨47, 12⟩
def gblLdbind_EN : Fld := ⟨31, 31⟩
def gblLdbind_ERR : Fld := ⟨30, 30⟩
def gblLdbind_LDID : Fld := ⟨7, 4⟩
def gblLdbind_HEAD : Fld := ⟨2, 0⟩
def hpCfg_SPLIT : Fld := ⟨31, 31⟩
def hpCfg_MAXRATE_B : Fld := ⟨27, 24⟩
def hpCfg_MAXRATE_A : Fld := ⟨23, 20⟩
def hpCfg_PROTO_B : Fld := ⟨19, 18⟩
def hpCfg_PROTO_A : Fld := ⟨17, 16⟩
def hpStat_UP : Fld := ⟨31, 31⟩
def hpStat_PROTO : Fld := ⟨30, 28⟩
def hpStat_FLIT256 : Fld := ⟨27, 27⟩
def hpStat_MLD : Fld := ⟨26, 26⟩
def hpStat_MEMOPEN : Fld := ⟨25, 25⟩
def hpStat_IDE : Fld := ⟨24, 24⟩
def hpStat_RATE : Fld := ⟨23, 20⟩
def hpStat_WIDTH : Fld := ⟨19, 15⟩
def hpStat_LDCNT : Fld := ⟨14, 10⟩
def hpBmstat_OUTSTANDING : Fld := ⟨31, 22⟩
def hpBmstat_QUARANTINED : Fld := ⟨21, 12⟩
def homeCtrl_PIN_WAYS : Fld := ⟨11, 8⟩
def homeCtrl_DEFHINT : Fld := ⟨5, 4⟩
def homeBitimer_VALUE : Fld := ⟨19, 0⟩
def homeLdstat_SWEEP : Fld := ⟨31, 16⟩
def homeLdstat_UNRESP : Fld := ⟨15, 0⟩
def homeQstat_STBY_FULL : Fld := ⟨31, 31⟩
def homeQstat_LWQ_FULL : Fld := ⟨30, 30⟩
def homeQstat_STBY : Fld := ⟨22, 16⟩
def homeQstat_LWQ : Fld := ⟨8, 0⟩
def homeEcccnt_DIR_CE : Fld := ⟨31, 16⟩
def homeEcccnt_DIR_UE : Fld := ⟨15, 8⟩
def homeEcccnt_SWD_UE : Fld := ⟨7, 0⟩
def homeGrant_WR : Fld := ⟨31, 16⟩
def homeGrant_RD : Fld := ⟨15, 0⟩
def homeGrantstat_PEND : Fld := ⟨15, 0⟩
def tedCtrl_EN : Fld := ⟨31, 31⟩
def tedCtrl_SAMPLE : Fld := ⟨27, 24⟩
def tedCtrl_EPOCH : Fld := ⟨21, 16⟩
def tedCtrl_SCAN : Fld := ⟨15, 0⟩
def tedQuota_DEMOTE : Fld := ⟨15, 0⟩
def tedCursor_FIELD : Fld := ⟨35, 9⟩
def tedCursor_PAGE : Fld := ⟨8, 0⟩
def tedEpochLag_LATE : Fld := ⟨31, 31⟩
def tedEpochLag_LAG : Fld := ⟨30, 0⟩
def tedEpochMaxlag_CLR : Fld := ⟨31, 31⟩
def tedEpochMaxlag_MAX_LAG : Fld := ⟨30, 0⟩
def tedThresh_PROMO : Fld := ⟨19, 16⟩
def tedThresh_COLD_LOW : Fld := ⟨11, 8⟩
def tedThresh_COLD : Fld := ⟨3, 0⟩
def tedPool_EN : Fld := ⟨63, 63⟩
def tedPool_DRAIN : Fld := ⟨62, 62⟩
def tedPool_DRAINED : Fld := ⟨61, 61⟩
def tedPool_ERR : Fld := ⟨60, 60⟩
def tedPool_SIZE : Fld := ⟨50, 32⟩
def tedPool_BASE : Fld := ⟨17, 0⟩
def tedPoolFree_FREE : Fld := ⟨35, 0⟩
def tedPoolResv_RESV : Fld := ⟨35, 0⟩
def tedWm_ERR : Fld := ⟨63, 63⟩
def tedWm_HYST : Fld := ⟨55, 48⟩
def tedWm_LOW : Fld := ⟨47, 32⟩
def tedWm_REL : Fld := ⟨31, 16⟩
def tedWm_FLOOR : Fld := ⟨15, 0⟩
def tedHold_REL_INT : Fld := ⟨27, 20⟩
def tedHold_HOLD : Fld := ⟨19, 0⟩
def tedPoolStat_LOW : Fld := ⟨31, 31⟩
def tedPoolStat_REL : Fld := ⟨30, 30⟩
def tedPoolStat_FLOOR : Fld := ⟨29, 29⟩
def tedPoolStat_FLOOR_SEEN : Fld := ⟨28, 28⟩
def tedPoolStat_LEAK : Fld := ⟨23, 0⟩
def tedLdcap_ERR : Fld := ⟨63, 63⟩
def tedLdcap_BUILT : Fld := ⟨62, 62⟩
def tedLdcap_QUOTA : Fld := ⟨55, 40⟩
def tedLdcap_OVC : Fld := ⟨34, 32⟩
def tedLdcap_TIERED : Fld := ⟨28, 28⟩
def tedLdcap_COMMIT : Fld := ⟨27, 0⟩
def tedLdflat_BASE : Fld := ⟨47, 21⟩
def tedLduse_FOOT : Fld := ⟨41, 0⟩
def tedLdgrant_EXTENTS : Fld := ⟨42, 32⟩
def tedLdgrant_FIELDS : Fld := ⟨27, 0⟩
def balEn_EN : Fld := ⟨31, 0⟩
def balFault_FAULT : Fld := ⟨31, 0⟩
def balStat_ERR : Fld := ⟨31, 31⟩
def balStat_AVAIL : Fld := ⟨5, 0⟩
def balQ_BUSY : Fld := ⟨31, 31⟩
def balQ_JOBS : Fld := ⟨30, 24⟩
def balQ_QBYTES : Fld := ⟨15, 0⟩
def cipLdkey_ERASE_ON_RESET : Fld := ⟨31, 31⟩
def cipLdkey_SWEEP : Fld := ⟨30, 30⟩
def cipLdkey_OVERTAKEN : Fld := ⟨29, 29⟩
def cipLdkey_KGEN : Fld := ⟨25, 24⟩
def cipLdkey_CHANGES : Fld := ⟨15, 0⟩
def cipSetstat_INIT : Fld := ⟨31, 16⟩
def cipSetstat_READY : Fld := ⟨15, 0⟩
def cipMajhw_MAJHW : Fld := ⟨63, 0⟩
def cipQstat_REENC_WAIT : Fld := ⟨31, 31⟩
def cipQstat_REENC : Fld := ⟨28, 24⟩
def cipQstat_HELD : Fld := ⟨21, 16⟩
def chnStat_STATE : Fld := ⟨31, 28⟩
def chnStat_REASON : Fld := ⟨27, 24⟩
def chnStat_RATE : Fld := ⟨23, 20⟩
def chnStat_TEMP : Fld := ⟨19, 18⟩
def chnStat_FALLBACK : Fld := ⟨17, 16⟩
def chnStat_STORED : Fld := ⟨15, 15⟩
def chnPop_SLOT1 : Fld := ⟨31, 16⟩
def chnPop_PRESENT : Fld := ⟨15, 15⟩
def chnPop_TYPE : Fld := ⟨14, 13⟩
def chnPop_WIDTH : Fld := ⟨12, 12⟩
def chnPop_DENSITY : Fld := ⟨11, 10⟩
def chnPop_RANKS : Fld := ⟨9, 8⟩
def chnPop_HEIGHT : Fld := ⟨7, 6⟩
def chnPop_RFMREQ : Fld := ⟨5, 5⟩
def chnPop_MAXRATE : Fld := ⟨3, 0⟩
def chnQcfg_TYPE : Fld := ⟨31, 30⟩
def chnQcfg_MAXRATE : Fld := ⟨27, 24⟩
def chnSched_AGE_MAX : Fld := ⟨31, 24⟩
def chnSched_PAGE_IDLE : Fld := ⟨23, 16⟩
def chnSched_WR_HI : Fld := ⟨15, 8⟩
def chnSched_WR_LO : Fld := ⟨7, 0⟩
def chnQstat_RDQ_B : Fld := ⟨31, 24⟩
def chnQstat_WRQ_B : Fld := ⟨23, 16⟩
def chnQstat_RDQ_A : Fld := ⟨15, 8⟩
def chnQstat_WRQ_A : Fld := ⟨7, 0⟩
def chnRef_FORCE2X : Fld := ⟨31, 31⟩
def chnRef_T2X : Fld := ⟨15, 8⟩
def chnRef_MODE : Fld := ⟨1, 0⟩
def chnRefLag_LATE : Fld := ⟨31, 31⟩
def chnRefLag_LAG : Fld := ⟨30, 0⟩
def chnRefMaxlag_CLR : Fld := ⟨31, 31⟩
def chnRefMaxlag_MAX_LAG : Fld := ⟨30, 0⟩
def chnNrf_EN : Fld := ⟨31, 31⟩
def chnNrf_K : Fld := ⟨27, 24⟩
def chnNrf_FORCE_AGE : Fld := ⟨15, 8⟩
def chnNrfstat_FULL_SEEN : Fld := ⟨31, 31⟩
def chnNrfstat_RESEED_MISS : Fld := ⟨30, 30⟩
def chnNrfstat_OCC_B : Fld := ⟨12, 8⟩
def chnNrfstat_OCC_A : Fld := ⟨4, 0⟩
def chnRfm_REQ : Fld := ⟨31, 31⟩
def chnRfm_MODE : Fld := ⟨1, 0⟩
def chnTrain_DONE : Fld := ⟨31, 31⟩
def chnTrain_ALT : Fld := ⟨27, 24⟩
def chnTrain_TRATE : Fld := ⟨23, 20⟩
def chnTrain_RDEYE : Fld := ⟨15, 8⟩
def chnTrain_WREYE : Fld := ⟨7, 0⟩
def chnEccCtrl_AUTO_UE : Fld := ⟨31, 31⟩
def chnEccCtrl_AUTO_CE : Fld := ⟨30, 30⟩
def chnEccCtrl_DEMAND_WB : Fld := ⟨29, 29⟩
def chnEccCtrl_UE_MARK : Fld := ⟨28, 28⟩
def chnEccCtrl_UE_THRESH : Fld := ⟨23, 16⟩
def chnEccCtrl_CE_THRESH : Fld := ⟨15, 0⟩
def chnEccWin_WINDOW : Fld := ⟨15, 0⟩
def chnEccRank_CE : Fld := ⟨31, 16⟩
def chnEccRank_UE : Fld := ⟨15, 8⟩
def chnEccRank_DEV : Fld := ⟨7, 4⟩
def chnEccRank_CE_HIT : Fld := ⟨3, 3⟩
def chnEccRank_UE_HIT : Fld := ⟨2, 2⟩
def chnRankstat_PR7 : Fld := ⟨23, 21⟩
def chnRankstat_PR6 : Fld := ⟨20, 18⟩
def chnRankstat_PR5 : Fld := ⟨17, 15⟩
def chnRankstat_PR4 : Fld := ⟨14, 12⟩
def chnRankstat_PR3 : Fld := ⟨11, 9⟩
def chnRankstat_PR2 : Fld := ⟨8, 6⟩
def chnRankstat_PR1 : Fld := ⟨5, 3⟩
def chnRankstat_PR0 : Fld := ⟨2, 0⟩
def chnSpare_START : Fld := ⟨31, 31⟩
def chnSpare_RETIRE : Fld := ⟨30, 30⟩
def chnSpare_ERR : Fld := ⟨29, 29⟩
def chnSpare_STATE : Fld := ⟨28, 27⟩
def chnSpare_EN : Fld := ⟨26, 26⟩
def chnSpare_RANK : Fld := ⟨25, 23⟩
def chnSpare_SRC : Fld := ⟨22, 20⟩
def chnSpare_FAILED : Fld := ⟨19, 16⟩
def chnSpare_COPY_BW : Fld := ⟨15, 8⟩
def chnSpareCp_CP : Fld := ⟨32, 0⟩
def chnScrub_EN : Fld := ⟨31, 31⟩
def chnScrub_PERIOD : Fld := ⟨7, 0⟩
def chnScrubPos_RANK : Fld := ⟨35, 33⟩
def chnScrubPos_LINE : Fld := ⟨32, 0⟩
def chnScrubLag_LATE : Fld := ⟨31, 31⟩
def chnScrubLag_LAG : Fld := ⟨30, 0⟩
def chnScrubMaxlag_CLR : Fld := ⟨31, 31⟩
def chnScrubMaxlag_MAX_LAG : Fld := ⟨30, 0⟩
def chnFchg_CMD : Fld := ⟨31, 31⟩
def chnFchg_BUSY : Fld := ⟨30, 30⟩
def chnFchg_ERR : Fld := ⟨29, 29⟩
def chnFchg_REVERTED : Fld := ⟨28, 28⟩
def chnFchg_CAUSE : Fld := ⟨27, 26⟩
def chnFchg_ACTIVE : Fld := ⟨25, 25⟩
def chnFchgTime_MAX : Fld := ⟨31, 16⟩
def chnFchgTime_LAST : Fld := ⟨15, 0⟩
def chnPwr_PD_EN : Fld := ⟨31, 31⟩
def chnPwr_PD_IDLE : Fld := ⟨15, 0⟩
def chnPwrstat_PD : Fld := ⟨7, 0⟩
def chnAmap_HASH : Fld := ⟨12, 12⟩
def chnAmap_CIDW : Fld := ⟨11, 10⟩
def chnAmap_ROWW : Fld := ⟨9, 8⟩
def chnAmap_BAW : Fld := ⟨7, 7⟩
def chnAmap_BGW : Fld := ⟨6, 6⟩
def chnAmap_COLW : Fld := ⟨5, 5⟩
def chnRankmap_L7 : Fld := ⟨31, 28⟩
def chnRankmap_L6 : Fld := ⟨27, 24⟩
def chnRankmap_L5 : Fld := ⟨23, 20⟩
def chnRankmap_L4 : Fld := ⟨19, 16⟩
def chnRankmap_L3 : Fld := ⟨15, 12⟩
def chnRankmap_L2 : Fld := ⟨11, 8⟩
def chnRankmap_L1 : Fld := ⟨7, 4⟩
def chnRankmap_L0 : Fld := ⟨3, 0⟩
def chnTim0_RATE : Fld := ⟨63, 60⟩
def chnTim0_CL : Fld := ⟨59, 52⟩
def chnTim0_CWL : Fld := ⟨51, 44⟩
def chnTim0_RCD : Fld := ⟨43, 36⟩
def chnTim0_RP : Fld := ⟨35, 28⟩
def chnTim0_RAS : Fld := ⟨27, 18⟩
def chnTim0_RC : Fld := ⟨17, 8⟩
def chnTim0_WR : Fld := ⟨7, 0⟩
def chnTim1_RTP : Fld := ⟨63, 56⟩
def chnTim1_RRD_S : Fld := ⟨55, 48⟩
def chnTim1_RRD_L : Fld := ⟨47, 40⟩
def chnTim1_FAW : Fld := ⟨39, 32⟩
def chnTim1_CCD_L : Fld := ⟨31, 24⟩
def chnTim1_CCD_L_WR : Fld := ⟨23, 16⟩
def chnTim1_WTR_S : Fld := ⟨15, 8⟩
def chnTim1_WTR_L : Fld := ⟨7, 0⟩
def chnTim2_REFI : Fld := ⟨63, 50⟩
def chnTim2_RFC1 : Fld := ⟨49, 38⟩
def chnTim2_RFCSB : Fld := ⟨37, 28⟩
def chnTim2_XS : Fld := ⟨27, 16⟩
def chnTim2_RFM : Fld := ⟨15, 6⟩
def chnTim2_CCD_S : Fld := ⟨5, 0⟩
def chnTim3_RTW : Fld := ⟨63, 56⟩
def chnTim3_RRDR : Fld := ⟨55, 48⟩
def chnTim3_WWDR : Fld := ⟨47, 40⟩
def chnTim3_RWDR : Fld := ⟨39, 32⟩
def chnTim3_WRDR : Fld := ⟨31, 24⟩
def chnTim3_XP : Fld := ⟨23, 16⟩
def leyCtrl_EN : Fld := ⟨31, 31⟩
def leyCtrl_RT_REQ : Fld := ⟨30, 30⟩
def leyCtrl_RS_REQ : Fld := ⟨29, 29⟩
def leyCtrl_RS_WIDTH : Fld := ⟨28, 27⟩
def leyCtrl_MAXRATE : Fld := ⟨26, 25⟩
def leyCtrl_ERR : Fld := ⟨24, 24⟩
def leyCtrl_REPLAY_TO : Fld := ⟨15, 8⟩
def leyCtrl_REPLAY_NUM : Fld := ⟨7, 4⟩
def leyCtrl_RT_TRIES : Fld := ⟨3, 0⟩
def leyStat_STATE : Fld := ⟨31, 28⟩
def leyStat_RATE : Fld := ⟨27, 26⟩
def leyStat_WIDTH : Fld := ⟨25, 24⟩
def leyStat_LANES : Fld := ⟨23, 16⟩
def leyStat_PDEV : Fld := ⟨15, 13⟩
def leyStat_PDIST : Fld := ⟨12, 11⟩
def leyRtcfg_AUTO : Fld := ⟨31, 31⟩
def leyRtcfg_THRESH : Fld := ⟨30, 24⟩
def leyRtcfg_IDLE : Fld := ⟨15, 0⟩
def leyErr_CRC : Fld := ⟨31, 31⟩
def leyErr_FEC_CORR : Fld := ⟨30, 30⟩
def leyErr_NAK_SENT : Fld := ⟨29, 29⟩
def leyErr_REPLAY_TO : Fld := ⟨28, 28⟩
def leyErr_DUP : Fld := ⟨27, 27⟩
def leyErr_OVERRUN : Fld := ⟨26, 26⟩
def leyErr_ABANDONED : Fld := ⟨25, 25⟩
def leyErr_RETRAIN : Fld := ⟨24, 24⟩
def leyErr_RESIZE : Fld := ⟨23, 23⟩
def leyErr_FOLD : Fld := ⟨22, 22⟩
def leyCred_CLR : Fld := ⟨63, 63⟩
def leyCred_DLOW : Fld := ⟨56, 48⟩
def leyCred_HLOW : Fld := ⟨40, 32⟩
def leyCred_DWIN : Fld := ⟨24, 16⟩
def leyCred_HWIN : Fld := ⟨8, 0⟩
def leyLast_CAUSE : Fld := ⟨31, 28⟩
def leyLast_TIME : Fld := ⟨27, 8⟩
def leyLast_ATTEMPTS : Fld := ⟨3, 0⟩
def casId_ROLE : Fld := ⟨31, 29⟩
def casId_DIST : Fld := ⟨28, 27⟩
def casId_UPPORT : Fld := ⟨26, 25⟩
def casId_JOINED : Fld := ⟨24, 24⟩
def casCtrl_AUTO_REOPEN : Fld := ⟨31, 31⟩
def casCtrl_REOPEN : Fld := ⟨30, 30⟩
def casCtrl_FORGET : Fld := ⟨29, 29⟩
def casCtrl_ERR : Fld := ⟨28, 28⟩
def casCtrl_RDEV : Fld := ⟨27, 25⟩
def casFoldmap_V : Fld := ⟨63, 63⟩
def casFoldmap_BASE : Fld := ⟨47, 27⟩
def casFoldstat_BMAP : Fld := ⟨31, 25⟩
def casFoldstat_OVF_SEEN : Fld := ⟨24, 24⟩
def casFoldstat_LIST : Fld := ⟨12, 0⟩
def casMacc_GO : Fld := ⟨63, 63⟩
def casMacc_DONE : Fld := ⟨62, 62⟩
def casMacc_ERR : Fld := ⟨61, 61⟩
def casMacc_WR : Fld := ⟨60, 60⟩
def casMacc_DEV : Fld := ⟨59, 57⟩
def casMacc_OFFSET : Fld := ⟨24, 0⟩
def casMdata_DATA : Fld := ⟨31, 0⟩
def casMember_STATE : Fld := ⟨63, 61⟩
def casMember_PORT : Fld := ⟨60, 59⟩
def casMember_DIST : Fld := ⟨58, 57⟩
def casMember_SESSION : Fld := ⟨31, 0⟩
def casMser_SERIAL : Fld := ⟨63, 0⟩
def casSetMap_SIZE : Fld := ⟨50, 32⟩
def casSetMap_CBASE : Fld := ⟨28, 18⟩
def casSetMap_BASE : Fld := ⟨17, 0⟩
def casSetCtrl_COMMIT : Fld := ⟨31, 31⟩
def casSetCtrl_COMMITTED : Fld := ⟨30, 30⟩
def casSetCtrl_ERR : Fld := ⟨29, 29⟩
def casSetCtrl_TBASE : Fld := ⟨25, 16⟩
def casSetCtrl_WAYS2 : Fld := ⟨15, 12⟩
def casSetCtrl_GRAIN2 : Fld := ⟨11, 8⟩
def casSetCtrl_WAYS1 : Fld := ⟨7, 5⟩
def casSetCtrl_GRAIN1 : Fld := ⟨4, 0⟩
def casTgt_V : Fld := ⟨8, 8⟩
def casTgt_DEV : Fld := ⟨7, 5⟩
def casTgt_CHAN : Fld := ⟨4, 0⟩
def rngCrBase_BASE : Fld := ⟨63, 6⟩
def rngCrCtrl_EN : Fld := ⟨31, 31⟩
def rngCrCtrl_ERR : Fld := ⟨30, 30⟩
def rngCrCtrl_SIZE : Fld := ⟨23, 19⟩
def rngCrCtrl_CQ : Fld := ⟨18, 16⟩
def rngCrTail_TAIL : Fld := ⟨15, 0⟩
def rngCrStat_ACTIVE : Fld := ⟨31, 31⟩
def rngCrStat_ERRSTOP : Fld := ⟨30, 30⟩
def rngCrStat_RUN : Fld := ⟨19, 16⟩
def rngCrStat_HEAD : Fld := ⟨15, 0⟩
def rngCqBase_BASE : Fld := ⟨63, 5⟩
def rngCqCtrl_EN : Fld := ⟨31, 31⟩
def rngCqCtrl_ERR : Fld := ⟨30, 30⟩
def rngCqCtrl_IMODE : Fld := ⟨29, 28⟩
def rngCqCtrl_VECTOR : Fld := ⟨27, 22⟩
def rngCqCtrl_SIZE : Fld := ⟨21, 17⟩
def rngCqCtrl_ICOUNT : Fld := ⟨15, 8⟩
def rngCqCtrl_ITIME : Fld := ⟨7, 0⟩
def rngCqHead_HEAD : Fld := ⟨15, 0⟩
def rngCqStat_FULL_SEEN : Fld := ⟨31, 31⟩
def rngCqStat_PHASE : Fld := ⟨30, 30⟩
def rngCqStat_TAIL : Fld := ⟨15, 0⟩
def rngSnapstat_SEQ : Fld := ⟨63, 48⟩
def rngSnapstat_STATUS : Fld := ⟨47, 40⟩
def rngSnapstat_RING : Fld := ⟨34, 32⟩
def rngSnapstat_TAG : Fld := ⟨31, 0⟩
def talCtrl_EN : Fld := ⟨31, 31⟩
def talCtrl_PERIOD : Fld := ⟨15, 0⟩
def talStat_BUSY : Fld := ⟨31, 31⟩
def talStat_PASS : Fld := ⟨30, 30⟩
def talStat_ECC_UE_SEEN : Fld := ⟨29, 29⟩
def talStat_PAR_SEEN : Fld := ⟨28, 28⟩
def talStat_ECC_CE : Fld := ⟨15, 0⟩
def talTime_TIME : Fld := ⟨63, 0⟩
def talSweepLag_LATE : Fld := ⟨31, 31⟩
def talSweepLag_LAG : Fld := ⟨30, 0⟩
def talSweepMaxlag_CLR : Fld := ⟨31, 31⟩
def talSweepMaxlag_MAX_LAG : Fld := ⟨30, 0⟩
def talWatch_EN : Fld := ⟨63, 63⟩
def talWatch_BELOW : Fld := ⟨62, 62⟩
def talWatch_ID : Fld := ⟨47, 32⟩
def talWatch_THRESH : Fld := ⟨31, 0⟩
def talWatchstat_HIT : Fld := ⟨15, 0⟩
def stlStat_PG : Fld := ⟨31, 31⟩
def stlStat_PFW : Fld := ⟨30, 30⟩
def stlStat_EJECT : Fld := ⟨29, 29⟩
def stlStat_SLOT : Fld := ⟨28, 27⟩
def stlStat_DLY_STRAP : Fld := ⟨10, 8⟩
def stlStat_RTY_STRAP : Fld := ⟨7, 6⟩
def stlStat_RMP_STRAP : Fld := ⟨5, 4⟩
def stlStat_FT_STRAP : Fld := ⟨3, 2⟩
def stlFeedCtrl_EN : Fld := ⟨31, 31⟩
def stlFeedCtrl_RESTART : Fld := ⟨30, 30⟩
def stlFeedCtrl_CLR_FET : Fld := ⟨29, 29⟩
def stlFeedCtrl_ERR : Fld := ⟨28, 28⟩
def stlFeedCtrl_DLY : Fld := ⟨22, 20⟩
def stlFeedCtrl_RTY : Fld := ⟨19, 18⟩
def stlFeedStat_STATE : Fld := ⟨31, 29⟩
def stlFeedStat_CAUSE : Fld := ⟨28, 25⟩
def stlFeedStat_RETRIES : Fld := ⟨24, 21⟩
def stlFeedStat_FT_RUN : Fld := ⟨20, 20⟩
def stlFeedStat_ILIM : Fld := ⟨19, 19⟩
def stlVthr_ERR : Fld := ⟨63, 63⟩
def stlVthr_WARN : Fld := ⟨49, 40⟩
def stlVthr_OV_ON : Fld := ⟨39, 30⟩
def stlVthr_OV_OFF : Fld := ⟨29, 20⟩
def stlVthr_UV_ON : Fld := ⟨19, 10⟩
def stlVthr_UV_OFF : Fld := ⟨9, 0⟩
def stlIlim_RUN_LIM : Fld := ⟨31, 24⟩
def stlIlim_START_LIM : Fld := ⟨23, 16⟩
def stlIlim_REV : Fld := ⟨15, 8⟩
def stlTime_FT : Fld := ⟨31, 24⟩
def stlTime_RAMP : Fld := ⟨23, 16⟩
def stlTime_COOL : Fld := ⟨15, 0⟩
def stlPfw_HOLD : Fld := ⟨15, 0⟩
def stlMeas0_SEQ : Fld := ⟨63, 48⟩
def stlMeas0_VOUT : Fld := ⟨47, 32⟩
def stlMeas0_VIN_B : Fld := ⟨31, 16⟩
def stlMeas0_VIN_A : Fld := ⟨15, 0⟩
def stlMeas1_SEQ : Fld := ⟨63, 48⟩
def stlMeas1_ISNS_B : Fld := ⟨47, 32⟩
def stlMeas1_ISNS_A : Fld := ⟨31, 16⟩
def stlMeas1_MID_B : Fld := ⟨15, 8⟩
def stlMeas1_MID_A : Fld := ⟨7, 0⟩
def stlLogstat_OVF : Fld := ⟨31, 31⟩
def stlLogstat_POP : Fld := ⟨30, 30⟩
def stlLogstat_COUNT : Fld := ⟨12, 8⟩
def stlLogstat_OLDEST : Fld := ⟨3, 0⟩
def stlLog_TIME : Fld := ⟨63, 32⟩
def stlLog_FEED : Fld := ⟨31, 31⟩
def stlLog_CAUSE : Fld := ⟨30, 27⟩
def stlLog_RETRIES : Fld := ⟨26, 23⟩
def stlLog_LATCHED : Fld := ⟨22, 22⟩
def stlLog_VIN : Fld := ⟨15, 0⟩
def otpStat_HOLD : Fld := ⟨31, 31⟩
def otpStat_CAUSE : Fld := ⟨30, 28⟩
def otpStat_GEN : Fld := ⟨27, 24⟩
def otpStat_BURNED : Fld := ⟨23, 16⟩
def otpStat_SEALED : Fld := ⟨15, 8⟩
def otpStat_BEGUN : Fld := ⟨7, 0⟩
def otpCommit_SEQ : Fld := ⟨31, 16⟩
def otpCommit_BUSY : Fld := ⟨15, 15⟩
def otpCommit_STATUS : Fld := ⟨11, 8⟩
def otpCommit_SLOT : Fld := ⟨2, 0⟩
def crossHead_EVT_OUT : Fld := ⟨5, 5⟩
def crossHead_EVT_IN : Fld := ⟨4, 4⟩
def crossHead_VAL_OUT : Fld := ⟨3, 3⟩
def crossHead_VAL_IN : Fld := ⟨2, 2⟩
def crossHead_Q_OUT : Fld := ⟨1, 1⟩
def crossHead_Q_IN : Fld := ⟨0, 0⟩
def crossChn_EVT_OUT : Fld := ⟨5, 5⟩
def crossChn_EVT_IN : Fld := ⟨4, 4⟩
def crossChn_VAL_OUT : Fld := ⟨3, 3⟩
def crossChn_VAL_IN : Fld := ⟨2, 2⟩
def crossChn_Q_OUT : Fld := ⟨1, 1⟩
def crossChn_Q_IN : Fld := ⟨0, 0⟩
def crossLey_EVT_OUT : Fld := ⟨5, 5⟩
def crossLey_EVT_IN : Fld := ⟨4, 4⟩
def crossLey_VAL_OUT : Fld := ⟨3, 3⟩
def crossLey_VAL_IN : Fld := ⟨2, 2⟩
def crossLey_Q_OUT : Fld := ⟨1, 1⟩
def crossLey_Q_IN : Fld := ⟨0, 0⟩
def crossMgt_EVT_OUT : Fld := ⟨5, 5⟩
def crossMgt_EVT_IN : Fld := ⟨4, 4⟩
def crossMgt_VAL_OUT : Fld := ⟨3, 3⟩
def crossMgt_VAL_IN : Fld := ⟨2, 2⟩
def crossMgt_Q_OUT : Fld := ⟨1, 1⟩
def crossMgt_Q_IN : Fld := ⟨0, 0⟩
def crossSum0_CHN : Fld := ⟨31, 8⟩
def crossSum0_HEAD : Fld := ⟨7, 0⟩
def crossSum1_MGT : Fld := ⟨4, 4⟩
def crossSum1_LEY : Fld := ⟨3, 0⟩
def crossIntEn0_CHN : Fld := ⟨31, 8⟩
def crossIntEn0_HEAD : Fld := ⟨7, 0⟩
def crossIntEn1_MGT : Fld := ⟨4, 4⟩
def crossIntEn1_LEY : Fld := ⟨3, 0⟩

end Sys2Proof.Machine.F
end

