-- ==== Sys2Proof/Machine/Store.lean ====
section
/-! DEFINITION. Sparse data by key: a list of (key, value) pairs with strictly rising keys and no entry equal to the value
that an unlisted key has (`d key`), so that equal contents are equal lists. -/

namespace Sys2Proof.Machine

variable {α : Type}

/-- The listed value of a key. -/
def kvFind? : List (Nat × α) → Nat → Option α
  | [], _ => none
  | (k, v) :: m, a => if k = a then some v else kvFind? m a

/-- The value of a key; an unlisted key has `d a`. -/
def kvGet (d : Nat → α) (m : List (Nat × α)) (a : Nat) : α := (kvFind? m a).getD (d a)

/-- The list without a key. -/
def kvDel (m : List (Nat × α)) (a : Nat) : List (Nat × α) := m.filter fun p => p.1 != a

/-- The list with a key listed at `x`. -/
def kvIns : List (Nat × α) → Nat → α → List (Nat × α)
  | [], a, x => [(a, x)]
  | (k, v) :: m, a, x =>
    if a < k then (a, x) :: (k, v) :: m else if k = a then (a, x) :: m else (k, v) :: kvIns m a x

/-- Writes a key, keeping the canonical form: writing the unlisted value removes the entry. -/
def kvSet [DecidableEq α] (d : Nat → α) (m : List (Nat × α)) (a : Nat) (x : α) : List (Nat × α) :=
  if x = d a then kvDel m a else kvIns m a x

/-- Applies `f` to the value of a key. -/
def kvMod [DecidableEq α] (d : Nat → α) (m : List (Nat × α)) (a : Nat) (f : α → α) : List (Nat × α) :=
  kvSet d m a (f (kvGet d m a))

/-- Keys strictly rising. -/
def kvSorted : List (Nat × α) → Bool
  | [] => true
  | [_] => true
  | (k, _) :: (k', v') :: m => decide (k < k') && kvSorted ((k', v') :: m)

/-- The canonical form: keys strictly rising, no entry equal to the unlisted value. -/
def kvWf [DecidableEq α] (d : Nat → α) (m : List (Nat × α)) : Bool :=
  kvSorted m && m.all fun p => decide (p.2 ≠ d p.1)

/-! ### Lists by a key of any type -/

variable {κ : Type} [DecidableEq κ]

/-- The value of a key; an unlisted key has `z`. -/
def asGet (z : α) : List (κ × α) → κ → α
  | [], _ => z
  | (k, v) :: m, a => if k = a then v else asGet z m a

/-- The list with a key at `x`, in its place if it is listed. -/
def asSet : List (κ × α) → κ → α → List (κ × α)
  | [], a, x => [(a, x)]
  | (k, v) :: m, a, x => if k = a then (a, x) :: m else (k, v) :: asSet m a x

end Sys2Proof.Machine
end

