-- ==== Sys2Proof/Machine/RegFile.lean ====
section
/-! DEFINITION. Register files: the reset value of a register from its field table, and reading and writing a register
and its fields. A file lists only the registers whose value differs from reset. -/

namespace Sys2Proof.Machine

/-- The value that the field table gives a register at reset (R470). -/
def Reg.resetNat (r : Reg) : Nat :=
  r.fieldDefs.foldl (fun v f => putBits v f.hi f.lo f.reset) 0

/-- The image of a register at reset. -/
def Reg.image0 (r : Reg) : W64 := BitVec.ofNat 64 r.resetNat

/-- The stored value of a register. -/
def RegFile.get (m : RegFile) (r : Reg) : Nat := ((kvFind? m r.offset).getD r.image0).toNat

/-- Stores a register. -/
def RegFile.set (m : RegFile) (r : Reg) (v : Nat) : RegFile :=
  if BitVec.ofNat 64 v = r.image0 then kvDel m r.offset else kvIns m r.offset (BitVec.ofNat 64 v)

/-- A field of a register. -/
def RegFile.fld (m : RegFile) (r : Reg) (f : Fld) : Nat := bitsOf (m.get r) f.hi f.lo

/-- A one-bit field of a register. -/
def RegFile.flag (m : RegFile) (r : Reg) (f : Fld) : Bool := m.fld r f != 0

/-- Sets a field of a register. -/
def RegFile.setFld (m : RegFile) (r : Reg) (f : Fld) (x : Nat) : RegFile :=
  m.set r (putBits (m.get r) f.hi f.lo x)

/-- The bits of a register whose access type is in `as`, as a mask. -/
def Reg.accMask (r : Reg) (as : List Acc) : Nat :=
  (r.fieldDefs.filter fun f => as.contains f.acc).foldl (fun v f => putBits v f.hi f.lo (2 ^ (f.hi + 1 - f.lo) - 1)) 0

/-- What the field rules of Table 0.3 make of a write `w` to a register that holds `v`: RW1C bits written with 1 clear,
then RW and RWS fields take the written value, and RWL fields do while the device is not locked (R5, R467 steps 1, 2). -/
def Reg.applyWrite (r : Reg) (locked : Bool) (v w : Nat) : Nat :=
  r.fieldDefs.foldl (fun acc f =>
    let x := bitsOf w f.hi f.lo
    match f.acc with
    | .rw | .rws => putBits acc f.hi f.lo x
    | .rwl => if locked then acc else putBits acc f.hi f.lo x
    | .rw1c =>
      let old := bitsOf v f.hi f.lo
      putBits acc f.hi f.lo (old - (old &&& x))
    | .ro | .wo | .rsv => acc) v

/-- A write puts a non-zero value into a reserved field: a host error (Table 0.3). -/
def Reg.rsvError (r : Reg) (w : Nat) : Bool :=
  r.fieldDefs.any fun f => f.acc == .rsv && bitsOf w f.hi f.lo != 0

/-- What a read returns of a stored image: WO and RSV fields read as zero (Table 0.3). -/
def Reg.readMask (r : Reg) (v : Nat) : Nat :=
  r.fieldDefs.foldl (fun acc f =>
    match f.acc with
    | .wo | .rsv => putBits acc f.hi f.lo 0
    | _ => acc) v

end Sys2Proof.Machine
end

