-- ==== Sys2Proof/Machine/State.lean ====
section
/-! DEFINITION. The state of the device, as plain data: every register, queue, buffer, counter and mode that the spec gives
it, the DRAM behind its channels, the Stile die, its non-volatile stores, what it has sent to the outside, and the queue of
waiting commands. -/

namespace Sys2Proof.Machine

/-! ### What leaves the device, and event records -/

/-- An event record. `ty` is the vendor type code of Table 4.17; head and LD are 0xFF where none is named; `unit` is class
× 256 + instance (Table 18.2). `data` holds the standard fields that a rule names: of a General Media record the transaction type; of a
DRAM record those of `dramFields` (Records.lean). `handle` and `time` are common event record fields: the record's number in its log, and
the time in ns at which it was raised. -/
structure Rec where
  kind : RecKind := .vendor
  ty : Nat
  sev : Sev
  head : Nat := 0xFF
  ld : Nat := 0xFF
  unit : Nat := 0
  suppressed : Nat := 0
  addr0 : Nat := 0
  addr1 : Nat := 0
  detail : Nat := 0
  data : List Nat := []
  handle : Nat := 0
  time : Nat := 0
  deriving DecidableEq, Repr

/-- The event logs (R106): owner × 5 + severity gives the log; owner 16 is the management view. -/
structure Logs where
  recs : List (Nat × List Rec) := []
  /-- overflow counts and the times of the first and last record not kept -/
  ovf : List (Nat × (Nat × Nat × Nat)) := []
  /-- records that a log has been given since reset -/
  made : List (Nat × Nat) := []
  /-- interrupt policy of the logs: the MSI-X vector of a log whose event interrupts are on (R106) -/
  policy : List (Nat × Nat) := []
  /-- R495: (type, scope) as type × 2^64 + scope: the time of the last record raised, and the events counted since -/
  last : List (Nat × (Nat × Nat)) := []
  deriving DecidableEq, Repr

/-- AER conditions of Table 4.18 that the modelled events report. -/
inductive Aer where
  | completionTimeout | unexpectedCompletion | poisonedTlp | unsupportedRequest | ideCheckFailed
  deriving DecidableEq, Repr

/-- Severities of an AER message. -/
inductive AerSev where
  | correctable | nonFatal | fatal
  deriving DecidableEq, Repr

/-- S2M messages (chapter 5). -/
inductive S2M where
  | cmp | cmpS | cmpE | biConflictAck | bisnpCur | bisnpData | bisnpInv
  deriving DecidableEq, Repr

/-- Commands to the modules of a channel. A bank is named by its key (rank, CID, bank group and bank as sent); a write's burst
is its 16 beats of 40 bits (R278, R279). -/
inductive DimmCmd where
  | act (bank row : Nat)
  | pre (bank : Nat)
  | rd (bank col : Nat)
  | wr (bank col : Nat) (burst : BitVec 640)
  | refAb (rank : Nat)
  | refSb (rank bank : Nat)
  | rfmAb (rank : Nat)
  | rfmSb (rank bank : Nat)
  | sre (rank : Nat)
  | srx (rank : Nat)
  | pde (rank : Nat)
  | pdx (rank : Nat)
  | zqCal (rank : Nat)
  | mrr (rank : Nat)
  | relock (rate : Nat)
  deriving DecidableEq, Repr

/-- The mailbox and FM API commands that the manual gives an effect (R4 of the standard names their opcodes). -/
inductive MboxOp where
  | addCapacity | releaseCapacity | forcedRemoval | configureRegion | transferFw | activateFw
  | pliuthTransfer | pliuthCommit | pliuthState | pliuthAbort | holdReset | clearEventRecords
  deriving DecidableEq, Repr

/-- Return codes, by the standard's names. -/
inductive MboxCode where
  | success | invalidInput | unsupported | resourcesExhausted | busy | retryRequired | invalidSlot | verificationFailed
  | transferOutOfOrder | backgroundStarted | invalidHandle
  deriving DecidableEq, Repr

/-- The data objects of a function's DOE mailbox (R92). -/
inductive DoeObject where
  | discovery | spdm | securedSpdm | cdat | deck
  deriving DecidableEq, Repr

/-- CDAT entries (R93): the header; one DSMAS per range, LD-relative; latency in ns and bandwidth in MB/s per range, for reads
and for writes; memory type per range. -/
inductive CdatEntry where
  | header
  | dsmas (handle base bytes : Nat) (sharable : Bool)
  | latency (handle : Nat) (write : Bool) (ns : Nat)
  | bandwidth (handle : Nat) (write : Bool) (mbs : Nat)
  /-- `specific`: specific-purpose memory, else conventional memory -/
  | dsemts (handle : Nat) (specific : Bool) (bytes : Nat)
  deriving DecidableEq, Repr

/-- What the device puts out at its interfaces, in order. -/
inductive Out where
  /-- a response without data, or a snoop, on a head for an LD -/
  | s2m (head ld : Nat) (op : S2M) (hpa tag : Nat)
  /-- MemData; `ide`: the key of the CXL IDE stream under which it leaves, none where no stream is secure (R97, R231) -/
  | memData (head ld hpa tag : Nat) (data : Line) (poison : Bool) (ide : Option Nat)
  /-- an MSI-X message of function `fn` (0–15 LDs, 16 management view) -/
  | msix (fn vector : Nat)
  /-- an AER message of function 0 of a head, with the LD that the error is tied to, or 0xFF (R109) -/
  | aer (head ld : Nat) (err : Aer) (sev : AerSev)
  /-- a bus-master read of host memory, `ro` with Relaxed Ordering, and a write, which never has it (R98) -/
  | hostRead (head tag addr len : Nat) (ro : Bool)
  | hostWrite (head addr : Nat) (bytes : List Nat) (poison : Bool)
  /-- a Deck response object of a function, as dwords (R94) -/
  | doe (fn : Nat) (dwords : List Nat)
  /-- the answer to a DOE Discovery index: the object found there, and the next index -/
  | doeFound (fn : Nat) (obj : Option DoeObject) (next : Nat)
  /-- an entry of an LD's CDAT: its sequence number, the entry, the next handle (0xFFFF after the last) -/
  | cdat (ld seq : Nat) (entry : CdatEntry) (next : Nat)
  /-- a DOE request that is answered by the standard's error handling (R92) -/
  | doeError (fn : Nat)
  /-- an SPDM answer of a function: measurement block, and its bytes (R421) -/
  | spdm (fn block : Nat) (bytes : List Nat)
  /-- a response to a mailbox or FM API command of a function, with its payload bytes -/
  | mailbox (fn : Nat) (op : MboxOp) (code : MboxCode) (payload : List Nat)
  /-- an AVSBus set point command to a quarter's regulator -/
  | avs (quarter code : Nat)
  /-- a register read completion: function, offset, value -/
  | readData (fn off value : Nat)
  /-- a flit of a Ley port, byte i at bits [8i+7:8i] (R341) -/
  | leyFlit (port : Nat) (flit : BitVec 2048)
  /-- a command of a subchannel to its modules -/
  | dimm (chan sub : Nat) (cmd : DimmCmd)
  deriving DecidableEq, Repr

/-! ### Crossings (chapter 2) -/

/-- A value crossing (R42): the value in flight, the holding register, and what the receiver last received. -/
structure XVal where
  flight : Option Nat := none
  delivered : Bool := false
  hold : Option Nat := none
  recv : Option Nat := none
  deriving DecidableEq, Repr

/-- An event crossing (R44): the kinds in flight, whether they have been delivered, and the pending set, as bit sets in
the order of the crossing's list in Table 2.7; `recv` lists the kinds that the receiver acted on, oldest first. `wait` and
`pendWait`: entries of the island's receive queue that were accepted before the events in flight, and before the pending ones, and
that have not been delivered (R48). -/
structure XEvt where
  flight : Nat := 0
  delivered : Bool := false
  pending : Nat := 0
  recv : List Nat := []
  wait : Nat := 0
  pendWait : Nat := 0
  deriving DecidableEq, Repr

/-- A queue crossing (R46): slot credits in use, entries in flight, a stalled entry, entries delivered. -/
structure XQue where
  used : Nat := 0
  entries : List Nat := []
  stalled : List Nat := []
  recv : List Nat := []
  deriving DecidableEq, Repr

/-- The crossings' state; an unlisted crossing is idle. -/
structure Crossings where
  vals : List (XId × XVal) := []
  evts : List (XId × XEvt) := []
  ques : List (XId × XQue) := []
  deriving DecidableEq, Repr

/-! ### Host ports (chapter 4) -/

/-- One HDM decoder of an LD (R58, R60, R62, R496). `iw` and `ig` are the standard's codes. -/
structure HdmDec where
  base : Nat := 0
  size : Nat := 0
  skip : Nat := 0
  iw : Nat := 0
  ig : Nat := 0
  lock : Bool := false
  /-- Commit as last written, Committed, Error Not Committed -/
  commit : Bool := false
  committed : Bool := false
  err : Bool := false
  /-- LD-relative DPA base, formed at the commit (R58) -/
  dpaBase : Nat := 0
  deriving DecidableEq, Repr

/-- What a bus-master read is for. -/
inductive ReadUse where
  /-- `n` descriptors from slot `slot` of command ring `ring` of set `set` -/
  | descriptors (set ring slot n : Nat)
  /-- `len` bytes at offset `off` of the host source of ring command `cmd` -/
  | copySource (cmd off len : Nat)
  /-- the extent list of a RELEASE_ACK command -/
  | extentList (cmd off len : Nat)
  /-- what it was for has been abandoned -/
  | abandoned
  deriving DecidableEq, Repr

/-- An outstanding non-posted read (R98 to R101): its tag, address, length, bytes received, and its timeout in µs. -/
structure BmRead where
  tag : Nat
  addr : Nat
  len : Nat
  got : List Nat
  timeout : Nat
  use : ReadUse
  deriving DecidableEq, Repr

/-- One IDE stream of a head (R97): key sets programmed and the newest key, secure or not, containment mode or skid mode, and whether a check
of it has failed and it has not been re-keyed since. -/
structure IdeState where
  keys : Nat := 0
  key : Nat := 0
  secure : Bool := false
  containment : Bool := false
  failed : Bool := false
  deriving DecidableEq, Repr

/-- The mailbox of a function (R106, R458): the Command register's opcode, the return code and the payload length of the last command, and
the payload registers as dwords. -/
structure MboxRegs where
  opcode : Nat := 0
  code : Nat := 0
  len : Nat := 0
  payload : List (Nat × Nat) := []
  /-- Set Alert Configuration's payload as last written (ch. 19) -/
  alert : List Nat := List.replicate 12 0
  deriving DecidableEq, Repr

/-- What belongs to one head besides HP_STAT, HP_BMSTAT and HP_CFG. -/
structure Head where
  /-- PERST_N of the head is asserted -/
  perst : Bool := false
  /-- the protocol that alternate-protocol negotiation has given, 0 where it failed (R81); a retrain keeps it -/
  negotiated : Nat := 0
  /-- response credits that the host holds out (R22) -/
  credits : Nat := 0
  /-- the IDE streams: link and selective CXL.io, and CXL.cachemem (R97) -/
  ide : List IdeState := [{}, {}, {}]
  /-- an IDE check has failed and CXL.mem requests are discarded; a hot reset or PERST_N has been delivered since (R97) -/
  ideFailed : Bool := false
  ideReset : Bool := false
  /-- free tags, least recently freed first; reads outstanding; tags in quarantine with their read's address (R98, R100) -/
  free : List Nat := (List.range 768).map (· + 0x100)
  reads : List BmRead := []
  quar : List (Nat × Nat) := []
  deriving DecidableEq, Repr

/-- A Dynamic Capacity region of an LD (R96), LD-relative, in fields; block size is 2^k fields. -/
structure DcRegion where
  base : Nat
  len : Nat
  k : Nat
  deriving DecidableEq, Repr

/-- A granted extent (R96, R174): LD-relative first field, fields, tag. -/
structure Extent where
  first : Nat
  fields : Nat
  tag : Nat
  deriving DecidableEq, Repr

/-- An extent removal in progress (R177): LD, extent, and whether a release response waits for it. -/
structure Removal where
  ld : Nat
  ext : Extent
  /-- 0 forced, 1 mailbox response, 2 + n: RELEASE_ACK of ring command n -/
  origin : Nat
  deriving DecidableEq, Repr

structure HostPorts where
  heads : List Head := List.replicate 8 {}
  /-- SPLIT in effect, per port (R78) -/
  split : List Bool := [false, false, false, false]
  /-- HDM decoders: LD × 8 + decoder -/
  hdm : List (Nat × HdmDec) := []
  /-- Memory_Active per LD (R88) -/
  memActive : List Bool := List.replicate 16 false
  /-- CDAT sequence numbers per LD, and the tables as they were last built (R93); a header alone before that -/
  cdatSeq : List Nat := List.replicate 16 0
  cdat : List (Nat × List CdatEntry) := []
  regions : List (Nat × List DcRegion) := []
  extents : List (Nat × List Extent) := []
  removals : List Removal := []
  /-- changes of an LD's extent list, which the standard's answers number -/
  extGen : List Nat := List.replicate 16 0
  /-- functions whose FLR or CXL Reset has not completed (R105) -/
  resetting : List Nat := []
  /-- configuration space: function × 2^12 + offset gives a dword's writable bits; LDs 0–15, 16 the management view (R90) -/
  cfg : List (Nat × Nat) := []
  /-- mailbox registers by function -/
  mbox : List (Nat × MboxRegs) := []
  /-- management head (Table 16.3) -/
  mgmtHead : Nat := 0
  /-- LDs whose host errors make their mappings, ring state and results unpredictable until they are reset; LDs whose data is
  unpredictable until their key changes or their window is torn down (R7, R8) -/
  wild : List Nat := []
  spoilt : List Nat := []
  deriving DecidableEq, Repr

/-! ### The home, the directory and the Sward cache (chapter 5) -/

/-- Line states of Table 5.1. -/
inductive LState where
  | i | s | e | t
  deriving DecidableEq, Repr

/-- SWD of a directory entry (Table 5.1). -/
inductive Swd where
  | absent | clean | dirty
  deriving DecidableEq, Repr

/-- A valid directory entry (Table 5.1): the way it sits in, the line DPA[47:6] that its tag and set name, BUSY, STATE, SWD
and HOLDERS. -/
structure DirEnt where
  way : Nat
  line : Nat
  busy : Bool
  st : LState
  swd : Swd
  holders : BitVec 16
  deriving DecidableEq, Repr

/-- A directory set (R114, R117, R133): its valid entries, its ways from the most to the least recently used, and the
retired ways. -/
structure DirSet where
  ents : List DirEnt := []
  order : List Nat := List.range 16
  retired : List Nat := []
  deriving DecidableEq, Repr

/-- Why a Sward way is pinned (R120): a policy range, HOME_CTRL.DEFHINT, or a ring command's own HINT on a line that neither of the
two pins. -/
inductive PinBy where
  | none | range | defhint | command
  deriving DecidableEq, Repr

/-- A valid Sward way (Table 5.2) with its line's data. DIRTY is the directory entry's SWD. -/
structure SwWay where
  way : Nat
  line : Nat
  pin : PinBy
  age : Nat
  data : Line
  deriving DecidableEq, Repr

/-- Requests as the tables of chapter 5 name them. `wr keep`: MetaValue S keeps a clean copy. `wr`, `ncWrite` and `evict` also
stand for the home's own poisoning of a lost line. -/
inductive HomeOp where
  | rdS | rdE | rdI | invA | invI | clnEvct | wr (keep : Bool) | ncRead | ncWrite
  /-- SANITIZE's taking of a line: as a non-caching write that writes nothing and drops the Sward copy (R328) -/
  | ncDrop
  /-- the directory eviction of a line (Table 5.5) -/
  | evict
  deriving DecidableEq, Repr

/-- Who made a request. -/
inductive Src where
  /-- a host: head, requesting LD, tag -/
  | host (head ld tag : Nat)
  /-- a ring command's access to the line at offset `idx` of its range; the LD of its ring set, 16 for the management set -/
  | ring (cmd idx ld : Nat)
  /-- the directory's own eviction of a line -/
  | dir
  deriving DecidableEq, Repr

/-- What translation found (R66, R67, Table 6.3). -/
inductive Xlat where
  | none
  | sa (a : Nat)
  /-- a fallow page: frame, first sheaf, sheaves, FCTR, and the code-table selection and page code of its entry -/
  | fallow (frame soff scnt fctr tsel pgc : Nat)
  | bare
  | poisoned
  /-- the field is lost (R151) -/
  | lost
  | unpopulated
  deriving DecidableEq, Repr

/-- Where a request stands. -/
inductive TPhase where
  /-- waits before admission (R130, R132, R138, R141, R168, R497) -/
  | entering
  /-- in the stand-by queue (R135) -/
  | stand
  /-- in the line-wait queue (R130) -/
  | lineWait
  /-- holds the line lock -/
  | active
  /-- a write-back of the owner, applied without the lock, that waits for its acceptance (R127) -/
  | writeBack
  /-- in the promotion-wait queue (R155) -/
  | parked
  /-- an eviction whose last acknowledge has arrived: its way is to be passed on (R134) -/
  | acked
  /-- complete; the line lock is to be handed on (R129) -/
  | complete
  deriving DecidableEq, Repr

/-- A fallow read (R192): what the sheaves gave so far, by sheaf line: data and 0 good, 1 poison, 2 stale under row 5. -/
structure FallowRd where
  lines : List (Nat × Line × Nat) := []
  /-- the baler job has been raised -/
  job : Bool := false
  deriving DecidableEq, Repr

/-- A request at its home slice. -/
structure Txn where
  id : Nat
  src : Src
  op : HomeOp
  /-- DPA[47:6], the LD whose window holds it, and the HPA of the request -/
  line : Nat
  own : Nat
  hpa : Nat := 0
  hint : Nat := 0
  /-- what a pin under its hint rests on (R120) -/
  pinBy : PinBy := .none
  /-- the stamp of R208: key and generation -/
  key : Nat := 0
  kgen : Nat := 0
  data : Line := 0
  mask : BitVec 64 := 0
  poison : Bool := false
  /-- MemInv forms answer without data -/
  noData : Bool := false
  phase : TPhase := .entering
  xlat : Xlat := .none
  /-- it waits for an entry of the promotion-wait queue (R497) -/
  pwait : Bool := false
  /-- the line that is evicted for it (R134) -/
  victim : Option Nat := Option.none
  /-- snoops sent; Sward write-back issued, and still awaited; read issued; write issued -/
  snooped : Bool := false
  wbSent : Bool := false
  wbWait : Bool := false
  rdSent : Bool := false
  wrSent : Bool := false
  /-- data read, and poison -/
  got : Option (Line × Bool) := Option.none
  /-- its write has been accepted -/
  wrDone : Bool := false
  /-- the line was lost with its owner (R137) -/
  lineLost : Bool := false
  /-- the fallow read -/
  fall : FallowRd := {}
  /-- marked for sampling: its number; acceptance time in ns; SOURCE, DEV and CHAN of Table 17.4; OPC (R448, R449) -/
  sample : Option Nat := Option.none
  t0 : Nat := 0
  source : Nat := 0
  dev : Nat := 0
  chan : Nat := 31
  opc : Nat := 0
  deriving DecidableEq, Repr

/-- Why a back-invalidate was sent. -/
inductive SnoopFor where
  | txn (id : Nat)
  /-- a sweep of grants of LD `n` (R113), of an extent or window (R171, R177) -/
  | grant (n : Nat)
  | drop
  deriving DecidableEq, Repr

/-- An outstanding back-invalidate (R128, R136). -/
structure Snoop where
  line : Nat
  ld : Nat
  op : S2M
  why : SnoopFor
  /-- response time in µs that applies to it -/
  bound : Nat
  deriving DecidableEq, Repr

/-- A directory sweep of R139: LD, cause, the DPA of the timed-out line, poisoned lines so far, its start in steps of 1.25 ns, and the
sets worked through. -/
structure DeadSweep where
  ld : Nat
  cause : Nat
  dpa : Nat
  poisoned : Nat
  since : Nat
  pos : Nat := 0
  deriving DecidableEq, Repr

/-- What a ring command's access gave: command, line offset, data, poison. -/
structure RingRes where
  cmd : Nat
  idx : Nat
  data : Line
  poison : Bool
  deriving DecidableEq, Repr

/-- A sample record (Table 17.4): LD of the request, its number, acceptance time in ns, and the other fields. -/
structure SampleRec where
  ld : Nat
  tld : Nat
  head : Nat
  poison : Bool
  opc : Nat
  seq : Nat
  lat : Nat
  time : Nat
  source : Nat
  dev : Nat
  chan : Nat
  slice : Nat
  dpa : Nat
  hpa : Nat
  deriving DecidableEq, Repr

/-- A policy range (R329): LD, range number, first line and lines, hint. -/
structure PolRange where
  ld : Nat
  id : Nat
  first : Nat
  lines : Nat
  hint : Nat
  deriving DecidableEq, Repr

structure Home where
  /-- directory sets: slice × 2^14 + set -/
  dir : List (Nat × DirSet) := []
  /-- Sward sets: slice × 2^11 + set -/
  sward : List (Nat × List SwWay) := []
  /-- requests, oldest first -/
  txns : List Txn := []
  nextId : Nat := 1
  snoops : List Snoop := []
  /-- trump rotation: the top head, and its admissions in this turn (R23) -/
  top : Nat := 0
  turn : Nat := 0
  sweeps : List DeadSweep := []
  /-- LDs whose head loss has been delivered since they became unresponsive (R141) -/
  lost : List Nat := []
  ringDone : List RingRes := []
  /-- samples whose responses have not been handed to the PHY (R449) -/
  sampleDone : List SampleRec := []
  pol : List PolRange := []
  deriving DecidableEq, Repr

/-! ### Balers (chapter 7) -/

/-- The three job classes of R198. -/
inductive JobClass where
  | readDecode | promoDecode | compression
  deriving DecidableEq, Repr

/-- Who raised a job. -/
inductive JobFor where
  /-- the fallow read of request `id`, for a line of its page -/
  | txn (id : Nat)
  /-- a promotion or a demotion of a page -/
  | promo (page : Nat)
  | move (page : Nat)
  deriving DecidableEq, Repr

/-- A baler job (R192 to R199). `bytes` is the page's sheaves or its 64 lines, as the baler's staging memory holds them (R13); `poison` marks
the poisoned sheaf lines. -/
structure BalJob where
  id : Nat
  cls : JobClass
  why : JobFor
  /-- quarter of the unit that raised it, and that unit: home slices 0–15, Tedders from 16 on -/
  q : Nat
  unit : Nat
  /-- the baler that it was dispatched to; none while it waits at its unit -/
  baler : Option Nat := none
  started : Bool := false
  reissued : Bool := false
  /-- swaths that a faulted job had decoded, from the first on (R199) -/
  swaths : Nat := 0
  bytes : List Nat
  poison : List Bool := []
  scnt : Nat := 0
  /-- line of the page that a read wants -/
  line : Nat := 0
  /-- DPA page and SA of the first sheaf, for records -/
  page : Nat := 0
  sa : Nat := 0
  cpol : Nat := 0
  thresh : Nat := 0
  budget : Nat := 0
  pgc : Nat := 0
  low : Bool := false
  deriving DecidableEq, Repr

/-- What a job returns: lines with poison; a compressed page (bytes, SCNT, TSEL, PGC); a failure: 0 budget, 1 fault. -/
inductive JobRes where
  | lines (l : List (Line × Bool))
  | form (bytes : List Nat) (scnt tsel pgc : Nat)
  | failed (cause : Nat)
  deriving DecidableEq, Repr

structure Balers where
  /-- jobs, oldest first -/
  jobs : List BalJob := []
  nextJob : Nat := 1
  /-- results on their way to the units that raised the jobs -/
  done : List (JobFor × JobRes) := []
  deriving DecidableEq, Repr

/-! ### Tiers, the Tedders and capacity (chapter 6) -/

/-- A periodic unit's place on its grid (R54 to R57), in ns: start and due time of the running period, its grid point, and
whether a record has been raised for the present excursion. -/
structure Periodic where
  running : Bool := false
  /-- P of the running period: a change of P applies from the next -/
  p : Nat := 0
  start : Nat := 0
  due : Nat := 0
  grid : Nat := 0
  raised : Bool := false
  deriving DecidableEq, Repr

/-- What a frame of the pool holds (R167). -/
inductive FrameUse where
  | page (field page : Nat)
  | table (field : Nat)
  | sheaves (ted : Nat)
  | sheafMap (ted : Nat) (run : Nat)
  deriving DecidableEq, Repr

/-- Why a promotion was asked for. -/
inductive PromoWhy where
  | write | ring | hot | read
  deriving DecidableEq, Repr

/-- A promotion (Table 6.4). `taken`: its frame is taken, and its erase waits until the frame's set is READY (R212). -/
inductive PromoPhase where
  | queued | held (since : Nat) | taken | reading | decoded | written
  deriving DecidableEq, Repr

structure Promo where
  ted : Nat
  page : Nat
  why : PromoWhy
  phase : PromoPhase
  /-- ring commands that wait for its outcome -/
  cmds : List Nat := []
  frame : Nat := 0
  /-- the page-map entry that step 1 found, the LD and its key stamp -/
  entry : Nat := 0
  ld : Nat := 0
  key : Nat := 0
  kgen : Nat := 0
  elastic : Bool := false
  /-- the lines formed, with poison -/
  lines : List (Line × Bool) := []
  deriving DecidableEq, Repr

/-- A Tedder move other than a promotion (Tables 6.4, 6.6; R165, R166). -/
inductive MoveKind where
  | demote | relocate | fallowMove
  deriving DecidableEq, Repr

inductive MovePhase where
  | queued | coding | ready
  deriving DecidableEq, Repr

/-- What a move makes of its page. -/
inductive MoveTarget where
  | poisoned | bare | fallow | sward
  deriving DecidableEq, Repr

structure Move where
  ted : Nat
  page : Nat
  kind : MoveKind
  /-- the ring command that asked, if one did (R160) -/
  cmd : Option Nat
  phase : MovePhase
  entry : Nat := 0
  ld : Nat := 0
  key : Nat := 0
  kgen : Nat := 0
  /-- the counter line of the old frame as step 1 found it: MAJOR and minors -/
  snap : Nat × Nat := (0, 0)
  target : MoveTarget := .sward
  /-- new storage: frame, first sheaf, sheaves; TSEL and PGC of the compressed page -/
  frame : Nat := 0
  soff : Nat := 0
  scnt : Nat := 0
  tsel : Nat := 0
  pgc : Nat := 0
  /-- the move was queued by the running epoch -/
  epoch : Bool := false
  /-- budget of a ring DEMOTE in sheaves, 0 for none -/
  budget : Nat := 0
  deriving DecidableEq, Repr

/-- What a page of a ring PROMOTE or DEMOTE came to (R160, R330, Table 12.6). -/
inductive RingNote where
  | promoted | alreadySward | poisonedAtFloor | promoSkipped
  | madeFallow (sheaves : Nat) | madeBare | staysSward | demoteSkipped
  deriving DecidableEq, Repr

/-- Old sheaves that wait for the requests bound to them (Table 6.4 step 6). -/
structure OldSheaves where
  page : Nat
  frame : Nat
  soff : Nat
  scnt : Nat
  /-- requests bound to them -/
  txns : List Nat
  deriving DecidableEq, Repr

/-- An LD window between its enable and BUILT, or in teardown (R168, R171). -/
inductive WinPhase where
  | none | building | tearing
  deriving DecidableEq, Repr

/-- A field whose descriptor was lost (R151), until its window or extent goes: its LD, the pages that it had in Rc, its footprint in
sheaves when it was elastic, and the first frame of its storage when it was flat. -/
structure LostField where
  field : Nat
  ld : Nat
  resv : Nat := 0
  foot : Nat := 0
  flat : Option Nat := none
  deriving DecidableEq, Repr

structure Tiers where
  /-- the free list, first in first out, as runs (first frame, frames) -/
  free : List (Nat × Nat) := []
  uses : List (Nat × FrameUse) := []
  promos : List Promo := []
  moves : List Move := []
  old : List OldSheaves := []
  /-- map lines as the Tedders last wrote them, by SA / 64; an unlisted line is zero (R145, R226). The map write buffers (R150)
  are the accesses that the Tedders own. Sheaf maps are among these lines (R164). -/
  map : List (Nat × Line) := []
  /-- changed map lines that wait for an entry of a full map write buffer: Tedder, SA (R150) -/
  mapQ : List (Nat × Nat) := []
  /-- translation caches: by slice, the SA and content of its lines, most recently used first (R150) -/
  tcache : List (Nat × List (Nat × Line)) := []
  /-- the page that uses a sheaf, by frame × 16 + sheaf (R164) -/
  slots : List (Nat × Nat) := []
  /-- hotness sketch: (Tedder × 4 + row) × 2^18 + index (R158) -/
  sketch : List (Nat × Nat) := []
  /-- admitted requests to tiered fields per slice (R158), and the samples not yet delivered: slice, page -/
  sampleCnt : List (Nat × Nat) := []
  samples : List (Nat × Nat) := []
  /-- outcomes for ring commands, oldest first -/
  notes : List (Nat × RingNote) := []
  epoch : List Periodic := List.replicate 4 {}
  /-- the Tedders whose epoch's work is not done yet (R159) -/
  working : List Nat := []
  win : List WinPhase := List.replicate 16 .none
  /-- the modes have been evaluated since reset (R175) -/
  evaluated : Bool := false
  /-- frames that lost entries named and that no scan has counted yet, with their Tedders (R151) -/
  lostFrames : List (Nat × Nat) := []
  /-- frames left named by no map structure: they return to the pool only with their range (R151) -/
  leaked : List Nat := []
  lostFields : List LostField := []
  /-- frames taken whose erase waits until their set is READY (R212, R226) -/
  erases : List Nat := []
  deriving DecidableEq, Repr

/-! ### Encryption and integrity (chapter 8) -/

/-- A key domain of Table 8.2. -/
inductive Dom where
  | ld (n key kgen : Nat)
  | device
  /-- a counter line: tagged under the device key, in clear -/
  | counter
  deriving DecidableEq, Repr

inductive AccKind where
  | read | write | merge
  deriving DecidableEq, Repr

/-- Sources of Table 10.4. -/
inductive RdSource where
  | host | hostMerge | internal | map | scrub | copy
  deriving DecidableEq, Repr

/-- Who waits for an access. -/
inductive AccOwner where
  | none
  /-- the read, the write or the owed write-back of a request -/
  | txn (id : Nat)
  /-- a Sward write-back that request `id` waits for -/
  | wback (id : Nat)
  /-- line `idx` of the sheaves that a request of a fallow page reads -/
  | sheaf (id idx : Nat)
  /-- a map line for the translation slices -/
  | map
  /-- a map line's write: the Tedder whose map write buffer holds it (R150) -/
  | mapWrite (ted : Nat)
  /-- a counter line for a partition -/
  | ctr (q frame : Nat)
  deriving DecidableEq, Repr

/-- A line access at a cipher unit (R220, R221). `sa` is the line's SA (a multiple of 64). -/
structure Access where
  id : Nat
  own : AccOwner
  kind : AccKind
  sa : Nat
  dpa : Nat := 0
  ld : Nat := 0xFF
  dom : Dom
  src : RdSource := .internal
  /-- a line of a fallow slot: SA of the slot's first line, SOFF and FCTR (R218) -/
  slot : Option (Nat × Nat × Nat) := Option.none
  data : Line := 0
  mask : BitVec 64 := 0
  poison : Bool := false
  /-- its storage read has been issued; what came back; what came back was made by a fold (R381) -/
  sent : Bool := false
  got : Option CwOut := Option.none
  folded : Bool := false
  /-- counters to verify under, first choice first: MAJOR, and the minor counter of the line or slot (R220, R223) -/
  caps : List (Nat × Nat) := []
  /-- waits for a re-encryption entry (Table 8.8, step 2) -/
  parked : Bool := false
  /-- its counter line has been looked up -/
  looked : Bool := false
  /-- its storage write has been issued -/
  wrote : Bool := false
  /-- it has stalled for a slot of its channel's command crossing (R46) -/
  stalled : Bool := false
  deriving DecidableEq, Repr

/-- What an access gives its owner. -/
inductive AccRes where
  /-- the line read: data, poison; stale under row 5 of Table 8.5; made by a fold -/
  | line (data : Line) (poison stale folded : Bool)
  /-- the write has been accepted -/
  | accepted
  deriving DecidableEq, Repr

/-- A counter line (Table 8.3): MAJOR and the 64 minor counters, MINOR i at bits [7i+6:7i]. -/
structure Ctr where
  major : BitVec 64
  minors : BitVec 448
  deriving DecidableEq, Repr

/-- A copy of a counter line in a partition (R215): the minors it has changed. -/
structure CtrCopy where
  frame : Nat
  q : Nat
  ctr : Ctr
  changed : BitVec 64
  deriving DecidableEq, Repr

/-- A held counter line (R216): the partition, and how many Tedder moves pin it. -/
structure CtrHold where
  frame : Nat
  q : Nat
  pins : Nat
  deriving DecidableEq, Repr

/-- A re-encryption entry (Table 8.8): the frame, the partition, the old counters, the lines done, the domain. -/
structure ReEnc where
  frame : Nat
  q : Nat
  old : Ctr
  done : BitVec 64
  dom : Dom
  deriving DecidableEq, Repr

/-- The cipher units and the counter cache (R205 to R230). -/
structure Cipher where
  accs : List Access := []
  nextAcc : Nat := 1
  /-- results on their way to their owners, oldest first -/
  done : List (AccOwner × Nat × AccRes) := []
  /-- current key of each LD and of the device, as indexes of TRNG words (R205); words drawn so far -/
  ldKey : List Nat := List.replicate 16 0
  devKey : Nat := 0
  drawn : Nat := 0
  /-- the copies in the four partitions, most recently used first -/
  copies : List CtrCopy := []
  /-- copies written back and not yet merged (R215) -/
  merges : List CtrCopy := []
  holds : List CtrHold := []
  /-- accesses that row 1 of Table 8.5 settled while their burst was still under way -/
  zeroed : List Nat := []
  reencs : List ReEnc := []
  /-- key changes of each LD since its last completed sweep (R229) -/
  unswept : List Nat := List.replicate 16 0
  deriving DecidableEq, Repr

/-! ### Command rings (chapter 12) -/

/-- The opcodes of Table 12.2. -/
inductive RingOp where
  | nop | setHint | tierPolicy | compPolicy | promote | demote | fill | zero | copy | sanitize | capQuery | releaseAck
  | snapshot | sampleCfg
  deriving DecidableEq, Repr

/-- How a command treats the page at its position: line by line; as a page whose lines are being taken; as one whose commit has
failed and whose lines are to be taken again (R327, R328). -/
inductive PageStep where
  | none | drop | again
  deriving DecidableEq, Repr

/-- A running command (R318 to R332): where it came from, its operands as bytes 8–15, 16–23, 24–31 and 32–39 of the descriptor,
and how far it is. -/
structure RingCmd where
  id : Nat
  set : Nat
  ring : Nat
  /-- the slot after its own, and the completion ring that it posts to -/
  chead : Nat
  cq : Nat
  /-- acting LD -/
  ld : Nat
  tag : Nat
  irq : Bool
  hint : Nat
  op : RingOp
  a : Nat
  b : Nat
  n : Nat
  x : Nat
  /-- bytes issued; line requests outstanding; the page at `pos` -/
  pos : Nat := 0
  out : Nat := 0
  page : PageStep := .none
  /-- COPY in mode 0: the line read is outstanding; a host read is outstanding -/
  reading : Bool := false
  /-- bytes read from host memory -/
  buf : List Nat := []
  /-- bytes done; poisoned lines, and the offset of the first -/
  done : Nat := 0
  bad : Nat := 0
  first : Option Nat := none
  /-- pages or extents settled, and the counts of Table 12.6 -/
  settled : Nat := 0
  counts : List Nat := [0, 0, 0, 0, 0]
  /-- RELEASE_ACK: the extents are being removed -/
  removing : Bool := false
  deriving DecidableEq, Repr

/-- A finished command, or a DESC_FETCH, whose record is not posted yet (R319, R321). -/
structure RingFin where
  id : Nat
  set : Nat
  ring : Nat
  chead : Nat
  cq : Nat
  ld : Nat
  tag : Nat
  irq : Bool
  status : Nat
  r0 : Nat := 0
  r1 : Nat := 0
  r2 : Nat := 0
  /-- its completion ring was full when it was to be posted -/
  held : Bool := false
  deriving DecidableEq, Repr

/-- Interrupt state of a completion ring (R334): eligible records since the last message, and whether the timer runs. -/
structure Coalesce where
  count : Nat := 0
  timer : Bool := false
  deriving DecidableEq, Repr

structure Rings where
  /-- prefetch memory: by set × 8 + ring, (slot, descriptor), oldest first -/
  pre : List (Nat × List (Nat × Line)) := []
  /-- rings with a descriptor read outstanding -/
  fetching : List Nat := []
  /-- descriptor reads that have completed: set × 8 + ring, first slot, descriptors (R314) -/
  fetched : List (Nat × Nat × List Line) := []
  run : List RingCmd := []
  fin : List RingFin := []
  nextCmd : Nat := 1
  /-- the ring that started a command last (R323) -/
  turn : Nat := 135
  /-- by set × 8 + completion ring -/
  irq : List (Nat × Coalesce) := []
  deriving DecidableEq, Repr

/-! ### The Tally reader (chapter 17) -/

structure Tally where
  sweep : Periodic := {}
  /-- the standing image: what the last sweep read of each counter (R441) -/
  image : List Nat := []
  /-- value of each watch's counter at the last sweep (R446) -/
  prev : List (Nat × Nat) := []
  deriving DecidableEq, Repr

/-! ### Ley ports (chapter 13) -/

/-- A transaction entry (Table 13.6) with its data units. `la` is LA, or ARG of an MGT entry; `md` is META, or VALUE. `via` is
the port, plus 1, that a forwarded entry came from. -/
structure LeyEnt where
  vc : Nat
  op : Nat
  dev : Nat := 0
  chan : Nat := 0
  dlen : Nat := 0
  tag : Nat := 0
  la : Nat := 0
  md : Nat := 0
  out : Nat := 0
  cdev : Nat := 0
  data : List Line := []
  via : Nat := 0
  deriving DecidableEq, Repr

/-- A flit of the replay buffer (R342): SEQ, the payload's slots, the credits that it takes, as (VC, DLEN) per entry begun in
it, and whether its next sending takes them again (R358). -/
structure LeyBuf where
  seq : Nat
  slots : List Nat
  took : List (Nat × Nat)
  owe : Bool := false
  deriving DecidableEq, Repr

/-- A control message (Table 13.5), with SDEV and SDIST of the flit that brought it. -/
structure LeyCtl where
  ctl : Nat
  arg : Nat := 0
  slot0 : Nat := 0
  sdev : Nat := 0
  sdist : Nat := 0
  deriving DecidableEq, Repr

/-- A request of this end (R357, R360): a retrain with its cause code, or a resize to a width. -/
inductive LeyWant where
  | retrain (cause : Nat)
  | resize (width : Nat)
  deriving DecidableEq, Repr

/-- What a port does with its link beside STATE: nothing; its request waits for an answer; lanes are being changed or
re-equalized; IDENT is awaited; RESYNC is awaited. -/
inductive LeyPhase where
  | none | asked | lanes | ident | resync
  deriving DecidableEq, Repr

/-- What a Ley port holds besides its registers. The windows are in LEY_CRED. -/
structure LeyPort where
  /-- transmit queue; slots of an entry that the last flit could not hold -/
  txq : List LeyEnt := []
  part : List Nat := []
  /-- replay buffer, oldest first; the SEQ from which a replay runs; times that the oldest flit has been resent -/
  replay : List LeyBuf := []
  cursor : Option Nat := none
  resent : Nat := 0
  /-- next SEQ, expected SEQ, whether a payload flit has been accepted since CONFIG -/
  seq : Nat := 0
  expect : Nat := 0
  gotAny : Bool := false
  /-- a NAK is to go out with the next flit; one has gone out and is not settled (R347) -/
  nakDue : Bool := false
  nakSent : Bool := false
  /-- pending returns by VC: header and data credits (R352) -/
  pend : List (Nat × Nat) := [(0, 0), (0, 0), (0, 0), (0, 0)]
  /-- receive queues in the order of arrival, each entry with the session (`era`) of the link that brought it -/
  rxq : List (Nat × LeyEnt) := []
  /-- slots so far of an entry that the last accepted flit left unfinished -/
  rxPart : List Nat := []
  era : Nat := 0
  /-- control messages received and not yet acted on; CTLID of the last -/
  ctlIn : List LeyCtl := []
  ctlId : Option Nat := none
  /-- control messages to be sent, each with its CTLID and the copies still to go; the next CTLID -/
  ctlOut : List (LeyCtl × Nat × Nat) := []
  nextCtl : Nat := 0
  /-- the request under way, whether this end made it, its phase; a request to be issued when the port is next ACTIVE -/
  want : Option LeyWant := none
  mine : Bool := false
  phase : LeyPhase := .none
  again : Option LeyWant := none
  /-- attempts so far and the start of the first, in ns -/
  tries : Nat := 0
  t0 : Nat := 0
  /-- serial number and DEV seen at CONFIG (Table 13.9 step 4) -/
  ident : Option (Nat × Nat) := none
  /-- lanes left by the last training -/
  trained : Nat := 0
  /-- the link-down event on its way to the core: the cause of Table 13.19 (R362) -/
  down : Option Nat := none
  deriving DecidableEq, Repr

/-! ### DRAM channels (chapters 9 to 11) -/

/-- What a channel entry serves. -/
inductive ChUse where
  /-- an access of a cipher unit -/
  | acc (id : Nat)
  /-- a write that nobody waits for -/
  | fire
  | scrub
  | copyRead (i : Nat)
  | copyWrite (i : Nat)
  /-- a corrective write or poison codeword (R283) -/
  | restore
  /-- an entry of a dealer, on a member: Ley port it came from, the link's session, transaction tag, LA (R351) -/
  | ley (port era tag la : Nat)
  deriving DecidableEq, Repr

/-- A read or write of a line on its way through a channel: channel address; where it was steered (subchannel, physical rank,
line index within the rank (R294), bank key and row as sent); what it carries. -/
structure ChEnt where
  id : Nat := 0
  write : Bool
  ca : Nat
  sub : Nat := 0
  rank : Nat := 0
  line : Nat := 0
  bank : Nat := 0
  row : Nat := 0
  data : Payload := { data := 0, md := 0 }
  use : ChUse
  src : RdSource := .internal
  dpa : Nat := 0
  sa : Nat := 0
  ld : Nat := 0xFF
  /-- younger column commands that have passed it (R261) -/
  age : Nat := 0
  /-- a write to the line has been accepted since this read was issued (R284, R295) -/
  stale : Bool := false
  /-- an activate has issued for it -/
  acted : Bool := false
  /-- the burst that an issued read captures, before the bus's errors -/
  cap : Codeword := 0
  deriving DecidableEq, Repr

/-- An entry of the channel return crossing (R257, R282). -/
inductive ChRet where
  | read (use : ChUse) (out : CwOut)
  | accepted (use : ChUse)
  /-- a read for the dealer that this member's channel does not serve (OUT 3 of Table 13.6) -/
  | notServed (use : ChUse)
  deriving DecidableEq, Repr

/-- A neighbour-refresh entry (R269, R270): bank key, row, the neighbours still to serve, activates to its bank since, when it was queued. -/
structure NrEnt where
  rank : Nat
  bank : Nat
  row : Nat
  left : List Nat
  acts : Nat := 0
  since : Nat := 0
  deriving DecidableEq, Repr

/-- One subchannel: queues, reads in flight, restoring writes that wait for room, drain mode, open rows, in-order banks,
neighbour queue. -/
structure SubCh where
  rdq : List ChEnt := []
  wrq : List ChEnt := []
  flight : List ChEnt := []
  restore : List ChEnt := []
  drain : Bool := false
  /-- open row by bank key -/
  rows : List (Nat × Nat) := []
  /-- banks in in-order mode, and the entries that must issue before the mode ends (R262, R263) -/
  inOrder : List (Nat × List Nat) := []
  nrq : List NrEnt := []
  /-- the neighbour row that an activate of R270 holds open: bank key -/
  nrOpen : Option Nat := none
  /-- rolling activate counts by bank key (R273) -/
  raa : List (Nat × Nat) := []
  /-- banks whose count has reached the initiation threshold, with when, and the maximum, in the order in which they did -/
  rfmDue : List (Nat × Nat) := []
  rfmFull : List Nat := []
  deriving DecidableEq, Repr

/-- A maintenance operation of R252: ZQ calibration of a rank, or a read of its interval oscillator; the subchannels that have still to
issue its command. It holds the rank's command slots until it has gone. -/
structure Maint where
  zq : Bool
  rank : Nat
  left : List Nat := [0, 1]
  deriving DecidableEq, Repr

/-- Steps of a frequency change (Table 11.1). -/
inductive FchgPhase where
  | idle | changing | returning
  deriving DecidableEq, Repr

structure Chan where
  /-- channel command crossing and return crossing, oldest first -/
  cmds : List ChEnt := []
  rets : List ChRet := []
  subs : List SubCh := [{}, {}]
  nextId : Nat := 1
  /-- refresh: the grid; subchannel × 8 + rank of those whose work of the period is done, and of those that are forced, with the first
  entry number that came after (R267); banks that REFsb has covered, by subchannel × 8 + rank -/
  ref : Periodic := {}
  refDone : List Nat := []
  refForced : List (Nat × Nat) := []
  refBanks : List (Nat × List Nat) := []
  /-- the largest lag of a rank in the period (R266) -/
  refLag : Nat := 0
  /-- neighbour-refresh generator (R272): index of its TRNG word, and draws made since -/
  genWord : Nat := 0
  genDraws : Nat := 0
  /-- scrub: the grid, reads outstanding, last read of the period issued -/
  scrub : Periodic := {}
  scrubOut : Nat := 0
  scrubEnd : Bool := false
  /-- corrected reads of the window by rank × 16 + device (R285) -/
  devCe : List (Nat × Nat) := []
  /-- spare copy (R294): lines of the copy window in flight with whether each is done, next line to read, poison codewords
  written, ranks that are failed once their last entry has issued -/
  copyWin : List (Nat × Bool) := []
  copyNext : Nat := 0
  copyPoison : Nat := 0
  /-- the copy has ended without completing (R296) -/
  copyEnded : Bool := false
  failing : List Nat := []
  /-- frequency change: where it stands and when it was accepted, in ns -/
  fchg : FchgPhase := .idle
  fchgStart : Nat := 0
  /-- an over-temperature excursion has been reported (R244) -/
  hot : Bool := false
  /-- maintenance operations that wait for command slots, oldest first (R252) -/
  maint : List Maint := []
  /-- when each rank that is in power-down entered it, in steps of 1.25 ns -/
  pdSince : List (Nat × Nat) := []
  /-- training: target rate code, whether the stored path runs, the alternate rate that the channel is trained for (R248), the modules'
  identities as discovery read them, and their geometry as a CHN_AMAP value (R77) -/
  target : Nat := 0
  storedPath : Bool := false
  alt : Nat := 0
  ident : List Nat := []
  geo : Nat := 0x11E0
  /-- SPD timing minimums of the channel in ps, in the order of `timNames`, and the rates its modules list at its DPC -/
  spd : List Nat := []
  spdRates : List Nat := []
  /-- a training record waits to be written (R251) -/
  recordDue : Bool := false
  deriving DecidableEq, Repr

/-- Counter lines written by the initialisation of a set's counter region (R212), as one operation: the set's geometry, the
MAJOR they got, the device key, and per target that lies on this device its channel, its number from TBASE, and the channel's
map, rank map and the geometry of its modules. The legs on members have the device number. -/
structure FillLeg where
  k : Nat
  dev : Nat
  chan : Nat
  amap : Nat
  rankmap : Nat
  geo : Nat
  deriving DecidableEq, Repr

/-- Geometry of a storage set, as its registers give it (Table 3.8). -/
structure SetGeo where
  base : Nat
  size : Nat
  cbase : Nat
  tbase : Nat
  m : Nat
  w : Nat
  g1 : Nat
  g2 : Nat
  deriving DecidableEq, Repr

structure Fill where
  geo : SetGeo
  major : Nat
  devKey : Nat
  legs : List FillLeg
  deriving DecidableEq, Repr

/-- What DRAM devices hold: the bytes that differ from what an unlisted address reads as, and the fills, newest first. -/
structure Dram where
  cells : List Host.Cell := []
  fills : List Fill := []
  deriving DecidableEq, Repr

/-- A change of DRAM contents. -/
inductive DramOp where
  | put (key : Nat) (c : Codeword)
  | fill (f : Fill)
  deriving DecidableEq, Repr

/-! ### Address sampling (R447 to R453) -/

/-- Sampling of one LD: whether it runs, N, requests counted, samples taken; the buffer (host address, slots), the next slot and
PHASE; THRESH and the records written since its last message; LOSS; records staged. -/
structure Sampler where
  en : Bool := false
  n : Nat := 0
  count : Nat := 0
  seq : Nat := 0
  base : Nat := 0
  slots : Nat := 0
  slot : Nat := 0
  phase : Bool := true
  thresh : Nat := 0
  vector : Nat := 0
  since : Nat := 0
  loss : Bool := false
  staged : List SampleRec := []
  deriving DecidableEq, Repr


/-! ### The management controller, power and configuration (chapters 2, 16 and 19) -/

/-- Where the main die stands: held in power-on reset with PWR_OK low; PWR_OK high, before the release 10 ms later; running; in
recovery, with no valid firmware (R415, R418). -/
inductive Power where
  | held | rising | on | recovery
  deriving DecidableEq, Repr

/-- A commit whose burn is under way (Table 16.6 steps 9 to 12): its slot and its bytes 0x004–0x7F7. -/
structure Burn where
  slot : Nat
  body : List Nat
  deriving DecidableEq, Repr

structure Mgt where
  power : Power := .held
  /-- THERMTRIP_N is asserted (R491) -/
  tripped : Bool := false
  /-- step 4 of Table 16.1 has enabled the head links -/
  linksOn : Bool := false
  /-- the SPD contents of the 48 slots (2 × channel + slot) as the board holds them -/
  spd : List (Option Spd) := []
  /-- the controller restarts (R420); management time of the last watchdog expiry, in steps of 1.25 ns -/
  restarting : Bool := false
  expiry : Option Nat := none
  /-- quarter set points sent and not yet confirmed (R37); the set points before them (R39) -/
  settling : Bool := false
  avsOld : List (Option Nat) := [none, none, none, none]
  /-- the staging buffer: the bytes staged, by offset (R427) -/
  stage : List (Nat × Nat) := []
  burn : Option Burn := none
  /-- a commit in Hold has succeeded, and its reset is to follow (R428) -/
  holdReset : Bool := false
  /-- a device-wide reset that waits for the end of a burn: its cause (R429) -/
  resetDue : Option Nat := none
  /-- time of the release or of the device-wide reset, in steps of 1.25 ns (BOOT_MS) -/
  bootClk : Nat := 0
  /-- the Stile link has failed (R410) -/
  stlLost : Bool := false
  /-- a firmware image being received: its slot and the bytes so far (R419) -/
  fw : Option (Nat × Nat) := none
  /-- the instruction that the TAP's register has captured, and the one that the TAP acts on (R490) -/
  ir : TapInstr := .bypass
  tap : TapInstr := .bypass
  deriving DecidableEq, Repr

/-! ### The cascade (chapter 14) -/

/-- An entry for a member that has not completed (R351): where it goes, what it carries, and its transaction tag once it has
been routed to a port. -/
structure MemReq where
  id : Nat
  dev : Nat
  chan : Nat
  ca : Nat
  write : Bool
  data : Payload
  use : ChUse
  src : RdSource
  dpa : Nat
  sa : Nat
  ld : Nat
  tag : Option Nat := Option.none
  deriving DecidableEq, Repr

/-- How far the dealer is with a member beyond CAS_MEMBER (R373, R384): no exchange under way; a JOIN sent, with its session
number; recovering, with REOPEN not sent, sent, or answered. -/
inductive MemStep where
  | none
  | joining (session : Nat)
  | waiting
  | reopening
  | poisoning
  deriving DecidableEq, Repr

/-- What the dealer knows of a member: the dealer port and distance at which it is reached, whether its link is up, the member
that it hangs from, and how far an exchange is. -/
structure MemView where
  port : Nat := 0
  dist : Nat := 1
  up : Bool := false
  via : Nat := 0
  step : MemStep := .none
  /-- software has asked for the reopening (Table 14.5 step 2) -/
  asked : Bool := false
  deriving DecidableEq, Repr

/-- The counter lines of a committed set that lie on members, being written over the Ley ports (R212): the set, its MAJOR, and the frame
whose counter line is next. -/
structure SetInit where
  set : Nat
  major : Nat
  next : Nat
  deriving DecidableEq, Repr

/-- The dealer's books on its members: entries not yet complete; the fold list (SA[47:6], member, and whether it sits in one
of the 512 entries kept for counter lines and map lines) and the fold bitmaps (member × 2^27 + SA[47:21]) (R379). On a member:
its session number, whether it takes entries of the dealer (R383), a JOIN to be answered (R373), and its queued event records
(R376). -/
structure Casc where
  reqs : List MemReq := []
  nextReq : Nat := 1
  foldList : List (Nat × Nat × Bool) := []
  foldMap : List Nat := []
  /-- channels of the joined members, by member × 24 + channel: STATE and usable capacity in GiB (JOINRSP, Table 14.2) -/
  chans : List (Nat × (Nat × Nat)) := []
  /-- by device number -/
  mem : List MemView := List.replicate 8 {}
  /-- session numbers drawn -/
  sessions : Nat := 0
  session : Nat := 0
  takes : Bool := false
  joinDue : Option Nat := Option.none
  /-- reads and writes forwarded away from the dealer and not answered: member, tag, session of the upstream link (R383) -/
  fwd : List (Nat × Nat × Nat) := []
  recs : List Rec := []
  /-- on a member: channels for which the dealer has sent entries since the JOIN -/
  served : List Nat := []
  /-- storage sets whose commit has been accepted and is not yet in force (R70, R71) -/
  setPend : List Nat := []
  inits : List SetInit := []
  /-- records not queued since the queue filled -/
  recsLost : Nat := 0
  deriving DecidableEq, Repr

/-! ### Stile (chapter 15) -/

/-- Feed states, in the code order of Table 15.4 (R393). -/
inductive FeedState where
  | off | qual | wait | ramp | on | cool | latched | fetBad
  deriving DecidableEq, Repr

/-- One 54 V feed (R393 to R403). Times are in evaluation steps of 1 µs. -/
structure Feed where
  state : FeedState := .off
  /-- last turn-off, codes of Table 15.7 -/
  cause : Nat := 0
  /-- retry count (R398) -/
  retries : Nat := 0
  /-- fault timer running, its value and the FT it started with (R396, R411) -/
  ftRun : Bool := false
  ftTime : Nat := 0
  ftBound : Nat := 0
  /-- steps that the current has stayed below the limit (R396) -/
  belowTime : Nat := 0
  /-- current limit active (R396) -/
  ilim : Bool := false
  /-- gate commands (Table 15.1) -/
  gps : Bool := false
  gor : Bool := false
  /-- steps in the start window, and the DLY of this qualification (R393, R411) -/
  qualTime : Nat := 0
  qualBound : Nat := 0
  /-- steps with the midpoint at 10 V or more and both gates off (R400) -/
  midTime : Nat := 0
  /-- steps with reverse current and the ORing gate off (R401) -/
  revTime : Nat := 0
  /-- steps since the ramp began (R395) -/
  rampTime : Nat := 0
  /-- steps spent in COOL (R398) -/
  coolTime : Nat := 0
  /-- steps ON without interruption (R398) -/
  onTime : Nat := 0
  /-- steps below UV_OFF while LATCHED (Table 15.4) -/
  lowTime : Nat := 0
  /-- an orderly turn-off that waits for PG to be withdrawn: its cause (R406) -/
  orderly : Option Nat := none
  deriving DecidableEq, Repr

/-- One entry of Stile's fault log (R412, Table 15.15). -/
structure StlEntry where
  time : Nat
  feed : Nat
  cause : Nat
  retries : Nat
  latched : Bool
  vin : Nat
  deriving DecidableEq, Repr

/-- The Stile die (R388 to R414). Nothing but Stile's own commands and the proxy's register writes changes it (R389). -/
structure Stile where
  /-- Stile runs on its standby supply, and the next rise through 18 V is a Stile POR (R389) -/
  running : Bool := false
  armed : Bool := true
  /-- its writable registers -/
  regs : RegFile := []
  /-- straps as sampled at Stile POR (R390) -/
  dlyStrap : Nat := 0
  rtyStrap : Nat := 0
  rmpStrap : Nat := 0
  ftStrap : Nat := 0
  feedA : Feed := {}
  feedB : Feed := {}
  /-- PG asserted; PFW_N asserted; STL_OFF_N asserted (R404 to R408) -/
  pg : Bool := false
  pfw : Bool := true
  eject : Bool := false
  /-- steps since PFW_N asserted; a withdrawal of PG decided; steps since PG was withdrawn (R406) -/
  pfwTime : Nat := 0
  withdraw : Bool := false
  pgOffTime : Nat := 0
  /-- steps that STL_OFF_N has been at the level opposite to `eject` (R408) -/
  offTime : Nat := 0
  /-- µs since Stile POR -/
  time : Nat := 0
  /-- fault log: the 16 entry slots in use, the index of the oldest, the count and OVF (R412) -/
  log : List (Nat × StlEntry) := []
  oldest : Nat := 0
  count : Nat := 0
  ovf : Bool := false
  /-- measurement set (Table 15.14) -/
  seq : Nat := 0
  meas : StlSample := ⟨0, 0, 0, 0, 0, 0, 0, false, false, false⟩
  deriving DecidableEq, Repr

/-! ### Non-volatile stores (chapters 9 and 16) -/

/-- A stored training record (Table 9.4): rate code, PHY mode (1 RDIMM, 2 MRDIMM), alternate rate code, SPD identities of the
slots. The delays that it holds act only through the margin check. -/
structure TrainRec where
  serial : Nat
  rate : Nat
  mode : Nat
  alt : Nat
  ident0 : Nat
  ident1 : Nat
  deriving DecidableEq, Repr

/-- A firmware slot of the SPI flash (R418): whether an image is there and verifies, and its bytes received so far. -/
structure FwSlot where
  valid : Bool := false
  size : Nat := 0
  deriving DecidableEq, Repr

/-- What outlasts every reset and the loss of power. -/
structure Nv where
  /-- the configuration OTP: the bytes burned to another value than 0, by slot × 2048 + byte (R422) -/
  otp : List (Nat × Nat) := []
  /-- firmware slots A and B, and the active one (0 A, 1 B) (R418) -/
  fwA : FwSlot := { valid := true }
  fwB : FwSlot := {}
  active : Nat := 0
  /-- training records by channel (R249, R251) -/
  train : List (Nat × TrainRec) := []
  /-- FAILED of each channel (R297) -/
  failed : List (Nat × Nat) := []
  deriving DecidableEq, Repr

/-! ### The whole device -/

/-- The main die. -/
structure Dev where
  /-- registers by management-view offset, except Stile's -/
  regs : RegFile := []
  /-- steps of 1.25 ns of the management clock since reset (R440) -/
  clk : Nat := 0
  logs : Logs := {}
  out : List Out := []
  xs : Crossings := {}
  hp : HostPorts := {}
  home : Home := {}
  ted : Tiers := {}
  bal : Balers := {}
  cip : Cipher := {}
  chan : List Chan := List.replicate 24 {}
  ley : List LeyPort := List.replicate 4 {}
  cas : Casc := {}
  /-- sampling, by LD -/
  samp : List Sampler := List.replicate 16 {}
  rng : Rings := {}
  tal : Tally := {}
  mgt : Mgt := {}
  /-- DRAM changes of the running command, oldest first -/
  bulk : List DramOp := []
  /-- event counters by ID (Table 17.2) -/
  tally : List (Nat × Nat) := []
  /-- events counted since cold power-on or a device-wide reset, modulo 2^48 (R434, R435); an unlisted one is 0 -/
  events : List (EvKey × Nat) := []
  /-- free values drawn so far (the model's own counter) -/
  fresh : Nat := 0
  deriving DecidableEq, Repr

structure State where
  pending : List Instr
  dev : Dev
  dram : Dram
  stile : Stile
  nv : Nv
  deriving DecidableEq, Repr

/-! ### How a command can end without a next state -/

/-- Faults. None: no command of the device stops it. What the manual calls unpredictable stays inside one LD (R7) and goes on. -/
inductive Fault where
  deriving DecidableEq, Repr

/-- Refusals. `notModelled`: raised by an arm of `exec` for a command that has no meaning yet; safe. -/
inductive Refusal where
  | notModelled (mnemonic : String)
  deriving DecidableEq, Repr

/-- The machine right after reset: no power on either die, OTP unburned, firmware in slot A, every register at the value of its
table (R470), nothing queued. -/
def State.reset : State := { pending := [], dev := {}, dram := {}, stile := {}, nv := {} }

end Sys2Proof.Machine
end

