-- ==== Sys2Proof/Machine/Ops.lean ====
section
/-! DEFINITION. Named operations on the main die that every unit uses: registers and fields, output, event records with
their suppression, event counters, crossing flags. -/

namespace Sys2Proof.Machine

/-! ### Registers -/

def Dev.rd (d : Dev) (r : Reg) : Nat := d.regs.get r
def Dev.wr (d : Dev) (r : Reg) (v : Nat) : Dev := { d with regs := d.regs.set r v }
def Dev.fld (d : Dev) (r : Reg) (f : Fld) : Nat := d.regs.fld r f
def Dev.flag (d : Dev) (r : Reg) (f : Fld) : Bool := d.regs.flag r f
def Dev.setFld (d : Dev) (r : Reg) (f : Fld) (x : Nat) : Dev := { d with regs := d.regs.setFld r f x }
def Dev.setFlag (d : Dev) (r : Reg) (f : Fld) (b : Bool) : Dev := d.setFld r f (b2n b)

/-- Adds to a field, saturating at its largest value. -/
def Dev.bumpFld (d : Dev) (r : Reg) (f : Fld) : Dev :=
  d.setFld r f (satTo (f.hi + 1 - f.lo) (d.fld r f + 1))

/-- Writes 1 to the bits in `mask` of a register, leaving the others. -/
def Dev.setBit (d : Dev) (r : Reg) (i : Nat) (b : Bool) : Dev := d.wr r (putBit (d.rd r) i b)

/-- Field values and RW1C clears of a register write (R467 steps 1 and 2), under the lock of GBL_LOCK. -/
def Dev.writeFields (d : Dev) (r : Reg) (w : Nat) : Dev :=
  d.wr r (r.applyWrite (d.flag .gblLock F.gblLock_LOCK) (d.rd r) w)

/-! ### Time and output -/

/-- Time in ns since reset (R440). -/
def Dev.nowNs (d : Dev) : Nat := d.clk * 5 / 4

def Dev.emit (d : Dev) (o : Out) : Dev := { d with out := d.out ++ [o] }

/-- A fresh free-value index. -/
def Dev.draw (d : Dev) : Dev × Nat := ({ d with fresh := d.fresh + 1 }, d.fresh)

/-! ### Records (R106, R107, R495) -/

def Sev.code : Sev → Nat
  | .info => 0 | .warning => 1 | .failure => 2 | .fatal => 3 | .dcd => 4

/-- Appends a record to one log: 256 records, the oldest kept; the overflow count and times otherwise (R106). Handles count from 1 and are
never 0 (log entry 13). -/
def Logs.put (l : Logs) (now owner : Nat) (r : Rec) : Logs :=
  let k := owner * 5 + r.sev.code
  let old := kvGet (fun _ => []) l.recs k
  let n := kvGet (fun _ => 0) l.made k
  let l := { l with made := kvSet (fun _ => 0) l.made k (n + 1) }
  if old.length < 256 then { l with recs := kvSet (fun _ => []) l.recs k (old ++ [{ r with handle := n % 65535 + 1 }]) }
  else
    let (n, first, _) := kvGet (fun _ => (0, 0, 0)) l.ovf k
    { l with ovf := kvSet (fun _ => (0, 0, 0)) l.ovf k (n + 1, if n = 0 then now else first, now) }

/-- Device number of a member; 0 for a dealer or a single device (R368). -/
def Dev.role (d : Dev) : Nat := d.fld .casId F.casId_ROLE

/-- A member queues a record for its dealer: up to 64, those beyond are counted in the next one queued (R376). -/
def Casc.queueRec (c : Casc) (r : Rec) : Casc :=
  if c.recs.length < 64 then
    { c with recs := c.recs ++ [{ r with suppressed := satTo 16 (r.suppressed + c.recsLost) }], recsLost := 0 }
  else { c with recsLost := c.recsLost + 1 }

/-- A record has gone into an owner's log that held `was` records: its event interrupt, where the policy has one, at the first record of a
standard log and at every one of the Dynamic Capacity log (R106, log entry 78). -/
def Dev.logIrq (d : Dev) (owner was : Nat) (sev : Sev) : Dev :=
  match kvFind? d.logs.policy (owner * 5 + sev.code) with
  | some v => if was = 0 ∨ sev = .dcd then d.emit (.msix owner v) else d
  | none => d

/-- Records in an owner's log of a severity. -/
def Dev.logged (d : Dev) (owner : Nat) (sev : Sev) : Nat := (kvGet (fun _ => []) d.logs.recs (owner * 5 + sev.code)).length

/-- Raises a record: into the log of the LD it names and into the management view's (R106). -/
def Dev.raise (d : Dev) (r : Rec) : Dev :=
  let r := { r with time := d.nowNs }
  let own := decide (r.ld < 16)
  let l := if own then d.logs.put d.nowNs r.ld r else d.logs
  let e : Dev := { d with logs := l.put d.nowNs 16 r, cas := if d.role = 0 then d.cas else d.cas.queueRec r }
  let e := if own then e.logIrq r.ld (d.logged r.ld r.sev) r.sev else e
  e.logIrq 16 (d.logged 16 r.sev) r.sev

/-- A vendor record (Table 4.16). -/
def vendorRec (ty : Nat) (sev : Sev) (unit detail : Nat) : Rec :=
  { ty := ty, sev := sev, unit := unit, detail := detail }

/-- Raises a record unless one of its type and scope was raised within the last 1 ms; those are counted, and the next
raised carries the count (R495). -/
def Dev.raiseLimited (d : Dev) (scope : Nat) (r : Rec) : Dev :=
  let k := r.ty * 2 ^ 64 + scope
  match kvFind? d.logs.last k with
  | some (t, n) =>
    if d.clk < t + 800000 then { d with logs := { d.logs with last := kvIns d.logs.last k (t, n + 1) } }
    else ({ d with logs := { d.logs with last := kvIns d.logs.last k (d.clk, 0) } }).raise
      { r with suppressed := satTo 16 n }
  | none => ({ d with logs := { d.logs with last := kvIns d.logs.last k (d.clk, 0) } }).raise r

/-! ### Event counters (Table 17.2) -/

def counterIns (d : Dev) (id by_ : Nat) : Dev :=
  { d with tally := kvMod (fun _ => 0) d.tally id fun v => (v + by_) % 2 ^ 48 }

/-- The LD's HP counters: 0 requests accepted, 1 read and write responses, 2 poisoned responses, 3 decode misses, 4 back-
invalidates sent, 5 response-timer expiries, 6 sample records written, 7 dropped (Table 17.2). -/
def Dev.countLd (d : Dev) (n c : Nat) : Dev := if n < 16 then counterIns d (256 + n * 8 + c) 1 else d

/-- What has been counted under a key. -/
def Dev.countOf (d : Dev) (k : EvKind) (unit : Nat) (part : Nat := 0) : Nat := asGet 0 d.events ⟨k, unit, part⟩

/-- What a counter counts. Counter 0 of a home slice counts requests admitted (chapter 17's example); beside it and the per-LD HP
group the manual leaves the IDs to the Deck catalogue (R436). -/
def counterEvent (id : Nat) : Option EvKey :=
  if 384 ≤ id ∧ id < 1024 ∧ (id - 384) % 40 = 0 then some ⟨.admitted, (id - 384) / 40, 0⟩ else Config.counterEvent id

/-- The counter shows a level (R434). -/
def counterIsLevel (id : Nat) : Bool :=
  !(decide (256 ≤ id) && decide (id < 384)) && (counterEvent id).isNone && Config.counterLevel id

/-- Counts events of a unit (R434). -/
def Dev.count (d : Dev) (k : EvKind) (unit : Nat) (part : Nat := 0) (by_ : Nat := 1) : Dev :=
  { d with events := asSet d.events ⟨k, unit, part⟩ ((d.countOf k unit part + by_) % 2 ^ 48) }

/-! ### Crossing overrun flags (R51, R52) -/

/-- CROSS_SUM0 and CROSS_SUM1 as R52 forms them. -/
def Dev.crossSum (d : Dev) : Nat × Nat :=
  let orBit (r : Reg) : Nat := b2n (d.rd r != 0)
  let heads := (List.range 8).map fun n => orBit (.crossHead n) * 2 ^ n
  let chans := (List.range 24).map fun n => orBit (.crossChn n) * 2 ^ (8 + n)
  let leys := (List.range 4).map fun n => orBit (.crossLey n) * 2 ^ n
  (heads.sum + chans.sum, leys.sum + orBit .crossMgt * 16)

/-- Sets an overrun flag; a summary bit that rises with its enable set raises a record (R52). -/
def Dev.setCross (d : Dev) (r : Reg) (bit : Nat) : Dev :=
  let (a0, a1) := d.crossSum
  let d' := d.setBit r bit true
  let (b0, b1) := d'.crossSum
  let e0 := d.rd .crossIntEn0
  let e1 := d.rd .crossIntEn1
  let rose0 := (b0 - (b0 &&& a0)) &&& e0
  let rose1 := (b1 - (b1 &&& a1)) &&& e1
  if rose0 != 0 || rose1 != 0 then
    d'.raise (vendorRec 0x0011 .info 0x0F00 (b0 + b1 * 2 ^ 32))
  else d'

/-! ### Heads and logical devices -/

def Dev.head (d : Dev) (h : Nat) : Head := d.hp.heads.getD h {}
def Dev.modHead (d : Dev) (h : Nat) (f : Head → Head) : Dev :=
  { d with hp := { d.hp with heads := d.hp.heads.modify h f } }

def headReg (h : Nat) : Reg := .hpStat (h / 2) (h % 2)
def Dev.headUp (d : Dev) (h : Nat) : Bool := d.flag (headReg h) F.hpStat_UP
def Dev.proto (d : Dev) (h : Nat) : Nat := d.fld (headReg h) F.hpStat_PROTO
def Dev.memOpen (d : Dev) (h : Nat) : Bool := d.flag (headReg h) F.hpStat_MEMOPEN

/-- The binding of an LD is in force (Table 4.3). -/
def Dev.bound (d : Dev) (n : Nat) : Bool := d.flag (.gblLdbind n) F.gblLdbind_EN

/-- The device is in Hold (R424). -/
def Dev.inHold (d : Dev) : Bool := d.flag .gblBoot F.gblBoot_HOLD

def Dev.ldHead (d : Dev) (n : Nat) : Nat := d.fld (.gblLdbind n) F.gblLdbind_HEAD
def Dev.ldId (d : Dev) (n : Nat) : Nat := d.fld (.gblLdbind n) F.gblLdbind_LDID

/-- The LD that an LD-ID names on a head (R84, R85): on a CXL 1.1 head only LDID 0 is served. -/
def Dev.ldOf (d : Dev) (h ldid : Nat) : Option Nat :=
  if d.proto h = 1 ∧ ldid ≠ 0 then none
  else (List.range 16).find? fun n => d.bound n && d.ldHead n == h && d.ldId n == ldid

/-- LDs bound to a head. -/
def Dev.ldsOf (d : Dev) (h : Nat) : List Nat := (List.range 16).filter fun n => d.bound n && d.ldHead n == h

/-- The LD is bound to a CXL 3.1 head that is up (R86, R111). -/
def Dev.on31 (d : Dev) (n : Nat) : Bool := d.bound n && d.headUp (d.ldHead n) && d.proto (d.ldHead n) == 3

def Dev.hdm (d : Dev) (n i : Nat) : HdmDec := kvGet (fun _ => {}) d.hp.hdm (n * 8 + i)
def Dev.setHdm (d : Dev) (n i : Nat) (x : HdmDec) : Dev :=
  { d with hp := { d.hp with hdm := kvSet (fun _ => {}) d.hp.hdm (n * 8 + i) x } }

def Dev.extents (d : Dev) (n : Nat) : List Extent := kvGet (fun _ => []) d.hp.extents n
def Dev.regions (d : Dev) (n : Nat) : List DcRegion := kvGet (fun _ => []) d.hp.regions n

/-- An LD has committed a host error (R7): its mappings, ring state, results and data are unpredictable from now on. -/
def Dev.goWild (d : Dev) (n : Nat) : Dev :=
  if 16 ≤ n then d
  else { d with hp := { d.hp with wild := n :: d.hp.wild.filter (· != n), spoilt := n :: d.hp.spoilt.filter (· != n) } }

def Dev.isWild (d : Dev) (n : Nat) : Bool := d.hp.wild.contains n

/-- A reset of an LD ends what its host errors did to its mappings, rings and results (R8). -/
def Dev.tame (d : Dev) (n : Nat) : Dev := { d with hp := { d.hp with wild := d.hp.wild.filter (· != n) } }

/-- The LD's old data cannot be read any more: its key has changed, or its window is gone. -/
def Dev.unspoil (d : Dev) (n : Nat) : Dev := { d with hp := { d.hp with spoilt := d.hp.spoilt.filter (· != n) } }

/-! ### Windows (R59) -/

def Dev.winEn (d : Dev) (n : Nat) : Bool := d.flag (.gblLdwin n) F.gblLdwin_EN
def Dev.winBase (d : Dev) (n : Nat) : Nat := d.fld (.gblLdwin n) F.gblLdwin_BASE
def Dev.winFields (d : Dev) (n : Nat) : Nat := d.fld (.gblLdwin n) F.gblLdwin_FIELDS
def Dev.winBuilt (d : Dev) (n : Nat) : Bool := d.flag (.tedLdcap n) F.tedLdcap_BUILT

/-- The LD whose enabled window holds a field. -/
def Dev.ldOfField (d : Dev) (field : Nat) : Option Nat :=
  (List.range 16).find? fun n => d.winEn n && decide (d.winBase n ≤ field) && decide (field < d.winBase n + d.winFields n)

/-- Some LD window is enabled (or being torn down: EN reads 1 until then). -/
def Dev.anyWindow (d : Dev) : Bool := (List.range 16).any d.winEn

/-! ### Keys (R205 to R208) -/

def Dev.kgen (d : Dev) (n : Nat) : Nat := d.fld (.cipLdkey n) F.cipLdkey_KGEN
def Dev.ldKeyId (d : Dev) (n : Nat) : Nat := d.cip.ldKey.getD n 0

/-! ### Channels -/

def Dev.chn (d : Dev) (c : Nat) : Chan := d.chan.getD c {}
def Dev.modChn (d : Dev) (c : Nat) (f : Chan → Chan) : Dev := { d with chan := d.chan.modify c f }
def Chan.sub (c : Chan) (i : Nat) : SubCh := c.subs.getD i {}
def Chan.modSub (c : Chan) (i : Nat) (f : SubCh → SubCh) : Chan := { c with subs := c.subs.modify i f }
def Dev.chState (d : Dev) (c : Nat) : Nat := d.fld (.chnStat c) F.chnStat_STATE
def Dev.inService (d : Dev) (c : Nat) : Bool := d.chState c == 3

end Sys2Proof.Machine
end

