-- ==== Sys2Proof/Machine/BalOps.lean ====
section
/-! DEFINITION. Baler jobs: dispatch, order, completion and faults (R26, R192 to R202). -/

namespace Sys2Proof.Machine

def Dev.modBal (d : Dev) (f : Balers → Balers) : Dev := { d with bal := f d.bal }

/-- Bytes that a class counts toward R26. -/
def JobClass.bytes : JobClass → Nat
  | .readDecode => 1024 | .promoDecode => 4096 | .compression => 4096
def JobClass.rank : JobClass → Nat
  | .readDecode => 0 | .promoDecode => 1 | .compression => 2

def Dev.balFaulted (d : Dev) (b : Nat) : Bool := bitOf (d.rd .balFault) b
/-- Enabled and free of fault. -/
def Dev.balAvail (d : Dev) (b : Nat) : Bool := bitOf (d.rd .balEn) b && !d.balFaulted b
def Dev.balCount (d : Dev) : Nat := ((List.range 32).filter d.balAvail).length
def Dev.balBytes (d : Dev) (b : Nat) : Nat :=
  ((d.bal.jobs.filter fun j => j.baler == some b).map fun j => j.cls.bytes).sum

/-- The baler with the fewest queued bytes of a list, the lowest-numbered of equals. -/
def Dev.leastBaler (d : Dev) (bs : List Nat) : Option Nat :=
  bs.foldl (fun best b => match best with
    | none => some b
    | some x => if d.balBytes b < d.balBytes x then some b else best) none

/-- Where a job is dispatched (R26, R198); none when no baler can accept it. -/
def Dev.balPick (d : Dev) (q : Nat) (cls : JobClass) : Option Nat :=
  let quarter := (List.range' (8 * q) 8).filter d.balAvail
  let pool := if quarter.all fun b => decide (16384 < d.balBytes b) then (List.range 32).filter d.balAvail else quarter
  let fits (b : Nat) : Bool := decide (d.balBytes b + cls.bytes ≤ 49152)
  match d.leastBaler (pool.filter fits) with
  | some b => some b
  | none => d.leastBaler (((List.range 32).filter d.balAvail).filter fits)

def Dev.endJob (d : Dev) (j : BalJob) (r : JobRes) : Dev :=
  d.modBal fun b => { b with jobs := b.jobs.filter (·.id != j.id), done := b.done ++ [(j.why, r)] }

/-- What a job that no baler can run comes to (R199): a read decode poison, a compression a failure; a promotion waits. -/
def Dev.unserved (d : Dev) (j : BalJob) : Dev :=
  match j.cls with
  | .readDecode => d.endJob j (.lines [(0, true)])
  | .compression => d.endJob j (.failed 1)
  | .promoDecode => d

/-- Raises a job (R26, R198): it waits behind the jobs that wait at its unit already. -/
def Dev.raiseJob (d : Dev) (j : BalJob) : Dev :=
  let waits := d.bal.jobs.any fun x => x.baler.isNone && x.unit == j.unit
  let j := { j with id := d.bal.nextJob, baler := if waits then none else d.balPick j.q j.cls }
  let d := d.modBal fun b => { b with jobs := b.jobs ++ [j], nextJob := b.nextJob + 1 }
  if d.balCount = 0 then d.unserved j else d

/-- The waiting job that goes next (R198): units keep the order of their jobs, and of the first jobs of the units the oldest that a baler can
accept. -/
def Dev.nextWaiting (d : Dev) : List Nat → List BalJob → Option (BalJob × Nat)
  | _, [] => none
  | seen, j :: rest =>
    if j.baler.isSome then d.nextWaiting seen rest
    else if seen.contains j.unit then d.nextWaiting seen rest
    else match d.balPick j.q j.cls with
      | some b => some (j, b)
      | none => d.nextWaiting (j.unit :: seen) rest

/-- BALER_JOB_WAIT_DISPATCH (R198): a waiting job is dispatched, and arrives at its baler behind the jobs there. -/
def Dev.jobDispatch (d : Dev) : Dev :=
  match d.nextWaiting [] d.bal.jobs with
  | none => d
  | some (j, b) => d.modBal fun x => { x with jobs := x.jobs.filter (·.id != j.id) ++ [{ j with baler := some b }] }

/-- BALER_JOB_START (R198): read decodes first, then promotion decodes, then compressions, in order of arrival. A job in progress is not
preempted, but a compression yields between swaths to a decode. A faulted baler starts nothing. -/
def Dev.jobStart (d : Dev) (b : Nat) : Dev :=
  let mine := d.bal.jobs.filter fun j => j.baler == some b
  let runs := mine.filter (·.started)
  if d.balFaulted b || runs.any fun j => j.cls != .compression then d
  else
    let ready := mine.filter fun j => !j.started && (runs.isEmpty || j.cls != .compression)
    let best := ready.foldl (fun (x : Option BalJob) j => match x with
      | none => some j
      | some y => if j.cls.rank < y.cls.rank then some j else x) none
    match best with
    | none => d
    | some j =>
      let d := d.modBal fun x => { x with jobs := x.jobs.map fun y => if y.id = j.id then { y with started := true } else y }
      (d.count .balJob b j.cls.rank).count .balIn b 0 (j.bytes.length / 64)

/-- The job that a baler works on: a decode that a compression has yielded to goes first. -/
def Dev.jobNow (d : Dev) (b : Nat) : Option BalJob :=
  (d.bal.jobs.filter fun j => j.baler == some b && j.started).foldl (fun (x : Option BalJob) j => match x with
    | none => some j
    | some y => if j.cls.rank < y.cls.rank then some j else x) none

/-- The swath decode failure record, limited per page (R193, R202). -/
def Dev.swathRecord (d : Dev) (j : BalJob) (b s cause : Nat) : Dev :=
  let k := 0x0301 * 2 ^ 64 + j.page
  let n := match kvFind? d.logs.last k with
    | some (t, n) => if d.clk < t + 800000 then 0 else n
    | none => 0
  let promo := match j.cls with | .promoDecode => true | _ => false
  d.raiseLimited j.page
    { vendorRec 0x0301 .failure (0x600 + b)
        (s + cause * 2 ^ 4 + b2n promo * 2 ^ 8 + j.scnt * 2 ^ 9 + satTo 16 n * 2 ^ 16) with
      addr0 := j.page * 4096, addr1 := j.sa }

/-- A decode of one swath: its 16 lines, poisoned where it fails (R193). -/
def Dev.decodeOne (d : Dev) (j : BalJob) (b s : Nat) : Dev × List (Line × Bool) :=
  match decodeSwath j.bytes j.poison j.scnt s with
  | .ok lines => (d, lines.map fun x => (BitVec.ofNat 512 x, false))
  | .error c => ((d.count .decodeFail b c).swathRecord j b s c, List.replicate 16 (0, true))

/-- The 64 lines of a promotion decode of which `n` swaths have been decoded; the others are poisoned. -/
def Dev.decodeSwaths (d : Dev) (j : BalJob) (b n : Nat) : Dev × List (Line × Bool) :=
  (List.range 4).foldl (fun (p : Dev × List (Line × Bool)) s =>
    if s < n then
      let (d, l) := p.1.decodeOne j b s
      (d, p.2 ++ l)
    else (p.1, p.2 ++ List.replicate 16 (0, true))) (d, [])

/-- What a compression job leaves in its baler's counters. -/
def Dev.countForms (d : Dev) (b : Nat) (recoded : Bool) (fs : List SwathForm) : Dev :=
  let d := if recoded then d.count .recode b else d
  fs.foldl (fun d x => if x.stab = 7 then d.count .storedSwath b else d.count .tableSwath b x.stab) d

/-- BALER_JOB_COMPLETE (R192 to R196): the job in progress on baler `b` returns its result. -/
def Dev.jobComplete (d : Dev) (b : Nat) : Dev :=
  match d.jobNow b with
  | none => d
  | some j =>
    match j.cls with
    | .readDecode =>
      let (d, ls) := d.decodeOne j b (j.line / 16)
      (d.count .balOut b 0 16).endJob j (.lines [ls.getD (j.line % 16) (0, true)])
    | .promoDecode =>
      let (d, ls) := d.decodeSwaths j b 4
      (d.count .balOut b 0 64).endJob j (.lines ls)
    | .compression =>
      let page := (List.range 64).map fun i => ofBytes ((j.bytes.drop (64 * i)).take 64)
      let (_, recoded, fs) := pageForms page j.cpol j.thresh j.budget j.pgc j.low
      match compressPage page j.cpol j.thresh j.budget j.pgc j.low with
      | some f => ((d.countForms b recoded fs).count .balOut b 0 (f.bytes.length / 64)).endJob j (.form f.bytes f.scnt f.tsel f.pgc)
      | none => ((if recoded then d.count .recode b else d).count .balFail b 0).endJob j (.failed 0)

/-- BALER_FAULT (R199): a baler with a job in progress completes no swath within 100 µs, after `n` swaths of it. -/
def Dev.balerFault (d : Dev) (b n : Nat) : Dev :=
  let now := (d.jobNow b).map (·.id)
  let mine := (d.bal.jobs.filter fun j => j.baler == some b).map fun j =>
    if now = some j.id then { j with swaths := max j.swaths n } else j
  if !mine.any (·.started) || d.balFaulted b then d
  else
    let d := d.setBit .balFault b true
    let again (j : BalJob) : Bool := !j.reissued && j.cls != .compression
    let d := mine.foldl (fun d j =>
      if again j then
        (d.modBal fun x => { x with jobs := x.jobs.filter (·.id != j.id) }).raiseJob { j with reissued := true, started := false }
      else match j.cls with
        | .readDecode => d.endJob j (.lines [(0, true)])
        | .promoDecode =>
          let (d, ls) := d.decodeSwaths j b j.swaths
          d.endJob j (.lines ls)
        | .compression => (d.count .balFail b 1).endJob j (.failed 1)) d
    let d := d.raise (vendorRec 0x0302 .failure (0x600 + b)
      (b + mine.length * 2 ^ 8 + (mine.filter again).length * 2 ^ 16))
    if d.balCount = 0 then (d.bal.jobs.filter fun j => j.baler.isNone).foldl Dev.unserved d else d

/-- BALER_RESET (R199): FAULT written with 1. -/
def Dev.balerReset (d : Dev) (b : Nat) : Dev := if b < 32 then d.setBit .balFault b false else d

/-- BAL_EN written (R201). -/
def Dev.balEnWrite (d : Dev) (v : Nat) : Dev :=
  if (List.range 32).any fun b => bitOf v b && !d.balFaulted b then d.wr .balEn (v % 2 ^ 32)
  else d.setFlag .balStat F.balStat_ERR true

end Sys2Proof.Machine
end

