-- ==== Sys2Proof/Machine/ConfigSpace.lean ====
section
/-! DEFINITION. How the functions of the device are reached (R85, R89), their configuration space (R2, R83, R90, R91), and AER (R109).
Function `n` below 16 is LD `n`'s, and 16 is the management view's. The manual names the structures and what they say; the offsets,
identifiers and bit places are those of PCI Express 6.x and CXL 3.1 (PRESUMED, log entry 53). -/

namespace Sys2Proof.Machine

/-! ### Reach (R85, R89) -/

def Dev.isMld (d : Dev) (h : Nat) : Bool := d.flag (headReg h) F.hpStat_MLD

/-- Function `fn` is reached through head `h`: an LD's through the head it is bound to, on CXL 1.1 only with LDID 0; the management view's
through every head that presents an MLD and as function 1 of the management head; through 8, the MCTP sideband, the management
view's alone. -/
def Dev.reaches (d : Dev) (h fn : Nat) : Bool :=
  if fn < 16 then decide (h < 8) && d.bound fn && d.ldHead fn == h && d.headUp h && (d.proto h != 1 || d.ldId fn == 0)
  else fn == 16 && (h == 8 || (decide (h < 8) && d.headUp h && (d.isMld h || h == d.hp.mgmtHead)))

/-- A function is reached through some head: its DOE mailbox answers (R92). -/
def Dev.fnUp (d : Dev) (fn : Nat) : Bool := (List.range 8).any fun h => d.reaches h fn

/-- Function 0 of a head: the LD with the lowest LD-ID bound to it; LDID 0 alone on CXL 1.1 (DESIGN CHOICE, log entry 53). -/
def Dev.fn0 (d : Dev) (h : Nat) : Option Nat :=
  (List.range (if d.proto h = 1 then 1 else 16)).findSome? fun i => (d.ldsOf h).find? fun n => d.ldId n == i

def Dev.isFn0 (d : Dev) (fn : Nat) : Bool := decide (fn < 16) && d.bound fn && d.fn0 (d.ldHead fn) == some fn

/-- The head whose link a function's registers describe. -/
def Dev.fnHead (d : Dev) (fn : Nat) : Nat := if fn < 16 then d.ldHead fn else d.hp.mgmtHead

/-! ### Structures (Tables 4.5, 4.6) -/

/-- Extended capabilities; a DVSEC by its ID, the Keaden one as 0x10. -/
inductive ExtCap where
  | aer | dsn | secondary | dlf | phy16 | phy32 | phy64 | flitLog | device3 | doe | ide
  | dvsec (id : Nat)
  deriving DecidableEq, Repr

/-- Identifier and version, and offset. -/
def ExtCap.id : ExtCap → Nat
  | .aer => 0x20001 | .dsn => 0x10003 | .secondary => 0x10019 | .dlf => 0x10025 | .phy16 => 0x10026 | .phy32 => 0x1002A
  | .phy64 => 0x10031 | .flitLog => 0x10032 | .device3 => 0x1002F | .doe => 0x2002E | .ide => 0x10030 | .dvsec _ => 0x10023
def ExtCap.off : ExtCap → Nat
  | .aer => 0x100 | .dsn => 0x150 | .secondary => 0x160 | .dlf => 0x190 | .phy16 => 0x1A0 | .phy32 => 0x1E0 | .phy64 => 0x220
  | .flitLog => 0x260 | .device3 => 0x2A0 | .doe => 0x2C0 | .ide => 0x300 | .dvsec id => 0x400 + 0x40 * id
/-- Length of a DVSEC in bytes. -/
def dvsecLen : Nat → Nat
  | 0 => 0x3C | 5 => 0x10 | 7 => 0x20 | 8 => 0x1C | 9 => 0x10 | _ => 0x18

/-- The extended capabilities of a function, in the order of their offsets: exactly those of Tables 4.5 and 4.6. -/
def Dev.extCaps (d : Dev) (fn : Nat) : List ExtCap :=
  let first := d.isFn0 fn
  [.aer, .dsn] ++ (if first then [.secondary, .dlf, .phy16, .phy32, .phy64, .flitLog, .device3] else []) ++ [.doe] ++
    (if first then [.ide] else []) ++ [.dvsec 0] ++ (if fn < 16 then [.dvsec 5] else []) ++ (if first then [.dvsec 7] else []) ++
    [.dvsec 8] ++ (if first && d.isMld (d.fnHead fn) then [.dvsec 9] else []) ++ [.dvsec 0x10]

/-! ### Writable bits -/

/-- Bits of a dword that hold what is written, and bits that a 1 clears. Control bits of what Table 4.2 does not support are in neither:
they read zero (R83). ASPM Control, Completion Timeout Disable and INTx Disable are such bits. -/
def cfgRw (fn off : Nat) : Nat :=
  match off with
  | 0x04 => 0x146 | 0x0C => 0xFF | 0x10 => if fn < 16 then 0xFFF00000 else 0xFE000000 | 0x14 => 0xFFFFFFFF | 0x3C => 0xFF
  | 0x44 => 0x3 | 0x58 => 0x71FF | 0x60 => 0xD8 | 0x78 => 0x100F | 0x90 => 0xC0000000
  | 0x108 | 0x10C => 0x17FFF030 | 0x114 => 0xF1C1 | 0x118 => 0x140 | 0x2C8 => 0x2
  | 0x40C => 0x4004 | 0x410 => 0x8 | 0x420 => 0xFFFFFFFF | 0x424 => 0xF0000000
  | _ => 0
def cfgRw1c (off : Nat) : Nat :=
  match off with
  | 0x58 => 0xF0000 | 0x104 => 0x17FFF030 | 0x110 => 0xF1C1
  | _ => 0

/-- What the writable bits of a dword are after reset, by function × 2^12 + offset: Enable Relaxed Ordering, Max Read Request Size 512 B;
the standard's AER severities and masks, IDE Check Failed being fatal (Table 4.18). -/
def cfgReset (key : Nat) : Nat :=
  match key % 2 ^ 12 with
  | 0x58 => 0x2010 | 0x108 => 0x400000 | 0x10C => 0x10462030 | 0x114 => 0x6000
  | _ => 0

def Dev.cfg (d : Dev) (fn off : Nat) : Nat := kvGet cfgReset d.hp.cfg (fn * 2 ^ 12 + off)
def Dev.setCfg (d : Dev) (fn off v : Nat) : Dev :=
  { d with hp := { d.hp with cfg := kvSet cfgReset d.hp.cfg (fn * 2 ^ 12 + off) v } }

/-- A reset of a function takes its configuration space back to reset; AER's bits are sticky. -/
def Dev.cfgClear (d : Dev) (fn : Nat) : Dev :=
  { d with hp := { d.hp with cfg := d.hp.cfg.filter fun p => p.1 / 2 ^ 12 != fn ||
      (decide (0x104 ≤ p.1 % 2 ^ 12) && decide (p.1 % 2 ^ 12 < 0x150)) } }

/-- The function is in D3hot, where it has no CXL.mem service (Table 4.5). -/
def Dev.inD3 (d : Dev) (fn : Nat) : Bool := d.cfg fn 0x44 % 4 == 3

/-- Device Control and Device Control 2 of a head's function 0. -/
def Dev.devCtl (d : Dev) (h : Nat) : Nat := match d.fn0 h with
  | some n => d.cfg n 0x58
  | none => cfgReset 0x58
def Dev.devCtl2 (d : Dev) (h : Nat) : Nat := match d.fn0 h with
  | some n => d.cfg n 0x78
  | none => 0

/-- Max Read Request Size and Max Payload Size in bytes, Enable Relaxed Ordering, Completion Timeout Value (R98, R99). -/
def Dev.mrrs (d : Dev) (h : Nat) : Nat := 128 * 2 ^ min 5 (bitsOf (d.devCtl h) 14 12)
def Dev.mps (d : Dev) (h : Nat) : Nat := 128 * 2 ^ min 5 (bitsOf (d.devCtl h) 7 5)
def Dev.relaxed (d : Dev) (h : Nat) : Bool := bitOf (d.devCtl h) 4
def Dev.cto (d : Dev) (h : Nat) : Nat := bitsOf (d.devCtl2 h) 3 0

/-! ### What a dword reads as -/

/-- PCI Express link speed code and width of a link. -/
def Dev.linkStatus (d : Dev) (h : Nat) : Nat :=
  if d.headUp h then d.fld (headReg h) F.hpStat_RATE + 1 + d.fld (headReg h) F.hpStat_WIDTH * 2 ^ 4 else 0

/-- MAXRATE of a head's half of HP_CFG, 7–15 acting as 6 (Table 4.13). -/
def Dev.maxRate (d : Dev) (h : Nat) : Nat :=
  min 6 (d.fld (.hpCfg (h / 2)) (if h % 2 = 0 then F.hpCfg_MAXRATE_A else F.hpCfg_MAXRATE_B))

/-- Header and capability list (Table 4.5): the bits that writes do not set. Offsets that hold nothing read zero. -/
def Dev.cfgHeader (d : Dev) (fn off : Nat) : Nat :=
  let h := d.fnHead fn
  match off with
  | 0x00 => Config.vendorId.toNat + 0x9200 * 2 ^ 16
  | 0x04 => 0x10 * 2 ^ 16
  | 0x08 => d.fld .gblId F.gblId_STEP + 0x050210 * 2 ^ 8
  | 0x0C => b2n (h == d.hp.mgmtHead && !d.isMld h) * 2 ^ 23
  | 0x10 => 0x4
  | 0x2C => (Config.configDword fn off).toNat
  | 0x34 => 0x40
  | 0x40 => 0x01 + 0x50 * 2 ^ 8 + 3 * 2 ^ 16
  | 0x44 => 2 ^ 3
  | 0x50 => 0x10 + 0x90 * 2 ^ 8 + 2 * 2 ^ 16
  | 0x54 => 2 + 2 ^ 5 + 2 ^ 15 + 2 ^ 28
  | 0x5C => d.maxRate h + 1 + (if d.hp.split.getD (h / 2) false then 8 else 16) * 2 ^ 4
  | 0x60 => d.linkStatus h * 2 ^ 16
  | 0x74 => 0xF + 2 ^ 16 + 2 ^ 17
  | 0x7C => (2 ^ (d.maxRate h + 1) - 1) * 2
  | 0x90 => 0x11 + (if fn < 16 then 31 else 63) * 2 ^ 16
  | 0x94 | 0x98 => (Config.configDword fn off).toNat
  | _ => 0

/-- Memory_Active of an LD (R88). -/
def Dev.memActive (d : Dev) (n : Nat) : Bool := d.hp.memActive.getD n false

/-- Bytes of an LD's window, which its CXL range shows. -/
def Dev.rangeBytes (d : Dev) (fn : Nat) : Nat := if fn < 16 ∧ d.winEn fn then d.winFields fn * 2 ^ 21 else 0

/-- A dword of a DVSEC after its header's first two (Table 4.6). Of the CXL Device DVSEC: CXL.io and CXL.mem, one range, CXL Reset with
memory clear, no CXL.cache; Memory_Info_Valid, and Memory_Active, which is Media Not Ready's opposite (R88). -/
def Dev.dvsecDword (d : Dev) (fn id k : Nat) : Nat :=
  let h := d.fnHead fn
  match id, k with
  | 0, 0x08 => (2 + 4 + 8 + 2 ^ 4 + 2 ^ 7 + 2 ^ 11 + b2n (d.isMld h) * 2 ^ 13) * 2 ^ 16
  | 0, 0x0C => 2
  | 0, 0x18 => d.rangeBytes fn / 2 ^ 32
  | 0, 0x1C => d.rangeBytes fn % 2 ^ 32 / 2 ^ 28 * 2 ^ 28 + b2n (fn == 16 || d.memActive fn) * 2 + 1
  | 5, 0x08 => 5
  | 7, 0x08 => 7 + (2 + 4 + 2 ^ 5 + 2 ^ 6 + 2 ^ 13) * 2 ^ 16
  | 7, 0x0C => (2 + 4 * b2n (decide (1 ≤ d.proto h)) + 2 ^ 5 * b2n (decide (2 ≤ d.proto h)) + 2 ^ 6 * b2n (d.isMld h) +
      2 ^ 13 * b2n (d.flag (headReg h) F.hpStat_FLIT256)) * 2 ^ 16
  | 8, 0x08 => 8
  | 8, 0x0C => 1 * 2 ^ 8
  | 8, 0x14 => 3 * 2 ^ 8 + 0x10000
  | 9, 0x08 => 9 + 16 * 2 ^ 16
  | 0x10, 0x08 => 1
  | 0x10, 0x10 => d.fld .gblId F.gblId_DECK
  | 0x10, 0x14 => 28
  | _, _ => 0

/-- A dword of an extended capability after its first (Table 4.5): the bits that writes do not set. -/
def Dev.extDword (d : Dev) (fn : Nat) (c : ExtCap) (k : Nat) : Nat :=
  match c with
  | .aer | .doe => 0
  | .dsn => if k = 4 then Config.serial.toNat % 2 ^ 32 else if k = 8 then Config.serial.toNat / 2 ^ 32 else 0
  | .ide =>
    let secure (i : Nat) : Nat := 2 * b2n ((d.head (d.fnHead fn)).ide.getD i {}).secure
    if k = 0x04 then 3 else if k = 0x10 then secure 0 else if k = 0x1C then secure 1 else (Config.configDword fn (c.off + k)).toNat
  | .dvsec id =>
    if k = 4 then (if id = 0x10 then Config.vendorId.toNat else 0x1E98) + 1 * 2 ^ 16 + dvsecLen id * 2 ^ 20
    else d.dvsecDword fn id k
  | c => (Config.configDword fn (c.off + k)).toNat

/-- The extended capability that holds an offset, and the one after it. -/
def extAt : List ExtCap → Nat → Option (ExtCap × Option ExtCap)
  | [], _ => none
  | [c], off => if c.off ≤ off then some (c, none) else none
  | c :: c' :: cs, off => if c.off ≤ off ∧ off < c'.off then some (c, some c') else extAt (c' :: cs) off

/-- A dword of a function's configuration space. -/
def Dev.cfgDword (d : Dev) (fn off : Nat) : Nat :=
  let kept := d.cfg fn off &&& (cfgRw fn off ||| cfgRw1c off)
  if off < 0x100 then d.cfgHeader fn off ||| kept
  else match extAt (d.extCaps fn) off with
    | none => 0
    | some (c, next) =>
      if off = c.off then c.id + (next.map ExtCap.off).getD 0 * 2 ^ 20 else d.extDword fn c (off - c.off) ||| kept

/-- A write of a dword of a function's configuration space. D1 and D2 do not exist. A Completion Timeout Value outside Table 4.10 is a host
error of the LD (R99). -/
def Dev.cfgWrite (d : Dev) (fn off v : Nat) : Dev :=
  let old := d.cfg fn off
  let rw := cfgRw fn off
  let w := (old - (old &&& (rw ||| (cfgRw1c off &&& v)))) + (v &&& rw)
  if off = 0x44 ∧ (v % 4 = 1 ∨ v % 4 = 2) then d
  else
    let d := if off = 0x78 ∧ !([0, 1, 2, 5, 6, 9, 10, 13, 14].contains (v % 16)) then d.goWild fn else d
    d.setCfg fn off w

/-! ### AER (R109, Table 4.18) -/

/-- Bit of the Uncorrectable Error registers. -/
def Aer.bit : Aer → Nat
  | .poisonedTlp => 12 | .completionTimeout => 14 | .unexpectedCompletion => 16 | .unsupportedRequest => 20 | .ideCheckFailed => 28

/-- The function's Uncorrectable Error Status shows an error, and its Correctable Error Status an advisory one. -/
def Dev.aerNote (d : Dev) (e : Aer) (fn : Nat) : Dev :=
  let d := d.setCfg fn 0x104 (d.cfg fn 0x104 ||| 2 ^ e.bit)
  if e = .unexpectedCompletion ∨ e = .poisonedTlp then d.setCfg fn 0x110 (d.cfg fn 0x110 ||| 2 ^ 13) else d

/-- Severity that the function's AER gives an error. -/
def Dev.aerSev (d : Dev) (e : Aer) (fn : Nat) : AerSev := if bitOf (d.cfg fn 0x10C) e.bit then .fatal else .nonFatal

/-- An error of a head is reported on its function 0; one tied to an LD is logged in that LD's function too. -/
def Dev.aer (d : Dev) (h ld : Nat) (e : Aer) : Dev :=
  let f0 := d.fn0 h
  let d' := match f0 with
    | some n => d.aerNote e n
    | none => d
  let d' := if ld < 16 ∧ f0 ≠ some ld then d'.aerNote e ld else d'
  d'.emit (.aer h ld e (d.aerSev e (f0.getD 0)))

end Sys2Proof.Machine
end

