-- ==== Sys2Proof/Machine/Crossing.lean ====
section
/-! DEFINITION. Crossings between the core and the clocked islands (R41 to R53). -/

namespace Sys2Proof.Machine

/-! ### The catalogue (Table 2.7) -/

/-- The value is one that the island offers (Table 2.7): a tail of each ring of each ring set; the counters of Table 17.2. -/
def HeadVal.ok : HeadVal → Bool
  | .tail s r => decide (s < 17) && decide (r < 8)
  | .link => true
  | .counter c => decide (c < 32)
def ChnVal.ok : ChnVal → Bool
  | .refreshLag | .scrubLag => true
  | .counter c => decide (c < 50)
def LeyVal.ok : LeyVal → Bool
  | .window v | .lowWater v => decide (v < 4)
  | .counter c => decide (c < 24)
/-- Core counters are those of the HOME, SWD, TED, BAL, CIP, RNG and TAL groups. -/
def MgtVal.ok : MgtVal → Bool
  | .speed q => decide (q < 4)
  | .epochLag t => decide (t < 4)
  | .sweepLag => true
  | .counter id => decide (384 ≤ id) && decide (id < 3608) && !(decide (2168 ≤ id) && decide (id < 3464))

/-- The crossing exists (Table 2.7). The table names what the values are and gives no number of crossings for the counters: here one
for each counter of the island in Table 17.2 (log entry 111). -/
def XId.exists : XId → Bool
  | .headRx n | .headTx n | .headEvt n => decide (n < 8)
  | .headVal n v => decide (n < 8) && v.ok
  | .chnCmd n | .chnRet n | .chnCtl n => decide (n < 24)
  | .chnVal n v => decide (n < 24) && v.ok
  | .leyTx n | .leyRx n | .leyEvt n => decide (n < 4)
  | .leyVal n v => decide (n < 4) && v.ok
  | .regIn k | .regOut k => decide (k < 37)
  | .mgtEvt | .trng => true
  | .mgtVal v => v.ok

/-- Islands: 0–7 heads, 8–31 channels, 32–35 Ley ports, 36 the management controller. -/
def XId.island : XId → Nat
  | .headRx n | .headTx n | .headEvt n | .headVal n _ => n
  | .chnCmd n | .chnRet n | .chnCtl n | .chnVal n _ => 8 + n
  | .leyTx n | .leyRx n | .leyEvt n | .leyVal n _ => 32 + n
  | .regIn k | .regOut k => k
  | .mgtEvt | .mgtVal _ | .trng => 36

inductive XKind where
  | value | event | queue (slots : Nat)
  deriving DecidableEq, Repr

def XId.kind : XId → XKind
  | .headRx _ | .headTx _ => .queue 96
  | .chnCmd _ | .chnRet _ => .queue 64
  | .leyTx _ | .leyRx _ => .queue 128
  | .regIn _ | .regOut _ => .queue 4
  | .trng => .queue 16
  | .headEvt _ | .chnCtl _ | .leyEvt _ | .mgtEvt => .event
  | _ => .value

/-- The crossing runs from the core into the island. -/
def XId.intoIsland : XId → Bool
  | .headTx _ | .chnCmd _ | .chnCtl _ | .leyTx _ | .regIn _ | .mgtEvt | .mgtVal _ => true
  | _ => false

/-- The island's CROSS_STAT register (R51). -/
def islandReg (k : Nat) : Reg :=
  if k < 8 then .crossHead k else if k < 32 then .crossChn (k - 8) else if k < 36 then .crossLey (k - 32) else .crossMgt

/-- The crossing's overrun bit (Table 2.8): queues 0 and 1, values 2 and 3, events 4 and 5; the higher of a pair leads out. -/
def XId.bit (x : XId) : Nat :=
  (match x.kind with | .queue _ => 0 | .value => 2 | .event => 4) + b2n x.intoIsland

def Dev.overrun (d : Dev) (x : XId) : Dev := d.setCross (islandReg x.island) x.bit

/-! ### Value crossings (R42, R43) -/

def Dev.xval (d : Dev) (x : XId) : XVal := asGet {} d.xs.vals x
def Dev.setXval (d : Dev) (x : XId) (v : XVal) : Dev := { d with xs := { d.xs with vals := asSet d.xs.vals x v } }

def Dev.offerValue (d : Dev) (x : XId) (v : Nat) : Dev :=
  if x.kind ≠ .value ∨ !x.exists then d
  else
    let s := d.xval x
    if s.flight.isNone then d.setXval x { s with flight := some v, delivered := false }
    else
      let d := d.setXval x { s with hold := some v }
      if s.hold.isSome then d.overrun x else d

/-- The acknowledge of a delivered transfer arrives; the held value goes next. -/
def Dev.ackValue (d : Dev) (x : XId) : Dev :=
  let s := d.xval x
  if s.delivered then d.setXval x { s with flight := s.hold, delivered := false, hold := none } else d

/-! ### Event crossings (R44, R45) -/

def Dev.xevt (d : Dev) (x : XId) : XEvt := asGet {} d.xs.evts x
def Dev.setXevt (d : Dev) (x : XId) (v : XEvt) : Dev := { d with xs := { d.xs with evts := asSet d.xs.evts x v } }

/-- Type codes of the Keaden vendor event records (the record tables of chapters 4 to 17), in ascending order. -/
def vendorTypes : List Nat :=
  [0x0001, 0x0002, 0x0003, 0x0004, 0x0010, 0x0011, 0x0012, 0x0020, 0x0021, 0x0101, 0x0102, 0x0103, 0x0104, 0x0105] ++
  [0x0201, 0x0202, 0x0203, 0x0204, 0x0205, 0x0206, 0x0301, 0x0302, 0x0401, 0x0402, 0x0403, 0x0404, 0x0405] ++
  [0x0501, 0x0502, 0x0503, 0x0504, 0x0505, 0x0506, 0x0507, 0x0508, 0x0541, 0x0542, 0x0543, 0x0544, 0x0545, 0x0581, 0x0582] ++
  [0x0601, 0x0602, 0x0701, 0x0702, 0x0703, 0x0704, 0x0705, 0x0741, 0x0742, 0x0743, 0x0744, 0x0745] ++
  [0x0801, 0x0802, 0x0803, 0x0804, 0x0805, 0x0806, 0x0901, 0x0902, 0x0903, 0x0904, 0x0905, 0x0906, 0x0A01, 0x0A02]

/-- Kinds of a crossing's list (Table 2.7). Management events have one kind for each interrupt source of Table 18.10 and then one for
each vendor event type; their order is the model's (log entry 111). -/
def XId.kinds : XId → Nat
  | .headEvt _ => 35 | .chnCtl _ => 3 | .leyEvt _ => 2 | .mgtEvt => 8 + vendorTypes.length | _ => 0

/-- The receive queue whose entries an event crossing lets pass first (R48). -/
def XId.behind : XId → Option XId
  | .headEvt n => some (.headRx n)
  | .leyEvt n => some (.leyRx n)
  | _ => none

/-- The event crossing that waits for entries of a receive queue (R48). -/
def XId.ahead : XId → Option XId
  | .headRx n => some (.headEvt n)
  | .leyRx n => some (.leyEvt n)
  | _ => none

def Dev.xque (d : Dev) (x : XId) : XQue := asGet {} d.xs.ques x
def Dev.setXque (d : Dev) (x : XId) (v : XQue) : Dev := { d with xs := { d.xs with ques := asSet d.xs.ques x v } }

/-- Entries that the queue in front of an event crossing has accepted and not delivered. -/
def Dev.before (d : Dev) (x : XId) : Nat :=
  match x.behind with
  | some q => (d.xque q).entries.length
  | none => 0

def Dev.offerEvent (d : Dev) (x : XId) (k : Nat) : Dev :=
  if x.kinds ≤ k ∨ !x.exists then d
  else
    let s := d.xevt x
    if s.flight = 0 then d.setXevt x { s with flight := 2 ^ k, delivered := false, wait := d.before x }
    else if s.pending.testBit k then (d.setXevt x { s with pendWait := d.before x }).overrun x
    else d.setXevt x { s with pending := s.pending + 2 ^ k, pendWait := d.before x }

def Dev.ackEvent (d : Dev) (x : XId) : Dev :=
  let s := d.xevt x
  if s.delivered then
    d.setXevt x { s with flight := s.pending, delivered := false, pending := 0, wait := s.pendWait, pendWait := 0 }
  else d

/-- Kinds of a bit set in the order of the list. -/
def kindsIn (n v : Nat) : List Nat := (List.range n).filter v.testBit

/-! ### Queue crossings (R46) -/

def XId.slots (x : XId) : Nat := match x.kind with | .queue n => n | _ => 0

def Dev.offerEntry (d : Dev) (x : XId) (v : Nat) : Dev :=
  if x.slots = 0 ∨ !x.exists then d
  else
    let s := d.xque x
    if s.used < x.slots ∧ s.stalled.isEmpty then d.setXque x { s with used := s.used + 1, entries := s.entries ++ [v] }
    else (d.setXque x { s with stalled := s.stalled ++ [v] }).overrun x

/-- The slot of the oldest delivered entry is free again; a stalled entry takes it. -/
def Dev.slotCredit (d : Dev) (x : XId) : Dev :=
  let s := d.xque x
  match s.recv with
  | [] => d
  | _ :: rest =>
    match s.stalled with
    | [] => d.setXque x { s with used := s.used - 1, recv := rest }
    | v :: more => d.setXque x { s with entries := s.entries ++ [v], stalled := more, recv := rest }

/-! ### Delivery and island reset (R47, R49) -/

/-- An entry of a receive queue has been delivered: events that were accepted after it wait for one entry less (R48). -/
def Dev.letPass (d : Dev) (x : XId) : Dev :=
  match x.ahead with
  | some e =>
    let s := d.xevt e
    if s.wait = 0 ∧ s.pendWait = 0 then d else d.setXevt e { s with wait := s.wait - 1, pendWait := s.pendWait - 1 }
  | none => d

/-- The crossing's own part of a delivery: what is in flight is with the receiver. Events wait for the entries accepted before
them. -/
def Dev.arrive (d : Dev) (x : XId) : Dev :=
  match x.kind with
  | .value =>
    let s := d.xval x
    match s.flight with
    | some v => if s.delivered then d else d.setXval x { s with delivered := true, recv := some v }
    | none => d
  | .event =>
    let s := d.xevt x
    if s.flight = 0 ∨ s.delivered ∨ 0 < s.wait then d
    else d.setXevt x { s with delivered := true, recv := s.recv ++ kindsIn x.kinds s.flight }
  | .queue _ =>
    let s := d.xque x
    match s.entries with
    | v :: rest => (d.setXque x { s with entries := rest, recv := s.recv ++ [v] }).letPass x
    | [] => d

/-- The kinds of an event transfer that has been delivered are handed to the receiver, once. -/
def Dev.takeKinds (d : Dev) (x : XId) : List Nat × Dev :=
  ((d.xevt x).recv, d.setXevt x { d.xevt x with recv := [] })

/-- An event crossing's transfer reaches the receiver: one already delivered has been acknowledged before; the kinds in it. None when
entries accepted before the event are still to be delivered (R48). -/
def Dev.eventTransfer (d : Dev) (x : XId) : List Nat × Dev := ((d.ackEvent x).arrive x).takeKinds x

/-- What stays of the value crossings of an island that is reset: what receivers in the core have. -/
def keptVals (k : Nat) (l : List (XId × XVal)) : List (XId × XVal) :=
  l.map fun p => if p.1.island = k then (p.1, { recv := if p.1.intoIsland then none else p.2.recv }) else p

/-- ISLAND_RESET (R49): crossings of the island are idle; receivers in the core keep the last value; flags stay. -/
def Dev.islandReset (d : Dev) (k : Nat) : Dev :=
  if 37 ≤ k then d
  else { d with xs := { vals := keptVals k d.xs.vals, evts := d.xs.evts.filter fun p => p.1.island != k,
                        ques := d.xs.ques.filter fun p => p.1.island != k } }

end Sys2Proof.Machine
end

