-- ==== Sys2Proof/Machine/Addr.lean ====
section
/-! DEFINITION. The address chain of chapter 3: HDM decode, LD window, home hash, storage sets, channel map. -/

namespace Sys2Proof.Machine

/-! ### HDM decoders (R58, R60) -/

/-- Ways of an IW code, when it is one of Table 3.3 (standard codes: 0–4 powers of two, 8, 9, 10 for 3, 6, 12). -/
def iwWays (code : Nat) : Option Nat :=
  match code with
  | 0 => some 1 | 1 => some 2 | 2 => some 4 | 3 => some 8 | 4 => some 16
  | 8 => some 3 | 9 => some 6 | 10 => some 12
  | _ => none

/-- An IG code names 256 B × 2^code, codes 0 to 6 (Table 3.3). -/
def igOk (code : Nat) : Bool := decide (code ≤ 6)

/-- log2 of the power-of-two part of the ways, and whether a division by 3 follows. -/
def iwSplit (code : Nat) : Nat × Bool :=
  match code with
  | 8 => (0, true) | 9 => (1, true) | 10 => (2, true) | c => (c, false)

/-- Removes the interleave bits from an offset as CXL 3.1 prescribes: the granule's low bits stay, the position bits go,
and for 3, 6 and 12 ways the rest is divided by 3 (R60). -/
def hdmOffset (iw ig off : Nat) : Nat :=
  let g := 8 + ig
  let (k, by3) := iwSplit iw
  let upper := off >>> (g + k)
  (if by3 then upper / 3 else upper) <<< g ||| off % 2 ^ g

/-- The length of a decoder's DPA range: size ÷ IW (R58). -/
def HdmDec.dpaLen (x : HdmDec) : Nat := x.size / (iwWays x.iw).getD 1

/-- The HPA lies in the decoder's range. -/
def HdmDec.hits (x : HdmDec) (hpa : Nat) : Bool :=
  x.committed && decide (x.base ≤ hpa) && decide (hpa < x.base + x.size)

/-- The committed decoder of LD `n` that an HPA matches (R61, R63). -/
def Dev.hdmMatch (d : Dev) (n hpa : Nat) : Option HdmDec :=
  ((List.range 8).map (d.hdm n)).find? fun x => x.hits hpa

/-- LD-relative DPA of an HPA under a decoder. -/
def HdmDec.toDpa (x : HdmDec) (hpa : Nat) : Nat := x.dpaBase + hdmOffset x.iw x.ig (hpa - x.base)

/-- DPA of an LD-relative DPA (R58). -/
def Dev.windowDpa (d : Dev) (n rel : Nat) : Nat := d.winBase n * 2 ^ 21 + rel

/-! ### Home (R65) -/

/-- XOR of the 4-bit groups of a number of `n` groups. -/
def xorNibbles : Nat → Nat → Nat
  | 0, _ => 0
  | n + 1, v => Nat.xor (v % 16) (xorNibbles n (v / 16))

/-- The home slice of a line DPA[47:6]. -/
def homeOf (line : Nat) : Nat := xorNibbles 11 (line % 2 ^ 42)

def quarterOfSlice (s : Nat) : Nat := s / 4

/-- DPA[47:21], DPA[20:12] and DPA[11:6] of a line; the page number DPA[47:12]. -/
def fieldOfLine (line : Nat) : Nat := line >>> 15
def pageOfLine (line : Nat) : Nat := line >>> 6
def fieldOfPage (page : Nat) : Nat := page / 512

/-! ### Storage sets (R69 to R72) -/

/-- W of a WAYS2 code and M of a WAYS1 code (Table 3.8). -/
def ways2 (code : Nat) : Option Nat :=
  match code with
  | 0 => some 1 | 1 => some 2 | 2 => some 4 | 3 => some 8 | 4 => some 16 | 5 => some 32
  | 8 => some 3 | 9 => some 6 | 10 => some 12 | 11 => some 24 | 12 => some 48
  | _ => none
def ways1 (code : Nat) : Option Nat :=
  match code with
  | 0 => some 1 | 1 => some 2 | 2 => some 4 | 3 => some 8 | 5 => some 3 | 6 => some 6
  | _ => none

/-- The geometry of set `n`; none when a code is reserved (R70). -/
def Dev.setGeo (d : Dev) (n : Nat) : Option SetGeo :=
  let c := d.rd (.casSetCtrl n)
  let mp := d.rd (.casSetMap n)
  match ways1 (bitsOf c 7 5), ways2 (bitsOf c 15 12) with
  | some m, some w =>
    if bitsOf c 11 8 ≤ 8 ∧ bitsOf c 4 0 ≤ 18 then
      some { base := bitsOf mp 17 0, size := bitsOf mp 50 32, cbase := bitsOf mp 28 18, tbase := bitsOf c 25 16,
             m := m, w := w, g1 := 12 + bitsOf c 4 0, g2 := 6 + bitsOf c 11 8 }
    else none
  | _, _ => none

def Dev.setCommitted (d : Dev) (n : Nat) : Bool := d.flag (.casSetCtrl n) F.casSetCtrl_COMMITTED
def Dev.setReady (d : Dev) (n : Nat) : Bool := bitOf (d.fld .cipSetstat F.cipSetstat_READY) n

/-- The SA lies in the set's range. -/
def SetGeo.has (g : SetGeo) (sa : Nat) : Bool :=
  decide (g.base * 2 ^ 30 ≤ sa) && decide (sa < (g.base + g.size) * 2 ^ 30)

/-- The committed set that holds an SA. -/
def Dev.setOf (d : Dev) (sa : Nat) : Option Nat :=
  (List.range 16).find? fun n => d.setCommitted n && ((d.setGeo n).map fun g => g.has sa).getD false

/-- R69: index of the target in CAS_TGT, and the channel address. -/
def SetGeo.place (g : SetGeo) (sa : Nat) : Nat × Nat :=
  let off := sa - g.base * 2 ^ 30
  let c1 := off >>> g.g1
  let col := c1 % g.m
  let off1 := (c1 / g.m) <<< g.g1 ||| off % 2 ^ g.g1
  let c2 := off1 >>> g.g2
  let way := c2 % g.w
  (g.tbase + col * g.w + way, g.cbase * 2 ^ 30 + ((c2 / g.w) <<< g.g2 ||| off1 % 2 ^ g.g2))

/-- The SA that R69 places at channel address `ca` of target number `k` (counted from TBASE), inside the set. -/
def SetGeo.unplace (g : SetGeo) (k ca : Nat) : Option Nat :=
  if ca < g.cbase * 2 ^ 30 then none
  else
    let x := ca - g.cbase * 2 ^ 30
    let col := k / g.w
    let way := k % g.w
    let c2 := (x >>> g.g2) * g.w + way
    let off1 := c2 <<< g.g2 ||| x % 2 ^ g.g2
    let c1 := (off1 >>> g.g1) * g.m + col
    let off := c1 <<< g.g1 ||| off1 % 2 ^ g.g1
    if off < g.size * 2 ^ 30 then some (g.base * 2 ^ 30 + off) else none

/-- A storage target: device 0 is this dealer or single device (Table 3.9). -/
structure Target where
  dev : Nat
  chan : Nat
  ca : Nat
  deriving DecidableEq, Repr

def Dev.tgt (d : Dev) (k : Nat) : Nat := d.rd (.casTgt k)

/-- Channel map (R74). -/
structure AMap where
  colw : Nat
  bgw : Nat
  baw : Nat
  cidw : Nat
  roww : Nat
  hash : Bool
  deriving DecidableEq, Repr

/-- The map that a CHN_AMAP value names (Table 3.10). -/
def amapOf (v : Nat) : AMap :=
  { colw := 6 + bitsOf v 5 5, bgw := 2 + bitsOf v 6 6, baw := 1 + bitsOf v 7 7, cidw := bitsOf v 11 10,
    roww := 16 + min 2 (bitsOf v 9 8), hash := bitOf v 12 }

def Dev.amap (d : Dev) (c : Nat) : AMap := amapOf (d.rd (.chnAmap c))

/-- log2 of the lines of one rank, subchannel bit included. -/
def AMap.rankBits (a : AMap) : Nat := 1 + a.colw + a.bgw + a.baw + a.cidw + a.roww

/-- DRAM coordinates of a line address (R74): fields raw and as sent. -/
structure Coord where
  sub : Nat
  col : Nat
  bg : Nat
  bank : Nat
  cid : Nat
  row : Nat
  rank : Nat
  bgSent : Nat
  bankSent : Nat
  deriving DecidableEq, Repr

def AMap.coord (a : AMap) (la : Nat) : Coord :=
  let sub := la % 2
  let v := la / 2
  let col := v % 2 ^ a.colw
  let v := v >>> a.colw
  let bg := v % 2 ^ a.bgw
  let v := v >>> a.bgw
  let bank := v % 2 ^ a.baw
  let v := v >>> a.baw
  let cid := v % 2 ^ a.cidw
  let v := v >>> a.cidw
  let row := v % 2 ^ a.roww
  let rank := v >>> a.roww
  { sub := sub, col := col, bg := bg, bank := bank, cid := cid, row := row, rank := rank,
    bgSent := if a.hash then Nat.xor bg (row % 2 ^ a.bgw) else bg,
    bankSent := if a.hash then Nat.xor bank ((row >>> a.bgw) % 2 ^ a.baw) else bank }

/-- The place in its rank's devices, of geometry `g`, of the line with index `line` of a rank under map `a` (R77): the coordinates as
sent, packed in the order of Table 3.10. Column, bank and row bits that a device does not have are lost, so that lines alias; a chip ID
that no device answers to reaches none (DEDUCED, log entry 121). -/
def AMap.cell (a g : AMap) (line : Nat) : Option Nat :=
  let x := a.coord (line % 2 ^ a.rankBits)
  if 2 ^ g.cidw ≤ x.cid then none
  else
    let v := x.cid <<< g.roww ||| x.row % 2 ^ g.roww
    let v := v <<< g.baw ||| x.bankSent % 2 ^ g.baw
    let v := v <<< g.bgw ||| x.bgSent % 2 ^ g.bgw
    some ((v <<< g.colw ||| x.col % 2 ^ g.colw) <<< 1 ||| x.sub)

/-- The line index that reaches a place under a map; of several, the one whose excess bits are zero. -/
def AMap.uncell (a g : AMap) (cell : Nat) : Option Nat :=
  let v := cell / 2
  let col := v % 2 ^ g.colw
  let v := v >>> g.colw
  let bg := v % 2 ^ g.bgw
  let v := v >>> g.bgw
  let bank := v % 2 ^ g.baw
  let v := v >>> g.baw
  let row := v % 2 ^ g.roww
  let cid := v >>> g.roww
  let rawBg := if a.hash then Nat.xor bg (row % 2 ^ a.bgw) else bg
  let rawBank := if a.hash then Nat.xor bank ((row >>> a.bgw) % 2 ^ a.baw) else bank
  let u := row <<< a.cidw ||| cid % 2 ^ a.cidw
  let u := u <<< a.baw ||| rawBank % 2 ^ a.baw
  let u := u <<< a.bgw ||| rawBg % 2 ^ a.bgw
  let line := ((u <<< a.colw ||| col % 2 ^ a.colw) <<< 1 ||| cell % 2) % 2 ^ a.rankBits
  if a.cell g line = some cell then some line else none

/-- Leading valid entries of CHN_RANKMAP (R76). -/
def leadingValid (v : Nat) : Nat → Nat
  | 0 => 0
  | n + 1 => if 8 ≤ v % 16 then 1 + leadingValid (v / 16) n else 0

/-- Physical rank of a logical rank (R75): entries after the first invalid one are not used (R76). -/
def Dev.physRank (d : Dev) (c lr : Nat) : Option Nat :=
  let v := d.rd (.chnRankmap c)
  if lr < leadingValid v 8 then some ((v >>> (4 * lr)) % 8) else none

/-- Usable capacity of a channel in bytes (R76). -/
def Dev.usable (d : Dev) (c : Nat) : Nat :=
  leadingValid (d.rd (.chnRankmap c)) 8 * 2 ^ (6 + (d.amap c).rankBits)

def quarterOfChan (c : Nat) : Nat := c / 6

/-! ### Counter region (R210) -/

/-- First SA of a set's counter region. -/
def SetGeo.ctrBase (g : SetGeo) : Nat := (g.base + g.size) * 2 ^ 30 - g.size * 2 ^ 24

/-- SA of the counter line of a frame of the set. -/
def SetGeo.ctrSa (g : SetGeo) (frame : Nat) : Nat := g.ctrBase + 64 * (frame - g.base * 2 ^ 18)

/-- The frame whose counter line an SA of the counter region is. -/
def SetGeo.ctrFrame (g : SetGeo) (sa : Nat) : Nat := (sa - g.ctrBase) / 64 + g.base * 2 ^ 18

/-- SA ranges [a, a + n) and [b, b + m) overlap. -/
def overlaps (a n b m : Nat) : Bool := decide (a < b + m) && decide (b < a + n) && decide (0 < n) && decide (0 < m)

end Sys2Proof.Machine
end

