-- ==== Sys2Proof/Machine/Codeword.lean ====
section
/-! DEFINITION. The line codeword of chapter 10: Reed–Solomon RS(80, 68) over GF(2^8), its symbol placement on x4 and x8
devices, and its decoding (R276 to R281). -/

namespace Sys2Proof.Machine

/-! ### The field (R276): polynomial x^8 + x^4 + x^3 + x^2 + 1, α = 2 -/

/-- Carry-less product reduced modulo the field polynomial: adds `a` for each set bit of `b` from bit `n - 1` down. -/
def rsMulGo (a b : Nat) : Nat → Nat → Nat
  | 0, acc => acc
  | n + 1, acc =>
    let acc := if acc < 128 then 2 * acc else Nat.xor (2 * acc) 0x11D
    rsMulGo a b n (if b.testBit n then Nat.xor acc a else acc)

def rsMul (a b : Nat) : Nat := rsMulGo a b 8 0

def rsPow (a : Nat) : Nat → Nat
  | 0 => 1
  | n + 1 => rsMul a (rsPow a n)

/-- Inverse: a^254. -/
def rsInv (a : Nat) : Nat :=
  let a2 := rsMul a a
  let a4 := rsMul a2 a2
  let a8 := rsMul a4 a4
  let a16 := rsMul a8 a8
  let a32 := rsMul a16 a16
  let a64 := rsMul a32 a32
  let a128 := rsMul a64 a64
  rsMul a2 (rsMul a4 (rsMul a8 (rsMul a16 (rsMul a32 (rsMul a64 a128)))))

/-- Value at `x` of a polynomial, lowest coefficient first. -/
def rsEval (p : List Nat) (x : Nat) : Nat := p.foldr (fun c v => Nat.xor c (rsMul v x)) 0

/-- Product of a polynomial by (X − r). -/
def rsMulRoot (p : List Nat) (r : Nat) : List Nat :=
  List.zipWith Nat.xor (0 :: p) (p.map (rsMul r) ++ [0])

/-- α^i. -/
def rsAlpha (i : Nat) : Nat := rsPow 2 i

/-- The monic polynomial whose roots are given. -/
def rsFromRoots (rs : List Nat) : List Nat := rs.foldl rsMulRoot [1]

/-- The generator g(x), degree 12, lowest coefficient first. -/
def rsGen : List Nat := rsFromRoots ((List.range 12).map rsAlpha)

/-- Division register: feeds coefficients from the highest down, keeping the remainder modulo g(x). -/
def rsRemStep (rem : List Nat) (c : Nat) : List Nat :=
  let top := Nat.xor c (rem.getD 11 0)
  (List.range 12).map fun i =>
    Nat.xor (if i = 0 then 0 else rem.getD (i - 1) 0) (rsMul top (rsGen.getD i 0))

/-- The check symbols c0 to c11 of symbols c12 to c79: the remainder of Σ c_i x^i modulo g(x). -/
def rsCheck (msg : List Nat) : List Nat :=
  msg.reverse.foldl rsRemStep (List.replicate 12 0)

/-- The codeword of a payload: c16–c79 data, c12–c15 the metadata word, c0–c11 the check symbols. -/
def encodeSyms (p : Payload) : List Nat :=
  let msg := toBytes 4 p.md.toNat ++ toBytes 64 p.data.toNat
  rsCheck msg ++ msg

def encode (p : Payload) : Codeword := BitVec.ofNat 640 (ofBytes (encodeSyms p))

def symsOf (c : Codeword) : List Nat := toBytes 80 c.toNat

/-- The payload that 80 symbols carry. -/
def payloadOf (s : List Nat) : Payload :=
  { data := BitVec.ofNat 512 (ofBytes (s.drop 16)), md := BitVec.ofNat 32 (ofBytes ((s.drop 12).take 4)) }

/-- Syndromes S_j = c(α^j), j = 0 to 11. -/
def syndromes (s : List Nat) : List Nat := (List.range 12).map fun j => rsEval s (rsAlpha j)

/-! ### Placement (R278, R279) -/

/-- Symbols of device `d`, in its symbol order. -/
def deviceSyms (x8 : Bool) (d : Nat) : List Nat :=
  if x8 then (List.range 16).map fun t => if d = 4 then t else 16 + 16 * d + t
  else (List.range 8).map fun k => if d = 8 then k else if d = 9 then 8 + k else 16 + 8 * d + k

def deviceCount (x8 : Bool) : Nat := if x8 then 5 else 10

/-- Device that carries a symbol. -/
def deviceOf (x8 : Bool) (i : Nat) : Nat :=
  if x8 then (if i < 16 then 4 else (i - 16) / 16) else (if i < 8 then 8 else if i < 16 then 9 else (i - 16) / 8)

/-- Beat and pin (DQ 0–31, CB 32–39) of bit `b` of symbol `i`. -/
def pinOf (x8 : Bool) (i b : Nat) : Nat × Nat :=
  let d := deviceOf x8 i
  if x8 then ((if i < 16 then i else (i - 16) % 16), 8 * d + b)
  else
    let k := if i < 16 then i % 8 else (i - 16) % 8
    (2 * k + b / 4, 4 * d + b % 4)

/-- The 16 beats of 40 bits of a codeword on the pins: beat `t` at bits [40t+39:40t], DQ below CB. -/
def burstOf (x8 : Bool) (c : Nat) : Nat :=
  (List.range 640).foldl (fun v n =>
    if c.testBit n then
      let (t, p) := pinOf x8 (n / 8) (n % 8)
      v + 2 ^ (40 * t + p)
    else v) 0

/-- The codeword that a burst of 16 beats carries. -/
def unburst (x8 : Bool) (v : Nat) : Nat :=
  (List.range 640).foldl (fun c n =>
    let (t, p) := pinOf x8 (n / 8) (n % 8)
    if v.testBit (40 * t + p) then c + 2 ^ n else c) 0

/-! ### Decoding (R280, R281) -/

/-- The errors at positions `ps` that the first syndromes name, as many as positions: with A the product of (X − α^k) over
the other positions, e = (Σ A_j S_j) ÷ A(α^p). -/
def solveErasures (s : List Nat) (ps : List Nat) : List (Nat × Nat) :=
  ps.map fun p =>
    let a := rsFromRoots ((ps.filter (· ≠ p)).map rsAlpha)
    let num := (List.zipWith rsMul a s).foldl Nat.xor 0
    (p, rsMul num (rsInv (rsEval a (rsAlpha p))))

def applyErrors (s : List Nat) (es : List (Nat × Nat)) : List Nat :=
  es.foldl (fun s e => modNth s e.1 fun x => Nat.xor x e.2) s

/-- The x4 trials: each device as an erasure; the word that passes and its device, with the count of passes. -/
def decodeX4 (s : List Nat) : CwOut :=
  let sy := syndromes s
  if sy.all (· = 0) then .clean (payloadOf s)
  else
    let trials := (List.range 10).filterMap fun d =>
      let fix := applyErrors s (solveErasures (sy.take 8) (deviceSyms false d))
      if ((syndromes fix).drop 8).all (· = 0) then some (d, fix) else none
    match trials with
    | [(d, fix)] => .corrected (payloadOf fix) d
    | _ => .uncorrectable (payloadOf s)

/-- One Berlekamp–Massey step: (C, B, L, m, b) after syndrome `n`. -/
def bmStep (sy : List Nat) (st : List Nat × List Nat × Nat × Nat × Nat) (n : Nat) :
    List Nat × List Nat × Nat × Nat × Nat :=
  let (c, bp, l, m, b) := st
  let dlt := ((List.range (l + 1)).map fun i => rsMul (c.getD i 0) (if i ≤ n then sy.getD (n - i) 0 else 0)).foldl Nat.xor 0
  if dlt = 0 then (c, bp, l, m + 1, b)
  else
    let f := rsMul dlt (rsInv b)
    let sh := List.replicate m 0 ++ bp.map (rsMul f)
    let len := max c.length sh.length
    let c' := (List.range len).map fun i => Nat.xor (c.getD i 0) (sh.getD i 0)
    if 2 * l ≤ n then (c', c, n + 1 - l, 1, dlt) else (c', bp, l, m + 1, b)

/-- Positions whose locator is a root of the error locator that the syndromes name. -/
def errorPositions (sy : List Nat) : Nat × List Nat :=
  let (c, _, l, _, _) := (List.range 12).foldl (bmStep sy) ([1], [1], 0, 1, 1)
  (l, (List.range 80).filter fun i => rsEval c (rsInv (rsAlpha i)) = 0)

/-- The device with the most symbols in a list of positions, the lowest-numbered on a tie. -/
def majorDevice (x8 : Bool) (ps : List Nat) : Nat :=
  ((List.range (deviceCount x8)).foldl (fun (best : Nat × Nat) d =>
    let n := (ps.filter fun p => deviceOf x8 p = d).length
    if best.2 < n then (d, n) else best) (0, 0)).1

/-- Errors-only decoding of up to four symbols. -/
def decodeX8 (s : List Nat) : CwOut :=
  let sy := syndromes s
  if sy.all (· = 0) then .clean (payloadOf s)
  else
    let (l, ps) := errorPositions sy
    if l ≤ 4 ∧ ps.length = l then
      let fix := applyErrors s (solveErasures (sy.take l) ps)
      if (syndromes fix).all (· = 0) then .corrected (payloadOf fix) (majorDevice true ps)
      else .uncorrectable (payloadOf s)
    else .uncorrectable (payloadOf s)

/-- Decodes a captured codeword. A burst of all zeros or all ones is uncorrectable (Table 10.3; log entry 4: by R276 alone
the word of all zeros would be a codeword). -/
def decodeWord (x8 : Bool) (c : Codeword) : CwOut :=
  if c = 0 ∨ c = BitVec.allOnes 640 then .uncorrectable (payloadOf (symsOf c))
  else if x8 then decodeX8 (symsOf c) else decodeX4 (symsOf c)

/-! ### The metadata word (Table 10.1) -/

def mdWord (kgen : Nat) (cmark poison : Bool) (tag : Nat) : BitVec 32 :=
  BitVec.ofNat 32 ((kgen % 4) * 2 ^ 30 + b2n cmark * 2 ^ 29 + b2n poison * 2 ^ 28 + tag % 2 ^ 28)

def Payload.kgen (p : Payload) : Nat := bitsOf p.md.toNat 31 30
def Payload.cmark (p : Payload) : Bool := bitOf p.md.toNat 29
def Payload.poison (p : Payload) : Bool := bitOf p.md.toNat 28
def Payload.tag (p : Payload) : Nat := bitsOf p.md.toNat 27 0

/-- The poison codeword of a read (R283): data as read, POISON 1, the rest of the metadata 0. -/
def poisonOf (p : Payload) : Payload := { data := p.data, md := mdWord 0 false true 0 }

end Sys2Proof.Machine
end

