-- ==== Sys2Proof/Machine/Crypto.lean ====
section
/-! DEFINITION. The block cipher and the hash of chapter 8: AES-256 (SP 800-38A counter mode blocks), GHASH (SP 800-38D),
the counter block of Table 8.4, and the tags of R219. Blocks are 128-bit numbers, byte 0 most significant (R217). -/

namespace Sys2Proof.Machine

/-! ### AES-256 (FIPS 197) -/

/-- Rows of the AES substitution table: entry `16 r + i` is byte `i` of row `r`. -/
def aesSboxRows : List Nat :=
  [0x76abd7fe2b670130c56f6bf27b777c63,
   0xc072a49cafa2d4adf04759fa7dc982ca,
   0x1531d871f1e5a534ccf73f362693fdb7,
   0x75b227ebe28012079a059618c323c704,
   0x842fe329b3d63b52a05a6e1b1a2c8309,
   0xcf584c4a39becb6a5bb1fc20ed00d153,
   0xa89f3c507f02f94585334d43fbaaefd0,
   0xd2f3ff1021dab6bcf5389d928f40a351,
   0x73195d643d7ea7c41744975fec130ccd,
   0xdb0b5ede14b8ee4688902a22dc4f8160,
   0x79e4959162acd3c25c2406490a3a32e0,
   0x08ae7a65eaf4566ca94ed58d6d37c8e7,
   0x8a8bbd4b1f74dde8c6b4a61c2e2578ba,
   0x9e1dc186b95735610ef6034866b53e70,
   0xdf2855cee9871e9b948ed9691198f8e1,
   0x16bb54b00f2d99416842e6bf0d89a18c]

def aesSbox (x : Nat) : Nat := byteOf (aesSboxRows.getD (x / 16) 0) (x % 16)

/-- Product by x in the AES field. -/
def aesXtime (a : Nat) : Nat := if a < 128 then 2 * a else Nat.xor (2 * a - 256) 0x1B

/-- The `n` bytes of a number, most significant first. -/
def beBytes (n v : Nat) : List Nat := (List.range n).map fun i => byteOf v (n - 1 - i)

/-- The number whose bytes are `bs`, most significant first. -/
def ofBeBytes (bs : List Nat) : Nat := bs.foldl (fun v b => v * 256 + b % 256) 0

/-- The byte-wise substitution of a 32-bit word. -/
def aesSubWord (w : Nat) : Nat := ofBeBytes ((beBytes 4 w).map aesSbox)

def aesRotWord (w : Nat) : Nat := (w * 256) % 2 ^ 32 + w / 2 ^ 24

/-- Key schedule of AES-256: extends the words of the key, newest first, by `n` words from word `i`. -/
def aesExpand : Nat → Nat → Nat → List Nat → List Nat
  | 0, _, _, ws => ws
  | n + 1, i, rcon, ws =>
    let t := ws.headD 0
    let old := ws.getD 7 0
    if i % 8 = 0 then
      aesExpand n (i + 1) (aesXtime rcon) (Nat.xor old (Nat.xor (aesSubWord (aesRotWord t)) (rcon * 2 ^ 24)) :: ws)
    else if i % 8 = 4 then aesExpand n (i + 1) rcon (Nat.xor old (aesSubWord t) :: ws)
    else aesExpand n (i + 1) rcon (Nat.xor old t :: ws)

/-- The 15 round keys of a 256-bit key, as 128-bit numbers. -/
def aesRoundKeys (key : Nat) : List Nat :=
  let w0 := (List.range 8).map fun i => (key >>> (32 * i)) % 2 ^ 32
  let ws := (aesExpand 52 8 1 w0).reverse
  (List.range 15).map fun r => (List.range 4).foldl (fun v i => v * 2 ^ 32 + ws.getD (4 * r + i) 0) 0

/-- SubBytes and ShiftRows on the 16 bytes of the state, column by column. -/
def aesSubShift (bs : List Nat) : List Nat :=
  (List.range 16).map fun i => aesSbox (bs.getD ((i + 4 * (i % 4)) % 16) 0)

/-- MixColumns. -/
def aesMix (bs : List Nat) : List Nat :=
  (List.range 16).map fun i =>
    let c := i / 4 * 4
    let a := bs.getD i 0
    let b := bs.getD (c + (i + 1) % 4) 0
    let e := bs.getD (c + (i + 2) % 4) 0
    let f := bs.getD (c + (i + 3) % 4) 0
    Nat.xor (Nat.xor (aesXtime a) (Nat.xor (aesXtime b) b)) (Nat.xor e f)

/-- Rounds 1 to 14 on the state, given their round keys; the last has no MixColumns. -/
def aesRounds : List Nat → List Nat → List Nat
  | [], s => s
  | [k], s => List.zipWith Nat.xor (aesSubShift s) (beBytes 16 k)
  | k :: ks, s => aesRounds ks (List.zipWith Nat.xor (aesMix (aesSubShift s)) (beBytes 16 k))

/-- AES-256 of a block under expanded round keys. -/
def aesWith (rks : List Nat) (blk : Nat) : Nat :=
  match rks with
  | [] => 0
  | k :: ks => ofBeBytes (aesRounds ks (beBytes 16 (Nat.xor blk k)))

/-- AES-256 of a block. -/
def aes (key blk : Nat) : Nat := aesWith (aesRoundKeys key) blk

/-! ### GHASH -/

/-- Product of GCM's field: bit 127 is the coefficient of x^0. -/
def ghashMulGo (x : Nat) : Nat → Nat → Nat → Nat
  | 0, _, z => z
  | n + 1, v, z =>
    let z' := if x.testBit n then Nat.xor z v else z
    let v' := if v % 2 = 1 then Nat.xor (v / 2) (0xE1 * 2 ^ 120) else v / 2
    ghashMulGo x n v' z'

def ghashMul (x y : Nat) : Nat := ghashMulGo x 128 y 0

/-- GHASH of a list of blocks under the hash key. -/
def ghash (h : Nat) (blks : List Nat) : Nat := blks.foldl (fun y b => ghashMul (Nat.xor y b) h) 0

/-! ### Counter blocks (Table 8.4) -/

structure CtrBlock where
  fctr : Nat := 0
  kind : Nat := 0
  minor : Nat := 0
  major : Nat := 0
  /-- SA[47:6] -/
  line : Nat := 0
  soff : Nat := 0
  deriving DecidableEq, Repr

/-- The 128-bit counter block with index `j`. -/
def CtrBlock.num (b : CtrBlock) (j : Nat) : Nat :=
  (b.fctr % 64) <<< 122 + (b.kind % 4) <<< 120 + (b.minor % 128) <<< 113 + (b.major % 2 ^ 64) <<< 49 +
    (b.line % 2 ^ 42) <<< 7 + (b.soff % 16) <<< 3 + j % 4

/-- A key pair (R205). -/
structure KeyPair where
  ke : Nat
  km : Nat
  deriving DecidableEq, Repr

/-- Block `j` of a line: bytes 16j to 16j + 15, the lowest byte most significant. -/
def lineBlock (x : Line) (j : Nat) : Nat :=
  ofBeBytes ((List.range 16).map fun i => byteOf x.toNat (16 * j + i))

/-- The line whose four blocks are given. -/
def lineOfBlocks (bs : List Nat) : Line := BitVec.ofNat 512 (ofBytes (bs.flatMap (beBytes 16)))

/-- Enciphers or deciphers a line under the counter block (R217). -/
def crypt (k : KeyPair) (b : CtrBlock) (x : Line) : Line :=
  let rks := aesRoundKeys k.ke
  x ^^^ lineOfBlocks ((List.range 4).map fun j => aesWith rks (b.num j))

/-- The 28-bit tag of a line's ciphertext (R219). -/
def lineTag (k : KeyPair) (b : CtrBlock) (c : Line) : Nat :=
  let rks := aesRoundKeys k.km
  let h := aesWith rks (CtrBlock.num { kind := 2 } 0)
  Nat.xor (ghash h ((List.range 4).map (lineBlock c))) (aesWith rks (b.num 0)) >>> 100

/-- The 28-bit tag of a counter line at `sa` (R219). -/
def counterTag (k : KeyPair) (sa : Nat) (x : Line) : Nat :=
  let rks := aesRoundKeys k.km
  let h := aesWith rks (CtrBlock.num { kind := 2 } 0)
  let y := CtrBlock.num { kind := 3, line := sa / 64 } 0
  let v := ghash h ((List.range 4).map (lineBlock x) ++ [y])
  aesWith rks (putBits v 121 120 3) >>> 100

end Sys2Proof.Machine
end

