-- ==== Sys2Proof/Machine/Dram.lean ====
section
/-! DEFINITION. What the DRAM devices hold. A stored codeword has a physical key (channel, physical rank, line); its 80 bytes
are cells at key × 128 + symbol. The counter region of a set is initialised in one operation (R212), kept as a fill. -/

namespace Sys2Proof.Machine

/-- Physical key of a place of a rank of this device. -/
def physKey (c rank cell : Nat) : Nat := (c * 8 + rank) * 2 ^ 40 + cell

/-- Physical key of the line with index `line` of a rank, when a device holds it (R77). -/
def Dev.lineKey (d : Dev) (c rank line : Nat) : Option Nat :=
  ((d.amap c).cell (amapOf (d.chn c).geo) line).map (physKey c rank)

/-- Key of a line of member `dev`, at its channel address; `dev` is 1 to 7. -/
def memberKey (dev c ca : Nat) : Nat := ((dev * 24 + c) * 8) * 2 ^ 40 + ca / 64

/-- The key pair that key number `k` names: two TRNG words (R205). -/
def keyPair (k : Nat) : KeyPair := { ke := (Config.trng (2 * k)).toNat, km := (Config.trng (2 * k + 1)).toNat }

/-- The stored payload of a counter line (R212, R219). -/
def counterPayload (devKey sa : Nat) (c : Ctr) : Payload :=
  let x := c.minors ++ c.major
  { data := x, md := mdWord 0 true false (counterTag (keyPair devKey) sa x) }

/-- The counter line that a line holds (Table 8.3). -/
def ctrOfLine (x : Line) : Ctr := { major := x.extractLsb' 0 64, minors := x.extractLsb' 64 448 }

/-- SA of the counter line that a fill wrote at a physical key. -/
def Fill.saAt (f : Fill) (key : Nat) : Option Nat :=
  let unit := key / 2 ^ 40
  let line := key % 2 ^ 40
  let dev := unit / 192
  let chan := unit / 8 % 24
  f.legs.findSome? fun g =>
    if g.dev = dev ∧ g.chan = chan then
      let ca? : Option Nat :=
        if dev = 0 then
          match (List.range 8).find? fun lr => g.rankmap >>> (4 * lr) % 16 == 8 + unit % 8, (amapOf g.amap).uncell (amapOf g.geo) line with
          | some lr, some i => some ((lr <<< (amapOf g.amap).rankBits ||| i) * 64)
          | _, _ => none
        else some (line * 64)
      match ca? with
      | some ca =>
        match f.geo.unplace g.k ca with
        | some sa => if f.geo.ctrBase ≤ sa then some sa else none
        | none => none
      | none => none
    else none

/-- The codeword that a fill wrote at a physical key. -/
def Fill.word (f : Fill) (key : Nat) : Option Codeword :=
  (f.saAt key).map fun sa => encode (counterPayload f.devKey sa { major := BitVec.ofNat 64 f.major, minors := 0 })

/-- What a physical key reads as when none of its bytes is listed: the newest fill that covers it, else zeros (log entry 5). -/
def baseWord (fs : List Fill) (key : Nat) : Codeword :=
  (fs.findSome? fun f => f.word key).getD 0

/-- Byte `j` of a codeword. -/
def cwByte (c : Codeword) (j : Nat) : BitVec 8 := BitVec.ofNat 8 (byteOf c.toNat j)

/-- What an unlisted cell reads as. -/
def cellDefault (fs : List Fill) (a : Nat) : BitVec 8 := cwByte (baseWord fs (a / 128)) (a % 128)

/-- Reads one cell. -/
def Dram.cell (m : Dram) (a : Nat) : BitVec 8 := kvGet (cellDefault m.fills) m.cells a

/-- Reads a codeword. -/
def Dram.read (m : Dram) (key : Nat) : Codeword :=
  let base := baseWord m.fills key
  BitVec.ofNat 640 (ofBytes ((List.range 80).map fun j =>
    ((kvFind? m.cells (key * 128 + j)).getD (cwByte base j)).toNat))

/-- Writes a codeword, keeping the canonical form. -/
def Dram.put (m : Dram) (key : Nat) (c : Codeword) : Dram :=
  let base := baseWord m.fills key
  { m with cells := (List.range 80).foldl (fun cs j => kvSet (fun _ => cwByte base j) cs (key * 128 + j) (cwByte c j)) m.cells }

/-- Applies a fill: the cells that it covers are no longer listed. -/
def Dram.fill (m : Dram) (f : Fill) : Dram :=
  { cells := m.cells.filter fun p => (f.saAt (p.1 / 128)).isNone, fills := f :: m.fills }

def Dram.apply (m : Dram) : DramOp → Dram
  | .put key c => m.put key c
  | .fill f => m.fill f

/-- The canonical form: addresses strictly rising, no cell equal to what an unlisted cell reads as. -/
def Dram.wf (m : Dram) : Bool := kvWf (cellDefault m.fills) m.cells

/-- Reads a codeword with the changes that the running command has already made. -/
def Dev.physRead (m : Dram) (d : Dev) (key : Nat) : Codeword :=
  match d.bulk.reverse.findSome? fun
    | .put k c => if k = key then some c else none
    | .fill f => f.word key with
  | some c => c
  | none => m.read key

def Dev.physWrite (d : Dev) (key : Nat) (c : Codeword) : Dev := { d with bulk := d.bulk ++ [.put key c] }

/-- Reads a line of a rank; an undriven burst reads as all ones (Table 10.3). -/
def Dev.lineRead (m : Dram) (d : Dev) (c rank line : Nat) : Codeword :=
  match d.lineKey c rank line with
  | some key => d.physRead m key
  | none => BitVec.allOnes 640

/-- Writes a line of a rank; a write that reaches no device is lost. -/
def Dev.lineWrite (d : Dev) (c rank line : Nat) (x : Codeword) : Dev :=
  match d.lineKey c rank line with
  | some key => d.physWrite key x
  | none => d

end Sys2Proof.Machine
end

