-- ==== Sys2Proof/Machine/Periodic.lean ====
section
/-! DEFINITION. Periodic units (R54 to R57): the grid, the lag registers, and the record of a lag beyond the period. -/

namespace Sys2Proof.Machine

def LagUnit.lagReg : LagUnit → Reg
  | .refresh c => .chnRefLag c
  | .scrub c => .chnScrubLag c
  | .epoch t => .tedEpochLag t
  | .sweep => .talSweepLag

def LagUnit.maxReg : LagUnit → Reg
  | .refresh c => .chnRefMaxlag c
  | .scrub c => .chnScrubMaxlag c
  | .epoch t => .tedEpochMaxlag t
  | .sweep => .talSweepMaxlag

/-- The unit as event records name it (Table 18.2). -/
def LagUnit.code : LagUnit → Nat
  | .refresh c => 0x800 + c
  | .scrub c => 0x800 + c
  | .epoch t => 0x500 + t
  | .sweep => 0xC00

/-- Starts a unit's grid at time `now` with period `p`. -/
def Periodic.begin (now p : Nat) : Periodic :=
  { running := true, p := p, start := now, due := now + p, grid := now + p }

/-- The period that follows one whose work completed at `now` with lag `lag` (R55); a period ends at its due time when its work is done
before that. -/
def Periodic.next (x : Periodic) (now lag p : Nat) : Periodic :=
  if lag = 0 then { x with p := p, start := x.due, due := x.due + p, grid := x.grid + p, raised := false }
  else
    let e := max now x.due
    { x with p := p, start := e, due := e + (p - min lag (p / 2)), grid := x.grid + p }

/-- The record of R57. -/
def Dev.lagRecord (d : Dev) (u : LagUnit) (lag : Nat) : Dev :=
  d.raise (vendorRec 0x0012 .warning u.code lag)

/-- A period completes at `now` with lag `lag`: its registers, its record when the lag exceeds its P, and the next period, whose P is `p`. -/
def Dev.lagDone (d : Dev) (u : LagUnit) (x : Periodic) (now lag p : Nat) : Dev × Periodic :=
  let sat := min lag 0x7FFFFFFF
  let d := d.wr u.lagReg (b2n (lag != 0) * 2 ^ 31 + sat)
  let d := d.wr u.maxReg (max (d.rd u.maxReg) sat)
  let beyond := decide (x.p < lag) && !x.raised
  let d := if beyond then d.lagRecord u lag else d
  (d, ({ x with raised := x.raised || beyond }).next now lag p)

end Sys2Proof.Machine
end

