-- ==== Sys2Proof/Machine/ChanOps.lean ====
section
/-! DEFINITION. What a DRAM channel does (chapters 9 to 11): entry into the subchannel queues, the selection of the next
command, refresh, neighbour refresh, returned reads and their accounting. -/

namespace Sys2Proof.Machine

/-! ### Names and settings -/

def chanUnit (c : Nat) : Nat := 0x800 + c

/-- Data rate in MT/s of a rate code (Table 9.2). -/
def rateMTs (code : Nat) : Nat :=
  [0, 4800, 5200, 5600, 6000, 6400, 8800, 9600, 10400, 11200, 12800].getD code 0

/-- 0 normal of the timing register the active set uses: 0 A, 1 B. -/
def Dev.activeSet (d : Dev) (c : Nat) : Nat := d.fld (.chnFchg c) F.chnFchg_ACTIVE

/-- `n` controller cycles in ns at a rate code (R237), rounded down. -/
def ccNs (code n : Nat) : Nat := n * 8000 / max 1 (rateMTs code)

def Dev.rankState (d : Dev) (c r : Nat) : Nat := d.rd (.chnRankstat c) >>> (3 * r) % 8
def Dev.setRankState (d : Dev) (c r st : Nat) : Dev :=
  d.wr (.chnRankstat c) (putBits (d.rd (.chnRankstat c)) (3 * r + 2) (3 * r) st)
/-- The rank in a state, when there is one. -/
def Dev.rankIn (d : Dev) (c st : Nat) : Option Nat := (List.range 8).find? fun r => d.rankState c r == st
/-- Ranks that are refreshed (Table 10.5). -/
def Dev.refreshedRanks (d : Dev) (c : Nat) : List Nat :=
  (List.range 8).filter fun r => let s := d.rankState c r; decide (1 ≤ s ∧ s ≤ 4) || s == 6

def Dev.poweredDown (d : Dev) (c r : Nat) : Bool := bitOf (d.rd (.chnPwrstat c)) r

/-- Devices of the channel are x8 (Table 9.14). -/
def Dev.isX8 (d : Dev) (c : Nat) : Bool := d.flag (.chnPop c) F.chnPop_WIDTH

def Dev.ageMax (d : Dev) (c : Nat) : Nat := max 1 (d.fld (.chnSched c) F.chnSched_AGE_MAX)
def Dev.wrHi (d : Dev) (c : Nat) : Nat := min 64 (d.fld (.chnSched c) F.chnSched_WR_HI)
/-- WR_LO; a value at or above WR_HI acts as WR_HI − 1 (Table 9.16). -/
def Dev.wrLo (d : Dev) (c : Nat) : Nat :=
  let lo := d.fld (.chnSched c) F.chnSched_WR_LO
  if d.wrHi c ≤ lo then d.wrHi c - 1 else lo
/-- K of R269, 8 to 16. -/
def Dev.nrfK (d : Dev) (c : Nat) : Nat := min 16 (max 8 (d.fld (.chnNrf c) F.chnNrf_K))
def Dev.forceAge (d : Dev) (c : Nat) : Nat := max 1 (d.fld (.chnNrf c) F.chnNrf_FORCE_AGE)
/-- RFM is kept (R273); MODE 3 acts as 1. -/
def Dev.rfmOn (d : Dev) (c : Nat) : Bool :=
  let m := d.fld (.chnRfm c) F.chnRfm_MODE
  m == 2 || (m != 0 && d.flag (.chnRfm c) F.chnRfm_REQ)
/-- 0 REFab, 1 REFsb, 2 adaptive; 3 acts as 2. -/
def Dev.refMode (d : Dev) (c : Nat) : Nat := min 2 (d.fld (.chnRef c) F.chnRef_MODE)

/-- Refresh period in ns that the next period gets (R266). -/
def Dev.refPeriod (d : Dev) (c : Nat) : Nat :=
  let x := d.activeSet c
  let p := ccNs (d.fld (.chnTim0 c x) F.chnTim0_RATE) (d.fld (.chnTim2 c x) F.chnTim2_REFI)
  if d.flag (.chnRef c) F.chnRef_FORCE2X || d.fld (.chnStat c) F.chnStat_TEMP != 0 then p / 2 else p

def Dev.scrubPeriod (d : Dev) (c : Nat) : Nat := max 1 (d.fld (.chnScrub c) F.chnScrub_PERIOD) * 3600000000000

/-! ### Bank keys: rank, CID, bank group and bank as sent -/

def bankKey (rank cid bg bank : Nat) : Nat := ((rank * 8 + cid) * 8 + bg) * 4 + bank
def rankOfKey (k : Nat) : Nat := k / 256
def bankOfKey (k : Nat) : Nat := k % 4

/-! ### Steering (R75, R295) -/

/-- Lines of a rank of the channel. -/
def Dev.rankLines (d : Dev) (c : Nat) : Nat := 2 ^ (d.amap c).rankBits

def Dev.spareState (d : Dev) (c : Nat) : Nat := d.fld (.chnSpare c) F.chnSpare_STATE
def Dev.copyPtr (d : Dev) (c : Nat) : Nat := d.fld (.chnSpareCp c) F.chnSpareCp_CP

/-- The entry with its DRAM coordinates on a physical rank. -/
def ChEnt.at (e : ChEnt) (a : AMap) (rank : Nat) : ChEnt :=
  let la := e.ca / 64
  let co := a.coord la
  { e with sub := co.sub, rank := rank, line := la % 2 ^ a.rankBits, bank := bankKey rank co.cid co.bgSent co.bankSent,
           row := co.row }

/-- The queue entries that an entry becomes (Table 10.6); none when its logical rank is not valid. -/
def Dev.steer (d : Dev) (c : Nat) (e : ChEnt) : List ChEnt :=
  let a := d.amap c
  let la := e.ca / 64
  match d.physRank c (a.coord la).rank with
  | none => []
  | some r =>
    let i := la % 2 ^ a.rankBits
    if d.spareState c = 1 ∧ d.rankState c r = 3 then
      match d.rankIn c 4 with
      | none => [e.at a r]
      | some t =>
        if i < d.copyPtr c then [e.at a t]
        else if i < (d.chn c).copyNext ∧ e.write then [e.at a r, e.at a t]
        else [e.at a r]
    else [e.at a r]

/-! ### Queues -/

def SubCh.queued (s : SubCh) : List ChEnt := s.rdq ++ s.wrq

/-- Drain mode after a change of the write queue (R258). -/
def SubCh.drainStep (s : SubCh) (hi lo : Nat) : SubCh :=
  if hi ≤ s.wrq.length then { s with drain := true }
  else if s.wrq.length ≤ lo then { s with drain := false }
  else s

/-- Puts an entry into its queue: in-order mode (R262, R263), drain mode, and the reads of the line that it makes stale. -/
def SubCh.enter (s : SubCh) (hi lo : Nat) (e : ChEnt) : SubCh :=
  let hits := (if e.write then s.rdq else s.wrq).filter fun x => x.bank == e.bank && x.row == e.row
  let s := if hits.isEmpty then s else
    { s with inOrder := kvMod (fun _ => []) s.inOrder e.bank fun l => l ++ (hits.map (·.id)).filter (!l.contains ·) }
  if e.write then
    let same (x : ChEnt) : Bool := x.rank == e.rank && x.line == e.line
    let mark (x : ChEnt) : ChEnt := if same x then { x with stale := true } else x
    ({ s with wrq := s.wrq ++ [e], rdq := s.rdq.map mark, flight := s.flight.map mark,
              restore := s.restore.filter fun x => !same x }).drainStep hi lo
  else { s with rdq := s.rdq ++ [e] }

/-- Changes a channel's queues, counting the drain-mode and in-order-mode entries that this brings about. -/
def Dev.modQ (d : Dev) (c : Nat) (f : Chan → Chan) : Dev :=
  let old := d.chn c
  let new := f old
  let d := d.modChn c fun _ => new
  (List.range 2).foldl (fun d i =>
    let a := old.sub i
    let b := new.sub i
    let d := if b.drain && !a.drain then d.count .drainEntry c i else d
    let n := (b.inOrder.filter fun p => (kvFind? a.inOrder p.1).isNone).length
    if n = 0 then d else d.count .inOrderEntry c i n) d

/-- Room in the queue that an entry needs. -/
def SubCh.room (s : SubCh) (write : Bool) : Bool := decide ((if write then s.wrq else s.rdq).length < 64)

/-- Restoring writes of a subchannel that wait for room and that a write drops (R284, R295). -/
def SubCh.dropped (s : SubCh) (e : ChEnt) : List ChEnt :=
  if e.write then s.restore.filter fun x => x.rank == e.rank && x.line == e.line else []

/-- The line of the copy window that an entry writes. -/
def ChEnt.copyLine (e : ChEnt) : Option Nat :=
  match e.use with
  | .copyWrite k => some k
  | _ => none

/-- Counts a restoring write: dropped or, else, in the write queue (R284). -/
def Dev.countRestore (d : Dev) (c : Nat) (e : ChEnt) (drop : Bool) : Dev :=
  match e.use with
  | .copyWrite _ => if drop then d.count .copyDrop c else d
  | .restore => if drop then d.count .correctiveDrop c else if e.data.poison then d.count .poisonWrite c else d.count .correctiveWrite c
  | _ => d

/-- Marks lines of the copy window as done. -/
def markCopied (w : List (Nat × Bool)) (ks : List Nat) : List (Nat × Bool) :=
  w.map fun p => if ks.contains p.1 then (p.1, true) else p

/-- Gives an entry its place in the order of arrival and puts it into its queue. -/
def Dev.enter (d : Dev) (c : Nat) (e : ChEnt) : Dev :=
  let ch := d.chn c
  let gone := (ch.sub e.sub).dropped e
  let d := gone.foldl (fun d x => d.countRestore c x true) d
  d.modQ c fun ch =>
    ({ ch with nextId := ch.nextId + 1, copyWin := markCopied ch.copyWin (gone.filterMap ChEnt.copyLine) }).modSub e.sub fun s =>
      s.enter (d.wrHi c) (d.wrLo c) { e with id := ch.nextId }

/-- Puts waiting corrective writes and copy writes into the write queue while there is room (R284). -/
def Dev.pullGo (d : Dev) (c i : Nat) : Nat → Dev
  | 0 => d
  | n + 1 =>
    match ((d.chn c).sub i).restore with
    | e :: rest =>
      if ((d.chn c).sub i).room true then
        let d := ((d.modChn c fun ch => ch.modSub i fun s => { s with restore := rest }).enter c e).countRestore c e false
        (d.modChn c fun ch => { ch with copyWin := markCopied ch.copyWin e.copyLine.toList }).pullGo c i n
      else d
    | [] => d

/-- Moves CP past the lines at the bottom of the copy window whose copy write has been accepted or dropped (R294). -/
def Chan.copyAdvance (w : List (Nat × Bool)) (cp : Nat) : Nat → Nat × List (Nat × Bool)
  | 0 => (cp, w)
  | n + 1 =>
    match w with
    | (i, true) :: rest => if i = cp then Chan.copyAdvance rest (cp + 1) n else (cp, w)
    | _ => (cp, w)

def Dev.copyAdvance (d : Dev) (c : Nat) : Dev :=
  let ch := d.chn c
  let (cp, w) := Chan.copyAdvance ch.copyWin (d.copyPtr c) ch.copyWin.length
  (d.modChn c fun ch => { ch with copyWin := w }).setFld (.chnSpareCp c) F.chnSpareCp_CP cp

/-- Refills the write queue of a subchannel from the waiting restoring writes. -/
def Dev.pullRestore (d : Dev) (c i : Nat) : Dev :=
  (d.pullGo c i ((d.chn c).sub i).restore.length).copyAdvance c

/-! ### Returns (R257, R282) -/

def Dev.pushRet (d : Dev) (c : Nat) (r : ChRet) : Dev :=
  let d := if (d.chn c).rets.length < (XId.chnRet c).slots then d else d.overrun (.chnRet c)
  d.modChn c fun ch => { ch with rets := ch.rets ++ [r] }

/-- The channel command crossing has a slot free (R46, R256). -/
def Dev.cmdRoom (d : Dev) (c : Nat) : Bool := decide ((d.chn c).cmds.length < (XId.chnCmd c).slots)

/-- An entry goes into a channel's command crossing. Where no slot is free the sender stalls with it (R46): it stands behind the crossing's
entries, in order. -/
def Dev.sendCmd (d : Dev) (c : Nat) (e : ChEnt) : Dev :=
  (if d.cmdRoom c then d else d.overrun (.chnCmd c)).modChn c fun ch => { ch with cmds := ch.cmds ++ [e] }

/-- The scrub period is complete when its last read has returned and what that restores has been accepted or dropped (R289). -/
def Dev.scrubCheck (d : Dev) (c : Nat) : Dev :=
  let ch := d.chn c
  let waits := ch.subs.any fun s => s.restore.any fun e => e.src == .scrub
  if ch.scrubEnd && ch.scrubOut == 0 && !waits then
    let (d, x) := d.lagDone (.scrub c) ch.scrub d.nowNs (d.nowNs - ch.scrub.grid) (d.scrubPeriod c)
    (d.modChn c fun ch => { ch with scrub := x, scrubEnd := false }).wr (.chnScrubPos c) 0
  else d

/-- A scrub read has been settled. -/
def Dev.scrubSettle (d : Dev) (c : Nat) : Dev := (d.modChn c fun ch => { ch with scrubOut := ch.scrubOut - 1 }).scrubCheck c

/-- Completes an entry that DRAM does not serve: a read with poison, a write discarded and completed normally (R245, R299). -/
def Dev.refuseEntry (d : Dev) (c : Nat) (e : ChEnt) : Dev :=
  match e.use with
  | .acc _ => d.pushRet c (if e.write then .accepted e.use else .read e.use (.uncorrectable { data := 0, md := 0 }))
  | .ley .. => d.pushRet c (if e.write then .accepted e.use else .notServed e.use)
  | .scrub => d.scrubSettle c
  | _ => d

/-- CHANNEL_COMMAND_ENTRY (R256, R257, R295): takes the head of the command crossing. -/
def Dev.commandEntry (d : Dev) (c : Nat) : Dev :=
  match (d.chn c).cmds with
  | [] => d
  | e :: rest =>
    let pop (d : Dev) : Dev := d.modChn c fun ch => { ch with cmds := rest }
    if d.chState c = 3 ∨ d.chState c = 7 then
      match d.steer c e with
      | [] => (pop d).refuseEntry c e
      | es =>
        let need (i : Nat) : Nat := (es.filter (·.sub == i)).length
        let fits (i : Nat) : Bool :=
          decide ((if e.write then ((d.chn c).sub i).wrq else ((d.chn c).sub i).rdq).length + need i ≤ 64)
        if fits 0 && fits 1 then
          let d' := (es.foldl (fun d x => d.enter c x) (pop d)).copyAdvance c
          if e.write then
            match e.use with
            | .acc _ | .ley .. => d'.pushRet c (.accepted e.use)
            | _ => d'
          else d'
        else d.setCross (.crossChn c) 1
    else (pop d).refuseEntry c e

/-! ### Neighbour refresh (R269 to R271) -/

/-- Rows next to `row` that an entry serves. -/
def neighbours (roww row : Nat) : List Nat :=
  ((if 2 ≤ row then [row - 2] else []) ++ (if 1 ≤ row then [row - 1] else []) ++ [row + 1, row + 2]).filter
    fun x => decide (x < 2 ^ roww)

/-- The draw of an activate (R269), and the entry that a hit queues. -/
def Dev.nrfDraw (d : Dev) (c i bank row : Nat) : Dev :=
  if d.flag (.chnNrf c) F.chnNrf_EN then
    let ch := d.chn c
    let hit := Config.nrfHit c ch.genWord ch.genDraws (d.nrfK c)
    let d := d.modChn c fun ch => { ch with genDraws := ch.genDraws + 1 }
    if hit then
      let d := d.modChn c fun ch => ch.modSub i fun s => { s with nrq := s.nrq ++
        [{ rank := rankOfKey bank, bank := bank, row := row, left := neighbours (d.amap c).roww row, since := d.nowNs }] }
      if ((d.chn c).sub i).nrq.length ≥ 16 then
        (d.setFlag (.chnNrfstat c) F.chnNrfstat_FULL_SEEN true).raiseLimited c
          (vendorRec 0x0508 .info (chanUnit c) (c + i * 2 ^ 8))
      else d
    else d
  else d

/-! ### Refresh (R265 to R268) -/

/-- Physical ranks in service in logical order (R266). -/
def Dev.refreshOrder (d : Dev) (c : Nat) : List Nat :=
  let inMap := (List.range 8).filterMap (d.physRank c)
  let all := d.refreshedRanks c
  inMap.filter (all.contains ·) ++ all.filter (!inMap.contains ·)

/-- Grid point of the rank at place `r` of `n` in the running period. -/
def Chan.rankGrid (ch : Chan) (n r : Nat) : Nat := ch.ref.grid - (n - 1 - r) * ch.ref.p / n

/-- The rank's refresh is forced on the subchannel. -/
def Chan.forced (ch : Chan) (i r : Nat) : Bool := ch.refForced.any (·.1 == i * 8 + r)

/-- One subchannel's refresh of a rank is done; the period ends with the last one, and the next has the P that holds then (R266). -/
def Dev.refreshDone (d : Dev) (c i r : Nat) : Dev :=
  let k := i * 8 + r
  let d := d.modChn c fun ch => { ch with
    refDone := if ch.refDone.contains k then ch.refDone else ch.refDone ++ [k],
    refForced := ch.refForced.filter (·.1 != k),
    refBanks := kvDel ch.refBanks k }
  let ch := d.chn c
  let order := d.refreshOrder c
  let lag := if ch.refDone.contains r && ch.refDone.contains (8 + r) then
      d.nowNs - ch.rankGrid order.length (order.idxOf r) else 0
  let d := d.modChn c fun ch => { ch with refLag := max ch.refLag lag }
  let ch := d.chn c
  if order.all fun r => ch.refDone.contains r && ch.refDone.contains (8 + r) then
    let (d, x) := d.lagDone (.refresh c) ch.ref d.nowNs ch.refLag (d.refPeriod c)
    d.modChn c fun ch => { ch with ref := x, refDone := [], refForced := [], refBanks := [], refLag := 0 }
  else d

/-- The rank has an entry queued on the subchannel. -/
def SubCh.rankBusy (s : SubCh) (r : Nat) : Bool := s.queued.any (·.rank == r)
def SubCh.bankBusy (s : SubCh) (k : Nat) : Bool := s.queued.any (·.bank == k)
/-- The key of an open row of a rank. -/
def SubCh.openRow (s : SubCh) (k : Nat) : Option Nat := kvFind? s.rows k

/-! ### Command selection (Table 9.10) -/

/-- What a command slot issues. -/
inductive ChAct where
  /-- completes an entry of a retired rank without a command (R299) -/
  | retire (e : ChEnt)
  | pre (bank : Nat)
  | act (e : ChEnt)
  | col (e : ChEnt)
  | refAb (r : Nat)
  | refSb (r b : Nat)
  | rfm (bank : Nat)
  | nrAct (e : NrEnt)
  | nrPre (bank : Nat)
  | pdx (r : Nat)
  | zqCal (r : Nat)
  | mrr (r : Nat)
  deriving DecidableEq, Repr

/-- The rank that a command goes to. -/
def ChAct.rank : ChAct → Nat
  | .retire e | .act e | .col e => e.rank
  | .pre b | .rfm b | .nrPre b => rankOfKey b
  | .refAb r | .refSb r _ | .pdx r | .zqCal r | .mrr r => r
  | .nrAct e => e.rank

/-- A command as the timing set bounds it: bank key × 16 + kind (0 precharge, 1 activate, 2 read, 3 write, 4 REFab, 5 REFsb, 6 RFM,
7 power-down exit, 8 ZQ calibration, 9 mode register read); none for what is no command. -/
def ChAct.code : ChAct → Option Nat
  | .retire _ => none
  | .pre b | .nrPre b => some (b * 16)
  | .act e => some (e.bank * 16 + 1)
  | .nrAct e => some (e.bank * 16 + 1)
  | .col e => some (e.bank * 16 + (if e.write then 3 else 2))
  | .refAb r => some (bankKey r 0 0 0 * 16 + 4)
  | .refSb r b => some (bankKey r 0 0 b * 16 + 5)
  | .rfm b => some (b * 16 + 6)
  | .pdx r => some (bankKey r 0 0 0 * 16 + 7)
  | .zqCal r => some (bankKey r 0 0 0 * 16 + 8)
  | .mrr r => some (bankKey r 0 0 0 * 16 + 9)

/-- The activate count of a bank has reached its maximum: no activate to it (R273). -/
def Dev.rfmFull (d : Dev) (c : Nat) (s : SubCh) (k : Nat) : Bool :=
  d.rfmOn c && decide (Config.rfmMax c ≤ kvGet (fun _ => 0) s.raa k) && decide (0 < kvGet (fun _ => 0) s.raa k)

/-- The entry may receive a command: in an in-order bank only the oldest queued entry may (R262). -/
def SubCh.allowed (s : SubCh) (e : ChEnt) : Bool :=
  if (kvGet (fun _ => []) s.inOrder e.bank).isEmpty then true
  else s.queued.all fun x => x.bank != e.bank || decide (e.id ≤ x.id)

/-- The entry's column command may issue: no older entry has been passed AGE_MAX times (R261). -/
def Dev.mayCol (d : Dev) (c : Nat) (s : SubCh) (e : ChEnt) : Bool :=
  s.allowed e && !(s.queued.any fun x => decide (x.id < e.id) && decide (d.ageMax c ≤ x.age))

/-- Bank indices of a rank that its refresh still has to cover by REFsb. -/
def Dev.refBanksLeft (d : Dev) (c i r : Nat) : List Nat :=
  let covered := kvGet (fun _ => []) (d.chn c).refBanks (i * 8 + r)
  (List.range (2 ^ (d.amap c).baw)).filter (!covered.contains ·)

/-- A rank is refreshed by REFsb now: none of its banks, or those of the list (R265). -/
def Dev.refBy (d : Dev) (c i r : Nat) : List Nat :=
  if d.refMode c == 1 || (d.refMode c == 2 && ((d.chn c).sub i).rankBusy r) then d.refBanksLeft c i r else []

/-- The commands that lead to a refresh of a rank, of bank index `b` alone or of all: the rank wakes, what is open there is precharged
once the column commands that `keep` names have issued, then REFsb or REFab (R267, R308). -/
def Dev.refreshActs (d : Dev) (c i r : Nat) (b : Option Nat) (keep : Nat → Nat → Bool) : List ChAct :=
  let s := (d.chn c).sub i
  let covers (k : Nat) : Bool := rankOfKey k == r && (match b with | some b => bankOfKey k == b | none => true)
  if d.poweredDown c r then [.pdx r]
  else match s.nrOpen.filter covers with
    | some k => [.nrPre k]
    | none => match s.rows.filter fun p => covers p.1 with
      | [] => [match b with | some b => .refSb r b | none => .refAb r]
      | l => (l.filter fun p => !keep p.1 p.2).map fun p => .pre p.1

/-- Row 1: forced refreshes, in the order in which they fell due. Open rows stay until the column commands that were queued for them at
the due time have issued (R267). -/
def Dev.row1 (d : Dev) (c i : Nat) : List ChAct :=
  let ch := d.chn c
  let s := ch.sub i
  ch.refForced.flatMap fun p =>
    if p.1 / 8 = i ∧ (d.refreshedRanks c).contains (p.1 % 8) then
      let keep (bank row : Nat) : Bool := s.queued.any fun e => e.bank == bank && e.row == row && decide (e.id < p.2) && d.mayCol c s e
      d.refreshActs c i (p.1 % 8) (d.refBy c i (p.1 % 8)).head? keep
    else []

/-- Between rows 1 and 2: the maintenance operation that waits longest (R252, R259). -/
def Dev.maintAct (d : Dev) (c i : Nat) : List ChAct :=
  match (d.chn c).maint with
  | [] => []
  | m :: _ =>
    if !m.left.contains i then []
    else [if d.poweredDown c m.rank then .pdx m.rank else if m.zq then .zqCal m.rank else .mrr m.rank]

/-- An RFM that bank `k` calls for covers bank `x`: its bank index of the rank as RFMsb where the devices support it, else the rank
(R273). -/
def rfmCovers (c k x : Nat) : Bool := rankOfKey x == rankOfKey k && (!Config.rfmSb c || bankOfKey x == bankOfKey k)

/-- The commands of an RFM that bank `k` calls for: the rank wakes, and the rows that are open in what it covers are precharged first
(R260, R273). -/
def Dev.rfmActs (d : Dev) (c : Nat) (s : SubCh) (k : Nat) : List ChAct :=
  if d.poweredDown c (rankOfKey k) then [.pdx (rankOfKey k)]
  else match s.nrOpen.filter (rfmCovers c k) with
    | some b => [.nrPre b]
    | none => match s.rows.filter fun p => rfmCovers c k p.1 with
      | [] => [.rfm k]
      | l => l.map fun p => .pre p.1

/-- The next command of a neighbour-refresh entry (R270): the row that another holds open is closed first, and the bank's own. No new
activate goes to a rank whose refresh is forced (R267). -/
def Dev.nrNext (d : Dev) (c i : Nat) (e : NrEnt) : Option ChAct :=
  let ch := d.chn c
  let s := ch.sub i
  match s.nrOpen with
  | some k => some (.nrPre k)
  | none =>
    if ch.forced i e.rank then none
    else if d.poweredDown c e.rank then some (.pdx e.rank)
    else match s.openRow e.bank with
      | some _ => some (.pre e.bank)
      | none => some (.nrAct e)

/-- The next row command for an entry whose row is not open, when one may issue: it wakes its rank, closes what is open in its bank, or
activates. New activates to a rank whose refresh is forced stop (R267), those of a subchannel whose neighbour queue is full (R271), and
those of a bank whose RFM count is full (R273). -/
def Dev.rowAct (d : Dev) (c i : Nat) (e : ChEnt) : Option ChAct :=
  let ch := d.chn c
  let s := ch.sub i
  if ch.forced i e.rank then none
  else if d.poweredDown c e.rank then some (.pdx e.rank)
  else if s.nrOpen = some e.bank then some (.nrPre e.bank)
  else match s.openRow e.bank with
    | some _ => some (.pre e.bank)
    | none => if 16 ≤ s.nrq.length || d.rfmFull c s e.bank then none else some (.act e)

/-- The next command for an entry: its column command when its row is open, else a row command. -/
def Dev.entryAct (d : Dev) (c i : Nat) (e : ChEnt) : Option ChAct :=
  let s := (d.chn c).sub i
  if s.openRow e.bank = some e.row ∧ !d.poweredDown c e.rank then (if d.mayCol c s e then some (.col e) else none) else d.rowAct c i e

/-- Oldest first. -/
def byAge (l : List ChEnt) : List ChEnt :=
  l.foldr (fun e acc => (acc.filter fun x => decide (x.id < e.id)) ++ e :: acc.filter fun x => !decide (x.id < e.id)) []

/-- Earliest first; of two with one time, the one that is listed first. -/
def byTime : List (Nat × List ChAct) → List ChAct
  | [] => []
  | l@(_ :: _) =>
    (l.foldr (fun p acc => (acc.filter fun x => decide (x.1 < p.1)) ++ p :: acc.filter fun x => !decide (x.1 < p.1)) []).flatMap (·.2)

/-- Row 4: urgent entries, reads and writes alike, oldest first. -/
def Dev.row4 (d : Dev) (c i : Nat) : List ChAct :=
  let s := (d.chn c).sub i
  ((byAge s.queued).filter fun e => decide (d.ageMax c ≤ e.age) && s.allowed e).filterMap (d.entryAct c i)

/-- Row 5: refresh, RFM and neighbour refresh that is due, where no entry is queued for the rank or bank; the oldest first. A rank in
power-down is not woken for refresh (R308). -/
def Dev.row5 (d : Dev) (c i : Nat) : List ChAct :=
  let ch := d.chn c
  let s := ch.sub i
  let due := ch.ref.running && decide (ch.ref.start ≤ d.nowNs)
  let sbBusy (r b : Nat) : Bool := s.queued.any fun e => e.rank == r && bankOfKey e.bank == b
  let refs := ((d.refreshOrder c).filter fun r => due && !ch.refDone.contains (i * 8 + r) && !d.poweredDown c r).flatMap fun r =>
    match d.refBy c i r with
    | [] => if s.rankBusy r then [] else d.refreshActs c i r none fun _ _ => false
    | l => (l.filter (!sbBusy r ·)).flatMap fun b => d.refreshActs c i r (some b) fun _ _ => false
  let rfms := if d.rfmOn c then (s.rfmDue.filter fun p => !s.queued.any fun e => rfmCovers c p.1 e.bank).map fun p => (p.2, d.rfmActs c s p.1) else []
  let nrs := (s.nrq.filter fun e => !s.bankBusy e.bank).map fun e => (e.since, (d.nrNext c i e).toList)
  byTime ((ch.ref.start, refs) :: rfms ++ nrs)

/-- Row 6 or 7 of Table 9.10 for one class: column commands to open rows, then the row command for the oldest entry that needs one. -/
def Dev.classActs (d : Dev) (c i : Nat) (q : List ChEnt) : List ChAct :=
  let s := (d.chn c).sub i
  let ok := (byAge q).filter s.allowed
  let hit (e : ChEnt) : Bool := !d.poweredDown c e.rank && s.openRow e.bank == some e.row
  ((ok.filter fun e => hit e && d.mayCol c s e).map ChAct.col) ++ (((ok.find? fun e => !hit e).bind (d.rowAct c i)).toList)

/-- The commands that a slot of subchannel `i` may issue, in the order of Table 9.10. A rank under maintenance gets no other command than
its forced refresh (R252). -/
def Dev.candidates (d : Dev) (c i : Nat) : List ChAct :=
  let ch := d.chn c
  let s := ch.sub i
  let forcedNr := s.nrq.filter fun e => decide (12 ≤ s.nrq.length) || decide (d.forceAge c ≤ e.acts)
  let prim := if s.drain then s.wrq else s.rdq
  let sec := if s.drain then s.rdq else s.wrq
  let rest := (if d.rfmOn c then s.rfmFull.flatMap (d.rfmActs c s) else []) ++ forcedNr.filterMap (d.nrNext c i) ++ d.row4 c i ++ d.row5 c i ++
    d.classActs c i prim ++ d.classActs c i sec
  ((s.queued.filter fun e => d.rankState c e.rank == 6).map ChAct.retire) ++ d.row1 c i ++ d.maintAct c i ++
    rest.filter fun a => ch.maint.all fun m => m.rank != a.rank

/-- The command that a slot of subchannel `i` issues (R259): the first that the timing set allows. `held`: the commands, as `ChAct.code`
gives them, that it does not allow in this slot. -/
def Dev.selectCmd (d : Dev) (c i : Nat) (held : List Nat) : Option ChAct :=
  (d.candidates c i).find? fun a => match a.code with
    | some k => !held.contains k
    | none => true

/-! ### Issue -/

def Dev.dropEntry (d : Dev) (c i : Nat) (e : ChEnt) : Dev :=
  let hi := d.wrHi c
  let lo := d.wrLo c
  d.modQ c fun ch => ch.modSub i fun s =>
    let io := s.inOrder.filterMap fun p =>
      let l := p.2.filter (· != e.id)
      if l.isEmpty then none else some (p.1, l)
    ({ s with rdq := s.rdq.filter (·.id != e.id), wrq := s.wrq.filter (·.id != e.id), inOrder := io }).drainStep hi lo

/-- A command on both command buses of a channel. -/
def Dev.onBoth (d : Dev) (c : Nat) (cmd : DimmCmd) : Dev := (d.emit (.dimm c 0 cmd)).emit (.dimm c 1 cmd)

/-- A rank enters power-down. -/
def Dev.enterPd (d : Dev) (c r : Nat) : Dev :=
  (((d.setBit (.chnPwrstat c) r true).count .powerDown c r).modChn c fun ch => { ch with pdSince := kvIns ch.pdSince r d.clk }).onBoth c (.pde r)

/-- Controller cycles that a rank has spent in a power-down that has not ended. -/
def Dev.pdCycles (d : Dev) (c r : Nat) : Nat :=
  (d.clk - kvGet (fun _ => d.clk) (d.chn c).pdSince r) * rateMTs (d.fld (.chnStat c) F.chnStat_RATE) / 6400

/-- What a subchannel holds for a rank beside its queues goes: the rank gets no further command. -/
def SubCh.forget (r : Nat) (s : SubCh) : SubCh :=
  let keep (k : Nat) : Bool := rankOfKey k != r
  { s with rows := s.rows.filter (keep ·.1), nrq := s.nrq.filter (·.rank != r), nrOpen := s.nrOpen.filter keep,
           raa := s.raa.filter (keep ·.1), rfmDue := s.rfmDue.filter (keep ·.1), rfmFull := s.rfmFull.filter keep }

/-- A source rank whose last queued entry has issued becomes failed and powers down, its open rows precharged (R297). -/
def Dev.failDrained (d : Dev) (c : Nat) : Dev :=
  let ch := d.chn c
  let done := ch.failing.filter fun r => ch.subs.all fun s => !s.rankBusy r && !(s.restore.any (·.rank == r))
  done.foldl (fun d r =>
    let d := (List.range 2).foldl (fun d i =>
      let s := (d.chn c).sub i
      ((s.rows.map (·.1) ++ s.nrOpen.toList).filter (rankOfKey · == r)).foldl (fun d k => d.emit (.dimm c i (.pre k))) d) d
    ((d.setRankState c r 5).enterPd c r).modChn c fun ch =>
      { ch with failing := ch.failing.filter (· != r), maint := ch.maint.filter (·.rank != r), subs := ch.subs.map (SubCh.forget r) }) d

/-- Records of an access to a retired rank (R299). -/
def Dev.retiredRecord (d : Dev) (c : Nat) (e : ChEnt) : Dev :=
  d.raiseLimited (c * 8 + e.rank)
    { vendorRec 0x0545 .failure (chanUnit c) (c + e.rank * 2 ^ 8 + b2n e.write * 2 ^ 11) with
      addr0 := e.dpa, addr1 := e.sa, ld := e.ld }

/-- Keeps the order in which banks reached a threshold: those that are still there, then the new ones. -/
def SubCh.rfmNote (ini mx now : Nat) (s : SubCh) : SubCh :=
  let at_ (th k : Nat) : Bool := let n := kvGet (fun _ => 0) s.raa k; decide (th ≤ n) && decide (0 < n)
  let due := s.rfmDue.filter fun p => at_ ini p.1
  let full := s.rfmFull.filter (at_ mx)
  let banks := s.raa.map (·.1)
  { s with rfmDue := due ++ ((banks.filter fun k => at_ ini k && !due.any (·.1 == k)).map fun k => (k, now)),
           rfmFull := full ++ banks.filter fun k => at_ mx k && !full.contains k }

/-- Changes the rolling activate counts of a subchannel (R273). -/
def Dev.modRaa (d : Dev) (c i : Nat) (f : List (Nat × Nat) → List (Nat × Nat)) : Dev :=
  d.modChn c fun ch => ch.modSub i fun s => ({ s with raa := f s.raa }).rfmNote (Config.rfmInit c) (Config.rfmMax c) d.nowNs

/-- An activate to a bank on the books: the rolling count while RFM is kept, and the age of its bank's neighbour entries. -/
def Dev.countAct (d : Dev) (c i bank : Nat) : Dev :=
  let d := if d.rfmOn c then d.modRaa c i fun l => kvMod (fun _ => 0) l bank (· + 1) else d
  (d.count .chnAct c i).modChn c fun ch => ch.modSub i fun s =>
  { s with nrq := s.nrq.map fun e => if e.bank = bank then { e with acts := e.acts + 1 } else e }

/-- Takes `dec` off the rolling counts of the banks that a refresh covers. -/
def raaLess (dec : Nat) (covers : Nat → Bool) (l : List (Nat × Nat)) : List (Nat × Nat) :=
  l.filterMap fun p => if covers p.1 then (if p.2 ≤ dec then none else some (p.1, p.2 - dec)) else some p

/-- A rank leaves power-down (R307): the controller cycles that it has spent there are counted. -/
def Dev.powerUp (d : Dev) (c r : Nat) : Dev :=
  ((d.setBit (.chnPwrstat c) r false).count .powerDownTime c r (d.pdCycles c r)).modChn c fun ch => { ch with pdSince := kvDel ch.pdSince r }

/-- The column command of an entry: it leaves its queue, those older have been passed once more, and the devices are written, or a burst
is on its way. With PAGE_IDLE 0 it precharges by itself (R260). -/
def Dev.column (m : Dram) (d : Dev) (c i : Nat) (e : ChEnt) : Dev :=
  let modS (f : SubCh → SubCh) (d : Dev) : Dev := d.modChn c fun ch => ch.modSub i f
  let d := d.dropEntry c i e
  let turned := (((d.chn c).sub i).queued.filter fun x => decide (x.id < e.id) && x.age + 1 == d.ageMax c).length
  let d := modS (fun s =>
    let older (x : ChEnt) : ChEnt := if x.id < e.id then { x with age := x.age + 1 } else x
    { s with rdq := s.rdq.map older, wrq := s.wrq.map older }) d
  let d := if turned = 0 then d else d.count .urgentEntry c i turned
  let d := if e.acted then d else d.count .rowHit c i
  let col := ((d.amap c).coord (e.ca / 64)).col * 16
  let d := if e.write then
      let cw := encode e.data
      (((d.count .chnWrite c i).emit (.dimm c i (.wr e.bank col (BitVec.ofNat 640 (burstOf (d.isX8 c) cw.toNat)))))).lineWrite c e.rank e.line cw
    else
      modS (fun s => { s with flight := s.flight ++ [{ e with cap := d.lineRead m c e.rank e.line }] })
        ((d.count .chnRead c i).emit (.dimm c i (.rd e.bank col)))
  let d := if d.fld (.chnSched c) F.chnSched_PAGE_IDLE = 0 then modS (fun s => { s with rows := kvDel s.rows e.bank }) d else d
  ((d.pullRestore c i).scrubCheck c).failDrained c

/-- A maintenance command issues on a subchannel; with the last, the operation lets go of its rank (R252). -/
def Dev.maintDone (d : Dev) (c i r : Nat) : Dev :=
  d.modChn c fun ch => { ch with maint := (ch.maint.map fun m =>
    if m.rank = r then { m with left := m.left.filter (· != i) } else m).filter fun m => !m.left.isEmpty }

/-- REFab of a rank on a subchannel: what it takes off the activate counts, and its part of the rank's refresh (R265, R273). -/
def Dev.refAb (d : Dev) (c i r : Nat) : Dev :=
  (((d.count .refAb c).modRaa c i (raaLess (Config.rfmRefresh c) fun k => rankOfKey k == r)).emit (.dimm c i (.refAb r))).refreshDone c i r

/-- The precharge that closes the row of a neighbour refresh: entries with all their rows served are done (R270). -/
def Dev.nrClose (d : Dev) (c i k : Nat) : Dev :=
  let n := (((d.chn c).sub i).nrq.filter fun x => x.left.isEmpty).length
  let d := if n = 0 then d else d.count .neighbourRef c 0 n
  (d.modChn c fun ch => ch.modSub i fun s => { s with nrOpen := none, nrq := s.nrq.filter fun x => !x.left.isEmpty }).emit (.dimm c i (.pre k))

/-- Issues a selected command. -/
def Dev.issue (m : Dram) (d : Dev) (c i : Nat) (a : ChAct) : Dev :=
  let modS (f : SubCh → SubCh) (d : Dev) : Dev := d.modChn c fun ch => ch.modSub i f
  let put (cmd : DimmCmd) (d : Dev) : Dev := d.emit (.dimm c i cmd)
  match a with
  | .retire e => ((d.dropEntry c i e).refuseEntry c (if e.write then { e with use := .fire } else e)).retiredRecord c e
  | .pre b => put (.pre b) (modS (fun s => { s with rows := kvDel s.rows b }) d)
  | .act e =>
    let mark (x : ChEnt) : ChEnt := if x.id = e.id then { x with acted := true } else x
    let d := modS (fun s => { s with rows := kvIns s.rows e.bank e.row, rdq := s.rdq.map mark, wrq := s.wrq.map mark }) d
    (put (.act e.bank e.row) (d.countAct c i e.bank)).nrfDraw c i e.bank e.row
  | .col e => d.column m c i e
  | .refAb r =>
    (if (d.chn c).forced i r then d.count .forcedRef c else d).refAb c i r
  | .refSb r b =>
    let d := (if (d.chn c).forced i r then d.count .forcedRef c else d).count .refSb c
    let d := d.modRaa c i (raaLess (Config.rfmRefresh c) fun k => rankOfKey k == r && bankOfKey k == b)
    let d := put (.refSb r b) (d.modChn c fun ch => { ch with
      refBanks := kvMod (fun _ => []) ch.refBanks (i * 8 + r) (· ++ [b]) })
    if (d.refBanksLeft c i r).isEmpty then d.refreshDone c i r else d
  | .rfm k => put (if Config.rfmSb c then .rfmSb (rankOfKey k) (bankOfKey k) else .rfmAb (rankOfKey k))
      ((d.count .rfm c).modRaa c i (raaLess (max 1 (Config.rfmInit c)) (rfmCovers c k)))
  | .nrAct e =>
    match e.left with
    | row :: rest =>
      let served (x : NrEnt) : NrEnt :=
        if x.bank = e.bank ∧ x.row = e.row ∧ x.left = e.left then { x with left := rest } else x
      put (.act e.bank row) (modS (fun s => { s with nrOpen := some e.bank, nrq := s.nrq.map served }) (d.countAct c i e.bank))
    | [] => modS (fun s => { s with nrq := s.nrq.filter fun x => !x.left.isEmpty }) d
  | .nrPre k => d.nrClose c i k
  | .pdx r => (d.powerUp c r).onBoth c (.pdx r)
  | .zqCal r => put (.zqCal r) (d.maintDone c i r)
  | .mrr r => put (.mrr r) (d.maintDone c i r)

/-- COMMAND_ISSUE (R259): one command slot of a subchannel. Nothing issues outside STATE 3 or during a frequency change
(R304). -/
def Dev.commandIssue (m : Dram) (d : Dev) (c i : Nat) (held : List Nat) : Dev :=
  if d.chState c = 3 ∧ (d.chn c).fchg = .idle then
    match d.selectCmd c i held with
    | some a => d.issue m c i a
    | none => d
  else d

/-! ### Error accounting (R285 to R287) and sparing (R293) -/

def Dev.spareEvent (d : Dev) (c ty detail : Nat) (sev : Sev) : Dev :=
  d.raise (vendorRec ty sev (chanUnit c) (c + detail))

/-- Why a spare copy of rank `r` cannot start: 0 no spare (EN is 0, or RANK names no rank that is held as spare), 1 copy in progress, 2 spare used, 3 channel not in service; a rank
that is not in service counts as 3 (log entry 12). -/
def Dev.spareRefusal (d : Dev) (c r : Nat) : Option Nat :=
  if d.spareState c = 1 then some 1
  else if d.spareState c = 2 then some 2
  else if !d.flag (.chnSpare c) F.chnSpare_EN || d.rankState c (d.fld (.chnSpare c) F.chnSpare_RANK) != 2 then some 0
  else if d.chState c != 3 || d.rankState c r != 1 then some 3
  else none

/-- Starts a spare copy of rank `r` onto the spare (R293). -/
def Dev.spareBegin (d : Dev) (c r cause : Nat) : Dev :=
  let t := d.fld (.chnSpare c) F.chnSpare_RANK
  let d := ((d.setRankState c r 3).setRankState c t 4).setFld (.chnSpare c) F.chnSpare_STATE 1
  let d := d.setFld (.chnSpareCp c) F.chnSpareCp_CP 0
  let d := d.modChn c fun ch => { ch with copyWin := [], copyNext := 0, copyPoison := 0, copyEnded := false }
  d.spareEvent c 0x0541 (r * 2 ^ 8 + t * 2 ^ 12 + cause * 2 ^ 16) .warning

/-- A threshold of rank `r` (R293, R298): starts a copy, or reports that sparing is not possible. -/
def Dev.spareThreshold (d : Dev) (c r cause : Nat) (auto : Bool) : Dev :=
  match d.spareRefusal c r with
  | none => if auto then d.spareBegin c r cause else d
  | some why =>
    if auto || d.spareState c != 0 then d.spareEvent c 0x0543 (r * 2 ^ 8 + why * 2 ^ 16) .failure else d

/-- Where an entry was sent, as DRAM Event Records carry it (Table 10.4): channel, rank, bank group, bank, row, column. The descriptor of
such a record has bit 0 for an uncorrectable event and bit 1 for a threshold event. -/
def Dev.dramPlace (d : Dev) (c : Nat) (e : ChEnt) : List Nat :=
  let co := (d.amap c).coord (e.ca / 64)
  [c, e.rank, co.bgSent, co.bankSent, co.row, co.col * 16]

/-- The place of a source in counts by source: outcome × 6 + this. -/
def RdSource.code : RdSource → Nat
  | .host => 0 | .hostMerge => 1 | .scrub => 2 | .internal => 3 | .map => 4 | .copy => 5

/-- The standard's transaction types of Table 10.4 (PRESUMED codes of the standard, log entry 13). -/
def RdSource.txType : RdSource → Nat
  | .host => 1 | .hostMerge => 2 | .scrub => 5 | .internal => 6 | .map => 6 | .copy => 6

/-- A corrected read (R285, R286). -/
def Dev.countCe (d : Dev) (c : Nat) (e : ChEnt) (dev : Nat) : Dev :=
  let r := e.rank
  let old := d.fld (.chnEccRank c r) F.chnEccRank_CE
  let d := d.bumpFld (.chnEccRank c r) F.chnEccRank_CE
  let d := d.modChn c fun ch => { ch with devCe := kvMod (fun _ => 0) ch.devCe (r * 16 + dev) (· + 1) }
  let n (x : Nat) : Nat := kvGet (fun _ => 0) (d.chn c).devCe (r * 16 + x)
  let best := (List.range 10).foldl (fun b x => if n b < n x then x else b) 0
  let d := d.setFld (.chnEccRank c r) F.chnEccRank_DEV best
  let th := d.fld (.chnEccCtrl c) F.chnEccCtrl_CE_THRESH
  if th ≠ 0 ∧ old < th ∧ th ≤ d.fld (.chnEccRank c r) F.chnEccRank_CE then
    let d := d.setFlag (.chnEccRank c r) F.chnEccRank_CE_HIT true
    let mask := if d.isX8 c then 3 <<< (2 * best) else 1 <<< best
    let d := d.raise { kind := .dram, ty := 0, sev := .warning, unit := chanUnit c,
                       data := [2, e.src.txType, mask] ++ d.dramPlace c e }
    d.spareThreshold c r 1 (d.flag (.chnEccCtrl c) F.chnEccCtrl_AUTO_CE)
  else d

/-- An uncorrectable read (R285 to R287). Records of one rank within 1 ms of the last raised are only counted. -/
def Dev.countUe (d : Dev) (c : Nat) (e : ChEnt) : Dev :=
  let r := e.rank
  let old := d.fld (.chnEccRank c r) F.chnEccRank_UE
  let d := d.bumpFld (.chnEccRank c r) F.chnEccRank_UE
  let key := 0x10000 * 2 ^ 64 + c * 8 + r
  let quiet := match kvFind? d.logs.last key with
    | some (t, _) => decide (d.clk < t + 800000)
    | none => false
  let d := if quiet then d else
    let d := { d with logs := { d.logs with last := kvIns d.logs.last key (d.clk, 0) } }
    let withDpa := match e.src with | .host | .hostMerge => true | .internal => decide (e.ld < 16) | _ => false
    let d := if withDpa then
        d.raise { kind := .generalMedia, ty := 0, sev := .failure, ld := e.ld, unit := chanUnit c, addr0 := e.dpa,
                  data := [e.src.txType] }
      else d
    d.raise { kind := .dram, ty := 0, sev := .failure, ld := if withDpa then e.ld else 0xFF, unit := chanUnit c,
              addr0 := if withDpa then e.dpa else 0, data := [1, e.src.txType, 0] ++ d.dramPlace c e }
  let th := max 1 (d.fld (.chnEccCtrl c) F.chnEccCtrl_UE_THRESH)
  if old < th ∧ th ≤ d.fld (.chnEccRank c r) F.chnEccRank_UE then
    (d.setFlag (.chnEccRank c r) F.chnEccRank_UE_HIT true).spareThreshold c r 0
      (d.flag (.chnEccCtrl c) F.chnEccCtrl_AUTO_UE)
  else d

/-! ### Returned bursts (R280 to R284, R289, R294) -/

def CwOut.payload : CwOut → Payload
  | .clean p => p
  | .corrected p _ => p
  | .uncorrectable p => p

/-- A write that restores a line at the place it was read from. -/
def Dev.restoreWrite (d : Dev) (c i : Nat) (e : ChEnt) : Dev :=
  (d.modChn c fun ch => ch.modSub i fun s => { s with restore := s.restore ++ [e] }).pullRestore c i

/-- The copy write that follows a copy read (R294). -/
def Dev.copySettle (d : Dev) (c k : Nat) (e : ChEnt) (o : CwOut) : Dev :=
  let finish (d : Dev) : Dev :=
    (d.modChn c fun ch => { ch with copyWin := markCopied ch.copyWin [k] }).copyAdvance c
  if d.spareState c != 1 then d
  else if e.stale then finish (d.count .copyDrop c)
  else match d.rankIn c 4 with
    | none => finish d
    | some t =>
      let p := match o with
        | .uncorrectable p => poisonOf p
        | .clean p | .corrected p _ => p
      let d := match o with
        | .uncorrectable _ => (d.count .poisonWrite c).modChn c fun ch => { ch with copyPoison := ch.copyPoison + 1 }
        | _ => d
      let w := ({ e with write := true, data := p, use := .copyWrite k, stale := false, age := 0, acted := false }).at (d.amap c) t
      d.restoreWrite c e.sub w

/-- What the burst of entry `e` brings about beside its return: the counts and records of R285 to R287, and the write that
restores the line where one is due (R284, R289); a failed rank receives none (R297). -/
def Dev.burstNoted (d : Dev) (c i : Nat) (e : ChEnt) (o : CwOut) : Dev :=
  let d := match o with
    | .clean _ => d.count .cwRead c e.src.code
    | .corrected _ dev => ((d.count .cwRead c (6 + e.src.code)).count .cwDevice c dev).countCe c e dev
    | .uncorrectable _ => (d.count .cwRead c (12 + e.src.code)).countUe c e
  let gleaner := match e.use with | .scrub | .copyRead _ => true | _ => false
  let back : Option Payload := match o with
    | .clean _ => none
    | .corrected p _ => if gleaner || d.flag (.chnEccCtrl c) F.chnEccCtrl_DEMAND_WB then some p else none
    | .uncorrectable p => if d.flag (.chnEccCtrl c) F.chnEccCtrl_UE_MARK then some (poisonOf p) else none
  match back with
  | none => d
  | some p =>
    let w : ChEnt := { e with write := true, data := p, use := .restore, age := 0, acted := false }
    if e.stale || d.rankState c e.rank == 5 then d.countRestore c w true else d.restoreWrite c i w

/-- CODEWORD_READ (R280 to R287): the oldest burst in flight on the subchannel is captured with the bus errors `err`, given as
16 beats of 40 bits, decoded and returned. An `ignored` codeword (row 1 of Table 8.5) is neither counted, recorded nor
marked (DEDUCED, log entry 80). -/
def Dev.codewordRead (d : Dev) (c i : Nat) (err : BitVec 640) (ignored : Bool) : Dev :=
  match ((d.chn c).sub i).flight with
  | [] => d
  | e :: rest =>
    let x8 := d.isX8 c
    let word := if err = 0 then e.cap else e.cap ^^^ BitVec.ofNat 640 (unburst x8 err.toNat)
    let o := decodeWord x8 word
    let d := d.modChn c fun ch => ch.modSub i fun s => { s with flight := rest }
    let d := if ignored then d else d.burstNoted c i e o
    match e.use with
    | .scrub => d.scrubSettle c
    | .copyRead k => d.copySettle c k e o
    | .acc _ | .ley .. => d.pushRet c (.read e.use o)
    | _ => d

end Sys2Proof.Machine
end

