-- ==== Sys2Proof/Machine/CipherOps.lean ====
section
/-! DEFINITION. Encryption and integrity (chapter 8): placing a line in storage, counter lines and their copies, line
accesses at the cipher units, re-encryption, erasing, lost counter lines; entries for cascade members and the fold list. -/

namespace Sys2Proof.Machine

/-! ### Where a line is stored (R69 to R73, R212) -/

inductive Place where
  | fault
  /-- the set's counter region is being written -/
  | wait
  | here (c ca : Nat)
  | member (dev c ca : Nat)
  deriving DecidableEq, Repr

def Dev.place (d : Dev) (sa : Nat) : Place :=
  match d.setOf sa with
  | none => .fault
  | some n =>
    if !d.setReady n then .wait else
    match d.setGeo n with
    | none => .fault
    | some g =>
      let (k, ca) := g.place sa
      let dev := d.fld (.casTgt k) F.casTgt_DEV
      let c := d.fld (.casTgt k) F.casTgt_CHAN
      if dev ≠ 0 then .member dev c ca
      else if ca < d.usable c then .here c ca else .fault

def Dev.memState (d : Dev) (dev : Nat) : Nat := d.fld (.casMember dev) F.casMember_STATE
def Dev.memPort (d : Dev) (dev : Nat) : Nat := d.fld (.casMember dev) F.casMember_PORT

/-- Quarter of the cipher unit that serves a place (R11), and its unit number (Table 18.2). -/
def Dev.placeQ (d : Dev) : Place → Nat
  | .here c _ => quarterOfChan c
  | .member dev _ _ => d.memPort dev
  | _ => 0
def Dev.placeUnit (d : Dev) : Place → Nat
  | .here c _ => 0x700 + c
  | .member dev _ _ => 0x718 + d.memPort dev
  | _ => 0x700

/-- SA of the counter line of a frame (R210). -/
def Dev.ctrSaOf (d : Dev) (frame : Nat) : Option Nat :=
  match d.setOf (frame * 4096) with
  | none => none
  | some n => (d.setGeo n).map fun g => g.ctrSa frame

/-! ### What a frame holds -/

/-- The LD and the field whose flat storage holds a frame. -/
def Dev.flatField (d : Dev) (frame : Nat) : Option (Nat × Nat) :=
  (List.range 16).findSome? fun n =>
    let base := d.fld (.tedLdflat n) F.tedLdflat_BASE
    let k := d.fld (.tedLdcap n) F.tedLdcap_COMMIT
    let f := frame / 512
    if d.winEn n ∧ !d.flag (.tedLdcap n) F.tedLdcap_TIERED ∧ base ≤ f ∧ f < base + k then
      some (n, d.winBase n + (f - base)) else none

def Tiers.useOf (t : Tiers) (frame : Nat) : Option FrameUse := kvFind? t.uses frame

/-- The Tedder that owns a frame's contents (R223). -/
def Dev.frameOwner (d : Dev) (frame : Nat) : Nat :=
  match d.ted.useOf frame with
  | some (.page field _) => field % 4
  | some (.table field) => field % 4
  | some (.sheaves t) => t
  | some (.sheafMap t _) => t
  | none => match d.flatField frame with
    | some (_, field) => field % 4
    | none => 0

/-- The DPA of a frame's first line, where the frame holds a page or a part of a flat field. -/
def Dev.frameDpa (d : Dev) (frame : Nat) : Option Nat :=
  match d.ted.useOf frame with
  | some (.page field p) => some (field * 2 ^ 21 + p * 4096)
  | some _ => none
  | none => (d.flatField frame).map fun x => x.2 * 2 ^ 21 + frame % 512 * 4096

def Dev.ldKgen (d : Dev) (n : Nat) : Nat := d.fld (.cipLdkey n) F.cipLdkey_KGEN

/-- The present key domain of an LD (R206). -/
def Dev.ldDom (d : Dev) (n : Nat) : Dom := .ld n (d.ldKeyId n) (d.ldKgen n)

/-- The domain of a field's lines: the LD whose window holds it. -/
def Dev.fieldDom (d : Dev) (field : Nat) : Dom :=
  match d.ldOfField field with | some n => d.ldDom n | none => .device

/-- The domain of line `i` of a frame (Table 8.2, R230 step 2). -/
def Dev.frameDom (d : Dev) (frame i : Nat) : Dom :=
  match d.ted.useOf frame with
  | some (.page field _) => d.fieldDom field
  | some (.sheaves _) => match kvFind? d.ted.slots (frame * 16 + i / 4) with
    | some page => d.fieldDom (fieldOfPage page)
    | none => .device
  | some _ => .device
  | none => match d.flatField frame with
    | some (n, _) => d.ldDom n
    | none => .device

/-! ### Sealing a line (R214, R217 to R221) -/

def Dev.domKey (d : Dev) : Dom → KeyPair
  | .ld _ key _ => keyPair key
  | _ => keyPair d.cip.devKey
def Dom.kgen : Dom → Nat
  | .ld _ _ g => g
  | _ => 0

/-- Counter block of a line under its frame's counters, or of a line of a fallow slot (Table 8.4). -/
def blockOf (sa : Nat) (slot : Option (Nat × Nat × Nat)) (major minor : Nat) : CtrBlock :=
  match slot with
  | none => { minor := minor, major := major, line := sa / 64 }
  | some (_, soff, fctr) => { fctr := fctr, kind := 1, minor := minor, major := major, line := sa / 64, soff := soff }

/-- The payload that a line is stored as; a poisoned line enciphers zeros (R221). -/
def Dev.seal (d : Dev) (dom : Dom) (b : CtrBlock) (data : Line) (poison : Bool) : Payload :=
  let k := d.domKey dom
  let c := crypt k b (if poison then 0 else data)
  { data := c, md := mdWord dom.kgen false poison (lineTag k b c) }

/-- The result of a read: data, poison, stale (row 5), tag mismatch, counter-line mark mismatch, and the row of Table 8.5. -/
structure Settled where
  data : Line := 0
  poison : Bool := false
  mismatch : Bool := false
  mark : Bool := false
  /-- the second verification succeeded (R223) -/
  dual : Bool := false
  row : Nat
  deriving DecidableEq, Repr

/-- Rows 2 to 7 of Table 8.5, verified under each pair of counters in turn (R220, R223). -/
def Dev.settle (d : Dev) (dom : Dom) (sa : Nat) (slot : Option (Nat × Nat × Nat)) (caps : List (Nat × Nat)) (o : CwOut) :
    Settled :=
  let p := o.payload
  let unc := match o with | .uncorrectable _ => true | _ => false
  let stale := match dom with | .ld _ _ g => p.kgen != g | _ => false
  if unc then { poison := true, row := 2 }
  else if p.poison then { poison := true, row := 3 }
  else if p.cmark then { poison := true, mismatch := true, mark := true, row := 4 }
  else if stale then { row := 5 }
  else
    let k := d.domKey dom
    match caps.find? fun c => lineTag k (blockOf sa slot c.1 c.2) p.data == p.tag with
    | some c => { data := crypt k (blockOf sa slot c.1 c.2) p.data, dual := some c != caps.head?, row := 7 }
    | none => { poison := true, mismatch := true, row := 6 }

/-- Rows 2, 3, 4 and 6 for a counter line: its content, or the row that failed as R234 codes it. -/
def Dev.settleCtr (d : Dev) (sa : Nat) (o : CwOut) : Except Nat Ctr :=
  let p := o.payload
  match o with
  | .uncorrectable _ => .error 0
  | _ =>
    if p.poison then .error 1
    else if !p.cmark then .error 2
    else if counterTag (keyPair d.cip.devKey) sa p.data == p.tag then .ok (ctrOfLine p.data) else .error 3

/-- A tag mismatch is counted under its key domain, and raises its record (Table 8.13), limited per LD; device-key lines count as one more
scope. -/
def Dev.mismatchRecord (d : Dev) (unit sa dpa ld : Nat) (dom : Dom) (partialWr mark : Bool) : Dev :=
  let dev := match dom with | .ld .. => false | _ => true
  let d := d.count .tagMismatch (unit % 256) (b2n dev)
  d.raiseLimited (min ld 16)
    { vendorRec 0x0401 .failure unit (b2n partialWr + 2 * b2n dev + 4 * b2n mark) with
      addr0 := dpa, addr1 := sa, ld := ld }

/-- The map-fault record (R73). -/
def Dev.mapFaultRecord (d : Dev) (sa dpa ld : Nat) : Dev :=
  d.raise { vendorRec 0x0003 .failure 0x0300 0 with addr0 := sa, addr1 := dpa, ld := ld }

/-! ### Counter lines -/

def Ctr.minor (c : Ctr) (i : Nat) : Nat := bitsOf c.minors.toNat (7 * i + 6) (7 * i)
def Ctr.setMinor (c : Ctr) (i v : Nat) : Ctr :=
  { c with minors := BitVec.ofNat 448 (putBits c.minors.toNat (7 * i + 6) (7 * i) v) }

/-- A counter line with every minor counter `v`. -/
def Ctr.all (major v : Nat) : Ctr :=
  { major := BitVec.ofNat 64 major, minors := BitVec.ofNat 448 (((List.range 64).map fun i => v <<< (7 * i)).sum) }

/-- The changed minors of a copy put over a counter line (R215). -/
def CtrCopy.over (x : CtrCopy) (c : Ctr) : Ctr :=
  (List.range 64).foldl (fun c i => if x.changed.getLsbD i then c.setMinor i (x.ctr.minor i) else c)
    { c with major := x.ctr.major }

def Dev.modCip (d : Dev) (f : Cipher → Cipher) : Dev := { d with cip := f d.cip }

def Dev.heldIn (d : Dev) (frame : Nat) : Option Nat := (d.cip.holds.find? fun h => h.frame == frame).map (·.q)

/-- The copy that partition `q` looks a frame up in: its own, or the holding partition's (R216). -/
def Dev.ctrCopy (d : Dev) (frame q : Nat) : Option CtrCopy :=
  let q := (d.heldIn frame).getD q
  d.cip.copies.find? fun c => c.frame == frame && c.q == q

/-- Puts a copy in front, as the most recently used of its set. -/
def Dev.putCopy (d : Dev) (x : CtrCopy) : Dev :=
  d.modCip fun c => { c with copies := x :: c.copies.filter fun y => !(y.frame == x.frame && y.q == x.q) }

/-- Copies in the set of a frame of partition `q`, other than its own. -/
def Dev.ctrSet (d : Dev) (frame q : Nat) : List CtrCopy :=
  d.cip.copies.filter fun y => y.q == q && y.frame % 1536 == frame % 1536 && y.frame != frame

/-- A copy of a frame's counter line has a way in partition `q`: not where all 16 ways of its set are held (R13, R216). -/
def Dev.ctrRoom (d : Dev) (frame q : Nat) : Bool :=
  decide ((d.ctrSet frame q).length < 16) || (d.ctrSet frame q).any fun y => (d.heldIn y.frame).isNone

/-- A hold that lasts, of a demotion, a relocation or a re-encryption, may begin: it leaves one way of the set to the holds that begin and end
within one change (log entry 123). -/
def Dev.ctrSpare (d : Dev) (frame q : Nat) : Bool :=
  (d.heldIn frame).isSome || decide (((d.ctrSet frame q).filter fun y => (d.heldIn y.frame).isSome).length < 15)

/-- Takes a new copy into its partition: 1,536 sets of 16 ways, replaced least recently used; held lines stay, and where all 16 ways are
held the copy is not taken (R13, R215, R216). -/
def Dev.installCopy (d : Dev) (x : CtrCopy) : Dev :=
  if !d.ctrRoom x.frame x.q then d else
  let same := d.ctrSet x.frame x.q
  let d := if 16 ≤ same.length then
      match same.reverse.find? fun y => (d.heldIn y.frame).isNone with
      | none => d
      | some v => d.modCip fun c =>
          { c with copies := c.copies.filter fun y => !(y.frame == v.frame && y.q == v.q),
                   merges := if v.changed = 0 then c.merges else c.merges ++ [v] }
    else d
  d.putCopy x

/-- Raises the major high-water mark (R213). -/
def Dev.raiseMajor (d : Dev) (m : Nat) : Dev := d.wr .cipMajhw (max (d.rd .cipMajhw) m)

/-! ### Entries for members, and folds (R362, R379, R385) -/

/-- Enters a line on the fold list, or in its member's bitmap (R379). Counter lines and map lines take the 512 entries kept
for them first. -/
def Dev.foldEnter (d : Dev) (sa dev : Nat) (reserved : Bool) : Dev :=
  let count (r : Bool) : Nat := (d.cas.foldList.filter fun y => y.2.2 == r).length
  let add (r : Bool) : Dev := { d with cas := { d.cas with foldList := d.cas.foldList ++ [(sa / 64, dev, r)] } }
  if d.cas.foldList.any fun y => y.1 == sa / 64 && y.2.1 == dev then d
  else if reserved ∧ count true < 512 then add true
  else if count false < 3584 then add false
  else
    let b := dev * 2 ^ 27 + sa / 2 ^ 21
    if d.cas.foldMap.contains b then d
    else
      let d := { d with cas := { d.cas with foldMap := d.cas.foldMap ++ [b] } }
      if d.flag .casFoldstat F.casFoldstat_OVF_SEEN then d
      else (d.setFlag .casFoldstat F.casFoldstat_OVF_SEEN true).raise
        { vendorRec 0x0745 .warning (0xA00 + dev) dev with addr0 := sa / 64 * 64 }

/-- The line is a counter line or a map line (R379). -/
def Dev.isMapOrCtr (d : Dev) (e : ChEnt) : Bool :=
  e.data.cmark || (match d.ted.useOf (e.sa / 4096) with
    | some (.table _) | some (.sheafMap _ _) => true
    | _ => decide (d.fld .gblFtab F.gblFtab_BASE * 4096 ≤ e.sa ∧ e.sa < d.fld .gblFtab F.gblFtab_BASE * 4096 + 2 ^ 30))

/-- What came of handing an entry to storage: on its way; a read answered by a fold; a write complete. -/
inductive Handed where
  | sent | folded | accepted
  deriving DecidableEq, Repr

/-- Hands an entry to a channel or, for a member, to the cascade. An entry for a member that is not open completes at once:
a read with poison; a write discarded, entered on the fold list unless the member is lost or absent. An SA that no set or no rank holds
is a map fault (R73). -/
def Dev.hand (d : Dev) (p : Place) (e : ChEnt) : Dev × Handed :=
  match p with
  | .here c ca => (d.sendCmd c { e with ca := ca }, .sent)
  | .member dev c ca =>
    let st := d.memState dev
    if st = 1 then
      let r : MemReq := { id := d.cas.nextReq, dev := dev, chan := c, ca := ca, write := e.write, data := e.data, use := e.use,
                          src := e.src, dpa := e.dpa, sa := e.sa, ld := e.ld }
      ({ d with cas := { d.cas with reqs := d.cas.reqs ++ [r], nextReq := d.cas.nextReq + 1 } }, .sent)
    else if e.write then
      (if st = 2 ∨ st = 3 then d.foldEnter e.sa dev (d.isMapOrCtr e) else d, .accepted)
    else (d, .folded)
  | .fault => (d.mapFaultRecord e.sa e.dpa e.ld, if e.write then .accepted else .folded)
  | .wait => (d, if e.write then .accepted else .folded)

/-- A write of a line whose counters a fold withholds: it is discarded and completes, its line on the fold list (R362, R381). -/
def Dev.foldWrite (d : Dev) (sa dpa ld : Nat) (reserved : Bool) : Dev :=
  match d.place sa with
  | .member dev _ _ => if d.memState dev = 2 ∨ d.memState dev = 3 then d.foldEnter sa dev reserved else d
  | .fault => d.mapFaultRecord sa dpa ld
  | _ => d

/-- A frame's counter line is entered on the fold list: a change of it could not be made (R362). -/
def Dev.foldCtr (d : Dev) (frame : Nat) : Dev :=
  match d.ctrSaOf frame with
  | some sa => d.foldWrite sa 0 0xFF true
  | none => d

/-- Hands over a write that nobody waits for. -/
def Dev.fireWrite (d : Dev) (sa : Nat) (x : Payload) : Dev :=
  (d.hand (d.place sa) { write := true, ca := 0, data := x, use := .fire, sa := sa }).1

/-- Writes a counter line whole (R212, R225, Table 8.8 step 6). -/
def Dev.writeCtr (d : Dev) (frame : Nat) (c : Ctr) : Dev :=
  match d.ctrSaOf frame with
  | none => d
  | some sa => (d.raiseMajor c.major.toNat).fireWrite sa (counterPayload d.cip.devKey sa c)

/-! ### What storage holds for a line, with the writes that are on their way -/

/-- The newest write to a channel address that has not reached the DRAM devices. -/
def Chan.newest (ch : Chan) (a : AMap) (ca : Nat) : Option Payload :=
  let hit (e : ChEnt) : Option Payload := if e.write ∧ e.ca / 64 = ca / 64 then some e.data else none
  match ch.cmds.reverse.findSome? hit with
  | some p => some p
  | none => ((ch.sub (a.coord (ca / 64)).sub).wrq).reverse.findSome? hit

/-- What a read of a line would return without bus errors; none where a fold answers it (R362, R381). -/
def Dev.peek (m : Dram) (d : Dev) (sa : Nat) : Option CwOut :=
  match d.place sa with
  | .here c ca =>
    match (d.chn c).newest (d.amap c) ca with
    | some p => some (.clean p)
    | none => match d.steer c { write := false, ca := ca, use := .fire } with
      | e :: _ => some (decodeWord (d.isX8 c) (d.lineRead m c e.rank e.line))
      | [] => none
  | .member dev c ca =>
    if d.memState dev = 1 then
      match d.cas.reqs.reverse.find? fun r => r.write && r.dev == dev && r.chan == c && r.ca / 64 == ca / 64 with
      | some r => some (.clean r.data)
      | none => some (decodeWord false (d.physRead m (memberKey dev c ca)))
    else none
  | _ => none

/-- A read of the device's own work meets what `peek` gives: its burst is counted and recorded as any other (R285 to R287).
A write that is still on its way answers the read without a burst, unless the bus spoils it (`bad`). -/
def Dev.noteRead (m : Dram) (d : Dev) (sa dpa ld : Nat) (src : RdSource) (bad : Bool) : Dev :=
  match d.place sa with
  | .here c ca =>
    if ((d.chn c).newest (d.amap c) ca).isSome && !bad then d
    else match d.steer c { write := false, ca := ca, use := .fire, src := src, dpa := dpa, sa := sa, ld := ld } with
      | e :: _ => d.burstNoted c e.sub e (if bad then .uncorrectable { data := 0, md := 0 }
          else decodeWord (d.isX8 c) (d.lineRead m c e.rank e.line))
      | [] => d
  | .fault => d.mapFaultRecord sa dpa ld
  | _ => d

/-- A counter line as storage holds it: the row of Table 8.5 that failed, or 9 for a fold. -/
def Dev.storedCtr (m : Dram) (d : Dev) (frame : Nat) : Except Nat Ctr :=
  match d.ctrSaOf frame with
  | none => .error 9
  | some sa => match d.peek m sa with
    | none => .error 9
    | some o => d.settleCtr sa o

/-- The counter line as its copies and its stored form together give it (R215). -/
def Dev.currentCtr (m : Dram) (d : Dev) (frame : Nat) : Except Nat Ctr :=
  let mine (x : CtrCopy) : Bool := x.frame == frame
  match (d.heldIn frame).bind fun q => d.cip.copies.find? fun x => mine x && x.q == q with
  | some x => .ok x.ctr
  | none => match d.storedCtr m frame with
    | .error e => .error e
    | .ok c => .ok ((d.cip.copies.filter mine).foldl (fun c x => x.over c)
        ((d.cip.merges.filter mine).foldl (fun c x => x.over c) c))

/-! ### Lost counter lines (R230) -/

/-- A counter line read that meets row 4 or 6 of Table 8.5 raises the record of that row. -/
def Dev.ctrMismatch (d : Dev) (frame row : Nat) : Dev :=
  match d.ctrSaOf frame with
  | some sa => if row = 2 ∨ row = 3 then d.mismatchRecord (d.placeUnit (d.place sa)) sa 0 0xFF .counter false (row == 2) else d
  | none => d

/-- A counter line that the device's own work reads from storage. -/
def Dev.noteCtr (m : Dram) (d : Dev) (frame : Nat) : Dev :=
  match d.ctrSaOf frame with
  | some sa => d.noteRead m sa 0 0xFF .map false
  | none => d

/-- Rewrites a lost counter line and poisons its frame (R230). `row` codes the row that failed. -/
def Dev.counterLost (d : Dev) (frame row : Nat) : Dev :=
  let major := d.rd .cipMajhw + 1
  let c := Ctr.all major 1
  let q := (d.heldIn frame).getD (d.frameOwner frame)
  let d := d.modCip fun x =>
    { x with copies := x.copies.filter (·.frame != frame), merges := x.merges.filter (·.frame != frame) }
  let d := d.installCopy { frame := frame, q := q, ctr := c, changed := 0 }
  let d := d.writeCtr frame c
  let d := (List.range 64).foldl (fun d i =>
    let sa := frame * 4096 + 64 * i
    let slot : Option (Nat × Nat × Nat) := none
    d.fireWrite sa (d.seal (d.frameDom frame i) (blockOf sa slot major 1) 0 true)) d
  let d := match d.ctrSaOf frame with
    | none => d
    | some sa => d.raise { vendorRec 0x0402 .failure (0x500 + d.frameOwner frame) row with
        addr0 := sa, addr1 := frame * 4096 }
  -- reads that wait on the frame complete with poison
  let hits := d.cip.accs.filter fun a =>
    a.sa / 4096 == frame && a.kind == .read && (match a.own with | .ctr .. => false | _ => true)
  d.modCip fun x =>
    { x with accs := x.accs.filter (fun a => !hits.contains a && (match a.own with | .ctr _ f => f != frame | _ => true)),
             done := x.done ++ hits.map fun a => (a.own, a.sa, .line 0 true false false) }

/-- A counter line that the device's own work is about to use is rewritten first when it is lost (R230). -/
def Dev.mendCtr (m : Dram) (d : Dev) (frame : Nat) : Dev :=
  match d.currentCtr m frame with
  | .error row => if row = 9 then d else ((d.noteCtr m frame).ctrMismatch frame row).counterLost frame row
  | .ok _ => d

/-! ### Holds (R216) -/

/-- Begins a hold of a counter line in partition `q`: the copies are gathered there; none where a fold stands in the way, or
where its set has no way free. A
counter line that is lost is rewritten first. -/
def Dev.hold (m : Dram) (d : Dev) (frame q : Nat) : Option Dev :=
  match d.heldIn frame with
  | some _ => some (d.modCip fun x =>
      { x with holds := x.holds.map fun h => if h.frame = frame then { h with pins := h.pins + 1 } else h })
  | none =>
    if !d.ctrRoom frame q then none else
    let pin (d : Dev) : Dev := d.modCip fun x => { x with holds := x.holds ++ [{ frame := frame, q := q, pins := 1 }] }
    let r := d.currentCtr m frame
    let d := d.count (if (d.ctrCopy frame q).isSome then .ctrHit else .ctrMiss) q
    let d := d.noteCtr m frame
    match r with
    | .error 9 => none
    | .error row =>
      let d := (d.ctrMismatch frame row).counterLost frame row
      some (pin ((d.modCip fun x => { x with copies := x.copies.filter (·.frame != frame) }).installCopy
        { frame := frame, q := q, ctr := Ctr.all (d.rd .cipMajhw) 1, changed := 0 }))
    | .ok c =>
      let ch := (d.cip.copies.filter (·.frame == frame) ++ d.cip.merges.filter (·.frame == frame)).foldl
        (fun b x => b ||| x.changed) (0 : BitVec 64)
      let fetch (a : Access) : Bool := match a.own with | .ctr _ f => f == frame | _ => false
      -- every other copy is merged and dropped
      let d := (d.cip.copies.filter (fun x => x.frame == frame && x.q != q && x.changed != 0) ++
        d.cip.merges.filter (·.frame == frame)).foldl (fun d x => d.count .ctrMerge x.q) d
      let d := d.modCip fun x =>
        { x with copies := x.copies.filter (·.frame != frame), merges := x.merges.filter (·.frame != frame),
                 accs := x.accs.filter fun a => !fetch a }
      some (pin (d.installCopy { frame := frame, q := q, ctr := c, changed := ch }))

/-- Ends one pin of a hold; with the last, the counter line is written back (Table 8.8 step 6). -/
def Dev.unhold (d : Dev) (frame : Nat) : Dev :=
  match d.cip.holds.find? fun h => h.frame == frame with
  | none => d
  | some h =>
    if 1 < h.pins then d.modCip fun x =>
      { x with holds := x.holds.map fun y => if y.frame = frame then { y with pins := y.pins - 1 } else y }
    else
      let copy := d.cip.copies.find? fun c => c.frame == frame && c.q == h.q
      let d := d.modCip fun x => { x with holds := x.holds.filter (·.frame != frame) }
      match copy with
      | none => d
      | some c => if c.changed = 0 then d else (d.writeCtr frame c.ctr).putCopy { c with changed := 0 }

/-- Changes a held counter line. -/
def Dev.setHeld (d : Dev) (frame : Nat) (c : Ctr) (ch : BitVec 64) : Dev :=
  match (d.heldIn frame).bind fun q => d.cip.copies.find? fun x => x.frame == frame && x.q == q with
  | none => d
  | some x => d.putCopy { x with ctr := c, changed := x.changed ||| ch }

/-! ### Re-encryption (R223, R224) -/

def Dev.reencOf (d : Dev) (frame : Nat) : Option ReEnc := d.cip.reencs.find? fun r => r.frame == frame
def Dev.reencUsed (d : Dev) (q : Nat) : Nat := (d.cip.reencs.filter fun r => r.q == q).length

/-- A re-encryption ends with its remaining lines counted as done and left unwritten (R209). -/
def Dev.reencEnd (d : Dev) (frame : Nat) : Dev :=
  (d.modCip fun x => { x with reencs := x.reencs.filter (·.frame != frame) }).unhold frame

/-- Erases a frame (R225): MAJOR + 1 and every minor counter 0, in one change under a hold; nothing but the counter line is written, and a
re-encryption of the frame has no line left to rewrite. A counter line that a fold withholds cannot be changed: it goes on the fold
list, and R230 handles it when its member returns. -/
def Dev.eraseFrame (m : Dram) (d : Dev) (frame : Nat) : Dev :=
  let d := if (d.reencOf frame).isSome then d.reencEnd frame else d
  match d.hold m frame (d.frameOwner frame) with
  | none => d.foldCtr frame
  | some d =>
    match d.ctrCopy frame 0 with
    | none => d.unhold frame
    | some x =>
      let c := Ctr.all (x.ctr.major.toNat + 1) 0
      ((d.setHeld frame c (BitVec.allOnes 64)).raiseMajor c.major.toNat).unhold frame

/-- Starts a re-encryption of a frame (Table 8.8, step 3). -/
def Dev.reencStart (m : Dram) (d : Dev) (frame : Nat) (dom : Dom) : Dev :=
  let q := d.frameOwner frame
  match d.hold m frame q with
  | none => d
  | some d =>
    match d.ctrCopy frame q with
    | none => d
    | some x =>
      let zero := (List.range 64).foldl (fun b i => if x.ctr.minor i = 0 then b ||| BitVec.ofNat 64 (2 ^ i) else b) (0 : BitVec 64)
      let c := Ctr.all (x.ctr.major.toNat + 1) 0
      let d := ((d.setHeld frame c (BitVec.allOnes 64)).raiseMajor c.major.toNat).count .reencryption q
      d.modCip fun y => { y with reencs := y.reencs ++ [{ frame := frame, q := q, old := x.ctr, done := zero, dom := dom }] }

/-- Counters that a read of line `i` is verified under: the present ones, and for a line of a frame under re-encryption that is
not yet done the old ones next (R223). Empty when its minor counter is 0 (row 1 of Table 8.5). -/
def Dev.capsOf (d : Dev) (frame i : Nat) (first : Nat) (x : CtrCopy) : List (Nat × Nat) :=
  match d.reencOf frame with
  | some r => if r.done.getLsbD i then
        (if x.ctr.minor i = 0 then [] else [(x.ctr.major.toNat, x.ctr.minor i)])
      else [(x.ctr.major.toNat, 1), (r.old.major.toNat, r.old.minor i)]
  | none => if x.ctr.minor i = 0 then [] else [(x.ctr.major.toNat, x.ctr.minor first)]

/-! ### Accesses -/

def Dev.modAcc (d : Dev) (id : Nat) (f : Access → Access) : Dev :=
  d.modCip fun x => { x with accs := x.accs.map fun a => if a.id = id then f a else a }
def Dev.dropAcc (d : Dev) (id : Nat) : Dev := d.modCip fun x => { x with accs := x.accs.filter (·.id != id) }

/-- Ends an access with a result for its owner. -/
def Dev.endAcc (d : Dev) (a : Access) (r : AccRes) : Dev :=
  (d.dropAcc a.id).modCip fun x => if a.own = .none then x else { x with done := x.done ++ [(a.own, a.sa, r)] }

/-- Asks for a line access; accesses are served in the order they are asked for where they touch one line (R224). -/
def Dev.ask (d : Dev) (a : Access) : Dev :=
  d.modCip fun x => { x with accs := x.accs ++ [{ a with id := x.nextAcc }], nextAcc := x.nextAcc + 1 }

/-- An older access of the same line holds this one back: one that has still to write, or a read that has not been issued. -/
def Access.heldBy (a o : Access) : Bool :=
  o.sa == a.sa && (match o.kind with
    | .read => a.kind != .read && (!o.sent || o.caps.isEmpty)
    | _ => !o.wrote)

/-- Issues an access's storage read. -/
def Dev.sendRead (d : Dev) (a : Access) (p : Place) : Dev :=
  let e : ChEnt := { write := false, ca := 0, use := .acc a.id, src := a.src, dpa := a.dpa, sa := a.sa, ld := a.ld }
  match d.hand p e with
  | (d, .sent) => d.modAcc a.id fun x => { x with sent := true }
  | (d, _) => d.modAcc a.id fun x =>
      { x with sent := true, got := some (.uncorrectable { data := 0, md := 0 }), folded := true }

/-- Issues an access's storage write. -/
def Dev.sendWrite (d : Dev) (a : Access) (p : Place) (x : Payload) : Dev :=
  let e : ChEnt := { write := true, ca := 0, data := x, use := if a.own = .none then .fire else .acc a.id, src := a.src,
                     dpa := a.dpa, sa := a.sa, ld := a.ld }
  match d.hand p e with
  | (d, .sent) => if a.own = .none then d.dropAcc a.id else d.modAcc a.id fun y => { y with wrote := true }
  | (d, _) => d.endAcc a .accepted

/-- Fetches a counter line into partition `q`, unless that is under way or copies of it wait to be merged (R215). -/
def Dev.fetchCtr (d : Dev) (frame q : Nat) : Option Dev :=
  if d.cip.accs.any (fun a => a.own == .ctr q frame) || d.cip.merges.any (·.frame == frame) || !d.ctrRoom frame q then none
  else (d.ctrSaOf frame).map fun sa =>
    d.ask { id := 0, own := .ctr q frame, kind := .read, sa := sa, dom := .counter, src := .map }

/-- The counter under which a write of line `i` goes out, taking it (R214, R223, R224). `wait`: it waits. -/
inductive MinorTake where
  | ok (d : Dev) (major minor : Nat)
  /-- waits for an entry (Table 8.8, step 2) -/
  | park (d : Dev)
  /-- the frame's counter line, which a re-encryption has to hold, lies behind a fold: the write is discarded and completes -/
  | fold (d : Dev)
  | wait

def Dev.takeMinor (m : Dram) (d : Dev) (frame i : Nat) (dom : Dom) (x : CtrCopy) : MinorTake :=
  let bit := BitVec.ofNat 64 (2 ^ i)
  let step (d : Dev) (x : CtrCopy) : MinorTake :=
    let v := x.ctr.minor i + 1
    .ok (d.putCopy { x with ctr := x.ctr.setMinor i v, changed := x.changed ||| bit }) x.ctr.major.toNat v
  match d.reencOf frame with
  | some r =>
    if r.done.getLsbD i then (if x.ctr.minor i = 127 then .wait else step d x)
    else step (d.modCip fun y =>
      { y with reencs := y.reencs.map fun z => if z.frame = frame then { z with done := z.done ||| bit } else z }) x
  | none =>
    if x.ctr.minor i < 127 then step d x
    else
      let q := d.frameOwner frame
      if 16 ≤ d.reencUsed q then .park (d.setFlag (.cipQstat q) F.cipQstat_REENC_WAIT true)
      else if !d.ctrSpare frame q then .wait
      else if (d.heldIn frame).isNone && (match d.currentCtr m frame with | .error r => r == 9 | .ok _ => false) then
        .fold (d.foldCtr frame)
      else
        let d := d.reencStart m frame dom
        match d.reencOf frame, d.ctrCopy frame q with
        | some _, some x =>
          step (d.modCip fun y =>
            { y with reencs := y.reencs.map fun z => if z.frame = frame then { z with done := z.done ||| bit } else z }) x
        | _, _ => .wait

/-- Bytes of `w` where the mask has a 1, of `x` elsewhere (R18, R124). -/
def mergeLine (x w : Line) (mask : BitVec 64) : Line :=
  BitVec.ofNat 512 (ofBytes ((List.range 64).map fun i =>
    if mask.getLsbD i then byteOf w.toNat i else byteOf x.toNat i))

/-- Sends a line's new content out (R214, R219). -/
def Dev.writeOut (m : Dram) (d : Dev) (a : Access) (p : Place) (x : CtrCopy) (data : Line) (poison : Bool) : Option Dev :=
  match d.takeMinor m (a.sa / 4096) (a.sa / 64 % 64) a.dom x with
  | .wait => none
  | .park d => some (d.modAcc a.id fun y => { y with parked := true })
  | .fold d => some ((d.foldWrite a.sa a.dpa a.ld false).endAcc a .accepted)
  | .ok d major minor => some (d.sendWrite a p (d.seal a.dom (blockOf a.sa none major minor) data poison))

/-- A counter line comes back: it is taken into its partition, or it is lost; a fold fills nothing (R215, R230, R381). -/
def Dev.ctrArrives (d : Dev) (a : Access) (q frame : Nat) (o : CwOut) : Dev :=
  let d := d.dropAcc a.id
  match d.settleCtr a.sa o with
  | .ok c => d.installCopy { frame := frame, q := q, ctr := c, changed := 0 }
  | .error row => (d.ctrMismatch frame row).counterLost frame row

/-- Reads and partial writes that wait for a counter line that a fold answered: reads complete with poison, partial and full
writes are handed on as the fold's (R362, R381). -/
def Dev.ctrFolded (d : Dev) (a : Access) (frame : Nat) : Dev :=
  let d := d.dropAcc a.id
  let hits := d.cip.accs.filter fun x => x.sa / 4096 == frame && x.caps.isEmpty && !x.wrote &&
    (match x.own with | .ctr .. => false | _ => true)
  hits.foldl (fun d x =>
    if x.kind = .read then d.endAcc x (.line 0 true false true)
    else
      let d := match d.place x.sa with
        | .member dev _ _ => d.foldEnter x.sa dev false
        | _ => d
      d.endAcc x .accepted) d

/-- Row 1 of Table 8.5 settles an access: a burst of it that is still under way is ignored when it comes. -/
def Dev.rowOneOf (d : Dev) (a : Access) : Dev :=
  if a.sent && a.got.isNone then d.modCip fun x => { x with zeroed := x.zeroed ++ [a.id] } else d

/-- The first lookup of an access's counter line is counted: a hit or a miss of partition `q`, and a lookup that it forwards to the holding
partition (R216). -/
def Dev.lookedUp (d : Dev) (a : Access) (frame q : Nat) : Dev :=
  if a.looked then d
  else
    let d := d.modAcc a.id fun y => { y with looked := true }
    let d := d.count (if (d.ctrCopy frame q).isSome then .ctrHit else .ctrMiss) q
    match d.heldIn frame with
    | some h => if h = q then d else d.count .ctrForward q
    | none => d

/-- A read that rows 1 or 5 of Table 8.5 settle as zeros is counted at its cipher unit. -/
def Dev.countZero (d : Dev) (unit row : Nat) : Dev := if row = 1 ∨ row = 5 then d.count .zeroRead (unit % 256) row else d

/-- What a settled read leaves in the counters: a dual verification that its second half passed (R223), a zero read. -/
def Dev.countSettled (d : Dev) (r : Settled) (unit q : Nat) : Dev :=
  (if r.dual then d.count .dualVerify q else d).countZero unit r.row

/-- One step of an access, when it can make one, whatever room its channel has. -/
def Dev.accMove (m : Dram) (d : Dev) (older : List Access) (a : Access) : Option Dev :=
  if older.any a.heldBy || a.wrote || a.parked then none
  else
    let p := d.place a.sa
    let frame := a.sa / 4096
    let i := a.sa / 64 % 64
    match p with
    | .wait => none
    | .fault =>
      let d := d.mapFaultRecord a.sa a.dpa a.ld
      some (d.endAcc a (if a.kind = .read then .line 0 true false true else .accepted))
    | _ =>
      let q := d.placeQ p
      match a.own with
      | .ctr cq f =>
        if !a.sent then some (d.sendRead a p)
        else match a.got with
          | none => none
          | some o =>
            if a.folded then some (d.ctrFolded a f) else if d.ctrRoom f cq then some (d.ctrArrives a cq f o) else none
      | _ =>
        let first := match a.slot with | some (sa, _, _) => sa / 64 % 64 | none => i
        let d := d.lookedUp a frame q
        match d.ctrCopy frame q with
        | none =>
          -- counter-cache miss: a read or partial write goes to storage beside the fetch
          match d.fetchCtr frame q with
          | some d => some (if a.kind = .write || a.sent then d else d.sendRead a p)
          | none => if a.kind = .write || a.sent then none else some (d.sendRead a p)
        | some x =>
          let d := d.putCopy x
          let caps := d.capsOf frame i first x
          match a.kind with
          | .write => d.writeOut m a p x a.data a.poison
          | .read =>
            if a.caps.isEmpty ∧ caps.isEmpty then
              some (((d.rowOneOf a).countZero (d.placeUnit p) 1).endAcc a (.line 0 false false false))
            else if !a.sent then some ((d.modAcc a.id fun y => { y with caps := caps }).sendRead { a with caps := caps } p)
            else if a.caps.isEmpty then some (d.modAcc a.id fun y => { y with caps := caps })
            else match a.got with
              | none => none
              | some o =>
                if a.folded then some (d.endAcc a (.line 0 true false true))
                else
                  let r := d.settle a.dom a.sa a.slot a.caps o
                  let d := if r.mismatch then d.mismatchRecord (d.placeUnit p) a.sa a.dpa a.ld a.dom false r.mark else d
                  let d := d.countSettled r (d.placeUnit p) ((d.heldIn frame).getD q)
                  some (d.endAcc a (.line r.data r.poison (r.row == 5) false))
          | .merge =>
            if a.caps.isEmpty ∧ caps.isEmpty then ((d.rowOneOf a).countZero (d.placeUnit p) 1).writeOut m a p x (mergeLine 0 a.data a.mask) a.poison
            else if !a.sent then some ((d.modAcc a.id fun y => { y with caps := caps }).sendRead { a with caps := caps } p)
            else match a.got with
              | none => none
              | some o =>
                if a.folded then
                  let d := match p with | .member dev _ _ => d.foldEnter a.sa dev false | _ => d
                  some (d.endAcc a .accepted)
                else
                  let r := d.settle a.dom a.sa none (a.caps ++ caps) o
                  let d := if r.mismatch then d.mismatchRecord (d.placeUnit p) a.sa a.dpa a.ld a.dom true r.mark else d
                  let d := d.countSettled r (d.placeUnit p) ((d.heldIn frame).getD q)
                  d.writeOut m a p x (mergeLine r.data a.data a.mask) (r.poison || a.poison)

/-- One step of an access. A step that would send an entry to a channel whose command crossing has no slot free is not made: the access
waits, and the stall is flagged once (R46, R256). -/
def Dev.accStep (m : Dram) (d : Dev) (older : List Access) (a : Access) : Option Dev :=
  (d.accMove m older a).bind fun e =>
    match d.place a.sa with
    | .here c _ =>
      if (e.chn c).cmds.length ≤ (d.chn c).cmds.length || d.cmdRoom c then some e
      else if a.stalled then none
      else some ((d.modAcc a.id fun y => { y with stalled := true }).overrun (.chnCmd c))
    | _ => some e

/-- The first access that can make a step makes it. -/
def Dev.accPassGo (m : Dram) (d : Dev) (older : List Access) : List Access → Option Dev
  | [] => none
  | a :: rest => match d.accStep m older a with
    | some d => some d
    | none => d.accPassGo m (older ++ [a]) rest

def Dev.accPass (m : Dram) (d : Dev) : Option Dev := d.accPassGo m [] d.cip.accs

/-! ### Events of the cipher units -/

/-- The read of access `id` meets row 1 of Table 8.5: the minor counter of its line is 0, so that its codeword is ignored (R220).
A line read that went to storage beside the fetch of its counter line shows it only here (DEDUCED, log entry 80). -/
def Dev.rowOne (m : Dram) (d : Dev) (id : Nat) : Bool :=
  if d.cip.zeroed.contains id then true else
  match d.cip.accs.find? fun a => a.id == id with
  | none => false
  | some a =>
    let ctrLine := match a.own with | .ctr .. => true | _ => false
    if ctrLine || a.slot.isSome || !a.caps.isEmpty then false
    else
      let frame := a.sa / 4096
      let i := a.sa / 64 % 64
      match d.currentCtr m frame with
      | .error _ => false
      | .ok c => (d.capsOf frame i i { frame := frame, q := 0, ctr := c, changed := 0 }).isEmpty

/-- The oldest burst in flight on a subchannel meets row 1 of Table 8.5. -/
def Dev.codewordIgnored (m : Dram) (d : Dev) (c i : Nat) : Bool :=
  match ((d.chn c).sub i).flight with
  | { use := .acc id, .. } :: _ => d.rowOne m id
  | _ => false

/-- A read comes back for access `id` (CHANNEL_READ_RETURN, RDATA). -/
def Dev.readBack (d : Dev) (id : Nat) (o : CwOut) : Dev :=
  (d.modAcc id fun a => { a with got := some o }).modCip fun x => { x with zeroed := x.zeroed.filter (· != id) }

/-- The write of access `id` is accepted (WRITE_ACCEPTANCE, WACC). -/
def Dev.writeBack (d : Dev) (id : Nat) : Dev :=
  match d.cip.accs.find? fun a => a.id == id with
  | none => d
  | some a => d.endAcc a .accepted

/-- COUNTER_LINE_MERGE (R215): the oldest copy that was written back is merged into its stored counter line. -/
def Dev.counterMerge (m : Dram) (d : Dev) : Dev :=
  match d.cip.merges with
  | [] => d
  | x :: rest =>
    let d := (d.modCip fun c => { c with merges := rest }).count .ctrMerge x.q
    let r := d.storedCtr m x.frame
    let d := d.noteCtr m x.frame
    match r with
    | .ok c => d.writeCtr x.frame (x.over c)
    | .error 9 => match d.ctrSaOf x.frame with
      | some sa => match d.place sa with
        | .member dev _ _ => d.foldEnter sa dev true
        | _ => d
      | none => d
    | .error row => (d.ctrMismatch x.frame row).counterLost x.frame row

/-- REENCRYPTION_ENTRY_FREE (Table 8.8, step 2): the oldest write that waits for an entry of partition `q` goes on. -/
def Dev.reencResume (d : Dev) (q : Nat) : Dev :=
  if 16 ≤ d.reencUsed q then d
  else match d.cip.accs.find? fun a => a.parked && d.frameOwner (a.sa / 4096) == q with
    | none => d
    | some a => d.modAcc a.id fun x => { x with parked := false }

/-- Rewrites one line of a frame under re-encryption (Table 8.8, step 5). A rewrite that a fold drops counts as done, its line on the fold
list (Table 8.9). -/
def Dev.reencLine (m : Dram) (d : Dev) (r : ReEnc) (i : Nat) : Dev :=
  let sa := r.frame * 4096 + 64 * i
  let dpa := ((d.frameDpa r.frame).map (· + 64 * i)).getD 0
  let dev := match r.dom with | .ld n _ _ => n | _ => 0xFF
  match d.ctrCopy r.frame r.q with
  | none => d
  | some x =>
    let took := d.putCopy { x with ctr := x.ctr.setMinor i 1, changed := BitVec.allOnes 64 }
    match d.peek m sa with
    | none => took.foldWrite sa dpa dev (match r.dom with | .ld .. => false | _ => true)
    | some o =>
      let d := took.noteRead m sa dpa dev .internal false
      let s := d.settle r.dom sa none [(r.old.major.toNat, r.old.minor i)] o
      let unit := d.placeUnit (d.place sa)
      let d := if s.mismatch then d.mismatchRecord unit sa dpa dev r.dom false s.mark else d
      (d.countZero unit s.row).fireWrite sa (d.seal r.dom (blockOf sa none x.ctr.major.toNat 1) s.data s.poison)

/-- REENCRYPTION_COMPLETE (Table 8.8, steps 5 and 6): the lines not yet done are rewritten in order, the counter line is
written back, the entry is freed and the hold ends. -/
def Dev.reencComplete (m : Dram) (d : Dev) (frame : Nat) : Dev :=
  match d.reencOf frame with
  | none => d
  | some r =>
    let d := ((List.range 64).filter fun i => !r.done.getLsbD i).foldl (fun d i => d.reencLine m r i) d
    (d.modCip fun x => { x with reencs := x.reencs.filter (·.frame != frame) }).unhold frame

/-- Whether an access writes a line of a frame and has not been issued. -/
def Dev.unsentTo (d : Dev) (frame : Nat) : Bool :=
  d.cip.accs.any fun a => a.sa / 4096 == frame && a.kind != .read && !a.wrote

end Sys2Proof.Machine
end

