-- ==== Sys2Proof/Machine/MapOps.lean ====
section
/-! DEFINITION. The tier map and the frame pool (chapter 6): field descriptors, page-map entries, translation, lost map lines,
the free list and the watermarks, sheaf frames. -/

namespace Sys2Proof.Machine

/-! ### Field descriptors and page-map entries (Tables 6.1, 6.2) -/

structure Desc where
  v : Bool := false
  tiered : Bool := false
  cpol : Nat := 0
  ld : Nat := 0
  thresh : Nat := 0
  budget : Nat := 0
  /-- SA[47:12] -/
  base : Nat := 0
  elastic : Bool := false
  tpol : Nat := 0
  rpromo : Nat := 0
  fpois : Bool := false
  deriving DecidableEq, Repr

def Desc.num (x : Desc) : Nat :=
  b2n x.v * 2 ^ 63 + b2n x.tiered * 2 ^ 62 + (x.cpol % 4) * 2 ^ 60 + (x.ld % 16) * 2 ^ 56 + (x.thresh % 16) * 2 ^ 52 +
    (x.budget % 16) * 2 ^ 48 + (x.base % 2 ^ 36) * 2 ^ 12 + b2n x.elastic * 2 ^ 11 + (x.tpol % 4) * 2 ^ 9 +
    (x.rpromo % 4) * 2 ^ 7 + b2n x.fpois * 2 ^ 6

def descOf (v : Nat) : Desc :=
  { v := bitOf v 63, tiered := bitOf v 62, cpol := bitsOf v 61 60, ld := bitsOf v 59 56, thresh := bitsOf v 55 52,
    budget := bitsOf v 51 48, base := bitsOf v 47 12, elastic := bitOf v 11, tpol := bitsOf v 10 9, rpromo := bitsOf v 8 7,
    fpois := bitOf v 6 }

/-- STATE of a page-map entry: 0 bare, 1 sward, 2 fallow, 3 poisoned. -/
structure Pme where
  state : Nat := 0
  frame : Nat := 0
  soff : Nat := 0
  scnt : Nat := 0
  tsel : Nat := 0
  pgc : Nat := 0
  hot : Nat := 0
  fctr : Nat := 0
  deriving DecidableEq, Repr

def Pme.num (x : Pme) : Nat :=
  (x.state % 4) * 2 ^ 62 + (x.frame % 2 ^ 36) * 2 ^ 26 + (x.soff % 16) * 2 ^ 22 + (x.scnt % 16) * 2 ^ 18 +
    (x.tsel % 8) * 2 ^ 15 + (x.pgc % 32) * 2 ^ 10 + (x.hot % 16) * 2 ^ 6 + x.fctr % 64

def pmeOf (v : Nat) : Pme :=
  { state := bitsOf v 63 62, frame := bitsOf v 61 26, soff := bitsOf v 25 22, scnt := bitsOf v 21 18, tsel := bitsOf v 17 15,
    pgc := bitsOf v 14 10, hot := bitsOf v 9 6, fctr := bitsOf v 5 0 }

/-- An entry in a state that uses no storage: FRAME, SOFF, SCNT and TSEL are zero (R146). -/
def Pme.toState (x : Pme) (st : Nat) : Pme := { x with state := st, frame := 0, soff := 0, scnt := 0, tsel := 0 }

/-! ### Map lines -/

/-- Word `i` of a line of eight 64-bit entries. -/
def wordOfLine (x : Line) (i : Nat) : Nat := bitsOf x.toNat (64 * i + 63) (64 * i)
def setWord (x : Line) (i v : Nat) : Line := BitVec.ofNat 512 (putBits x.toNat (64 * i + 63) (64 * i) v)

def Dev.ftab (d : Dev) : Nat := d.fld .gblFtab F.gblFtab_BASE * 4096
/-- SA of a field's descriptor (R66). -/
def Dev.descSa (d : Dev) (field : Nat) : Nat := d.ftab + 8 * field
def Dev.inFtab (d : Dev) (sa : Nat) : Bool := decide (d.ftab ≤ sa ∧ sa < d.ftab + 2 ^ 30)

def Dev.modTed (d : Dev) (f : Tiers → Tiers) : Dev := { d with ted := f d.ted }

def Dev.mapLine (d : Dev) (sa : Nat) : Line := kvGet (fun _ => 0) d.ted.map (sa / 64)
def Dev.desc (d : Dev) (field : Nat) : Desc :=
  let sa := d.descSa field
  descOf (wordOfLine (d.mapLine sa) (sa / 8 % 8))
def Dev.pmeSa (d : Dev) (field page : Nat) : Nat := (d.desc field).base * 4096 + 8 * page
def Dev.pme (d : Dev) (field page : Nat) : Pme :=
  let sa := d.pmeSa field page
  pmeOf (wordOfLine (d.mapLine sa) (sa / 8 % 8))

/-- Slices that hold a map line have their copy updated (R150). -/
def Dev.broadcast (d : Dev) (sa : Nat) (x : Line) : Dev :=
  d.modTed fun t => { t with tcache := t.tcache.map fun p =>
    (p.1, p.2.map fun q => if q.1 = sa / 64 then (q.1, x) else q) }

/-- The lines in Tedder `ted`'s map write buffer: those whose DRAM write has not been accepted (R150). -/
def Dev.mapBuffered (d : Dev) (ted : Nat) : List Nat := ((d.cip.accs.filter fun a => a.own == .mapWrite ted).map (·.sa)).eraseDups

/-- The map write buffer of `ted`, 64 lines, takes a change of the line at `sa` (R150). -/
def Dev.mapRoom (d : Dev) (ted sa : Nat) : Bool :=
  let l := d.mapBuffered ted
  l.contains (sa / 64 * 64) || (decide (l.length < 64) && !(d.ted.mapQ.any fun p => p.1 == ted))

def Dev.bufferMap (d : Dev) (ted sa : Nat) : Dev :=
  d.ask { id := 0, own := .mapWrite ted, kind := .write, sa := sa, dom := .device, src := .map, data := d.mapLine sa }

/-- Writes a map line by Tedder `ted`: into its map write buffer and on to storage (R149, R150). A line that finds the buffer full waits
for an entry; only operations that stand for many changes have such lines (log entry 27). -/
def Dev.putMapLine (d : Dev) (ted sa : Nat) (x : Line) (tell : Bool) : Dev :=
  let sa := sa / 64 * 64
  let d := d.modTed fun t => { t with map := kvSet (fun _ => 0) t.map (sa / 64) x }
  let d := if tell then d.broadcast sa x else d
  let buffered (a : Access) : Bool := a.own == .mapWrite ted && a.sa == sa && !a.wrote
  if d.cip.accs.any buffered then
    d.modCip fun c => { c with accs := c.accs.map fun a => if buffered a then { a with data := x } else a }
  else if d.ted.mapQ.contains (ted, sa) then d
  else if d.mapRoom ted sa then d.bufferMap ted sa
  else d.modTed fun t => { t with mapQ := t.mapQ ++ [(ted, sa)] }

/-- A waiting map line takes an entry that has become free. -/
def Dev.mapQStep (d : Dev) : Option Dev :=
  (d.ted.mapQ.find? fun p => decide ((d.mapBuffered p.1).length < 64)).map fun p =>
    (d.modTed fun t => { t with mapQ := t.mapQ.erase p }).bufferMap p.1 p.2

def Dev.putMapWord (d : Dev) (ted sa v : Nat) (tell : Bool) : Dev :=
  d.putMapLine ted sa (setWord (d.mapLine sa) (sa / 8 % 8) v) tell

/-- Map lines of an erased frame read as zeros (R225); what was still to be written of them is not written. -/
def Dev.forgetMap (d : Dev) (frame : Nat) : Dev :=
  let unsent (a : Access) : Bool := (match a.own with | .mapWrite _ => true | _ => false) && a.sa / 4096 == frame && !a.wrote
  (d.modTed fun t => { t with map := t.map.filter (fun p => p.1 / 64 != frame), mapQ := t.mapQ.filter fun p => p.2 / 4096 != frame,
                              tcache := t.tcache.map fun p => (p.1, p.2.filter fun q => q.1 / 64 != frame) }).modCip fun c =>
    if c.accs.any unsent then { c with accs := c.accs.filter fun a => !unsent a } else c

/-! ### The pool's accounts (R167, R175) -/

def Dev.freeFrames (d : Dev) : Nat := d.rd .tedPoolFree
def Dev.resv (d : Dev) : Nat := d.rd .tedPoolResv
/-- Elastic free, F − Rc. -/
def Dev.elasticFree (d : Dev) : Int := (d.freeFrames : Int) - d.resv
/-- A watermark in frames: units of 64 MiB are 16,384 frames. -/
def wmFrames (v : Nat) : Int := (v * 16384 : Nat)
def Dev.low (d : Dev) : Bool := d.flag .tedPoolStat F.tedPoolStat_LOW
def Dev.relMode (d : Dev) : Bool := d.flag .tedPoolStat F.tedPoolStat_REL

def Dev.extentPages (d : Dev) (n : Nat) : Nat := 512 * d.fld (.tedLdgrant n) F.tedLdgrant_FIELDS
def Dev.foot (d : Dev) (n : Nat) : Nat := d.rd (.tedLduse n)
def Dev.quotaFrames (d : Dev) (n : Nat) : Nat := d.fld (.tedLdcap n) F.tedLdcap_QUOTA * 262144

/-- Footprint of a field in sheaves: its page table and its pages (R167). -/
def Dev.fieldFoot (d : Dev) (field : Nat) : Nat :=
  16 + ((List.range 512).map fun p =>
    let e := d.pme field p
    if e.state = 1 then 16 else if e.state = 2 then e.scnt else 0).sum

/-- Extents to name: from the most recent, until their footprint covers `need` sheaves (R176 step 2). -/
def coverExtents (foot : Extent → Nat) (need : Nat) : List Extent → List Extent × Nat
  | [] => ([], 0)
  | e :: rest =>
    if foot e ≥ need then ([e], foot e)
    else
      let (l, f) := coverExtents foot (need - foot e) rest
      (e :: l, f + foot e)

/-- One LD's release request (R176 step 3). -/
def Dev.requestRelease (d : Dev) (n : Nat) (named : List Extent) (foot : Nat) : Dev :=
  match named with
  | [] => d
  | e :: _ =>
    let d := named.foldl (fun d x => d.raise
      { kind := .releaseCapacity, ty := 0, sev := .dcd, ld := n, addr0 := x.first * 2 ^ 21, addr1 := x.fields * 2 ^ 21,
        detail := x.tag }) d
    d.raise { vendorRec 0x0202 .warning 0x500 (n + named.length * 2 ^ 4 + (foot / 4096) * 2 ^ 32) with
      ld := n, addr0 := (d.winBase n + e.first) * 2 ^ 21 }

/-- A round of release requests (R176). -/
def Dev.releaseRound (d : Dev) : Dev :=
  let excess (n : Nat) : Int := (d.foot n : Int) - 16 * d.quotaFrames n
  let lds := ((List.range 16).filter fun n => decide (0 < excess n)).mergeSort fun a b => decide (excess b ≤ excess a)
  let short := (wmFrames (d.fld .tedWm F.tedWm_LOW) - d.elasticFree).toNat * 16
  (lds.foldl (fun (p : Dev × Nat) n =>
    if p.2 = 0 then p
    else
      let foot (e : Extent) : Nat := ((List.range e.fields).map fun i => d.fieldFoot (d.winBase n + e.first + i)).sum
      let (named, f) := coverExtents foot p.2 (d.extents n).reverse
      (p.1.requestRelease n named f, p.2 - min f p.2)) (d, short)).1

/-- Compares elastic free with the watermarks (R175); `first`: until the first change after reset no mode is in force. -/
def Dev.poolEval (d : Dev) : Dev :=
  let ef := d.elasticFree
  let low := wmFrames (d.fld .tedWm F.tedWm_LOW)
  let rel := wmFrames (d.fld .tedWm F.tedWm_REL)
  let floor := wmFrames (d.fld .tedWm F.tedWm_FLOOR)
  let hyst := wmFrames (d.fld .tedWm F.tedWm_HYST)
  let mib : Nat := (ef.toNat * 4096) / 2 ^ 20
  let wasLow := d.low
  let wasRel := d.relMode
  let wasFloor := d.flag .tedPoolStat F.tedPoolStat_FLOOR
  let isLow := decide (ef ≤ low) || (wasLow && decide (ef ≤ low + hyst))
  let isRel := decide (ef ≤ rel) || (wasRel && decide (ef ≤ low))
  let isFloor := decide (ef ≤ floor)
  let d := ((d.setFlag .tedPoolStat F.tedPoolStat_LOW isLow).setFlag .tedPoolStat F.tedPoolStat_REL isRel).setFlag
    .tedPoolStat F.tedPoolStat_FLOOR isFloor
  let d := if isFloor then d.setFlag .tedPoolStat F.tedPoolStat_FLOOR_SEEN true else d
  let d := d.modTed fun t => { t with evaluated := true }
  let d := if isLow && !wasLow then d.raise (vendorRec 0x0203 .info 0x500 mib) else d
  let d := if isFloor && !wasFloor then d.raise (vendorRec 0x0204 .warning 0x500 mib) else d
  if isRel && !wasRel then d.releaseRound else d

/-- Sets F and Rc, and evaluates the modes. -/
def Dev.setPool (d : Dev) (f rc : Nat) : Dev :=
  if f = d.freeFrames ∧ rc = d.resv then d
  else ((d.wr .tedPoolFree f).wr .tedPoolResv rc).poolEval

/-! ### Writing page-map entries, with the accounts they change (R146, R167) -/

/-- Storage that a page counts for in its LD's footprint, in sheaves. -/
def Pme.weight (x : Pme) : Nat := if x.state = 1 then 16 else if x.state = 2 then x.scnt else 0

def Dev.putPme (d : Dev) (field page : Nat) (x : Pme) : Dev :=
  let ds := d.desc field
  let old := d.pme field page
  let tell := { old with hot := 0 } != { x with hot := 0 }
  let d := d.putMapWord (field % 4) (d.pmeSa field page) x.num tell
  if ds.elastic then
    d.wr (.tedLduse ds.ld) (d.foot ds.ld + x.weight - old.weight)
  else
    let add := b2n (x.state != 1)
    let sub := b2n (old.state != 1)
    d.setPool d.freeFrames (d.resv + add - sub)

/-! ### The free list (R167) -/

/-- The enabled pool range that holds a frame. -/
def Dev.poolRange (d : Dev) (frame : Nat) : Option Nat :=
  (List.range 16).find? fun k => d.flag (.tedPool k) F.tedPool_EN &&
    decide (d.fld (.tedPool k) F.tedPool_BASE * 262144 ≤ frame) &&
    decide (frame < (d.fld (.tedPool k) F.tedPool_BASE + d.fld (.tedPool k) F.tedPool_SIZE) * 262144)

def Dev.draining (d : Dev) (frame : Nat) : Bool :=
  match d.poolRange frame with | some k => d.flag (.tedPool k) F.tedPool_DRAIN | none => false

/-- Takes the first frame of the list that is not passed over: only frames of draining ranges are (R167). Runs do not cross ranges. -/
def takeFrame (skip : Nat → Bool) : List (Nat × Nat) → Option (Nat × List (Nat × Nat))
  | [] => none
  | (f, n) :: rest =>
    if n = 0 then takeFrame skip rest
    else if skip f then (takeFrame skip rest).map fun p => (p.1, (f, n) :: p.2)
    else some (f, if n = 1 then rest else (f + 1, n - 1) :: rest)

/-- Puts a frame at the tail, joined to the last run where it follows it and does not begin a GiB. -/
def putFrame (l : List (Nat × Nat)) (f : Nat) : List (Nat × Nat) :=
  match l.getLast? with
  | some (g, n) => if g + n = f ∧ f % 262144 ≠ 0 then l.dropLast ++ [(g, n + 1)] else l ++ [(f, 1)]
  | none => [(f, 1)]

/-- What a frame is wanted for (R172, R173). -/
inductive FrameFor where
  | committedPromotion | elasticPromotion | tableOrMap | committedDemotion | elasticMove
  deriving DecidableEq, Repr

def Dev.mayTake (d : Dev) (w : FrameFor) : Bool :=
  let ef := d.elasticFree
  let floor := wmFrames (d.fld .tedWm F.tedWm_FLOOR)
  match w with
  | .committedPromotion => decide (0 < d.freeFrames)
  | .elasticPromotion | .tableOrMap => decide (floor < ef)
  | .committedDemotion => decide (floor + 2 ≤ ef)
  | .elasticMove => decide (0 < ef)

/-- The frame that is taken next lies in a set that is not READY, so that its erase has to wait (R212). -/
def Dev.nextWaits (d : Dev) : Bool :=
  match Sys2Proof.Machine.takeFrame d.draining d.ted.free with
  | some (f, _) => d.place (f * 4096) == .wait
  | none => false

/-- Takes a frame from the pool for `use` and erases it (R226); the erase waits until the frame's set is READY (R212). -/
def Dev.takeFrame (m : Dram) (d : Dev) (use : FrameUse) : Option (Nat × Dev) :=
  match Sys2Proof.Machine.takeFrame d.draining d.ted.free with
  | none => none
  | some (f, l) =>
    let d := d.modTed fun t => { t with free := l, uses := kvIns t.uses f use }
    let d := (d.setPool (d.freeFrames - 1) d.resv).forgetMap f
    some (f, if d.place (f * 4096) == .wait then d.modTed fun t => { t with erases := t.erases ++ [f] } else d.eraseFrame m f)

/-- The erases that waited for a set are made once it is READY. -/
def Dev.erasesDue (m : Dram) (d : Dev) : Dev :=
  let due := d.ted.erases.filter fun f => d.place (f * 4096) != .wait
  due.foldl (fun d f => d.eraseFrame m f) (d.modTed fun t => { t with erases := t.erases.filter fun f => !due.contains f })

/-- A drained range has no frame in use (R166 step 3). -/
def Dev.drainCheck (d : Dev) (k : Nat) : Dev :=
  let base := d.fld (.tedPool k) F.tedPool_BASE * 262144
  let size := d.fld (.tedPool k) F.tedPool_SIZE * 262144
  let used := d.ted.uses.any fun p => decide (base ≤ p.1) && decide (p.1 < base + size)
  if d.flag (.tedPool k) F.tedPool_EN && d.flag (.tedPool k) F.tedPool_DRAIN && !d.flag (.tedPool k) F.tedPool_DRAINED && !used
  then (d.setFlag (.tedPool k) F.tedPool_DRAINED true).raise
    { vendorRec 0x0206 .info 0x500 k with addr0 := base * 4096 }
  else d

/-- Returns a frame to the pool; a frame of a draining range does not go back to the list (R167). -/
def Dev.freeFrame (d : Dev) (f : Nat) : Dev :=
  let d := (d.modTed fun t => { t with uses := kvDel t.uses f, erases := t.erases.filter (· != f) }).forgetMap f
  if d.draining f then d
  else
    let d := d.modTed fun t => { t with free := putFrame t.free f }
    d.setPool (d.freeFrames + 1) d.resv

/-! ### Lost frames (R151) -/

/-- Frames that no surviving map structure names any more. They are in nobody's use, and do not come back to the free list. -/
def Dev.addLost (d : Dev) (fs : List Nat) : Dev :=
  let new := fs.filter fun f => !d.ted.leaked.contains f
  d.modTed fun t => { t with lostFrames := t.lostFrames ++ new.map fun f => (f, d.frameOwner f), leaked := t.leaked ++ new,
                             uses := t.uses.filter fun p => !new.contains p.1 }

/-! ### Sheaf frames (R164) -/

/-- First offset of `n` free sheaves in an occupancy word, lowest first. -/
def freeRun (occ n : Nat) : Option Nat :=
  (List.range 17).find? fun s => decide (s + n ≤ 16) && bitsOf occ (s + n - 1) s == 0

def usedSheaves (occ : Nat) : Nat := ((List.range 16).map fun i => b2n (bitOf occ i)).sum

/-- The sheaf-map frame of a Tedder for an aligned run of 2,048 frames. -/
def Dev.sheafMapOf (d : Dev) (ted run : Nat) : Option Nat := (d.ted.uses.find? fun p => p.2 == .sheafMap ted run).map (·.1)

/-- The entry of a sheaf frame in its Tedder's sheaf map: its SA, 2 B per frame of the run. -/
def sheafEntrySa (mapFrame frame : Nat) : Nat := mapFrame * 4096 + 2 * (frame % 2048)

/-- Used sheaves of a frame, as the sheaf map of a Tedder holds them. -/
def Dev.sheafOcc (d : Dev) (ted frame : Nat) : Nat :=
  match d.sheafMapOf ted (frame / 2048) with
  | none => 0
  | some g =>
    let sa := sheafEntrySa g frame
    bitsOf (d.mapLine sa).toNat (8 * (sa % 64) + 15) (8 * (sa % 64))

/-- Changes the entry of a sheaf frame. Slices hold no sheaf maps. -/
def Dev.setSheafOcc (d : Dev) (ted frame occ : Nat) : Dev :=
  match d.sheafMapOf ted (frame / 2048) with
  | none => d
  | some g =>
    let sa := sheafEntrySa g frame
    d.putMapLine ted sa (BitVec.ofNat 512 (putBits (d.mapLine sa).toNat (8 * (sa % 64) + 15) (8 * (sa % 64)) occ)) false

def Dev.sheafMapEmpty (d : Dev) (g : Nat) : Bool := (List.range 64).all fun i => d.mapLine (g * 4096 + 64 * i) == 0

/-- The fullest sheaf frame of a Tedder with a long enough free run, the lowest-numbered of equals. A frame with a line whose
minor counter is 127 takes no new slot (R218). -/
def Dev.sheafFit (m : Dram) (d : Dev) (ted n : Nat) (ok : Nat → Bool) : Option (Nat × Nat) :=
  (d.ted.uses.foldl (fun (best : Option (Nat × Nat × Nat)) p =>
    let f := p.1
    if p.2 = .sheaves ted ∧ ok f ∧ !d.draining f then
      let occ := d.sheafOcc ted f
      match freeRun occ n with
      | none => best
      | some s =>
        let full := match d.currentCtr m f with
          | .ok c => (List.range 64).any fun i => c.minor i == 127
          | .error _ => true
        if full then best
        else match best with
          | some (_, _, u) => if u < usedSheaves occ then some (f, s, usedSheaves occ) else best
          | none => some (f, s, usedSheaves occ)
    else best) none).map fun b => (b.1, b.2.1)

/-- Takes a sheaf-map frame for the run that holds `frame`, when none of the Tedder's describes it (R164). -/
def Dev.needSheafMap (m : Dram) (d : Dev) (ted frame : Nat) : Option Dev :=
  if (d.sheafMapOf ted (frame / 2048)).isSome then some d
  else if d.mayTake .tableOrMap then
    (d.takeFrame m (.sheafMap ted (frame / 2048))).map (·.2)
  else none

/-- Takes `n` contiguous sheaves for a page, opening a new sheaf frame where none fits (Table 6.6 step 5). -/
def Dev.takeSheaves (m : Dram) (d : Dev) (ted n page : Nat) (w : FrameFor) (ok : Nat → Bool) : Option (Nat × Nat × Dev) :=
  let mark (d : Dev) (f s : Nat) : Dev :=
    (d.setSheafOcc ted f (d.sheafOcc ted f ||| ((2 ^ n - 1) <<< s))).modTed fun t =>
      { t with slots := (List.range n).foldl (fun l i => kvIns l (f * 16 + s + i) page) t.slots }
  match d.sheafFit m ted n ok with
  | some (f, s) => some (f, s, mark d f s)
  | none =>
    if d.mayTake w then
      match d.takeFrame m (.sheaves ted) with
      | none => none
      | some (f, d1) => match d1.needSheafMap m ted f with
        | some d2 => some (f, 0, mark d2 f 0)
        | none => none
    else none

/-- Frees sheaves; a sheaf frame that becomes empty returns to the pool, and so does a sheaf-map frame whose entries are all zero (R164).
A frame whose used sheaves are all those of lost entries is lost (R151). -/
def Dev.freeSheaves (d : Dev) (f s n : Nat) : Dev :=
  match d.ted.useOf f with
  | some (.sheaves ted) =>
    let occ := d.sheafOcc ted f
    let left := occ - (occ &&& ((2 ^ n - 1) <<< s))
    let d := (d.setSheafOcc ted f left).modTed fun t =>
      { t with slots := (List.range n).foldl (fun l i => kvDel l (f * 16 + s + i)) t.slots }
    if left = 0 then
      let d := d.freeFrame f
      match d.sheafMapOf ted (f / 2048) with
      | some g => if d.sheafMapEmpty g then d.freeFrame g else d
      | none => d
    else if d.ted.slots.any fun p => p.1 / 16 == f then d
    else d.addLost [f]
  | _ => d

/-- Frees what a page's entry names. -/
def Dev.freePage (d : Dev) (x : Pme) : Dev :=
  if x.state = 1 then d.freeFrame x.frame
  else if x.state = 2 then d.freeSheaves x.frame x.soff x.scnt
  else d

/-! ### Translation (R66, R149, R150) -/

/-- A map line as a slice sees it: its own copy, or the map write buffer's. -/
def Dev.mapLook (d : Dev) (slice sa : Nat) : Option Line :=
  match (kvGet (fun _ => []) d.ted.tcache slice).find? fun q => q.1 == sa / 64 with
  | some q => some q.2
  | none =>
    if (d.cip.accs.any fun a => (match a.own with | .mapWrite _ => true | _ => false) && a.sa / 64 == sa / 64) ||
        d.ted.mapQ.any fun p => p.2 / 64 == sa / 64 then
      some (d.mapLine sa)
    else none

/-- Takes a line into a slice's translation cache: 512 KiB, 8,192 lines, replaced least recently used (log entry 21). -/
def Dev.mapFill (d : Dev) (slice sa : Nat) (x : Line) : Dev :=
  d.modTed fun t => { t with tcache := kvMod (fun _ => []) t.tcache slice fun l =>
    ((sa / 64, x) :: l.filter fun q => q.1 != sa / 64).take 8192 }

/-- Translates a line at its home slice, or names the map line that is missing. -/
def Dev.xlate (d : Dev) (line : Nat) : Except Nat Xlat :=
  let slice := homeOf line
  let dsa := d.descSa (fieldOfLine line)
  match d.mapLook slice dsa with
  | none => .error (dsa / 64 * 64)
  | some l =>
    let ds := descOf (wordOfLine l (dsa / 8 % 8))
    if !ds.v then .ok .unpopulated
    else if ds.fpois then .ok .lost
    else if !ds.tiered then .ok (.sa (ds.base * 4096 + line * 64 % 2 ^ 21))
    else
      let psa := ds.base * 4096 + 8 * (pageOfLine line % 512)
      match d.mapLook slice psa with
      | none => .error (psa / 64 * 64)
      | some l =>
        let e := pmeOf (wordOfLine l (psa / 8 % 8))
        .ok (match e.state with
          | 1 => .sa (e.frame * 4096 + line * 64 % 4096)
          | 2 => .fallow e.frame e.soff e.scnt e.fctr e.tsel e.pgc
          | 3 => .poisoned
          | _ => .bare)

/-- Asks for a map line, unless it is on its way. -/
def Dev.askMap (d : Dev) (sa : Nat) : Dev :=
  if d.cip.accs.any fun a => a.own == .map && a.sa == sa then d
  else d.ask { id := 0, own := .map, kind := .read, sa := sa, dom := .device, src := .map }

/-! ### Lost map lines (R151) -/

/-- Frames that page-map entries name: sward frames, and sheaf frames none of whose sheaves a surviving entry names. -/
def Dev.orphan (d : Dev) (x : Pme) : Dev × List Nat :=
  if x.state = 1 then (d, [x.frame])
  else if x.state = 2 then
    let d := d.modTed fun t => { t with slots := (List.range x.scnt).foldl (fun l i => kvDel l (x.frame * 16 + x.soff + i)) t.slots }
    (d, if d.ted.slots.any fun p => p.1 / 16 == x.frame then [] else [x.frame])
  else (d, [])

def Dev.orphanPages (d : Dev) (field : Nat) (pages : List Nat) : Dev :=
  pages.foldl (fun d p => let (d, fs) := d.orphan (d.pme field p); d.addLost fs) d

/-- What is kept of a field whose descriptor is lost. -/
def Dev.loseField (d : Dev) (field : Nat) : Dev :=
  let ds := d.desc field
  if !ds.v || ds.fpois then d
  else
    let notSward := ((List.range 512).filter fun p => (d.pme field p).state != 1).length
    let x : LostField := if !ds.tiered then { field := field, ld := ds.ld, flat := some ds.base }
      else if ds.elastic then { field := field, ld := ds.ld, foot := d.fieldFoot field }
      else { field := field, ld := ds.ld, resv := notSward }
    let d := d.modTed fun t => { t with lostFields := t.lostFields ++ [x] }
    if ds.tiered then (d.orphanPages field (List.range 512)).addLost [ds.base] else d

/-- A map line's read returned poison (R151). -/
def Dev.mapLost (d : Dev) (sa : Nat) : Dev :=
  if d.inFtab sa then
    let f0 := (sa - d.ftab) / 64 * 8
    let d := (List.range 8).foldl (fun d i => d.loseField (f0 + i)) d
    let x := (List.range 8).foldl (fun x i => setWord x i ({ v := true, fpois := true } : Desc).num) (0 : Line)
    (d.putMapLine 0 sa x true).raise { vendorRec 0x0205 .failure 0x500 (1 + 8 * 2 ^ 8) with
      addr0 := sa, addr1 := f0 * 2 ^ 21 }
  else
    match d.ted.useOf (sa / 4096) with
    | some (.table field) =>
      let p0 := sa % 4096 / 64 * 8
      let d := d.orphanPages field (List.range' p0 8)
      let d := (List.range' p0 8).foldl (fun d p => d.putPme field p { state := 3 }) d
      d.raise { vendorRec 0x0205 .failure (0x500 + field % 4) (8 * 2 ^ 8) with
        addr0 := sa, addr1 := field * 2 ^ 21 + p0 * 4096 }
    | _ => d

/-- A Tedder's cursor has passed all its fields: the lost frames it owns are counted (R151). -/
def Dev.leakReconcile (d : Dev) (ted : Nat) : Dev :=
  let mine := d.ted.lostFrames.filter fun f => f.2 == ted
  let d := d.modTed fun t => { t with lostFrames := t.lostFrames.filter fun f => f.2 != ted }
  d.setFld .tedPoolStat F.tedPoolStat_LEAK (satTo 24 (d.fld .tedPoolStat F.tedPoolStat_LEAK + mine.length))

end Sys2Proof.Machine
end

