-- ==== Sys2Proof/Machine/HomeDir.lean ====
section
/-! DEFINITION. The directory and the Sward cache (R114 to R124, R133): entries, ways, replacement, pins, write-backs. -/

namespace Sys2Proof.Machine

/-! ### The directory (R114 to R117) -/

/-- Directory set of a line: slice × 2^14 + DPA[23:10]. -/
def dirKey (line : Nat) : Nat := homeOf line * 2 ^ 14 + (line >>> 4) % 2 ^ 14

def Dev.modHome (d : Dev) (f : Home → Home) : Dev := { d with home := f d.home }

def Dev.dirSet (d : Dev) (key : Nat) : DirSet := kvGet (fun _ => {}) d.home.dir key
def Dev.modDirSet (d : Dev) (key : Nat) (f : DirSet → DirSet) : Dev :=
  d.modHome fun h => { h with dir := kvMod (fun _ => {}) h.dir key f }

/-- The valid entry of a line. -/
def Dev.ent (d : Dev) (line : Nat) : Option DirEnt := (d.dirSet (dirKey line)).ents.find? fun e => e.line == line

def Dev.modEnt (d : Dev) (line : Nat) (f : DirEnt → DirEnt) : Dev :=
  d.modDirSet (dirKey line) fun s => { s with ents := s.ents.map fun e => if e.line = line then f e else e }

def Dev.dropEnt (d : Dev) (line : Nat) : Dev :=
  d.modDirSet (dirKey line) fun s => { s with ents := s.ents.filter (·.line != line) }

/-- The way becomes the most recently used of its set (R133). -/
def Dev.touchEnt (d : Dev) (line : Nat) : Dev :=
  match d.ent line with
  | none => d
  | some e => d.modDirSet (dirKey line) fun s => { s with order := e.way :: s.order.filter (· != e.way) }

/-- The lowest way without a valid entry that is not retired. -/
def DirSet.freeWay (s : DirSet) : Option Nat :=
  (List.range 16).find? fun w => !s.retired.contains w && !s.ents.any (·.way == w)

/-- Allocates a locked entry for a line, when its set has an invalid way. -/
def Dev.allocEnt (d : Dev) (line : Nat) : Option Dev :=
  let s := d.dirSet (dirKey line)
  s.freeWay.map fun w =>
    let e : DirEnt := { way := w, line := line, busy := true, st := .i, swd := .absent, holders := 0 }
    (d.modDirSet (dirKey line) fun s => { s with ents := s.ents ++ [e] }).touchEnt line

/-- Frees an entry that nothing needs (R116). -/
def Dev.settleEnt (d : Dev) (line : Nat) : Dev :=
  match d.ent line with
  | some e => if !e.busy && e.holders == 0 && e.swd == .absent then d.dropEnt line else d
  | none => d

def DirEnt.has (e : DirEnt) (ld : Nat) : Bool := e.holders.getLsbD ld
def DirEnt.holderList (e : DirEnt) : List Nat := (List.range 16).filter e.has
def ldBit (ld : Nat) : BitVec 16 := BitVec.ofNat 16 (2 ^ ld)

/-- The entry with holders and Sward copy as given: T while the copy is dirty, else E where `excl`, S with holders, I without
(Table 5.3). -/
def DirEnt.make (e : DirEnt) (holders : BitVec 16) (swd : Swd) (excl : Bool) : DirEnt :=
  { e with holders := holders, swd := swd,
           st := if swd = .dirty then .t else if holders = 0 then .i else if excl then .e else .s }

/-- Removes a holder (BIRsp-I, MemClnEvct, timer expiry). -/
def DirEnt.without (e : DirEnt) (ld : Nat) : DirEnt := e.make (e.holders &&& ~~~ ldBit ld) e.swd (e.st == .e)

/-! ### The Sward cache (R118 to R121) -/

def swKey (line : Nat) : Nat := homeOf line * 2 ^ 11 + (line >>> 4) % 2 ^ 11
def Dev.swSet (d : Dev) (key : Nat) : List SwWay := kvGet (fun _ => []) d.home.sward key
def Dev.modSwSet (d : Dev) (key : Nat) (f : List SwWay → List SwWay) : Dev :=
  d.modHome fun h => { h with sward := kvMod (fun _ => []) h.sward key f }
def Dev.sw (d : Dev) (line : Nat) : Option SwWay := (d.swSet (swKey line)).find? fun w => w.line == line
def Dev.modSw (d : Dev) (line : Nat) (f : SwWay → SwWay) : Dev :=
  d.modSwSet (swKey line) fun l => l.map fun w => if w.line = line then f w else w

/-- Drops a Sward copy; the directory follows. -/
def Dev.dropSw (d : Dev) (line : Nat) : Dev :=
  (d.modSwSet (swKey line) fun l => l.filter (·.line != line)).modEnt line fun e => e.make e.holders .absent (e.st == .e)

/-- Marks a line's copy clean or dirty. -/
def Dev.markSw (d : Dev) (line : Nat) (s : Swd) : Dev := d.modEnt line fun e => e.make e.holders s (e.st == .e)

def Dev.pinWays (d : Dev) : Nat := min 12 (d.fld .homeCtrl F.homeCtrl_PIN_WAYS)

/-- The pin that a placement with hint *place and pin* takes, within the limit of R120. The limit is looked at when a way is to be pinned:
a smaller PIN_WAYS written later unpins no way (log entry 115). -/
def Dev.pinFor (d : Dev) (line hint : Nat) (by_ : PinBy) : PinBy :=
  let others := (d.swSet (swKey line)).filter fun w => w.pin != .none && w.line != line
  if hint = 2 ∧ others.length < d.pinWays then by_ else .none

/-- The SA of a line as the Tedders' map has it; none where the line has no frame of its own. -/
def Dev.lineSa (d : Dev) (line : Nat) : Option Nat :=
  let ds := d.desc (fieldOfLine line)
  if !ds.v || ds.fpois then none
  else if !ds.tiered then some (ds.base * 4096 + line * 64 % 2 ^ 21)
  else
    let e := d.pme (fieldOfLine line) (pageOfLine line % 512)
    if e.state = 1 then some (e.frame * 4096 + line * 64 % 4096) else none

/-- The LD whose window holds a line, for its key domain (R206). -/
def Dev.lineLd (d : Dev) (line : Nat) : Nat := (d.ldOfField (fieldOfLine line)).getD 0xFF

/-- Writes a line to storage under its LD's present key: a Sward write-back, or the poisoning of a line (R123, R137). -/
def Dev.lineOut (d : Dev) (own : AccOwner) (line : Nat) (data : Line) (poison : Bool) : Dev :=
  match d.lineSa line with
  | some sa =>
    d.ask { id := 0, own := own, kind := .write, sa := sa, dpa := line * 64, ld := d.lineLd line,
            dom := d.fieldDom (fieldOfLine line), data := data, poison := poison }
  | none =>
    if own = .none then d else d.modCip fun c => { c with done := c.done ++ [(own, 0, .accepted)] }

/-- The way that a fill of the set may take: the lowest without a copy, else by the replacement scan the eligible way with the
highest AGE, the lowest of equals (R118). -/
def Dev.swVictim (d : Dev) (line : Nat) : Option (Nat × Option SwWay) :=
  let l := d.swSet (swKey line)
  match (List.range 16).find? fun w => !l.any (·.way == w) with
  | some w => some (w, none)
  | none =>
    let eligible := l.filter fun w => w.pin == .none && !((d.ent w.line).map (·.busy)).getD false
    (eligible.foldl (fun (b : Option SwWay) w => match b with
      | none => some w
      | some x => if x.age < w.age ∨ (x.age = w.age ∧ w.way < x.way) then some w else b) none).map fun v => (v.way, some v)

/-- Ages the eligible ways that a scan does not choose (R118). -/
def Dev.ageScan (d : Dev) (line chosen : Nat) : Dev :=
  let busy (w : SwWay) : Bool := ((d.ent w.line).map (·.busy)).getD false
  d.modSwSet (swKey line) fun l => l.map fun w =>
    if w.way ≠ chosen ∧ w.pin = .none ∧ !busy w then { w with age := min 3 (w.age + 1) } else w

/-- Takes a line into the Sward cache; a dirty victim is written back, and its copy dropped (R118). None when no way may be
replaced. -/
def Dev.swFill (d : Dev) (line : Nat) (data : Line) (pin : PinBy) (dirty : Bool) : Option Dev :=
  match d.swVictim line with
  | none => none
  | some (way, v) =>
    let d := match v with
      | none => d
      | some v =>
        let d := d.ageScan line way
        let dirtyV : Bool := match d.ent v.line with | some e => e.swd == Swd.dirty | none => false
        let d := if dirtyV then d.lineOut .none v.line v.data false else d
        (d.dropSw v.line).settleEnt v.line
    let x : SwWay := { way := way, line := line, pin := pin, age := 0, data := data }
    let d := d.modSwSet (swKey line) fun l => l ++ [x]
    some (d.markSw line (if dirty then .dirty else .clean))

/-- Unpins a way; its copy stays (R120). -/
def Dev.unpin (d : Dev) (line : Nat) : Dev := d.modSw line fun w => { w with pin := .none }

/-- Lines with a Sward copy. -/
def Dev.swLines (d : Dev) : List Nat := d.home.sward.flatMap fun p => p.2.map (·.line)
/-- Lines with a valid directory entry. -/
def Dev.dirLines (d : Dev) : List Nat := d.home.dir.flatMap fun p => p.2.ents.map (·.line)

/-- Entries of the lines of a page (R152): some line has a valid entry; some has a busy one. -/
def Dev.pageValid (d : Dev) (page : Nat) : Bool := (List.range 64).any fun i => (d.ent (page * 64 + i)).isSome
def Dev.pageBusy (d : Dev) (page : Nat) : Bool :=
  (List.range 64).any fun i => ((d.ent (page * 64 + i)).map (·.busy)).getD false

/-- The victim class of R133. -/
def Dev.victimClass (d : Dev) (e : DirEnt) : Nat :=
  if ((d.sw e.line).map (·.pin != .none)).getD false then 5
  else match e.st with
    | .i => 1 | .s => 2 | .t => 3 | .e => 4

/-- The victim of a set without an invalid way: the lowest class, then the least recently used way, among the ways that are not
busy (R133). -/
def Dev.pickVictim (d : Dev) (key : Nat) : Option DirEnt :=
  let s := d.dirSet key
  let byAge := s.order.reverse.filterMap fun w => s.ents.find? fun e => e.way == w && !e.busy
  byAge.foldl (fun (b : Option DirEnt) e => match b with
    | none => some e
    | some x => if d.victimClass e < d.victimClass x then some e else b) none

/-! ### SRAM errors (R117, R121) -/

def sliceUnit (line : Nat) : Nat := 0x300 + homeOf line

/-- A corrected directory error (R117). -/
def Dev.dirCe (d : Dev) (line : Nat) : Dev := d.bumpFld (.homeEcccnt (homeOf line)) F.homeEcccnt_DIR_CE

/-- An uncorrectable error in way `w` of the line's directory set (R117): the way is retired, Sward lines of the set that have no
valid entry are flushed. -/
def Dev.dirUe (d : Dev) (line w : Nat) : Dev :=
  let key := dirKey line
  let s := d.dirSet key
  let gone := s.ents.filter (·.way == w)
  let d := d.modDirSet key fun s =>
    { s with ents := s.ents.filter (·.way != w), retired := if s.retired.contains w then s.retired else s.retired ++ [w] }
  let lost := d.swLines.filter fun l => dirKey l == key && (d.ent l).isNone
  let d := lost.foldl (fun d l =>
    let dirty := gone.any fun e => e.line == l && e.swd == .dirty
    let d := match d.sw l with
      | some x => if dirty then d.lineOut .none l x.data false else d
      | none => d
    d.dropSw l) d
  let d := d.bumpFld (.homeEcccnt (homeOf line)) F.homeEcccnt_DIR_UE
  d.raise (vendorRec 0x0103 .fatal (sliceUnit line) (homeOf line + (key % 2 ^ 14) * 2 ^ 4 + w * 2 ^ 18))

/-- A corrected error in a line's Sward data is counted (R121). -/
def Dev.swdCe (d : Dev) (line : Nat) : Dev := if (d.sw line).isSome then d.count .swardCe (homeOf line) else d

/-- An uncorrectable error in a line's Sward data (R121): a clean copy is dropped; a dirty line is written as poisoned. -/
def Dev.swdUe (d : Dev) (line : Nat) : Dev :=
  match d.ent line, d.sw line with
  | some e, some _ =>
    let d := d.bumpFld (.homeEcccnt (homeOf line)) F.homeEcccnt_SWD_UE
    if e.swd = .dirty then
      let sa := (d.lineSa line).getD 0
      (((d.lineOut .none line 0 true).dropSw line).settleEnt line).raise
        { vendorRec 0x0104 .failure (sliceUnit line) (homeOf line) with addr0 := line * 64, addr1 := sa }
    else (d.dropSw line).settleEnt line
  | _, _ => d

end Sys2Proof.Machine
end

