-- ==== Sys2Proof/Machine/HomeOps.lean ====
section
/-! DEFINITION. Requests at the home slices (chapter 5): admission, line locks, snoops, the tables of requests and internal
events, parking for promotion, completion, dead holders. -/

namespace Sys2Proof.Machine

/-! ### Requests -/

def Dev.modTxn (d : Dev) (id : Nat) (f : Txn → Txn) : Dev :=
  d.modHome fun h => { h with txns := h.txns.map fun t => if t.id = id then f t else t }
def Dev.dropTxn (d : Dev) (id : Nat) : Dev := d.modHome fun h => { h with txns := h.txns.filter (·.id != id) }
def Dev.txn (d : Dev) (id : Nat) : Option Txn := d.home.txns.find? fun t => t.id == id
def Dev.addTxn (d : Dev) (t : Txn) : Dev :=
  d.modHome fun h => { h with txns := h.txns ++ [{ t with id := h.nextId }], nextId := h.nextId + 1 }

def Dev.unresp (d : Dev) (ld : Nat) : Bool := bitOf (d.rd .homeLdstat) ld

/-- The requesting LD, when it can be a holder: one on a CXL 3.1 head that answers snoops (R110, R138). A request whose LD has been reset
since (head 0xFF) completes without a response (R104). -/
def Dev.requester (d : Dev) (t : Txn) : Option Nat :=
  match t.src with
  | .host h ld _ => if h < 8 ∧ d.on31 ld ∧ !d.unresp ld ∧ t.op ≠ .ncRead ∧ t.op ≠ .ncWrite then some ld else none
  | _ => none

/-- The request comes from an LD that its response timer has made unresponsive, so that R138 answers it. -/
def Dev.shunned (d : Dev) (t : Txn) : Bool :=
  match t.src with
  | .host h ld _ => decide (h < 8) && d.unresp ld && !d.home.lost.contains ld
  | _ => false

/-- Back-invalidates can be sent to a holder: its LD is bound to a head whose protocol is CXL 3.1. The directory may still name an LD that
has been bound to another head since; the home sends it no snoop (R86, log entry 113). -/
def Dev.snoopable (d : Dev) (m : Nat) : Bool := d.bound m && d.proto (d.ldHead m) == 3

/-- The head whose queue shares a request takes (R130, R135). -/
def Dev.shareHead (d : Dev) (t : Txn) : Option Nat :=
  match t.src with
  | .host h _ _ => if h < 8 then some h else none
  | .ring _ _ ld => some (if ld < 16 then d.ldHead ld else d.hp.mgmtHead)
  | .dir => none

def Dev.inPhase (d : Dev) (slice head : Nat) (p : TPhase) : Nat :=
  (d.home.txns.filter fun t => t.phase == p && homeOf t.line == slice && d.shareHead t == some head).length
def Dev.parkedIn (d : Dev) (slice : Nat) : Nat :=
  (d.home.txns.filter fun t => t.phase == .parked && homeOf t.line == slice).length

/-- The policy hint of a line of an LD's window, and whether a range gives it (R119, R329). -/
def Dev.hintOf (d : Dev) (own line : Nat) : Nat × Bool :=
  let hits := d.home.pol.filter fun p => p.ld == own && decide (p.first ≤ line ∧ line < p.first + p.lines)
  match hits.foldl (fun (b : Option PolRange) p => match b with
      | none => some p
      | some x => if p.id < x.id then some p else b) none with
  | some p => (p.hint % 3, true)
  | none => (d.fld .homeCtrl F.homeCtrl_DEFHINT % 3, false)

/-- What pins a line placed now with *place and pin* (R120). A line that neither a range nor DEFHINT pins is pinned by its command's
own HINT alone. -/
def Dev.pinOrigin (d : Dev) (own line : Nat) : PinBy :=
  match d.hintOf own line with
  | (2, ranged) => if ranged then .range else .defhint
  | _ => .command

/-- Requests of R148's write class. -/
def HomeOp.writeClass : HomeOp → Bool
  | .rdE | .invA | .wr _ | .ncWrite => true
  | _ => false
def HomeOp.reads : HomeOp → Bool
  | .rdS | .rdI | .rdE | .ncRead => true
  | _ => false

/-! ### Responses and completion -/

/-- The key of a head's CXL IDE stream while it is secure: a line is enciphered with it for the link (R97, R231). -/
def Dev.ideKey (d : Dev) (h : Nat) : Option Nat :=
  let s := (d.head h).ide.getD 2 {}
  if s.secure then some s.key else none

/-- What a read of a line of an LD's window delivers: unpredictable data after a host error of that LD (R7). -/
def Dev.readData (d : Dev) (own : Nat) (data : Line) : Dev × Line :=
  if d.hp.spoilt.contains own then ({ d with fresh := d.fresh + 1 }, Config.wildLine d.fresh) else (d, data)

/-- A response of a request without data to hand over, or with data (Tables 5.4, 5.5). -/
def Dev.respond (d : Dev) (t : Txn) (data : Line) (poison : Bool) : Dev :=
  let (d, data) := if t.op.reads && !t.noData then d.readData t.own data else (d, data)
  match t.src with
  | .dir => d
  | .ring cmd idx _ => d.modHome fun h =>
      { h with ringDone := h.ringDone ++ [{ cmd := cmd, idx := idx, data := data, poison := poison }] }
  | .host head ld tag =>
    if 8 ≤ head then d else
    let lid := d.ldId ld
    let withData := t.op.reads && !t.noData
    let d := if withData then d.emit (.memData head lid t.hpa tag data poison (d.ideKey head)) else d
    let answer : S2M := match t.op with
      | .rdS => .cmpS
      | .rdE | .invA => .cmpE
      | _ => .cmp
    if t.op = .ncRead then d else
    let d := d.emit (.s2m head lid answer t.hpa tag)
    if t.op = .ncWrite then d else
    let d := (d.countLd ld 1)
    let d := if withData && poison then d.countLd ld 2 else d
    match t.sample with
    | none => d
    | some n =>
      let nodpa := decide (7 ≤ t.source ∧ t.source ≤ 11)
      let r : SampleRec :=
        { ld := ld, tld := if nodpa then ld else t.own, head := head, poison := withData && poison, opc := t.opc, seq := n,
          lat := satTo 24 (d.nowNs - t.t0), time := t.t0, source := t.source, dev := t.dev, chan := t.chan,
          slice := if nodpa then 0 else homeOf t.line, dpa := if nodpa then 0 else t.line * 64, hpa := t.hpa / 64 * 64 }
      d.modHome fun h => { h with sampleDone := h.sampleDone ++ [r] }

/-- Gives up a line's lock: to the first request that waits for it when `hand`, else it is cleared (R116, R129). -/
def Dev.unlock (d : Dev) (line : Nat) (hand : Bool) : Dev :=
  match (if hand then d.home.txns.find? fun t => t.phase == .lineWait && t.line == line else none) with
  | some t => (d.modTxn t.id fun t => { t with phase := .active }).touchEnt line
  | none => (d.modEnt line fun e => { e with busy := false }).settleEnt line

/-- The last acknowledge of a request has arrived (R129): its response is sent; the lock is cleared, or, when another request
waits for the line, kept until LINE_LOCK_RELEASE hands it on. -/
def Dev.finish (d : Dev) (t : Txn) (data : Line) (poison : Bool) : Dev :=
  let d := if d.shunned t then d.respond ((d.txn t.id).getD t) 0 true else d.respond ((d.txn t.id).getD t) data poison
  if d.home.txns.any fun x => x.phase == .lineWait && x.line == t.line then
    d.modTxn t.id fun x => { x with phase := .complete }
  else (d.dropTxn t.id).unlock t.line false

/-- LINE_LOCK_RELEASE (R129, R130). -/
def Dev.lineRelease (d : Dev) (line : Nat) : Dev :=
  match d.home.txns.find? fun t => t.phase == .complete && t.line == line with
  | none => d
  | some t => (d.dropTxn t.id).unlock line true

/-! ### Locks, the stand-by queue, evictions (R129 to R135) -/

/-- Evicts a victim for a request (R134). -/
def Dev.startEvict (d : Dev) (t : Txn) : Dev :=
  match d.pickVictim (dirKey t.line) with
  | none => d
  | some e =>
    let d := d.modEnt e.line fun e => { e with busy := true }
    let d := d.modTxn t.id fun x => { x with victim := some e.line }
    d.addTxn { id := 0, src := .dir, op := .evict, line := e.line, own := d.lineLd e.line, phase := .active }

/-- A request takes its line's lock, or waits for it or for a way. -/
def Dev.enterLine (d : Dev) (t : Txn) : Dev :=
  let s := homeOf t.line
  let go (d : Dev) (p : TPhase) : Dev := d.modTxn t.id fun x => { x with phase := p, victim := none }
  let full (d : Dev) (p : TPhase) (n : Nat) : Bool := match d.shareHead t with
    | some h => decide (n ≤ d.inPhase s h p)
    | none => false
  match d.ent t.line with
  | some e =>
    if e.busy then
      let d := go d .lineWait
      if full d .lineWait 28 then d.setFlag (.homeQstat s) F.homeQstat_LWQ_FULL true else d
    else (go (d.modEnt t.line fun e => { e with busy := true }) .active).touchEnt t.line
  | none => match d.allocEnt t.line with
    | some d => go d .active
    | none =>
      let d := go d .stand
      let d := if full d .stand 7 then d.setFlag (.homeQstat s) F.homeQstat_STBY_FULL true else d
      d.startEvict t

/-- The head's share of a slice's stand-by queue, or of its line-wait queue, has an entry free (R130, R135). -/
def Dev.standFree (d : Dev) (t : Txn) : Bool :=
  match d.shareHead t with
  | some h => decide (d.inPhase (homeOf t.line) h .stand < 7)
  | none => true
def Dev.lineWaitFree (d : Dev) (t : Txn) : Bool :=
  match d.shareHead t with
  | some h => decide (d.inPhase (homeOf t.line) h .lineWait < 28)
  | none => true

/-- No request of the line holds its lock or stands between two holders of it. -/
def Dev.lockGone (d : Dev) (line : Nat) : Bool := !d.home.txns.any fun x => x.phase == .complete && x.line == line

/-- A stand-by request without a victim tries again, in order of arrival (R135); so does the first request that waits for the lock of a
line whose entry an eviction has freed. -/
def Dev.standRetry (d : Dev) : Option Dev :=
  d.home.txns.findSome? fun t =>
    if t.phase = .stand ∧ t.victim = none then
      if (d.ent t.line).isSome then (if d.lineWaitFree t then some (d.enterLine t) else none)
      else if (d.dirSet (dirKey t.line)).freeWay.isSome then some (d.enterLine t)
      else if (d.pickVictim (dirKey t.line)).isSome then some (d.startEvict t)
      else none
    else if t.phase = .lineWait ∧ (d.ent t.line).isNone ∧ d.lockGone t.line then
      if (d.dirSet (dirKey t.line)).freeWay.isSome || d.standFree t then some (d.enterLine t) else none
    else none

/-- The way of an evicted line passes to the request that waits for it (R134). -/
def Dev.evicted (d : Dev) (t : Txn) : Dev :=
  let d := (d.dropTxn t.id).dropEnt t.line
  match d.home.txns.find? fun x => x.phase == .stand && x.victim == some t.line with
  | some x => d.enterLine x
  | none => d

/-- DIRECTORY_EVICTION_COMPLETE (R134, R135). -/
def Dev.evictionComplete (d : Dev) (line : Nat) : Dev :=
  match d.home.txns.find? fun t => t.phase == .acked && t.line == line with
  | some t => d.evicted t
  | none => d

/-! ### Admission (R22 to R24, R130 to R132, R141, R155, R168, R497) -/

/-- Requests of a head that wait before admission: the first 96 are in its receive crossing, and the head's request credits are what is
left of those slots (R22, R46). -/
def Dev.waiting (d : Dev) (h : Nat) : List Txn :=
  d.home.txns.filter fun t => t.phase == .entering && !t.pwait && (match t.src with | .host k _ _ => k == h | _ => false)
def Dev.reqCredits (d : Dev) (h : Nat) : Nat := (XId.headRx h).slots - (d.waiting h).length

/-- The request is the oldest of its slice that waits for an entry of the promotion-wait queue (R497). -/
def Dev.firstParkWait (d : Dev) (t : Txn) : Bool :=
  ((d.home.txns.find? fun x => x.pwait && homeOf x.line == homeOf t.line).map (·.id)) == some t.id

/-- The request may be admitted. One that waits for an entry of the promotion-wait queue was admitted before: it needs no credit, and is
admitted in order of arrival among such requests (R497). -/
def Dev.admissible (d : Dev) (t : Txn) : Bool :=
  let s := homeOf t.line
  t.phase == .entering && d.winBuilt t.own && d.lineWaitFree t && d.standFree t &&
  (if t.pwait then decide (d.parkedIn s < 64) && d.firstParkWait t
  else
    (match d.shareHead t with
      | some h => !(decide (64 ≤ d.parkedIn s) && d.home.txns.any fun x => x.phase == .parked && homeOf x.line == s && d.shareHead x == some h)
      | none => true) &&
    (match t.src with
      | .host h ld _ => decide (8 ≤ h) || (decide (0 < (d.head h).credits) && !d.unresp ld &&
          (((d.waiting h).take (XId.headRx h).slots).any fun x => x.id == t.id))
      | _ => true))

/-- The next head after `h` in order that is trained (R23). A pointer whose own head is or becomes untrained stays where it is until
another head's admission ends that head's turn (log entry 114). -/
def Dev.nextTop (d : Dev) (h : Nat) : Nat :=
  (((List.range' 1 8).map fun i => (h + i) % 8).find? d.headUp).getD h

/-- Distance of a request's head after the top head; internal agents come after all heads (R23, R24). A request that was admitted before
goes first. -/
def Dev.distance (d : Dev) (t : Txn) : Nat :=
  if t.pwait then 0 else
  match t.src with
  | .host h _ _ => if h < 8 then (h + 8 - d.home.top) % 8 else 8
  | _ => 8

/-- Counts an admitted request to a tiered field; every 2^SAMPLE-th of a slice becomes a sample (R158). A slice keeps one count for each
Tedder, since each has its own SAMPLE (log entry 116). -/
def Dev.countSample (d : Dev) (line : Nat) : Dev :=
  let ds := d.desc (fieldOfLine line)
  if !ds.v || !ds.tiered then d
  else
    let ted := fieldOfLine line % 4
    let k := homeOf line * 4 + ted
    let n := kvGet (fun _ => 0) d.ted.sampleCnt k + 1
    let every := 2 ^ min 8 (d.fld (.tedCtrl ted) F.tedCtrl_SAMPLE)
    if n % every = 0 then d.modTed fun t =>
      { t with sampleCnt := kvSet (fun _ => 0) t.sampleCnt k 0, samples := t.samples ++ [(homeOf line, pageOfLine line)] }
    else d.modTed fun t => { t with sampleCnt := kvSet (fun _ => 0) t.sampleCnt k n }

/-- Admits a request: its stamp (R208), its place in the order of admission, and the trump pointer (R23). The admission that ends a turn is
not counted in the next one, which starts at 0 (log entry 114). A request that was admitted before changes neither credits nor turn. -/
def Dev.letIn (d : Dev) (t : Txn) : Dev :=
  let d := if t.pwait then d else match t.src with
    | .host h _ _ =>
      if 8 ≤ h then d else
      let d := d.modHead h fun x => { x with credits := x.credits - 1 }
      if h = d.home.top then
        if d.home.turn + 1 = 1024 then d.modHome fun x => { x with top := d.nextTop d.home.top, turn := 0 }
        else d.modHome fun x => { x with turn := x.turn + 1 }
      else d.modHome fun x => { x with top := d.nextTop x.top, turn := 0 }
    | _ => d
  let d := if t.pwait then d else (d.countSample t.line).count .admitted (homeOf t.line)
  let hint := if t.hint = 3 then (d.hintOf t.own t.line).1 else t.hint
  let t := { t with hint := hint, pinBy := d.pinOrigin t.own t.line }
  let t := { t with key := d.ldKeyId t.own, kgen := d.ldKgen t.own, pwait := false }
  let d := d.modHome fun h => { h with txns := h.txns.filter (·.id != t.id) ++ [t] }
  d.enterLine t

/-- One admission. The manual does not say how many requests an admission step takes; here a step takes one, in the whole device, so that
the admission of another head's request after the top head's last one ends the turn (log entry 114): among the admissible requests the one whose head comes first after the top head, the oldest of equals. -/
def Dev.admitStep (d : Dev) : Option Dev :=
  let best := (d.home.txns.filter d.admissible).foldl (fun (b : Option Txn) t => match b with
    | none => some t
    | some x => if d.distance t < d.distance x then some t else b) none
  best.map d.letIn

/-! ### Snoops (R125, R128, R136 to R138) -/

def Dev.biTimer (d : Dev) : Nat := min 1000000 (max 1 (d.fld .homeBitimer F.homeBitimer_VALUE))

/-- Sends a back-invalidate to a holder. The line is named by its DPA (log entry 22). -/
def Dev.bisnp (d : Dev) (line ld : Nat) (op : S2M) (why : SnoopFor) : Dev :=
  let d := d.emit (.s2m (d.ldHead ld) (d.ldId ld) op (line * 64) 0)
  let d := d.countLd ld 4
  d.modHome fun h => { h with snoops := h.snoops ++ [{ line := line, ld := ld, op := op, why := why, bound := d.biTimer }] }

/-- A line is lost with the owner that does not answer: its Sward copy is dropped and it is written as poisoned (R137). -/
def Dev.poisonLine (d : Dev) (line : Nat) : Dev :=
  let d := (d.dropSw line).lineOut .none line 0 true
  d.modHome fun h => { h with txns := h.txns.map fun t =>
    if t.line = line ∧ t.phase = .active then { t with lineLost := true } else t }

/-- Lines poisoned for an LD whose directory sweep runs are counted in it (R139). -/
def Dev.countPoisoned (d : Dev) (ld : Nat) : Dev :=
  d.modHome fun h => { h with sweeps := h.sweeps.map fun s => if s.ld = ld then { s with poisoned := s.poisoned + 1 } else s }

/-- A holder that will not answer is taken out of a line's entry (R137, R138); a line that it held in E is poisoned. -/
def Dev.deadHolder (d : Dev) (line ld : Nat) : Dev :=
  match d.ent line with
  | none => d
  | some e =>
    if !e.has ld then d
    else
      let d := if e.st = .e then (d.poisonLine line).countPoisoned ld else d
      (d.modEnt line fun e => e.without ld).settleEnt line

/-- A back-invalidate for a holder: sent; answered on the spot where the holder is unresponsive (R138), or where it can be sent none
(R86). -/
def Dev.snoop (d : Dev) (line m : Nat) (op : S2M) (why : SnoopFor) : Dev :=
  if d.unresp m then d.deadHolder line m
  else if !d.snoopable m then (d.modEnt line fun e => e.without m).settleEnt line
  else d.bisnp line m op why

/-- The back-invalidates that a request calls for (Tables 5.4, 5.5). -/
def Dev.snoopsFor (d : Dev) (t : Txn) (e : DirEnt) : List (Nat × S2M) :=
  let r := d.requester t
  let others := e.holderList.filter fun m => r != some m
  match t.op with
  | .rdS => if e.st = .e then others.map fun m => (m, .bisnpData) else []
  | .rdI | .ncRead => if e.st = .e then others.map fun m => (m, .bisnpCur) else []
  | .rdE | .invA | .wr _ => others.map fun m => (m, .bisnpInv)
  | .invI | .ncWrite | .ncDrop | .evict => e.holderList.map fun m => (m, .bisnpInv)
  | .clnEvct => []

def Dev.sendSnoops (d : Dev) (t : Txn) (e : DirEnt) : Dev :=
  let l := d.snoopsFor t e
  let live := l.any fun p => !d.unresp p.1 && d.snoopable p.1
  let d := d.modTxn t.id fun x => { x with snooped := true, wrSent := x.wrSent || (t.op == .evict && live) }
  l.foldl (fun d p => d.snoop t.line p.1 p.2 (.txn t.id)) d

/-! ### Parking and promotion requests (R148, R155, R160, R497) -/

/-- Asks the owning Tedder to promote a page; requests for one page join. `cmds`: the ring command that asks. -/
def Dev.askPromo (d : Dev) (page : Nat) (why : PromoWhy) (cmds : List Nat) : Dev :=
  if d.ted.promos.any fun p => p.page == page then d.modTed fun t =>
    { t with promos := t.promos.map fun p => if p.page = page then { p with cmds := p.cmds ++ cmds } else p }
  else d.modTed fun t =>
    { t with promos := t.promos ++
        [{ ted := fieldOfPage page % 4, page := page, why := why, phase := .queued, cmds := cmds }] }

/-- Parks a request (R155), or makes it wait for an entry of the promotion-wait queue (R497). -/
def Dev.park (d : Dev) (t : Txn) : Dev :=
  let room := decide (d.parkedIn (homeOf t.line) < 64)
  let reset (x : Txn) : Txn :=
    { x with xlat := .none, snooped := false, rdSent := false, got := none, source := 6 }
  let d := d.modTxn t.id fun x =>
    if room then { reset x with phase := .parked } else { reset x with phase := .entering, pwait := true }
  let d := if room then d.askPromo (pageOfLine t.line) .write [] else d
  d.unlock t.line true

/-! ### A request that holds its line lock (R125, R126, Tables 5.4, 5.5) -/

/-- An access on behalf of a request, under its stamp (R208). -/
def Txn.access (t : Txn) (own : AccOwner) (kind : AccKind) (sa : Nat) (src : RdSource) : Access :=
  { id := 0, own := own, kind := kind, sa := sa, dpa := t.line * 64, ld := t.own, dom := .ld t.own t.key t.kgen, src := src,
    data := t.data, mask := t.mask, poison := t.poison }

def Txn.rdSource (t : Txn) : RdSource := match t.src with | .host .. => .host | _ => .internal

/-- DEV and CHAN of a place, for samples (Table 17.4). -/
def Dev.notePlace (d : Dev) (id sa : Nat) : Dev :=
  match d.place sa with
  | .here c _ => d.modTxn id fun t => { t with source := if t.source = 6 then 6 else 1, dev := 0, chan := c }
  | .member dev c _ => d.modTxn id fun t => { t with source := if t.source = 6 then 6 else 2, dev := dev, chan := c }
  | .fault => d.modTxn id fun t => { t with source := 10 }
  | .wait => d

def Dev.noteSource (d : Dev) (id s : Nat) : Dev := d.modTxn id fun t => { t with source := if t.source = 6 then 6 else s }

/-- An unpopulated field (R67). -/
def Dev.unpopRecord (d : Dev) (t : Txn) : Dev :=
  let (h, ld) := match t.src with | .host h ld _ => (h, ld) | .ring _ _ ld => (0xFF, if ld < 16 then ld else 0xFF) | .dir => (0xFF, 0xFF)
  d.raiseLimited ld { vendorRec 0x0002 .warning (sliceUnit t.line) 0 with head := h, ld := ld, addr0 := t.line * 64 }

/-- Reads a fallow page's sheaves (R192), and asks for its promotion where RPROMO is 2 (R160). -/
def Dev.readSheaves (d : Dev) (t : Txn) (frame soff scnt fctr : Nat) : Dev :=
  let first := frame * 4096 + soff * 256
  let d := (List.range (4 * scnt)).foldl (fun d i =>
    d.ask { t.access (.sheaf t.id i) .read (first + 64 * i) .internal with slot := some (first, soff, fctr) }) d
  let ds := d.desc (fieldOfLine t.line)
  let d := if ds.v && ds.rpromo == 2 then d.askPromo (pageOfLine t.line) .read [] else d
  d.noteSource t.id 3

/-- A read miss fills a clean copy under its hint, unless the line is poisoned (R119, R125). -/
def Dev.fillClean (d : Dev) (t : Txn) (data : Line) : Dev :=
  if t.hint = 1 || (d.sw t.line).isSome then d
  else (d.swFill t.line data (d.pinFor t.line t.hint t.pinBy) false).getD d

/-- The directory after a read. Table 5.4 has no row for an RdS of the LD that holds the line in E itself: no snoop is sent, and the line
is S with the requester as its holder (log entry 115). -/
def Dev.recordRead (d : Dev) (t : Txn) (poison : Bool) : Dev :=
  match t.op, d.requester t with
  | .rdS, some r => if poison then d else d.modEnt t.line fun e => e.make (e.holders ||| ldBit r) e.swd false
  | .rdE, some r | .invA, some r => d.modEnt t.line fun e => e.make (ldBit r) e.swd true
  | _, _ => d

/-- Takes the data of a read: the next step of a request that reads. -/
def Dev.readStep (d : Dev) (t : Txn) : Option Dev :=
  let setGot (d : Dev) (x : Line) (p : Bool) : Dev := d.modTxn t.id fun y => { y with got := some (x, p) }
  let lost := (d.desc (fieldOfLine t.line)).fpois
  if t.lineLost then some (setGot d 0 true)
  -- reads of a lost field complete with poison, whatever the Sward cache holds (R151)
  else match (if lost then none else d.sw t.line) with
    | some w => some ((setGot (d.modSw t.line fun w => { w with age := 0 }) w.data false).noteSource t.id 0)
    | none =>
      match t.xlat with
      | .none => match d.xlate t.line with
        | .ok x => some (d.modTxn t.id fun y => { y with xlat := x })
        | .error sa => if d.cip.accs.any fun a => a.own == .map && a.sa == sa then none else some (d.askMap sa)
      | .sa a => if t.rdSent then none
          else some (((d.notePlace t.id a).modTxn t.id fun y => { y with rdSent := true }).ask
            (t.access (.txn t.id) .read a t.rdSource))
      | .fallow f s n c _ _ => if t.rdSent then none
          else some ((d.modTxn t.id fun y => { y with rdSent := true }).readSheaves t f s n c)
      | .bare => some ((setGot d 0 false).noteSource t.id 4)
      | .poisoned | .lost => some ((setGot d 0 true).noteSource t.id 5)
      | .unpopulated => some (((setGot d 0 true).unpopRecord t).noteSource t.id 9)

/-- A Sward write-back that a request needs first (R123): the copy is enciphered and accepted, and becomes clean. -/
def Dev.wbStep (d : Dev) (t : Txn) : Option Dev :=
  if t.wbSent then none
  else match d.sw t.line with
    | some w => some ((d.modTxn t.id fun x => { x with wbSent := true, wbWait := true }).lineOut (.wback t.id) t.line w.data false)
    | none => some (d.markSw t.line .absent)

/-- Holders after a write (Table 5.4): the writer keeps a clean copy under MetaValue S. -/
def Dev.writerBits (d : Dev) (t : Txn) : BitVec 16 :=
  match t.op, d.requester t with
  | .wr true, some r => ldBit r
  | _, _ => 0

/-- Sends a request's write to storage: whole, or merged at the cipher unit (R18). -/
def Dev.writeSend (d : Dev) (t : Txn) (sa : Nat) (data : Line) (whole : Bool) : Dev :=
  let d := d.notePlace t.id sa
  let d := d.modTxn t.id fun x => { x with wrSent := true }
  d.ask { t.access (.txn t.id) (if whole then .write else .merge) sa (if whole then t.rdSource else .hostMerge) with data := data }

/-- Writes per hint (R17 to R19, R119, R120, R124). The state follows when the write is complete. -/
def Dev.writeStep (d : Dev) (t : Txn) (sa : Nat) : Option Dev :=
  let whole := t.mask == BitVec.allOnes 64
  let bits := d.writerBits t
  let settle (d : Dev) : Dev := d.modEnt t.line fun e => e.make bits e.swd false
  if t.wrSent then
    if t.wrDone then some ((settle (match d.sw t.line with
      | some _ => d.markSw t.line .clean
      | none => d)).finish t 0 false) else none
  else if t.poison then some ((d.dropSw t.line).writeSend t sa t.data whole)
  else if t.lineLost && !whole then some ((settle d).finish t 0 true)
  else
    let place := t.hint != 1
    match d.sw t.line with
    | some w =>
      let data := if whole then t.data else mergeLine w.data t.data t.mask
      let pin := if place then (match d.pinFor t.line t.hint t.pinBy with | .none => w.pin | p => p) else w.pin
      let d := d.modSw t.line fun w => { w with data := data, age := 0, pin := pin }
      if place then some ((settle (d.markSw t.line .dirty)).noteSource t.id 0 |>.finish t 0 false)
      else some (d.writeSend t sa data true)
    | none =>
      if place && whole then
        match d.swFill t.line t.data (d.pinFor t.line t.hint t.pinBy) true with
        | some d => some ((settle (d.markSw t.line .dirty)).noteSource t.id 0 |>.finish t 0 false)
        | none => some (d.writeSend t sa t.data true)
      else some (d.writeSend t sa t.data whole)

/-- One step of a request that holds its line lock; none when it waits. -/
def Dev.txnStep (d : Dev) (t : Txn) : Option Dev :=
  match d.ent t.line with
  | none => some (d.dropTxn t.id)
  | some e =>
    if !t.snooped then some (d.sendSnoops t e)
    else if d.home.snoops.any fun s => s.why == .txn t.id then none
    else if t.wbWait then none
    else
      -- R138: what an LD that has become unresponsive still asks for is not done
      if d.shunned t && !t.wrSent && !t.rdSent && !t.wbSent then some (d.finish t 0 true)
      -- translation of the write class, and parking (R148, R155); an Inv(I) or MemClnEvct only asks whether the field is populated (R67)
      else if (t.op.writeClass || t.op == .invI || t.op == .clnEvct) && t.xlat == .none then
        match d.xlate t.line with
        | .error sa => if d.cip.accs.any fun a => a.own == .map && a.sa == sa then none else some (d.askMap sa)
        | .ok x => match x with
          | .bare | .poisoned | .fallow .. =>
            some (if t.op.writeClass then d.park t else d.modTxn t.id fun y => { y with xlat := x })
          | .unpopulated => some ((d.modTxn t.id fun y => { y with xlat := x }).unpopRecord t |>.noteSource t.id 9)
          | _ => some (d.modTxn t.id fun y => { y with xlat := x })
      else
      match t.op with
      | .clnEvct =>
        let d := match d.requester t with
          | some r => d.modEnt t.line fun e => e.without r
          | none => d
        some (d.finish t 0 false)
      | .ncDrop =>
        let d := (d.dropSw t.line).modEnt t.line fun e => e.make 0 .absent false
        let d := if (d.desc (fieldOfLine t.line)).v then d else (d.unpopRecord t).noteSource t.id 9
        some (d.finish t 0 false)
      | .evict =>
        if e.swd == .dirty then d.wbStep t
        else
          let d := (d.dropSw t.line).modEnt t.line fun e => e.make 0 .absent false
          if t.wrSent || t.wbSent then some (d.modTxn t.id fun x => { x with phase := .acked }) else some (d.evicted t)
      | .invI =>
        if e.swd == .dirty then d.wbStep t
        else some ((d.modEnt t.line fun e => e.make 0 e.swd false).finish t 0 false)
      | .rdS | .rdI | .ncRead =>
        match t.got with
        | none => d.readStep t
        | some (x, p) =>
          let miss := (d.sw t.line).isNone
          let d := if miss && !p then d.fillClean t x else d
          some ((d.recordRead t p).finish t x p)
      | .rdE | .invA =>
        match t.xlat with
        | .unpopulated => some (d.finish t 0 true)
        | .lost => some (((d.recordRead t true).noteSource t.id 5).finish t 0 true)
        | _ =>
          if e.swd == .dirty then d.wbStep t
          else if t.noData then some ((d.recordRead t false).finish t 0 false)
          else match t.got with
            | none => d.readStep t
            | some (x, p) =>
              let d := if (d.sw t.line).isNone && !p then d.fillClean t x else d
              some ((d.recordRead t p).finish t x p)
      | .wr _ | .ncWrite =>
        match t.xlat with
        | .unpopulated => some (d.finish t 0 false)
        | .lost => some ((d.noteSource t.id 5).finish t 0 false)
        | .sa a => d.writeStep t a
        | _ => some (d.finish t 0 false)

/-- The first request that can make a step makes it. -/
def Dev.txnPass (d : Dev) : Option Dev :=
  d.home.txns.findSome? fun t => if t.phase = .active then d.txnStep t else none

/-! ### Write-backs of an owner (R127) -/

/-- A write of a holder recorded in E is applied at once, whether or not the line is locked. -/
def Dev.ownerWrite (d : Dev) (t : Txn) (r : Nat) : Dev :=
  let whole := t.mask == BitVec.allOnes 64
  let keep := match t.op with | .wr k => k | _ => false
  let after (d : Dev) (s : Swd) : Dev :=
    (d.modEnt t.line fun e => e.make (if keep then e.holders else e.holders &&& ~~~ ldBit r) s false)
  let send (d : Dev) (data : Line) (whole : Bool) : Dev :=
    let d := d.modHome fun h => { h with txns := h.txns ++ [{ t with id := h.nextId, phase := .writeBack }], nextId := h.nextId + 1 }
    let id := d.home.nextId - 1
    match d.lineSa t.line with
    | some sa => d.ask { ({ t with id := id } : Txn).access (.txn id) (if whole then .write else .merge) sa .host with data := data }
    | none => (d.dropTxn id).respond t 0 false
  let place := t.hint != 1 && !t.poison
  let swd (d : Dev) : Swd := ((d.ent t.line).map (·.swd)).getD .absent
  let d := if t.poison then d.dropSw t.line else d
  let d := match d.sw t.line with
    | some w =>
      let data := if whole then t.data else mergeLine w.data t.data t.mask
      let pin := if place then (match d.pinFor t.line t.hint t.pinBy with | .none => w.pin | p => p) else w.pin
      let d := d.modSw t.line fun w => { w with data := data, age := 0, pin := pin }
      if place then (after d .dirty).respond t 0 false
      else send (after d .clean) data true
    | none =>
      if place && whole then
        match d.swFill t.line t.data (d.pinFor t.line t.hint t.pinBy) true with
        | some d => (after d .dirty).respond t 0 false
        | none => send (after d (swd d)) t.data true
      else send (after d (swd d)) t.data whole
  d.settleEnt t.line

/-! ### Results from the cipher units and the balers -/

/-- All sheaf lines of a fallow read have come back: zeros when the header line is stale, else a read decode (R192, R220). -/
def Dev.sheavesRead (d : Dev) (t : Txn) : Dev :=
  match t.xlat with
  | .fallow f s n _ _ _ =>
    let line (i : Nat) : Line × Nat := kvGet (fun _ => (0, 1)) t.fall.lines i
    if (line 0).2 = 2 then d.modTxn t.id fun x => { x with got := some (0, false) }
    else
      let d := d.modTxn t.id fun x => { x with fall := { x.fall with job := true } }
      d.raiseJob
        { id := 0, cls := .readDecode, why := .txn t.id, q := quarterOfSlice (homeOf t.line), unit := homeOf t.line,
          bytes := (List.range (4 * n)).flatMap fun i => toBytes 64 (line i).1.toNat,
          poison := (List.range (4 * n)).map fun i => (line i).2 == 1, scnt := n, line := t.line % 64,
          page := pageOfLine t.line, sa := f * 4096 + s * 256 }
  | _ => d

/-- A map line arrives for the translation slices that wait for it (R150, R151, R381). -/
def Dev.mapArrives (d : Dev) (sa : Nat) (x : Line) (poison folded : Bool) : Dev :=
  let waiting := d.home.txns.filter fun t => t.phase == .active && (match d.xlate t.line with | .error a => a == sa | _ => false)
  if folded then waiting.foldl (fun d t => d.modTxn t.id fun y => { y with xlat := .lost }) d
  else if poison then d.mapLost sa
  else waiting.foldl (fun d t => d.mapFill (homeOf t.line) sa x) d

/-- Gives a result of the cipher units to its owner. -/
def Dev.deliver (d : Dev) (own : AccOwner) (sa : Nat) (r : AccRes) : Dev :=
  match own, r with
  | .txn id, .line x p _ _ => d.modTxn id fun t => { t with got := some (x, p) }
  | .txn id, .accepted =>
    match d.txn id with
    | none => d
    | some t => if t.phase = .writeBack then (d.dropTxn id).respond t 0 false
        else d.modTxn id fun t => { t with wrDone := true }
  | .wback id, .accepted =>
    match d.txn id with
    | none => d
    | some t =>
      let d := match d.ent t.line with
        | some e => if e.swd = Swd.dirty then d.markSw t.line .clean else d
        | none => d
      d.modTxn id fun t => { t with wbWait := false }
  | .sheaf id i, .line x p st _ =>
    let d := d.modTxn id fun t => { t with fall := { t.fall with lines := kvIns t.fall.lines i (x, if st then 2 else if p then 1 else 0) } }
    match d.txn id with
    | none => d
    | some t => match t.xlat with
      | .fallow _ _ n _ _ _ => if t.fall.lines.length = 4 * n ∧ !t.fall.job then d.sheavesRead t else d
      | _ => d
  | .map, .line x p _ f => d.mapArrives sa x p f
  | _, _ => d

def Dev.cipDeliver (d : Dev) : Option Dev :=
  match d.cip.done with
  | [] => none
  | (own, sa, r) :: rest => some ((d.modCip fun c => { c with done := rest }).deliver own sa r)

/-! ### Requests from hosts (R61 to R63, R84 to R88, R111, R112, R126, R138, R141) -/

/-- What a host asks for, before it is bound. -/
structure HostReq where
  head : Nat
  ldid : Nat
  hpa : Nat
  tag : Nat
  op : HomeOp
  noData : Bool := false
  data : Line := 0
  mask : BitVec 64 := 0
  poison : Bool := false
  opc : Nat

def HostReq.isRead (q : HostReq) : Bool := q.op.reads && !q.noData

/-- Answers a request that no decoder serves: a read with poison, a write discarded and completed (R63). -/
def Dev.unsupported (d : Dev) (q : HostReq) (ld : Nat) (sample : Option Nat) (source : Nat) : Dev :=
  let t : Txn := { id := 0, src := .host q.head ld q.tag, op := q.op, line := 0, own := ld, hpa := q.hpa, noData := q.noData,
                   sample := sample, t0 := d.nowNs, source := source, opc := q.opc }
  d.respond t 0 true

/-- A decode miss (R63, R87): the record names the head, the LD and the HPA. Its 1 ms is that of the LD that the request comes from, or of
the head's LD-ID where that names none (log entry 133). -/
def Dev.decodeMiss (d : Dev) (q : HostReq) (ld : Nat) (ty : Nat) : Dev :=
  let d := if ty = 1 then d.countLd ld 3 else d
  d.raiseLimited ((d.ldOf q.head q.ldid).getD (2 ^ 8 + q.head * 2 ^ 16 + q.ldid))
    { vendorRec ty .warning (0x200 + q.head) 0 with head := q.head, ld := ld, addr0 := q.hpa }

/-- Counts a request for its LD's sampling; its sample number when it is marked (R447, R448). -/
def Dev.sampleCount (d : Dev) (ld : Nat) : Dev × Option Nat :=
  let s := d.samp.getD ld {}
  if !s.en then (d, none)
  else
    let hit := (s.count + 1) % 2 ^ s.n == 0
    ({ d with samp := d.samp.modify ld fun s => { s with count := s.count + 1, seq := if hit then s.seq + 1 else s.seq } },
     if hit then some s.seq else none)

/-- The decoder and owning LD that a request binds to: its own, or that of an LD whose grant names it (R61, R111). -/
def Dev.bind (d : Dev) (ld hpa : Nat) : Option (Nat × Nat) :=
  match d.hdmMatch ld hpa with
  | some x => some (ld, x.toDpa hpa)
  | none =>
    if !d.on31 ld then none
    else (List.range 16).findSome? fun n =>
      if n ≠ ld ∧ d.on31 n ∧ bitOf (d.fld (.homeGrant n) F.homeGrant_RD) ld then
        (d.hdmMatch n hpa).map fun x => (n, x.toDpa hpa)
      else none

/-- LDs on CXL 1.1 and 2.0 heads issue only RdI and Wr with MetaValue I; their MemInv is Inv(I) (R126). -/
def HomeOp.plain : HomeOp → HomeOp
  | .rdS | .rdE | .rdI => .rdI
  | .invA | .invI => .invI
  | .wr _ => .wr false
  | o => o

/-- The answer to a request whose LD-ID names no binding: LD 0xFF (R87). -/
def Dev.emitAnswer (d : Dev) (q : HostReq) : Dev :=
  let d := if q.isRead then d.emit (.memData q.head q.ldid q.hpa q.tag 0 true (d.ideKey q.head)) else d
  if q.op = .ncRead then d else d.emit (.s2m q.head q.ldid .cmp q.hpa q.tag)

/-- The line that a write finds held in E by its own LD: of its own window, or of another LD's whatever the grants now say. Such a write
is a write-back, and a change of the grants does not turn it away (R113, R127). -/
def Dev.heldBy (d : Dev) (ld hpa : Nat) : Option (Nat × Nat) :=
  if !d.on31 ld || d.unresp ld then none
  else (ld :: (List.range 16).filter (· != ld)).findSome? fun n =>
    match d.hdmMatch n hpa with
    | none => none
    | some x =>
      let rel := x.toDpa hpa
      match d.ent (d.windowDpa n rel / 64) with
      | some e => if e.st == .e && e.has ld && d.winEn n && decide (rel < d.winFields n * 2 ^ 21) then some (n, rel) else none
      | none => none

/-- A request that an admission slot is asked for: it enters its home; past the 96 slots of the head's receive crossing the head stalls
(R22, R46). -/
def Dev.enterHome (d : Dev) (h : Nat) (t : Txn) : Dev :=
  (if 0 < d.reqCredits h then d else d.overrun (.headRx h)).addTxn t

/-- How the request of an LD in a host error is bound is unpredictable (R7): it may find no mapping. -/
def Dev.wildMiss (d : Dev) (ld : Nat) : Dev × Bool :=
  if d.isWild ld then ({ d with fresh := d.fresh + 1 }, Config.wildBit d.fresh) else (d, false)

/-- UIO requests: reads and writes of a non-caching agent, decoded as the LD's own are (R60, R110). -/
def HostReq.uio (q : HostReq) : Bool := q.op == .ncRead || q.op == .ncWrite

/-- A CXL.mem request, or a UIO request on a CXL 3.1 head, is accepted from a head. A UIO request on another head is an unsupported request
(R109), and is neither counted nor sampled, which are for CXL.mem requests (R436, R447). An LD in D3hot has no service (Table 4.5): its
requests find no decoder (log entry 53). -/
def Dev.hostRequest (d : Dev) (q : HostReq) : Dev :=
  if !d.headUp q.head || d.proto q.head == 0 || (d.head q.head).ideFailed then d
  else if q.uio && d.proto q.head != 3 then d.aer q.head 0xFF .unsupportedRequest
  else match d.ldOf q.head q.ldid with
    | none => (d.decodeMiss q 0xFF 1).emitAnswer q
    | some ld =>
      let d := if q.uio then d else d.countLd ld 0
      let (d, smp) := if q.uio then (d, none) else d.sampleCount ld
      let isWr := match q.op with | .wr _ | .ncWrite => true | _ => false
      let owned := if isWr && !q.uio then d.heldBy ld q.hpa else none
      let (d, miss) := d.wildMiss ld
      if miss || d.inD3 ld then (d.decodeMiss q ld 1).unsupported q ld smp 8
      else if !d.memOpen q.head || !d.memActive ld then (d.decodeMiss q ld 4).unsupported q ld smp 11
      else if d.unresp ld && !d.home.lost.contains ld then
        (d.raiseLimited ld { vendorRec 0x0102 .warning 0x300 ld with head := q.head, ld := ld, addr0 := q.hpa }).unsupported q ld smp 7
      else match owned <|> d.bind ld q.hpa with
        | none => (d.decodeMiss q ld 1).unsupported q ld smp 8
        | some (own, rel) =>
          let dpa := d.windowDpa own rel
          let line := dpa / 64
          if !d.winEn own ∨ d.winFields own * 2 ^ 21 ≤ rel then (d.decodeMiss q ld 1).unsupported q ld smp 8
          else
            let mayWrite := own == ld || bitOf (d.fld (.homeGrant own) F.homeGrant_WR) ld || owned.isSome
            if !mayWrite && isWr then
              (d.raise { vendorRec 0x0105 .warning (sliceUnit line) (ld + own * 2 ^ 4) with
                head := q.head, ld := ld, addr0 := q.hpa, addr1 := dpa }).unsupported q ld smp 1
            else
              let shared := !mayWrite && (match q.op with | .rdE | .invA | .invI => true | _ => false)
              let op := if !d.on31 ld then (if q.noData then .invI else q.op.plain) else if shared then .rdS else q.op
              let noData := q.noData || (match q.op with | .invA | .invI => true | _ => false)
              let t : Txn :=
                { id := 0, src := .host q.head ld q.tag, op := op, line := line, own := own, hpa := q.hpa, hint := 3,
                  data := q.data, mask := q.mask, poison := q.poison, noData := noData,
                  sample := smp, t0 := d.nowNs, opc := q.opc }
              if owned.isSome then
                let hint := (d.hintOf own line).1
                d.ownerWrite { t with key := d.ldKeyId own, kgen := d.ldKgen own, hint := hint, pinBy := d.pinOrigin own line } ld
              else d.enterHome q.head t

/-! ### Snoop answers and timers (R113, R127, R128, R136 to R138) -/

/-- A message that only CXL 3.1 has, from an LD whose head is up with CXL 1.1 or 2.0: it is answered as R63 says, with no response to give
(R87, Table 4.4). -/
def Dev.strayBi (d : Dev) (ld line : Nat) : Dev :=
  d.decodeMiss { head := d.ldHead ld, ldid := d.ldId ld, hpa := line * 64, tag := 0, op := .evict, opc := 0 } 0xFF 1

def Dev.biStray (d : Dev) (ld : Nat) : Bool := d.bound ld && d.headUp (d.ldHead ld) && [1, 2].contains (d.proto (d.ldHead ld))

/-- BIRSP: the holder's state afterwards takes effect, and the oldest snoop of the line to the LD no longer waits. A state that the snoop
does not allow (S or E to BISnpInv, E to BISnpData) is taken as the one that it asked for, I or S (log entry 115). Answers of an
unresponsive LD are discarded. -/
def Dev.birsp (d : Dev) (ld line : Nat) (a : BiAnswer) : Dev :=
  if d.biStray ld then d.strayBi ld line
  else if d.unresp ld then d
  else match d.home.snoops.find? fun s => s.line == line && s.ld == ld with
    | none => d
    | some s =>
      let d := d.modHome fun h => { h with snoops := h.snoops.erase s }
      let a := match s.op, a with
        | .bisnpInv, _ => BiAnswer.i
        | .bisnpData, .e => BiAnswer.s
        | _, a => a
      let d := match a with
        | .i => d.modEnt line fun e => e.without ld
        | .s => d.modEnt line fun e => e.make e.holders e.swd false
        | .e => d
      d.settleEnt line

/-- BICONFLICT (R128). -/
def Dev.biconflict (d : Dev) (ld line : Nat) : Dev :=
  if d.biStray ld then d.strayBi ld line
  else if d.unresp ld then d
  else if d.home.snoops.any fun s => s.line == line && s.ld == ld then
    d.emit (.s2m (d.ldHead ld) (d.ldId ld) .biConflictAck (line * 64) 0)
  else d

/-- Answers every outstanding back-invalidate to an LD by R137. -/
def Dev.answerDead (d : Dev) (ld : Nat) : Dev :=
  let mine := d.home.snoops.filter (·.ld == ld)
  (mine.foldl (fun d s => d.deadHolder s.line ld) d).modHome fun h => { h with snoops := h.snoops.filter (·.ld != ld) }

/-- Requests of an LD that wait at their home when its response timer expires are answered by R138: reads with poison, writes discarded. -/
def Dev.shunWaiting (d : Dev) (ld : Nat) : Dev :=
  let mine := d.home.txns.filter fun t => d.shunned t && (match t.src with | .host _ n _ => n == ld | _ => false) &&
    (match t.phase with | .entering | .stand | .lineWait | .parked => true | _ => false)
  mine.foldl (fun d t =>
    let d := match t.src with
      | .host h n _ => d.raiseLimited n { vendorRec 0x0102 .warning 0x300 n with head := h, ld := n, addr0 := t.hpa }
      | _ => d
    ((d.noteSource t.id 7).respond { t with source := 7 } 0 true).dropTxn t.id) d

/-- An LD becomes unresponsive, and the sweep of R139 starts. -/
def Dev.makeUnresp (d : Dev) (ld cause dpa : Nat) : Dev :=
  let d := (d.setBit .homeLdstat ld true).setBit .homeLdstat (16 + ld) true
  let d := d.modHome fun h =>
    { h with sweeps := h.sweeps.filter (·.ld != ld) ++ [{ ld := ld, cause := cause, dpa := dpa, poisoned := 0, since := d.clk }] }
  d.answerDead ld

/-- BISNP_TIMEOUT (R137). -/
def Dev.bisnpTimeout (d : Dev) (ld line : Nat) : Dev :=
  if d.home.snoops.any fun s => s.line == line && s.ld == ld then
    (d.makeUnresp ld 0 (line * 64)).shunWaiting ld else d

/-- Head loss of an LD (R140, R141): a bound LD on a CXL 3.1 head. -/
def Dev.headLoss (d : Dev) (ld : Nat) : Dev :=
  (d.modHome fun h => { h with lost := if h.lost.contains ld then h.lost else h.lost ++ [ld] }).makeUnresp ld 1 0

/-- The entries of the sets `lo` to `hi − 1` of every slice that name an LD are worked through (R139). -/
def Dev.sweepSets (d : Dev) (ld lo hi : Nat) : Dev :=
  let lines := d.dirLines.filter fun l => decide (lo ≤ (l >>> 4) % 2 ^ 14) && decide ((l >>> 4) % 2 ^ 14 < hi)
  lines.foldl (fun d line => d.deadHolder line ld) d

/-- Each slice works through its sets over the typical sweep time of 0.75 ms, 600,000 steps of 1.25 ns, in ascending order: the manual
does not fix the order (R139, log entry 115). -/
def Dev.sweepTick (d : Dev) : Dev :=
  d.home.sweeps.foldl (fun d s =>
    let upTo := min (2 ^ 14) ((d.clk - s.since) * 2 ^ 14 / 600000)
    if s.pos < upTo then
      (d.sweepSets s.ld s.pos upTo).modHome fun h => { h with sweeps := h.sweeps.map fun y => if y.ld = s.ld then { y with pos := upTo } else y }
    else d) d

/-- UNRESPONSIVE_SWEEP_COMPLETE (R139, R141): the sets that are left are worked through, and the sweep ends. -/
def Dev.sweepDone (d : Dev) (ld : Nat) : Dev :=
  match d.home.sweeps.find? (·.ld == ld) with
  | none => d
  | some s =>
    let d := d.sweepSets ld s.pos (2 ^ 14)
    let n := ((d.home.sweeps.find? (·.ld == ld)).map (·.poisoned)).getD 0
    let d := d.modHome fun h => { h with sweeps := h.sweeps.filter (·.ld != ld) }
    let d := d.setBit .homeLdstat (16 + ld) false
    let d := if d.home.lost.contains ld then
        (d.setBit .homeLdstat ld false).modHome fun h => { h with lost := h.lost.filter (· != ld) }
      else d
    d.raise { vendorRec 0x0101 .failure 0x300 (ld + s.cause * 2 ^ 8 + n * 2 ^ 32) with ld := ld, addr0 := s.dpa }

/-- The directory sweep of an extent removal or a window teardown (R171, R177): holders are sent BISnpInv, whose write-backs are
discarded with the fields; Sward copies are dropped without a write-back. -/
def Dev.dropLines (d : Dev) (inside : Nat → Bool) : Dev :=
  let lines := d.dirLines.filter inside
  lines.foldl (fun d line =>
    match d.ent line with
    | none => d
    | some e =>
      let d := e.holderList.foldl (fun d m => if d.unresp m || !d.snoopable m then d else d.bisnp line m .bisnpInv .drop) d
      ((d.dropSw line).modEnt line fun e => e.make 0 .absent false).settleEnt line) d

/-! ### Grants (R113) -/

/-- HOME_GRANT*n* written. -/
def Dev.grantWrite (d : Dev) (n v : Nat) : Dev :=
  if bitOf (d.fld .homeGrantstat F.homeGrantstat_PEND) n then d
  else
    let old := d.rd (.homeGrant n)
    let d := d.wr (.homeGrant n) (v % 2 ^ 32)
    let cleared (i : Nat) : Bool := bitOf old i && !bitOf v i
    if (List.range 32).any cleared then
      let d := d.setBit .homeGrantstat n true
      (d.dirLines.filter fun l => d.ldOfField (fieldOfLine l) == some n).foldl (fun d line =>
        match d.ent line with
        | none => d
        | some e => (e.holderList.filter (· != n)).foldl (fun d m =>
            if cleared m then d.snoop line m .bisnpInv (.grant n)
            else if cleared (16 + m) && e.st == .e then d.snoop line m .bisnpData (.grant n)
            else d) d) d
    else d

/-- GRANT_REVOCATION_COMPLETE (R113): the sweep and every response are complete. -/
def Dev.grantDone (d : Dev) (n : Nat) : Dev :=
  if bitOf (d.fld .homeGrantstat F.homeGrantstat_PEND) n && !(d.home.snoops.any fun s => s.why == .grant n) then
    d.setBit .homeGrantstat n false
  else d

/-! ### Pins (R120) -/

/-- DEFHINT written with another value: ways pinned under DEFHINT are unpinned. -/
def Dev.defhintWrite (d : Dev) (v : Nat) : Dev :=
  if v % 4 = d.fld .homeCtrl F.homeCtrl_DEFHINT then d
  else
    let d := d.setFld .homeCtrl F.homeCtrl_DEFHINT v
    d.swLines.foldl (fun d l => if ((d.sw l).map (·.pin == .defhint)).getD false then d.unpin l else d) d

/-- Unpins the lines that have left every range that pins them, and those pinned under DEFHINT that a range with another hint
has come to cover (R120, R329). -/
def Dev.repin (d : Dev) : Dev :=
  d.swLines.foldl (fun d l =>
    match d.sw l with
    | none => d
    | some w =>
      let (hint, ranged) := d.hintOf (d.lineLd l) l
      let keep := match w.pin with
        | .none => true
        | .range => ranged && hint == 2
        | .defhint => !ranged || hint == 2
        | .command => true
      if keep then d else d.unpin l) d

end Sys2Proof.Machine
end

