-- ==== Sys2Proof/Machine/TedderOps.lean ====
section
/-! DEFINITION. The Tedders (R152 to R166): promotion, demotion, relocation, fallow moves, commits, the epoch. -/

namespace Sys2Proof.Machine

/-! ### Pages read and written by a Tedder -/

def Dev.note (d : Dev) (cmd : Nat) (n : RingNote) : Dev := d.modTed fun t => { t with notes := t.notes ++ [(cmd, n)] }

/-- One line of a frame, read and deciphered for the page line at `dpa`; none where a fold answers, or where the frame's set is not READY. `bad`: the burst was
uncorrectable. A read that no set or rank serves is a map fault, and gives poison (R73). -/
def Dev.readLine (m : Dram) (d : Dev) (dom : Dom) (dpa sa : Nat) (slot : Option (Nat × Nat × Nat)) (bad : Bool) :
    Option (Dev × Line × Nat) :=
  if d.place sa = .fault then some (d.mapFaultRecord sa dpa (match dom with | .ld n _ _ => n | _ => 0xFF), 0, 1)
  else match d.currentCtr m (sa / 4096) with
  | .error _ => none
  | .ok c =>
    let i := sa / 64 % 64
    let first := match slot with | some (s, _, _) => s / 64 % 64 | none => i
    if c.minor i = 0 then some (d.countZero (d.placeUnit (d.place sa)) 1, 0, 0)
    else match (if bad then some (CwOut.uncorrectable { data := 0, md := 0 }) else d.peek m sa) with
      | none => none
      | some o =>
        let r := d.settle dom sa slot [(c.major.toNat, c.minor first)] o
        let ld := match dom with | .ld n _ _ => n | _ => 0xFF
        let d := d.noteRead m sa dpa ld .internal bad
        let unit := d.placeUnit (d.place sa)
        let d := if r.mismatch then d.mismatchRecord unit sa dpa ld dom false r.mark else d
        let d := d.countZero unit r.row
        some (d, r.data, if r.poison then 1 else if r.row = 5 then 2 else 0)

/-- Lines of a page from `sa` on; each with 0 good, 1 poison, 2 stale. The lines of a slot carry the page's DPA. -/
def Dev.readLines (m : Dram) (d : Dev) (dom : Dom) (page sa n : Nat) (slot : Option (Nat × Nat × Nat)) (bad : List Nat) :
    Option (Dev × List (Line × Nat)) :=
  (List.range n).foldl (fun acc i => match acc with
    | none => none
    | some (d, l) => (d.readLine m dom (page * 4096 + if slot.isSome then 0 else 64 * i) (sa + 64 * i) slot (bad.contains i)).map fun (d, x, k) => (d, l ++ [(x, k)]))
    (some (d, []))

/-- Lines that cannot be enciphered, since a fold withholds their frame's counter line: each is handled as a write to a folded member, and
the counter line with them (R362, R381). -/
def Dev.foldLines (d : Dev) (frame first n : Nat) : Dev :=
  (List.range n).foldl (fun d i => d.foldWrite (first + 64 * i) 0 0xFF false) (d.foldCtr frame)

/-- Writes the 64 lines of a frame that has just been erased (Table 6.4 step 3). -/
def Dev.writeFrame (m : Dram) (d : Dev) (frame : Nat) (dom : Dom) (lines : List (Line × Bool)) : Dev :=
  match d.hold m frame (d.frameOwner frame) with
  | none => d.foldLines frame (frame * 4096) 64
  | some d =>
    let d := (List.range 64).foldl (fun d i =>
      match d.ctrCopy frame 0 with
      | none => d
      | some x =>
        let v := x.ctr.minor i + 1
        let d := d.setHeld frame (x.ctr.setMinor i v) (BitVec.ofNat 64 (2 ^ i))
        let (data, p) := lines.getD i (0, true)
        let sa := frame * 4096 + 64 * i
        d.fireWrite sa (d.seal dom (blockOf sa none x.ctr.major.toNat v) data p)) d
    d.unhold frame

/-- Writes a fallow slot in one piece (R218). -/
def Dev.writeSlot (m : Dram) (d : Dev) (frame soff fctr : Nat) (dom : Dom) (lines : List (Line × Bool)) : Dev :=
  let first := frame * 4096 + soff * 256
  match d.hold m frame (d.frameOwner frame) with
  | none => d.foldLines frame first lines.length
  | some d =>
    match d.ctrCopy frame 0 with
    | none => d.unhold frame
    | some x =>
      let i0 := soff * 4
      let idx := List.range lines.length
      let c := idx.foldl (fun (c : Ctr) i => c.setMinor (i0 + i) (c.minor (i0 + i) + 1)) x.ctr
      let bits := idx.foldl (fun b i => b ||| BitVec.ofNat 64 (2 ^ (i0 + i))) (0 : BitVec 64)
      let d := d.setHeld frame c bits
      let d := idx.foldl (fun d i =>
        let (data, p) := lines.getD i (0, true)
        let sa := first + 64 * i
        d.fireWrite sa (d.seal dom (blockOf sa (some (first, soff, fctr)) c.major.toNat (c.minor i0)) data p)) d
      d.unhold frame

/-! ### Promotion (R155, R156, R175) -/

def Dev.modPromo (d : Dev) (page : Nat) (f : Promo → Promo) : Dev :=
  d.modTed fun t => { t with promos := t.promos.map fun p => if p.page = page then f p else p }
def Dev.dropPromo (d : Dev) (page : Nat) : Dev := d.modTed fun t => { t with promos := t.promos.filter (·.page != page) }
def Dev.promo (d : Dev) (page : Nat) : Option Promo := d.ted.promos.find? (·.page == page)

/-- Parked requests of a page are re-admitted in their original order (Table 6.4 steps 4 and 5), as the shares of their heads allow (R130,
R135). -/
def Dev.readmit (d : Dev) (page : Nat) : Dev :=
  (d.home.txns.filter fun t => t.phase == .parked && pageOfLine t.line == page).foldl (fun d t =>
    if d.lineWaitFree t && d.standFree t then d.enterLine t else d) d

/-- A parked request whose page has no promotion any more, and which a full share has kept from re-admission, is re-admitted (R130,
R135). -/
def Dev.readmitStep (d : Dev) : Option Dev :=
  (d.home.txns.find? fun t => t.phase == .parked && !(d.ted.promos.any fun p => p.page == pageOfLine t.line) &&
    d.lineWaitFree t && d.standFree t).map d.enterLine

def Dev.pageEntry (d : Dev) (page : Nat) : Pme := d.pme (fieldOfPage page) (page % 512)

/-- A promotion's frame has its 64 lines written; the promotion may commit. -/
def Dev.promoWrite (m : Dram) (d : Dev) (p : Promo) (lines : List (Line × Bool)) : Dev :=
  (d.writeFrame m p.frame (.ld p.ld p.key p.kgen) lines).modPromo p.page fun x => { x with phase := .written, lines := [] }

/-- The ring command that asked for a promotion hears of it. -/
def Dev.promoNote (d : Dev) (p : Promo) (n : RingNote) : Dev :=
  p.cmds.foldl (fun d c => d.note c n) d

/-- A promotion that finds nothing to do ends; requests parked on the page go on. -/
def Dev.promoEnd (d : Dev) (p : Promo) (n : RingNote) : Dev := ((d.dropPromo p.page).promoNote p n).readmit p.page

/-- Table 6.4 step 2: the sheaves are read for the baler, or the lines are formed. `bad`: sheaf lines whose burst is uncorrectable. -/
def Dev.promoForm (m : Dram) (d : Dev) (p : Promo) (bad : List Nat) : Dev :=
  let e := d.pageEntry p.page
  let p := { p with phase := .reading, entry := e.num, key := d.ldKeyId p.ld, kgen := d.ldKgen p.ld }
  let d := d.modPromo p.page fun _ => p
  match e.state with
  | 2 =>
    let first := e.frame * 4096 + e.soff * 256
    match (d.mendCtr m e.frame).readLines m (.ld p.ld p.key p.kgen) p.page first (4 * e.scnt) (some (first, e.soff, e.fctr)) bad with
    | none => d.promoWrite m p (List.replicate 64 (0, true))
    | some (d, ls) =>
      if (ls.headD (0, 0)).2 = 2 then d.promoWrite m p (List.replicate 64 (0, false))
      else d.raiseJob
        { id := 0, cls := .promoDecode, why := .promo p.page, q := p.ted, unit := 16 + p.ted, bytes := ls.flatMap fun x => toBytes 64 x.1.toNat,
          poison := ls.map fun x => x.2 == 1, scnt := e.scnt, page := p.page, sa := first }
  | 3 => d.promoWrite m p (List.replicate 64 (0, true))
  | _ => d.promoWrite m p (List.replicate 64 (0, false))

/-- A promotion is held at the floor, after those that are held already (R175). -/
def Dev.promoHold (d : Dev) (p : Promo) : Dev :=
  ((d.dropPromo p.page).modTed fun t => { t with promos := t.promos ++ [{ p with phase := .held d.nowNs }] }).count .held p.ted

/-- A promotion under way counts among the 64 of its Tedder. -/
def Promo.runs (p : Promo) : Bool := match p.phase with | .taken | .reading | .decoded | .written => true | _ => false

/-- PROMOTION_START (Table 6.4 steps 1 to 3). A frame of a set that is not READY is taken, and the promotion goes on when it has been
erased (R172, R212). -/
def Dev.promoStart (m : Dram) (d : Dev) (page : Nat) (bad : List Nat) : Dev :=
  match d.promo page with
  | none => d
  | some p =>
    let field := fieldOfPage page
    let ds := d.desc field
    let e := d.pageEntry page
    let gone := !ds.v || !ds.tiered || ds.fpois
    let running := (d.ted.promos.filter fun x => x.ted == p.ted && x.runs).length
    let begin_ : Dev :=
      if gone then d.promoEnd p .promoSkipped
      else if e.state = 1 then d.promoEnd p .alreadySward
      else if 64 ≤ running then d
      else
        let firstHeld := (d.ted.promos.find? fun x => match x.phase with | .held _ => true | _ => false).map (·.page)
        let want : FrameFor := if ds.elastic then .elasticPromotion else .committedPromotion
        let turn := !ds.elastic || firstHeld == none || firstHeld == some page
        let isHeld := match p.phase with | .held _ => true | _ => false
        if !d.mayTake want || !turn then (if ds.elastic && !isHeld then d.promoHold p else d)
        else
          match d.takeFrame m (.page field (page % 512)) with
          | none => d
          | some (frame, d) =>
            let p := { p with phase := .taken, frame := frame, ld := (d.ldOfField field).getD 0, elastic := ds.elastic }
            let d := d.modPromo page fun _ => p
            if d.ted.erases.contains frame then d else d.promoForm m p bad
    match p.phase with
    | .queued | .held _ => begin_
    | .taken =>
      if gone || e.state = 1 then (d.freeFrame p.frame).promoEnd p .promoSkipped
      else if d.ted.erases.contains p.frame then d
      else d.promoForm m p bad
    | _ => d

/-- The entry still holds the state and storage that a job found (R154). -/
def Pme.sameStorage (a b : Pme) : Bool := a.state == b.state && a.frame == b.frame && a.soff == b.soff && a.scnt == b.scnt

/-- The LD's key is the one that a job's reads were stamped with (R154). -/
def Dev.sameKey (d : Dev) (ld key : Nat) : Bool := d.ldKeyId ld == key

/-- PROMOTION_COMMIT (Table 6.4 steps 4 and 5), under a page lock. -/
def Dev.promoCommit (d : Dev) (page : Nat) : Dev :=
  match d.promo page with
  | none => d
  | some p =>
    match p.phase with
    | .written =>
      let field := fieldOfPage page
      let ds := d.desc field
      let e := d.pageEntry page
      let old := pmeOf p.entry
      -- a full map write buffer stalls the change (R150)
      if !d.mapRoom p.ted (d.pmeSa field (page % 512)) then d
      else if ds.v && ds.tiered && !ds.fpois && e.sameStorage old && d.sameKey p.ld p.key then
        let d := d.putPme field (page % 512) { e with state := 1, frame := p.frame, soff := 0, scnt := 0, tsel := 0, hot := 15 }
        let d := d.count .promoted p.ted old.state
        let bound := (d.home.txns.filter fun t => pageOfLine t.line == page &&
          (match t.xlat with | .fallow .. => true | _ => false)).map (·.id)
        let d := if old.state = 2 then
            let o : OldSheaves := { page := page, frame := old.frame, soff := old.soff, scnt := old.scnt, txns := bound }
            d.modTed fun t => { t with old := t.old ++ [o] }
          else d
        ((d.dropPromo page).promoNote p .promoted).readmit page
      else
        ((((d.count .commitAbort p.ted).freeFrame p.frame).dropPromo page).promoNote p .promoSkipped).readmit page
    | _ => d

/-- SHEAF_RELEASE (Table 6.4 step 6): every request bound to the old sheaves has completed. -/
def Dev.sheafRelease (d : Dev) (page : Nat) : Dev :=
  match d.ted.old.find? fun o => o.page == page && !(o.txns.any fun i => (d.txn i).isSome) with
  | none => d
  | some o => (d.modTed fun t => { t with old := t.old.filter (· != o) }).freeSheaves o.frame o.soff o.scnt

/-- PROMOTION_HOLD_EXPIRY (R175): a held page is poisoned, and its parked requests complete. -/
def Dev.holdExpiry (d : Dev) (page : Nat) : Dev :=
  match d.promo page with
  | none => d
  | some p => match p.phase with
    | .held _ =>
      let field := fieldOfPage page
      let ds := d.desc field
      let e := d.pageEntry page
      if !ds.v || !ds.tiered || ds.fpois then d.promoEnd p .promoSkipped
      else if e.state = 1 then d.promoEnd p .alreadySward
      else if !d.mapRoom p.ted (d.pmeSa field (page % 512)) then d
      else
      let d := d.putPme field (page % 512) (e.toState 3)
      let d := if e.state = 2 then d.freeSheaves e.frame e.soff e.scnt else d
      let ps := d.home.txns.filter fun t => t.phase == .parked && pageOfLine t.line == page
      let d := ps.foldl (fun d t =>
        let d := d.noteSource t.id 6
        (d.respond ((d.txn t.id).getD t) 0 t.op.reads).dropTxn t.id) d
      let ld := (d.ldOfField field).getD 0xFF
      let d := (d.dropPromo page).promoNote p .poisonedAtFloor
      d.raise { vendorRec 0x0201 .failure (0x500 + p.ted) (ld % 16 + satTo 16 ps.length * 2 ^ 16) with
        ld := ld, addr0 := page * 4096 }
    | _ => d

/-! ### The end of an epoch's work (R54, R159) -/

def Dev.epochNs (d : Dev) (t : Nat) : Nat := (d.fld (.tedCtrl t) F.tedCtrl_EPOCH + 1) * 1000000

/-- The sketch of a Tedder with each counter halved. -/
def halveSketch (t : Nat) (l : List (Nat × Nat)) : List (Nat × Nat) :=
  l.filterMap fun p => if p.1 / 2 ^ 20 = t then (if p.2 / 2 = 0 then none else some (p.1, p.2 / 2)) else some p

/-- The epoch's work is done when its scan is and the last demotion that it queued has ended: the sketch is halved, and the period
completes. With EN 0 no period follows. -/
def Dev.epochSettle (d : Dev) (t : Nat) : Dev :=
  if !d.ted.working.contains t || d.ted.moves.any fun x => x.ted == t && x.epoch then d
  else
    let d := d.modTed fun y => { y with working := y.working.filter (· != t), sketch := halveSketch t y.sketch }
    let x := d.ted.epoch.getD t {}
    let now := d.nowNs
    let (d, x) := d.lagDone (.epoch t) x now (now - x.grid) (d.epochNs t)
    d.modTed fun y => { y with epoch := y.epoch.set t { x with running := d.flag (.tedCtrl t) F.tedCtrl_EN } }

/-! ### Demotion (R162, R163) -/

def Dev.modMove (d : Dev) (page : Nat) (f : Move → Move) : Dev :=
  d.modTed fun t => { t with moves := t.moves.map fun x => if x.page = page then f x else x }
/-- A move ends; with the last demotion of an epoch the epoch's work is done. -/
def Dev.dropMove (d : Dev) (page : Nat) : Dev :=
  (d.modTed fun t => { t with moves := t.moves.filter (·.page != page) }).epochSettle (fieldOfPage page % 4)
def Dev.move (d : Dev) (page : Nat) : Option Move := d.ted.moves.find? (·.page == page)
def Dev.moveNote (d : Dev) (x : Move) (n : RingNote) : Dev := match x.cmd with | some c => d.note c n | none => d

/-- Queues a move of a page. A ring request joins a demotion that is still queued; a page with another move in hand is not
attempted (R330). -/
def Dev.queueMove (d : Dev) (page : Nat) (k : MoveKind) (cmd : Option Nat) (budget : Nat) (epoch : Bool) : Dev :=
  match d.move page, cmd with
  | some _, none => d
  | some y, some c =>
    if y.kind = .demote ∧ y.phase = .queued ∧ y.cmd = none then d.modMove page fun y => { y with cmd := cmd, budget := budget }
    else d.note c (if y.kind = .fallowMove then .demoteSkipped else .staysSward)
  | none, _ =>
    let x : Move := { ted := fieldOfPage page % 4, page := page, kind := k, cmd := cmd, phase := .queued, budget := budget,
                      epoch := epoch }
    d.modTed fun t => { t with moves := t.moves ++ [x] }

/-- A demotion ends with its page sward; `cause`: what is counted, 0 to 3 a failure by cause, 4 an abort (R381), nothing beyond. -/
def Dev.demoteEnd (d : Dev) (x : Move) (pinned : Bool) (cause : Nat) : Dev :=
  let d := if cause < 4 then d.count .demoteFail x.ted cause else if cause = 4 then d.count .commitAbort x.ted else d
  let d := if pinned then d.unhold (pmeOf x.entry).frame else d
  (d.dropMove x.page).moveNote x .staysSward

/-- DEMOTION_START (Table 6.6 steps 1 to 4). EN 0 stops demotions (R178). -/
def Dev.demoteStart (m : Dram) (d : Dev) (page : Nat) (bad : List Nat) : Dev :=
  match d.move page with
  | none => d
  | some x =>
    if x.kind != .demote || x.phase != .queued || !d.flag (.tedCtrl x.ted) F.tedCtrl_EN then d
    else
      let field := fieldOfPage page
      let ds := d.desc field
      let e := d.pageEntry page
      let running := (d.ted.moves.filter fun y => y.ted == x.ted && y.kind == .demote && y.phase != .queued).length
      if !ds.v || !ds.tiered || ds.fpois then (d.dropMove page).moveNote x .demoteSkipped
      else if e.state ≠ 1 then (d.dropMove page).moveNote x .demoteSkipped
      else if (d.reencOf e.frame).isSome then d.demoteEnd x false 5
      else if 32 ≤ running || !d.ctrSpare e.frame x.ted then d
      else match d.hold m e.frame x.ted with
        | none => d.demoteEnd x false 4
        | some d =>
          let ld := (d.ldOfField field).getD 0
          let snap : Nat × Nat := match d.ctrCopy e.frame x.ted with
            | some c => (c.ctr.major.toNat, c.ctr.minors.toNat)
            | none => (0, 0)
          let x := { x with entry := e.num, ld := ld, key := d.ldKeyId ld, kgen := d.ldKgen ld, snap := snap, phase := .coding }
          let d := d.modMove page fun _ => x
          match d.readLines m (.ld ld x.key x.kgen) page (e.frame * 4096) 64 none bad with
          | none => d.demoteEnd x true 4
          | some (d, ls) =>
            let aim (t : MoveTarget) : Dev := d.modMove page fun y => { y with target := t, phase := .ready }
            let bads := (ls.filter fun l => l.2 == 1).length
            if bads = 64 then aim .poisoned
            else if bads ≠ 0 then d.demoteEnd x true 1
            else if ls.all fun l => l.1 == 0 then aim .bare
            else if ds.tpol = 1 then d.demoteEnd x true 5
            else if e.fctr = 63 then d.demoteEnd x true 2
            else
              let own := if ds.budget = 0 then 15 else ds.budget
              d.raiseJob
                { id := 0, cls := .compression, why := .move page, q := x.ted, unit := 16 + x.ted, bytes := ls.flatMap fun l => toBytes 64 l.1.toNat,
                  page := page, cpol := ds.cpol, thresh := ds.thresh,
                  budget := if x.budget = 0 then own else min own x.budget, pgc := e.pgc, low := d.low }

/-- Lines of a compressed page, filled up to its sheaves. -/
def sheafLines (bytes : List Nat) (scnt : Nat) : List (Line × Bool) :=
  (List.range (4 * scnt)).map fun i => (BitVec.ofNat 512 (ofBytes ((bytes.drop (64 * i)).take 64)), false)

/-- Table 6.6 step 5: the compressed page takes sheaves and is written. The table writes the sheaves before the commit check, where R197 says
that a discarded job writes nothing to DRAM: here the baler's job writes nothing itself, and the Tedder's write of a slot that is then
freed changes no page (log entry 120). -/
def Dev.demoteCoded (m : Dram) (d : Dev) (page : Nat) (r : JobRes) : Dev :=
  match d.move page with
  | none => d
  | some x => match r with
    | .form bytes scnt tsel pgc =>
      let field := fieldOfPage page
      let w : FrameFor := if (d.desc field).elastic then .elasticMove else .committedDemotion
      match d.takeSheaves m x.ted scnt page w (fun _ => true) with
      | none => d.demoteEnd x true 5
      | some (f, s, d) =>
        let d := d.writeSlot m f s ((d.pageEntry page).fctr + 1) (.ld x.ld x.key x.kgen) (sheafLines bytes scnt)
        d.modMove page fun y =>
          { y with target := .fallow, phase := .ready, frame := f, soff := s, scnt := scnt, tsel := tsel, pgc := pgc }
    | .failed c => d.demoteEnd x true (if c = 0 then 0 else 3)
    | _ => d.demoteEnd x true 5

/-- The compressed page of a demotion waits: no sheaf frame has room, and the frame that would be taken next lies in a set that is not
READY (R212). -/
def Dev.codedWaits (m : Dram) (d : Dev) (why : JobFor) (r : JobRes) : Bool :=
  match why, r with
  | .move page, .form _ scnt _ _ => match d.move page with
    | some x => (d.sheafFit m x.ted scnt fun _ => true).isNone && d.nextWaits
    | none => false
  | _, _ => false

/-! ### Relocation and fallow moves (R165, R166) -/

/-- A sward page in a draining range is copied to a new frame; the commit follows. -/
def Dev.relocatePage (m : Dram) (d : Dev) (page : Nat) (bad : List Nat) : Dev :=
  let field := fieldOfPage page
  let ds := d.desc field
  let e := d.pageEntry page
  if !ds.v || !ds.tiered || ds.fpois || e.state ≠ 1 || !d.draining e.frame || (d.move page).isSome
      || (d.reencOf e.frame).isSome || !d.mayTake .elasticMove || d.nextWaits
      || !d.ctrSpare e.frame (field % 4) then d
  else match d.hold m e.frame (field % 4) with
    | none => d.count .commitAbort (field % 4)
    | some d1 =>
      let ld := (d1.ldOfField field).getD 0
      let snap : Nat × Nat := match d1.ctrCopy e.frame 0 with
        | some c => (c.ctr.major.toNat, c.ctr.minors.toNat)
        | none => (0, 0)
      match d1.readLines m (d1.ldDom ld) page (e.frame * 4096) 64 none bad with
      | none => (d1.unhold e.frame).count .commitAbort (field % 4)
      | some (d2, ls) => match d2.takeFrame m (.page field (page % 512)) with
        | none => d2.unhold e.frame
        | some (f, d3) =>
          let d3 := d3.writeFrame m f (d3.ldDom ld) (ls.map fun l => (l.1, l.2 == 1))
          let x : Move := { ted := field % 4, page := page, kind := .relocate, cmd := none, phase := .ready, entry := e.num, ld := ld,
                            key := d3.ldKeyId ld, kgen := d3.ldKgen ld, snap := snap, frame := f }
          d3.modTed fun t => { t with moves := t.moves ++ [x] }

/-- The lines of a map frame are copied to another frame by Tedder `ted`. -/
def Dev.copyMap (d : Dev) (ted src dst : Nat) (tell : Bool) : Dev :=
  (List.range 64).foldl (fun d i =>
    let x := d.mapLine (src * 4096 + 64 * i)
    if x = 0 then d else d.putMapLine ted (dst * 4096 + 64 * i) x tell) d

/-- A page table moves to a new frame under a field lock. -/
def Dev.relocateTable (m : Dram) (d : Dev) (field : Nat) : Dev :=
  let ds := d.desc field
  if !ds.v || !ds.tiered || ds.fpois || !d.draining ds.base || !d.mayTake .elasticMove || (d.reencOf ds.base).isSome then d
  else match d.takeFrame m (.table field) with
    | none => d
    | some (f, d) =>
      let d := (d.copyMap (field % 4) ds.base f true).count .relocated (field % 4)
      (d.putMapWord (field % 4) (d.descSa field) ({ ds with base := f } : Desc).num true).freeFrame ds.base

/-- A sheaf map moves to a new frame. -/
def Dev.relocateSheafMap (m : Dram) (d : Dev) (ted run : Nat) : Dev :=
  match d.sheafMapOf ted run with
  | none => d
  | some f =>
    if !d.draining f || !d.mayTake .elasticMove || (d.reencOf f).isSome then d
    else match d.takeFrame m (.sheafMap ted run) with
      | none => d
      | some (g, d) => ((d.copyMap ted f g false).count .relocated ted).freeFrame f

def Dev.relocate (m : Dram) (d : Dev) (w : RelocWhat) (bad : List Nat) : Dev :=
  match w with
  | .page p => d.relocatePage m p bad
  | .table f => d.relocateTable m f
  | .sheafMap t r => d.relocateSheafMap m t r

/-- FALLOW_MOVE (R163, R165): a fallow page's sheaves are re-enciphered for a new slot, out of a draining range or into a fuller
frame. -/
def Dev.fallowMove (m : Dram) (d : Dev) (page : Nat) (bad : List Nat) : Dev :=
  let field := fieldOfPage page
  let ds := d.desc field
  let e := d.pageEntry page
  let drain := d.draining e.frame
  let queued := match d.move page with | some x => x.kind == .fallowMove && x.phase == .queued | none => false
  if (!(drain && (d.move page).isNone) && !queued) || (drain && d.nextWaits) then d
  else
    let epoch := match d.move page with | some x => x.epoch | none => false
    if !ds.v || !ds.tiered || ds.fpois || e.state ≠ 2 || e.fctr = 63 then d.dropMove page
    else
      let d := d.mendCtr m e.frame
      let ld := (d.ldOfField field).getD 0
      let first := e.frame * 4096 + e.soff * 256
      match d.readLines m (d.ldDom ld) page first (4 * e.scnt) (some (first, e.soff, e.fctr)) bad with
      | none => (d.count .commitAbort (field % 4)).dropMove page
      | some (d, ls) =>
        let fuller (f : Nat) : Bool := f != e.frame && (drain ||
          decide (usedSheaves (d.sheafOcc (field % 4) e.frame) < usedSheaves (d.sheafOcc (field % 4) f)))
        -- a slot of an earlier key is left to the erase sweep (R154, R228)
        let place := if (ls.headD (0, 0)).2 = 2 then none
          else if drain then d.takeSheaves m (field % 4) e.scnt page .elasticMove fuller
          else (d.sheafFit m (field % 4) e.scnt fuller).bind fun _ => d.takeSheaves m (field % 4) e.scnt page .elasticMove fuller
        match place with
        | none => d.dropMove page
        | some (f, s, d) =>
          let d := d.writeSlot m f s (e.fctr + 1) (d.ldDom ld) (ls.map fun l => (l.1, l.2 == 1))
          let x : Move := { ted := field % 4, page := page, kind := .fallowMove, cmd := none, phase := .ready, entry := e.num,
                            ld := ld, key := d.ldKeyId ld, kgen := d.ldKgen ld, frame := f, soff := s, scnt := e.scnt,
                            tsel := e.tsel, pgc := e.pgc, epoch := epoch }
          d.modTed fun t => { t with moves := t.moves.filter (·.page != page) ++ [x] }

/-! ### Commits (R154, Table 6.6 steps 6 to 8) -/

/-- The counter line equals the snapshot. -/
def Dev.sameCounters (m : Dram) (d : Dev) (frame : Nat) (snap : Nat × Nat) : Bool :=
  match d.currentCtr m frame with
  | .ok c => (c.major.toNat, c.minors.toNat) == snap
  | .error _ => false

/-- TEDDER_MOVE_COMMIT, under a page lock: the commit condition of the move, then its outcome. -/
def Dev.moveCommit (m : Dram) (d : Dev) (page : Nat) : Dev :=
  match d.move page with
  | none => d
  | some x =>
    -- a full map write buffer stalls the change (R150)
    if x.phase != .ready || !d.mapRoom x.ted (d.pmeSa (fieldOfPage page) (page % 512)) then d
    else
      let field := fieldOfPage page
      let ds := d.desc field
      let e := d.pageEntry page
      let old := pmeOf x.entry
      let base := ds.v && ds.tiered && !ds.fpois && e.sameStorage old && d.sameKey x.ld x.key
      match x.kind with
      | .demote =>
        let ok := base && !d.pageValid page && !d.unsentTo old.frame && d.sameCounters m old.frame x.snap
        let d := d.unhold old.frame
        if ok then
          let (e', n) : Pme × RingNote := match x.target with
            | .fallow => ({ e with state := 2, frame := x.frame, soff := x.soff, scnt := x.scnt, tsel := x.tsel, pgc := x.pgc,
                                   fctr := e.fctr + 1 }, .madeFallow x.scnt)
            | .bare => (e.toState 0, .madeBare)
            | _ => (e.toState 3, .madeBare)
          ((((d.putPme field (page % 512) e').freeFrame old.frame).count .demoted x.ted e'.state).dropMove page).moveNote x n
        else
          let d := d.count .commitAbort x.ted
          let d := if x.target = .fallow then d.freeSheaves x.frame x.soff x.scnt else d
          (d.dropMove page).moveNote x .staysSward
      | .relocate =>
        let ok := base && !d.pageBusy page && !d.unsentTo old.frame && d.sameCounters m old.frame x.snap
        let d := d.unhold old.frame
        if ok then
          (((d.putPme field (page % 512) { e with frame := x.frame }).freeFrame old.frame).count .relocated x.ted).dropMove page
        else ((d.freeFrame x.frame).count .commitAbort x.ted).dropMove page
      | .fallowMove =>
        if base && !d.pageBusy page then
          let d := d.putPme field (page % 512)
            { e with frame := x.frame, soff := x.soff, scnt := x.scnt, fctr := e.fctr + 1 }
          ((d.freeSheaves old.frame old.soff old.scnt).count .relocated x.ted).dropMove page
        else ((d.freeSheaves x.frame x.soff x.scnt).count .commitAbort x.ted).dropMove page

/-! ### Baler results -/

/-- A result of the balers reaches the unit that waits for it: the oldest that can be taken. -/
def Dev.balDeliver (m : Dram) (d : Dev) : Option Dev :=
  match d.bal.done.find? fun x => !d.codedWaits m x.1 x.2 with
  | none => none
  | some (why, r) =>
    let d := d.modBal fun b => { b with done := b.done.erase (why, r) }
    some (match why with
      | .txn id => match r with
        | .lines ((x, p) :: _) => d.modTxn id fun t => { t with got := some (x, p) }
        | _ => d.modTxn id fun t => { t with got := some (0, true) }
      | .promo page => match d.promo page with
        | none => d
        | some p => match r with
          | .lines ls => d.promoWrite m p ls
          | _ => d.promoWrite m p (List.replicate 64 (0, true))
      | .move page => d.demoteCoded m page r)

/-! ### Sampling and the epoch (R158, R159) -/

def sketchKey (ted r page : Nat) : Nat := (ted * 4 + r) * 2 ^ 18 + Config.sketchHash r page % 2 ^ 18

/-- Words of a Tedder's sketch that fail parity are set to zero and counted (R158): word `w` of row `r` as `r` × 2^15 + `w`, of eight
counters. -/
def Dev.sketchParity (d : Dev) (ted : Nat) (words : List Nat) : Dev :=
  words.foldl (fun d w => (d.modTed fun t =>
    { t with sketch := t.sketch.filter fun p => p.1 / 8 != ted * 2 ^ 17 + w }).count .sketchParity ted) d

/-- TEDDER_SAMPLE (R158): a sample reaches its Tedder's sketch. `par`: the rows whose word for it fails parity. -/
def Dev.tedSample (d : Dev) (ted : Nat) (par : List Nat) : Dev :=
  match d.ted.samples.find? fun s => fieldOfPage s.2 % 4 == ted with
  | none => d
  | some s =>
    let d := d.sketchParity ted (par.map fun r => r * 2 ^ 15 + sketchKey ted r s.2 % 2 ^ 18 / 8)
    (d.count .sample ted).modTed fun t =>
      { t with samples := t.samples.erase s,
               sketch := (List.range 4).foldl (fun l r => kvMod (fun _ => 0) l (sketchKey ted r s.2) fun v => min 15 (v + 1)) t.sketch }

/-- The scan cursor of a Tedder. -/
def Dev.cursor (d : Dev) (t : Nat) : Nat × Nat :=
  (d.fld (.tedCursor t) F.tedCursor_FIELD, d.fld (.tedCursor t) F.tedCursor_PAGE)
def Dev.setCursor (d : Dev) (t field page : Nat) : Dev :=
  (d.setFld (.tedCursor t) F.tedCursor_FIELD field).setFld (.tedCursor t) F.tedCursor_PAGE page

/-- next_field (R159); a wrap reconciles lost frames (R151). -/
def Dev.nextField (d : Dev) (t field : Nat) : Dev :=
  if field + 4 < 2 ^ 27 then d.setCursor t (field + 4) 0 else (d.setCursor t t 0).leakReconcile t

/-- The scan of an epoch: `n` entries still to scan, `queued` demotions so far. -/
def Dev.epochScan (t quota cold : Nat) : Nat → Nat → Dev → Dev
  | 0, _, d => d
  | n + 1, queued, d =>
    let (field, p) := d.cursor t
    let ds := d.desc field
    if !ds.v || !ds.tiered || ds.fpois then epochScan t quota cold n queued (d.nextField t field)
    else
      let e := d.pme field p
      let page := field * 512 + p
      let est := (List.range 4).foldl (fun b r => min b (kvGet (fun _ => 0) d.ted.sketch (sketchKey t r page))) 15
      let hot := max est (e.hot / 2)
      let demote := e.state == 1 && decide (queued < quota) && ds.tpol != 2 && (ds.tpol == 3 || decide (hot ≤ cold))
      let d := if demote then d.queueMove page .demote none 0 true
        else if e.state = 2 ∧ ds.rpromo = 1 ∧ d.fld .tedThresh F.tedThresh_PROMO ≤ hot then d.askPromo page .hot []
        else d
      let d := if hot ≠ e.hot then d.putPme field p { e with hot := hot } else d
      let d := if p = 511 then d.nextField t field else d.setCursor t field (p + 1)
      epochScan t quota cold n (if demote then queued + 1 else queued) d

/-- In low mode the demotion quota also covers fallow moves out of sheaf frames that hold 8 or fewer used sheaves (R165). -/
def Dev.queueRepack (d : Dev) (t room : Nat) : Dev :=
  let frames := d.ted.uses.filter fun p => p.2 == .sheaves t && decide (usedSheaves (d.sheafOcc t p.1) ≤ 8)
  let pages := frames.flatMap fun p => ((d.ted.slots.filter fun s => s.1 / 16 == p.1).map (·.2)).eraseDups
  (pages.take room).foldl (fun d page => d.queueMove page .fallowMove none 0 true) d

/-- TEDDER_EPOCH (R54, R55, R159): the epoch that is due scans, once the work of the one before is done. `lost`: map lines whose read
returns poison; `par`: words of the sketch that fail parity. -/
def Dev.tedEpoch (d : Dev) (t : Nat) (lost par : List Nat) : Dev :=
  let x := d.ted.epoch.getD t {}
  let now := d.nowNs
  if !d.flag (.tedCtrl t) F.tedCtrl_EN || d.ted.working.contains t || (x.running && decide (now < x.start)) then d
  else
    let x := if x.running then x else Periodic.begin now (d.epochNs t)
    let d := d.modTed fun y => { y with epoch := y.epoch.set t x, working := t :: y.working }
    let d := (lost.foldl Dev.mapLost d).sketchParity t par
    let low := d.low
    let cold := if low then d.fld .tedThresh F.tedThresh_COLD_LOW else d.fld .tedThresh F.tedThresh_COLD
    let quota := d.fld (.tedQuota t) F.tedQuota_DEMOTE * 1024 * (if low then 2 else 1)
    let scan := max 1 (d.fld (.tedCtrl t) F.tedCtrl_SCAN) * 1024
    let before := d.ted.moves.length
    let d := (Dev.epochScan t quota cold scan 0 d).count .scan t 0 scan
    (if low then d.queueRepack t (quota - (d.ted.moves.length - before)) else d).epochSettle t

end Sys2Proof.Machine
end

