-- ==== Sys2Proof/Machine/Capacity.lean ====
section
/-! DEFINITION. Storage sets, LD windows, the frame pool, watermarks, elastic capacity, keys and the erase sweep (R59, R70 to
R72, R166 to R177, R205 to R213, R228, R229). -/

namespace Sys2Proof.Machine

/-! ### Keys (R205, R207, R209, R228, R229) -/

/-- Draws a key pair from the TRNG. -/
def Dev.drawKey (d : Dev) : Dev × Nat := (d.modCip fun c => { c with drawn := c.drawn + 1 }, d.cip.drawn)

/-- Lines inside an LD's window. -/
def Dev.inWindow (d : Dev) (n line : Nat) : Bool :=
  decide (d.winBase n ≤ fieldOfLine line) && decide (fieldOfLine line < d.winBase n + d.winFields n)

/-- LD `n`'s key changes: KGEN and CHANGES rise, Sward copies of its window are dropped, its re-encryptions end, and the erase
sweep starts, or restarts. From the fourth change before a sweep completes on, each can meet lines of its own KGEN (R229). -/
def Dev.keyChange (d : Dev) (n : Nat) : Dev :=
  let (d, k) := d.drawKey
  let d := (d.modCip fun c => { c with ldKey := c.ldKey.set n k }).unspoil n
  let r : Reg := .cipLdkey n
  let d := d.setFld r F.cipLdkey_KGEN ((d.ldKgen n + 1) % 4)
  let d := d.bumpFld r F.cipLdkey_CHANGES
  let d := if d.winEn n then (d.swLines.filter (d.inWindow n)).foldl (fun d l => (d.dropSw l).settleEnt l) d else d
  let mine (x : ReEnc) : Bool := match x.dom with | .ld m _ _ => m == n | _ => false
  let d := (d.cip.reencs.filter mine).foldl (fun d x => d.reencEnd x.frame) d
  let c := d.cip.unswept.getD n 0 + 1
  let d := d.modCip fun x => { x with unswept := x.unswept.set n c }
  let d := d.setFlag r F.cipLdkey_SWEEP true
  if 4 ≤ c then
    (d.setFlag r F.cipLdkey_OVERTAKEN true).raise { vendorRec 0x0404 .warning 0x500 (d.ldKgen n) with ld := n }
  else d

/-- A re-encryption runs on a frame that belongs to one of some fields: what would free the frame waits for it (Table 8.9). -/
def Dev.jobIn (d : Dev) (inField : Nat → Bool) : Bool :=
  d.cip.reencs.any fun r => match d.ted.useOf r.frame with
    | some (.page f _) | some (.table f) => inField f
    | some _ => false
    | none => match d.flatField r.frame with
      | some (_, f) => inField f
      | none => false

/-- Makes every page of a tiered field bare under a field lock (R228); the fields that it changed. -/
def Dev.bareField (d : Dev) (field : Nat) : Dev :=
  let ds := d.desc field
  if !ds.v || !ds.tiered || ds.fpois then d
  else (List.range 512).foldl (fun d p =>
    let e := d.pme field p
    if e.state = 0 then d else (d.putPme field p (e.toState 0)).freePage e) d

/-- Flat frames of a field of a window (R168). -/
def Dev.eraseFlatField (m : Dram) (d : Dev) (base : Nat) : Dev :=
  (List.range 512).foldl (fun d i => d.eraseFrame m (base + i)) d

/-- ERASE_SWEEP_COMPLETE (R228): the sweep has worked through the LD's window; it is not over while a re-encryption runs there. -/
def Dev.eraseSweepDone (m : Dram) (d : Dev) (n : Nat) : Dev :=
  if !d.flag (.cipLdkey n) F.cipLdkey_SWEEP ||
      (d.winEn n && d.jobIn fun f => decide (d.winBase n ≤ f) && decide (f < d.winBase n + d.winFields n)) then d
  else
    let fields := if d.winEn n then List.range' (d.winBase n) (d.winFields n) else []
    let tiered := fields.filter fun f => (d.desc f).v && (d.desc f).tiered && !(d.desc f).fpois
    let flat := fields.filter fun f => (d.desc f).v && !(d.desc f).tiered && !(d.desc f).fpois
    let d := tiered.foldl Dev.bareField d
    let d := flat.foldl (fun d f => d.eraseFlatField m (d.desc f).base) d
    let d := d.setFlag (.cipLdkey n) F.cipLdkey_SWEEP false
    let d := d.modCip fun c => { c with unswept := c.unswept.set n 0 }
    d.raise { vendorRec 0x0403 .info 0x500 (d.ldKgen n + (tiered.length % 2 ^ 32) * 2 ^ 32) with ld := n }

/-! ### Storage sets (R70 to R72, R210 to R213) -/

/-- Targets of a set, as device, channel and number from TBASE. -/
def Dev.setTargets (d : Dev) (g : SetGeo) : List (Nat × Nat × Nat) :=
  (List.range (g.m * g.w)).map fun k =>
    (d.fld (.casTgt (g.tbase + k)) F.casTgt_DEV, d.fld (.casTgt (g.tbase + k)) F.casTgt_CHAN, k)

/-- Bytes of channel address that a set uses on each target: SIZE ÷ (M × W), rounded up to a whole G2 (R70). -/
def SetGeo.span (g : SetGeo) : Nat := ceilDiv (ceilDiv (g.size * 2 ^ 30) (g.m * g.w)) (2 ^ g.g2) * 2 ^ g.g2

/-- A channel in service, or in a frequency change. -/
def Dev.trained (d : Dev) (c : Nat) : Bool := d.inService c || d.chState c == 7

/-- A target's channel exists (Table 3.9) and is trained, and its usable capacity in bytes. -/
def Dev.targetCap (d : Dev) (dev c : Nat) : Option Nat :=
  if 24 ≤ c then none
  else if dev = 0 then (if d.trained c then some (d.usable c) else none)
  else if d.memState dev = 1 then
    let (st, gib) := kvGet (fun _ => (0, 0)) d.cas.chans (dev * 24 + c)
    if st = 3 then some (gib * 2 ^ 30) else none
  else none

/-- A commit of set `n` has been accepted, and COMMITTED has not set yet (R71). -/
def Dev.setPending (d : Dev) (n : Nat) : Bool := d.cas.setPend.contains n

/-- Set `n` is committed, or its commit is accepted: its registers and targets are held (R71). -/
def Dev.setKept (d : Dev) (n : Nat) : Bool := d.setCommitted n || d.setPending n

def Dev.setPend (d : Dev) (n : Nat) (b : Bool) : Dev :=
  let rest := d.cas.setPend.filter (· != n)
  { d with cas := { d.cas with setPend := if b then n :: rest else rest } }

/-- A commit of set `n` is refused (R70); a set whose commit is accepted counts among the committed ones. -/
def Dev.setRefused (d : Dev) (n : Nat) : Bool :=
  match d.setGeo n with
  | none => true
  | some g =>
    let ts := d.setTargets g
    let others := (List.range 16).filterMap fun k => if k ≠ n ∧ d.setKept k then d.setGeo k else none
    g.size == 0 || decide (1024 < g.tbase + g.m * g.w) || decide ((if g.m = 1 then 48 else 24) < g.w) ||
    (ts.any fun t => !d.flag (.casTgt (g.tbase + t.2.2)) F.casTgt_V) ||
    (ts.any fun t => match d.targetCap t.1 t.2.1 with
      | none => true
      | some cap => decide (cap < g.cbase * 2 ^ 30 + g.span)) ||
    (others.any fun o => overlaps g.base g.size o.base o.size) ||
    (others.any fun o => overlaps (g.cbase * 2 ^ 30) g.span (o.cbase * 2 ^ 30) o.span &&
      (d.setTargets o).any fun t => ts.any fun u => t.1 == u.1 && t.2.1 == u.2.1)

/-- SET_COMMIT (R70): COMMIT reads as written (R466), whatever becomes of the request. A member never evaluates sets (R72). -/
def Dev.setCommit (d : Dev) (n : Nat) : Dev :=
  if d.role ≠ 0 then d else
  let e := d.setFlag (.casSetCtrl n) F.casSetCtrl_COMMIT true
  if d.setKept n then e
  else if d.setRefused n then e.setFlag (.casSetCtrl n) F.casSetCtrl_ERR true
  else e.setPend n true

/-- Flat committed storage of an LD as (first SA, bytes), when it has any (R168). -/
def Dev.flatRange (d : Dev) (n : Nat) : Nat × Nat :=
  (d.fld (.tedLdflat n) F.tedLdflat_BASE * 2 ^ 21,
   if d.flag (.tedLdcap n) F.tedLdcap_TIERED then 0 else d.fld (.tedLdcap n) F.tedLdcap_COMMIT * 2 ^ 21)

def Dev.poolSpan (d : Dev) (k : Nat) : Nat × Nat :=
  (d.fld (.tedPool k) F.tedPool_BASE * 2 ^ 30, d.fld (.tedPool k) F.tedPool_SIZE * 2 ^ 30)
def Dev.poolEn (d : Dev) (k : Nat) : Bool := d.flag (.tedPool k) F.tedPool_EN

/-! ### CDAT (R93) -/

/-- The ranges of an LD that CDAT describes: LD-relative base and bytes, and whether the range is a DC region (R93). -/
def Dev.cdatRanges (d : Dev) (n : Nat) : List (Nat × Nat × Bool) :=
  (0, d.fld (.tedLdcap n) F.tedLdcap_COMMIT * 2 ^ 21, false) ::
    (d.regions n).map fun r => (r.base * 2 ^ 21, r.len * 2 ^ 21, true)

/-- Ley hops to the farthest member of a storage set that holds part of one of some ranges of SA. -/
def Dev.farHops (d : Dev) (ps : List (Nat × Nat)) : Nat :=
  ((List.range 16).map fun k =>
    if d.setCommitted k ∧ ps.any fun p =>
        overlaps p.1 p.2 (d.fld (.casSetMap k) F.casSetMap_BASE * 2 ^ 30) (d.fld (.casSetMap k) F.casSetMap_SIZE * 2 ^ 30) then
      match d.setGeo k with
      | some g => ((d.setTargets g).map fun t => if t.1 = 0 then 0 else d.fld (.casMember t.1) F.casMember_DIST).foldl max 0
      | none => 0
    else 0).foldl max 0

/-- Storage behind a range: the flat range, or the pool. -/
def Dev.behindRange (d : Dev) (n : Nat) (dc : Bool) : List (Nat × Nat) :=
  if dc || d.flag (.tedLdcap n) F.tedLdcap_TIERED then ((List.range 16).filter d.poolEn).map d.poolSpan else [d.flatRange n]

/-- Raw capacity of a head per direction in MB/s: rate × width ÷ 8 (R79). -/
def Dev.rawMBs (d : Dev) (h : Nat) : Nat :=
  let halfGt := [5, 10, 16, 32, 64, 128, 256].getD (d.fld (headReg h) F.hpStat_RATE) 0
  halfGt * 500 * d.fld (headReg h) F.hpStat_WIDTH / 8

/-- The CDAT of an LD (R93): the header, then per range DSMAS, four DSLBIS and DSEMTS. -/
def Dev.cdatEntries (d : Dev) (n : Nat) : List CdatEntry :=
  let bw := d.rawMBs (d.ldHead n) * 78 / 100
  .header :: ((d.cdatRanges n).zip (List.range 16)).flatMap fun ((base, len, dc), k) =>
    let far := 135 * d.farHops (d.behindRange n dc)
    [.dsmas k base len false, .latency k false ((if dc then 129 else 94) + far), .latency k true (54 + far),
     .bandwidth k false bw, .bandwidth k true bw, .dsemts k dc len]

/-- The LD's CDAT is rebuilt, with the next sequence number. -/
def Dev.cdatRebuild (d : Dev) (n : Nat) : Dev :=
  { d with hp := { d.hp with cdatSeq := d.hp.cdatSeq.modify n (· + 1), cdat := kvIns d.hp.cdat n (d.cdatEntries n) } }

/-- The CDAT of a function as it was last built: before that, and for the management view, which has no memory, a header alone. -/
def Dev.cdatOf (d : Dev) (fn : Nat) : List CdatEntry := (kvFind? d.hp.cdat fn).getD [.header]

/-- SET_COMMITTED (R70, R212, R213): the set's counter lines are written, all with one MAJOR: those of this device's channels as a fill,
those of members entry by entry over their Ley ports. -/
def Dev.setTakes (d : Dev) (n : Nat) : Dev :=
  if d.setCommitted n || !d.setPending n then d
  else match d.setGeo n with
    | none => d
    | some g =>
      let d := d.setPend n false
      let d := d.setFlag (.casSetCtrl n) F.casSetCtrl_COMMITTED true
      let d := d.setBit .cipSetstat (16 + n) true
      let major := d.rd .cipMajhw + 1
      let d := d.wr .cipMajhw major
      let legs : List FillLeg := ((d.setTargets g).filter fun t => t.1 == 0).map fun t =>
        { k := t.2.2, dev := t.1, chan := t.2.1, amap := d.rd (.chnAmap t.2.1), rankmap := d.rd (.chnRankmap t.2.1),
          geo := (d.chn t.2.1).geo }
      let d := { d with bulk := d.bulk ++ [DramOp.fill { geo := g, major := major, devKey := d.cip.devKey, legs := legs }] }
      let far := (d.setTargets g).any fun t => t.1 != 0
      let d := if far then { d with cas := { d.cas with inits := d.cas.inits ++ [{ set := n, major := major, next := g.base * 2 ^ 18 }] } } else d
      let lo := g.base * 2 ^ 18
      let hi := (g.base + g.size) * 2 ^ 18
      let outside (f : Nat) : Bool := decide (f < lo) || decide (hi ≤ f)
      let d := d.modCip fun c => { c with copies := c.copies.filter fun x => outside x.frame,
                                          merges := c.merges.filter fun x => outside x.frame }
      let d := d.modTed fun t => { t with map := t.map.filter fun p => outside (p.1 / 64) }
      (List.range 16).foldl Dev.cdatRebuild d

/-- The next counter line of a set that lies on a member, from frame `f` on: the frame and the line's place. `n` bounds the search. -/
def Dev.nextInit (d : Dev) (g : SetGeo) : Nat → Nat → Option (Nat × Nat × Nat × Nat)
  | 0, _ => none
  | n + 1, f =>
    if (g.base + g.size) * 2 ^ 18 ≤ f then none
    else
      let (k, ca) := g.place (g.ctrSa f)
      let dev := d.fld (.casTgt k) F.casTgt_DEV
      if dev = 0 then nextInit d g n (f + 1) else some (f, dev, d.fld (.casTgt k) F.casTgt_CHAN, ca)

/-- The Ley-port cipher unit forms the next counter line of a set for a member: CMARK, and the tag under the device key; a write entry
takes it there while few of its entries wait (R212, R232). -/
def Dev.initStep (d : Dev) : Option Dev :=
  match d.cas.inits with
  | [] => none
  | x :: rest =>
    let keep (next : Nat) (d : Dev) : Dev := { d with cas := { d.cas with inits := { x with next := next } :: rest } }
    match d.setGeo x.set with
    | none => some { d with cas := { d.cas with inits := rest } }
    | some g =>
      if d.cas.reqs.any fun r => r.tag.isNone && r.write then none
      else match d.nextInit g 4096 x.next with
        | some (f, dev, c, ca) =>
          let sa := g.ctrSa f
          let w := counterPayload d.cip.devKey sa { major := BitVec.ofNat 64 x.major, minors := 0 }
          some (keep (f + 1) (d.hand (.member dev c ca) { write := true, ca := 0, data := w, use := .fire, sa := sa }).1)
        | none =>
          if x.next + 4096 < (g.base + g.size) * 2 ^ 18 then some (keep (x.next + 4096) d)
          else some { d with cas := { d.cas with inits := rest } }

/-- Counter lines of a set are still on their way to members. -/
def Dev.initOut (d : Dev) (n : Nat) : Bool :=
  (d.cas.inits.any fun x => x.set == n) || d.cas.reqs.any fun r => r.write && r.use == .fire && d.setOf r.sa == some n

/-- COUNTER_REGION_READY (R212). Erases of frames of the set that have waited are made. -/
def Dev.counterReady (m : Dram) (d : Dev) (n : Nat) : Dev :=
  if d.setCommitted n && bitOf (d.rd .cipSetstat) (16 + n) && !d.initOut n then
    let d := (d.setBit .cipSetstat (16 + n) false).setBit .cipSetstat n true
    (d.raise { vendorRec 0x0405 .info 0x700 n with addr0 := d.fld (.casSetMap n) F.casSetMap_BASE * 2 ^ 30 }).erasesDue m
  else d

/-- Every committed set that holds a part of one of some ranges of SA is READY (R212). -/
def Dev.rangesReady (d : Dev) (need : List (Nat × Nat)) : Bool :=
  (List.range 16).all fun k => !d.setCommitted k || d.setReady k || !(need.any fun p =>
    overlaps p.1 p.2 (d.fld (.casSetMap k) F.casSetMap_BASE * 2 ^ 30) (d.fld (.casSetMap k) F.casSetMap_SIZE * 2 ^ 30))

/-- The storage of an LD's maps is READY: the field table, and the pool where its committed fields are tiered. -/
def Dev.mapsReady (d : Dev) (n : Nat) : Bool :=
  d.rangesReady ((d.ftab, 2 ^ 30) ::
    if d.flag (.tedLdcap n) F.tedLdcap_TIERED then ((List.range 16).filter d.poolEn).map d.poolSpan else [])

/-- A set is in use (R71). -/
def Dev.setInUse (d : Dev) (n : Nat) : Bool :=
  let a := d.fld (.casSetMap n) F.casSetMap_BASE * 2 ^ 30
  let len := d.fld (.casSetMap n) F.casSetMap_SIZE * 2 ^ 30
  let hit (p : Nat × Nat) : Bool := overlaps a len p.1 p.2
  ((List.range 16).any fun k => d.poolEn k && hit (d.poolSpan k)) ||
  (d.anyWindow && hit (d.ftab, 2 ^ 30)) ||
  ((List.range 16).any fun k => d.winEn k && hit (d.flatRange k)) ||
  (d.flag .casFoldmap F.casFoldmap_V && hit (d.fld .casFoldmap F.casFoldmap_BASE * 2 ^ 27, 2 ^ 27))

/-- SET_UNCOMMIT (R71, R212). -/
def Dev.setUncommit (d : Dev) (n : Nat) : Dev :=
  let e := d.setFlag (.casSetCtrl n) F.casSetCtrl_COMMIT false
  if !d.setCommitted n then (if d.setPending n then e.setFlag (.casSetCtrl n) F.casSetCtrl_ERR true else e)
  else if d.setInUse n then e.setFlag (.casSetCtrl n) F.casSetCtrl_ERR true
  else
    let d := e.setFlag (.casSetCtrl n) F.casSetCtrl_COMMITTED false
    let d := { d with cas := { d.cas with inits := d.cas.inits.filter fun x => x.set != n } }
    (d.setBit .cipSetstat n false).setBit .cipSetstat (16 + n) false

/-- A range of SA lies wholly in committed sets, as the sum of its parts in them. -/
def Dev.covered (d : Dev) (a len : Nat) : Bool :=
  let part (n : Nat) : Nat :=
    if d.setCommitted n then
      let b := d.fld (.casSetMap n) F.casSetMap_BASE * 2 ^ 30
      let e := b + d.fld (.casSetMap n) F.casSetMap_SIZE * 2 ^ 30
      min (a + len) e - max a b
    else 0
  ((List.range 16).map part).sum == len

/-- A range overlaps the counter region of a committed set (R210, R211). -/
def Dev.hitsCounters (d : Dev) (a len : Nat) : Bool :=
  (List.range 16).any fun n => d.setCommitted n && (match d.setGeo n with
    | some g => overlaps a len g.ctrBase (g.size * 2 ^ 24)
    | none => false)

/-! ### LD windows (R59, R168, R170, R171, R211) -/

/-- The sum of R170, over the enabled windows and `n`. -/
def Dev.capacitySum (d : Dev) (n : Nat) : Nat :=
  (((List.range 16).filter fun k => d.winEn k || k == n).map fun k =>
    (if d.flag (.tedLdcap k) F.tedLdcap_TIERED then 513 * d.fld (.tedLdcap k) F.tedLdcap_COMMIT else 0) +
      d.quotaFrames k).sum

/-- Frames in the enabled pool ranges of `ks`; P for all of them. -/
def Dev.poolFrames (d : Dev) (ks : List Nat) : Nat :=
  ((ks.filter d.poolEn).map fun k => d.fld (.tedPool k) F.tedPool_SIZE * 262144).sum

/-- Refusals of R59. -/
def Dev.winRefused59 (d : Dev) (n : Nat) : Bool :=
  let b := d.winBase n
  let f := d.winFields n
  f == 0 || decide (2 ^ 27 < b + f) ||
  ((List.range 16).any fun k => k != n && d.winEn k && overlaps b f (d.winBase k) (d.winFields k))

/-- Refusals of R170 and R211. -/
def Dev.winRefused170 (d : Dev) (n : Nat) : Bool :=
  let (a, len) := d.flatRange n
  decide (d.winFields n < d.fld (.tedLdcap n) F.tedLdcap_COMMIT) ||
  (decide (0 < len) && (!d.covered a len ||
    ((List.range 16).any fun k => k != n && d.winEn k && overlaps a len (d.flatRange k).1 (d.flatRange k).2) ||
    ((List.range 16).any fun k => d.poolEn k && overlaps a len (d.poolSpan k).1 (d.poolSpan k).2))) ||
  decide (d.poolFrames (List.range 16) < d.capacitySum n)

def Dev.winRefused211 (d : Dev) (n : Nat) : Bool :=
  let (a, len) := d.flatRange n
  d.hitsCounters a len || d.hitsCounters d.ftab (2 ^ 30)

def Dev.setWin (d : Dev) (n : Nat) (p : WinPhase) : Dev := d.modTed fun t => { t with win := t.win.set n p }
def Dev.winPhase (d : Dev) (n : Nat) : WinPhase := d.ted.win.getD n .none

/-- LDWIN_ENABLE. -/
def Dev.winEnable (d : Dev) (n : Nat) : Dev :=
  let err (d : Dev) : Dev := d.setFlag (.gblLdwin n) F.gblLdwin_ERR true
  if d.winEn n then d
  else if d.winRefused59 n then err d
  else if d.winRefused170 n then (err d).setFlag (.tedLdcap n) F.tedLdcap_ERR true
  else if d.winRefused211 n then err d
  else (d.setFlag (.gblLdwin n) F.gblLdwin_EN true).setWin n .building

/-- Writes a field's descriptor. -/
def Dev.putDesc (d : Dev) (field : Nat) (x : Desc) : Dev := d.putMapWord (field % 4) (d.descSa field) x.num true

/-- A new tiered field: a page table of bare pages, taken from the pool and erased (R168, R174). R170 keeps a frame free for each page table
of a window, and ADD_CAPACITY checks for one; the manual names no outcome for a field that finds none, and its descriptor would stay as
it was (log entry 118). -/
def Dev.newTiered (m : Dram) (d : Dev) (field n : Nat) (elastic : Bool) : Dev :=
  match d.takeFrame m (.table field) with
  | none => d
  | some (f, d) =>
    let d := d.putDesc field { v := true, tiered := true, ld := n, base := f, elastic := elastic }
    if elastic then d.wr (.tedLduse n) (d.foot n + 16) else d.setPool d.freeFrames (d.resv + 512)

/-- WINDOW_BUILD_COMPLETE (R168). The writes of the build wait while the storage of the maps is not READY (R212). -/
def Dev.windowBuilt (m : Dram) (d : Dev) (n : Nat) : Dev :=
  if d.winPhase n != .building || !d.mapsReady n then d
  else
    let base := d.winBase n
    let commit := d.fld (.tedLdcap n) F.tedLdcap_COMMIT
    let tiered := d.flag (.tedLdcap n) F.tedLdcap_TIERED
    let flat := d.fld (.tedLdflat n) F.tedLdflat_BASE
    let d := (List.range (d.winFields n)).foldl (fun d i =>
      if i < commit then
        if tiered then d.newTiered m (base + i) n false
        else d.putDesc (base + i) { v := true, ld := n, base := (flat + i) * 512 }
      else d.putDesc (base + i) {}) d
    (d.setFlag (.tedLdcap n) F.tedLdcap_BUILT true).setWin n .none

/-- LDWIN_DISABLE (R59, R171): the teardown starts, or the clear is refused. -/
def Dev.winDisable (d : Dev) (n : Nat) : Dev :=
  if !d.winEn n then d
  else if ((List.range 8).any fun i => (d.hdm n i).committed) || !(d.extents n).isEmpty || d.winPhase n == .tearing then
    d.setFlag (.gblLdwin n) F.gblLdwin_ERR true
  else d.setWin n .tearing

/-- What a lost field still counts for goes with it, and its flat storage is erased (R151, R171). -/
def Dev.dropLost (m : Dram) (d : Dev) (x : LostField) : Dev :=
  let d := d.modTed fun t => { t with lostFields := t.lostFields.filter (· != x) }
  let d := match x.flat with
    | some base => d.eraseFlatField m base
    | none => d
  (d.wr (.tedLduse x.ld) (d.foot x.ld - x.foot)).setPool d.freeFrames (d.resv - x.resv)

/-- A field's storage goes back to the pool: its pages and its page table; its descriptor becomes invalid (R171, R177). -/
def Dev.dropField (m : Dram) (d : Dev) (field : Nat) : Dev :=
  let ds := d.desc field
  let d := d.putDesc field {}
  if !ds.v then d
  else if ds.fpois then
    match d.ted.lostFields.find? fun x => x.field == field with
    | some x => d.dropLost m x
    | none => d
  else if !ds.tiered then d.eraseFlatField m ds.base
  else
    let pm (p : Nat) : Pme :=
      let sa := ds.base * 4096 + 8 * p
      pmeOf (wordOfLine (d.mapLine sa) (sa / 8 % 8))
    let es := (List.range 512).map pm
    let notSward := (es.filter fun e => e.state != 1).length
    let d := es.foldl Dev.freePage d
    let d := d.freeFrame ds.base
    if ds.elastic then d.wr (.tedLduse ds.ld) (d.foot ds.ld - (16 + (es.map Pme.weight).sum))
    else d.setPool d.freeFrames (d.resv - notSward)

/-- WINDOW_TEARDOWN_COMPLETE (R171). -/
def Dev.windowTorn (m : Dram) (d : Dev) (n : Nat) : Dev :=
  let fields := List.range' (d.winBase n) (d.winFields n)
  if d.winPhase n != .tearing || d.jobIn fields.contains then d
  else
    let d := fields.foldl (fun d f => d.dropField m f) d
    let d := d.dropLines (d.inWindow n)
    let d := d.setFlag (.tedLdcap n) F.tedLdcap_BUILT false
    ((d.setFlag (.gblLdwin n) F.gblLdwin_EN false).setWin n .none).unspoil n

/-! ### The frame pool (R166, R167, R211) -/

/-- POOL_ENABLE (R167). The free list is kept in T0's own storage: no frame of the pool holds entries of it, for the manual gives them neither
number nor place (log entry 118). -/
def Dev.poolEnable (d : Dev) (k : Nat) : Dev :=
  let (a, len) := d.poolSpan k
  if d.poolEn k then d
  else if len = 0 || !d.covered a len || ((List.range 16).any fun j => j != k && d.poolEn j && overlaps a len (d.poolSpan j).1 (d.poolSpan j).2)
      || overlaps a len d.ftab (2 ^ 30) || ((List.range 16).any fun n => d.winEn n && overlaps a len (d.flatRange n).1 (d.flatRange n).2)
      || d.hitsCounters a len then
    d.setFlag (.tedPool k) F.tedPool_ERR true
  else
    let d := (d.setFlag (.tedPool k) F.tedPool_EN true).setFlag (.tedPool k) F.tedPool_DRAINED false
    let d := d.modTed fun t => { t with free := t.free ++ [(a / 4096, len / 4096)] }
    d.setPool (d.freeFrames + len / 4096) d.resv

/-- POOL_DRAIN (R166): the ranges that are not being withdrawn have to pass R170. The manual does not say what setting DRAIN of a range whose
EN is 0 does: it is ignored, without ERR (log entry 118). -/
def Dev.poolDrain (d : Dev) (k : Nat) : Dev :=
  if d.flag (.tedPool k) F.tedPool_DRAIN || !d.poolEn k then d
  else
    let need := (((List.range 16).filter d.winEn).map fun n =>
      (if d.flag (.tedLdcap n) F.tedLdcap_TIERED then 513 * d.fld (.tedLdcap n) F.tedLdcap_COMMIT else 0) + d.quotaFrames n).sum
    let rest := (List.range 16).filter fun j => j != k && !d.flag (.tedPool j) F.tedPool_DRAIN
    if d.poolFrames rest < need then d.setFlag (.tedPool k) F.tedPool_ERR true
    else d.setFlag (.tedPool k) F.tedPool_DRAIN true

/-- DRAIN cleared before EN: the range is used again, and its frames that neither the list nor a user holds go to the tail of
the list in ascending order. -/
def Dev.poolUndrain (d : Dev) (k : Nat) : Dev :=
  if !d.flag (.tedPool k) F.tedPool_DRAIN then d
  else
    let d := (d.setFlag (.tedPool k) F.tedPool_DRAIN false).setFlag (.tedPool k) F.tedPool_DRAINED false
    let (a, len) := d.poolSpan k
    let listed (f : Nat) : Bool := d.ted.free.any fun r => decide (r.1 ≤ f ∧ f < r.1 + r.2)
    let back := (List.range' (a / 4096) (len / 4096)).filter fun f => !listed f && (d.ted.useOf f).isNone && !d.ted.leaked.contains f
    let d := d.modTed fun t => { t with free := back.foldl putFrame t.free }
    d.setPool (d.freeFrames + back.length) d.resv

/-- POOL_DISABLE (R166): the range's frames leave the free list. -/
def Dev.poolDisable (d : Dev) (k : Nat) : Dev :=
  if !d.poolEn k then d
  else if !d.flag (.tedPool k) F.tedPool_DRAINED then d.setFlag (.tedPool k) F.tedPool_ERR true
  else
    let (a, len) := d.poolSpan k
    let inside (f : Nat) : Bool := decide (a / 4096 ≤ f) && decide (f < (a + len) / 4096)
    let gone := ((d.ted.free.filter fun r => inside r.1).map (·.2)).sum
    let d := d.modTed fun t => { t with free := t.free.filter fun r => !inside r.1, leaked := t.leaked.filter fun f => !inside f }
    let d := ((d.setFlag (.tedPool k) F.tedPool_EN false).setFlag (.tedPool k) F.tedPool_DRAIN false).setFlag
      (.tedPool k) F.tedPool_DRAINED false
    d.setPool (d.freeFrames - gone) d.resv

/-- WATERMARK_WRITE (R175). -/
def Dev.wmWrite (d : Dev) (v : Nat) : Dev :=
  let low := bitsOf v 47 32
  let rel := bitsOf v 31 16
  let floor := bitsOf v 15 0
  let err := d.flag .tedWm F.tedWm_ERR && !bitOf v 63
  if floor < rel ∧ rel < low then
    let old := d.rd .tedWm % 2 ^ 56
    let d := d.wr .tedWm (v % 2 ^ 56 + b2n err * 2 ^ 63)
    if old = v % 2 ^ 56 then d else d.poolEval
  else d.setFlag .tedWm F.tedWm_ERR true

/-- RELEASE_REQUEST_INTERVAL (R175, R176). -/
def Dev.releaseAgain (d : Dev) : Dev := if d.relMode then d.releaseRound else d

/-! ### Dynamic capacity (R96, R174, R177, R331) -/

/-- The DC region of an LD that holds a run of fields. -/
def Dev.regionOf (d : Dev) (n first fields : Nat) : Option DcRegion :=
  (d.regions n).find? fun r => decide (r.base ≤ first) && decide (first + fields ≤ r.base + r.len) &&
    (first - r.base) % 2 ^ r.k == 0 && fields % 2 ^ r.k == 0

/-- DC_REGION_CONFIGURE (R96): region `i` of an LD. -/
def Dev.regionSet (d : Dev) (n i base len k : Nat) : Dev :=
  let commit := d.fld (.tedLdcap n) F.tedLdcap_COMMIT
  let others := (d.regions n).eraseIdx i
  let bad := decide (7 < i) || decide (9 < k) || decide (base < commit) || decide (d.winFields n < base + len) || len == 0 ||
    base % 2 ^ k != 0 || len % 2 ^ k != 0 || (others.any fun r => overlaps base len r.base r.len) ||
    !(d.extents n).isEmpty || decide ((d.regions n).length < i) || !d.on31 n
  if bad then d.emit (.mailbox 16 .configureRegion .invalidInput [])
  else
    let r : DcRegion := { base := base, len := len, k := k }
    let l := d.regions n
    let l := if i < l.length then l.set i r else l ++ [r]
    let d := { d with hp := { d.hp with regions := kvSet (fun _ => []) d.hp.regions n l } }
    (d.cdatRebuild n).emit (.mailbox 16 .configureRegion .success [])

def Dev.setExtents (d : Dev) (n : Nat) (l : List Extent) : Dev :=
  let d := { d with hp := { d.hp with extents := kvSet (fun _ => []) d.hp.extents n l, extGen := d.hp.extGen.modify n (· + 1) } }
  let d := d.setFld (.tedLdgrant n) F.tedLdgrant_EXTENTS l.length
  d.setFld (.tedLdgrant n) F.tedLdgrant_FIELDS ((l.map (·.fields)).sum)

/-- ADD_CAPACITY (R174). -/
def Dev.addCapacity (m : Dram) (d : Dev) (n first fields tag : Nat) : Dev :=
  let g := d.extentPages n
  let add := 512 * fields
  let quota := d.quotaFrames n
  let ovc := d.fld (.tedLdcap n) F.tedLdcap_OVC + 1
  let clash := (d.extents n).any fun e => overlaps first fields e.first e.fields
  if !d.on31 n || !d.winBuilt n || fields == 0 || (d.regionOf n first fields).isNone || clash || decide (1024 ≤ (d.extents n).length) then
    d.emit (.mailbox 16 .addCapacity .invalidInput [])
  else if ovc * quota < g + add || quota * g * 16 < d.foot n * (g + add) ||
      d.relMode || decide (d.elasticFree - fields < wmFrames (d.fld .tedWm F.tedWm_FLOOR)) then
    d.emit (.mailbox 16 .addCapacity .resourcesExhausted [])
  else
    let d := (List.range fields).foldl (fun d i => d.newTiered m (d.winBase n + first + i) n true) d
    let d := d.setExtents n (d.extents n ++ [{ first := first, fields := fields, tag := tag }])
    let d := d.raise { kind := .addCapacity, ty := 0, sev := .dcd, ld := n, addr0 := first * 2 ^ 21, addr1 := fields * 2 ^ 21,
                       detail := tag }
    d.emit (.mailbox 16 .addCapacity .success [])

/-- Starts the removal of an extent that the LD holds (R177): from here on it is no held extent. -/
def Dev.beginRemoval (d : Dev) (n : Nat) (e : Extent) (origin : Nat) : Dev :=
  let d := d.setExtents n ((d.extents n).filter (· != e))
  { d with hp := { d.hp with removals := d.hp.removals ++ [{ ld := n, ext := e, origin := origin }] } }

/-- RELEASE_DYNAMIC_CAPACITY: the host's mailbox response (R177, R331). -/
def Dev.releaseCapacity (d : Dev) (n first fields : Nat) : Dev :=
  match (d.extents n).find? fun e => e.first == first && e.fields == fields with
  | some e => d.beginRemoval n e 1
  | none => d.emit (.mailbox n .releaseCapacity .invalidInput [])

/-- FORCED_REMOVAL by the fabric manager (R177). -/
def Dev.forcedRemoval (d : Dev) (n first fields : Nat) : Dev :=
  match (d.extents n).find? fun e => e.first == first && e.fields == fields with
  | some e =>
    let d := d.beginRemoval n e 0
    d.raise { kind := .forcedRelease, ty := 0, sev := .dcd, ld := n, addr0 := first * 2 ^ 21, addr1 := fields * 2 ^ 21,
              detail := e.tag }
  | none => d.emit (.mailbox 16 .forcedRemoval .invalidInput [])

/-- EXTENT_REMOVAL_COMPLETE (R177): the oldest removal of an LD has run; the ring command or mailbox that asked hears of it. -/
def Dev.removalDone (m : Dram) (d : Dev) (n : Nat) : Dev :=
  match d.hp.removals.find? (·.ld == n) with
  | none => d
  | some r =>
    let a := d.winBase n + r.ext.first
    if d.jobIn fun f => decide (a ≤ f) && decide (f < a + r.ext.fields) then d else
    let d := (List.range r.ext.fields).foldl (fun d i => d.dropField m (a + i)) d
    let inside (line : Nat) : Bool := decide (a ≤ fieldOfLine line) && decide (fieldOfLine line < a + r.ext.fields)
    let d := d.dropLines inside
    let d := { d with hp := { d.hp with removals := d.hp.removals.erase r } }
    if r.origin = 0 then d.emit (.mailbox 16 .forcedRemoval .success [])
    else if r.origin = 1 then d.emit (.mailbox n .releaseCapacity .success [])
    else d

/-! ### The zero path (R163, R225, R227) -/

/-- Under a page lock whose commit requires no valid entry, a page becomes bare, or a flat frame is erased; none when the commit
fails. A page of an unpopulated or lost field is left alone. -/
def Dev.zeroPath (m : Dram) (d : Dev) (page : Nat) : Option Dev :=
  let field := fieldOfPage page
  let ds := d.desc field
  if !ds.v || ds.fpois then some d
  else if d.pageValid page then none
  else if ds.tiered then
    let e := d.pageEntry page
    if e.state = 0 then some d
    else if e.state = 1 && (d.unsentTo e.frame || (d.reencOf e.frame).isSome) then none
    else if !d.mapRoom (field % 4) (d.pmeSa field (page % 512)) then none
    else some ((d.putPme field (page % 512) (e.toState 0)).freePage e)
  else
    let f := ds.base + page % 512
    if d.unsentTo f then none else some (d.eraseFrame m f)

end Sys2Proof.Machine
end

