-- ==== Sys2Proof/Machine/LeyOps.lean ====
section
/-! DEFINITION. The Ley link of one port (chapter 13): the flit with its FEC and CRC, sequence numbers and replay, entries
and credits, retrain, resize and their collisions, link down. -/

namespace Sys2Proof.Machine

/-! ### CRC-64 (R343) and FEC (R344) -/

def crc64Bits : Nat → Nat → Nat
  | 0, c => c
  | n + 1, c => crc64Bits n (if c.testBit 63 then Nat.xor (2 * c % 2 ^ 64) 0x42F0E1EBA9EA3693 else 2 * c)

/-- CRC over bytes, each most significant bit first. -/
def leyCrc (bs : List Nat) : Nat :=
  Nat.xor (bs.foldl (fun c b => crc64Bits 8 (Nat.xor c (b % 256 * 2 ^ 56))) (2 ^ 64 - 1)) (2 ^ 64 - 1)

/-- Bytes of codeword `k`: those whose index is `k` modulo 4, highest coefficient first. -/
def leyLane (bs : List Nat) (k : Nat) : List Nat := (List.range (bs.length / 4)).map fun i => bs.getD (4 * i + k) 0

/-- The check symbols (coefficients of x and of 1) of 62 symbols: the remainder modulo (x − 1)(x − α) = x² + 3x + 2. -/
def leyCheck (ms : List Nat) : Nat × Nat :=
  ms.foldl (fun r c =>
    let top := Nat.xor c r.1
    (Nat.xor r.2 (rsMul top 3), rsMul top 2)) (0, 0)

/-- The whole flit of 240 bytes: CRC and FEC added (Table 13.3). -/
def leySeal (body : List Nat) : List Nat :=
  let crc := leyCrc body
  let bs := body ++ (toBytes 8 crc).reverse
  let cs := (List.range 4).map fun k => leyCheck (leyLane bs k)
  bs ++ cs.map (·.1) ++ cs.map (·.2)

/-- Discrete logarithm to base α below 64. -/
def leyLog (x : Nat) : Option Nat := (List.range 64).find? fun j => rsAlpha j == x

/-- One codeword of 64 symbols: as it is, corrected in one symbol, or none when it cannot be corrected. -/
def leyFix (cw : List Nat) : Option (List Nat × Bool) :=
  let s0 := cw.foldl Nat.xor 0
  let s1 := cw.foldl (fun v c => Nat.xor c (rsMul v 2)) 0
  if s0 = 0 ∧ s1 = 0 then some (cw, false)
  else if s0 = 0 ∨ s1 = 0 then none
  else (leyLog (rsMul s1 (rsInv s0))).map fun j => (cw.modify (63 - j) (Nat.xor s0), true)

/-- What a receiver makes of 256 bytes: none for a discarded flit; the bytes and whether one was corrected (R344). -/
def leyDecode (bs : List Nat) : Option (List Nat × Bool) :=
  match leyFix (leyLane bs 0), leyFix (leyLane bs 1), leyFix (leyLane bs 2), leyFix (leyLane bs 3) with
  | some (a, x), some (b, y), some (c, z), some (e, w) =>
    let fixed := (List.range 64).flatMap fun i => [a.getD i 0, b.getD i 0, c.getD i 0, e.getD i 0]
    if ofBytes ((fixed.drop 240).take 8).reverse = leyCrc (fixed.take 240) then some (fixed, x || y || z || w) else none
  | _, _, _, _ => none

/-! ### The port -/

def Dev.lp (d : Dev) (p : Nat) : LeyPort := d.ley.getD p {}
def Dev.modLp (d : Dev) (p : Nat) (f : LeyPort → LeyPort) : Dev := { d with ley := d.ley.modify p f }
def Dev.leyState (d : Dev) (p : Nat) : Nat := d.fld (.leyStat p) F.leyStat_STATE
def Dev.setLeyState (d : Dev) (p s : Nat) : Dev := d.setFld (.leyStat p) F.leyStat_STATE s
def Dev.leyPdev (d : Dev) (p : Nat) : Nat := d.fld (.leyStat p) F.leyStat_PDEV
def Dev.leyPdist (d : Dev) (p : Nat) : Nat := d.fld (.leyStat p) F.leyStat_PDIST
/-- The link is up for R370: ACTIVE, or in a retrain or resize on the way back to it. -/
def Dev.leyUp (d : Dev) (p : Nat) : Bool := decide (4 ≤ d.leyState p ∧ d.leyState p ≤ 6)

/-- DIST as this device reports it (R370): 2 on a member without an upstream port. -/
def Dev.sdist (d : Dev) : Nat := min 2 (d.fld .casId F.casId_DIST)

/-- Totals of Table 13.8: header and data credits. -/
def leyTotal (v : Nat) : Nat × Nat := [(256, 0), (256, 256), (256, 256), (32, 64)].getD v (0, 0)

def Dev.hwin (d : Dev) (p v : Nat) : Nat := d.fld (.leyCred p v) F.leyCred_HWIN
def Dev.dwin (d : Dev) (p v : Nat) : Nat := d.fld (.leyCred p v) F.leyCred_DWIN

/-- Sets a window; its lowest values follow (R356). -/
def Dev.setCred (d : Dev) (p v h x : Nat) : Dev :=
  let r := Reg.leyCred p v
  (((d.setFld r F.leyCred_HWIN h).setFld r F.leyCred_DWIN x).setFld r F.leyCred_HLOW
    (min h (d.fld r F.leyCred_HLOW))).setFld r F.leyCred_DLOW (min x (d.fld r F.leyCred_DLOW))

/-- LEY_CRED_CLR (R356): the lowest values become the windows. -/
def Dev.credClr (d : Dev) (p v : Nat) : Dev :=
  let r := Reg.leyCred p v
  (d.setFld r F.leyCred_HLOW (d.hwin p v)).setFld r F.leyCred_DLOW (d.dwin p v)

/-- Queues a control message: four copies with one CTLID (R345). -/
def Dev.sendCtl (d : Dev) (p : Nat) (m : LeyCtl) : Dev :=
  d.modLp p fun x => { x with ctlOut := x.ctlOut ++ [(m, x.nextCtl, 4)], nextCtl := (x.nextCtl + 1) % 256 }

/-! ### Entries (Table 13.6) -/

def LeyEnt.header (e : LeyEnt) : Nat :=
  e.vc % 4 + e.op % 64 * 2 ^ 2 + e.dev % 8 * 2 ^ 8 + e.chan % 32 * 2 ^ 11 + e.dlen % 4 * 2 ^ 16 + e.tag % 2 ^ 14 * 2 ^ 18 +
    e.la % 2 ^ 35 * 2 ^ 32 + e.md % 2 ^ 32 * 2 ^ 67 + e.out % 4 * 2 ^ 99 + e.cdev % 16 * 2 ^ 101

/-- The slots of an entry: its header, and four for each data unit. -/
def LeyEnt.slots (e : LeyEnt) : List Nat :=
  e.header :: e.data.flatMap fun x => (List.range 4).map fun i => (x.toNat >>> (128 * i)) % 2 ^ 128

def slotDlen (h : Nat) : Nat := bitsOf h 17 16

/-- The entry of a header slot and its data slots. -/
def entOfSlots (h : Nat) (ds : List Nat) : LeyEnt :=
  { vc := bitsOf h 1 0, op := bitsOf h 7 2, dev := bitsOf h 10 8, chan := bitsOf h 15 11, dlen := slotDlen h,
    tag := bitsOf h 31 18, la := bitsOf h 66 32, md := bitsOf h 98 67, out := bitsOf h 100 99, cdev := bitsOf h 104 101,
    data := (List.range (slotDlen h)).map fun u => BitVec.ofNat 512
      ((List.range 4).foldl (fun v i => v + ds.getD (4 * u + i) 0 * 2 ^ (128 * i)) 0) }

/-- The whole entries of a stream of slots, and the slots of one that is not whole yet (R349). -/
def parseSlots : Nat → List Nat → List LeyEnt × List Nat
  | 0, l => ([], l)
  | _, [] => ([], [])
  | n + 1, h :: l =>
    let k := 4 * slotDlen h
    if l.length < k then ([], h :: l)
    else
      let (es, rest) := parseSlots n (l.drop k)
      (entOfSlots h (l.take k) :: es, rest)

/-- The entry is one of Tables 13.7 and 14.2, with a DLEN that it can have. -/
def LeyEnt.known (e : LeyEnt) : Bool :=
  match e.vc with
  | 0 => e.op == 1 && e.dlen == 0
  | 1 => e.op == 8 && e.dlen == 1
  | 2 => (e.op == 0x10 && e.dlen == (if e.out = 3 then 0 else 1)) || (e.op == 0x11 && e.dlen == 0)
  | _ => decide (0x20 ≤ e.op ∧ e.op ≤ 0x27) && e.dlen == (if e.op = 0x21 ∨ e.op = 0x25 then 2 else 0)

/-! ### Receive queues (R352) -/

/-- Header and data credits in use in the receive queue of a VC, an unfinished entry included. -/
def occupied (q : List (Nat × LeyEnt)) (part : List Nat) (v : Nat) : Nat × Nat :=
  let es := (q.map (·.2)).filter (·.vc == v)
  let (h, x) := match part with
    | s :: _ => if bitsOf s 1 0 = v then (1, slotDlen s) else (0, 0)
    | [] => (0, 0)
  (es.length + h, (es.map (·.dlen)).sum + x)

/-- The VC whose queue would overrun (R355). -/
def overrunVc (q : List (Nat × LeyEnt)) (part : List Nat) : Option Nat :=
  (List.range 4).find? fun v =>
    let (h, x) := occupied q part v
    decide ((leyTotal v).1 < h ∨ (leyTotal v).2 < x)

/-- Credits of a VC become pending returns. -/
def LeyPort.giveBack (x : LeyPort) (v dlen : Nat) : LeyPort :=
  { x with pend := x.pend.modify v fun y => (y.1 + 1, y.2 + dlen) }

/-- Takes the first entry of the receive queues that satisfies `f`; its credits become pending returns. -/
def LeyPort.take (x : LeyPort) (f : LeyEnt → Bool) : Option ((Nat × LeyEnt) × LeyPort) :=
  match x.rxq.find? fun e => f e.2 with
  | none => none
  | some e => some (e, ({ x with rxq := x.rxq.erase e }).giveBack e.2.vc e.2.dlen)

/-- The oldest entry of a VC, when it has the opcode. -/
def LeyPort.front (x : LeyPort) (v op : Nat) : Option (Nat × LeyEnt) :=
  match x.rxq.find? fun e => e.2.vc == v with
  | some e => if e.2.op = op then some e else none
  | none => none

def Dev.popRx (d : Dev) (p : Nat) (e : Nat × LeyEnt) : Dev :=
  d.modLp p fun x => ({ x with rxq := x.rxq.erase e }).giveBack e.2.vc e.2.dlen

/-- The transmit queue crossing of a port has a slot free (R46). -/
def Dev.txRoom (d : Dev) (p : Nat) : Bool := decide ((d.lp p).txq.length < (XId.leyTx p).slots)

/-- Puts an entry into the transmit queue of a port. Entries past the crossing's slots are their senders', which stall (R46). -/
def Dev.pushTx (d : Dev) (p : Nat) (e : LeyEnt) : Dev :=
  let d := if d.txRoom p then d else d.overrun (.leyTx p)
  d.modLp p fun x => { x with txq := x.txq ++ [e] }

/-! ### Retrain and resize (R357 to R361) -/

def widthOf (lanes : Nat) : Nat :=
  if lanes = 0xFF then 0 else if lanes = 0x0F ∨ lanes = 0xF0 then 1 else 2

/-- The widest lane set of Table 13.1 within the lanes of a mask, lowest lanes first; none when no set fits. -/
def widestSet (mask : Nat) : Option Nat :=
  [0xFF, 0x0F, 0xF0, 0x03, 0x0C, 0x30, 0xC0].find? fun s => s &&& mask == s

/-- The lane set of a width within the lanes of a mask. -/
def setOfWidth (w mask : Nat) : Option Nat :=
  ([0xFF, 0x0F, 0xF0, 0x03, 0x0C, 0x30, 0xC0].filter fun s => widthOf s == w).find? fun s => s &&& mask == s

/-- A settled window of the VC is below THRESH percent of its total (R356). -/
def Dev.winLow (d : Dev) (p v : Nat) : Bool :=
  let th := min 100 (d.fld (.leyRtcfg p) F.leyRtcfg_THRESH)
  d.flag (.leyRtcfg p) F.leyRtcfg_AUTO &&
    (decide (d.hwin p v * 100 < th * (leyTotal v).1) || decide (d.dwin p v * 100 < th * (leyTotal v).2))

/-- A retrain begins with an RTRQ (Table 13.9 step 1). -/
def Dev.beginRetrain (d : Dev) (p cause : Nat) : Dev :=
  let now := d.nowNs
  ((d.setLeyState p 5).modLp p fun x =>
    { x with want := some (.retrain cause), mine := true, phase := .asked, tries := 1, t0 := now }).sendCtl p { ctl := 1 }

/-- A cause of a retrain arises (R357): it starts one, or waits behind a resize request. -/
def Dev.leyRetrain (d : Dev) (p cause : Nat) : Dev :=
  if d.leyState p = 4 then
    if (d.lp p).phase = .none then d.beginRetrain p cause
    else d.modLp p fun x => { x with again := some (.retrain cause) }
  else d

/-- The width may be asked for (R360). -/
def Dev.resizeOk (d : Dev) (p w : Nat) : Bool := d.leyState p == 4 && (setOfWidth w (d.lp p).trained).isSome

/-- RS_REQ (R360): RS_WIDTH 3 acts as 2. -/
def Dev.leyResize (d : Dev) (p w : Nat) : Dev :=
  let w := min 2 w
  if !d.resizeOk p w then d.setFlag (.leyCtrl p) F.leyCtrl_ERR true
  else if (d.lp p).phase = .none then
    let now := d.nowNs
    (d.modLp p fun x => { x with want := some (.resize w), mine := true, phase := .asked, tries := 1, t0 := now }).sendCtl p
      { ctl := 3, arg := w }
  else d.modLp p fun x => { x with again := some (.resize w) }

/-- An abandoned request is issued anew when the link is ACTIVE, if its cause still holds (R361). `retrained`: the request
that was followed instead was a retrain. -/
def Dev.issueAgain (d : Dev) (p : Nat) (retrained : Bool) : Dev :=
  let w := (d.lp p).again
  let d := d.modLp p fun x => { x with again := none }
  match w with
  | none => d
  | some (.retrain c) =>
    if c = 3 then (if (List.range 4).any (d.winLow p) then d.leyRetrain p 3 else d)
    else if retrained then d else d.leyRetrain p c
  | some (.resize w) =>
    if d.fld (.leyStat p) F.leyStat_WIDTH ≠ w ∧ d.resizeOk p w then d.leyResize p w else d

/-- LEY_LAST (Table 13.18). -/
def Dev.leyLast (d : Dev) (p cause : Nat) : Dev :=
  let x := d.lp p
  let d := if cause = 7 then d.count .resize p else d.count .retrain p cause
  ((d.setFld (.leyLast p) F.leyLast_CAUSE cause).setFld (.leyLast p) F.leyLast_TIME (satTo 20 (d.nowNs - x.t0))).setFld
    (.leyLast p) F.leyLast_ATTEMPTS (min 15 x.tries)

/-- A received control message of code `c`, and the port without it. -/
def Dev.takeCtl (d : Dev) (p c : Nat) : Option (LeyCtl × Dev) :=
  match (d.lp p).ctlIn with
  | m :: rest => if m.ctl = c then some (m, d.modLp p fun x => { x with ctlIn := rest }) else none
  | [] => none

/-- This end collides with the partner's request and is the one that proceeds (R361). -/
def Dev.proceeds (d : Dev) (m : LeyCtl) : Bool :=
  decide (d.sdist < m.sdist) || (d.sdist == m.sdist && decide (d.role < m.sdev))

/-- It gives its own request up (R361). -/
def Dev.abandon (d : Dev) (p : Nat) : Dev :=
  (d.modLp p fun x => { x with again := x.want, want := none, mine := false, phase := .none }).setFlag (.leyErr p)
    F.leyErr_ABANDONED true

/-- The PHYs re-equalize (Table 13.9 step 3): `pass` are the lanes that pass at the current rate, `lower` those that pass one
step lower. Where none passes, the step does not end. -/
def Dev.reequalize (d : Dev) (p pass lower : Nat) : Dev :=
  let old := d.fld (.leyStat p) F.leyStat_LANES
  let rate := min (d.fld (.leyStat p) F.leyStat_RATE) (min 2 (d.fld (.leyCtrl p) F.leyCtrl_MAXRATE))
  let pick : Option (Nat × Nat) := match widestSet (old &&& pass) with
    | some s => some (s, rate)
    | none => if rate = 0 then none else (widestSet (old &&& lower)).map fun s => (s, rate - 1)
  match pick with
  | none => d.modLp p fun x => { x with phase := .lanes }
  | some (s, r) =>
    let d := ((d.setFld (.leyStat p) F.leyStat_LANES s).setFld (.leyStat p) F.leyStat_WIDTH (widthOf s)).setFld (.leyStat p)
      F.leyStat_RATE r
    let d := d.modLp p fun x => { x with phase := .ident, trained := x.trained - (x.trained &&& (old - (old &&& s))) }
    let d := if widthOf old < widthOf s then
        d.raise (vendorRec 0x0704 .warning (0x900 + p) (p + s * 2 ^ 8 + widthOf s * 2 ^ 16)) else d
    d.sendCtl p { ctl := 7, slot0 := Config.serial.toNat + d.role * 2 ^ 64 + d.sdist * 2 ^ 68 }

/-- RTRQ (Table 13.9 step 2, R361). -/
def Dev.rtrq (d : Dev) (p pass lower : Nat) : Dev :=
  match d.takeCtl p 1 with
  | none => d
  | some (m, d) =>
    if !d.leyUp p then d
    else
      let x := d.lp p
      let asked := x.mine && x.phase == .asked
      let d := if asked then d.count .collision p else d
      if asked && d.proceeds m then d
      else
        let d := if asked then d.abandon p else d
        let fresh := asked || d.leyState p != 5
        let now := d.nowNs
        let d := (d.setLeyState p 5).modLp p fun x =>
          { x with want := some (.retrain 5), mine := false, phase := .lanes,
                   tries := if fresh then 1 else x.tries + 1, t0 := if fresh then now else x.t0 }
        (d.sendCtl p { ctl := 2 }).reequalize p pass lower

/-- RTACK (Table 13.9 step 3). -/
def Dev.rtack (d : Dev) (p pass lower : Nat) : Dev :=
  match d.takeCtl p 2 with
  | none => d
  | some (_, d) =>
    let x := d.lp p
    if d.leyState p = 5 ∧ x.mine ∧ x.phase = .asked then d.reequalize p pass lower else d

/-- RSRQ (R360, R361). -/
def Dev.rsrq (d : Dev) (p : Nat) : Dev :=
  match d.takeCtl p 3 with
  | none => d
  | some (m, d) =>
    let x := d.lp p
    let asked := x.mine && x.phase == .asked
    let d := if asked then d.count .collision p else d
    if asked && d.proceeds m then d
    else if asked || d.leyState p == 4 then
      let d := if asked then d.abandon p else d
      let now := d.nowNs
      let d := (d.setLeyState p 6).modLp p fun x =>
        { x with want := some (.resize (min 2 m.arg)), mine := false, phase := .lanes, tries := 1, t0 := now }
      d.sendCtl p { ctl := 4 }
    else d

/-- RSACK (R360). -/
def Dev.rsack (d : Dev) (p : Nat) : Dev :=
  match d.takeCtl p 4 with
  | none => d
  | some (_, d) =>
    let x := d.lp p
    match x.want with
    | some (.resize _) =>
      if x.mine ∧ x.phase = .asked ∧ d.leyState p = 4 then (d.setLeyState p 6).modLp p fun x => { x with phase := .lanes }
      else d
    | _ => d

/-- RESIZE_COMPLETE (R360): credits, SEQ and the replay buffer stay. -/
def Dev.resizeComplete (d : Dev) (p : Nat) : Dev :=
  let x := d.lp p
  match x.want with
  | some (.resize w) =>
    if d.leyState p = 6 then
      let s := (setOfWidth w x.trained).getD (d.fld (.leyStat p) F.leyStat_LANES)
      let d := ((d.setFld (.leyStat p) F.leyStat_LANES s).setFld (.leyStat p) F.leyStat_WIDTH (widthOf s)).setLeyState p 4
      let d := (d.leyLast p 7).setFlag (.leyErr p) F.leyErr_RESIZE true
      (d.modLp p fun x => { x with want := none, mine := false, phase := .none }).issueAgain p false
    else d
  | _ => d

/-- RESIZE_TIMEOUT (R360). -/
def Dev.resizeTimeout (d : Dev) (p : Nat) : Dev := if d.leyState p = 6 then d.beginRetrain p 6 else d

/-! ### Link down (R362, R363) -/

/-- The port enters DOWN: its transmit side and replay buffer are dropped; the event that carries the cause to the core is
offered. What it has received stays for the core. -/
def Dev.linkDown (d : Dev) (p cause : Nat) : Dev :=
  let d := ((d.setLeyState p 7).setFld (.leyStat p) F.leyStat_WIDTH 3).setFld (.leyStat p) F.leyStat_LANES 0
  (d.modLp p fun x =>
    { ({} : LeyPort) with rxq := x.rxq, era := x.era + 1, nextCtl := x.nextCtl, down := some cause }).offerEvent (.leyEvt p) 0

/-- RETRAIN_STEP_TIMEOUT (R357): the attempt fails; after RT_TRIES of them the link goes down. -/
def Dev.stepTimeout (d : Dev) (p : Nat) : Dev :=
  if d.leyState p = 5 then
    let x := d.lp p
    if max 1 (d.fld (.leyCtrl p) F.leyCtrl_RT_TRIES) ≤ x.tries then d.linkDown p 0
    else
      let cause := match x.want with | some (.retrain c) => c | _ => 5
      (d.modLp p fun x =>
        { x with want := some (.retrain cause), mine := true, phase := .asked, tries := x.tries + 1 }).sendCtl p { ctl := 1 }
  else d

/-- DOWN (R362). -/
def Dev.downMsg (d : Dev) (p : Nat) : Dev :=
  match d.takeCtl p 6 with
  | none => d
  | some (_, d) => if 3 ≤ d.leyState p ∧ d.leyState p ≤ 6 then d.linkDown p 1 else d

/-- LEY_DOWN_EXPIRY (R340): back to DETECT, or OFF where EN is clear. -/
def Dev.downExpiry (d : Dev) (p : Nat) : Dev :=
  if d.leyState p = 7 then d.setLeyState p (if d.flag (.leyCtrl p) F.leyCtrl_EN then 1 else 0) else d

/-! ### From OFF to CONFIG (R339, R340) -/

/-- Setting EN. -/
def Dev.leyEnable (d : Dev) (p : Nat) : Dev := if d.leyState p = 0 then d.setLeyState p 1 else d

/-- A partner appears on the lanes. -/
def Dev.partnerDetect (d : Dev) (p : Nat) : Dev := if d.leyState p = 1 then d.setLeyState p 2 else d

/-- LEY_TRAIN_COMPLETE: `rate` is the highest rate that the partner offers, `lanes` those that pass training. The port enters
CONFIG: SEQ and expected SEQ 0, IDENT sent. Where no lane set passes it stays in TRAIN. -/
def Dev.trainComplete (d : Dev) (p rate lanes : Nat) : Dev :=
  if d.leyState p = 2 then
    match widestSet lanes with
    | none => d
    | some s =>
      let r := min (min 2 rate) (min 2 (d.fld (.leyCtrl p) F.leyCtrl_MAXRATE))
      let d := (((d.setLeyState p 3).setFld (.leyStat p) F.leyStat_RATE r).setFld (.leyStat p) F.leyStat_WIDTH
        (widthOf s)).setFld (.leyStat p) F.leyStat_LANES s
      let d := d.modLp p fun x =>
        { ({} : LeyPort) with rxq := x.rxq, era := x.era, nextCtl := x.nextCtl, down := x.down, trained := s, phase := .ident }
      d.sendCtl p { ctl := 7, slot0 := Config.serial.toNat + d.role * 2 ^ 64 + d.sdist * 2 ^ 68 }
  else d

/-! ### RESYNC (R353, R358) -/

/-- Slot 0 of RESYNC (Table 13.5), and the pending returns cleared. -/
def Dev.sendResync (d : Dev) (p : Nat) : Dev :=
  let x := d.lp p
  let free (v : Nat) : Nat :=
    let (h, y) := occupied x.rxq x.rxPart v
    ((leyTotal v).1 - h + ((leyTotal v).2 - y) * 2 ^ 9) * 2 ^ (18 * v)
  let last := (x.expect + 1023) % 1024
  let slot := free 0 + free 1 + free 2 + free 3 + last * 2 ^ 72 + b2n x.gotAny * 2 ^ 82
  (d.modLp p fun x => { x with pend := [(0, 0), (0, 0), (0, 0), (0, 0)], phase := .resync }).sendCtl p
    { ctl := 5, slot0 := slot }

/-- Releases the buffered flits up to an SEQ. -/
def releaseTo (l : List LeyBuf) (seq : Nat) : List LeyBuf :=
  if l.any (·.seq == seq) then (l.dropWhile (·.seq != seq)).drop 1 else l

/-- The partner's RESYNC sets the windows, releases buffered flits, and has the rest replayed. -/
def Dev.applyResync (d : Dev) (p slot : Nat) : Dev :=
  let d := (List.range 4).foldl (fun d v =>
    let w := slot >>> (18 * v)
    ((d.setFld (.leyCred p v) F.leyCred_HWIN (w % 512)).setFld (.leyCred p v) F.leyCred_DWIN (w / 512 % 512)).credClr p v) d
  d.modLp p fun x =>
    let l := if slot.testBit 82 then releaseTo x.replay (bitsOf slot 81 72) else x.replay
    let l := l.map fun b => { b with owe := true }
    { x with replay := l, cursor := l.head?.map (·.seq), resent := 0, nakDue := false, nakSent := false, phase := .none,
             want := none, mine := false }

/-! ### Receiving (R346, R347, R355) -/

/-- A NAK is to be sent, unless one is already out (R347). -/
def LeyPort.nak (x : LeyPort) : LeyPort := if x.nakSent then x else { x with nakDue := true }

/-- The oldest flit has been resent REPLAY_NUM times without being acknowledged (R348). -/
def Dev.replayLimit (d : Dev) (p : Nat) : Bool :=
  decide (max 1 (d.fld (.leyCtrl p) F.leyCtrl_REPLAY_NUM) ≤ (d.lp p).resent)

/-- A replay from an SEQ; at the limit, a retrain instead (R348). -/
def Dev.replayFrom (d : Dev) (p seq : Nat) : Dev :=
  if (d.lp p).replay.any (·.seq == seq) then
    if d.replayLimit p && ((d.lp p).replay.head?.map (·.seq) == some seq) then d.leyRetrain p 1
    else (d.count .replay p).modLp p fun x => { x with cursor := some seq }
  else d

/-- ACKSEQ, CREDIT and NAK of a header (R346). -/
def Dev.applyHeader (d : Dev) (p h : Nat) : Dev :=
  let ack := bitsOf h 19 10
  let d := if h.testBit 20 then d.modLp p fun x =>
      let l := releaseTo x.replay ack
      { x with replay := l, resent := if l.length < x.replay.length then 0 else x.resent,
               cursor := match x.cursor with
                 | some s => if l.any (·.seq == s) then some s else if l.length < x.replay.length then l.head?.map (·.seq) else some s
                 | none => none }
    else d
  let d := (List.range 4).foldl (fun d v =>
    let c := h >>> (32 + 12 * v)
    d.setCred p v (satTo 9 (d.hwin p v + c % 32)) (satTo 9 (d.dwin p v + c / 32 % 128))) d
  if h.testBit 21 then d.replayFrom p ((ack + 1) % 1024) else d

/-- A payload flit (R346, R355). -/
def Dev.payloadFlit (d : Dev) (p h : Nat) (slots : List Nat) : Dev :=
  let x := d.lp p
  let seq := bitsOf h 9 0
  if seq = x.expect then
    let (es, part) := parseSlots 16 (x.rxPart ++ slots)
    let (good, odd) := es.partition LeyEnt.known
    let q := x.rxq ++ good.map fun e => (x.era, e)
    match overrunVc q part with
    | some v =>
      let d := (d.modLp p LeyPort.nak).setFlag (.leyErr p) F.leyErr_OVERRUN true
      (d.raise (vendorRec 0x0703 .warning (0x900 + p) (p + v * 2 ^ 2))).leyRetrain p 2
    | none =>
      let d := good.foldl (fun d e => d.count .vcEntry p (4 + e.vc)) d
      d.modLp p fun x =>
        odd.foldl (fun x e => x.giveBack e.vc e.dlen)
          { x with rxq := q, rxPart := part, expect := (x.expect + 1) % 1024, gotAny := true, nakSent := false }
  else if (x.expect + 1024 - seq) % 1024 ≤ 512 then (d.count .duplicate p).setFlag (.leyErr p) F.leyErr_DUP true
  else d.modLp p LeyPort.nak

/-- LEY_FLIT_RECEIVE (R344 to R347). -/
def Dev.flitReceive (d : Dev) (p : Nat) (flit : BitVec 2048) : Dev :=
  if d.leyState p < 3 ∨ d.leyState p = 7 then d
  else match leyDecode (toBytes 256 flit.toNat) with
    | none => ((d.count .flitDiscarded p).setFlag (.leyErr p) F.leyErr_CRC true).modLp p LeyPort.nak
    | some (bs, fixed) =>
      let d := if fixed then (d.count .flitCorrected p).setFlag (.leyErr p) F.leyErr_FEC_CORR true else d
      let h := ofBytes (bs.take 16)
      let d := d.count .flitReceived p (bitsOf h 23 22)
      let slots := (List.range (min 14 (bitsOf h 27 24))).map fun k => ofBytes ((bs.drop (16 + 16 * k)).take 16)
      let d := d.applyHeader p h
      match bitsOf h 23 22 with
      | 0 => d.payloadFlit p h slots
      | 2 =>
        let id := bitsOf h 103 96
        if (d.lp p).ctlId = some id then d
        else
          let m : LeyCtl := { ctl := bitsOf h 91 88, arg := bitsOf h 95 92, slot0 := ofBytes ((bs.drop 16).take 16),
                              sdev := bitsOf h 82 80, sdist := bitsOf h 84 83 }
          d.modLp p fun x => { x with ctlIn := x.ctlIn ++ [m], ctlId := some id }
      | _ => d

/-! ### Transmitting (R342, R348, R349, R351, R353) -/

/-- A flit on the wire: header fields filled at this transmission, pending returns taken. -/
def Dev.putFlit (d : Dev) (p ftype seq : Nat) (slots : List Nat) (m : LeyCtl) (ctlid : Nat) : Dev :=
  let x := d.lp p
  let cred := (List.range 4).map fun v =>
    let (h, y) := x.pend.getD v (0, 0)
    (min 31 h, min 127 y)
  let credit := (List.range 4).foldl (fun n v =>
    let (h, y) := cred.getD v (0, 0)
    n + (h + y * 32) * 2 ^ (32 + 12 * v)) 0
  let header := seq + (x.expect + 1023) % 1024 * 2 ^ 10 + b2n x.gotAny * 2 ^ 20 + b2n x.nakDue * 2 ^ 21 + ftype * 2 ^ 22 +
    slots.length * 2 ^ 24 + credit + d.role * 2 ^ 80 + d.sdist * 2 ^ 83 + m.ctl * 2 ^ 88 + m.arg * 2 ^ 92 + ctlid * 2 ^ 96
  let pay := slots ++ List.replicate (14 - slots.length) 0
  let bytes := leySeal (toBytes 16 header ++ pay.flatMap (toBytes 16))
  let d := (if x.nakDue then (d.count .nak p).setFlag (.leyErr p) F.leyErr_NAK_SENT true else d).count .flitSent p ftype
  let d := d.modLp p fun x =>
    { x with pend := List.zipWith (fun a b => (a.1 - b.1, a.2 - b.2)) x.pend cred, nakSent := x.nakSent || x.nakDue,
             nakDue := false }
  d.emit (.leyFlit p (BitVec.ofNat 2048 (ofBytes bytes)))

/-- The order of R351 among waiting entries. -/
def txOrder (q : List LeyEnt) : List LeyEnt :=
  q.filter (·.vc == 2) ++ q.filter (·.vc == 3) ++ q.filter fun e => decide (e.vc < 2)

/-- What packing has put together: slots, entries taken with the credits they need, lines held back, windows. -/
structure Packing where
  slots : List Nat
  taken : List LeyEnt := []
  held : List (Nat × Nat × Nat) := []
  wins : List (Nat × Nat)

/-- A FOLDNOTE of a link going down waits until the responses of that link have been sent (R382). -/
def LeyEnt.noteWaits (e : LeyEnt) (q : List LeyEnt) : Bool :=
  e.vc == 3 && e.op == 0x26 && !e.la.testBit 8 && q.any fun r => r.vc == 2 && r.via == e.via

/-- Packs one entry if there is a slot left, its line is not held back and its credits are there. -/
def Packing.add (q : List LeyEnt) (a : Packing) (e : LeyEnt) : Packing :=
  let (h, y) := a.wins.getD e.vc (0, 0)
  let key := (e.dev, e.chan, e.la)
  let line := decide (e.vc < 2)
  if 14 ≤ a.slots.length then a
  else if (line && a.held.contains key) || e.noteWaits (q.filter fun x => !a.taken.contains x) then a
  else if 0 < h ∧ e.dlen ≤ y then
    { a with slots := a.slots ++ e.slots, taken := a.taken ++ [e], wins := a.wins.set e.vc (h - 1, y - e.dlen) }
  else if line then { a with held := key :: a.held } else a

def eraseAll (q : List LeyEnt) (es : List LeyEnt) : List LeyEnt := es.foldl (fun q e => q.erase e) q

/-- Packs the next payload flit (R349), when there is one, from the entries that hold a slot of the transmit queue (R46). -/
def Dev.packFlit (d : Dev) (p : Nat) : Option Dev :=
  let x := d.lp p
  let a := (txOrder (x.txq.take (XId.leyTx p).slots)).foldl (Packing.add x.txq)
    { slots := x.part, wins := (List.range 4).map fun v => (d.hwin p v, d.dwin p v) }
  let slots := a.slots.take 14
  if slots.isEmpty then none
  else
    let d := a.taken.foldl (fun d e => (d.setCred p e.vc (d.hwin p e.vc - 1) (d.dwin p e.vc - e.dlen)).count .vcEntry p e.vc) d
    let b : LeyBuf := { seq := x.seq, slots := slots, took := a.taken.map fun e => (e.vc, e.dlen) }
    let d := d.putFlit p 0 x.seq slots { ctl := 0 } 0
    some (d.modLp p fun y =>
      { y with txq := eraseAll y.txq a.taken, part := a.slots.drop 14, replay := y.replay ++ [b], seq := (y.seq + 1) % 1024 })

/-- The flit that follows a buffered one in a replay. -/
def nextReplay (l : List LeyBuf) (seq : Nat) : Option Nat := ((l.dropWhile (·.seq != seq)).drop 1).head?.map (·.seq)

/-- Resends a buffered flit (R347, R348); after a RESYNC it takes its credits again (R358). -/
def Dev.replayFlit (d : Dev) (p : Nat) (b : LeyBuf) : Dev :=
  let d := if b.owe then b.took.foldl (fun d t => d.setCred p t.1 (d.hwin p t.1 - 1) (d.dwin p t.1 - t.2)) d else d
  let d := d.putFlit p 0 b.seq b.slots { ctl := 0 } 0
  d.modLp p fun x =>
    { x with cursor := nextReplay x.replay b.seq,
             resent := if x.replay.head?.map (·.seq) == some b.seq && !b.owe then x.resent + 1 else x.resent,
             replay := x.replay.map fun y => if y.seq = b.seq then { y with owe := false } else y }

/-- A data-less flit: a control message's copy, or idle. -/
def Dev.ctlFlit (d : Dev) (p : Nat) : Dev :=
  match (d.lp p).ctlOut with
  | (m, id, n) :: rest =>
    let slots := if m.ctl = 5 ∨ m.ctl = 7 then [m.slot0] else []
    let d := d.putFlit p 2 (d.lp p).seq slots m id
    d.modLp p fun x => { x with ctlOut := if n ≤ 1 then rest else (m, id, n - 1) :: rest }
  | [] => if d.leyState p = 6 then d else d.putFlit p 1 (d.lp p).seq [] { ctl := 0 } 0

/-- LEY_FLIT_TRANSMIT (R345, R348, R349): control messages first, then a replay, then new payload, else an idle flit. -/
def Dev.flitTransmit (d : Dev) (p : Nat) : Dev :=
  let x := d.lp p
  if d.leyState p < 3 ∨ d.leyState p = 7 then d
  else if !x.ctlOut.isEmpty ∨ d.leyState p ≠ 4 then d.ctlFlit p
  else match x.cursor.bind fun s => x.replay.find? (·.seq == s) with
    | some b => d.replayFlit p b
    | none =>
      if 512 ≤ x.replay.length then d.ctlFlit p
      else (d.packFlit p).getD (d.ctlFlit p)

/-- REPLAY_TIMEOUT (R348). -/
def Dev.replayTimeout (d : Dev) (p : Nat) : Dev :=
  match (d.lp p).replay with
  | [] => d
  | b :: _ =>
    if d.leyState p = 4 then (d.setFlag (.leyErr p) F.leyErr_REPLAY_TO true).replayFrom p b.seq else d

/-- SETTLED_WINDOW (R356): no entry of the VC has been sent for IDLE µs. -/
def Dev.settledWindow (d : Dev) (p v : Nat) : Dev :=
  if d.leyState p = 4 ∧ d.winLow p v then d.leyRetrain p 3 else d

end Sys2Proof.Machine
end

