-- ==== Sys2Proof/Machine/Records.lean ====
section
/-! DEFINITION. An event record as its 128 bytes (R107, R376): the common event record fields of the standard, and the part of its
kind. The standard's own layouts and identifiers are those of CXL 3.1 (PRESUMED, log entry 13). -/

namespace Sys2Proof.Machine

/-- Record Identifiers: VENDOR_UUID of the Deck summary for a vendor record (R107), the standard's for its own kinds. -/
def RecKind.uuid : RecKind → Nat
  | .vendor => Config.vendorUuid.toNat
  | .generalMedia => 0xA6EB21168B08A9857F4160C2770ACDFB
  | .dram => 0x24965CFB9B4EAFB8AB4E069CB3CB1D60
  | .memoryModule => 0x74B713B1BA7986A5394359DD757492FE
  | .addCapacity | .releaseCapacity | .forcedRelease | .regionUpdated => 0x2A1A108E26952F8C184083F1A7AF95CA

/-- Severity bits of the common record flags. -/
def Sev.flags : Sev → Nat
  | .info | .dcd => 0 | .warning => 1 | .failure => 2 | .fatal => 3

/-- The common event record fields, bytes 0x00 to 0x2F: identifier, length, flags, handle, timestamp. -/
def Rec.header (r : Rec) : Nat :=
  r.kind.uuid % 2 ^ 128 + 0x80 * 2 ^ 128 + r.sev.flags * 2 ^ 136 + r.handle % 2 ^ 16 * 2 ^ 160 + r.time % 2 ^ 64 * 2 ^ 192

/-- The vendor-specific part of Table 4.16, bytes 0x30 to 0x7F, as a number. -/
def Rec.vendorPart (r : Rec) : Nat :=
  r.ty % 2 ^ 16 + r.head % 256 * 2 ^ 16 + r.ld % 256 * 2 ^ 24 + r.unit % 2 ^ 16 * 2 ^ 32 + satTo 16 r.suppressed * 2 ^ 48 +
    r.addr0 % 2 ^ 64 * 2 ^ 64 + r.addr1 % 2 ^ 64 * 2 ^ 128 + r.detail % 2 ^ 64 * 2 ^ 192

/-- Event type of a Dynamic Capacity record. -/
def RecKind.dcType : RecKind → Nat
  | .releaseCapacity => 1 | .forcedRelease => 2 | .regionUpdated => 3 | _ => 0

/-- Widths in bits, and bit offsets after byte 0x30, of the fields of a DRAM record in the order of `Rec.data`: descriptor, transaction
type, nibble mask, channel, rank, bank group, bank, row, column. -/
def dramFields : List (Nat × Nat) :=
  [(8, 64), (8, 80), (24, 120), (8, 104), (8, 112), (8, 144), (8, 152), (24, 160), (16, 184)]

/-- The part of a record's kind, bytes 0x30 to 0x7F, as a number. -/
def Rec.part (r : Rec) : Nat :=
  match r.kind with
  | .vendor => r.vendorPart
  | .generalMedia => r.addr0 % 2 ^ 64 + 1 * 2 ^ 64 + r.data.getD 0 0 % 256 * 2 ^ 80
  | .dram => r.addr0 % 2 ^ 64 + 0x7F * 2 ^ 88 +
      ((List.zip dramFields r.data).map fun p => p.2 % 2 ^ p.1.1 * 2 ^ p.1.2).sum
  | .memoryModule => 0
  | k => k.dcType + r.addr0 % 2 ^ 64 * 2 ^ 64 + r.addr1 % 2 ^ 64 * 2 ^ 128 + r.detail % 2 ^ 128 * 2 ^ 192

/-- The whole record, as a number of 128 bytes. -/
def Rec.bytes (r : Rec) : Nat := r.header + r.part * 2 ^ 384

/-- The kind that an identifier names; a vendor record where it names none of the standard's. -/
def kindOf (uuid dcType : Nat) : RecKind :=
  if uuid = RecKind.generalMedia.uuid then .generalMedia
  else if uuid = RecKind.dram.uuid then .dram
  else if uuid = RecKind.memoryModule.uuid then .memoryModule
  else if uuid = RecKind.addCapacity.uuid then
    (match dcType with | 0 => .addCapacity | 1 => .releaseCapacity | 2 => .forcedRelease | _ => .regionUpdated)
  else .vendor

/-- The record that 128 bytes hold. -/
def recordOf (v : Nat) : Rec :=
  let b := v / 2 ^ 384
  let kind := kindOf (v % 2 ^ 128) (b % 256)
  let sev := match bitsOf v 137 136 with
    | 0 => Sev.info | 1 => .warning | 2 => .failure | _ => .fatal
  let r : Rec := { kind := kind, ty := 0, sev := sev, handle := bitsOf v 175 160, time := bitsOf v 255 192 }
  match kind with
  | .vendor => { r with ty := bitsOf b 15 0, head := bitsOf b 23 16, ld := bitsOf b 31 24, unit := bitsOf b 47 32,
                        suppressed := bitsOf b 63 48, addr0 := bitsOf b 127 64, addr1 := bitsOf b 191 128,
                        detail := bitsOf b 255 192 }
  | .generalMedia => { r with addr0 := bitsOf b 63 0, data := [bitsOf b 87 80] }
  | .dram => { r with addr0 := bitsOf b 63 0, unit := 0x800 + bitsOf b 111 104,
                      data := dramFields.map fun f => bitsOf b (f.2 + f.1 - 1) f.2 }
  | .memoryModule => r
  | _ => { r with sev := .dcd, addr0 := bitsOf b 127 64, addr1 := bitsOf b 191 128, detail := bitsOf b 319 192 }

end Sys2Proof.Machine
end

