-- ==== Sys2Proof/Machine/CascadeOps.lean ====
section
/-! DEFINITION. The cascade (chapter 14): distance and upstream port, entries on a member and their forwarding, joining,
folds, reopening, management traffic; what a Ley port's coming up and going down means for the core. -/

namespace Sys2Proof.Machine

/-! ### Roles and topology (R370, R371) -/

/-- Distance and upstream port are evaluated anew (R370). -/
def Dev.reDistance (d : Dev) : Dev :=
  if d.role = 0 then d
  else
    let ps := (List.range 4).filter fun p => d.leyUp p && decide (d.leyPdist p < 2)
    match (ps.filter fun p => d.leyPdist p == 0) ++ ps with
    | [] => (d.setFld .casId F.casId_DIST 3).setFld .casId F.casId_UPPORT 0
    | p :: _ => (d.setFld .casId F.casId_DIST (1 + d.leyPdist p)).setFld .casId F.casId_UPPORT p

/-- A member's upstream port. -/
def Dev.upstream (d : Dev) : Option Nat :=
  if d.role = 0 ∨ d.fld .casId F.casId_DIST = 3 then none else some (d.fld .casId F.casId_UPPORT)

/-- The port is a downstream port of a member at distance 1 (R371). -/
def Dev.isDown (d : Dev) (p : Nat) : Bool :=
  d.fld .casId F.casId_DIST == 1 && d.upstream != some p && d.leyPdist p == 2

/-- The downstream port toward a member. -/
def Dev.downTo (d : Dev) (dev : Nat) : Option Nat :=
  (List.range 4).find? fun p => d.isDown p && d.leyUp p && d.leyPdev p == dev

/-! ### The dealer's view of a member -/

def Dev.mem (d : Dev) (m : Nat) : MemView := d.cas.mem.getD m {}
def Dev.modMem (d : Dev) (m : Nat) (f : MemView → MemView) : Dev :=
  { d with cas := { d.cas with mem := d.cas.mem.modify m f } }
def Dev.setMemState (d : Dev) (m s : Nat) : Dev := d.setFld (.casMember m) F.casMember_STATE s

/-- The topology-error record (Table 14.12). -/
def Dev.topologyRecord (d : Dev) (m cause p : Nat) : Dev :=
  d.raise (vendorRec 0x0744 .failure (0xA00 + m) (m + cause * 2 ^ 4 + p * 2 ^ 8))

/-- Sends an MGT request to a member on the dealer port that reaches it. -/
def Dev.sendMgt (d : Dev) (p m op arg value : Nat) : Dev :=
  d.pushTx p { vc := 3, op := op, dev := m, la := arg, md := value }

/-- A member is lost (R385). -/
def Dev.memberLost (d : Dev) (m cause : Nat) : Dev :=
  ((d.setMemState m 4).modMem m fun v => { v with step := .none, asked := false }).raise
    (vendorRec 0x0743 .failure (0xA00 + m) (m + cause * 2 ^ 4))

/-- Step 2 of Table 14.5: REOPEN goes out when AUTO_REOPEN is set or software has asked. -/
def Dev.tryReopen (d : Dev) (m : Nat) : Dev :=
  if d.memState m = 3 ∧ (d.mem m).step = .waiting ∧ (d.flag .casCtrl F.casCtrl_AUTO_REOPEN ∨ (d.mem m).asked) then
    (d.modMem m fun v => { v with step := .reopening, asked := false }).sendMgt (d.mem m).port m 0x27 0
      (d.fld (.casMember m) F.casMember_SESSION)
  else d

/-- The dealer reaches a member: it joins it, or begins to reopen it (R373, R384). A folded member behind another waits until
that one is open. -/
def Dev.memberReached (d : Dev) (m : Nat) : Dev :=
  let v := d.mem m
  if !v.up then d
  else match d.memState m with
    | 0 =>
      if d.flag .casFoldmap F.casFoldmap_V ∧ v.step = .none then
        let s := Config.session d.cas.sessions % (2 ^ 32 - 1) + 1
        let d := { d with cas := { d.cas with sessions := d.cas.sessions + 1 } }
        (d.modMem m fun v => { v with step := .joining s }).sendMgt v.port m 0x20 0 s
      else d
    | 2 =>
      if v.dist = 2 ∧ d.memState v.via ≠ 1 then d
      else ((d.setMemState m 3).modMem m fun v => { v with step := .waiting }).tryReopen m
    | _ => d

/-- Members reached through a member, in ascending DEV. -/
def Dev.behind (d : Dev) (m : Nat) : List Nat :=
  (List.range 8).filter fun k => decide (1 ≤ k) && (d.mem k).via == m && (d.mem k).dist == 2 && (d.mem k).up

/-- IDENT of a partner, checked for topology at the dealer (R371): a second dealer, or the DEV of a member already joined. -/
def Dev.identTopology (d : Dev) (p dev : Nat) : Dev :=
  if d.role ≠ 0 then d
  else if dev = 0 then d.topologyRecord 0 2 p
  else if d.memState dev = 1 ∨ d.memState dev = 3 then d.topologyRecord dev 0 p
  else d

/-- A port reaches ACTIVE from CONFIG (R370, R373, Table 14.5 step 1). -/
def Dev.portActive (d : Dev) (p serial : Nat) : Dev :=
  if d.role ≠ 0 then
    let d := d.reDistance
    -- FOLDNOTE for a downstream link that is back (R382)
    match d.upstream with
    | some u =>
      if d.isDown p ∧ d.cas.takes then
        d.pushTx u { vc := 3, op := 0x26, dev := d.role, la := d.leyPdev p + 2 ^ 8, via := p + 1 }
      else d
    | none => d
  else
    let m := d.leyPdev p
    if m = 0 then d
    else match d.memState m with
      | 0 => (d.modMem m fun v => { v with port := p, dist := 1, up := true, via := 0, step := .none }).memberReached m
      | 2 =>
        let d := d.modMem m fun v => { v with port := p, dist := 1, up := true, via := 0 }
        if d.fld (.casMser m) F.casMser_SERIAL = serial then d.memberReached m else d.memberLost m 0
      | _ => d

/-! ### IDENT, RESYNC, link down -/

/-- IDENT (Table 13.9 step 4, R370, R371). -/
def Dev.identMsg (d : Dev) (p : Nat) : Dev :=
  match d.takeCtl p 7 with
  | none => d
  | some (m, d) =>
    if (d.lp p).phase ≠ .ident then d
    else
      let serial := bitsOf m.slot0 63 0
      let dev := bitsOf m.slot0 66 64
      let dist := bitsOf m.slot0 69 68
      let seen (d : Dev) : Dev := (d.setFld (.leyStat p) F.leyStat_PDEV dev).setFld (.leyStat p) F.leyStat_PDIST dist
      if d.leyState p = 3 then
        (((seen d).modLp p fun x => { x with ident := some (serial, dev) }).identTopology p dev).sendResync p
      else if (d.lp p).ident = some (serial, dev) then (seen d).reDistance.sendResync p
      else d.linkDown p 3

/-- RESYNC (Table 13.9 steps 5 and 6, R353, R358): the port is ACTIVE; the end of a retrain is an event for the core (Table 2.7). -/
def Dev.resyncMsg (d : Dev) (p : Nat) : Dev :=
  match d.takeCtl p 5 with
  | none => d
  | some (m, d) =>
    let x := d.lp p
    if x.phase ≠ .resync then d
    else
      let st := d.leyState p
      let d := (d.applyResync p m.slot0).setLeyState p 4
      if st = 3 then
        let d := d.raise (vendorRec 0x0701 .info (0x900 + p) (p + d.fld (.leyStat p) F.leyStat_RATE * 2 ^ 2 +
          d.fld (.leyStat p) F.leyStat_WIDTH * 2 ^ 4 + d.leyPdev p * 2 ^ 8 + d.leyPdist p * 2 ^ 12))
        d.portActive p ((x.ident.map (·.1)).getD 0)
      else
        let cause := match x.want with | some (.retrain c) => c | _ => 5
        let d := (d.leyLast p cause).setFlag (.leyErr p) F.leyErr_RETRAIN true
        let d := d.raiseLimited p (vendorRec 0x0702 .info (0x900 + p) (p + cause * 2 ^ 4 +
          min 15 (d.lp p).tries * 2 ^ 8 + satTo 32 (d.nowNs - x.t0) * 2 ^ 32))
        (d.reDistance.issueAgain p true).offerEvent (.leyEvt p) 1

/-- LEY_DISABLE (R362): DOWN goes out in four flits, then the link is down. -/
def Dev.leyDisable (d : Dev) (p : Nat) : Dev :=
  if 3 ≤ d.leyState p ∧ d.leyState p ≤ 6 then
    let d := (d.modLp p fun x => { x with ctlOut := [] }).sendCtl p { ctl := 6 }
    let d := (((d.ctlFlit p).ctlFlit p).ctlFlit p).ctlFlit p
    d.linkDown p 2
  else if d.leyState p = 7 then d else d.setLeyState p 0

/-! ### Entries on the dealer (R351, R372) -/

/-- The smallest transaction tag not in use. -/
def freeTag (used : List Nat) : Nat → Nat → Option Nat
  | 0, _ => none
  | n + 1, k => if used.contains k then freeTag used n (k + 1) else some k

/-- The oldest entry for an open member that has not been routed goes to its port, when the port's transmit crossing has a slot. -/
def Dev.leyRoute (d : Dev) : Option Dev :=
  match d.cas.reqs.find? fun r => r.tag.isNone with
  | none => none
  | some r =>
    let used := d.cas.reqs.filterMap (·.tag)
    if !d.txRoom (d.memPort r.dev) then none else
    (freeTag used 16384 0).map fun t =>
      let tagged := d.cas.reqs.map fun (y : MemReq) => if y.id = r.id then { y with tag := some t } else y
      let d := { d with cas := { d.cas with reqs := tagged } }
      d.pushTx (d.memPort r.dev) (if r.write then
        { vc := 1, op := 8, dev := r.dev, chan := r.chan, dlen := 1, tag := t, la := r.ca / 64, md := r.data.md.toNat,
          data := [r.data.data] }
      else { vc := 0, op := 1, dev := r.dev, chan := r.chan, tag := t, la := r.ca / 64 })

def Dev.dropReq (d : Dev) (id : Nat) : Dev :=
  { d with cas := { d.cas with reqs := d.cas.reqs.filter (·.id != id) } }

/-- The request that a response names. -/
def Dev.reqOf (d : Dev) (e : LeyEnt) (write : Bool) : Option MemReq :=
  d.cas.reqs.find? fun r => r.tag == some e.tag && r.dev == e.dev && r.write == write

/-- The General Media Event Record of R287 for a member read that is uncorrectable (R376), limited per channel of a member. -/
def Dev.memberUe (d : Dev) (r : MemReq) : Dev :=
  let withDpa := match r.src with | .host | .hostMerge => true | .internal => decide (r.ld < 16) | _ => false
  let key := 0x20000 * 2 ^ 64 + r.dev * 24 + r.chan
  let quiet := match kvFind? d.logs.last key with
    | some (t, _) => decide (d.clk < t + 800000)
    | none => false
  if !withDpa || quiet then d
  else ({ d with logs := { d.logs with last := kvIns d.logs.last key (d.clk, 0) } }).raise
    { kind := .generalMedia, ty := 0, sev := .failure, ld := r.ld, unit := 0x800 + 24 * r.dev + r.chan, addr0 := r.dpa,
      data := [r.src.txType] }

/-- Ends the access of a read that OUT 3 answered, as a map fault does (R73, Table 13.7). -/
def Dev.notServed (d : Dev) (r : MemReq) : Dev :=
  let d := d.mapFaultRecord r.sa r.dpa r.ld
  match r.use with
  | .acc id => match d.cip.accs.find? fun a => a.id == id with
    | some a => d.endAcc a (if a.kind = .read then .line 0 true false true else .accepted)
    | none => d
  | _ => d

/-- RDATA reaches the dealer. -/
def Dev.rdataHome (d : Dev) (e : LeyEnt) : Dev :=
  match d.reqOf e false with
  | none => d
  | some r =>
    let d := d.dropReq r.id
    let p : Payload := { data := e.data.getD 0 0, md := BitVec.ofNat 32 e.md }
    let back (d : Dev) (o : CwOut) : Dev := match r.use with | .acc id => d.readBack id o | _ => d
    match e.out with
    | 0 => back d (.clean p)
    | 1 => back d (.corrected p e.cdev)
    | 2 => back (d.memberUe r) (.uncorrectable p)
    | _ => d.notServed r

/-- A channel address of a member lies beyond the usable capacity that its JOINRSP gave (Table 14.2). -/
def Dev.beyondMember (d : Dev) (r : MemReq) : Bool :=
  decide ((kvGet (fun _ => (0, 0)) d.cas.chans (r.dev * 24 + r.chan)).2 * 2 ^ 30 ≤ r.ca)

/-- WACC reaches the dealer: the write is complete (R351), and lies on the member. One to a channel address beyond the member's valid ranks
was discarded there: a map fault, which the dealer records, since it alone knows SA and DPA (R73, log entry 117). -/
def Dev.waccHome (d : Dev) (e : LeyEnt) : Dev :=
  match d.reqOf e true with
  | none => d
  | some r =>
    let d := if d.beyondMember r then (d.dropReq r.id).mapFaultRecord r.sa r.dpa r.ld
      else (d.dropReq r.id).physWrite (memberKey r.dev r.chan r.ca) (encode r.data)
    match r.use with | .acc id => d.writeBack id | _ => d

/-- Takes every RSP entry of a port up to an entry (all of them when there is none). -/
def Dev.drainRsp (d : Dev) (p : Nat) (upTo : Option (Nat × LeyEnt)) : Dev :=
  let q := (d.lp p).rxq
  let q := match upTo with | some e => q.takeWhile fun y => decide (y ≠ e) | none => q
  (q.filter fun e => e.2.vc == 2).foldl (fun d e =>
    let d := d.popRx p e
    if e.2.op = 0x10 then d.rdataHome e.2 else d.waccHome e.2) d

/-! ### The fold (R362, R379, R381) -/

/-- Completes what is outstanding for a member: reads poisoned and writes completed, with their numbers. -/
def Dev.foldReqs (d : Dev) (m : Nat) : Dev × Nat × Nat :=
  let mine := d.cas.reqs.filter fun r => r.dev == m
  let reads := mine.filter fun r => !r.write
  let writes := mine.filter fun r => r.write
  let d := { d with cas := { d.cas with reqs := d.cas.reqs.filter fun r => r.dev != m } }
  let d := reads.foldl (fun d r => match r.use with
    | .acc id => d.modAcc id fun a => { a with got := some (.uncorrectable { data := 0, md := 0 }), folded := true }
    | _ => d) d
  let d := writes.foldl (fun d r =>
    let e : ChEnt := { write := true, ca := r.ca, data := r.data, use := r.use, sa := r.sa }
    let d := d.foldEnter r.sa m (d.isMapOrCtr e)
    match r.use with | .acc id => d.writeBack id | _ => d) d
  (d, reads.length, writes.length)

/-- A register access in flight to a member fails (R375). -/
def Dev.failMacc (d : Dev) (m : Nat) : Dev :=
  if d.flag .casMacc F.casMacc_DONE ∨ d.fld .casMacc F.casMacc_DEV ≠ m then d
  else ((d.setFlag .casMacc F.casMacc_DONE true).setFlag .casMacc F.casMacc_ERR true).wr .casMdata (2 ^ 32 - 1)

/-- Folds one member: its entries go, its state is folded unless it was never joined or is lost. -/
def Dev.foldMember (d : Dev) (m : Nat) : Dev × Nat × Nat :=
  let (d, n, k) := d.foldReqs m
  let d := d.failMacc m
  let p := (d.mem m).port
  let d := d.modLp p fun x => { x with txq := x.txq.filter fun e => e.dev != m }
  let d := if d.memState m = 1 ∨ d.memState m = 3 then d.setMemState m 2 else d
  (d.modMem m fun v => { v with up := false, step := .none }, n, k)

/-- Folds members on a dealer port and raises the one record of the fold (Table 13.19). -/
def Dev.foldAll (d : Dev) (p cause : Nat) (ms : List Nat) : Dev :=
  let (d, n, k) := ms.foldl (fun (a : Dev × Nat × Nat) m =>
    let (d, n, k) := a.1.foldMember m
    (d, a.2.1 + n, a.2.2 + k)) (d, 0, 0)
  (d.setFlag (.leyErr p) F.leyErr_FOLD true).raise
    (vendorRec 0x0705 .failure (0x900 + p) (p + cause * 2 ^ 4 + satTo 16 n * 2 ^ 16 + satTo 32 k * 2 ^ 32))

/-! ### Entries on a member (R351, R372, R383) -/

/-- An entry of REQ or WRD that a member takes: no older one of the other VC for the same destination waits (R351, R372). -/
def Dev.leyFirst (d : Dev) (p vc op : Nat) : Option (Nat × LeyEnt) :=
  match (d.lp p).front vc op with
  | none => none
  | some e =>
    let same (x : LeyEnt) : Bool := x.dev == e.2.dev && (e.2.dev != d.role || x.chan == e.2.chan)
    if ((d.lp p).rxq.takeWhile fun y => decide (y ≠ e)).any fun y => decide (y.2.vc < 2) && same y.2 then none else some e

/-- A member's answer to an entry of the dealer, unless the link has gone down since (R383). -/
def Dev.leyAnswer (d : Dev) (p era : Nat) (e : LeyEnt) : Dev :=
  if era = (d.lp p).era ∧ d.leyUp p then d.pushTx p { e with dev := d.role } else d

/-- What a channel returns for an entry of the dealer becomes RDATA or WACC. -/
def Dev.leyReturn (d : Dev) (c : Nat) : ChRet → Dev
  | .read (.ley p era tag la) o =>
    let x := o.payload
    let (out, cdev) : Nat × Nat := match o with
      | .clean _ => (0, 15) | .corrected _ v => (1, v) | .uncorrectable _ => (2, 15)
    d.leyAnswer p era { vc := 2, op := 0x10, chan := c, dlen := 1, tag := tag, la := la, md := x.md.toNat, out := out,
                        cdev := cdev, data := [x.data] }
  | .notServed (.ley p era tag la) =>
    d.leyAnswer p era { vc := 2, op := 0x10, chan := c, tag := tag, la := la, out := 3, cdev := 15 }
  | .accepted (.ley p era tag la) => d.leyAnswer p era { vc := 2, op := 0x11, chan := c, tag := tag, la := la }
  | _ => d

/-- Delivers an RD or WR to its channel or forwards it. -/
def Dev.leyDeliver (d : Dev) (p vc op : Nat) : Dev :=
  if d.role = 0 then d
  else match d.leyFirst p vc op with
    | none => d
    | some (era, e) =>
      let d := d.popRx p (era, e)
      if era = (d.lp p).era ∧ !d.cas.takes then d
      else if e.dev = d.role then
        let use := ChUse.ley p era e.tag e.la
        let x : ChEnt := { write := vc == 1, ca := e.la * 64, data := { data := e.data.getD 0 0, md := BitVec.ofNat 32 e.md },
                           use := use }
        let d := { d with cas := { d.cas with served := e.chan :: d.cas.served.filter (· != e.chan) } }
        if e.chan < 24 then d.sendCmd e.chan x
        else d.leyReturn e.chan (if vc = 1 then .accepted use else .notServed use)
      else match d.downTo e.dev with
        | some q =>
          let up := match d.upstream with | some u => if u = p then era else 0 | none => 0
          ({ d with cas := { d.cas with fwd := d.cas.fwd ++ [(e.dev, e.tag, up)] } }).pushTx q { e with via := p + 1 }
        | none => d

/-- The entry that a response answers on its way through this member. -/
def Dev.fwdOf (d : Dev) (e : LeyEnt) : Option (Nat × Nat × Nat) :=
  d.cas.fwd.find? fun y => y.1 == e.dev && y.2.1 == e.tag

/-- The upstream port that a response from below goes to, unless it answers an entry of an upstream session that has ended (R372, R383). -/
def Dev.rspWay (d : Dev) (e : LeyEnt) : Option Nat :=
  (d.fwdOf e).bind fun y => d.upstream.filter fun u => (d.lp u).era == y.2.2 && d.leyUp u

/-- A response from below goes upstream. -/
def Dev.forwardRsp (d : Dev) (p : Nat) (e : LeyEnt) : Dev :=
  let d' := match d.fwdOf e with
    | some y => { d with cas := { d.cas with fwd := d.cas.fwd.erase y } }
    | none => d
  match d.rspWay e with
  | some u => d'.pushTx u { e with via := p + 1 }
  | none => d'

/-- The crossing without a slot that holds an RD or WR in its receive queue: its channel's command crossing, or the transmit queue of the
port that forwards it (R46, R351, R372). -/
def Dev.reqStall (d : Dev) (e : LeyEnt) : Option XId :=
  if e.dev = d.role then (if d.cmdRoom e.chan then none else some (.chnCmd e.chan))
  else ((d.downTo e.dev).filter fun q => !d.txRoom q).map .leyTx

/-- RD or WR, which may have to wait. -/
def Dev.leyTake (d : Dev) (p vc op : Nat) : Dev :=
  match d.leyFirst p vc op with
  | some (_, e) => match d.reqStall e with
    | some x => d.overrun x
    | none => d.leyDeliver p vc op
  | none => d

/-- RDATA or WACC: at the dealer it reaches the home; a member forwards it upstream. -/
def Dev.leyRsp (d : Dev) (p op : Nat) : Dev :=
  match (d.lp p).front 2 op with
  | none => d
  | some e =>
    let d := d.popRx p e
    if d.role ≠ 0 then d.forwardRsp p e.2
    else if op = 0x10 then d.rdataHome e.2 else d.waccHome e.2

/-- The port whose transmit queue has no slot for the RDATA or WACC at the front (R46, R372). -/
def Dev.rspStall (d : Dev) (p op : Nat) : Option Nat :=
  if d.role = 0 then none
  else ((d.lp p).front 2 op).bind fun e => (d.rspWay e.2).filter fun u => !d.txRoom u

/-- RDATA or WACC, which may have to wait: its credits are freed when it enters the transmit queue (R372). -/
def Dev.rspTake (d : Dev) (p op : Nat) : Dev :=
  match d.rspStall p op with
  | some u => d.overrun (.leyTx u)
  | none => d.leyRsp p op

/-! ### Management traffic (R373 to R376) -/

/-- Takes the front MGT entry of a port when it has the opcode: one for this device, or forwards it (R372). -/
def Dev.takeMgt (d : Dev) (p op : Nat) : Option (LeyEnt × Dev) :=
  match (d.lp p).front 3 op with
  | none => none
  | some e => some (e.2, d.popRx p e)

/-- The port that forwards an MGT entry that is not for this member: away from the dealer by DEV, while it accepts the dealer's entries
(R383); from below upstream. -/
def Dev.mgtWay (d : Dev) (p : Nat) (e : LeyEnt) : Option Nat :=
  (if d.upstream = some p then (d.downTo e.dev).filter fun _ => d.cas.takes else d.upstream).filter d.leyUp

def Dev.forwardMgt (d : Dev) (p : Nat) (e : LeyEnt) : Dev :=
  match d.mgtWay p e with
  | some q => d.pushTx q { e with via := p + 1 }
  | none => d

/-- A request of the dealer that has reached its member. -/
def Dev.mine (d : Dev) (e : LeyEnt) : Bool := d.role != 0 && e.dev == d.role

/-- The port whose transmit queue has no slot for the MGT entry at the front, when this member forwards it (R46, R372). -/
def Dev.mgtStall (d : Dev) (p op : Nat) : Option Nat :=
  if d.role = 0 then none
  else ((d.lp p).front 3 op).bind fun e =>
    if d.mine e.2 ∧ (op = 0x20 ∨ op = 0x22 ∨ op = 0x24 ∨ op = 0x27) then none
    else (d.mgtWay p e.2).filter fun q => !d.txRoom q

/-- An MGT entry is taken by `f`, or waits. -/
def Dev.mgtTurn (d : Dev) (p op : Nat) (f : Dev → Dev) : Dev :=
  match d.mgtStall p op with
  | some q => d.overrun (.leyTx q)
  | none => f d

/-- JOIN on a member (R373, R383): the answer waits for MEMBER_JOIN_READY. -/
def Dev.joinMsg (d : Dev) (p : Nat) : Dev :=
  match d.takeMgt p 0x20 with
  | none => d
  | some (e, d) =>
    if d.mine e then { d with cas := { d.cas with joinDue := some e.md } }
    else if d.role ≠ 0 then d.forwardMgt p e else d

/-- Number whose bytes are the 128 of JOINRSP (Table 14.2). -/
def Dev.joinRspBytes (d : Dev) : Nat :=
  Config.serial.toNat + d.role * 2 ^ 64 + d.fld .casId F.casId_DIST * 2 ^ 72 + d.cas.session * 2 ^ 96 +
    (List.range 24).foldl (fun v c => v + (d.chState c + min 4095 (d.usable c / 2 ^ 30) * 2 ^ 4) * 2 ^ (8 * (16 + 4 * c))) 0

/-- Two data units of a 128-byte number. -/
def twoUnits (v : Nat) : List Line := [BitVec.ofNat 512 v, BitVec.ofNat 512 (v >>> 512)]

/-- The member answers with JOINRSP, then names the downstream links that are ACTIVE (R373, R382). -/
def Dev.sendJoinRsp (d : Dev) : Dev :=
  match d.upstream with
  | none => d
  | some u =>
    let d := { d with cas := { d.cas with takes := true } }
    if !d.leyUp u then { d with cas := { d.cas with takes := false } } else
    let d := d.pushTx u { vc := 3, op := 0x21, dev := d.role, dlen := 2, data := twoUnits d.joinRspBytes }
    ((List.range 4).filter fun p => d.isDown p && d.leyUp p).foldl (fun d p =>
      d.pushTx u { vc := 3, op := 0x26, dev := d.role, la := d.leyPdev p + 2 ^ 8, via := p + 1 }) d

/-- Every channel with a module has DONE set (R373). -/
def Dev.allTrained (d : Dev) : Bool :=
  (List.range 24).all fun c =>
    !(bitOf (d.rd (.chnPop c)) 15 || bitOf (d.rd (.chnPop c)) 31) || d.flag (.chnTrain c) F.chnTrain_DONE

/-- MEMBER_JOIN_READY (R373). -/
def Dev.joinReady (d : Dev) : Dev :=
  match d.cas.joinDue with
  | none => d
  | some s =>
    if d.role ≠ 0 ∧ d.allTrained ∧ d.upstream.isSome then
      let d := { d with cas := { d.cas with joinDue := none, session := s, served := [] } }
      (d.setFlag .casId F.casId_JOINED true).sendJoinRsp
    else d

/-- REOPEN on a member (R383). -/
def Dev.reopenMsg (d : Dev) (p : Nat) : Dev :=
  match d.takeMgt p 0x27 with
  | none => d
  | some (e, d) => if d.mine e then d.sendJoinRsp else if d.role ≠ 0 then d.forwardMgt p e else d

/-- Every channel of member `m` that a committed set names is in service (Table 14.5 step 3). -/
def Dev.memberServes (d : Dev) (m : Nat) : Bool :=
  (List.range 16).all fun n => !d.setCommitted n || (match d.setGeo n with
    | none => true
    | some g => (d.setTargets g).all fun t => t.1 != m || (kvGet (fun _ => (0, 0)) d.cas.chans (m * 24 + t.2.1)).1 == 3)

/-- JOINRSP at the dealer: a member joins (R373) or is checked for reopening (Table 14.5 step 3). -/
def Dev.joinRsp (d : Dev) (p : Nat) : Dev :=
  match d.takeMgt p 0x21 with
  | none => d
  | some (e, d) =>
    if d.role ≠ 0 then d.forwardMgt p e
    else
      let v := (e.data.getD 0 0).toNat + (e.data.getD 1 0).toNat * 2 ^ 512
      let serial := bitsOf v 63 0
      let m := bitsOf v 71 64 % 8
      let dist := bitsOf v 79 72
      let session := bitsOf v 127 96
      let take (d : Dev) : Dev := (List.range 24).foldl (fun d c =>
        let w := bitsOf v (8 * (16 + 4 * c) + 15) (8 * (16 + 4 * c))
        { d with cas := { d.cas with chans := kvSet (fun _ => (0, 0)) d.cas.chans (m * 24 + c) (w % 16, w / 16) } }) d
      let place (d : Dev) : Dev :=
        (d.setFld (.casMember m) F.casMember_PORT p).setFld (.casMember m) F.casMember_DIST (min 3 dist)
      match (d.mem m).step with
      | .joining s =>
        if session ≠ s then d
        else
          let d := (place d).modMem m fun x => { x with step := .none }
          if 3 ≤ dist then (d.setMemState m 5).topologyRecord m 1 p
          else
            let d := ((take d).wr (.casMser m) serial).setFld (.casMember m) F.casMember_SESSION s
            (d.setMemState m 1).raise (vendorRec 0x0741 .info (0xA00 + m)
              (m + dist % 4 * 2 ^ 4 + p * 2 ^ 8 + s * 2 ^ 32))
      | .reopening =>
        let d := place (take d)
        if serial ≠ d.fld (.casMser m) F.casMser_SERIAL then d.memberLost m 0
        else if session ≠ d.fld (.casMember m) F.casMember_SESSION then d.memberLost m 1
        else if !d.memberServes m then d.memberLost m 2
        else d.modMem m fun x => { x with step := .poisoning }
      | _ => d

/-- REGRSP at the dealer (R375). -/
def Dev.regRsp (d : Dev) (p : Nat) : Dev :=
  match d.takeMgt p 0x23 with
  | none => d
  | some (e, d) =>
    if d.role ≠ 0 then d.forwardMgt p e
    else if d.flag .casMacc F.casMacc_DONE ∨ d.fld .casMacc F.casMacc_DEV ≠ e.dev then d
    else
      let d := d.setFlag .casMacc F.casMacc_DONE true
      if e.la.testBit 0 then (d.setFlag .casMacc F.casMacc_ERR true).wr .casMdata (2 ^ 32 - 1) else d.wr .casMdata e.md

/-- MEMBER_REG_ACCESS (R375). -/
def Dev.memberAccess (d : Dev) : Dev :=
  if !d.flag .casMacc F.casMacc_DONE then d
  else
    let m := d.fld .casMacc F.casMacc_DEV
    if m = 0 ∨ d.memState m ≠ 1 then (d.setFlag .casMacc F.casMacc_ERR true).wr .casMdata (2 ^ 32 - 1)
    else (d.setFlag .casMacc F.casMacc_DONE false).sendMgt (d.memPort m) m
      (if d.flag .casMacc F.casMacc_WR then 0x24 else 0x22) (d.fld .casMacc F.casMacc_OFFSET) (d.rd .casMdata)

/-- The oldest queued record goes to the dealer (R376). -/
def Dev.sendRecord (d : Dev) : Option Dev :=
  match d.cas.recs, d.upstream with
  | r :: rest, some u =>
    if d.cas.takes && d.leyUp u then
      let d := { d with cas := { d.cas with recs := rest } }
      some (d.pushTx u { vc := 3, op := 0x25, dev := d.role, dlen := 2, data := twoUnits r.bytes })
    else none
  | _, _ => none

/-- A member's record with its channel number as the dealer numbers channels (R376). -/
def Rec.ofMember (r : Rec) (m : Nat) : Rec :=
  let r := if r.unit / 256 = 8 then { r with unit := 0x800 + (24 * m + r.unit % 256) % 256 } else r
  if r.kind = .dram then { r with data := r.data.set 3 ((24 * m + r.data.getD 3 0) % 256) } else r

/-- RECORD at the dealer (R376). -/
def Dev.recordMsg (d : Dev) (p : Nat) : Dev :=
  match d.takeMgt p 0x25 with
  | none => d
  | some (e, d) =>
    if d.role ≠ 0 then d.forwardMgt p e
    else
      let r := (recordOf ((e.data.getD 0 0).toNat + (e.data.getD 1 0).toNat * 2 ^ 512)).ofMember e.dev
      { d with logs := d.logs.put d.nowNs 16 r }

/-- FOLDNOTE at the dealer (R382). -/
def Dev.foldNote (d : Dev) (p : Nat) : Dev :=
  match (d.lp p).front 3 0x26 with
  | none => d
  | some x =>
    if d.role ≠ 0 then (d.popRx p x).forwardMgt p x.2
    else
      let d := (d.drainRsp p (some x)).popRx p x
      let m := x.2.la % 8
      if m = 0 then d
      else if x.2.la.testBit 8 then
        if (d.memState m = 1 ∨ d.memState m = 3) ∧ !((d.mem m).port = p ∧ (d.mem m).via = x.2.dev) then d.topologyRecord m 0 p
        else if d.memState m = 1 ∨ d.memState m = 3 then d
        else (d.modMem m fun v => { v with port := p, dist := 2, up := true, via := x.2.dev, step := .none }).memberReached m
      else
        let (d, k) := d.draw
        if (d.mem m).up then d.foldAll p ((Config.unstated k).toNat % 8) [m] else d

/-! ### Link down at a member (R382, R383) -/

/-- The entry at the front of a port's receive queues reaches the core: a dealer's, or one that comes from below. What the device's role
gives no meaning is dropped. -/
def Dev.rxHome (d : Dev) (p : Nat) (e : Nat × LeyEnt) : Dev :=
  let d := match e.2.vc with
    | 0 => d.leyDeliver p 0 e.2.op
    | 1 => d.leyDeliver p 1 e.2.op
    | 2 => d.leyRsp p e.2.op
    | _ => match e.2.op with
      | 0x20 => d.joinMsg p
      | 0x21 => d.joinRsp p
      | 0x23 => d.regRsp p
      | 0x25 => d.recordMsg p
      | 0x26 => d.foldNote p
      | 0x27 => d.reopenMsg p
      | _ => d
  if (d.lp p).rxq.contains e then d.popRx p e else d

/-- Every entry accepted before a link-down is delivered before it (R48). -/
def Dev.drainHome (d : Dev) (p : Nat) : Dev := (d.lp p).rxq.foldl (fun d e => d.rxHome p e) d

/-- What the core does at a link-down that has reached it: `f`, once. -/
def Dev.downAct (d : Dev) (p : Nat) (f : Dev → Nat → Dev) : Dev :=
  match (d.lp p).down with
  | none => d
  | some cause => f (d.modLp p fun x => { x with down := none }) cause

/-- The entries of a port's receive crossing let its link-down event pass (R48). It is in the transfer under way, or in the next one,
when a retrain's end is ahead of it. -/
def Dev.downHeard (d : Dev) (p : Nat) : Bool :=
  let e := (d.ackEvent (.leyEvt p)).xevt (.leyEvt p)
  e.wait == 0 && (e.flight.testBit 0 || e.pendWait == 0)

/-- The transfer with the link-down reaches the core, and one ahead of it. -/
def Dev.downTransfer (d : Dev) (p : Nat) : Dev :=
  let t := d.eventTransfer (.leyEvt p)
  if t.1.contains 0 then t.2 else (t.2.eventTransfer (.leyEvt p)).2

/-- A port's link-down event reaches the core: `f` acts on it. -/
def Dev.downEvent (d : Dev) (p : Nat) (f : Dev → Dev) : Dev :=
  if (d.lp p).down.isSome ∧ d.downHeard p then f (d.downTransfer p) else d

/-- The dealer's part of a link-down (R362), after every entry accepted before it. -/
def Dev.foldAct (d : Dev) (p : Nat) : Dev :=
  d.downAct p fun d cause =>
    let d := d.drainHome p
    d.foldAll p cause ((List.range 8).filter fun m => decide (1 ≤ m) && (d.mem m).up && (d.mem m).port == p)

/-- FOLD (R362): a link-down reaches the dealer's core. -/
def Dev.fold (d : Dev) (p : Nat) : Dev := if d.role ≠ 0 then d else d.downEvent p fun d => d.foldAct p

/-- A member's part of the loss of its upstream link (R383), after the entries accepted before it. -/
def Dev.memberDownAct (d : Dev) (p : Nat) : Dev :=
  d.downAct p fun d _ =>
    let d := d.setFlag (.leyErr p) F.leyErr_FOLD true
    ({ d with cas := { d.cas with takes := false, joinDue := none } }).reDistance

/-- A distance-1 member's part of the loss of a downstream link (R382): what came from below goes upstream, entries for that member are
dropped, then FOLDNOTE. -/
def Dev.downstreamAct (d : Dev) (p : Nat) : Dev :=
  d.downAct p fun d _ =>
    let m := d.leyPdev p
    let below := d.isDown p
    let d := d.setFlag (.leyErr p) F.leyErr_FOLD true
    if !below then d.reDistance
    else
      let d := d.drainHome p
      match d.upstream with
      | none => d
      | some u =>
        let d := ((d.lp u).rxq.filter fun e => decide (e.2.vc < 2) && e.2.dev == m).foldl (fun d e => d.popRx u e) d
        if d.cas.takes then
          d.pushTx u { vc := 3, op := 0x26, dev := d.role, la := m, via := p + 1 }
        else d

/-- DOWNSTREAM_LINK_DOWN (R382). -/
def Dev.downstreamLinkDown (d : Dev) (p : Nat) : Dev :=
  if d.role = 0 ∨ d.upstream = some p then d else d.downEvent p fun d => d.downstreamAct p

/-! ### Recovery (R384, R385) -/

/-- CAS_REOPEN (Table 14.5 step 2): RDEV must name a folded member, or a recovering one that waits for it. -/
def Dev.casReopen (d : Dev) : Dev :=
  let m := d.fld .casCtrl F.casCtrl_RDEV
  if m ≠ 0 ∧ (d.memState m = 2 ∨ (d.memState m = 3 ∧ (d.mem m).step = .waiting)) then
    (d.modMem m fun v => { v with asked := true }).tryReopen m
  else d.setFlag .casCtrl F.casCtrl_ERR true

/-- FORGET (R385). -/
def Dev.casForget (d : Dev) : Dev :=
  let m := d.fld .casCtrl F.casCtrl_RDEV
  if m ≠ 0 ∧ d.memState m = 4 then
    let d := { d with cas := { d.cas with foldList := d.cas.foldList.filter (fun y => y.2.1 != m),
                                          foldMap := d.cas.foldMap.filter fun b => b / 2 ^ 27 != m } }
    (d.setMemState m 0).modMem m fun v => { v with step := .none, asked := false }
  else d.setFlag .casCtrl F.casCtrl_ERR true

/-- The frame whose counter line an SA holds, when the SA lies in a counter region. -/
def Dev.ctrFrameAt (d : Dev) (sa : Nat) : Option Nat :=
  match d.setOf sa with
  | none => none
  | some n => (d.setGeo n).bind fun g => if g.ctrBase ≤ sa then some (g.ctrFrame sa) else none

/-- A line of SA lies on a member. -/
def Dev.onMember (d : Dev) (m sa : Nat) : Bool :=
  match d.place sa with | .member k _ _ => k == m | _ => false

/-- Writes a line as poisoned under its counters. -/
def Dev.poisonStored (d : Dev) (sa : Nat) : Dev :=
  d.ask { id := 0, own := .none, kind := .write, sa := sa, dom := d.frameDom (sa / 4096) (sa / 64 % 64), poison := true }

/-- MEMBER_RECOVERY_COMPLETE (Table 14.5 steps 4 and 5): counter lines first, each with its frame, then the listed lines and
those of the marked chunks. -/
def Dev.recover (d : Dev) (m : Nat) : Dev :=
  if d.memState m = 3 ∧ (d.mem m).step = .poisoning then
    let listed := (d.cas.foldList.filter fun y => y.2.1 == m).map fun y => y.1 * 64
    let chunks := (d.cas.foldMap.filter fun b => b / 2 ^ 27 == m).flatMap fun b =>
      ((List.range 32768).map fun i => b % 2 ^ 27 * 2 ^ 21 + i * 64).filter (d.onMember m)
    let sas := listed ++ chunks.filter fun a => !listed.contains a
    let frames := sas.filterMap d.ctrFrameAt
    let lines := sas.filter fun a => (d.ctrFrameAt a).isNone
    let d := { d with cas := { d.cas with foldList := d.cas.foldList.filter (fun y => y.2.1 != m),
                                          foldMap := d.cas.foldMap.filter fun b => b / 2 ^ 27 != m } }
    let d := (d.setMemState m 1).modMem m fun v => { v with step := .none }
    let d := frames.foldl (fun d f =>
      let (d, k) := d.draw
      d.counterLost f ((Config.unstated k).toNat % 4)) d
    let d := lines.foldl Dev.poisonStored d
    let d := d.raise (vendorRec 0x0742 .warning (0xA00 + m) (m + satTo 32 (64 * frames.length + lines.length) * 2 ^ 32))
    (d.behind m).foldl Dev.memberReached d
  else d

/-! ### The bitmap region (R380) -/

/-- Every target of the committed sets that hold a range is on the dealer. -/
def Dev.homeOnly (d : Dev) (a len : Nat) : Bool :=
  (List.range 16).all fun n => !d.setCommitted n || (match d.setGeo n with
    | none => true
    | some g => !overlaps a len (g.base * 2 ^ 30) (g.size * 2 ^ 30) || (d.setTargets g).all fun t => t.1 == 0)

/-- FOLDMAP_ENABLE (R380): refused, or the region is cleared and valid; the dealer then joins what it reaches. -/
def Dev.foldmapEnable (d : Dev) : Dev :=
  let a := d.fld .casFoldmap F.casFoldmap_BASE * 2 ^ 27
  let len := 2 ^ 27
  let hit (p : Nat × Nat) : Bool := overlaps a len p.1 p.2
  let bad := !d.covered a len || !d.homeOnly a len || d.hitsCounters a len ||
    ((List.range 16).any fun k => d.poolEn k && hit (d.poolSpan k)) ||
    ((List.range 16).any fun k => d.winEn k && hit (d.flatRange k)) ||
    hit (d.ftab, 2 ^ 30)
  if bad then (d.setFlag .casFoldmap F.casFoldmap_V false).setFlag .casCtrl F.casCtrl_ERR true
  else
    let d := { d with cas := { d.cas with foldMap := [] } }
    let d := d.setFlag .casFoldmap F.casFoldmap_V true
    ((List.range 8).filter fun m => decide (1 ≤ m)).foldl Dev.memberReached d

/-- Some member is joined, so writes of CAS_FOLDMAP are ignored (Table 14.9). -/
def Dev.anyJoined (d : Dev) : Bool :=
  (List.range 8).any fun m => decide (1 ≤ m) && (let s := d.memState m; s == 1 || s == 2 || s == 3)

end Sys2Proof.Machine
end

