-- ==== Sys2Proof/Machine/ChanTrain.lean ====
section
/-! DEFINITION. Channels: population, training, thermal and power events, sparing commands, frequency change and power-down
(chapters 9 to 11). -/

namespace Sys2Proof.Machine

/-! ### Population (R236 to R241) -/

/-- Ranks of a module. -/
def Spd.rankCount (m : Spd) : Nat := 2 ^ min 2 m.ranks

/-- CHN_AMAP for a module's organisation (R77): column lines by device width, row bits by die density, CID by height; eight
bank groups of four banks (log entry 14). -/
def Spd.amap (m : Spd) : Nat :=
  (if m.width = 0 then 2 ^ 5 else 0) + 2 ^ 6 + 2 ^ 7 + min 2 m.density * 2 ^ 8 + min 3 m.height * 2 ^ 10 + 2 ^ 12

/-- Bytes of a module. -/
def Spd.bytes (m : Spd) : Nat := m.rankCount * 2 ^ (6 + (amapOf m.amap).rankBits)

/-- The module is in Table 9.1 (R236). -/
def Spd.supported (m : Spd) : Bool :=
  m.ecc && decide (m.density ≤ 2) && decide (m.bytes ≤ 2 ^ 40) &&
    match m.ty with
    | 1 => decide (m.width ≤ 1) && decide (m.ranks ≤ 1) && (decide (m.height ≤ 2) || (m.height == 3 && m.width == 0))
    | 2 => m.width == 0 && (m.ranks == 1 || m.ranks == 2) && decide (m.height ≤ 2)
    | _ => false

/-- Two modules share an organisation (R238). -/
def Spd.alike (a b : Spd) : Bool :=
  a.ty == b.ty && a.width == b.width && a.density == b.density && a.ranks == b.ranks && a.height == b.height

/-- The rate codes that Table 9.1 allows a type at a number of modules per channel. -/
def typeRates (ty dpc : Nat) : List Nat :=
  match ty with
  | 1 => if dpc = 2 then [1, 2, 3] else [1, 2, 3, 4, 5]
  | 2 => if dpc = 2 then [6, 7, 8] else [6, 7, 8, 9, 10]
  | _ => []

/-- Half of CHN_POP for a slot (Table 9.14). -/
def popHalf (dpc : Nat) : Option Spd → Nat
  | none => 0
  | some m =>
    let top := ((typeRates m.ty dpc).filter (m.rates.contains ·)).foldl max 0
    2 ^ 15 + (if m.ty = 1 ∨ m.ty = 2 then m.ty else 0) * 2 ^ 13 + (m.width % 2) * 2 ^ 12 + min 3 m.density * 2 ^ 10 +
      min 2 m.ranks * 2 ^ 8 + min 3 m.height * 2 ^ 6 + b2n m.rfm * 2 ^ 5 + top

def modulesOf (s0 s1 : Option Spd) : List Spd := s0.toList ++ s1.toList

/-- The highest usable rate of a channel (R240), below a cap when it is not 0. -/
def usableRates (ms : List Spd) (cap : Nat) : List Nat :=
  (typeRates ((ms.head?.map Spd.ty).getD 0) ms.length).filter fun r =>
    ms.all (·.rates.contains r) && (cap == 0 || decide (r ≤ cap))

/-- PHY mode of a quarter (R239): the type of the module in slot 0 of its first channel that has a supported module. A channel without a
module of a type there is passed over (DESIGN CHOICE, log entry 122). -/
def quarterMode (slots : List (Option Spd × Option Spd)) (q : Nat) : Nat :=
  (((List.range 6).filterMap fun i =>
    let p := slots.getD (6 * q + i) (none, none)
    if (modulesOf p.1 p.2).any (·.supported) then (p.1.map Spd.ty).filter fun t => t == 1 || t == 2 else none).head?).getD 0

/-- Why a populated channel is excluded (R236 to R241); 0: it is not. -/
def exclusion (s0 s1 : Option Spd) (mode cap : Nat) : Nat :=
  let ms := modulesOf s0 s1
  if ms.any (!·.supported) then 4
  else match s0, s1 with
    | none, some _ => 1
    | some a, some b => if a.alike b then (if a.ty ≠ mode then 3 else if (usableRates ms cap).isEmpty then 5 else 0) else 2
    | some a, none => if a.ty ≠ mode then 3 else if (usableRates ms cap).isEmpty then 5 else 0
    | none, none => 0

/-- Timing minimums of the SPD, in the order in which `Spd.mins` lists them (Table 9.9). -/
def spdNames : List String :=
  ["AA", "RCD", "RP", "RAS", "RC", "WR", "RTP", "RRD_S", "RRD_L", "FAW", "CCD_L", "CCD_L_WR", "WTR_S", "WTR_L", "REFI", "RFC1",
   "RFCSB", "XS", "RFM"]

/-- The minimums of a channel's modules together: the larger of each, the smaller of REFI. -/
def channelMins : List Spd → List Nat
  | [] => []
  | [m] => m.mins
  | m :: ms => (List.range 19).map fun i =>
      let rest := (channelMins ms).getD i 0
      if i = 14 then min (m.mins.getD i 0) rest else max (m.mins.getD i 0) rest

/-- A minimum in ps as controller cycles of a rate, rounded up (R254): one cycle is 8,000,000 ÷ rate ps. -/
def minCC (rate ps : Nat) : Nat := ceilDiv (ps * rateMTs rate) 8000000

/-- The four registers of a timing set (R254): the minimums at a rate, CL − 1 for CWL, the measured turnarounds plus 2. -/
def timingRegs (rate : Nat) (mins turn : List Nat) : List Nat :=
  let t (i : Nat) : Nat := minCC rate (mins.getD i 0)
  let cl := t 0
  let cwl := cl - 1
  let u (i : Nat) : Nat := (max (turn.getD i 0 + 2) (Config.turnMin i cl cwl)) % 256
  [rate * 2 ^ 60 + (cl % 256) * 2 ^ 52 + (cwl % 256) * 2 ^ 44 + (t 1 % 256) * 2 ^ 36 + (t 2 % 256) * 2 ^ 28 +
     (t 3 % 1024) * 2 ^ 18 + (t 4 % 1024) * 2 ^ 8 + t 5 % 256,
   (t 6 % 256) * 2 ^ 56 + (t 7 % 256) * 2 ^ 48 + (t 8 % 256) * 2 ^ 40 + (t 9 % 256) * 2 ^ 32 + (t 10 % 256) * 2 ^ 24 +
     (t 11 % 256) * 2 ^ 16 + (t 12 % 256) * 2 ^ 8 + t 13 % 256,
   (t 14 % 2 ^ 14) * 2 ^ 50 + (t 15 % 2 ^ 12) * 2 ^ 38 + (t 16 % 1024) * 2 ^ 28 + (t 17 % 2 ^ 12) * 2 ^ 16 +
     (t 18 % 1024) * 2 ^ 6 + 2,
   u 0 * 2 ^ 56 + u 1 * 2 ^ 48 + u 2 * 2 ^ 40 + u 3 * 2 ^ 32 + u 4 * 2 ^ 24 + u 5 * 2 ^ 16]

def Dev.writeTiming (d : Dev) (c x : Nat) (vs : List Nat) : Dev :=
  (((d.wr (.chnTim0 c x) (vs.getD 0 0)).wr (.chnTim1 c x) (vs.getD 1 0)).wr (.chnTim2 c x) (vs.getD 2 0)).wr
    (.chnTim3 c x) (vs.getD 3 0)

/-! ### Training (R246 to R251) -/

/-- A member's session number goes when its channels are retrained (R373). -/
def Dev.sessionLost (d : Dev) : Dev :=
  ({ d with cas := { d.cas with session := 0 } }).setFlag .casId F.casId_JOINED false

/-- Step 1 of Table 9.3 for one channel: population, map, exclusion. -/
def Dev.discover (d : Dev) (c : Nat) (s0 s1 : Option Spd) (mode : Nat) : Dev :=
  let ms := modulesOf s0 s1
  let dpc := ms.length
  let d := (d.wr (.chnPop c) (popHalf dpc s0 + popHalf dpc s1 * 2 ^ 16)).sessionLost
  match ms with
  | [] => d.setFld (.chnStat c) F.chnStat_STATE 0
  | m :: _ =>
    let cap := d.fld (.chnQcfg (quarterOfChan c)) F.chnQcfg_MAXRATE
    let why := exclusion s0 s1 mode cap
    if why ≠ 0 then
      let d := ((d.setFld (.chnStat c) F.chnStat_STATE 4).setFld (.chnStat c) F.chnStat_REASON why).setFlag
        (.chnTrain c) F.chnTrain_DONE true
      d.raise (vendorRec 0x0501 .failure (chanUnit c) (c + why * 2 ^ 8))
    else
      let rates := usableRates ms cap
      let d := (d.wr (.chnAmap c) m.amap).setFlag (.chnRfm c) F.chnRfm_REQ (ms.any (·.rfm))
      let d := ((d.setFld (.chnStat c) F.chnStat_STATE 2).setFld (.chnStat c) F.chnStat_RATE (rates.foldl max 0)).setFld
        (.chnStat c) F.chnStat_FALLBACK 0
      d.modChn c fun ch => { ch with target := rates.foldl max 0, spd := channelMins ms, spdRates := rates, storedPath := false,
                                     ident := [(s0.map Spd.ident).getD 0, (s1.map Spd.ident).getD 0], geo := m.amap }

/-- ALT when it names a rate that R240 allows the channel; 0 otherwise (R248). -/
def Dev.usableAlt (d : Dev) (c : Nat) : Nat :=
  let alt := d.fld (.chnTrain c) F.chnTrain_ALT
  if (d.chn c).spdRates.contains alt then alt else 0

/-- Step 5 begins: ALT is read, and the channel is trained at that rate too (R248). -/
def Dev.trainSteps (d : Dev) (c : Nat) : Dev :=
  let alt := d.usableAlt c
  d.modChn c fun ch => { ch with storedPath := false, alt := alt }

/-- Step 4 (R249): whether the stored record serves; otherwise why not: 0 no record, 1 CRC, 2 identity. -/
def recordRefusal (r : Option TrainRec) (crcBad : Bool) (i0 i1 rate mode : Nat) : Option Nat :=
  match r with
  | none => some 0
  | some r =>
    if crcBad then some 1
    else if r.serial = Config.serial.toNat ∧ r.ident0 = i0 ∧ r.ident1 = i1 ∧ r.rate = rate ∧ r.mode = mode then none
    else some 2

/-- Step 4 for a channel: the stored path, on which set B is of the alternate rate when the record was trained at it, or steps 5 to 8. -/
def Dev.storedCheck (d : Dev) (nv : Nv) (c : Nat) (crcBad : Bool) (mode : Nat) : Dev :=
  if d.chState c = 2 then
    let ch := d.chn c
    match recordRefusal (kvFind? nv.train c) crcBad (ch.ident.getD 0 0) (ch.ident.getD 1 0) ch.target mode with
    | none =>
      let kept := ((kvFind? nv.train c).map (·.alt)).getD 0
      let alt := if d.usableAlt c = kept then kept else 0
      d.modChn c fun ch => { ch with storedPath := true, alt := alt }
    | some why => (d.trainSteps c).raise (vendorRec 0x0504 .info (chanUnit c) (c + why * 2 ^ 8))
  else d

/-- Present physical ranks in ascending order, from CHN_POP (R236). -/
def presentRanks (pop : Nat) : List Nat :=
  let half (s : Nat) : List Nat :=
    let v := pop >>> (16 * s)
    if bitOf v 15 then (List.range (2 ^ min 2 (bitsOf v 9 8))).map (· + 4 * s) else []
  half 0 ++ half 1

/-- The rank map and rank states that step 8 leaves (R246, R292). -/
def rankPlan (pop spare : Nat) : List Nat × List (Nat × Nat) × Nat :=
  let present := presentRanks pop
  let sp := bitsOf spare 25 23
  let fl := bitsOf spare 18 16
  let hasSpare := bitOf spare 26 && present.contains sp
  let used := hasSpare && bitOf spare 19 && present.contains fl && fl != sp
  let base := if hasSpare then present.filter (· != sp) else present
  let map := if used then base.map fun r => if r = fl then sp else r else base
  let states := present.map fun r =>
    (r, if used ∧ r = fl then 5 else if hasSpare ∧ r = sp ∧ !used then 2 else 1)
  (map, states, if used then 2 else 0)

/-- CHN_STAT and CHN_TRAIN of a channel that enters service. -/
def Dev.serviceFields (d : Dev) (c rate rd wr : Nat) : Dev :=
  let d := ((d.setFld (.chnStat c) F.chnStat_STATE 3).setFld (.chnStat c) F.chnStat_RATE rate).setFlag
    (.chnStat c) F.chnStat_STORED (d.chn c).storedPath
  let d := ((d.setFlag (.chnTrain c) F.chnTrain_DONE true).setFld (.chnTrain c) F.chnTrain_TRATE rate).setFld
    (.chnTrain c) F.chnTrain_RDEYE rd
  (d.setFld (.chnTrain c) F.chnTrain_WREYE wr).setFld (.chnFchg c) F.chnFchg_ACTIVE 0

/-- Step 11 of Table 9.3: the channel enters service at rate `rate`. `turn` and `turnAlt`: the turnarounds at that rate and at the
alternate one (R254). -/
def Dev.enterService (d : Dev) (c rate rd wr : Nat) (turn turnAlt : List Nat) : Dev :=
  let ch := d.chn c
  let (map, states, sp) := rankPlan (d.rd (.chnPop c)) (d.rd (.chnSpare c))
  let d := d.writeTiming c 0 (timingRegs rate ch.spd turn)
  let d := if ch.alt ≠ 0 then d.writeTiming c 1 (timingRegs ch.alt ch.spd turnAlt) else d
  let d := d.wr (.chnRankmap c) ((List.range map.length).foldl (fun v i => v + (8 + map.getD i 0) * 2 ^ (4 * i)) 0)
  let d := states.foldl (fun d p => d.setRankState c p.1 p.2) (d.wr (.chnRankstat c) 0)
  let d := states.foldl (fun d p => if p.2 = 5 then d.enterPd c p.1 else d) d
  let d := d.setFld (.chnSpare c) F.chnSpare_STATE sp
  let d := d.serviceFields c rate rd wr
  let ref := Periodic.begin d.nowNs (d.refPeriod c)
  let scrub := Periodic.begin d.nowNs (d.scrubPeriod c)
  let word := d.cip.drawn
  let d := d.modChn c fun ch =>
    { ch with genWord := word, genDraws := 0, recordDue := !ch.storedPath, ref := ref, refDone := [], refForced := [],
              refBanks := [], refLag := 0, maint := [], scrub := scrub, scrubOut := 0, scrubEnd := false }
  { d with cip := { d.cip with drawn := d.cip.drawn + 1 } }

/-- The channel fails its training with a REASON (R247). -/
def Dev.trainFail (d : Dev) (c reason : Nat) : Dev :=
  let rate := d.fld (.chnStat c) F.chnStat_RATE
  let d := ((d.setFld (.chnStat c) F.chnStat_STATE 5).setFld (.chnStat c) F.chnStat_REASON reason).setFlag
    (.chnTrain c) F.chnTrain_DONE true
  d.raise (vendorRec 0x0502 .failure (chanUnit c) (c + reason * 2 ^ 8 + rate * 2 ^ 12))

/-- CHANNEL_TRAINING_COMPLETE (R246, R247, R250): the narrowest eyes in 1/128 UI, whether the geometry found is the SPD's, and
the turnarounds measured, at the rate and at the alternate rate. -/
def Dev.trainingComplete (d : Dev) (c rd wr : Nat) (geometry : Bool) (turn turnAlt : List Nat) : Dev :=
  if d.chState c ≠ 2 then d
  else
    let rate := d.fld (.chnStat c) F.chnStat_RATE
    let d := (d.setFld (.chnTrain c) F.chnTrain_RDEYE rd).setFld (.chnTrain c) F.chnTrain_WREYE wr
    if !geometry then d.trainFail c 8
    else if 26 ≤ rd ∧ 26 ≤ wr then d.enterService c rate rd wr turn turnAlt
    else if (d.chn c).storedPath then
      (d.trainSteps c).raise
        (vendorRec 0x0504 .info (chanUnit c) (c + 3 * 2 ^ 8))
    else
      let n := d.fld (.chnStat c) F.chnStat_FALLBACK
      let lowest := if rate ≤ 5 then 1 else 6
      if n < 2 ∧ lowest < rate then
        let d := (d.setFld (.chnStat c) F.chnStat_RATE (rate - 1)).setFld (.chnStat c) F.chnStat_FALLBACK (n + 1)
        (d.trainSteps c).raise (vendorRec 0x0503 .warning (chanUnit c) (c + (rate - 1) * 2 ^ 8))
      else d.trainFail c 6

/-- TRAINING_RECORD_WRITE (R251): the record of a channel that completed steps 5 to 8 goes to flash; a failed write leaves the
old one. -/
def trainRecordOf (d : Dev) (c : Nat) : TrainRec :=
  let ch := d.chn c
  { serial := Config.serial.toNat, rate := d.fld (.chnTrain c) F.chnTrain_TRATE, mode := d.fld (.chnQcfg (quarterOfChan c)) F.chnQcfg_TYPE,
    alt := ch.alt, ident0 := ch.ident.getD 0 0, ident1 := ch.ident.getD 1 0 }

/-! ### Events of a channel in service -/

/-- Completes everything queued: reads with poison, writes discarded (R245, R304). -/
def Dev.failQueues (d : Dev) (c : Nat) : Dev :=
  let reads := ((d.chn c).subs.flatMap (·.rdq))
  let d := d.modChn c fun ch => { ch with maint := [], subs := ch.subs.map fun s =>
    { s with rdq := [], wrq := [], restore := [], inOrder := [], drain := false, rows := [], nrOpen := none } }
  reads.foldl (fun d e => d.refuseEntry c e) d

/-- NRF_RESEED (R272). -/
def Dev.nrfReseed (d : Dev) (c : Nat) (arrived : Bool) : Dev :=
  if arrived then
    { d.modChn c fun ch => { ch with genWord := d.cip.drawn, genDraws := 0 } with
      cip := { d.cip with drawn := d.cip.drawn + 1 } }
  else d.setFlag (.chnNrfstat c) F.chnNrfstat_RESEED_MISS true

/-- DIMM_THERMAL_READ (R244): a reading in °C per populated slot; none where the read failed, which counts as T2X. -/
def Dev.thermalRead (d : Dev) (c : Nat) (t0 t1 : Option Nat) : Dev :=
  let t2x := min 85 (d.fld (.chnRef c) F.chnRef_T2X)
  let slot (s : Nat) (t : Option Nat) : Nat := if bitOf (d.rd (.chnPop c)) (15 + 16 * s) then t.getD t2x else 0
  let a := slot 0 t0
  let b := slot 1 t1
  let t := max a b
  let old := d.fld (.chnStat c) F.chnStat_TEMP
  let new := if 95 ≤ t then 2 else if t2x ≤ t then 1 else if old ≠ 0 ∧ t2x - 2 ≤ t then 1 else 0
  let d' := d.setFld (.chnStat c) F.chnStat_TEMP new
  if new = 2 ∧ !(d.chn c).hot then
    (d'.modChn c fun ch => { ch with hot := true }).raise
      (vendorRec 0x0505 .warning (chanUnit c) (c + (if a < b then 2 ^ 8 else 0) + min t 255 * 2 ^ 16))
  else if new ≠ 2 then d'.modChn c fun ch => { ch with hot := false }
  else d'

/-- SIDEBAND_ERROR (R243): the transaction and its three retries have failed. The bus serves three channels, two hubs each (R242). -/
def Dev.sidebandError (d : Dev) (bus hub : Nat) : Dev :=
  (d.count .sidebandRetry (3 * (bus % 8) + hub % 8 / 2) 0 3).raise (vendorRec 0x0507 .warning 0x100 (bus % 8 + hub % 8 * 2 ^ 4))

/-- PMIC_FAULT (R245, R306): the affected slots as a mask. -/
def Dev.pmicFault (d : Dev) (c slots : Nat) : Dev :=
  if d.chState c = 3 ∨ d.chState c = 7 then
    let d := (d.setFld (.chnStat c) F.chnStat_STATE 6).setFld (.chnFchg c) F.chnFchg_BUSY 0
    let d := (d.modChn c fun ch => { ch with fchg := .idle, copyEnded := true }).failQueues c
    ((List.range 2).filter (bitOf slots ·)).foldl (fun d s =>
      d.raise (vendorRec 0x0506 .failure (chanUnit c) (c + s * 2 ^ 8))) d
  else d

/-- PAGE_IDLE_TIMEOUT (R260). -/
def Dev.pageIdle (d : Dev) (c i bank : Nat) : Dev :=
  let s := (d.chn c).sub i
  match s.openRow bank with
  | some row =>
    if s.queued.any fun e => e.bank == bank && e.row == row then d
    else (d.modChn c fun ch => ch.modSub i fun s => { s with rows := kvDel s.rows bank }).emit (.dimm c i (.pre bank))
  | none => d

/-- REFRESH_DUE (R267): the due time of a physical rank. Self-refresh stands in for it in STATE 7 (R305). -/
def Dev.refreshDue (d : Dev) (c r : Nat) : Dev :=
  if d.chState c = 3 ∧ (d.refreshedRanks c).contains r then
    d.modChn c fun ch =>
      let add := ([r, 8 + r]).filter fun k => !ch.refDone.contains k && !ch.refForced.any (·.1 == k)
      { ch with refForced := ch.refForced ++ add.map fun k => (k, ch.nextId) }
  else d

/-- ECC_WINDOW_END (R285): the counts of every rank return to zero. -/
def Dev.eccWindowEnd (d : Dev) (c : Nat) : Dev :=
  ((List.range 8).foldl (fun d r =>
    ((d.setFld (.chnEccRank c r) F.chnEccRank_CE 0).setFld (.chnEccRank c r) F.chnEccRank_UE 0).setFld
      (.chnEccRank c r) F.chnEccRank_DEV 0xF) d).modChn c fun ch => { ch with devCe := [] }

/-- A logical rank is scrubbed: it has a rank, and that is not retired (R288, Table 10.5). -/
def Dev.scrubbed (d : Dev) (c lr : Nat) : Bool :=
  match d.physRank c lr with
  | some p => decide (1 ≤ d.rankState c p ∧ d.rankState c p ≤ 4)
  | none => false

/-- The first line to be scrubbed from a position on: in its rank, or from the start of the next rank that is scrubbed (R288). -/
def Dev.scrubFrom (d : Dev) (c lr line : Nat) : Option (Nat × Nat) :=
  if d.scrubbed c lr ∧ line < d.rankLines c then some (lr, line)
  else ((List.range 8).find? fun r => decide (lr < r) && d.scrubbed c r).map fun r => (r, 0)

def Dev.setScrubPos (d : Dev) (c : Nat) (p : Nat × Nat) : Dev :=
  (d.setFld (.chnScrubPos c) F.chnScrubPos_RANK p.1).setFld (.chnScrubPos c) F.chnScrubPos_LINE p.2

/-- SCRUB_READ (R288 to R290): the next paced read of the period, when it may be issued. -/
def Dev.scrubRead (d : Dev) (c : Nat) : Dev :=
  let ch := d.chn c
  if !d.flag (.chnScrub c) F.chnScrub_EN || d.chState c != 3 || ch.scrubEnd || decide (d.nowNs < ch.scrub.start) then d
  else
    let ended (d : Dev) : Dev := (d.modChn c fun ch => { ch with scrubEnd := true }).scrubCheck c
    match d.scrubFrom c (d.fld (.chnScrubPos c) F.chnScrubPos_RANK) (d.fld (.chnScrubPos c) F.chnScrubPos_LINE) with
    | none => ended d
    | some (lr, line) =>
      let e : ChEnt := { write := false, ca := (lr <<< (d.amap c).rankBits ||| line) * 64, use := .scrub, src := .scrub }
      match d.steer c e with
      | [x] =>
        let out := ((ch.sub x.sub).rdq ++ (ch.sub x.sub).flight).countP fun y => y.use == .scrub
        if out < 4 ∧ (ch.sub x.sub).room false then
          let d := ((d.enter c x).count .scrubRead c).modChn c fun ch => { ch with scrubOut := ch.scrubOut + 1 }
          match d.scrubFrom c lr (line + 1) with
          | some p => d.setScrubPos c p
          | none => ended d
        else d
      | _ => d

/-! ### Sparing (R293 to R299) -/

/-- SPARE_START (R293): START with SRC in the register. -/
def Dev.spareStart (d : Dev) (c : Nat) : Dev :=
  let r := d.fld (.chnSpare c) F.chnSpare_SRC
  match d.spareRefusal c r with
  | none => d.spareBegin c r 2
  | some _ => d.setFlag (.chnSpare c) F.chnSpare_ERR true

/-- SPARE_COPY_READ (R294): the read of the next line of the source. -/
def Dev.spareCopyRead (d : Dev) (c : Nat) : Dev :=
  let ch := d.chn c
  match d.rankIn c 3 with
  | some s =>
    let a := d.amap c
    let lr := ((List.range 8).find? fun lr => d.physRank c lr == some s).getD 0
    let i := ch.copyNext
    let e := ({ write := false, ca := (lr <<< a.rankBits ||| i) * 64, use := .copyRead i, src := .copy : ChEnt }).at a s
    if d.spareState c = 1 ∧ d.chState c = 3 ∧ !ch.copyEnded ∧ i < d.rankLines c ∧ i < d.copyPtr c + 64 ∧ (ch.sub e.sub).room false then
      ((d.enter c e).count .copyRead c).modChn c fun ch => { ch with copyNext := i + 1, copyWin := ch.copyWin ++ [(i, false)] }
    else d
  | none => d

/-- SPARE_COPY_COMPLETE (R297): CP has passed the last line. -/
def Dev.spareCopyComplete (d : Dev) (c : Nat) : Dev :=
  match d.rankIn c 3, d.rankIn c 4 with
  | some s, some t =>
    if d.spareState c = 1 ∧ !(d.chn c).copyEnded ∧ d.rankLines c ≤ d.copyPtr c then
      let lr := ((List.range 8).find? fun lr => d.physRank c lr == some s).getD 0
      let d := d.wr (.chnRankmap c) (putBits (d.rd (.chnRankmap c)) (4 * lr + 3) (4 * lr) (8 + t))
      let d := d.setFld (.chnSpare c) F.chnSpare_FAILED (8 + s)
      let d := (d.setFld (.chnSpare c) F.chnSpare_STATE 2).setRankState c t 1
      let n := (d.chn c).copyPoison
      let d := d.modChn c fun ch => { ch with failing := ch.failing ++ [s], copyWin := [] }
      (d.spareEvent c 0x0542 (s * 2 ^ 8 + t * 2 ^ 12 + min n (2 ^ 32 - 1) * 2 ^ 32) .info).failDrained c
    else d
  | _, _ => d

/-- RANK_RETIRE (R299): RETIRE with SRC in the register. -/
def Dev.rankRetire (d : Dev) (c : Nat) : Dev :=
  let r := d.fld (.chnSpare c) F.chnSpare_SRC
  if d.rankState c r = 1 then
    (d.setRankState c r 6).raise (vendorRec 0x0544 .failure (chanUnit c) (c + r * 2 ^ 8))
  else d.setFlag (.chnSpare c) F.chnSpare_ERR true

/-! ### Frequency change and power-down (R302 to R308) -/

/-- Why a frequency change is refused (R302): CAUSE of CHN_FCHG. ALT, which software may write, names a rate that the channel is trained
for only as training read it (R248). -/
def Dev.fchgRefusal (d : Dev) (c : Nat) : Nat :=
  let sh := d.fld (.chnTim0 c (1 - d.activeSet c)) F.chnTim0_RATE
  if d.chState c ≠ 3 ∨ d.flag (.chnFchg c) F.chnFchg_BUSY then 1
  else if sh = 0 then 2
  else if sh ≠ d.fld (.chnTrain c) F.chnTrain_TRATE ∧ (sh ≠ d.fld (.chnTrain c) F.chnTrain_ALT ∨ sh ≠ (d.chn c).alt) then 3
  else 0

/-- Steps 2 to 4 of Table 11.1 towards a rate: powered-down ranks wake, rows are precharged, a rank whose work of the current refresh
period is incomplete is refreshed, then self-refresh and relock. -/
def Dev.toSelfRefresh (d : Dev) (c rate : Nat) : Dev :=
  let ranks := d.refreshedRanks c
  let begun := (d.chn c).ref.running && decide ((d.chn c).ref.start ≤ d.nowNs)
  let d := (ranks.filter (d.poweredDown c)).foldl (fun d r => (d.powerUp c r).onBoth c (.pdx r)) d
  let d := (List.range 2).foldl (fun d i =>
    let s := (d.chn c).sub i
    let d := s.rows.foldl (fun d p => d.emit (.dimm c i (.pre p.1))) d
    let d := s.nrOpen.toList.foldl (fun d k => d.nrClose c i k) d
    let d := (ranks.filter fun r => begun && !(d.chn c).refDone.contains (i * 8 + r)).foldl (fun d r => d.refAb c i r) d
    d.modChn c fun ch => ch.modSub i fun s => { s with rows := [] }) d
  let d := ranks.foldl (fun d r => d.onBoth c (.sre r)) d
  ((d.setFld (.chnStat c) F.chnStat_STATE 7).emit (.dimm c 0 (.relock rate))).modChn c fun ch =>
    { ch with refDone := [], refForced := [], refBanks := [] }

/-- FREQUENCY_CHANGE (R302, R303). -/
def Dev.fchgStart (d : Dev) (c : Nat) : Dev :=
  match d.fchgRefusal c with
  | 0 =>
    let rate := d.fld (.chnTim0 c (1 - d.activeSet c)) F.chnTim0_RATE
    let now := d.nowNs
    let d := (d.setFlag (.chnFchg c) F.chnFchg_BUSY true).modChn c fun ch => { ch with fchg := .changing, fchgStart := now }
    d.toSelfRefresh c rate
  | why => (d.setFlag (.chnFchg c) F.chnFchg_ERR true).setFld (.chnFchg c) F.chnFchg_CAUSE why

/-- The end of a change or of its return: STATE 3, BUSY cleared, duration, and the refresh grid re-anchored (R305). The timers of R252
restart, and each module is to receive a ZQ calibration (R306). -/
def Dev.fchgEnd (d : Dev) (c : Nat) : Dev :=
  let dur := min (d.nowNs - (d.chn c).fchgStart) 0xFFFF
  let d := (d.setFld (.chnStat c) F.chnStat_STATE 3).setFlag (.chnFchg c) F.chnFchg_BUSY false
  let d := d.setFld (.chnFchgTime c) F.chnFchgTime_LAST dur
  let d := d.setFld (.chnFchgTime c) F.chnFchgTime_MAX (max dur (d.fld (.chnFchgTime c) F.chnFchgTime_MAX))
  let d := d.setFlag (.chnRefLag c) F.chnRefLag_LATE false
  let d := d.modChn c fun ch => { ch with fchg := .idle, ref := { Periodic.begin d.nowNs (d.refPeriod c) with raised := ch.ref.raised } }
  d.modChn c fun ch => { ch with maint := (d.refreshedRanks c).map fun r => { zq := true, rank := r } }

/-- FREQUENCY_CHANGE_CHECK (R303, Table 11.1 steps 5 to 8): self-refresh is left, and the ranks are checked; `failed`: the first rank that
fails, if one does. -/
def Dev.fchgCheck (d : Dev) (c : Nat) (failed : Option Nat) : Dev :=
  let each (d : Dev) (cmd : Nat → DimmCmd) : Dev := (d.refreshedRanks c).foldl (fun d r => d.onBoth c (cmd r)) d
  let d := if (d.chn c).fchg = .idle then d else each d .srx
  let x := d.activeSet c
  let old := d.fld (.chnTim0 c x) F.chnTim0_RATE
  let new := d.fld (.chnTim0 c (1 - x)) F.chnTim0_RATE
  match (d.chn c).fchg, failed with
  | .changing, none =>
    let d := (d.setFld (.chnFchg c) F.chnFchg_ACTIVE (1 - x)).setFld (.chnStat c) F.chnStat_RATE new
    let d := (d.fchgEnd c).count .freqChange c
    d.raise (vendorRec 0x0581 .info (chanUnit c)
      (c + old * 2 ^ 8 + new * 2 ^ 12 + d.fld (.chnFchgTime c) F.chnFchgTime_LAST * 2 ^ 16))
  | .changing, some r =>
    let d := (d.setFlag (.chnFchg c) F.chnFchg_REVERTED true).count .freqRevert c
    let d := ((each d .sre).emit (.dimm c 0 (.relock old))).modChn c fun ch => { ch with fchg := .returning }
    d.raise (vendorRec 0x0582 .warning (chanUnit c) (c + old * 2 ^ 8 + new * 2 ^ 12 + r % 16 * 2 ^ 16))
  | .returning, none => d.fchgEnd c
  | .returning, some _ =>
    let d := (d.setFld (.chnStat c) F.chnStat_STATE 5).setFld (.chnStat c) F.chnStat_REASON 6
    let d := ((d.setFlag (.chnFchg c) F.chnFchg_BUSY false).modChn c fun ch => { ch with fchg := .idle }).failQueues c
    d.raise (vendorRec 0x0502 .failure (chanUnit c) (c + 6 * 2 ^ 8 + old * 2 ^ 12))
  | .idle, _ => d

/-- POWER_DOWN_ENTRY (R307): the idle time of a rank has passed. -/
def Dev.powerDown (d : Dev) (c r : Nat) : Dev :=
  let idle (s : SubCh) : Bool := !s.rankBusy r && !(s.nrq.any (·.rank == r)) && s.rows.all (fun p => rankOfKey p.1 != r) &&
    !(d.rfmOn c && s.raa.any fun p => rankOfKey p.1 == r && decide (Config.rfmInit c ≤ p.2)) && s.nrOpen.map rankOfKey != some r
  if d.flag (.chnPwr c) F.chnPwr_PD_EN ∧ d.chState c = 3 ∧ (d.refreshedRanks c).contains r ∧ (d.chn c).subs.all idle ∧
      !(d.chn c).refForced.any (fun k => k.1 % 8 == r) ∧ !(d.chn c).maint.any (·.rank == r) ∧ !d.poweredDown c r then
    d.enterPd c r
  else d

end Sys2Proof.Machine
end

