-- ==== Sys2Proof/Machine/Rings.lean ====
section
/-! DEFINITION. The ring engine (chapter 12) and the bus master under it (R98 to R102): descriptor fetch, the checks of a
command, line requests, completion records, interrupts, host reads and their failures. -/

namespace Sys2Proof.Machine

def Dev.modRng (d : Dev) (f : Rings → Rings) : Dev := { d with rng := f d.rng }
def ringKey (s r : Nat) : Nat := s * 8 + r
def ringUnit (s : Nat) : Nat := 0x0B00 + s

/-- The head that a ring set reads and writes through (R311). -/
def Dev.setHead (d : Dev) (s : Nat) : Nat := if s < 16 then d.ldHead s else d.hp.mgmtHead

/-- Slots of a ring of SIZE `z`. -/
def slotsOf (z : Nat) : Nat := 2 ^ z
def Dev.crSlots (d : Dev) (s r : Nat) : Nat := slotsOf (d.fld (.rngCrCtrl s r) F.rngCrCtrl_SIZE)
def Dev.cqSlots (d : Dev) (s q : Nat) : Nat := slotsOf (d.fld (.rngCqCtrl s q) F.rngCqCtrl_SIZE)
def Dev.crEn (d : Dev) (s r : Nat) : Bool := d.flag (.rngCrCtrl s r) F.rngCrCtrl_EN
def Dev.cqEn (d : Dev) (s q : Nat) : Bool := d.flag (.rngCqCtrl s q) F.rngCqCtrl_EN
def Dev.crHead (d : Dev) (s r : Nat) : Nat := d.fld (.rngCrStat s r) F.rngCrStat_HEAD
def Dev.crTail (d : Dev) (s r : Nat) : Nat := d.fld (.rngCrTail s r) F.rngCrTail_TAIL
def Dev.cqTail (d : Dev) (s q : Nat) : Nat := d.fld (.rngCqStat s q) F.rngCqStat_TAIL
def Dev.cqHead (d : Dev) (s q : Nat) : Nat := d.fld (.rngCqHead s q) F.rngCqHead_HEAD
/-- The completion ring is full (R321). -/
def Dev.cqFull (d : Dev) (s q : Nat) : Bool := d.cqEn s q && (d.cqTail s q + 1) % d.cqSlots s q == d.cqHead s q

def Dev.prefetched (d : Dev) (s r : Nat) : List (Nat × Line) := kvGet (fun _ => []) d.rng.pre (ringKey s r)

/-- Commands fetched and not yet posted (ACTIVE), and running (RUN), of a command ring (Table 12.9). -/
def Dev.crActive (d : Dev) (s r : Nat) : Bool :=
  !(d.prefetched s r).isEmpty || (d.rng.run.any fun c => c.set == s && c.ring == r) ||
    d.rng.fin.any fun f => f.set == s && f.ring == r
def Dev.crRunning (d : Dev) (s r : Nat) : Nat := (d.rng.run.filter fun c => c.set == s && c.ring == r).length

/-- The crossing that carries a ring's doorbells to the ring engine (R45, Table 2.7). -/
def Dev.tailX (d : Dev) (s r : Nat) : XId := .headVal (d.setHead s) (.tail s r)

/-- The tail that the ring engine has received. -/
def Dev.tailRecv (d : Dev) (s r : Nat) : Nat := ((d.xval (d.tailX s r)).recv).getD 0

/-- A ring that is enabled starts with an idle doorbell crossing (log entry 111). -/
def Dev.setTailRecv (d : Dev) (s r v : Nat) : Dev := d.setXval (d.tailX s r) { recv := some v }

/-! ### Enabling and disabling (R312, R313) -/

/-- CR_ENABLE (R312). -/
def Dev.crEnable (d : Dev) (s r : Nat) : Dev :=
  let z := d.fld (.rngCrCtrl s r) F.rngCrCtrl_SIZE
  if d.crEn s r then d
  else if z < 4 ∨ 16 < z ∨ !d.cqEn s (d.fld (.rngCrCtrl s r) F.rngCrCtrl_CQ) ∨ (s < 16 ∧ !d.bound s) then
    d.setFlag (.rngCrCtrl s r) F.rngCrCtrl_ERR true
  else
    let d := ((d.setTailRecv s r 0).setFlag (.rngCrCtrl s r) F.rngCrCtrl_EN true).setFld (.rngCrStat s r) F.rngCrStat_HEAD 0
    (d.setFld (.rngCrTail s r) F.rngCrTail_TAIL 0).setFlag (.rngCrStat s r) F.rngCrStat_ERRSTOP false

/-- Reads for the uses that `mine` selects are given up: what they bring is dropped. -/
def Head.abandonReads (mine : ReadUse → Bool) (h : Head) : Head :=
  { h with reads := h.reads.map fun x => if mine x.use then { x with use := .abandoned } else x }
def Dev.abandonReads (d : Dev) (mine : ReadUse → Bool) : Dev :=
  { d with hp := { d.hp with heads := d.hp.heads.map (Head.abandonReads mine) } }

/-- Descriptor reads of a ring that are under way are given up: nothing more is fetched. -/
def Dev.dropFetches (d : Dev) (s r : Nat) : Dev :=
  let mine (u : ReadUse) : Bool := match u with | .descriptors s' r' _ _ => s' == s && r' == r | _ => false
  let d := d.abandonReads mine
  d.modRng fun g => { g with fetching := g.fetching.filter (· != ringKey s r),
                             fetched := g.fetched.filter (·.1 != ringKey s r) }

/-- CR_DISABLE (R312): commands already fetched still run. -/
def Dev.crDisable (d : Dev) (s r : Nat) : Dev :=
  if d.crEn s r then
    ((d.setFld (.rngCrTail s r) F.rngCrTail_TAIL (d.tailRecv s r)).setFlag (.rngCrCtrl s r) F.rngCrCtrl_EN false).dropFetches s r
  else d

/-- CQ_ENABLE (R313). -/
def Dev.cqEnable (d : Dev) (s q : Nat) : Dev :=
  let z := d.fld (.rngCqCtrl s q) F.rngCqCtrl_SIZE
  if d.cqEn s q then d
  else if z < 4 ∨ 16 < z then d.setFlag (.rngCqCtrl s q) F.rngCqCtrl_ERR true
  else
    let d := (d.setFlag (.rngCqCtrl s q) F.rngCqCtrl_EN true).setFld (.rngCqStat s q) F.rngCqStat_TAIL 0
    let d := (d.setFlag (.rngCqStat s q) F.rngCqStat_PHASE true).setFld (.rngCqHead s q) F.rngCqHead_HEAD 0
    d.modRng fun g => { g with irq := kvDel g.irq (ringKey s q) }

/-- CQ_DISABLE (R313). -/
def Dev.cqDisable (d : Dev) (s q : Nat) : Dev :=
  let named := (List.range 8).any fun r => d.crEn s r && d.fld (.rngCrCtrl s r) F.rngCrCtrl_CQ == q
  let due := (d.rng.run.any fun c => c.set == s && c.cq == q) || (d.rng.fin.any fun f => f.set == s && f.cq == q) ||
    (List.range 8).any fun r => d.fld (.rngCrCtrl s r) F.rngCrCtrl_CQ == q && !(d.prefetched s r).isEmpty
  if !d.cqEn s q then d
  else if named || due then d.setFlag (.rngCqCtrl s q) F.rngCqCtrl_ERR true
  else (d.setFlag (.rngCqCtrl s q) F.rngCqCtrl_EN false).modRng fun g => { g with irq := kvDel g.irq (ringKey s q) }

/-! ### Completion records and interrupts (R319 to R321, R334) -/

def Dev.coalesce (d : Dev) (s q : Nat) : Coalesce := kvGet (fun _ => {}) d.rng.irq (ringKey s q)
def Dev.setCoalesce (d : Dev) (s q : Nat) (c : Coalesce) : Dev :=
  d.modRng fun g => { g with irq := kvSet (fun _ => {}) g.irq (ringKey s q) c }

/-- Sends a completion ring's message. -/
def Dev.ringMessage (d : Dev) (s q : Nat) : Dev :=
  ((d.count .message s).emit (.msix s (d.fld (.rngCqCtrl s q) F.rngCqCtrl_VECTOR))).setCoalesce s q {}

/-- A record has been posted: it counts toward the next message when it is eligible. -/
def Dev.ringEligible (d : Dev) (s q : Nat) (irq : Bool) (status : Nat) : Dev :=
  let mode := d.fld (.rngCqCtrl s q) F.rngCqCtrl_IMODE
  if mode = 0 ∨ (mode = 1 ∧ !irq ∧ status = 0) then d
  else
    let n := (d.coalesce s q).count + 1
    if max 1 (d.fld (.rngCqCtrl s q) F.rngCqCtrl_ICOUNT) ≤ n then d.ringMessage s q
    else d.setCoalesce s q { count := n, timer := d.fld (.rngCqCtrl s q) F.rngCqCtrl_ITIME != 0 }

/-- INTERRUPT_COALESCING_TIMEOUT (R334). -/
def Dev.coalesceTimeout (d : Dev) (s q : Nat) : Dev :=
  if (d.coalesce s q).timer && d.cqEn s q then d.ringMessage s q else d

/-- The 32 bytes of a completion record (Table 12.4). -/
def RingFin.bytes (f : RingFin) (phase : Bool) : List Nat :=
  toBytes 4 f.tag ++ toBytes 2 f.chead ++ [f.ring % 8, f.status] ++ toBytes 8 f.r0 ++ toBytes 8 f.r1 ++ toBytes 6 f.r2 ++
    [0, b2n phase * 128]

/-- Writes a completion record and moves TAIL; the phase inverts when TAIL wraps (R319, R320). After a host error of its LD the record's
bytes are free (R7). -/
def Dev.postRecord (d : Dev) (f : RingFin) : Dev :=
  let d := d.count .cmdStatus f.set f.status
  let tail := d.cqTail f.set f.cq
  let st : Reg := .rngCqStat f.set f.cq
  let phase := d.flag st F.rngCqStat_PHASE
  let addr := d.fld (.rngCqBase f.set f.cq) F.rngCqBase_BASE * 32 + 32 * tail
  let bytes := f.bytes phase
  let (d, bytes) := if d.isWild f.set then (d.draw.1, toBytes 32 (Config.wildLine d.draw.2).toNat) else (d, bytes)
  let d := d.emit (.hostWrite (d.setHead f.set) addr bytes false)
  let next := (tail + 1) % d.cqSlots f.set f.cq
  let d := d.setFld st F.rngCqStat_TAIL next
  let d := if next = 0 then d.setFlag st F.rngCqStat_PHASE (!phase) else d
  let d := if d.cqFull f.set f.cq then d.setFlag st F.rngCqStat_FULL_SEEN true else d
  d.ringEligible f.set f.cq f.irq f.status

/-- Posts a finished command's record, or keeps it while its completion ring is full (R321). -/
def Dev.post (d : Dev) (f : RingFin) : Dev :=
  if !d.cqEn f.set f.cq then d
  else if d.cqFull f.set f.cq then (d.count .cqStall f.set).modRng fun g => { g with fin := g.fin ++ [{ f with held := true }] }
  else d.postRecord f

/-- COMMAND_COMPLETE (R319): the oldest finished command that no full ring holds is posted. -/
def Dev.commandComplete (d : Dev) : Dev :=
  match d.rng.fin.find? fun f => !f.held with
  | none => d
  | some f => (d.modRng fun g => { g with fin := g.fin.erase f }).post f

/-- Held records of a completion ring post in finishing order while there is room. -/
def Dev.postHeld (d : Dev) (s q : Nat) : Dev :=
  (d.rng.fin.filter fun f => f.held && f.set == s && f.cq == q).foldl (fun d f =>
    if d.cqFull s q then d else (d.modRng fun g => { g with fin := g.fin.erase f }).postRecord f) d

/-- A HEAD that passes TAIL, or lies outside the ring, is a host error (R320). -/
def Dev.cqHeadError (d : Dev) (s q v : Nat) : Bool :=
  let n := d.cqSlots s q
  d.cqEn s q && (decide (n ≤ v) ||
    decide ((d.cqTail s q + n - d.cqHead s q) % n < (v + n - d.cqHead s q) % n))

/-- CQ_HEAD_WRITE (R321). A host error of an LD makes the LD's ring state unpredictable; the management view's own has no effect (log
entry 15). -/
def Dev.cqHeadWrite (d : Dev) (s q v : Nat) : Dev :=
  if d.cqHeadError s q v then d.goWild s
  else if d.cqEn s q then (d.setFld (.rngCqHead s q) F.rngCqHead_HEAD v).postHeld s q else d

/-! ### Doorbells and descriptor fetch (R314, R315) -/

/-- Descriptors of a command ring from HEAD up to a tail. -/
def Dev.crAhead (d : Dev) (s r tail : Nat) : Nat := (tail + d.crSlots s r - d.crHead s r) % d.crSlots s r

/-- TAIL outside the ring is a host error, and so is one that goes round past HEAD, which leaves more than 2^SIZE − 1 descriptors
outstanding (R315). -/
def Dev.doorbellError (d : Dev) (s r v : Nat) : Bool :=
  d.crEn s r && (decide (d.crSlots s r ≤ v) || decide (d.crAhead s r v < d.crAhead s r (d.crTail s r)))

/-- DOORBELL (R314): the register holds the tail, and the head offers it to the ring engine as a value (R45). -/
def Dev.doorbell (d : Dev) (s r v : Nat) : Dev :=
  if d.doorbellError s r v then d.goWild s
  else if d.crEn s r then (d.setFld (.rngCrTail s r) F.rngCrTail_TAIL v).offerValue (d.tailX s r) v else d

/-- A tag is free and fewer than 512 reads are outstanding (R98, R102). -/
def Dev.canRead (d : Dev) (h : Nat) : Bool := !(d.head h).free.isEmpty && decide ((d.head h).reads.length < 512)

/-- Completion timeout in µs of an encoding (Table 4.10). -/
def ctoMicros (e : Nat) : Nat :=
  match e with
  | 1 => 80 | 2 => 8000 | 6 => 160000 | 9 => 700000 | 10 => 3000000 | 13 => 10000000 | 14 => 50000000 | _ => 40000

/-- Issues a read of host memory (R98, R99). -/
def Dev.hostRead (d : Dev) (h addr len : Nat) (use : ReadUse) : Dev :=
  match (d.head h).free with
  | [] => d
  | tag :: rest =>
    let x : BmRead := { tag := tag, addr := addr, len := len, got := [], timeout := ctoMicros (d.cto h), use := use }
    (d.modHead h fun y => { y with free := rest, reads := y.reads ++ [x] }).emit (.hostRead h tag addr len (d.relaxed h))

/-- Bytes of one read from `addr`, at most `want` (R98). -/
def Dev.readLen (d : Dev) (h addr want : Nat) : Nat := min want (min (min (d.mrrs h) 512) (4096 - addr % 4096))

/-- Descriptors held in, or on their way to, prefetch memory (2 MiB: 32,768 descriptors). -/
def Dev.prefetchUse (d : Dev) : Nat :=
  (d.rng.pre.map fun p => p.2.length).sum + 8 * (d.rng.fetching.length + d.rng.fetched.length)

/-- One descriptor read, of the first ring that has descriptors to fetch, as far as the ring engine has received its tail, and no read
under way. -/
def Dev.fetchStep (d : Dev) : Option Dev :=
  (List.range 136).findSome? fun k =>
    let s := k / 8
    let r := k % 8
    let head := d.crHead s r
    let tail := d.tailRecv s r
    let slots := d.crSlots s r
    let h := d.setHead s
    if !d.crEn s r || head == tail || decide (slots ≤ tail) || d.flag (.rngCrStat s r) F.rngCrStat_ERRSTOP || d.rng.fetching.contains k
        || (d.rng.fetched.any fun f => f.1 == k) || !d.canRead h || decide (32760 < d.prefetchUse) then none
    else
      let run := if head < tail then tail - head else slots - head
      let addr := d.fld (.rngCrBase s r) F.rngCrBase_BASE * 64 + 64 * head
      let n := max 1 (d.readLen h addr (64 * min 8 run) / 64)
      some ((d.hostRead h addr (64 * n) (.descriptors s r head n)).modRng fun g => { g with fetching := g.fetching ++ [k] })

/-- DESCRIPTOR_FETCH (R314): descriptors that have been read enter prefetch memory, and HEAD advances. -/
def Dev.descriptorFetch (d : Dev) (s r : Nat) : Dev :=
  match d.rng.fetched.find? fun f => f.1 == ringKey s r with
  | none => d
  | some f =>
    let slots := d.crSlots s r
    let n := f.2.2.length
    let items := (List.range n).map fun i => ((f.2.1 + i) % slots, f.2.2.getD i 0)
    let d := d.modRng fun g => { g with fetched := g.fetched.erase f,
                                        pre := kvMod (fun _ => []) g.pre (ringKey s r) (· ++ items) }
    (d.count .descriptor s 0 n).setFld (.rngCrStat s r) F.rngCrStat_HEAD ((f.2.1 + n) % slots)

/-- A descriptor read has failed (R333): one DESC_FETCH record, ERRSTOP, and the ring-stopped record. -/
def Dev.descFail (d : Dev) (s r slot addr : Nat) : Dev :=
  let d := (d.setFlag (.rngCrStat s r) F.rngCrStat_ERRSTOP true).dropFetches s r
  let f : RingFin := { id := 0, set := s, ring := r, chead := slot, cq := d.fld (.rngCrCtrl s r) F.rngCrCtrl_CQ, ld := 0xFF,
                       tag := 0, irq := false, status := 0x11 }
  (d.post f).raise { vendorRec 0x0601 .warning (ringUnit s)
      ((if s < 16 then s else 0x1F) + r * 2 ^ 8 + slot * 2 ^ 16) with addr0 := addr }

/-! ### Starting commands (R318, R322, R323) -/

def RingOp.ofCode (c : Nat) : Option RingOp :=
  match c with
  | 0x00 => some .nop | 0x01 => some .setHint | 0x02 => some .tierPolicy | 0x03 => some .compPolicy
  | 0x04 => some .promote | 0x05 => some .demote | 0x08 => some .fill | 0x09 => some .zero | 0x0A => some .copy
  | 0x0B => some .sanitize | 0x10 => some .capQuery | 0x11 => some .releaseAck | 0x18 => some .snapshot
  | 0x19 => some .sampleCfg | _ => none

/-- Byte field of a descriptor: `n` bytes from byte `i`. -/
def descField (x : Line) (i n : Nat) : Nat := bitsOf x.toNat (8 * (i + n) - 1) (8 * i)

/-- Acting LD of a descriptor on set `s`. -/
def actingLd (s : Nat) (x : Line) : Nat := if s < 16 then s else descField x 2 1 % 16

/-- The ring's first descriptor may start now (R102, R321, R322). -/
def Dev.mayStart (d : Dev) (s r : Nat) : Bool :=
  match d.prefetched s r with
  | [] => false
  | (_, x) :: _ =>
    let flags := descField x 1 1
    let q := d.fld (.rngCrCtrl s r) F.rngCrCtrl_CQ
    let ld := actingLd s x
    let mine (s' r' : Nat) : Bool := s' == s && r' == r
    let ofLd (s' l : Nat) : Bool := l == ld && (s' == s || (s == 16 && s' == ld))
    let fence := bitOf flags 1 && ((d.rng.run.any fun c => mine c.set c.ring) || d.rng.fin.any fun f => mine f.set f.ring && f.id != 0)
    let ldFence := bitOf flags 2 && ((d.rng.run.any fun c => ofLd c.set c.ld) || d.rng.fin.any fun f => ofLd f.set f.ld && f.id != 0)
    decide (d.crRunning s r < 8) && decide (d.rng.run.length < 256) && !d.cqFull s q && !fence && !ldFence &&
      d.canRead (d.setHead s)

/-- The ring whose turn it is: the first after the last served that may start a command. -/
def Dev.ringTurn (d : Dev) : Option (Nat × Nat) :=
  ((List.range 136).map fun i => (d.rng.turn + 1 + i) % 136).findSome? fun k =>
    if d.mayStart (k / 8) (k % 8) then some (k / 8, k % 8) else none

/-- Bytes of the acting LD's window; none while the window is not enabled. -/
def Dev.winBytes (d : Dev) (ld : Nat) : Nat := if d.winEn ld then d.winFields ld * 2 ^ 21 else 0

/-- Check 2 of R318: alignments, limits and codes. -/
def Dev.fieldsOk (d : Dev) (op : RingOp) (ld a b n x : Nat) : Bool :=
  let win := d.winBytes ld
  let al (v k : Nat) : Bool := v % k == 0
  let upTo (m : Nat) : Bool := decide (1 ≤ n ∧ n ≤ m)
  match op with
  | .nop | .capQuery => true
  | .setHint => al a 4096 && al n 4096 && decide (n ≤ win) && bitsOf x 9 8 != 3
  | .tierPolicy => al a (2 ^ 21) && upTo (2 ^ 27) && bitsOf x 5 4 != 3
  | .compPolicy => al a (2 ^ 21) && upTo (2 ^ 27) && bitsOf x 1 0 != 3
  | .promote | .demote => al a 4096 && upTo 1048576
  | .fill | .zero => al a 64 && al n 64 && upTo win
  | .copy =>
    let mode := bitsOf x 1 0
    al a 64 && al b 64 && al n 64 && mode != 3 && upTo (if mode = 0 then win else min win (2 ^ 40))
  | .sanitize => al a 4096 && al n 4096 && upTo win
  | .releaseAck => al a 16 && upTo 1024
  | .snapshot => al a 64 && upTo (2 ^ 30) && (bitOf x 63 || bitsOf x 31 16 != 0)
  | .sampleCfg => al a 4096 && decide (2 ^ 12 ≤ n ∧ n ≤ 2 ^ 30) && n == 2 ^ Nat.log2 n && decide (4 ≤ bitsOf x 4 0 ∧ bitsOf x 4 0 ≤ 20)

/-- Check 3 of R318: DPA ranges inside the window, as exact sums. -/
def Dev.rangeOk (d : Dev) (op : RingOp) (ld a b n x : Nat) : Bool :=
  let win := d.winBytes ld
  let within (p len : Nat) : Bool := decide (p + len ≤ win)
  match op with
  | .setHint | .fill | .zero | .sanitize => within a n
  | .tierPolicy | .compPolicy => within a (n * 2 ^ 21)
  | .promote | .demote => within a (n * 4096)
  | .copy => match bitsOf x 1 0 with
    | 0 => within a n && within b n
    | 1 => within a n
    | _ => within b n
  | _ => true

/-- The status that the checks of R318 give; 0: the command runs. -/
def Dev.ringCheck (d : Dev) (op : RingOp) (ld a b n x : Nat) : Nat :=
  if !d.fieldsOk op ld a b n x then 0x02
  else if !d.rangeOk op ld a b n x then 0x03
  else if op = .releaseAck ∧ !d.on31 ld then 0x04
  else 0

def RingCmd.fin (c : RingCmd) (status r0 r1 r2 : Nat) : RingFin :=
  { id := c.id, set := c.set, ring := c.ring, chead := c.chead, cq := c.cq, ld := c.ld, tag := c.tag, irq := c.irq,
    status := status, r0 := r0, r1 := r1, r2 := r2 }

/-- Takes the descriptor of the ring whose turn it is out of prefetch memory, as a command. -/
def Dev.takeCmd (d : Dev) (s r : Nat) (op : RingOp) : Option (RingCmd × Dev) :=
  match d.prefetched s r with
  | [] => none
  | (slot, x) :: rest =>
    let c : RingCmd :=
      { id := d.rng.nextCmd, set := s, ring := r, chead := (slot + 1) % d.crSlots s r,
        cq := d.fld (.rngCrCtrl s r) F.rngCrCtrl_CQ, ld := actingLd s x, tag := descField x 4 4, irq := bitOf (descField x 1 1) 0,
        hint := descField x 3 1 % 4, op := op, a := descField x 8 8, b := descField x 16 8, n := descField x 24 8,
        x := descField x 32 8 }
    some (c, (d.count .cmdOpcode s (descField x 0 1)).modRng fun g =>
      { g with pre := kvSet (fun _ => []) g.pre (ringKey s r) rest, nextCmd := g.nextCmd + 1, turn := ringKey s r })

/-- A descriptor whose opcode is not in Table 12.2 ends at once (R318). -/
def Dev.badOpcodeStep (d : Dev) : Option Dev :=
  match d.ringTurn with
  | none => none
  | some (s, r) => match d.prefetched s r with
    | [] => none
    | (_, x) :: _ =>
      if (RingOp.ofCode (descField x 0 1)).isSome then none
      else (d.takeCmd s r .nop).map fun (c, d) => d.modRng fun g => { g with fin := g.fin ++ [c.fin 0x01 0 0 0] }

/-- The next turn's command, when it has opcode `op`: refused by the checks of R318, or handed to `go`. -/
def Dev.startCmd (d : Dev) (op : RingOp) (go : RingCmd → Dev → Dev) : Dev :=
  match d.ringTurn with
  | none => d
  | some (s, r) => match d.prefetched s r with
    | [] => d
    | (_, x) :: _ =>
      if RingOp.ofCode (descField x 0 1) = some op then
        match d.takeCmd s r op with
        | none => d
        | some (c, d) =>
          let st := d.ringCheck op c.ld c.a c.b c.n c.x
          if st = 0 then go c d else d.post (c.fin st 0 0 0)
      else d

/-- A command that goes on after its start. -/
def Dev.ringRun (c : RingCmd) (d : Dev) : Dev := d.modRng fun g => { g with run := g.run ++ [c] }

def Dev.modCmd (d : Dev) (id : Nat) (f : RingCmd → RingCmd) : Dev :=
  d.modRng fun g => { g with run := g.run.map fun c => if c.id = id then f c else c }
def Dev.cmd (d : Dev) (id : Nat) : Option RingCmd := d.rng.run.find? (·.id == id)

/-- Results of a command as far as it has come (Table 12.6): bytes, first poisoned line and poisoned lines of a data command; the counts of
a PROMOTE or DEMOTE. -/
def RingCmd.soFar (c : RingCmd) : Nat × Nat × Nat :=
  let g (i : Nat) : Nat := c.counts.getD i 0
  match c.op with
  | .promote | .demote => (g 0 + g 1 * 2 ^ 32, g 2 + g 3 * 2 ^ 32, g 4)
  | .fill | .zero | .copy | .sanitize => (c.done, (c.first.map (c.a + ·)).getD 0, c.bad)
  | _ => (0, 0, 0)

/-- Line requests of stopped commands that have not been admitted yet are given up (R335). -/
def Dev.dropUnadmitted (d : Dev) (ids : List Nat) : Dev :=
  d.modHome fun h => { h with txns := h.txns.filter fun t => match t.src with
    | .ring cmd _ _ => !(t.phase == .entering && !t.pwait && ids.contains cmd)
    | _ => true }

/-- A running command finishes; its record waits for COMMAND_COMPLETE. -/
def Dev.ringFinish (d : Dev) (c : RingCmd) (status r0 r1 r2 : Nat) : Dev :=
  d.modRng fun g => { g with run := g.run.filter (·.id != c.id), fin := g.fin ++ [c.fin status r0 r1 r2] }

/-- A running command is stopped with a status: what it has come to is in its record. -/
def Dev.ringStop (d : Dev) (c : RingCmd) (status : Nat) : Dev :=
  (d.dropUnadmitted [c.id]).ringFinish c status c.soFar.1 c.soFar.2.1 c.soFar.2.2

/-! ### Commands that end at once (R329 to R331, R453) -/

/-- First line of an LD-relative DPA. -/
def Dev.ldLine (d : Dev) (ld off : Nat) : Nat := (d.winBase ld * 2 ^ 21 + off) / 64

def Dev.pinCount (d : Dev) : Nat := (d.swLines.filter fun l => ((d.sw l).map (·.pin != .none)).getD false).length

/-- SET_HINT (R329). -/
def Dev.setHint (c : RingCmd) (d : Dev) : Dev :=
  let id := bitsOf c.x 4 0
  let rest := d.home.pol.filter fun p => !(p.ld == c.ld && p.id == id)
  let new : PolRange := { ld := c.ld, id := id, first := d.ldLine c.ld c.a, lines := c.n / 64, hint := bitsOf c.x 9 8 }
  let before := d.pinCount
  let d := (d.modHome fun h => { h with pol := if c.n = 0 then rest else rest ++ [new] }).repin
  d.post (c.fin 0 (before - d.pinCount) 0 0)

/-- Writes a policy into the descriptors of a command's fields (R330). -/
def Dev.policy (c : RingCmd) (f : Desc → Desc) (d : Dev) : Dev :=
  let first := d.winBase c.ld + c.a / 2 ^ 21
  let (d, done) := (List.range c.n).foldl (fun (p : Dev × Nat) i =>
    let ds := p.1.desc (first + i)
    if ds.v && ds.tiered && !ds.fpois then (p.1.putDesc (first + i) (f ds), p.2 + 1) else p) (d, 0)
  d.post (c.fin 0 done (c.n - done) 0)

/-- TIER_POLICY (R330). -/
def Dev.tierPolicy (c : RingCmd) (d : Dev) : Dev :=
  d.policy c fun ds =>
    { ds with tpol := if bitOf c.x 8 then bitsOf c.x 1 0 else ds.tpol, rpromo := if bitOf c.x 9 then bitsOf c.x 5 4 else ds.rpromo }

/-- COMP_POLICY (R330). -/
def Dev.compPolicy (c : RingCmd) (d : Dev) : Dev :=
  d.policy c fun ds =>
    { ds with cpol := if bitOf c.x 24 then bitsOf c.x 1 0 else ds.cpol,
              thresh := if bitOf c.x 25 then bitsOf c.x 11 8 else ds.thresh,
              budget := if bitOf c.x 26 then bitsOf c.x 19 16 else ds.budget }

/-- CAP_QUERY (R331, Table 12.6). -/
def Dev.capQuery (c : RingCmd) (d : Dev) : Dev :=
  let n := c.ld
  let st (f : Fld) : Nat := d.fld .tedPoolStat f
  let r0 := d.fld (.tedLdcap n) F.tedLdcap_COMMIT + d.fld (.tedLdcap n) F.tedLdcap_QUOTA * 2 ^ 32 +
    d.fld (.tedLdcap n) F.tedLdcap_OVC * 2 ^ 48 + st F.tedPoolStat_FLOOR * 2 ^ 61 + st F.tedPoolStat_REL * 2 ^ 62 +
    st F.tedPoolStat_LOW * 2 ^ 63
  d.post (c.fin 0 r0 (d.foot n) (d.extentPages n))

/-! ### PROMOTE and DEMOTE (R160, R330) -/

def Dev.ringPages (d : Dev) (c : RingCmd) : List Nat :=
  List.range' ((d.winBase c.ld * 2 ^ 21 + c.a) / 4096) c.n

def Dev.ringPromote (c : RingCmd) (d : Dev) : Dev :=
  (d.ringPages c).foldl (fun d p => d.askPromo p .ring [c.id]) (d.ringRun c)

def Dev.ringDemote (c : RingCmd) (d : Dev) : Dev :=
  (d.ringPages c).foldl (fun d p => d.queueMove p .demote (some c.id) (bitsOf c.x 3 0) false) (d.ringRun c)

def bumpAt (l : List Nat) (i k : Nat) : List Nat := l.modify i (· + k)

/-- Index into `counts` of what became of a page: the four counts of Table 12.6; the fifth holds sheaves. -/
def RingNote.slot : RingNote → Nat
  | .promoted => 0 | .alreadySward => 1 | .promoSkipped => 2 | .poisonedAtFloor => 3
  | .madeFallow _ => 0 | .madeBare => 1 | .staysSward => 2 | .demoteSkipped => 3

/-- A page of a PROMOTE or DEMOTE is settled. -/
def Dev.noteStep (d : Dev) : Option Dev :=
  match d.ted.notes with
  | [] => none
  | (id, n) :: rest =>
    let d := d.modTed fun t => { t with notes := rest }
    match d.cmd id with
    | none => some d
    | some c =>
      let l := bumpAt c.counts n.slot 1
      let l := match n with | .madeFallow k => bumpAt l 4 k | _ => l
      let c := { c with counts := l, settled := c.settled + 1 }
      if c.n ≤ c.settled then some (d.ringFinish c 0 c.soFar.1 c.soFar.2.1 c.soFar.2.2)
      else some (d.modCmd id fun _ => c)

/-! ### Line requests (R324 to R328) -/

/-- A non-caching request of a ring command. -/
def Dev.ringTxn (d : Dev) (c : RingCmd) (op : HomeOp) (off : Nat) (data : Line) (poison : Bool) (hint : Nat) : Dev :=
  d.addTxn { id := 0, src := .ring c.id (off / 64) (if c.set < 16 then c.set else 16), op := op,
             line := d.ldLine c.ld off, own := c.ld, hint := hint, data := data, mask := BitVec.allOnes 64, poison := poison,
             t0 := d.nowNs }

/-- Eight copies of an 8-byte pattern. -/
def patternLine (p : Nat) : Line := BitVec.ofNat 512 (ofBytes ((List.replicate 8 (toBytes 8 p)).flatten))

/-- Most line requests of one command in flight. -/
def ringWindow : Nat := 64

/-- The position of a command is a whole page that it treats as a page (R327, R328). -/
def Dev.wholePage (d : Dev) (c : RingCmd) : Bool :=
  let off := c.a + c.pos
  match c.op with
  | .sanitize => true
  | .zero =>
    let ds := d.desc (d.winBase c.ld + off / 2 ^ 21)
    off % 4096 == 0 && decide (c.pos + 4096 ≤ c.n) && ds.v && ds.tiered && !ds.fpois
  | _ => false

/-- Lines of the page at the position are taken as writes that write nothing (R328 step 1). -/
def Dev.takePage (d : Dev) (c : RingCmd) : Dev :=
  let d := (List.range 64).foldl (fun d i => d.ringTxn c .ncDrop (c.a + c.pos + 64 * i) 0 false 1) d
  d.modCmd c.id fun c => { c with page := .drop, out := 64 }

/-- COPY in mode 0 works downward when its destination lies above its source inside the range, so that no line is written before
it has been read (R326). -/
def RingCmd.copyOff (c : RingCmd) : Nat := if c.b < c.a ∧ c.a < c.b + c.n then c.n - 64 - c.pos else c.pos

/-- What a command issues next; none while it waits. -/
def Dev.cmdIssue (d : Dev) (c : RingCmd) : Option Dev :=
  match c.op with
  | .fill =>
    if c.pos < c.n ∧ c.out < ringWindow then
      some ((d.ringTxn c .ncWrite (c.a + c.pos) (patternLine c.x) false c.hint).modCmd c.id fun c =>
        { c with pos := c.pos + 64, out := c.out + 1 })
    else none
  | .zero | .sanitize =>
    if c.page ≠ .none ∨ c.n ≤ c.pos then none
    else if d.wholePage c then (if c.out = 0 then some (d.takePage c) else none)
    else if c.out < ringWindow then
      some ((d.ringTxn c .ncWrite (c.a + c.pos) 0 false c.hint).modCmd c.id fun c =>
        { c with pos := c.pos + 64, out := c.out + 1 })
    else none
  | .copy =>
    match bitsOf c.x 1 0 with
    | 0 =>
      if c.out = 0 ∧ c.pos < c.n then
        some ((d.ringTxn c .ncRead (c.b + c.copyOff) 0 false 1).modCmd c.id fun c => { c with out := 1, reading := true })
      else none
    | 1 =>
      let h := d.setHead c.set
      if c.out = 0 ∧ !c.reading ∧ c.pos < c.n ∧ d.canRead h then
        let len := d.readLen h (c.b + c.pos) (c.n - c.pos)
        some ((d.hostRead h (c.b + c.pos) len (.copySource c.id c.pos len)).modCmd c.id fun c => { c with reading := true })
      else none
    | _ =>
      if c.pos < c.n ∧ c.out < ringWindow then
        some ((d.ringTxn c .ncRead (c.b + c.pos) 0 false 1).modCmd c.id fun c => { c with pos := c.pos + 64, out := c.out + 1 })
      else none
  | .releaseAck =>
    let h := d.setHead c.set
    let total := 16 * c.n
    if c.removing then
      if d.hp.removals.any fun r => r.origin == 2 + c.id then none
      else some (d.ringFinish c 0 c.n (c.counts.getD 0 0) 0)
    else if !c.reading ∧ c.pos < total ∧ d.canRead h then
      let len := d.readLen h (c.a + c.pos) (total - c.pos)
      some ((d.hostRead h (c.a + c.pos) len (.extentList c.id c.pos len)).modCmd c.id fun c => { c with reading := true })
    else none
  | _ => none

def Dev.issueStep (d : Dev) : Option Dev := d.rng.run.findSome? fun c => d.cmdIssue c

/-- A data command has done its last byte: its status and results (Tables 12.5, 12.6). -/
def Dev.dataEnd (d : Dev) (c : RingCmd) : Dev :=
  if c.done < c.n then d.modCmd c.id fun _ => c
  else d.ringFinish c (if c.bad = 0 then 0 else 0x06) c.soFar.1 c.soFar.2.1 c.soFar.2.2

def RingCmd.poisoned (c : RingCmd) (off : Nat) (p : Bool) : RingCmd :=
  if p then { c with bad := c.bad + 1, first := some (match c.first with | some f => min f off | none => off) } else c

/-- The page whose lines have all been taken: the zero path or the erasure; a failed commit repeats the taking (R327, R328). -/
def Dev.pageCommit (m : Dram) (d : Dev) (c : RingCmd) : Dev :=
  let sanit (k : EvKind) (d : Dev) : Dev := if c.op = .sanitize then d.count k c.set else d
  match d.zeroPath m ((d.winBase c.ld * 2 ^ 21 + c.a + c.pos) / 4096) with
  | some d => (sanit .pageSanitized d).dataEnd { c with out := 0, page := .none, pos := c.pos + 4096, done := c.done + 4096 }
  | none => (sanit .sanitizeRetry d).modCmd c.id fun _ => { c with out := 0, page := .again }

/-- The result of a line request reaches its command. -/
def Dev.ringLine (m : Dram) (d : Dev) (c : RingCmd) (r : RingRes) : Dev :=
  if c.page = .drop then
    if c.out ≤ 1 then d.pageCommit m c else d.modCmd c.id fun c => { c with out := c.out - 1 }
  else match c.op, bitsOf c.x 1 0 with
    | .copy, 0 =>
      let off := c.copyOff
      if c.reading then
        let c := ({ c with reading := false } : RingCmd).poisoned off r.poison
        (d.modCmd c.id fun _ => c).ringTxn c .ncWrite (c.a + off) r.data r.poison c.hint
      else (d.count .lineWritten c.set 2).dataEnd { c with out := 0, pos := c.pos + 64, done := c.done + 64 }
    | .copy, 1 => (d.count .lineWritten c.set 2).dataEnd { c with out := c.out - 1, done := c.done + 64 }
    | .copy, _ =>
      let off := r.idx * 64 - c.b
      let d := d.emit (.hostWrite (d.setHead c.set) (c.a + off) (toBytes 64 r.data.toNat) r.poison)
      d.dataEnd (({ c with out := c.out - 1, done := c.done + 64 } : RingCmd).poisoned off r.poison)
    | op, _ => (d.count .lineWritten c.set (if op = .fill then 0 else 1)).dataEnd { c with out := c.out - 1, done := c.done + 64 }

def Dev.ringDoneStep (m : Dram) (d : Dev) : Option Dev :=
  match d.home.ringDone with
  | [] => none
  | r :: rest =>
    let d := d.modHome fun h => { h with ringDone := rest }
    match d.cmd r.cmd with
    | none => some d
    | some c => some (d.ringLine m c r)

/-- Pages whose commit has failed are taken again. -/
def Dev.retakePages (d : Dev) : Dev :=
  (d.rng.run.filter fun c => c.page == .again).foldl (fun d c => d.takePage { c with page := .none }) d

/-! ### RELEASE_ACK (R331) -/

/-- The list has been read: every entry is an extent that the LD holds and none is named twice, or nothing is released. -/
def Dev.releaseList (d : Dev) (c : RingCmd) : Dev :=
  let entry (i : Nat) : Nat × Nat := (ofBytes ((c.buf.drop (16 * i)).take 8), ofBytes ((c.buf.drop (16 * i + 8)).take 8))
  let held (p : Nat × Nat) : Option Extent := (d.extents c.ld).find? fun e => e.first * 2 ^ 21 == p.1 && e.fields * 2 ^ 21 == p.2
  let bad (i : Nat) : Bool := (held (entry i)).isNone || (List.range i).any fun j => entry j == entry i
  match (List.range c.n).find? bad with
  | some i => d.ringFinish c 0x03 i 0 0
  | none =>
    let es := (List.range c.n).filterMap fun i => held (entry i)
    let d := es.foldl (fun d e => d.beginRemoval c.ld e (2 + c.id)) d
    d.modCmd c.id fun c => { c with removing := true, counts := [(es.map (·.fields)).sum] }

/-! ### Host reads (R98 to R102, R333) -/

/-- A host read of a command has failed: the command stops with HOST_READ. Its line requests that are on their way complete. -/
def Dev.readFailed (d : Dev) (x : BmRead) : Dev :=
  match x.use with
  | .descriptors s r slot _ => d.descFail s r slot x.addr
  | .copySource id _ _ | .extentList id _ _ =>
    match d.cmd id with
    | none => d
    | some c => d.ringStop c 0x10
  | .abandoned => d

/-- A host read is complete. -/
def Dev.readDone (d : Dev) (x : BmRead) (bytes : List Nat) : Dev :=
  let line (i : Nat) : Line := BitVec.ofNat 512 (ofBytes ((bytes.drop (64 * i)).take 64))
  match x.use with
  | .descriptors s r slot n =>
    d.modRng fun g => { g with fetching := g.fetching.filter (· != ringKey s r),
                               fetched := g.fetched ++ [(ringKey s r, slot, (List.range n).map line)] }
  | .copySource id off len =>
    match d.cmd id with
    | none => d
    | some c =>
      let k := len / 64
      let d := (List.range k).foldl (fun d i => d.ringTxn c .ncWrite (c.a + off + 64 * i) (line i) false c.hint) d
      d.modCmd id fun c => { c with reading := false, pos := c.pos + len, out := k }
  | .extentList id _ len =>
    match d.cmd id with
    | none => d
    | some c =>
      let c := { c with reading := false, pos := c.pos + len, buf := c.buf ++ bytes }
      let d := d.modCmd id fun _ => c
      if 16 * c.n ≤ c.pos then d.releaseList c else d
  | .abandoned => d

def Dev.dropRead (d : Dev) (h tag : Nat) : Dev := d.modHead h fun y => { y with reads := y.reads.filter (·.tag != tag) }
/-- The tag goes to the tail of the free pool. -/
def Dev.freeTag (d : Dev) (h tag : Nat) : Dev := d.modHead h fun y => { y with free := y.free ++ [tag] }

/-- The LD that a read is tied to: that of the LD ring set it is for; 0xFF where it is for the management set's. -/
def Dev.useLd (d : Dev) : ReadUse → Nat
  | .descriptors s _ _ _ => if s < 16 then s else 0xFF
  | .copySource id _ _ | .extentList id _ _ => match d.cmd id with
    | some c => if c.set < 16 then c.set else 0xFF
    | none => 0xFF
  | .abandoned => 0xFF

/-- A late completion (R100, R101). -/
def Dev.lateCompletion (d : Dev) (h tag addr : Nat) : Dev :=
  let d := (d.count .lateCompletion h).aer h 0xFF .unexpectedCompletion
  d.raise { vendorRec 0x0020 .warning (0x200 + h) (tag % 1024 + addr / 4096 * 4096) with head := h }

/-- READ_COMPLETION (R100, R101, R333). `idOk`: the requester ID agrees. -/
def Dev.readCompletion (d : Dev) (h tag : Nat) (idOk : Bool) (count lower : Nat) (st : CplStatus) (data : List Nat) : Dev :=
  match (d.head h).reads.find? (·.tag == tag) with
  | some x =>
    let left := x.len - x.got.length
    if !idOk || count != left || lower != (x.addr + x.got.length) % 128 || (st == .ok && (data.isEmpty || decide (left < data.length))) then
      d.lateCompletion h tag x.addr
    else
      match st with
      | .ok =>
        let got := x.got ++ data
        if got.length < x.len then
          d.modHead h fun y => { y with reads := y.reads.map fun z => if z.tag = tag then { z with got := got } else z }
        else ((d.dropRead h tag).freeTag h tag).readDone x got
      | .poisoned => (((d.dropRead h tag).freeTag h tag).aer h (d.useLd x.use) .poisonedTlp).readFailed x
      | _ => ((d.dropRead h tag).freeTag h tag).readFailed x
  | none =>
    match (d.head h).quar.find? (·.1 == tag) with
    | some q => d.lateCompletion h tag q.2
    | none => d.aer h 0xFF .unexpectedCompletion

/-- COMPLETION_TIMEOUT (R100). -/
def Dev.completionTimeout (d : Dev) (h tag : Nat) : Dev :=
  match (d.head h).reads.find? (·.tag == tag) with
  | none => d
  | some x =>
    let ld := d.useLd x.use
    let d := ((d.count .readTimeout h).dropRead h tag).modHead h fun y => { y with quar := y.quar ++ [(tag, x.addr)] }
    (d.aer h ld .completionTimeout).readFailed x

/-- TAG_QUARANTINE_END (R100). -/
def Dev.quarantineEnd (d : Dev) (h tag : Nat) : Dev :=
  if (d.head h).quar.any (·.1 == tag) then
    (d.modHead h fun y => { y with quar := y.quar.filter (·.1 != tag) }).freeTag h tag
  else d

/-- A head reset frees every tag of the head; its failed reads count as timed out (R104). Commands hear of the failure. -/
def Dev.freeAllTags (d : Dev) (h : Nat) : Dev :=
  let xs := (d.head h).reads
  let d := (if xs.isEmpty then d else d.count .readTimeout h 0 xs.length).modHead h fun y =>
    { y with free := y.free ++ (xs.map (·.tag) ++ y.quar.map (·.1)), reads := [], quar := [] }
  xs.foldl (fun d x => d.readFailed x) d

/-! ### Resets (R335) -/

/-- The registers of a ring set. -/
def ringRegs (s : Nat) : List Reg :=
  (List.range 8).flatMap (fun r => [Reg.rngCrBase s r, .rngCrCtrl s r, .rngCrTail s r, .rngCrStat s r,
    .rngCqBase s r, .rngCqCtrl s r, .rngCqHead s r, .rngCqStat s r]) ++ [.rngSnapstat s]

/-- A ring set returns to its reset state: its registers, prefetched descriptors and running commands. -/
def Dev.ringSetReset (d : Dev) (s : Nat) : Dev :=
  let mine (use : ReadUse) : Bool := match use with
    | .descriptors s' _ _ _ => s' == s
    | .copySource id _ _ | .extentList id _ _ => d.rng.run.any fun c => c.id == id && c.set == s
    | .abandoned => false
  let d := (d.abandonReads mine).dropUnadmitted ((d.rng.run.filter (·.set == s)).map (·.id))
  let d := (ringRegs s).foldl (fun d r => d.wr r r.resetNat) d
  let out (k : Nat) : Bool := k / 8 != s
  d.modRng fun g =>
    { g with pre := g.pre.filter fun p => out p.1, fetching := g.fetching.filter out, fetched := g.fetched.filter fun f => out f.1,
             run := g.run.filter fun c => c.set != s, fin := g.fin.filter fun f => f.set != s, irq := g.irq.filter fun p => out p.1 }

/-- RINGS_ABANDONED (R335): LD `n` is reset for `cause`. Commands of management rings that act on it end with ABORTED. -/
def Dev.ringsAbandon (d : Dev) (n cause : Nat) : Dev :=
  let k := (d.rng.run.filter fun c => c.set == n).length
  let d := d.ringSetReset n
  let mine := d.rng.run.filter fun c => c.set == 16 && c.ld == n
  let d := mine.foldl (fun d c => d.ringStop c 0x20) d
  d.raise { vendorRec 0x0602 .info (ringUnit n) (n + min k 255 * 2 ^ 8 + cause * 2 ^ 16) with ld := n }

end Sys2Proof.Machine
end

