-- ==== Sys2Proof/Machine/TallyOps.lean ====
section
/-! DEFINITION. The Tally reader and address sampling (chapter 17): snapshots, the sweep and its watches, sample records. -/

namespace Sys2Proof.Machine

/-! ### Counters (R434 to R438, Table 17.2) -/

/-- This device is a member of a cascade (R368, Table 14.1). -/
def Dev.isMember (d : Dev) : Bool := d.fld .casId F.casId_ROLE != 0

/-- The counter belongs to a unit that is off on a member (Table 14.1): host ports, home, Sward, Tedders, balers, cipher units, rings. -/
def Dev.counterOff (d : Dev) (id : Nat) : Bool := d.isMember && (decide (id < 2168) || (decide (3464 ≤ id) && decide (id < 3600)))

/-- What an event counter whose events the manual does not name has gained since the power-on or the device-wide reset. -/
def Dev.gained (d : Dev) (id : Nat) : Nat :=
  ((List.range (d.clk - d.mgt.bootClk)).map fun t => Config.counterStep id (d.mgt.bootClk + t) % 5).sum

/-- The part of an event counter that is not in the books yet: time in a power-down that goes on. -/
def Dev.underWay (d : Dev) (k : EvKey) : Nat := if k.kind = .powerDownTime then d.pdCycles k.unit k.part else 0

/-- A counter's value (R434). Of an event counter whose events are not named, `tally` holds the gain at which a parity error cleared it. -/
def Dev.counter (d : Dev) (id : Nat) : Nat :=
  let base := kvGet (fun _ => 0) d.tally id
  if d.counterOff id then 0
  else if 256 ≤ id ∧ id < 384 then base
  else match counterEvent id with
    | some k => (asGet 0 d.events k + d.underWay k) % 2 ^ 48
    | none => if Config.counterLevel id then (Config.counterValue id d.clk).toNat else (d.gained id - base) % 2 ^ 48

/-- The counter is set to 0 (R438); a level shows the present value of its quantity again. -/
def Dev.counterClear (d : Dev) (id : Nat) : Dev :=
  if 256 ≤ id ∧ id < 384 then { d with tally := kvSet (fun _ => 0) d.tally id 0 }
  else match counterEvent id with
    | some k => { d with events := asSet d.events k ((2 ^ 48 - d.underWay k % 2 ^ 48) % 2 ^ 48) }
    | none => { d with tally := kvSet (fun _ => 0) d.tally id (d.gained id) }

/-- The counter's island is in reset or powered down, or its unit is off on this device (Table 17.3): a head held in PERST_N, a Ley port
that is OFF, a channel in Hold, whose clocks are off (R425). -/
def Dev.counterHeld (d : Dev) (id : Nat) : Bool :=
  if d.counterOff id then true
  else if id < 256 then (d.head (id / 32)).perst
  else if 2168 ≤ id ∧ id < 3368 then d.inHold
  else if 3368 ≤ id ∧ id < 3464 then d.fld (.leyStat ((id - 3368) / 24)) F.leyStat_STATE == 0
  else false

/-- The counters that a ring set sees (R437). -/
def visibleCounters (s : Nat) : List Nat :=
  if s < 16 then List.range' (256 + 8 * s) 8 ++ List.range' (3464 + 8 * s) 8 else List.range 3608

/-- Time of read `i` of a pass that begins now (R439, R445). -/
def Dev.readTime (d : Dev) (i : Nat) : Nat := d.nowNs + ((List.range i).map fun j => 1 + Config.talGap d.clk j % 22).sum

/-- Why a counter's record is invalid: 1 snapshot buffer, 2 parity; 0 valid (Table 17.3). -/
def recInvalid (par ue : List Nat) (id : Nat) : Nat := if par.contains id then 2 else if ue.contains id then 1 else 0

/-- A snapshot record (Table 17.3). -/
def Dev.snapRecord (d : Dev) (par ue : List Nat) (i id : Nat) : Nat :=
  let inv := recInvalid par ue id
  b2n (inv == 0) * 2 ^ 127 + b2n (counterIsLevel id) * 2 ^ 126 + b2n (d.counterHeld id) * 2 ^ 125 + inv * 2 ^ 123 +
    (d.readTime i % 2 ^ 56) * 2 ^ 64 + id * 2 ^ 48 + (if inv = 0 then d.counter id else 0)

/-- What the errors met in a pass leave: parity clears the counter; buffer errors are flagged; each raises the limited record
(R438, R444, R455). -/
def Dev.passErrors (d : Dev) (par ue : List Nat) (ce : Nat) (image : Bool) : Dev :=
  let d := par.foldl (fun d id =>
    let d := (d.counterClear id).setFlag .talStat F.talStat_PAR_SEEN true
    d.raiseLimited 0 { vendorRec 0x0A02 .warning 0x0C00 (1 + id * 2 ^ 16) with addr1 := d.nowNs }) d
  let d := ue.foldl (fun d id =>
    (d.setFlag .talStat F.talStat_ECC_UE_SEEN true).raiseLimited 0
      { vendorRec 0x0A02 .warning 0x0C00 ((if image then 0xFFFF else id) * 2 ^ 16) with addr1 := d.nowNs }) d
  d.setFld .talStat F.talStat_ECC_CE (satTo 16 (d.fld .talStat F.talStat_ECC_CE + ce))

/-- Counters that a SNAPSHOT command selects (R442). -/
def snapSelect (s x : Nat) : List Nat :=
  let seen := visibleCounters s
  if bitOf x 63 then seen else seen.filter fun id => decide (bitsOf x 15 0 ≤ id) && decide (id < bitsOf x 15 0 + bitsOf x 31 16)

/-- SNAPSHOT_PASS (R441 to R444, R332): the snapshot that started first. `par`, `ue`: counters whose parity, or whose words of the
snapshot buffer, fail; `ce`: corrected errors. -/
def Dev.snapshotPass (d : Dev) (par ue : List Nat) (ce : Nat) : Dev :=
  match d.rng.run.find? fun c => c.op == .snapshot with
  | none => d
  | some c =>
    let sel := snapSelect c.set c.x
    let ids := sel.take (c.n / 16)
    let status := if ids.length < sel.length then 0x07 else 0
    let first := if ids.isEmpty then 0 else d.readTime 0
    let out := (List.range ids.length).map fun i => d.snapRecord par ue i (ids.getD i 0)
    let h := d.setHead c.set
    let d := (List.range out.length).foldl (fun d i => d.emit (.hostWrite h (c.a + 16 * i) (toBytes 16 (out.getD i 0)) false)) d
    let d := d.passErrors (par.filter ids.contains) (ue.filter ids.contains) ce false
    let seq := (d.fld (.rngSnapstat c.set) F.rngSnapstat_SEQ + 1) % 2 ^ 16
    let d := d.wr (.rngSnapstat c.set) (seq * 2 ^ 48 + status * 2 ^ 40 + c.ring * 2 ^ 32 + c.tag)
    d.ringFinish c status ids.length first seq

/-! ### The sweep (R441, R446) -/

def Dev.sweepPeriod (d : Dev) : Nat := max 100 (d.fld .talCtrl F.talCtrl_PERIOD) * 1000

/-- Evaluates one watch after a sweep, from the standing image. A counter whose parity failed stands at 0 from this sweep on (R438), which
is what the next change is taken from. -/
def Dev.watchEval (d : Dev) (par ue : List Nat) (k : Nat) : Dev :=
  let r : Reg := .talWatch k
  let id := d.fld r F.talWatch_ID
  if !d.flag r F.talWatch_EN || decide (3607 < id) || (ue.contains id && !par.contains id) then d
  else if par.contains id then { d with tal := { d.tal with prev := kvIns d.tal.prev k 0 } }
  else
    let v := d.tal.image.getD id 0
    let d' := { d with tal := { d.tal with prev := kvIns d.tal.prev k v } }
    match kvFind? d.tal.prev k with
    | none => d'
    | some old =>
      let test := if counterIsLevel id then v else (v + 2 ^ 48 - old) % 2 ^ 48
      let th := d.fld r F.talWatch_THRESH
      let below := d.flag r F.talWatch_BELOW
      if (if below then decide (test < th) else decide (th < test)) then
        (d'.setBit .talWatchstat k true).raiseLimited k
          { vendorRec 0x0A01 .warning 0x0C00 (k + b2n below * 2 ^ 4 + id * 2 ^ 16) with addr0 := test, addr1 := d.readTime id }
      else d'

/-- TALLY_SWEEP (R441): a sweep completes and the watches are evaluated. -/
def Dev.tallySweep (d : Dev) (par ue : List Nat) (ce : Nat) : Dev :=
  if !d.flag .talCtrl F.talCtrl_EN then { d with tal := { d.tal with sweep := {} } }
  else
    let now := d.nowNs
    let x := d.tal.sweep
    let p := d.sweepPeriod
    let (d, x) := if x.running then d.lagDone .sweep x now (now - x.grid) p else (d, Periodic.begin now p)
    let d := { d with tal := { d.tal with sweep := x, image := (List.range 3608).map d.counter } }
    let d := (List.range 16).foldl (fun d k => d.watchEval par ue k) d
    d.passErrors par ue ce true

/-- A write of TAL_WATCH*k*: one that changes ID or EN makes the next sweep store the value only. -/
def Dev.watchWrite (d : Dev) (k w : Nat) : Dev :=
  let r : Reg := .talWatch k
  let same := d.fld r F.talWatch_ID == bitsOf w 47 32 && d.fld r F.talWatch_EN == bitsOf w 63 63
  let d := d.writeFields r w
  if same then d else { d with tal := { d.tal with prev := kvDel d.tal.prev k } }

/-! ### Samples (R447 to R453) -/

def Dev.sampler (d : Dev) (n : Nat) : Sampler := d.samp.getD n {}
def Dev.modSampler (d : Dev) (n : Nat) (f : Sampler → Sampler) : Dev := { d with samp := d.samp.modify n f }

/-- A sample is dropped: it is counted, and the next record written carries LOSS (R451). -/
def Dev.dropSample (d : Dev) (n : Nat) : Dev := (d.countLd n 7).modSampler n fun s => { s with loss := true }

/-- SAMPLE_RECORD_COMPLETE (R449, R451): the oldest sample whose response has been handed over is staged. -/
def Dev.sampleComplete (d : Dev) : Dev :=
  match d.home.sampleDone with
  | [] => d
  | r :: rest =>
    let d := d.modHome fun h => { h with sampleDone := rest }
    let s := d.sampler r.ld
    if !s.en then d
    else if s.staged.length < 64 then d.modSampler r.ld fun s => { s with staged := s.staged ++ [r] }
    else d.dropSample r.ld

/-- A sample record (Table 17.4). -/
def SampleRec.num (r : SampleRec) (phase loss : Bool) : Nat :=
  b2n phase * 2 ^ 255 + b2n loss * 2 ^ 254 + (r.seq % 2 ^ 14) * 2 ^ 240 + (r.ld % 16) * 2 ^ 236 + (r.tld % 16) * 2 ^ 232 +
    (r.head % 8) * 2 ^ 229 + b2n r.poison * 2 ^ 228 + (r.opc % 64) * 2 ^ 222 + (r.lat % 2 ^ 24) * 2 ^ 192 +
    (r.time % 2 ^ 64) * 2 ^ 128 + (r.source % 16) * 2 ^ 124 + (r.dev % 8) * 2 ^ 121 + (r.chan % 32) * 2 ^ 116 +
    (r.slice % 16) * 2 ^ 112 + (r.dpa % 2 ^ 48) * 2 ^ 64 + r.hpa % 2 ^ 64

/-- SAMPLE_RECORD_WRITE (R450 to R452): the oldest staged record of an LD is written; THRESH records send a message. -/
def Dev.sampleWrite (d : Dev) (n : Nat) : Dev :=
  let s := d.sampler n
  match s.staged with
  | [] => d
  | r :: rest =>
    let d := d.emit (.hostWrite (d.ldHead n) (s.base + 32 * s.slot) (toBytes 32 (r.num s.phase s.loss)) false)
    let d := d.countLd n 6
    let next := (s.slot + 1) % s.slots
    let hit := s.thresh != 0 && decide (min s.thresh s.slots ≤ s.since + 1)
    let d := d.modSampler n fun s =>
      { s with staged := rest, slot := next, phase := if next = 0 then !s.phase else s.phase, loss := false,
               since := if hit then 0 else s.since + 1 }
    if hit then d.emit (.msix n s.vector) else d

/-- Records of samples already taken are written or dropped (R453): staged ones are written, the others dropped. -/
def Dev.sampleFlush (d : Dev) (n : Nat) : Dev :=
  let d := (List.range (d.sampler n).staged.length).foldl (fun d _ => d.sampleWrite n) d
  let mine (t : Txn) : Bool := t.sample.isSome && (match t.src with | .host _ ld _ => ld == n | _ => false)
  let k := (d.home.sampleDone.filter fun r => r.ld == n).length + (d.home.txns.filter mine).length
  let d := d.modHome fun h =>
    { h with sampleDone := h.sampleDone.filter fun r => r.ld != n,
             txns := h.txns.map fun t => if mine t then { t with sample := none } else t }
  (List.range k).foldl (fun d _ => d.dropSample n) d

/-- SAMPLE_CFG (R453). -/
def Dev.sampleCfg (c : RingCmd) (d : Dev) : Dev :=
  let d := d.sampleFlush c.ld
  let s : Sampler :=
    if bitOf c.x 31 then
      { en := true, n := bitsOf c.x 4 0, base := c.a, slots := c.n / 32, vector := bitsOf c.x 13 8, thresh := bitsOf c.x 63 32 }
    else {}
  (d.modSampler c.ld fun _ => s).post (c.fin 0 0 0 0)

/-- A reset of the LD stops sampling; samples in flight are discarded without records (R453). -/
def Dev.sampleStop (d : Dev) (n : Nat) : Dev :=
  let d := d.modSampler n fun _ => {}
  d.modHome fun h =>
    { h with sampleDone := h.sampleDone.filter fun r => r.ld != n,
             txns := h.txns.map fun t => match t.src with
               | .host _ ld _ => if ld = n then { t with sample := none } else t
               | _ => t }

/-- MEM_SPEC_RD (R87): accepted, counted and, when it is sampled, recorded at acceptance; no other action and no response. The
record has the DPA of a window that the address lies in (Table 17.4).
An LD-ID that no binding names is a decode miss. -/
def Dev.specRead (d : Dev) (h ldid hpa : Nat) : Dev :=
  if !d.headUp h || d.proto h == 0 || (d.head h).ideFailed then d
  else match d.ldOf h ldid with
    | none => d.decodeMiss { head := h, ldid := ldid, hpa := hpa, tag := 0, op := .evict, opc := 6 } 0xFF 1
    | some n =>
      let d := d.countLd n 0
      let (d, smp) := d.sampleCount n
      match smp with
      | none => d
      | some seq =>
        let hit := (d.bind n hpa).filter fun x => d.winEn x.1 && decide (x.2 < d.winFields x.1 * 2 ^ 21)
        let dpa := match hit with | some (own, rel) => d.windowDpa own rel / 64 * 64 | none => 0
        let r : SampleRec :=
          { ld := n, tld := (hit.map (·.1)).getD n, head := h, poison := false, opc := 6, seq := seq, lat := 0, time := d.nowNs,
            source := 12, dev := 0, chan := 31, slice := if hit.isSome then homeOf (dpa / 64) else 0, dpa := dpa,
            hpa := hpa / 64 * 64 }
        d.modHome fun x => { x with sampleDone := x.sampleDone ++ [r] }

end Sys2Proof.Machine
end

