-- ==== Sys2Proof/Machine/CrossOps.lean ====
section
/-! DEFINITION. Deadlines of periodic work as commands of their own (R57), and the control of the quarter supplies (R36 to R40). -/

namespace Sys2Proof.Machine

/-! ### Lag beyond the period (R57) -/

def Dev.periodic (d : Dev) : LagUnit → Periodic
  | .refresh c => (d.chn c).ref
  | .scrub c => (d.chn c).scrub
  | .epoch t => d.ted.epoch.getD t {}
  | .sweep => d.tal.sweep

def Dev.setPeriodic (d : Dev) (x : Periodic) : LagUnit → Dev
  | .refresh c => d.modChn c fun ch => { ch with ref := x }
  | .scrub c => d.modChn c fun ch => { ch with scrub := x }
  | .epoch t => d.modTed fun y => { y with epoch := y.epoch.set t x }
  | .sweep => { d with tal := { d.tal with sweep := x } }

/-- LAG_BEYOND_PERIOD: the running period is later than its grid point by more than P, and no record tells of the excursion. -/
def Dev.lagBeyond (d : Dev) (u : LagUnit) : Dev :=
  let x := d.periodic u
  if x.running ∧ x.grid + x.p < d.nowNs ∧ !x.raised then
    (d.setPeriodic { x with raised := true } u).lagRecord u (d.nowNs - x.grid)
  else d

/-- MAXLAG_CLR. -/
def Dev.maxlagClr (d : Dev) (u : LagUnit) : Dev := d.wr u.maxReg 0

/-! ### Quarter supplies (R36 to R40) -/

/-- SPEED_WINDOW_END (R36): the speed index of a window. -/
def Dev.speedWindow (d : Dev) (q speed : Nat) : Dev :=
  if q < 4 then
    (d.setFld (.gblAvsSpd q) F.gblAvsSpd_SPEED (min speed 65535)).setFld (.gblAvsSpd q) F.gblAvsSpd_SEQ
      ((d.fld (.gblAvsSpd q) F.gblAvsSpd_SEQ + 1) % 65536)
  else d

/-- A code limited to 19 to 41 (R38). -/
def avsCode (v : Nat) : Nat := min 41 (max 19 v)

/-- Sends a set point to a quarter's regulator; the one before it stays known until this one is confirmed (R39). -/
def Dev.avsSend (d : Dev) (q code : Nat) : Dev :=
  let old := d.fld (.gblAvsQ q) F.gblAvsQ_SETPOINT
  let d := (d.setFld (.gblAvsQ q) F.gblAvsQ_SETPOINT code).emit (.avs q (avsCode code))
  { d with mgt := { d.mgt with avsOld := d.mgt.avsOld.set q (some old) } }

/-- The procedure of R37 for one quarter, from the indices of one window. DESIGN CHOICE (log entry 112): a SETPOINT code outside 19 to
41 counts as the code that it acts as, and the field keeps what was written. -/
def Dev.avsQuarter (speed : List Nat) (d : Dev) (q : Nat) : Dev :=
  let r := Reg.gblAvsQ q
  if d.flag r F.gblAvsQ_BUS_ERR then d
  else
    let own := speed.getD q 0
    let sum := speed.sum - own
    let margin := d.fld .gblAvsCtrl F.gblAvsCtrl_MARGIN
    let step := min 8 (max 1 (d.fld .gblAvsCtrl F.gblAvsCtrl_STEP))
    let set := avsCode (d.fld r F.gblAvsQ_SETPOINT)
    let floor := avsCode (d.fld r F.gblAvsQ_FLOOR)
    let ceil := max floor (avsCode (d.fld r F.gblAvsQ_CEIL))
    if set < floor then d.avsSend q floor
    else if ceil < set then d.avsSend q ceil
    else if 3 * (own + margin) < sum ∨ own < 1024 + margin then
      if set < ceil then d.avsSend q (min (set + step) ceil) else d.setFlag r F.gblAvsQ_AT_CEIL true
    else if sum + 6 * margin < 3 * own ∧ 1024 + 2 * margin < own ∧ floor < set then
      d.avsSend q (max (set - step) floor)
    else d

/-- Automatic control is on (Table 2.3: INTERVAL 0 has the effect of EN = 0). -/
def Dev.avsAuto (d : Dev) : Bool :=
  d.flag .gblAvsCtrl F.gblAvsCtrl_EN && d.fld .gblAvsCtrl F.gblAvsCtrl_INTERVAL != 0

/-- The four speed indices are of one window: as many windows of each quarter have ended (R37). -/
def Dev.oneWindow (d : Dev) : Bool :=
  (List.range 4).all fun q => d.fld (.gblAvsSpd q) F.gblAvsSpd_SEQ == d.fld (.gblAvsSpd 0) F.gblAvsSpd_SEQ

/-- AVS_DECISION (R37, R38): not while set points settle, nor while the controller restarts (R420), and not before the window of every
quarter has ended (log entry 112). -/
def Dev.avsDecision (d : Dev) : Dev :=
  if !d.avsAuto ∨ !d.oneWindow ∨ d.mgt.settling ∨ d.mgt.restarting then d
  else
    let speed := (List.range 4).map fun q => d.fld (.gblAvsSpd q) F.gblAvsSpd_SPEED
    let n := d.out.length
    let d := (List.range 4).foldl (Dev.avsQuarter speed) d
    if d.out.length = n then d else { d with mgt := { d.mgt with settling := true } }

/-- AVS_SETTLE_END (R37): the set points sent have been confirmed. -/
def Dev.avsSettled (d : Dev) : Dev :=
  { d with mgt := { d.mgt with settling := false, avsOld := [none, none, none, none] } }

/-- AVSBUS_FAILURE (R39): all retries have failed; SETPOINT keeps the last confirmed one. -/
def Dev.avsFail (d : Dev) (q : Nat) : Dev :=
  if q < 4 then
    let d := match d.mgt.avsOld.getD q none with
      | some v => d.setFld (.gblAvsQ q) F.gblAvsQ_SETPOINT v
      | none => d
    let d := { d with mgt := { d.mgt with avsOld := d.mgt.avsOld.set q none } }
    (d.setFlag (.gblAvsQ q) F.gblAvsQ_BUS_ERR true).raise (vendorRec 0x0010 .failure (0x100 + q) q)
  else d

/-- AVS_SETPOINT_WRITE (R40): ignored while automatic control is on. -/
def Dev.avsWrite (d : Dev) (q code : Nat) : Dev :=
  if q < 4 ∧ !d.avsAuto then d.avsSend q (code % 256) else d

/-- BUS_ERR_CLEAR (R39). -/
def Dev.busErrClear (d : Dev) (q : Nat) : Dev := if q < 4 then d.setFlag (.gblAvsQ q) F.gblAvsQ_BUS_ERR false else d

end Sys2Proof.Machine
end

