-- ==== Sys2Proof/Machine/Deck.lean ====
section
/-! DEFINITION. The Deck table (R94, R95, R436, R459): its entries by handle. The manual orders the counter entries; the order of the others
(by type, then in the order of their tables) is the model's (DESIGN CHOICE, log entry 13). -/

namespace Sys2Proof.Machine

/-- The 8-byte header (Table 4.7). -/
def deckHeader (ty len index : Nat) : List Nat := [ty, 1] ++ toBytes 2 len ++ toBytes 2 index ++ [0, 0]

/-- Unit classes: code, count, first register block entry, quarter map of the first 8 units (Tables 18.2, 1.2). -/
def deckUnits : List (Nat × Nat × Nat × Nat) :=
  [(0x01, 1, 2, 0xFFFF), (0x02, 8, 3, 0xFFFF), (0x03, 16, 7, 0x5500), (0x05, 4, 24, 0x00E4), (0x06, 32, 28, 0x0000),
   (0x07, 28, 29, 0x5000), (0x08, 24, 30, 0x5000), (0x09, 4, 54, 0xFFFF), (0x0A, 1, 58, 0xFFFF), (0x0B, 17, 59, 0xFFFF),
   (0x0C, 1, 76, 0xFFFF), (0x0D, 1, 77, 0xFFFF), (0x0E, 1, 78, 0xFFFF), (0x0F, 1, 79, 0xFFFF)]

/-- Blocks of the management view: code, instances, offset, size of each (Table 18.1). -/
def deckBlockRows : List (Nat × Nat × Nat × Nat) :=
  [(0x10, 1, 0, 0x10000), (0x11, 1, 0x10000, 0x10000), (0x01, 1, 0x100000, 0x100000), (0x02, 4, 0x200000, 0x40000),
   (0x03, 16, 0x400000, 0x10000), (0x04, 1, 0x500000, 0x100000), (0x05, 4, 0x600000, 0x40000), (0x06, 1, 0x700000, 0x100000),
   (0x07, 1, 0x800000, 0x100000), (0x08, 24, 0x900000, 0x20000), (0x09, 4, 0xC00000, 0x10000), (0x0A, 1, 0xD00000, 0x100000),
   (0x0B, 17, 0xE00000, 0x2000), (0x0C, 1, 0xF00000, 0x100000), (0x0D, 1, 0x1000000, 0x100000), (0x0E, 1, 0x1100000, 0x100000),
   (0x0F, 1, 0x1200000, 0x100000)]

/-- Blocks of the tenant window: code, offset, size (Table 18.3). -/
def deckTenantRows : List (Nat × Nat × Nat) :=
  [(0x10, 0, 0x10000), (0x11, 0x10000, 0x10000), (0x0B, 0x20000, 0x2000), (0x02, 0x30000, 0x40), (0x0B, 0x30040, 0x40),
   (0x07, 0x40000, 4), (0x03, 0x40004, 4), (0x01, 0x40008, 8)]

/-- Register blocks: code, instance, BAR0 offset, size, tenant-visible. -/
def deckBlocks : List (Nat × Nat × Nat × Nat × Nat) :=
  (deckBlockRows.flatMap fun r => (List.range r.2.1).map fun i => (r.1, i, r.2.2.1 + r.2.2.2 * i, r.2.2.2, 0)) ++
    deckTenantRows.map fun r => (r.1, 0, r.2.1, r.2.2, 1)

/-- Opcodes of Table 12.2. -/
def deckOpcodes : List Nat := [0x00, 0x01, 0x02, 0x03, 0x04, 0x05, 0x08, 0x09, 0x0A, 0x0B, 0x10, 0x11, 0x18, 0x19]

/-- Counter groups (Tables 17.2, 18.4): code, instances, counters of each, first ID, and the bases and strides of the offset: instance
`i` lies at base + outer × (i ÷ m) + inner × (i mod m). -/
structure DeckGroup where
  code : Nat
  n : Nat
  per : Nat
  first : Nat
  base : Nat
  outer : Nat
  m : Nat := 1
  inner : Nat := 0

def deckGroups : List DeckGroup :=
  [{ code := 0x02, n := 8, per := 32, first := 0, base := 0x210000, outer := 0x40000, m := 2, inner := 0x100 },
   { code := 0x02, n := 16, per := 8, first := 256, base := 0x220000, outer := 0x40 },
   { code := 0x03, n := 16, per := 40, first := 384, base := 0x408000, outer := 0x10000 },
   { code := 0x04, n := 16, per := 12, first := 1024, base := 0x500000, outer := 0x100 },
   { code := 0x05, n := 4, per := 32, first := 1216, base := 0x610000, outer := 0x40000 },
   { code := 0x06, n := 32, per := 16, first := 1344, base := 0x701000, outer := 0x80 },
   { code := 0x07, n := 28, per := 10, first := 1856, base := 0x801000, outer := 0x80 },
   { code := 0x07, n := 4, per := 8, first := 2136, base := 0x802000, outer := 0x40 },
   { code := 0x08, n := 24, per := 50, first := 2168, base := 0x910000, outer := 0x20000 },
   { code := 0x09, n := 4, per := 24, first := 3368, base := 0xC08000, outer := 0x10000 },
   { code := 0x0B, n := 17, per := 8, first := 3464, base := 0xE01000, outer := 0x2000 },
   { code := 0x0C, n := 1, per := 8, first := 3600, base := 0xF01000, outer := 0x40 }]

/-- Block code, instance and offset of a counter. -/
def deckCounter (id : Nat) : Option (Nat × Nat × Nat) :=
  (deckGroups.find? fun g => decide (g.first ≤ id) && decide (id < g.first + g.n * g.per)).map fun g =>
    let i := (id - g.first) / g.per
    (g.code, i, g.base + g.outer * (i / g.m) + g.inner * (i % g.m) + 8 * ((id - g.first) % g.per))

/-- Event types by severity, in the order of their tables (Table 4.17 and chapters 5 to 17). -/
def deckEvents : List (Nat × Sev) :=
  [(0x0001, .warning), (0x0002, .warning), (0x0003, .failure), (0x0004, .warning), (0x0010, .failure), (0x0011, .info), (0x0012, .warning),
   (0x0020, .warning), (0x0021, .failure), (0x0101, .failure), (0x0102, .warning), (0x0103, .fatal), (0x0104, .failure),
   (0x0105, .warning), (0x0201, .failure), (0x0202, .warning), (0x0203, .info), (0x0204, .warning), (0x0205, .failure), (0x0206, .info)] ++
  [(0x0301, .failure), (0x0302, .failure), (0x0401, .failure), (0x0402, .failure), (0x0403, .info), (0x0404, .warning), (0x0405, .info),
   (0x0501, .failure), (0x0502, .failure), (0x0503, .warning), (0x0504, .info), (0x0505, .warning), (0x0506, .failure),
   (0x0507, .warning), (0x0508, .info), (0x0541, .warning), (0x0542, .info), (0x0543, .failure), (0x0544, .failure), (0x0545, .failure)] ++
  [(0x0581, .info), (0x0582, .warning), (0x0601, .warning), (0x0602, .info), (0x0701, .info), (0x0702, .info), (0x0703, .warning),
   (0x0704, .warning), (0x0705, .failure), (0x0741, .info), (0x0742, .warning), (0x0743, .failure), (0x0744, .failure), (0x0745, .warning)] ++
  [(0x0801, .failure), (0x0802, .failure), (0x0803, .warning), (0x0804, .warning), (0x0805, .failure), (0x0806, .info),
   (0x0901, .fatal), (0x0902, .info), (0x0903, .warning), (0x0904, .failure), (0x0905, .warning), (0x0906, .warning),
   (0x0A01, .warning), (0x0A02, .warning)]

/-- The summary (Table 4.8). -/
def deckSummary : List Nat :=
  deckHeader 1 48 0 ++ toBytes 2 0x9200 ++ [4, 8, 16, 16, 32, 4, 24, 4, 28, 8] ++ toBytes 2 3608 ++ toBytes 2 68 ++
    toBytes 4 98304 ++ toBytes 16 Config.vendorUuid.toNat ++ toBytes 4 0

/-- A name of 20 bytes. -/
def deckName (ty index : Nat) : List Nat := toBytes 20 (Config.deckName ty index).toNat

/-- Entry `i` of a type (Table 4.9). -/
def deckBody (ty i : Nat) : Option (List Nat) :=
  match ty with
  | 1 => if i = 0 then some deckSummary else none
  | 2 => deckUnits[i]?.map fun u =>
      deckHeader 2 16 i ++ toBytes 2 u.1 ++ toBytes 2 u.2.1 ++ toBytes 2 u.2.2.1 ++ toBytes 2 u.2.2.2
  | 3 => deckBlocks[i]?.map fun b =>
      deckHeader 3 24 i ++ toBytes 2 b.1 ++ toBytes 2 b.2.1 ++ toBytes 4 b.2.2.1 ++ toBytes 4 b.2.2.2.1 ++ [b.2.2.2.2, 0, 0, 0]
  | 4 => if i = 0 then some (deckHeader 4 45 0 ++ [8, 4, 16, 64, 32] ++ toBytes 32 ((deckOpcodes.map fun o => 2 ^ o).sum)) else none
  | 5 => (deckCounter i).map fun c =>
      deckHeader 5 40 i ++ toBytes 2 i ++ toBytes 2 c.1 ++ toBytes 2 c.2.1 ++ toBytes 4 c.2.2 ++ [48, b2n (counterIsLevel i)] ++
        deckName 5 i
  | 6 => deckEvents[i]?.map fun e => deckHeader 6 32 i ++ toBytes 2 e.1 ++ [e.2.code, 0] ++ deckName 6 i
  | _ => none

/-- Entries of each type, by type from 1. -/
def deckCounts : List Nat := [1, 14, 88, 1, 3608, 68]

/-- The entry of a handle: handles run through the types in order. -/
def deckEntry (h : Nat) : Option (List Nat) :=
  let rec go (ty : Nat) (h : Nat) : List Nat → Option (List Nat)
    | [] => none
    | n :: ns => if h < n then deckBody ty h else go (ty + 1) (h - n) ns
  go 1 h deckCounts

/-- Bytes as dwords, the last one filled up with zeros. -/
def dwordsOf (bytes : List Nat) : List Nat := (List.range ((bytes.length + 3) / 4)).map fun i => ofBytes ((bytes.drop (4 * i)).take 4)

/-- The response object to a Deck request: vendor and type, length, next handle with the table revision, and the entry (R94). -/
def deckResponse (rev h : Nat) : List Nat :=
  let body := dwordsOf ((deckEntry h).getD [])
  [Config.vendorId.toNat + 0x01 * 2 ^ 16, 3 + body.length, (if h + 1 < deckCounts.sum then h + 1 else 0xFFFF) + rev * 2 ^ 16] ++ body

end Sys2Proof.Machine
end

