-- ==== Sys2Proof/Machine/HostOps.lean ====
section
/-! DEFINITION. Host ports (chapter 4): links, logical devices, discovery, HDM decoders, IDE, link-level resets and their
delivery into the core (Table 16.8), event logs. -/

namespace Sys2Proof.Machine

def Dev.modHp (d : Dev) (f : HostPorts → HostPorts) : Dev := { d with hp := f d.hp }

/-! ### Links (R78 to R85) -/

/-- The head is there: the A position of a port, and B while the port is split (R78). -/
def Dev.headThere (d : Dev) (h : Nat) : Bool := decide (h < 8) && (h % 2 == 0 || d.hp.split.getD (h / 2) false)

/-- Fields of HP_STAT formed from the rest: whether the head presents an MLD (R85), whether CXL.mem is open (R81), where the media of
a head is ready once DRAM_READY is set (R416); an LD's own readiness is Memory_Active (R88). -/
def Dev.headView (d : Dev) (h : Nat) : Dev :=
  if !d.headUp h then d
  else
    let n := (d.ldsOf h).length
    let mem := decide (1 ≤ d.proto h) && decide (2 ≤ d.fld (headReg h) F.hpStat_RATE) && d.flag .gblBoot F.gblBoot_DRAM_READY
    (d.setFlag (headReg h) F.hpStat_MLD (decide (2 ≤ d.proto h) && n != 1)).setFlag (headReg h) F.hpStat_MEMOPEN mem

/-- What the head offers: MAXRATE and PROTO of its half of HP_CFG (Table 4.13). -/
def Dev.offers (d : Dev) (h : Nat) : Nat × Nat :=
  (d.maxRate h, d.fld (.hpCfg (h / 2)) (if h % 2 = 0 then F.hpCfg_PROTO_A else F.hpCfg_PROTO_B))

/-- HEAD_LINK_UP (R79 to R82, R85, Table 4.1): training ends, from link-down or as a retrain, which keeps the protocol negotiated and the
credits (DESIGN CHOICE, log entry 53). The operands are the partner's negotiation, protocol and rate codes, lanes, whether a CXL 3.1 link
at 8 to 32 GT/s runs 256-byte flits, which 64 and 128 GT/s always do, and the response credits that the host holds out (R22). -/
def Dev.headLinkUp (d : Dev) (h : Nat) (nego : Bool) (proto rate width : Nat) (flit256 : Bool) (credits : Nat) : Dev :=
  if !d.headThere h || (d.head h).perst || !d.mgt.linksOn || d.role != 0 then d
  else
    let again := d.headUp h
    let (maxRate, maxProto) := d.offers h
    let split := d.hp.split.getD (h / 2) false
    let p0 := if again then (d.head h).negotiated else if nego && !d.inHold then min proto maxProto else 0
    let r0 := min rate maxRate
    let rate := if p0 = 1 ∨ p0 = 2 then min r0 4 else r0
    let proto := if rate < 2 then 0 else p0
    let lanes := min width (if split then 8 else 16)
    let r := headReg h
    let d := (((d.setFlag r F.hpStat_UP true).setFld r F.hpStat_PROTO proto).setFld r F.hpStat_RATE rate).setFld r F.hpStat_WIDTH lanes
    let d := d.setFlag r F.hpStat_FLIT256 (decide (5 ≤ rate) || (proto == 3 && flit256))
    let d := if again then d else d.modHead h fun y => { y with negotiated := p0, credits := credits }
    let d := d.headView h
    (d.ldsOf h).foldl Dev.cdatRebuild d

/-- SPLIT of a port takes effect while PERST_N_A is asserted and both halves are link-down (R78). -/
def Dev.splitTakes (d : Dev) (p : Nat) : Dev :=
  if (d.head (2 * p)).perst && !d.headUp (2 * p) && !d.headUp (2 * p + 1) then
    d.modHp fun x => { x with split := x.split.set p (d.flag (.hpCfg p) F.hpCfg_SPLIT) }
  else d

/-- The link of a head goes down; its IDE streams with it. -/
def Dev.headDown (d : Dev) (h : Nat) : Dev :=
  let r := headReg h
  (((d.setFlag r F.hpStat_UP false).setFlag r F.hpStat_MEMOPEN false).setFlag r F.hpStat_IDE false).modHead h fun y =>
    { y with ide := y.ide.map fun s => { s with secure := false } }

/-- The decoders of an LD are uncommitted by a reset (Table 4.15). -/
def Dev.uncommitAll (d : Dev) (n : Nat) : Dev :=
  (List.range 8).foldl (fun d i => d.setHdm n i { d.hdm n i with commit := false, committed := false, err := false }) d

/-- A reset of a head starts: link, decoders, and its event towards the core (kind 0 PERST_N, 1 hot reset, 2 link down). -/
def Dev.headReset (d : Dev) (h kind : Nat) : Dev :=
  let d := d.headDown h
  let d := (d.ldsOf h).foldl Dev.uncommitAll d
  (d.offerEvent (.headEvt h) kind).splitTakes (h / 2)

/-- PERST_N_ASSERT (R80, R103, R486): before step 4 of Table 16.1 only its level counts; PERST_N_B of an unsplit port is ignored. -/
def Dev.perstAssert (d : Dev) (h : Nat) : Dev :=
  if (d.head h).perst || decide (8 ≤ h) then d
  else
    let d := d.modHead h fun y => { y with perst := true }
    if !d.mgt.linksOn || d.role != 0 || !d.headThere h then d else d.headReset h 0

/-- PERST_N_RELEASE (R103): the head may train. -/
def Dev.perstRelease (d : Dev) (h : Nat) : Dev := d.modHead h fun y => { y with perst := false }

/-- HOT_RESET (R103). -/
def Dev.hotReset (d : Dev) (h : Nat) : Dev := if d.headUp h then d.headReset h 1 else d
/-- LINK_DOWN (R103). -/
def Dev.hostLinkDown (d : Dev) (h : Nat) : Dev := if d.headUp h then d.headReset h 2 else d

/-- FLR (R103, R105). -/
def Dev.flr (d : Dev) (n : Nat) : Dev :=
  if n < 16 ∧ d.reaches (d.ldHead n) n then
    (d.modHp fun x => { x with resetting := if x.resetting.contains n then x.resetting else x.resetting ++ [n] }).offerEvent
      (.headEvt (d.ldHead n)) (3 + 2 * n)
  else d

/-- CXL_RESET (R103): with Mem Clr set or clear. -/
def Dev.cxlReset (d : Dev) (n : Nat) : Dev :=
  if n < 16 ∧ d.reaches (d.ldHead n) n then
    let d := d.uncommitAll n
    (d.modHp fun x => { x with resetting := if x.resetting.contains n then x.resetting else x.resetting ++ [n] }).offerEvent
      (.headEvt (d.ldHead n)) (4 + 2 * n)
  else d

/-- FLR_COMPLETE (R105). -/
def Dev.flrComplete (d : Dev) (n : Nat) : Dev := d.modHp fun x => { x with resetting := x.resetting.filter (· != n) }

/-! ### Delivery of a reset into the core (R104, Table 16.8) -/

/-- One LD is reset: cause 0 PERST_N, 1 hot reset, 2 link down, 3 FLR, 4 CXL Reset; `h` is its head. FLR and CXL Reset always change
the LD's key. -/
def Dev.ldReset (d : Dev) (h cause : Nat) (n : Nat) : Dev :=
  let d := d.ringsAbandon n cause
  let away (t : Txn) : Txn := match t.src with
    | .host _ ld tag => if ld = n then { t with src := .host 0xFF ld tag } else t
    | _ => t
  let d := d.modHome fun x => { x with txns := x.txns.map away }
  let d := if d.proto h = 3 || d.home.dir.any (fun p => p.2.ents.any (·.has n)) then d.headLoss n else d
  let d := d.modHome fun x => { x with pol := x.pol.filter fun p => p.ld != n }
  let d := if 3 ≤ cause || d.flag (.cipLdkey n) F.cipLdkey_ERASE_ON_RESET then d.keyChange n
    else (d.swLines.filter (d.inWindow n)).foldl (fun d l => d.unpin l) d
  ((d.repin.sampleStop n).cfgClear n).tame n

/-- The management view is reset with a head whose function 1 it is (R89, R427). -/
def Dev.mgmtReset (d : Dev) (h : Nat) : Dev :=
  if h = d.hp.mgmtHead ∧ !d.flag (headReg h) F.hpStat_MLD then
    (({ d with mgt := { d.mgt with stage := [] } }).ringSetReset 16).cfgClear 16
  else d

/-- CXL.mem is served again once every stream that failed is re-keyed and a hot reset or PERST_N has been delivered (R97). -/
def Head.ideSettle (y : Head) : Head :=
  if y.ideFailed && y.ideReset && y.ide.all (!·.failed) then { y with ideFailed := false, ideReset := false } else y

/-- Acts on one kind of a head's event crossing (Table 2.7). -/
def Dev.headKind (h : Nat) (d : Dev) (k : Nat) : Dev :=
  if k < 3 then
    let d := (d.ldsOf h).foldl (fun d n => d.ldReset h k n) d
    let d := (d.mgmtReset h).freeAllTags h
    if k < 2 then d.modHead h fun y => { y with ideReset := y.ideFailed }.ideSettle else d
  else d.ldReset h (3 + (k - 3) % 2) ((k - 3) / 2)

/-- HEAD_RESET_DELIVERY (R104, R48, R44): the transfer in flight is delivered, after the entries that the head's receive queue accepted
before it, and the core acts on its kinds, in the order of the list. -/
def Dev.headDelivery (d : Dev) (h : Nat) : Dev :=
  let p := d.eventTransfer (.headEvt h)
  p.1.foldl (Dev.headKind h) p.2

/-! ### IDE (R97) -/

/-- Place of a stream in `Head.ide`. -/
def IdeStream.idx : IdeStream → Nat
  | .link => 0 | .selective => 1 | .cxl => 2

/-- IDE_KM over Secured CMA/SPDM on the head's function 0: a key is programmed or refreshed for a stream, which is secure from then on; the
CXL.cachemem stream in containment mode or skid mode, at rates that carry CXL. -/
def Dev.ideKm (d : Dev) (h : Nat) (st : IdeStream) (key : Nat) (containment : Bool) : Dev :=
  if d.headUp h ∧ (d.fn0 h).isSome ∧ (st = .cxl → 1 ≤ d.proto h) then
    let d := if st = .cxl then d.setFlag (headReg h) F.hpStat_IDE true else d
    d.modHead h fun y => { y with ide := y.ide.modify st.idx fun s =>
      { keys := s.keys + 1, key := key, secure := true, containment := containment, failed := false } }.ideSettle
  else d

/-- IDE_CHECK_FAILURE: the stream is insecure, later CXL.mem requests are discarded, and the head counts as lost (R140). -/
def Dev.ideFail (d : Dev) (h : Nat) (st : IdeStream) : Dev :=
  if d.headUp h ∧ ((d.head h).ide.getD st.idx {}).secure then
    let d := if st = .cxl then d.setFlag (headReg h) F.hpStat_IDE false else d
    let d := d.modHead h fun y =>
      { y with ide := y.ide.modify st.idx fun s => { s with secure := false, failed := true }, ideFailed := true, ideReset := false }
    let d := d.aer h 0xFF .ideCheckFailed
    let d := d.raise { vendorRec 0x0021 .failure (0x200 + h) 0 with head := h }
    if d.proto h = 3 then (d.ldsOf h).foldl Dev.headLoss d else d
  else d

/-! ### Bindings and media (R84, R88) -/

/-- LDBIND_ENABLE: EN of GBL_LDBIND*n* set, on the HEAD and LDID that the register holds. -/
def Dev.bindEnable (d : Dev) (n : Nat) : Dev :=
  if d.bound n then d
  else if (List.range 16).any fun k => k != n && d.bound k && d.ldHead k == d.ldHead n && d.ldId k == d.ldId n then
    d.setFlag (.gblLdbind n) F.gblLdbind_ERR true
  else (d.setFlag (.gblLdbind n) F.gblLdbind_EN true).headView (d.ldHead n)

/-- LDBIND_DISABLE. -/
def Dev.bindDisable (d : Dev) (n : Nat) : Dev :=
  if !d.bound n then d
  else if ((List.range 8).any fun i => (d.hdm n i).committed) || ((List.range 8).any fun r => d.crEn n r || d.cqEn n r) then
    d.setFlag (.gblLdbind n) F.gblLdbind_ERR true
  else (d.setFlag (.gblLdbind n) F.gblLdbind_EN false).headView (d.ldHead n)

/-- Committed storage of an LD is usable: its window is not enabled, so that it has none, or the sets that hold its flat range, the
pool and the field table are READY (R88, R212, R416). A window that is still being built delays requests and not readiness (R168). -/
def Dev.storageReady (d : Dev) (n : Nat) : Bool :=
  !d.winEn n || (d.mapsReady n && d.rangesReady [d.flatRange n])

/-- MEDIA_READY (R88). -/
def Dev.mediaReady (d : Dev) (n : Nat) : Dev :=
  if n < 16 ∧ d.flag .gblBoot F.gblBoot_DRAM_READY ∧ d.storageReady n then
    d.modHp fun x => { x with memActive := x.memActive.set n true }
  else d

/-! ### Discovery (R92 to R95, R421) -/

/-- The data objects in the order of R92. -/
def doeObjects : List DoeObject := [.discovery, .spdm, .securedSpdm, .cdat, .deck]

/-- DOE_DISCOVERY (R92). -/
def Dev.doeDiscovery (d : Dev) (fn index : Nat) : Dev :=
  if d.fnUp fn then d.emit (.doeFound fn doeObjects[index]? (if index < 4 then index + 1 else 0)) else d

/-- CDAT_TABLE_ACCESS (R93): an entry of a function's table by handle. -/
def Dev.cdatAccess (d : Dev) (fn handle : Nat) : Dev :=
  if !d.fnUp fn then d
  else
    let es := d.cdatOf fn
    match es[handle]? with
    | some e => d.emit (.cdat fn (d.hp.cdatSeq.getD fn 0) e (if handle + 1 < es.length then handle + 1 else 0xFFFF))
    | none => d.emit (.doeError fn)

/-- DECK_REQUEST (R94). -/
def Dev.deckRequest (d : Dev) (fn handle : Nat) : Dev :=
  if d.fnUp fn then d.emit (.doe fn (deckResponse (d.fld .gblId F.gblId_DECK) (handle % 2 ^ 16))) else d

/-- SPDM (R421), over a function's DOE mailbox or, for the management view, over MCTP: a measurement block of 0 to 4, or another request,
which the standard answers. A DOE response carries at most 4 KiB (R92). -/
def Dev.spdm (nv : Nv) (d : Dev) (fn block : Nat) : Dev :=
  if !(fn == 16 || d.fnUp fn) then d
  else
    let gen := d.fld .otpStat F.otpStat_GEN
    let slot := b2n (d.flag .gblBoot F.gblBoot_FWSLOT)
    let bytes : List Nat := match block with
      | 0 | 1 => Config.measurement block slot
      | 2 => gen :: (if gen = 0 then [] else (List.range 2044).map fun i => kvGet (fun _ => 0) nv.otp ((gen - 1) * 2048 + 4 + i))
      | 3 => [d.fld .gblId F.gblId_DECK] ++ toBytes 2 (d.fld .gblId F.gblId_DEVICE)
      | 4 => [b2n (d.flag .otpStat F.otpStat_HOLD), d.fld .otpStat F.otpStat_CAUSE]
      | _ => Config.attestation fn
    d.emit (.spdm fn block (bytes.take 4096))

/-! ### HDM decoders (R58 to R64) -/

/-- DPA base of decoder `i`: the end of decoder `i − 1`'s range, plus the skip; none while that one is not committed. -/
def Dev.hdmBase (d : Dev) (n i skip : Nat) : Option Nat :=
  if i = 0 then some skip
  else
    let p := d.hdm n (i - 1)
    if p.committed then some (p.dpaBase + p.dpaLen + skip) else none

/-- The commit of a decoder is refused (R58, R60, Table 3.3): with its DPA base when it is accepted. -/
def Dev.hdmCheck (d : Dev) (n i : Nat) (x : HdmDec) : Option Nat :=
  match d.hdmBase n i x.skip, iwWays x.iw with
  | some b, some _ =>
    if igOk x.ig && x.skip % 2 ^ 28 == 0 && d.winEn n && decide (b + x.dpaLen ≤ d.winFields n * 2 ^ 21) then some b else none
  | _, _ => none

/-- HDM_COMMIT: Commit = 1 is written to a decoder with IG, IW and Lock On Commit; its base, size and skip stand in the decoder.
Commit reads as written (R466); a refused commit shows Error Not Committed, and may be written again. One that rewrites IG or IW of
a committed decoder that is not locked is a host error (R64). -/
def Dev.hdmCommit (d : Dev) (n i ig iw : Nat) (lock : Bool) : Dev :=
  let x := d.hdm n i
  if 16 ≤ n ∨ 8 ≤ i then d
  else if x.commit && !x.err then
    if x.committed && !x.lock && (x.ig != ig % 16 || x.iw != iw % 16) then d.goWild n else d
  else
    let y := { x with ig := ig % 16, iw := iw % 16, lock := lock, err := false }
    match d.hdmCheck n i y with
    | some b => d.setHdm n i { y with commit := true, dpaBase := b }
    | none => d.setHdm n i { y with commit := true, err := true }

/-- The decoder's HPA range overlaps that of another committed decoder of the LD (R64). -/
def Dev.hdmOverlap (d : Dev) (n i : Nat) : Bool :=
  let x := d.hdm n i
  (List.range 8).any fun k => k != i && (d.hdm n k).committed && overlaps x.base x.size (d.hdm n k).base (d.hdm n k).size

/-- HDM_COMMIT_TAKES_EFFECT (R62): the decoder as it then stands is checked again (R58, R60), since writes up to this moment count;
an overlap with another committed decoder is a host error (R64). -/
def Dev.hdmTakes (d : Dev) (n i : Nat) : Dev :=
  let x := d.hdm n i
  if x.commit && !x.committed && !x.err then
    match d.hdmCheck n i x with
    | some b =>
      let e := d.setHdm n i { x with committed := true, dpaBase := b }
      if d.hdmOverlap n i then e.goWild n else e
    | none => d.setHdm n i { x with err := true }
  else d

/-- HDM_UNCOMMIT (R62): Commit = 0 is written; a decoder locked on its commit stays. -/
def Dev.hdmUncommit (d : Dev) (n i : Nat) : Dev :=
  let x := d.hdm n i
  if x.commit && (!x.lock || x.err) then d.setHdm n i { x with commit := false } else d

/-- HDM_UNCOMMIT_TAKES_EFFECT (R62). -/
def Dev.hdmUntakes (d : Dev) (n i : Nat) : Dev :=
  let x := d.hdm n i
  if x.committed && !x.commit then d.setHdm n i { x with committed := false, dpaBase := 0 } else d

/-! ### Response credits and event logs (R22, R106) -/

/-- RESPONSE_CREDIT_RETURN. -/
def Dev.creditReturn (d : Dev) (h n : Nat) : Dev :=
  if d.headUp h then d.modHead h fun y => { y with credits := y.credits + n } else d

/-- CLEAR_EVENT_RECORDS: the `n` oldest records of a log; owner 16 is the management view, `log` is the severity's code. -/
def Dev.clearRecords (d : Dev) (owner log n : Nat) : Dev :=
  if !(owner == 16 || d.fnUp owner) then d
  else
    let k := owner * 5 + log
    let old := kvGet (fun _ => []) d.logs.recs k
    if 5 ≤ log ∨ old.length < n then d.emit (.mailbox owner .clearEventRecords .invalidHandle [])
    else
      let d := { d with logs := { d.logs with recs := kvSet (fun _ => []) d.logs.recs k (old.drop n),
                                              ovf := kvDel d.logs.ovf k } }
      d.emit (.mailbox owner .clearEventRecords .success [])

end Sys2Proof.Machine
end

