-- ==== Sys2Proof/Machine/StileOps.lean ====
section
/-! DEFINITION. The rules of the Stile die (chapter 15) as operations on its state. The main die's part (records, the proxy)
is in Machine/StileRows.lean and Machine/RegAccess.lean. -/

namespace Sys2Proof.Machine

/-- A record that Stile's rules ask the management controller for: type code and DETAIL (R414). -/
abbrev StlNote := Nat × Nat

def Stile.feed (s : Stile) (i : Nat) : Feed := if i = 0 then s.feedA else s.feedB

def Stile.setFeed (s : Stile) (i : Nat) (f : Feed) : Stile :=
  if i = 0 then { s with feedA := f } else { s with feedB := f }

/-! Effective values of the writable registers (Tables 15.2, 15.10 to 15.13). -/

def Stile.f (s : Stile) (r : Reg) (x : Fld) : Nat := s.regs.fld r x

def Stile.en (s : Stile) (i : Nat) : Bool := s.regs.flag (.stlFeedCtrl i) F.stlFeedCtrl_EN

/-- Insertion delay in µs of a DLY code (Table 15.2). -/
def dlyMicros (code : Nat) : Nat :=
  match code with
  | 0 => 50000 | 1 => 100000 | 2 => 200000 | 3 => 500000 | 4 => 1000000 | _ => 2000000

/-- Retries of an RTY code; none: unlimited (Table 15.2). -/
def rtyLimit (code : Nat) : Option Nat :=
  match code with
  | 0 => some 0 | 1 => some 3 | 2 => some 7 | _ => none

def Stile.uvOff (s : Stile) : Nat := s.f .stlVthr F.stlVthr_UV_OFF * 10
def Stile.uvOn (s : Stile) : Nat := s.f .stlVthr F.stlVthr_UV_ON * 10
def Stile.ovOn (s : Stile) : Nat := s.f .stlVthr F.stlVthr_OV_ON * 10
def Stile.ovOff (s : Stile) : Nat := s.f .stlVthr F.stlVthr_OV_OFF * 10
def Stile.warn (s : Stile) : Nat := s.f .stlVthr F.stlVthr_WARN * 10

/-- RUN_LIM in 0.5 mV: below 10 acts as 10, above 100 as 100 (Table 15.13). -/
def Stile.runLim (s : Stile) : Nat := min 100 (max 10 (s.f .stlIlim F.stlIlim_RUN_LIM))
/-- START_LIM in 0.5 mV: below 4 acts as 4, above RUN_LIM as RUN_LIM. -/
def Stile.startLim (s : Stile) : Nat := min s.runLim (max 4 (s.f .stlIlim F.stlIlim_START_LIM))
/-- REV in mV: 0 acts as 1, above 50 as 50. -/
def Stile.rev (s : Stile) : Nat := min 50 (max 1 (s.f .stlIlim F.stlIlim_REV))
/-- FT in µs: 0 acts as 1, above 200 as 200 units of 0.1 ms. -/
def Stile.ftMicros (s : Stile) : Nat := min 200 (max 1 (s.f .stlTime F.stlTime_FT)) * 100
/-- RAMP in 0.1 V/ms: 0 acts as 1, above 100 as 100. -/
def Stile.rampRate (s : Stile) : Nat := min 100 (max 1 (s.f .stlTime F.stlTime_RAMP))
/-- COOL in µs: below 100 ms acts as 100 ms. -/
def Stile.coolMicros (s : Stile) : Nat := max 100 (s.f .stlTime F.stlTime_COOL) * 1000
/-- HOLD in µs: below 50 acts as 50, above 1,000 as 1,000. -/
def Stile.holdMicros (s : Stile) : Nat := min 1000 (max 50 (s.f .stlPfw F.stlPfw_HOLD))

/-! Samples by feed. -/
def StlSample.vin (x : StlSample) (i : Nat) : Nat := if i = 0 then x.vinA else x.vinB
def StlSample.mid (x : StlSample) (i : Nat) : Nat := if i = 0 then x.midA else x.midB
def StlSample.isns (x : StlSample) (i : Nat) : Int := if i = 0 then x.isnsA else x.isnsB
def StlSample.full (x : StlSample) (i : Nat) : Bool := if i = 0 then x.fullA else x.fullB

/-- The input lies inside [UV_ON, OV_ON] (Table 15.3). -/
def Stile.inWindow (s : Stile) (x : StlSample) (i : Nat) : Bool :=
  decide (s.uvOn ≤ x.vin i) && decide (x.vin i ≤ s.ovOn)

/-- A feed holds the start slot in RAMP and COOL (R394). -/
def Feed.holdsSlot (f : Feed) : Bool := f.state == .ramp || f.state == .cool

/-- STL_STAT.SLOT: 0 none, 1 A, 2 B. -/
def Stile.slot (s : Stile) : Nat := if s.feedA.holdsSlot then 1 else if s.feedB.holdsSlot then 2 else 0

/-- Appends to the 16-entry fault log; a full log overwrites its oldest entry and sets OVF (R412). -/
def Stile.logEvent (s : Stile) (i cause : Nat) (latched : Bool) (vin : Nat) : Stile :=
  let e : StlEntry := ⟨s.time / 1000 % 2 ^ 32, i, cause, (s.feed i).retries, latched, vin⟩
  if s.count < 16 then
    { s with log := kvIns s.log ((s.oldest + s.count) % 16) e, count := s.count + 1 }
  else
    { s with log := kvIns s.log s.oldest e, oldest := (s.oldest + 1) % 16, ovf := true }

/-- Removes the oldest entry (POP, R412). -/
def Stile.pop (s : Stile) : Stile :=
  if s.count = 0 then s
  else { s with log := kvDel s.log s.oldest, oldest := (s.oldest + 1) % 16, count := s.count - 1 }

/-- Both gates of a feed off, its current limit and fault timer idle. -/
def Feed.gatesOff (f : Feed) : Feed :=
  { f with gps := false, gor := false, ilim := false, ftRun := false, ftTime := 0, belowTime := 0, onTime := 0 }

/-- A feed enters OFF: gates off, retry count zero (R398, Table 15.4). -/
def Feed.toOff (f : Feed) : Feed :=
  { f.gatesOff with state := .off, retries := 0, qualTime := 0, lowTime := 0, orderly := none }

/-- A feed enters QUAL; DLY starts from zero with the code in force now (R393, R411). -/
def Stile.toQual (s : Stile) (i : Nat) : Stile :=
  s.setFeed i { (s.feed i).gatesOff with state := .qual, qualTime := 0, orderly := none,
                                         qualBound := dlyMicros (s.f (.stlFeedCtrl i) F.stlFeedCtrl_DLY) }

/-- A feed enters RAMP (R394, R395). -/
def Stile.toRamp (s : Stile) (i : Nat) : Stile :=
  s.setFeed i { (s.feed i) with state := .ramp, gps := true, gor := false, rampTime := 0, coolTime := 0 }

/-- A feed faults (R398): gates off; COOL while retries are left under RTY, LATCHED otherwise; the count rises; logged. -/
def Stile.fault (s : Stile) (i cause vin : Nat) : Stile :=
  let f := s.feed i
  let n := f.retries + 1
  let left := match rtyLimit (s.f (.stlFeedCtrl i) F.stlFeedCtrl_RTY) with
    | none => true
    | some k => decide (n ≤ k)
  let f' := { f.gatesOff with state := if left then .cool else .latched, cause := cause, retries := min n 15,
                              coolTime := 0, lowTime := 0, orderly := none }
  (s.setFeed i f').logEvent i cause (!left) vin

/-- A damaged FET: gates off, FET_BAD, logged, no retry (R400, R401). -/
def Stile.fetBad (s : Stile) (i cause vin : Nat) : Stile :=
  (s.setFeed i { (s.feed i).gatesOff with state := .fetBad, cause := cause, orderly := none }).logEvent i cause false vin

/-- A turn-off by UV_OFF (8) or OV_OFF (7): gates off, QUAL, retry count unchanged, logged (R393, R412). -/
def Stile.rangeOff (s : Stile) (i cause vin : Nat) : Stile :=
  ((s.setFeed i { s.feed i with cause := cause }).toQual i).logEvent i cause false vin

/-- Some feed other than `i` is ON and is to stay ON. -/
def Stile.otherOn (s : Stile) (i : Nat) : Bool :=
  let o := s.feed (1 - i)
  o.state == .on && o.orderly.isNone

/-- EN cleared or STL_OFF_N acts on a feed in this state: one that is not OFF, blocked, or waiting for its orderly off already. -/
def Feed.canTurnOff (f : Feed) : Bool :=
  match f.state with
  | .latched | .fetBad | .off => false
  | .on => f.orderly.isNone
  | _ => true

/-- EN cleared (10) or STL_OFF_N asserted (9) for a feed (R393, R406): an ON feed keeps its gates until PG has been withdrawn, when no
feed is to remain ON (STL_OFF_N turns both off); any other state but LATCHED and FET_BAD goes to OFF. -/
def Stile.orderlyOff (s : Stile) (i cause : Nat) : Stile :=
  let f := s.feed i
  match f.state with
  | .latched | .fetBad | .off => s
  | .on =>
    if f.orderly.isSome then s
    else if s.pg && (cause == 9 || !s.otherOn i) then s.setFeed i { f with cause := cause, orderly := some cause }
    else s.setFeed i { f.toOff with cause := cause }
  | _ => s.setFeed i { f.toOff with cause := cause }

/-- PFW_N asserts; the time that HOLD counts from starts (R404, R406). -/
def Stile.assertPfw (s : Stile) : Stile :=
  if s.pfw then s else { s with pfw := true, pfwTime := 0 }

/-- No feed is to remain ON. -/
def Stile.noneRemains (s : Stile) : Bool :=
  !(s.feedA.state == .on && s.feedA.orderly.isNone) && !(s.feedB.state == .on && s.feedB.orderly.isNone)

/-- Withdrawal of PG: decided when PG is asserted and no feed is to remain ON; PFW_N asserts with it (R404, R406). -/
def Stile.decideWithdraw (s : Stile) : Stile :=
  if s.pg && !s.withdraw && s.noneRemains then { s.assertPfw with withdraw := true } else s

/-- PG is withdrawn; PFW_N is asserted while PG is deasserted (R404, R406). -/
def Stile.withdrawPg (s : Stile) : Stile :=
  { s.assertPfw with pg := false, withdraw := false, pgOffTime := 0 }

/-- The gates of the feeds that wait on an orderly off go off (R406). -/
def Stile.orderlyGatesOff (s : Stile) : Stile :=
  let off (f : Feed) : Feed := if f.orderly.isSome then f.toOff else f
  { s with feedA := off s.feedA, feedB := off s.feedB }

/-- Feeds in WAIT take a free start slot, A first (R394). -/
def Stile.passSlot (s : Stile) : Stile :=
  if s.slot ≠ 0 then s
  else if s.feedA.state = .wait then s.toRamp 0
  else if s.feedB.state = .wait then s.toRamp 1
  else s

/-- A ramp completes: ON, ORing FET under R403, start slot released and passed at once (R394, R395). -/
def Stile.rampDone (s : Stile) (i : Nat) : Stile :=
  (s.setFeed i { s.feed i with state := .on, onTime := 0, cause := (s.feed i).cause }).passSlot

/-- COOL has elapsed: the feed ramps again (R398), unless the other feed, which it left ON beside it, is in RAMP: only one
feed ramps at a time (R394; log entry 71). -/
def Stile.coolDone (s : Stile) (i : Nat) : Stile := if (s.feed (1 - i)).state = .ramp then s else s.toRamp i

/-- QUAL has lasted DLY with a passed check: WAIT, and the slot if it is free (R393, R394). -/
def Stile.qualDone (s : Stile) (i : Nat) : Stile :=
  (s.setFeed i { s.feed i with state := .wait }).passSlot

/-! ### One evaluation step (R391), in the order of Table 15.6. `acted` names feeds that a higher row has acted on. -/

/-- Timers of one feed advance against the sample. -/
def Stile.tickFeed (s : Stile) (x : StlSample) (i : Nat) : Stile :=
  let f := s.feed i
  let bothOff := !f.gps && !f.gor
  let f := { f with
    midTime := if bothOff && decide (1000 ≤ x.mid i) then f.midTime + 1 else 0
    revTime := if !f.gor && decide (x.isns i < -(1000 * (s.rev : Int))) then f.revTime + 1 else 0
    ftTime := if f.ftRun then f.ftTime + 1 else 0
    rampTime := if f.state == .ramp then f.rampTime + 1 else 0
    coolTime := if f.state == .cool then f.coolTime + 1 else 0
    onTime := if f.state == .on then f.onTime + 1 else 0
    qualTime := if f.state == .qual && s.inWindow x i then f.qualTime + 1 else 0
    lowTime := if f.state == .latched && decide (x.vin i < s.uvOff) then f.lowTime + 1 else 0 }
  s.setFeed i f

/-- Row 1: what the analogue actions of the sample's conditions do (R397, R403). -/
def Stile.row1 (x : StlSample) (p : Stile × List Nat) (i : Nat) : Stile × List Nat :=
  let (s, acted) := p
  let f := s.feed i
  if (f.state == .ramp || f.state == .on) && decide (2 * 250 * (s.runLim : Int) ≤ x.isns i) then
    (s.fault i 3 (x.vin i), i :: acted)
  else if f.state == .on then
    if s.rev ≤ 10 * (x.vout - x.mid i) then (s.setFeed i { f with gor := false }, acted)
    else if s.rev < 10 * (x.mid i - x.vout) then (s.setFeed i { f with gor := true }, acted)
    else (s, acted)
  else (s, acted)

/-- Row 2: damaged FETs (R400, R401). -/
def Stile.row2 (x : StlSample) (p : Stile × List Nat) (i : Nat) : Stile × List Nat :=
  let (s, acted) := p
  let f := s.feed i
  if acted.contains i || f.state == .fetBad then p
  else if 1000 ≤ f.midTime then (s.fetBad i 5 (x.vin i), i :: acted)
  else if 10 ≤ f.revTime then (s.fetBad i 6 (x.vin i), i :: acted)
  else p

/-- Rows 3 and 4: fault timer and ramp timeout (R395, R396). -/
def Stile.row34 (x : StlSample) (p : Stile × List Nat) (i : Nat) : Stile × List Nat :=
  let (s, acted) := p
  let f := s.feed i
  if acted.contains i then p
  else if f.ftRun && decide (f.ftBound ≤ f.ftTime) then
    (s.fault i (if f.state == .ramp then 1 else 2) (x.vin i), i :: acted)
  else if f.state == .ramp && decide (200 * x.vin i / s.rampRate + 10000 < f.rampTime) then
    (s.fault i 4 (x.vin i), i :: acted)
  else p

/-- Rows 5 and 6: OV_OFF turns off a feed whose pass gate is on, UV_OFF a feed in ON (Table 15.3, R393). -/
def Stile.row56 (x : StlSample) (p : Stile × List Nat) (i : Nat) : Stile × List Nat :=
  let (s, acted) := p
  let f := s.feed i
  if acted.contains i then p
  else if (f.state == .ramp || f.state == .on) && decide (s.ovOff ≤ x.vin i) then
    (s.rangeOff i 7 (x.vin i), i :: acted)
  else if f.state == .on && decide (x.vin i ≤ s.uvOff) then (s.rangeOff i 8 (x.vin i), i :: acted)
  else p

/-- Row 7: EN cleared, STL_OFF_N (R406). -/
def Stile.row7 (p : Stile × List Nat) (i : Nat) : Stile × List Nat :=
  let (s, acted) := p
  if acted.contains i then p
  else if !(s.feed i).canTurnOff then p
  else if s.eject then (s.orderlyOff i 9, i :: acted)
  else if !s.en i then (s.orderlyOff i 10, i :: acted)
  else p

/-- Row 8: the current limit, and fault timers start or stop (R396). -/
def Stile.row8 (x : StlSample) (p : Stile × List Nat) (i : Nat) : Stile × List Nat :=
  let (s, acted) := p
  let f := s.feed i
  if acted.contains i || !(f.state == .ramp || f.state == .on) then p
  else
    let lim := 250 * (if f.state == .ramp then s.startLim else s.runLim)
    if (lim : Int) ≤ x.isns i then
      (s.setFeed i { f with ilim := true, belowTime := 0, ftRun := true,
                            ftTime := if f.ftRun then f.ftTime else 0,
                            ftBound := if f.ftRun then f.ftBound else s.ftMicros }, acted)
    else if f.ftRun && decide (100 ≤ f.belowTime + 1) then
      (s.setFeed i { f with ilim := false, ftRun := false, ftTime := 0, belowTime := 0 }, acted)
    else (s.setFeed i { f with ilim := false, belowTime := if f.ftRun then f.belowTime + 1 else 0 }, acted)

/-- Row 9: ramp complete (R395); the second component of the result notes the feeds that came ON (0x0806). -/
def Stile.row9 (x : StlSample) (p : Stile × List Nat) (i : Nat) : (Stile × List Nat) × List StlNote :=
  let (s, acted) := p
  let f := s.feed i
  if !acted.contains i && f.state == .ramp && x.full i && decide (x.vin i - x.mid i ≤ 100) then
    ((s.rampDone i, i :: acted), [(0x0806, i + f.rampTime / 100 % 65536 * 65536)])
  else (p, [])

/-- The transitions of Table 15.4 that Table 15.6 does not rank: start window, DLY, COOL, retry reset, latch release. -/
def Stile.moves (x : StlSample) (p : Stile × List Nat) (i : Nat) : Stile × List Nat :=
  let (s, acted) := p
  let f := s.feed i
  if acted.contains i then p
  else match f.state with
  | .off => if s.en i && !s.eject && s.inWindow x i then (s.toQual i, acted) else p
  | .qual =>
    if !s.inWindow x i then (s.toQual i, acted)
    else if f.qualBound ≤ f.qualTime ∧ x.mid i < 1000 then (s.qualDone i, acted) else p
  | .wait => if !s.inWindow x i then (s.toQual i, acted) else p
  | .cool => if s.coolMicros ≤ f.coolTime then (s.coolDone i, acted) else p
  | .on => if 10000000 ≤ f.onTime then (s.setFeed i { f with retries := 0 }, acted) else p
  | .latched => if 100000 ≤ f.lowTime then (s.setFeed i f.toOff, acted) else p
  | _ => p

/-- STL_OFF_N: asserted after 1 ms low, released after 1 ms high (R408). -/
def Stile.offPin (s : Stile) (low : Bool) : Stile :=
  if low = s.eject then { s with offTime := 0 }
  else if 1000 ≤ s.offTime + 1 then { s with eject := low, offTime := 0 }
  else { s with offTime := s.offTime + 1 }

/-- A feed in ON has its input at `v` or above. -/
def Stile.someOnAbove (s : Stile) (x : StlSample) (v : Nat) : Bool :=
  (s.feedA.state == .on && decide (v ≤ x.vinA)) || (s.feedB.state == .on && decide (v ≤ x.vinB))

def Stile.someOn (s : Stile) : Bool := s.feedA.state == .on || s.feedB.state == .on

/-- Row 10: PFW_N and PG (R404 to R406). `last` is the feed that was last in ON, for the power-fail warning. A withdrawal completes: PG
does not assert in its step. -/
def Stile.row10 (s : Stile) (x : StlSample) (last : Nat) : Stile × List StlNote :=
  let before := s.pfw
  let had := s.pg
  let s := s.decideWithdraw
  let s := if s.pg && !s.withdraw && s.someOn && !s.someOnAbove x s.warn then s.assertPfw else s
  let s := if s.withdraw && decide (s.holdMicros ≤ s.pfwTime) then s.withdrawPg else s
  let s := if !s.pg && (s.feedA.orderly.isSome || s.feedB.orderly.isSome) && decide (1000 ≤ s.pgOffTime) then
    s.orderlyGatesOff else s
  let s := if !s.pg && (s.feedA.state == .on && s.feedA.orderly.isNone || s.feedB.state == .on && s.feedB.orderly.isNone)
      && !had && !s.feedA.ftRun && !s.feedB.ftRun && !s.eject then { s with pg := true } else s
  let s := if s.pg && s.pfw && !s.withdraw && s.someOnAbove x (s.warn + 100) then { s with pfw := false } else s
  let note := if s.pfw && !before then
    [(0x0804, last + (if s.withdraw || !s.pg then (s.feed last).cause else 0) * 2)] else []
  (s, note)

/-- One evaluation step (R391, R409). -/
def Stile.evalStep (s : Stile) (x : StlSample) : Stile × List StlNote :=
  let s := { s with time := s.time + 1, pfwTime := s.pfwTime + 1, pgOffTime := if s.pg then 0 else s.pgOffTime + 1 }
  let s := s.offPin x.offLow
  let s := (s.tickFeed x 0).tickFeed x 1
  let last := if s.feedA.state == .on then 0 else 1
  let p := (s, ([] : List Nat))
  let p := Stile.row1 x (Stile.row1 x p 0) 1
  let p := Stile.row2 x (Stile.row2 x p 0) 1
  let p := Stile.row34 x (Stile.row34 x p 0) 1
  let p := Stile.row56 x (Stile.row56 x p 0) 1
  let p := Stile.row7 (Stile.row7 p 0) 1
  let p := Stile.row8 x (Stile.row8 x p 0) 1
  let (p, n0) := Stile.row9 x p 0
  let (p, n1) := Stile.row9 x p 1
  let p := Stile.moves x (Stile.moves x p 0) 1
  let s := p.1.passSlot
  let last := if s.feedA.state == .on then 0 else if s.feedB.state == .on then 1 else last
  let (s, n2) := s.row10 x last
  (s, n0 ++ n1 ++ n2)

/-! ### Register images of the read-only registers (Tables 15.9, 15.11, 15.14, 15.15) -/

def FeedState.code : FeedState → Nat
  | .off => 0 | .qual => 1 | .wait => 2 | .ramp => 3 | .on => 4 | .cool => 5 | .latched => 6 | .fetBad => 7

def Stile.statImage (s : Stile) : Nat :=
  b2n s.pg * 2 ^ 31 + b2n s.pfw * 2 ^ 30 + b2n s.eject * 2 ^ 29 + s.slot * 2 ^ 27 + s.dlyStrap % 8 * 2 ^ 8
    + s.rtyStrap % 4 * 2 ^ 6 + s.rmpStrap % 4 * 2 ^ 4 + s.ftStrap % 4 * 2 ^ 2

def Stile.feedImage (s : Stile) (i : Nat) : Nat :=
  let f := s.feed i
  f.state.code * 2 ^ 29 + f.cause % 16 * 2 ^ 25 + satTo 4 f.retries * 2 ^ 21 + b2n f.ftRun * 2 ^ 20 + b2n f.ilim * 2 ^ 19

/-- A signed value in 16 bits. -/
def int16 (v : Int) : Nat := (v % 65536).toNat

def Stile.meas0Image (s : Stile) : Nat :=
  s.seq % 65536 * 2 ^ 48 + s.meas.vout % 65536 * 2 ^ 32 + s.meas.vinB % 65536 * 2 ^ 16 + s.meas.vinA % 65536

def Stile.meas1Image (s : Stile) : Nat :=
  s.seq % 65536 * 2 ^ 48 + int16 s.meas.isnsB * 2 ^ 32 + int16 s.meas.isnsA * 2 ^ 16
    + s.meas.midB / 50 % 256 * 2 ^ 8 + s.meas.midA / 50 % 256

def Stile.logImage (s : Stile) (k : Nat) : Nat :=
  match kvFind? s.log k with
  | none => 0
  | some e => e.time % 2 ^ 32 * 2 ^ 32 + e.feed % 2 * 2 ^ 31 + e.cause % 16 * 2 ^ 27 + satTo 4 e.retries * 2 ^ 23
      + b2n e.latched * 2 ^ 22 + e.vin % 65536

/-- What a proxy read of a Stile register returns (R413). -/
def Stile.read (s : Stile) (r : Reg) : Nat :=
  match r with
  | .stlStat => s.statImage
  | .stlFeedStat i => s.feedImage i
  | .stlMeas0 => s.meas0Image
  | .stlMeas1 => s.meas1Image
  | .stlLogstat => b2n s.ovf * 2 ^ 31 + s.count % 32 * 2 ^ 8 + s.oldest % 16
  | .stlLog k => s.logImage k
  | r => s.regs.get r

/-! ### Writes from the main die (R392, R402, R409 to R413) -/

/-- STL_VTHR is written as a whole or refused (R392); a write of 1 clears ERR first. -/
def Stile.writeVthr (s : Stile) (w : Nat) : Stile :=
  let uvOff := bitsOf w 9 0; let uvOn := bitsOf w 19 10; let ovOff := bitsOf w 29 20
  let ovOn := bitsOf w 39 30; let warn := bitsOf w 49 40
  if uvOff < uvOn ∧ uvOn < ovOn ∧ ovOn < ovOff ∧ uvOff < warn ∧ warn < ovOn then
    { s with regs := s.regs.set .stlVthr (Reg.applyWrite .stlVthr false (s.regs.get .stlVthr) w) }
  else { s with regs := s.regs.setFld .stlVthr F.stlVthr_ERR 1 }

/-- RESTART (R393): a LATCHED feed returns to OFF; otherwise ERR. -/
def Stile.restart (s : Stile) (i : Nat) : Stile :=
  if (s.feed i).state = .latched then s.setFeed i (s.feed i).toOff
  else { s with regs := s.regs.setFld (.stlFeedCtrl i) F.stlFeedCtrl_ERR 1 }

/-- CLR_FET (R402): a FET_BAD feed returns to OFF; otherwise ERR. -/
def Stile.clrFet (s : Stile) (i : Nat) : Stile :=
  if (s.feed i).state = .fetBad then s.setFeed i (s.feed i).toOff
  else { s with regs := s.regs.setFld (.stlFeedCtrl i) F.stlFeedCtrl_ERR 1 }

/-- A write of STL_FEEDx_CTRL: fields, then EN cleared turns the feed off in order, then RESTART and CLR_FET (R467). -/
def Stile.writeFeedCtrl (s : Stile) (i w : Nat) : Stile :=
  let s := { s with regs := s.regs.set (.stlFeedCtrl i) (Reg.applyWrite (.stlFeedCtrl i) false (s.regs.get (.stlFeedCtrl i)) w) }
  let s := if s.en i then s else (s.orderlyOff i 10).decideWithdraw
  let s := if bitOf w 30 then s.restart i else s
  if bitOf w 29 then s.clrFet i else s

/-- A proxy write to a Stile register (R409, R410). -/
def Stile.write (s : Stile) (r : Reg) (w : Nat) : Stile :=
  match r with
  | .stlVthr => s.writeVthr w
  | .stlFeedCtrl i => s.writeFeedCtrl i w
  | .stlLogstat =>
    let s := if bitOf w 31 then { s with ovf := false } else s
    if bitOf w 30 then s.pop else s
  | .stlStat | .stlFeedStat _ | .stlMeas0 | .stlMeas1 | .stlLog _ => s
  | r => { s with regs := s.regs.set r (Reg.applyWrite r false (s.regs.get r) w) }

/-- Bitwise majority of three samples (R390, R416). -/
def majority3 (a b c : Nat) : Nat := (a &&& b) ||| (b &&& c) ||| (a &&& c)

/-- FT units of a STL_FT strap, RAMP units of a STL_RMP strap (Table 15.2). -/
def ftOfStrap (c : Nat) : Nat := match c % 4 with | 0 => 5 | 1 => 10 | 2 => 20 | _ => 50
def rampOfStrap (c : Nat) : Nat := match c % 4 with | 0 => 5 | 1 => 10 | 2 => 20 | _ => 50

/-- Stile POR (R389, R390): every register at its reset value, straps sampled and set as defaults. A strap sample holds
DLY in [2:0], RTY in [4:3], RMP in [6:5] and FT in [8:7]. -/
def Stile.por (s1 s2 s3 : Nat) : Stile :=
  let v := majority3 s1 s2 s3
  let dly := bitsOf v 2 0; let rty := bitsOf v 4 3; let rmp := bitsOf v 6 5; let ft := bitsOf v 8 7
  let code := if 5 ≤ dly then 5 else dly
  let ctrl (m : RegFile) (i : Nat) : RegFile :=
    (m.setFld (.stlFeedCtrl i) F.stlFeedCtrl_DLY code).setFld (.stlFeedCtrl i) F.stlFeedCtrl_RTY rty
  let m : RegFile := ctrl (ctrl [] 0) 1
  let m := (m.setFld .stlTime F.stlTime_FT (ftOfStrap ft)).setFld .stlTime F.stlTime_RAMP (rampOfStrap rmp)
  { running := true, armed := false, regs := m, dlyStrap := dly, rtyStrap := rty, rmpStrap := rmp, ftStrap := ft }

end Sys2Proof.Machine
end

