-- ==== Sys2Proof/Machine/BootOps.lean ====
section
/-! DEFINITION. Power, bring-up, firmware, the OTP configuration block, commits and device-wide resets (chapter 16), and the
thermal trip and boundary scan of chapter 19. -/

namespace Sys2Proof.Machine

/-! ### The OTP (R422, Table 16.2) -/

/-- One bit of CRC-32 (IEEE 802.3, reflected). -/
def crc32Bit (v : Nat) : Nat := if v % 2 = 1 then Nat.xor (v / 2) 0xEDB88320 else v / 2
def crc32Byte (v b : Nat) : Nat :=
  crc32Bit (crc32Bit (crc32Bit (crc32Bit (crc32Bit (crc32Bit (crc32Bit (crc32Bit (Nat.xor v (b % 256)))))))))
/-- CRC-32 of R422. -/
def crc32 (bs : List Nat) : Nat := Nat.xor (bs.foldl crc32Byte 0xFFFFFFFF) 0xFFFFFFFF

def Nv.byte (nv : Nv) (slot i : Nat) : Nat := kvGet (fun _ => 0) nv.otp (slot * 2048 + i)
def Nv.bytes (nv : Nv) (slot i n : Nat) : List Nat := (List.range n).map fun j => nv.byte slot (i + j)

/-- Burns a byte of a slot: bits only go from 0 to 1. -/
def Nv.burn (nv : Nv) (slot i b : Nat) : Nv :=
  { nv with otp := kvMod (fun _ => 0) nv.otp (slot * 2048 + i) fun v => v ||| b % 256 }
def Nv.burnAll (nv : Nv) (slot i : Nat) : List Nat → Nv
  | [] => nv
  | b :: bs => (nv.burn slot i b).burnAll slot (i + 1) bs

def popCount (w v : Nat) : Nat := ((List.range w).map fun i => b2n (bitOf v i)).sum
/-- A mark is set when at least 12 of its 16 bits are 1. -/
def markSet (bs : List Nat) : Bool := decide (12 ≤ popCount 16 (ofBytes bs))
def Nv.begun (nv : Nv) (s : Nat) : Bool := markSet (nv.bytes s 0 2)
def Nv.burned (nv : Nv) (s : Nat) : Bool := nv.otp.any fun p => p.1 / 2048 == s && p.2 != 0
def Nv.sealMark (nv : Nv) (s : Nat) : Bool := markSet (nv.bytes s 0x7FE 2)
/-- The slot's seal is valid. -/
def Nv.sealValid (nv : Nv) (s : Nat) : Bool :=
  nv.sealMark s && nv.byte s 0x7FC == s + 1 && nv.byte s 0x7FD == 255 - (s + 1) &&
    ofBytes (nv.bytes s 0x7F8 4) == crc32 (nv.bytes s 4 0x7F4)
/-- The slot that the device uses: the highest-numbered begun one. -/
def Nv.chosen (nv : Nv) : Option Nat := (List.range 8).reverse.find? nv.begun
/-- CAUSE of OTP_STAT (R424): 0 when the chosen generation is used, else the cause of Hold. -/
def Nv.holdCause (nv : Nv) : Nat :=
  match nv.chosen with
  | none => 1
  | some s =>
    if nv.sealValid s then (if ofBytes (nv.bytes s 4 2) = 1 then 0 else 4) else if nv.sealMark s then 3 else 2

/-- OTP_STAT of an OTP (Table 16.11). -/
def Nv.stat (nv : Nv) : Nat :=
  let mask (f : Nat → Bool) : Nat := ((List.range 8).map fun s => b2n (f s) * 2 ^ s).sum
  let cause := nv.holdCause
  b2n (cause != 0) * 2 ^ 31 + cause * 2 ^ 28 + (match nv.chosen with | some s => s + 1 | none => 0) * 2 ^ 24 +
    mask nv.burned * 2 ^ 16 + mask nv.sealValid * 2 ^ 8 + mask nv.begun

/-! ### Step 4: the fields of a generation (R423, Table 16.3) -/

/-- Port and head fields, AVS, channels, bindings, Ley ports. `b` gives the slot's bytes. -/
def Dev.loadPorts (b : Nat → Nat) (d : Dev) (p : Nat) : Dev :=
  let split := bitOf (b 8) p
  let rate (h : Nat) : Nat := if b (0xA + h) % 16 = 0 then 6 else b (0xA + h) % 16
  let proto (h : Nat) : Nat := 3 - bitsOf (b (0xA + h)) 5 4
  let r : Reg := .hpCfg p
  let d := ((d.setFlag r F.hpCfg_SPLIT split).setFld r F.hpCfg_MAXRATE_A (rate (2 * p))).setFld r F.hpCfg_MAXRATE_B (rate (2 * p + 1))
  let d := (d.setFld r F.hpCfg_PROTO_A (proto (2 * p))).setFld r F.hpCfg_PROTO_B (proto (2 * p + 1))
  d.modHp fun x => { x with split := x.split.set p split }

def Dev.loadQuarter (b : Nat → Nat) (d : Dev) (q : Nat) : Dev :=
  let o := 0x18 + 4 * q
  let d := d.setFld (.chnQcfg q) F.chnQcfg_MAXRATE (b o)
  let d := d.setFld (.gblAvsQ q) F.gblAvsQ_FLOOR (if b (o + 1) = 0 then 30 else b (o + 1))
  d.setFld (.gblAvsQ q) F.gblAvsQ_CEIL (if b (o + 2) = 0 then 41 else b (o + 2))

def Dev.loadChannel (b : Nat → Nat) (d : Dev) (c : Nat) : Dev :=
  let v := b (0x28 + 2 * c)
  ((d.setFld (.chnTrain c) F.chnTrain_ALT (v % 16)).setFlag (.chnSpare c) F.chnSpare_EN (bitOf v 4)).setFld
    (.chnSpare c) F.chnSpare_RANK (bitsOf v 7 5)

def Dev.loadLd (b : Nat → Nat) (d : Dev) (n : Nat) : Dev :=
  let v := b (0x58 + 2 * n) + b (0x59 + 2 * n) * 256
  let d := d.setFlag (.cipLdkey n) F.cipLdkey_ERASE_ON_RESET (!bitOf v 8)
  let d := (d.setFld (.gblLdbind n) F.gblLdbind_HEAD (bitsOf v 3 1)).setFld (.gblLdbind n) F.gblLdbind_LDID (bitsOf v 7 4)
  if bitOf v 0 then d.bindEnable n else d

def Dev.loadLey (b : Nat → Nat) (d : Dev) (p : Nat) : Dev :=
  let v := b (0x78 + 2 * p)
  (d.setFlag (.leyCtrl p) F.leyCtrl_EN (bitOf v 0)).setFld (.leyCtrl p) F.leyCtrl_MAXRATE (2 - bitsOf v 2 1)

def Dev.loadFields (b : Nat → Nat) (d : Dev) : Dev :=
  let d := (List.range 4).foldl (Dev.loadPorts b) d
  let d := d.modHp fun x => { x with mgmtHead := b 9 % 8 }
  let d := (List.range 4).foldl (Dev.loadQuarter b) d
  let d := (List.range 24).foldl (Dev.loadChannel b) d
  let d := (List.range 16).foldl (Dev.loadLd b) d
  (List.range 4).foldl (Dev.loadLey b) d

/-- Stile's fields (R411), when byte 0x080 says that they are valid. -/
def Stile.load (b : Nat → Nat) (s : Stile) : Stile :=
  if !bitOf (b 0x80) 0 then s
  else
    let word (i n : Nat) : Nat := ofBytes ((List.range n).map fun j => b (i + j))
    let feed (s : Stile) (i : Nat) : Stile :=
      let m := s.regs.setFld (.stlFeedCtrl i) F.stlFeedCtrl_DLY (bitsOf (b (0x81 + i)) 2 0)
      { s with regs := m.setFld (.stlFeedCtrl i) F.stlFeedCtrl_RTY (bitsOf (b (0x81 + i)) 5 4) }
    let s := (feed (feed s 0) 1).writeVthr (word 0x84 8 % 2 ^ 50)
    ((s.write .stlIlim (word 0x8C 4)).write .stlTime (word 0x90 4)).write .stlPfw (word 0x94 2)

/-! ### Step 5: channel training starts (Table 9.3) -/

/-- The modules' data as the sideband gives it: a hub that does not answer is an empty slot, with a record (R243). -/
def Dev.startTraining (nv : Nv) (nack crcBad : List Nat) (d : Dev) : Dev :=
  let slot (i : Nat) : Option Spd := if nack.contains i then none else d.mgt.spd.getD i none
  let pairs := (List.range 24).map fun c => (slot (2 * c), slot (2 * c + 1))
  let d := (nack.filter fun i => decide (i < 48)).foldl (fun d i => d.sidebandError (i / 6) (i % 6)) d
  let d := (List.range 4).foldl (fun d q => d.setFld (.chnQcfg q) F.chnQcfg_TYPE (quarterMode pairs q)) d
  (List.range 24).foldl (fun d c =>
    let mode := quarterMode pairs (quarterOfChan c)
    let d := d.discover c (slot (2 * c)) (slot (2 * c + 1)) mode
    let d := d.setFld (.chnSpare c) F.chnSpare_FAILED (kvGet (fun _ => 0) nv.failed c)
    d.storedCheck nv c (crcBad.contains c) mode) d

/-! ### Steps 2 to 5 (Table 16.1) -/

/-- The firmware slot that the boot ROM starts (R418). -/
def Nv.fwRun (nv : Nv) : Option Nat :=
  let ok (i : Nat) : Bool := if i = 0 then nv.fwA.valid else nv.fwB.valid
  let a := nv.active % 2
  if ok a then some a else if ok (1 - a) then some (1 - a) else none

/-- New keys for the device and every LD (Table 8.2). A member holds no key (R232). -/
def Dev.newKeys (d : Dev) : Dev :=
  if d.role ≠ 0 then d else
  d.modCip fun c => { c with devKey := c.drawn, ldKey := (List.range 16).map (c.drawn + 1 + ·), drawn := c.drawn + 17 }

/-- Enabled Ley ports start (R340). -/
def Dev.leyStart (d : Dev) : Dev :=
  (List.range 4).foldl (fun (d : Dev) p => if d.flag (.leyCtrl p) F.leyCtrl_EN then d.leyEnable p else d) d

/-- Steps 2 to 5, on a die whose registers and queues have been reset; `wide`: the cause of a device-wide reset, none for a cold
power-on. What comes back for Stile is its new state. -/
def Dev.bringUp (nv : Nv) (st : Stile) (d : Dev) (wide : Option Nat) (nack crcBad : List Nat) : Dev × Stile :=
  let d := { d.newKeys with mgt := { d.mgt with bootClk := d.clk } }
  match nv.fwRun with
  | none => ({ d with mgt := { d.mgt with power := .recovery } }, st)
  | some fw =>
    let d := { d with mgt := { d.mgt with power := .on } }
    let d := if fw = nv.active % 2 then d else d.raise (vendorRec 0x0904 .failure 0x100 (nv.active % 2))
    let d := (d.setFlag .gblBoot F.gblBoot_FWSLOT (fw == 1)).setFlag .gblBoot F.gblBoot_COLD wide.isNone
    let d := d.wr .otpStat nv.stat
    let cause := nv.holdCause
    if cause ≠ 0 then
      let d := (List.range 4).foldl (fun d p => d.wr (.hpCfg p) (Reg.resetNat (.hpCfg p))) (d.setFlag .gblBoot F.gblBoot_HOLD true)
      let d := { d.modHp fun x => { x with split := [false, false, false, false] } with mgt := { d.mgt with linksOn := true } }
      (d.raise (vendorRec 0x0901 .fatal 0x100 (cause + d.fld .otpStat F.otpStat_GEN * 2 ^ 4)), st)
    else
      let b := nv.byte (nv.chosen.getD 0)
      let d := (d.loadFields b).reDistance
      let d := (List.range 4).foldl (fun (d : Dev) q =>
        d.emit (.avs q (avsCode (d.fld (.gblAvsQ q) F.gblAvsQ_SETPOINT)))) d
      let d := { d with mgt := { d.mgt with linksOn := true } }
      let d : Dev := match wide with
        | some c => d.raise (vendorRec 0x0906 .warning 0x100 c)
        | none => d
      let d := d.startTraining nv nack crcBad
      let d := if d.role = 0 then d else d.leyStart
      (d, if d.mgt.stlLost || !st.running then st else st.load b)

/-! ### Power and resets (R415, R430, R431, R470) -/

/-- What a main die without power, or held in power-on reset, keeps: the model's own books, and the level of its pins. -/
def Dev.unpowered (d : Dev) (power : Power) : Dev :=
  { out := d.out, fresh := d.fresh, cip := { drawn := d.cip.drawn }, cas := { sessions := d.cas.sessions },
    hp := { heads := d.hp.heads.map fun y => { perst := y.perst } },
    mgt := { power := power, spd := d.mgt.spd, tripped := d.mgt.tripped } }

/-- Register contents that a device-wide reset keeps (R470, Table 16.8). -/
def Dev.keptRegs (d : Dev) : RegFile :=
  let keep (m : RegFile) (r : Reg) (f : Fld) : RegFile := m.setFld r f (d.fld r f)
  let whole (m : RegFile) (r : Reg) : RegFile := m.set r (d.rd r)
  let m := whole (whole (whole [] .gblStrap) .gblLock) .crossMgt
  let m := keep m .casId F.casId_ROLE
  let m := (List.range 4).foldl (fun m p => keep (keep (whole m (.crossLey p)) (.hpCfg p) F.hpCfg_SPLIT) (.chnQcfg p) F.chnQcfg_MAXRATE) m
  let m := (List.range 8).foldl (fun m n => whole m (.crossHead n)) m
  let m := (List.range 16).foldl (fun m n =>
    (keep m (.cipLdkey n) F.cipLdkey_ERASE_ON_RESET).setFld (.cipLdkey n) F.cipLdkey_CHANGES
      (satTo 16 (d.fld (.cipLdkey n) F.cipLdkey_CHANGES + 1))) m
  (List.range 24).foldl (fun m c =>
    let m := keep (keep (whole m (.crossChn c)) (.chnTrain c) F.chnTrain_ALT) (.chnSpare c) F.chnSpare_EN
    let m := keep (keep m (.chnSpare c) F.chnSpare_RANK) (.chnSpare c) F.chnSpare_FAILED
    keep m (.chnFchgTime c) F.chnFchgTime_MAX) m

/-- A directory of which only the retired ways are left: they come back at a cold power-on alone (R117). -/
def retiredOnly (m : List (Nat × DirSet)) : List (Nat × DirSet) :=
  m.filterMap fun p => if p.2.retired = [] then none else some (p.1, { retired := p.2.retired })

/-- A device-wide reset up to step 2 of Table 16.1: links down, queues discarded, registers reset but for R470's list. -/
def Dev.wideCleared (d : Dev) : Dev :=
  { d.unpowered .on with regs := d.keptRegs, clk := d.clk, logs := d.logs, home := { dir := retiredOnly d.home.dir },
                         mgt := { power := .on, spd := d.mgt.spd, expiry := d.mgt.expiry, stlLost := d.mgt.stlLost,
                                  ir := d.mgt.ir, tap := d.mgt.tap } }

/-- A device-wide reset (R430). Which modules' hubs do not answer the discovery that follows it, and which stored training records fail their
CRC, are free values (R243, R249; log entry 119). -/
def Dev.wideReset (nv : Nv) (st : Stile) (d : Dev) (cause : Nat) : Dev × Stile :=
  let k := d.fresh
  ({ d with fresh := k + 1 }).wideCleared.bringUp nv st (some cause) ((List.range 48).filter (Config.hubSilent k))
    ((List.range 24).filter (Config.recordBad k))

/-- A reset that is asked for while a commit burns waits for its end (R429). -/
def Dev.askReset (nv : Nv) (st : Stile) (d : Dev) (cause : Nat) : Dev × Stile :=
  if d.mgt.burn.isSome then ({ d with mgt := { d.mgt with resetDue := some (d.mgt.resetDue.getD cause) } }, st)
  else d.wideReset nv st cause

/-- PWR_OK_RISE (R415). -/
def Dev.pwrRise (d : Dev) : Dev := if d.mgt.power = .held ∧ !d.mgt.tripped then { d with mgt := { d.mgt with power := .rising } } else d

/-- The last 8 bytes of a sealed slot: CRC, GEN, NGEN, SEALMARK. -/
def Burn.tail (x : Burn) : List Nat := toBytes 4 (crc32 x.body) ++ [x.slot + 1, 255 - (x.slot + 1), 0xFF, 0xFF]

/-- What the burn has left: the body only after BEGIN, the end only after the body (Table 16.6). -/
def Burn.torn (x : Burn) (nv : Nv) (p : BurnPoint) : Nv :=
  let nv := nv.burnAll x.slot 0 (toBytes 2 p.begun)
  if p.begun % 2 ^ 16 ≠ 2 ^ 16 - 1 then nv
  else
    let nv := nv.burnAll x.slot 4 (x.body.take p.body)
    if p.body < x.body.length then nv
    else nv.burnAll x.slot 0x7F8 (toBytes 8 (p.last &&& ofBytes x.tail))

/-- The main die loses power or is held in power-on reset; a burn ends where it stands. -/
def State.dropPower (s : State) (p : BurnPoint) (tripped : Bool) : State :=
  let nv := match s.dev.mgt.burn with
    | some x => x.torn s.nv p
    | none => s.nv
  let d := s.dev.unpowered .held
  { s with dev := { d with mgt := { d.mgt with tripped := tripped } }, dram := {}, nv := nv }

/-- POWER_ON_RESET_RELEASE (R416): three samples of the straps (CAS_ROLE in [2:0], MGT_SBA in [4:3]), the board's modules, slots
whose hub does not answer, channels whose stored training record fails its CRC. -/
def Dev.powerOnRelease (nv : Nv) (st : Stile) (d : Dev) (s1 s2 s3 : Nat) (spd : List (Option Spd)) (nack crcBad : List Nat) :
    Dev × Stile :=
  if d.mgt.power ≠ .rising then (d, st)
  else
    let v := majority3 s1 s2 s3 % 32
    let differ := !(s1 % 32 == s2 % 32 && s2 % 32 == s3 % 32)
    let d := { d.unpowered .rising with mgt := { power := .rising, spd := (List.range 48).map fun i => spd.getD i none } }
    let d := ((d.setFlag .gblStrap F.gblStrap_VOTE_DIFF differ).setFld .gblStrap F.gblStrap_MGT_SBA (v / 8)).setFld
      .gblStrap F.gblStrap_CAS_ROLE (v % 8)
    (d.setFld .casId F.casId_ROLE (v % 8)).bringUp nv st none nack crcBad

/-- The TAP instructions that drive balls (R490). -/
def TapInstr.drives : TapInstr → Bool
  | .extest | .extestPulse | .extestTrain | .intest | .clamp => true
  | _ => false

/-- The TAP of a device that begins to run: an instruction that drives balls gives way to BYPASS (R490; DEDUCED, log entry 110). -/
def Dev.tapRelease (d : Dev) : Dev := 
  { d with mgt := { d.mgt with tap := if d.mgt.tap.drives then .bypass else d.mgt.tap } }

/-- DRAM_READY (R416 step 6). -/
def Dev.dramReady (d : Dev) : Dev :=
  let there (c : Nat) : Bool := d.rd (.chnPop c) != 0
  let done (c : Nat) : Bool := d.flag (.chnTrain c) F.chnTrain_DONE
  if d.inHold || d.mgt.power != .on || d.flag .gblBoot F.gblBoot_DRAM_READY || (List.range 24).any fun c => there c && !done c then d
  else
    let stored := (List.range 24).all fun c => !there c || d.chState c == 4 || d.flag (.chnStat c) F.chnStat_STORED
    let d := (d.tapRelease.setFlag .gblBoot F.gblBoot_DRAM_READY true).setFlag .gblBoot F.gblBoot_STORED_ALL stored
    let d := d.setFld .gblBoot F.gblBoot_BOOT_MS (satTo 24 ((d.clk - d.mgt.bootClk) / 800000))
    if d.role ≠ 0 then d else ((List.range 8).foldl Dev.headView d).leyStart

/-! ### The watchdog and firmware (R418 to R420) -/

/-- WATCHDOG_EXPIRY (R420): suspended while a commit runs. A restart resets the controller's island (R49). -/
def Dev.watchdog (nv : Nv) (st : Stile) (d : Dev) : Dev × Stile :=
  if d.mgt.power ≠ .on ∨ d.mgt.burn.isSome then (d, st)
  else
    let second := match d.mgt.expiry with
      | some t => decide (d.clk < t + 8000000000)
      | none => false
    let d := d.raise (vendorRec 0x0905 .warning 0x100 (b2n second))
    let d := { d with mgt := { d.mgt with expiry := some d.clk } }
    if second then d.wideReset nv st 2
    else
      let d := { d.islandReset 36 with mgt := { d.mgt with restarting := true } }
      ((List.range 24).foldl (fun d c => if d.inService c then d.thermalRead c none none else d) d, st)

/-- CONTROLLER_RESTART_COMPLETE (R420). -/
def Dev.restartDone (d : Dev) : Dev := { d with mgt := { d.mgt with restarting := false } }

/-- Why the management view's mailbox does not serve a command: Busy while the controller restarts (R420); in Hold it serves those of
Table 16.5 and firmware update alone (R425). -/
def Dev.mgmtRefusal (d : Dev) : Option MboxCode :=
  if d.mgt.restarting then some .busy else if d.inHold then some .unsupported else none

/-- Other mailbox commands of the management view. -/
def Dev.viaMgmt (d : Dev) (op : MboxOp) (f : Dev → Dev) : Dev :=
  match d.mgmtRefusal with
  | some c => d.emit (.mailbox 16 op c [])
  | none => f d

def Nv.setFw (nv : Nv) (slot : Nat) (x : FwSlot) : Nv := if slot = 0 then { nv with fwA := x } else { nv with fwB := x }

/-- TRANSFER_FW (R418, R419): a part of `len` bytes at `off` for slot 0 (A) or 1 (B); `good`: the image verifies when whole. The slot
that runs cannot be written. -/
def Dev.transferFw (nv : Nv) (d : Dev) (part : FwPart) (slot off len : Nat) (good : Bool) : Dev × Nv :=
  let say (d : Dev) (c : MboxCode) : Dev := d.emit (.mailbox 16 .transferFw c [])
  let running := d.mgt.power == .on && b2n (d.flag .gblBoot F.gblBoot_FWSLOT) == slot
  let keep (x : Option (Nat × Nat)) : Dev := { d with mgt := { d.mgt with fw := x } }
  match part with
  | .abort => (say (keep none) .success, nv)
  | .full => if 2 ≤ slot ∨ running then (say d .invalidSlot, nv)
    else (say (keep none) .success, nv.setFw slot { valid := good, size := len })
  | .first => if 2 ≤ slot ∨ running then (say d .invalidSlot, nv)
    else if off ≠ 0 then (say d .transferOutOfOrder, nv)
    else (say (keep (some (slot, len))) .success, nv.setFw slot {})
  | .middle => match d.mgt.fw with
    | some (s, n) => if n = off then (say (keep (some (s, n + len))) .success, nv) else (say d .transferOutOfOrder, nv)
    | none => (say d .transferOutOfOrder, nv)
  | .last => match d.mgt.fw with
    | some (s, n) => if n = off then (say (keep none) .success, nv.setFw s { valid := good, size := n + len })
      else (say d .transferOutOfOrder, nv)
    | none => (say d .transferOutOfOrder, nv)

/-- ACTIVATE_FW (R419): for the next reset; online activation is not supported. -/
def Dev.activateFw (nv : Nv) (d : Dev) (slot : Nat) (online : Bool) : Dev × Nv :=
  let say (c : MboxCode) : Dev := d.emit (.mailbox 16 .activateFw c [])
  if online then (say .unsupported, nv)
  else if 2 ≤ slot then (say .invalidSlot, nv)
  else if !(if slot = 0 then nv.fwA.valid else nv.fwB.valid) then (say .verificationFailed, nv)
  else (say .success, { nv with active := slot })

/-! ### Pliuth images and commits (R426 to R429) -/

def Dev.modMgt (d : Dev) (f : Mgt → Mgt) : Dev := { d with mgt := f d.mgt }

/-- The commands of Table 16.5: Busy while a commit runs or the controller restarts. -/
def Dev.pliuth (d : Dev) (op : MboxOp) (f : Dev → Dev) : Dev :=
  if d.mgt.burn.isSome || d.mgt.restarting then d.emit (.mailbox 16 op .busy []) else f d

/-- PLIUTH_TRANSFER. -/
def Dev.pliuthTransfer (off : Nat) (data : List Nat) (d : Dev) : Dev :=
  let n := data.length
  if n = 0 ∨ 512 < n ∨ 2100 < off + n then d.emit (.mailbox 16 .pliuthTransfer .invalidInput [])
  else
    let put (l : List (Nat × Nat)) : List (Nat × Nat) :=
      (List.range n).foldl (fun l i => kvIns l (off + i) (data.getD i 0 % 256)) l
    (d.modMgt fun m => { m with stage := put m.stage }).emit (.mailbox 16 .pliuthTransfer .success [])

/-- PLIUTH_ABORT. -/
def Dev.pliuthAbort (d : Dev) : Dev := (d.modMgt fun m => { m with stage := [] }).emit (.mailbox 16 .pliuthAbort .success [])

/-- GET_CONFIGURATION_STATE. -/
def Dev.configState (d : Dev) : Dev :=
  d.emit (.mailbox 16 .pliuthState .success
    (toBytes 4 (d.rd .otpStat) ++ toBytes 4 (d.rd .otpCommit) ++ toBytes 2 d.mgt.stage.length))

/-- Zero fields of Tables 16.2 and 16.3, as slot byte, bytes and the mask of bits that must be 0. -/
def zeroFields : List (Nat × Nat × Nat) :=
  [(0x006, 2, 0xFF), (0x012, 6, 0xFF), (0x01B, 1, 0xFF), (0x01F, 1, 0xFF), (0x023, 1, 0xFF), (0x027, 1, 0xFF),
   (0x083, 1, 0xFF), (0x096, 10, 0xFF), (0x0A0, 1880, 0xFF)] ++
  (List.range 24).map (fun c => (0x029 + 2 * c, 1, 0xFF)) ++
  (List.range 16).map (fun n => (0x059 + 2 * n, 1, 0xFE)) ++
  (List.range 4).flatMap fun p => [(0x078 + 2 * p, 1, 0xF8), (0x079 + 2 * p, 1, 0xFF)]

/-- STATUS of steps 1 to 8 of Table 16.6 on the staged image; 0 when the burn may start. -/
def Dev.commitStatus (nv : Nv) (d : Dev) : Nat :=
  let b (i : Nat) : Nat := kvGet (fun _ => 0) d.mgt.stage i
  let word (i n : Nat) : Nat := ofBytes ((List.range n).map fun j => b (i + j))
  let slotByte (i : Nat) : Nat := b (60 + i)
  let target := word 8 8
  let role := b 16
  let zero (i n : Nat) : Bool := (List.range n).all fun j => b (i + j) == 0
  if d.flag .gblLock F.gblLock_LOCK then 8
  else if d.mgt.stage.length ≠ 2100 then 1
  else if (List.range 4).map b ≠ [0x50, 0x4C, 0x54, 0x48] ∨ word 4 2 ≠ 1 ∨ word 6 2 ≠ 2036 then 2
  else if word 28 4 ≠ crc32 ((List.range 2036).map fun j => b (64 + j)) then 3
  else if target ≠ 0 ∧ target ≠ Config.serial.toNat then 4
  else if !(role == 0xFF || (role == 0 && d.role == 0) || (role == 1 && d.role != 0)) then 5
  else if !zero 17 11 || !zero 32 32 ||
      zeroFields.any (fun z => (List.range z.2.1).any fun j => slotByte (z.1 + j) &&& z.2.2 != 0) then 6
  else if nv.burned 7 then 7
  else 0

/-- The lowest slot above every slot that has a bit at 1. -/
def Nv.target (nv : Nv) : Nat := ((List.range 8).filter nv.burned).foldl (fun v s => max v (s + 1)) 0

/-- A commit ends: STATUS, record, answer. -/
def Dev.commitEnds (d : Dev) (status slot gen : Nat) : Dev :=
  let d := (d.setFlag .otpCommit F.otpCommit_BUSY false).setFld .otpCommit F.otpCommit_STATUS status
  let seq := d.fld .otpCommit F.otpCommit_SEQ
  let d := if status = 0 then d.raise (vendorRec 0x0902 .info 0x0E00 (gen % 16 + seq * 2 ^ 16))
    else d.raise (vendorRec 0x0903 .warning 0x0E00 (status + slot % 8 * 2 ^ 4 + seq * 2 ^ 16))
  let (d, k) := d.draw
  let g := if status = 0 then gen else (Config.unstated k).toNat % 256
  d.emit (.mailbox 16 .pliuthCommit .success [status, g])

/-- PLIUTH_COMMIT: steps 1 to 8, and the start of the burn. -/
def Dev.pliuthCommit (nv : Nv) (d : Dev) : Dev :=
  let status := d.commitStatus nv
  let seq := (d.fld .otpCommit F.otpCommit_SEQ + 1) % 2 ^ 16
  let body := (List.range 2036).map fun j => kvGet (fun _ => 0) d.mgt.stage (64 + j)
  let d := (d.setFld .otpCommit F.otpCommit_SEQ seq).modMgt fun m => { m with stage := [] }
  if status ≠ 0 then d.commitEnds status 7 0
  else
    let d := (d.setFlag .otpCommit F.otpCommit_BUSY true).setFld .otpCommit F.otpCommit_SLOT nv.target
    d.modMgt fun m => { m with burn := some { slot := nv.target, body := body } }

/-- What burning a slot leaves when some bits (byte × 8 + bit) do not take. -/
def burnWith (stuck : List Nat) (nv : Nv) (slot i : Nat) (bs : List Nat) : Nv :=
  let miss (k : Nat) : Nat := ((List.range 8).map fun j => b2n (stuck.contains ((i + k) * 8 + j)) * 2 ^ j).sum
  nv.burnAll slot i ((List.range bs.length).map fun k =>
    let b := bs.getD k 0 % 256
    b - (b &&& miss k))

/-- OTP_STAT shows the slots as they are; GEN, HOLD and CAUSE stay those of the boot (Table 16.11). -/
def Dev.showSlots (nv : Nv) (d : Dev) : Dev := d.wr .otpStat (d.rd .otpStat / 2 ^ 24 * 2 ^ 24 + nv.stat % 2 ^ 24)

/-- COMMIT_BURN_COMPLETE: steps 9 to 13; `stuck` are the bits of the slot that do not burn. -/
def Dev.burnComplete (stuck : List Nat) (nv : Nv) (st : Stile) (d : Dev) : (Dev × Stile) × Nv :=
  match d.mgt.burn with
  | none => ((d, st), nv)
  | some x =>
    let d := d.modMgt fun m => { m with burn := none }
    let nv := burnWith stuck (burnWith stuck nv x.slot 0 [0xFF, 0xFF]) x.slot 4 x.body
    let bodyOk := nv.bytes x.slot 4 2036 == x.body
    let nv := if bodyOk then burnWith stuck nv x.slot 0x7F8 x.tail else nv
    let ok := bodyOk && nv.sealValid x.slot
    let d := (d.showSlots nv).commitEnds (if ok then 0 else 9) x.slot (x.slot + 1)
    let d := if ok && d.inHold then d.modMgt fun m => { m with holdReset := true } else d
    match d.mgt.resetDue with
    | some c => (d.wideReset nv st c, nv)
    | none => ((d, st), nv)

/-- HOLD_COMMIT_RESET (R428): the reset waits for a commit that burns meanwhile (R429). -/
def Dev.holdReset (nv : Nv) (st : Stile) (d : Dev) : Dev × Stile :=
  if d.mgt.holdReset then d.askReset nv st 1 else (d, st)

/-! ### Boundary scan (R489, R490) -/

/-- BOUNDARY_SCAN_INSTRUCTION: TRST_N low holds the TAP in Test-Logic-Reset; the register captures any other instruction, and while
DRAM_READY is 1 the TAP acts on those that drive balls as on BYPASS. -/
def Dev.tapLoad (d : Dev) (trstLow : Bool) (i : TapInstr) : Dev :=
  if trstLow then d.modMgt fun m => { m with ir := .bypass, tap := .bypass }
  else d.modMgt fun m => { m with ir := i, tap := if i.drives && d.flag .gblBoot F.gblBoot_DRAM_READY then .bypass else i }

end Sys2Proof.Machine
end

