-- ==== Sys2Proof/Machine/Mailbox.lean ====
section
/-! DEFINITION. The component and device registers of a function (R88, R458, R496) and the commands of its mailbox that the event logs,
Dynamic Capacity and the device's health need (R96, R106, ch. 19). Offsets within the blocks, opcodes and payload layouts are those of CXL 3.1 (PRESUMED, log entry
53). Function 16 is the management view's. -/

namespace Sys2Proof.Machine

def Dev.mbox (d : Dev) (fn : Nat) : MboxRegs := kvGet (fun _ => {}) d.hp.mbox fn
def Dev.modMbox (d : Dev) (fn : Nat) (f : MboxRegs → MboxRegs) : Dev :=
  { d with hp := { d.hp with mbox := kvMod (fun _ => {}) d.hp.mbox fn f } }

/-- Bytes of the payload registers, and a payload written into them. -/
def MboxRegs.bytes (x : MboxRegs) (n : Nat) : List Nat :=
  (List.range n).map fun i => kvGet (fun _ => 0) x.payload (i / 4) / 2 ^ (8 * (i % 4)) % 256
def MboxRegs.answer (x : MboxRegs) (code : Nat) (out : List Nat) : MboxRegs :=
  { x with code := code, len := out.length,
           payload := ((dwordsOf (out.take 512)).zip (List.range 128)).foldl (fun m p => kvSet (fun _ => 0) m p.2 p.1) x.payload }

/-- The five logs in the order of the standard. -/
def logOrder : List Sev := [.info, .warning, .failure, .fatal, .dcd]

/-- Get Event Interrupt Policy: a byte per log, mode in [1:0] (1: MSI-X), vector in [7:4]. -/
def Dev.policyGet (d : Dev) (fn : Nat) : List Nat :=
  logOrder.map fun s => match kvFind? d.logs.policy (fn * 5 + s.code) with
    | some v => 1 + v * 2 ^ 4
    | none => 0

/-- Set Event Interrupt Policy. -/
def Dev.policySet (d : Dev) (fn : Nat) (bytes : List Nat) : Dev :=
  (bytes.zip logOrder).foldl (fun d p =>
    let k := fn * 5 + p.2.code
    { d with logs := { d.logs with policy := if p.1 % 4 = 1 then kvIns d.logs.policy k (p.1 / 2 ^ 4 % 16) else kvDel d.logs.policy k } }) d

/-- Get Event Records: overflow and more flags, overflow count and times, and up to three of the oldest records. -/
def Dev.recordsGet (d : Dev) (fn log : Nat) : List Nat :=
  let k := fn * 5 + log
  let rs := kvGet (fun _ => []) d.logs.recs k
  let (n, t0, t1) := kvGet (fun _ => (0, 0, 0)) d.logs.ovf k
  let out := rs.take 3
  [b2n (n != 0) + 2 * b2n (decide (3 < rs.length)), 0] ++ toBytes 2 (min n 65535) ++ toBytes 8 t0 ++ toBytes 8 t1 ++
    toBytes 2 out.length ++ List.replicate 10 0 ++ out.flatMap fun r => toBytes 128 r.bytes

/-- Clear Event Records through the mailbox: all, or the oldest ones by their handles. The new device, or none for a handle that is not that
of the record. -/
def Dev.recordsClear (d : Dev) (fn : Nat) (x : List Nat) : Option Dev :=
  let k := fn * 5 + x.getD 0 0
  let rs := kvGet (fun _ => []) d.logs.recs k
  let n := if x.getD 1 0 % 2 = 1 then rs.length else x.getD 2 0
  let named := (List.range n).all fun i => x.getD 1 0 % 2 == 1 || (rs[i]?.map Rec.handle) == some (ofBytes ((x.drop (6 + 2 * i)).take 2))
  if 5 ≤ x.getD 0 0 ∨ rs.length < n ∨ !named then none
  else some { d with logs := { d.logs with recs := kvSet (fun _ => []) d.logs.recs k (rs.drop n), ovf := kvDel d.logs.ovf k } }

/-- Get Dynamic Capacity Configuration of an LD: its regions, none of them sharable (R96), and the extents and tags left of 1,024. -/
def Dev.dcConfigGet (d : Dev) (n first count : Nat) : List Nat :=
  let rs := (((d.regions n).zip (List.range 8)).drop first).take count
  let left := 1024 - (d.extents n).length
  [(d.regions n).length, rs.length, 0, 0, 0, 0, 0, 0] ++ (rs.flatMap fun r =>
    toBytes 8 (r.1.base * 2 ^ 21) ++ toBytes 8 (ceilDiv (r.1.len * 2 ^ 21) (2 ^ 28)) ++ toBytes 8 (r.1.len * 2 ^ 21) ++
      toBytes 8 (2 ^ 21 * 2 ^ r.1.k) ++ toBytes 4 (r.2 + 1) ++ [0, 0, 0, 0]) ++
    toBytes 4 1024 ++ toBytes 4 left ++ toBytes 4 1024 ++ toBytes 4 left

/-- Get Dynamic Capacity Extent List of an LD: up to 12 extents with their tags (R96). -/
def Dev.extentsGet (d : Dev) (n count first : Nat) : List Nat :=
  let all := d.extents n
  let es := (all.drop first).take (min count 12)
  toBytes 4 es.length ++ toBytes 4 all.length ++ toBytes 4 (d.hp.extGen.getD n 0) ++ toBytes 4 0 ++ es.flatMap fun e =>
    toBytes 8 (e.first * 2 ^ 21) ++ toBytes 8 (e.fields * 2 ^ 21) ++ toBytes 16 e.tag ++ toBytes 8 0

/-- Get Health Info of the management view: the hottest of the eleven sensors (Table 19.6) as the device temperature; the rest is free. -/
def Dev.healthGet (d : Dev) : List Nat :=
  let k := d.fresh
  let hot := ((List.range 11).map fun i => (Config.sensorTemp k i).toNat).foldl max 0
  (((List.range 18).map fun i => (Config.healthByte k i).toNat).set 4 hot).set 5 0

/-- Set Alert Configuration: its payload is kept; Get Alert Configuration shows the programmable thresholds of it beside free values. -/
def Dev.alertSet (d : Dev) (fn : Nat) (x : List Nat) : Dev := d.modMbox fn fun y => { y with alert := x.take 12 }
def Dev.alertGet (d : Dev) (fn : Nat) : List Nat :=
  let a (i : Nat) : Nat := (d.mbox fn).alert.getD i 0
  let w (i : Nat) : Nat := (Config.alertByte i).toNat
  [w 0, w 1, w 2, a 2, w 4, w 5, w 6, w 7, a 4, a 5, a 6, a 7, a 8, a 9, a 10, a 11]

/-- A command is started: it runs at once, and its return code and output payload stand in the registers. In Hold the management view serves none
of these (R425). The other commands of the manual
come as commands of their own, and any other opcode is unsupported. -/
def Dev.mboxRun (d : Dev) (fn : Nat) : Dev :=
  let x := d.mbox fn
  let b := x.bytes 512
  let ok (d : Dev) (out : List Nat) : Dev := d.modMbox fn fun x => x.answer 0 out
  let fail (code : Nat) : Dev := d.modMbox fn fun x => x.answer code []
  if fn = 16 ∧ d.mgt.restarting then fail 6
  else if fn = 16 ∧ d.inHold then fail 3
  else match x.opcode with
    | 0x0100 => if 5 ≤ b.getD 0 0 then fail 2 else ok d (d.recordsGet fn (b.getD 0 0))
    | 0x0101 => match d.recordsClear fn b with
      | some d => ok d []
      | none => fail 0xE
    | 0x0102 => ok d (d.policyGet fn)
    | 0x0103 => ok (d.policySet fn (b.take (min x.len 5))) []
    | 0x4200 => if fn = 16 then ok { d with fresh := d.fresh + 1 } d.healthGet else fail 3
    | 0x4201 => if fn = 16 then ok d (d.alertGet fn) else fail 3
    | 0x4202 => if fn = 16 then ok (d.alertSet fn b) [] else fail 3
    | 0x4800 => if fn < 16 then ok d (d.dcConfigGet fn (b.getD 1 0) (b.getD 0 0)) else fail 3
    | 0x4801 => if fn < 16 then ok d (d.extentsGet fn (ofBytes (b.take 4)) (ofBytes ((b.drop 4).take 4))) else fail 3
    | _ => fail 3

/-- Memory Device Status: the media are ready or not (R88), the mailbox is ready. -/
def Dev.memStatus (d : Dev) (fn : Nat) : Nat := b2n (fn == 16 || d.memActive fn) * 2 ^ 2 + 2 ^ 4

/-- Capabilities of the component registers: RAS and Link, and an LD's HDM decoders (Table 18.3, R496). -/
def componentCaps (fn : Nat) : List Nat :=
  [0x2 + 2 ^ 16 + 0x100 * 2 ^ 20, 0x4 + 2 ^ 16 + 0x180 * 2 ^ 20] ++ (if fn < 16 then [0x5 + 2 ^ 16 + 0x200 * 2 ^ 20] else [])

/-- A dword of the component (below 0x10000) or device registers of a function. -/
def Dev.standardDword (d : Dev) (fn off : Nat) : Nat :=
  let caps := componentCaps fn
  let x := d.mbox fn
  if off = 0x1000 then 0x1 + 2 ^ 16 + 2 ^ 20 + caps.length * 2 ^ 24
  else if 0x1004 ≤ off ∧ off < 0x1004 + 4 * caps.length then caps.getD ((off - 0x1004) / 4) 0
  else if 0x10120 ≤ off ∧ off < 0x10320 then kvGet (fun _ => 0) x.payload ((off - 0x10120) / 4)
  else match off with
    | 0x10000 => 2 ^ 16
    | 0x10004 => 3
    | 0x10010 => 0x1 + 2 ^ 16 | 0x10014 => 0x40 | 0x10018 => 8
    | 0x10020 => 0x2 + 2 ^ 16 | 0x10024 => 0x100 | 0x10028 => 0x220
    | 0x10030 => 0x4000 + 2 ^ 16 | 0x10034 => 0x50 | 0x10038 => 8
    | 0x10040 => (logOrder.map fun s => b2n (decide (0 < d.logged fn s)) * 2 ^ s.code).sum
    | 0x10050 => d.memStatus fn
    | 0x10100 => 9
    | 0x10104 => 0
    | 0x10108 => x.opcode + x.len % 2 ^ 16 * 2 ^ 16
    | 0x1010C => x.len / 2 ^ 16 % 2 ^ 5
    | 0x10114 => x.code
    | _ => (Config.standardDword fn off).toNat

/-- A write of one: the mailbox's registers take it; its doorbell starts the command. -/
def Dev.standardWrite (d : Dev) (fn off v : Nat) : Dev :=
  if 0x10120 ≤ off ∧ off < 0x10320 then
    d.modMbox fn fun x => { x with payload := kvSet (fun _ => 0) x.payload ((off - 0x10120) / 4) v }
  else match off with
    | 0x10104 => if bitOf v 0 then d.mboxRun fn else d
    | 0x10108 => d.modMbox fn fun x => { x with opcode := v % 2 ^ 16, len := v / 2 ^ 16 % 2 ^ 16 }
    | _ => d

end Sys2Proof.Machine
end

