-- ==== Sys2Proof/Machine/RegAccess.lean ====
section
/-! DEFINITION. Register accesses (chapter 18): where an access leads, what R462 and R465 make of it, what a register reads as,
what a write does (R467), the CXL component registers and the configuration fields that the manual names, and the global
interrupt (R476). -/

namespace Sys2Proof.Machine

/-! ### Counters by offset (Tables 17.2 and 18.4) -/

/-- A run of counters: `off` lies in one of `n` instances `stride` apart from `base`, `c` counters each; `id`: the first ID. -/
def counterRun (off base n stride c id : Nat) : Option Nat :=
  (runIndex2 base n stride c 8 off).map fun p => id + p.1 * c + p.2

/-- The counter whose register begins at a management-view offset. -/
def counterAt (off : Nat) : Option Nat :=
  [ (List.range 4).findSome? fun p => counterRun off (0x210000 + 0x40000 * p) 2 0x100 32 (64 * p),
    counterRun off 0x220000 16 0x40 8 256, counterRun off 0x408000 16 0x10000 40 384, counterRun off 0x500000 16 0x100 12 1024,
    counterRun off 0x610000 4 0x40000 32 1216, counterRun off 0x701000 32 0x80 16 1344, counterRun off 0x801000 28 0x80 10 1856,
    counterRun off 0x802000 4 0x40 8 2136, counterRun off 0x910000 24 0x20000 50 2168, counterRun off 0xC08000 4 0x10000 24 3368,
    counterRun off 0xE01000 17 0x2000 8 3464, counterRun off 0xF01000 1 0x40 8 3600 ].findSome? id

/-! ### The HDM decoder structure (R60, R475; layout: log entry 52) -/

/-- The HDM Decoder Capability register for what Table 3.3 supports, with the bits where CXL 3.1 has them (log entry 52): eight
decoders, interleave on HPA[11:8] and HPA[14:12], poison on decode errors (R63), ways of 3, 6, 12 and of 16, UIO on all eight. -/
def hdmCapability : Nat := 4 + 2 ^ 8 + 2 ^ 9 + 2 ^ 10 + 2 ^ 11 + 2 ^ 12 + 2 ^ 13 + 8 * 2 ^ 16

/-- A dword of an LD's HDM Decoder Capability Structure. -/
def Dev.hdmDword (d : Dev) (n off : Nat) : Nat :=
  if off = 0 then hdmCapability
  else if off < 0x10 then 0
  else
    let x := d.hdm n ((off - 0x10) / 0x20)
    match (off - 0x10) % 0x20 with
    | 0x00 => x.base % 2 ^ 32
    | 0x04 => x.base / 2 ^ 32
    | 0x08 => x.size % 2 ^ 32
    | 0x0C => x.size / 2 ^ 32
    | 0x10 => x.ig + x.iw * 2 ^ 4 + b2n x.lock * 2 ^ 8 + b2n x.commit * 2 ^ 9 + b2n x.committed * 2 ^ 10 + b2n x.err * 2 ^ 11
    | 0x14 => x.skip % 2 ^ 32
    | 0x18 => x.skip / 2 ^ 32
    | _ => 0

/-- A write to a dword of an LD's decoders (R58, R60, R62); one that is locked and committed ignores it. Rewriting a committed decoder
that is not locked is a host error (R64). -/
def Dev.hdmWrite (d : Dev) (n off v : Nat) : Dev :=
  let i := (off - 0x10) / 0x20
  let x := d.hdm n i
  if off < 0x10 ∨ (x.committed && x.lock) then d
  else
    let k := (off - 0x10) % 0x20
    let d := if x.committed && k != 0x10 && decide (k ≤ 0x18) && d.hdmDword n off != v then d.goWild n else d
    let lo (y : Nat) : Nat := y / 2 ^ 32 * 2 ^ 32 + v / 2 ^ 28 % 16 * 2 ^ 28
    let hi (y : Nat) : Nat := y % 2 ^ 32 + v * 2 ^ 32
    match (off - 0x10) % 0x20 with
    | 0x00 => d.setHdm n i { x with base := lo x.base }
    | 0x04 => d.setHdm n i { x with base := hi x.base }
    | 0x08 => d.setHdm n i { x with size := lo x.size }
    | 0x0C => d.setHdm n i { x with size := hi x.size }
    | 0x10 =>
      if bitOf v 9 then d.hdmCommit n i (bitsOf v 3 0) (bitsOf v 7 4) (bitOf v 8)
      else if x.commit && !x.err then d.hdmUncommit n i
      else d.setHdm n i { x with ig := bitsOf v 3 0, iw := bitsOf v 7 4, lock := bitOf v 8, commit := false }
    | 0x14 => d.setHdm n i { x with skip := lo x.skip }
    | 0x18 => d.setHdm n i { x with skip := hi x.skip }
    | _ => d

/-! ### Where an access leads (R456, R458, R461, R462, R465) -/

/-- What a dword of a view belongs to. -/
inductive RegSlot where
  /-- a 32-bit register, or half `hi` of a 64-bit one -/
  | whole (r : Reg)
  | half (r : Reg) (hi : Bool)
  /-- as `whole` and `half`, but writes are ignored in this view -/
  | shown (r : Reg) (hi : Bool)
  | counter (id : Nat) (hi : Bool)
  /-- reads zero, ignores writes -/
  | zero
  | hdm (n off : Nat) (writable : Bool)
  /-- component and device registers of a function, which follow the standard -/
  | standard (fn off : Nat)
  deriving DecidableEq, Repr

/-- A dword of the management view. -/
def mgmtSlot (off : Nat) : Option RegSlot :=
  if off < 0x20000 then some (.standard 16 off)
  else if 0x101000 ≤ off ∧ off < 0x103000 ∧ (off - 0x101000) % 0x200 < 0x110 then
    some (.hdm ((off - 0x101000) / 0x200) ((off - 0x101000) % 0x200) false)
  else match regAt off with
    | some r => some (if r.width = 32 then .whole r else .half r false)
    | none =>
      match (if off % 8 = 4 then regAt (off - 4) else none) with
      | some r => if r.width = 64 then some (.half r true) else none
      | none => (counterAt (off / 8 * 8)).map fun id => .counter id (off % 8 == 4)

/-- A dword of LD `n`'s tenant window (Table 18.3). -/
def tenantSlot (n off : Nat) : Option RegSlot :=
  if 0x1200 ≤ off ∧ off < 0x1310 then some (.hdm n (off - 0x1200) true)
  else if off < 0x20000 then some (.standard n off)
  else if off < 0x22000 then
    match mgmtSlot (0xE00000 + 0x2000 * n + (off - 0x20000)) with
    | some (.counter _ _) => none
    | x => x
  else if 0x30000 ≤ off ∧ off < 0x30040 then some (.counter (256 + 8 * n + (off - 0x30000) / 8) (off % 8 == 4))
  else if 0x30040 ≤ off ∧ off < 0x30080 then some (.counter (3464 + 8 * n + (off - 0x30040) / 8) (off % 8 == 4))
  else if off = 0x40000 then some (.shown (.cipLdkey n) false)
  else if off = 0x40004 then some .zero
  else if off = 0x40008 then some (.shown (.gblLdwin n) false)
  else if off = 0x4000C then some (.shown (.gblLdwin n) true)
  else none

def RegView.slot : RegView → Nat → Option RegSlot
  | .mgmt, off => mgmtSlot off
  | .tenant n, off => tenantSlot n off
  | .config _, _ => none

/-- Registers that the management controller serves (R465). -/
def Reg.managed : Reg → Bool
  | .gblAvsCtrl | .gblAvsQ _ | .gblAvsSpd _ => true
  | r => decide (0x1000000 ≤ r.offset) && decide (r.offset < 0x1200000)

/-- The register that a slot belongs to. -/
def RegSlot.reg : RegSlot → Option Reg
  | .whole r | .half r _ | .shown r _ => some r
  | _ => none

/-- The management controller serves no register: it restarts, or is in recovery (R465). -/
def Dev.mgmtOff (d : Dev) : Bool := d.mgt.restarting || d.mgt.power == .recovery

/-- The access is to a block that Table 14.1 marks off for the device's role; HP, HOME, SWD, TED, BAL, CIP and RNG on a member. -/
def Dev.blockOff (d : Dev) (view : RegView) (off : Nat) : Bool :=
  d.role != 0 && (match view with
    | .mgmt => [0x2, 0x4, 0x5, 0x6, 0x7, 0x8, 0xE].contains (off / 0x100000)
    | _ => false)

/-- Configuration space, whose accesses R462 does not concern. -/
def RegView.isConfig : RegView → Bool
  | .config _ => true
  | _ => false

/-- Function of a view: an LD's, or the management view's. -/
def RegView.fn : RegView → Nat
  | .mgmt => 16
  | .tenant n | .config n => n

/-- CAUSE of Table 18.9 for an access, or none when it reaches what it addresses. -/
def Dev.accessCause (d : Dev) (view : RegView) (off size : Nat) : Option Nat :=
  if view.isConfig then none
  else if (size ≠ 4 ∧ size ≠ 8) ∨ off % size ≠ 0 then some 2
  else if d.blockOff view off then some 4
  else
    let slots := (List.range (size / 4)).map fun i => view.slot (off + 4 * i)
    if slots.all Option.isNone then some 1
    else if d.mgmtOff ∧ (slots.any fun x => ((x.bind RegSlot.reg).map Reg.managed).getD false) then some 3
    else none

/-- GBL_ACCERR records an access (R474). -/
def Dev.accErr (d : Dev) (view : RegView) (head off cause : Nat) : Dev :=
  let seen := d.flag .gblAccerr F.gblAccerr_SEEN
  let d := d.bumpFld .gblAccerr F.gblAccerr_COUNT
  if seen then d
  else
    let (mgt, ld) := match view with
      | .tenant n => (0, n)
      | _ => (1, 0)
    let d := ((d.setFlag .gblAccerr F.gblAccerr_SEEN true).setFld .gblAccerr F.gblAccerr_CAUSE cause).setFld
      .gblAccerr F.gblAccerr_HEAD (head % 8)
    ((d.setFld .gblAccerr F.gblAccerr_MGT mgt).setFld .gblAccerr F.gblAccerr_LD ld).setFld .gblAccerr F.gblAccerr_OFFSET off

/-! ### What registers read as (R466) -/

/-- GBL_INT_STAT (Table 18.10). -/
def Dev.intStat (st : Stile) (d : Dev) : Nat :=
  let bit (i : Nat) (b : Bool) : Nat := b2n b * 2 ^ i
  let (s0, s1) := d.crossSum
  bit 7 ((List.range 24).any fun c => (List.range 8).any fun r => d.rd (.chnEccRank c r) &&& 0xC != 0) +
  bit 6 (d.flag .tedPoolStat F.tedPoolStat_FLOOR_SEEN) + bit 5 (d.rd .balFault != 0) +
  bit 4 ((List.range 4).any fun p => d.flag (.leyErr p) F.leyErr_FOLD) +
  bit 3 (st.pfw || st.count != 0) + bit 2 (d.rd .talWatchstat != 0) +
  bit 1 ((List.range 4).any fun q => d.flag (.gblAvsQ q) F.gblAvsQ_AT_CEIL || d.flag (.gblAvsQ q) F.gblAvsQ_BUS_ERR) +
  bit 0 (s0 &&& d.rd .crossIntEn0 != 0 || s1 &&& d.rd .crossIntEn1 != 0)

/-- Requests of a slice in a phase. -/
def Dev.queued (d : Dev) (slice : Nat) (p : TPhase) : Nat :=
  (d.home.txns.filter fun t => t.phase == p && homeOf t.line == slice).length

/-- Bits [7:0] per subchannel of a count over its queues. -/
def Dev.subCount (d : Dev) (c i : Nat) (f : SubCh → Nat) : Nat := f ((d.chn c).sub i)

/-- Value of a register of the main die, before WO and RSV fields are blanked: the stored one, with the fields that show queues
and other units' state. -/
def Dev.shownReg (st : Stile) (d : Dev) (r : Reg) : Nat :=
  let v := d.rd r
  let put (f : Fld) (x v : Nat) : Nat := putBits v f.hi f.lo x
  match r with
  | .gblIntStat => d.intStat st
  | .hpStat p h => put F.hpStat_LDCNT (d.ldsOf (2 * p + h)).length v
  | .hpBmstat p h =>
    put F.hpBmstat_OUTSTANDING (d.head (2 * p + h)).reads.length (put F.hpBmstat_QUARANTINED (d.head (2 * p + h)).quar.length v)
  | .homeQstat s => put F.homeQstat_STBY (d.queued s .stand) (put F.homeQstat_LWQ (d.queued s .lineWait) v)
  | .balStat => put F.balStat_AVAIL d.balCount v
  | .balQ n =>
    let js := d.bal.jobs.filter fun j => j.baler == some n
    b2n (js.any (·.started)) * 2 ^ 31 + satTo 7 js.length * 2 ^ 24 + d.balBytes n
  | .cipQstat q =>
    put F.cipQstat_REENC (d.reencUsed q) (put F.cipQstat_HELD (d.cip.holds.filter fun h => h.q == q).length v)
  | .chnQstat c =>
    d.subCount c 1 (·.rdq.length) * 2 ^ 24 + d.subCount c 1 (·.wrq.length) * 2 ^ 16 + d.subCount c 0 (·.rdq.length) * 2 ^ 8 +
      d.subCount c 0 (·.wrq.length)
  | .chnNrfstat c =>
    put F.chnNrfstat_OCC_B (d.subCount c 1 (·.nrq.length)) (put F.chnNrfstat_OCC_A (d.subCount c 0 (·.nrq.length)) v)
  | .casFoldstat =>
    let maps := ((List.range 8).map fun m => b2n (decide (1 ≤ m) && d.cas.foldMap.any fun b => b / 2 ^ 27 == m) * 2 ^ m).sum
    put F.casFoldstat_BMAP (maps / 2) (put F.casFoldstat_LIST d.cas.foldList.length v)
  | .rngCrTail s q => if d.crEn s q then put F.rngCrTail_TAIL (d.tailRecv s q) v else v
  | .rngCrStat s q => put F.rngCrStat_ACTIVE (b2n (d.crActive s q)) (put F.rngCrStat_RUN (d.crRunning s q) v)
  | .talStat =>
    let busy := b2n (d.rng.run.any fun x => x.op == .snapshot)
    put F.talStat_BUSY busy (put F.talStat_PASS busy v)
  | .talTime => d.nowNs
  | .crossSum0 => d.crossSum.1
  | .crossSum1 => d.crossSum.2
  | _ => v

/-- On a member only CAS_ID of the CAS block is in use; the other offsets read as zero (R386). -/
def Dev.casHidden (d : Dev) (r : Reg) : Bool :=
  d.role != 0 && decide (0xD00000 ≤ r.offset) && decide (r.offset < 0xE00000) && r != .casId

/-- What a read of a register of the main die or the Stile proxy returns (R386, R410, R465, R466). -/
def Dev.readReg (st : Stile) (d : Dev) (r : Reg) : Nat :=
  let isStile := decide (0x1000000 ≤ r.offset) && decide (r.offset < 0x1100000)
  if (r.managed && d.mgmtOff) || (isStile && d.mgt.stlLost) then 2 ^ r.width - 1
  else if d.casHidden r then 0
  else r.readMask (if isStile then st.read r else d.shownReg st r)

/-- A dword of a slot. -/
def Dev.readSlot (st : Stile) (d : Dev) (x : RegSlot) : Nat :=
  (match x with
  | .whole r => d.readReg st r
  | .half r hi | .shown r hi => d.readReg st r / 2 ^ (if hi then 32 else 0)
  | .counter id hi => d.counter id / 2 ^ (if hi then 32 else 0)
  | .zero => 0
  | .standard fn off => d.standardDword fn off
  | .hdm n off _ => d.hdmDword n off) % 2 ^ 32

/-- A read: all ones where R465 refuses it, zero where R462 does; of configuration space, the dword. -/
def Dev.readAccess (st : Stile) (d : Dev) (view : RegView) (off size : Nat) : Nat :=
  if view.isConfig then d.cfgDword view.fn (off / 4 * 4) else
  match d.accessCause view off size with
  | some 3 => 2 ^ (8 * size) - 1
  | some _ => 0
  | none => ((List.range (size / 4)).map fun i =>
      ((view.slot (off + 4 * i)).map (d.readSlot st)).getD 0 * 2 ^ (32 * i)).sum

/-! ### What a write does (R467) -/

/-- The fields of a write, with some fields left as they stand. -/
def Dev.writeKeeping (d : Dev) (r : Reg) (keep : List Fld) (w : Nat) : Dev :=
  d.writeFields r (keep.foldl (fun w f => putBits w f.hi f.lo (d.fld r f)) w)

/-- Evaluates a request bit that has been written. -/
def Dev.edge (d : Dev) (old new : Bool) (up down : Dev → Dev) : Dev :=
  if new && !old then up d else if old && !new then down d else d

/-- A set that is committed, or on its way, uses a target entry (R71). -/
def Dev.tgtHeld (d : Dev) (k : Nat) : Bool :=
  (List.range 16).any fun n => d.setKept n &&
    ((d.setGeo n).map fun g => decide (g.tbase ≤ k) && decide (k < g.tbase + g.m * g.w)).getD false

/-- A committed set uses a channel of this device (R77). A member learns that its dealer's sets use a channel from the entries that it gets
for it (R72, log entry 117). -/
def Dev.chanHeld (d : Dev) (c : Nat) : Bool :=
  if d.role ≠ 0 then d.cas.served.contains c else
  (List.range 16).any fun n => d.setCommitted n &&
    ((d.setGeo n).map fun g => (d.setTargets g).any fun t => t.1 == d.role && t.2.1 == c).getD false

/-- CHN_RANKMAP with a write of `w`: entries that are valid stay while a committed set uses the channel (R77). -/
def Dev.rankmapWrite (d : Dev) (c w : Nat) : Nat :=
  if !d.chanHeld c then w % 2 ^ 32
  else
    let v := d.rd (.chnRankmap c)
    ((List.range 8).map fun l =>
      let e := bitsOf v (4 * l + 3) (4 * l)
      (if 8 ≤ e then e else bitsOf w (4 * l + 3) (4 * l)) * 2 ^ (4 * l)).sum

/-- The register that sets a unit's largest lag back, by unit. -/
def Reg.lagUnit : Reg → Option LagUnit
  | .tedEpochMaxlag t => some (.epoch t)
  | .chnRefMaxlag c => some (.refresh c)
  | .chnScrubMaxlag c => some (.scrub c)
  | .talSweepMaxlag => some .sweep
  | _ => none

/-- A write of a register of the main die outside the Stile proxy and GBL_RESET. -/
def Dev.writeDev (d : Dev) (r : Reg) (w : Nat) : Dev :=
  match r with
  | .gblIntCtrl =>
    let d := d.writeFields r w
    if bitOf w 31 then d.setFlag r F.gblIntCtrl_ARMED true else d
  | .gblAvsQ q => (d.writeKeeping r [F.gblAvsQ_SETPOINT] w).avsWrite q (bitsOf w 23 16)
  | .gblLdwin n =>
    let old := d.winEn n
    let d := d.writeKeeping r (F.gblLdwin_EN :: if old then [F.gblLdwin_BASE, F.gblLdwin_FIELDS] else []) w
    d.edge old (bitOf w 63) (·.winEnable n) (·.winDisable n)
  | .gblFtab => if d.anyWindow then d else d.writeFields r w
  | .gblLdbind n =>
    let old := d.bound n
    let d := d.writeKeeping r (F.gblLdbind_EN :: if old then [F.gblLdbind_HEAD, F.gblLdbind_LDID] else []) w
    d.edge old (bitOf w 31) (·.bindEnable n) (·.bindDisable n)
  | .hpCfg p => (d.writeFields r w).splitTakes p
  | .homeCtrl => (d.writeKeeping r [F.homeCtrl_DEFHINT] w).defhintWrite (bitsOf w 5 4)
  | .homeGrant n => d.grantWrite n w
  | .tedPool k =>
    let en := d.poolEn k
    let drain := d.flag r F.tedPool_DRAIN
    let d := d.writeKeeping r ([F.tedPool_EN, F.tedPool_DRAIN] ++ if en then [F.tedPool_BASE, F.tedPool_SIZE] else []) w
    let d := d.edge en (bitOf w 63) (·.poolEnable k) (·.poolDisable k)
    d.edge drain (bitOf w 62) (·.poolDrain k) (·.poolUndrain k)
  | .tedWm => d.wmWrite w
  | .tedCtrl t =>
    let d := d.writeFields r w
    if bitOf w 31 || d.ted.working.contains t then d else d.modTed fun y => { y with epoch := y.epoch.modify t fun x => { x with running := false } }
  | .tedLdcap n =>
    d.writeKeeping r (if d.winEn n then [F.tedLdcap_QUOTA, F.tedLdcap_OVC, F.tedLdcap_TIERED, F.tedLdcap_COMMIT] else []) w
  | .tedLdflat n => if d.winEn n then d else d.writeFields r w
  | .balEn => d.balEnWrite w
  | .balFault => ((List.range 32).filter fun b => bitOf w b && d.balFaulted b).foldl Dev.balerReset d
  | .chnSpare c =>
    let d := d.writeKeeping r (if d.inService c then [F.chnSpare_EN, F.chnSpare_RANK] else []) w
    let d := if bitOf w 31 then d.spareStart c else d
    if bitOf w 30 then d.rankRetire c else d
  | .chnFchg c =>
    let d := d.writeFields r w
    if bitOf w 31 then d.fchgStart c else d
  | .chnSched c =>
    let d := d.writeFields r w
    d.modQ c fun ch => { ch with subs := ch.subs.map (·.drainStep (d.wrHi c) (d.wrLo c)) }
  | .chnRfm c =>
    let d := d.writeFields r w
    if d.rfmOn c then d else d.modChn c fun ch => { ch with subs := ch.subs.map fun s => { s with raa := [], rfmDue := [], rfmFull := [] } }
  | .chnAmap c => if d.chanHeld c then d else d.writeFields r w
  | .chnRankmap c => d.wr r (d.rankmapWrite c w)
  | .chnTim0 c x | .chnTim1 c x | .chnTim2 c x | .chnTim3 c x => if x = d.activeSet c then d else d.writeFields r w
  | .leyCtrl p =>
    let old := d.flag r F.leyCtrl_EN
    let d := d.writeFields r w
    let d := d.edge old (bitOf w 31) (·.leyEnable p) (·.leyDisable p)
    let d := if bitOf w 30 then d.leyRetrain p 4 else d
    if bitOf w 29 then d.leyResize p (d.fld r F.leyCtrl_RS_WIDTH) else d
  | .leyCred p v => if bitOf w 63 then d.credClr p v else d
  | .casCtrl =>
    let d := d.writeFields r w
    let d := if bitOf w 30 then d.casReopen else d
    if bitOf w 29 then d.casForget else d
  | .casFoldmap =>
    if d.anyJoined then d
    else
      let old := d.flag r F.casFoldmap_V
      (d.writeFields r w).edge old (bitOf w 63) (·.foldmapEnable) id
  | .casMacc =>
    let d := d.writeFields r w
    if bitOf w 63 then d.memberAccess else d
  | .casSetMap n => if d.setKept n then d else d.writeFields r w
  | .casSetCtrl n =>
    let d := d.writeKeeping r (if d.setKept n then
      [F.casSetCtrl_ERR, F.casSetCtrl_TBASE, F.casSetCtrl_WAYS2, F.casSetCtrl_GRAIN2, F.casSetCtrl_WAYS1, F.casSetCtrl_GRAIN1] else []) w
    if bitOf w 31 then d.setCommit n else d.setUncommit n
  | .casTgt k => if d.tgtHeld k then d else d.writeFields r w
  | .rngCrBase s q => if d.crEn s q then d else d.writeFields r w
  | .rngCrCtrl s q =>
    let old := d.crEn s q
    let d := d.writeKeeping r (F.rngCrCtrl_EN :: if old then [F.rngCrCtrl_SIZE, F.rngCrCtrl_CQ] else []) w
    d.edge old (bitOf w 31) (·.crEnable s q) (·.crDisable s q)
  | .rngCrTail s q => d.doorbell s q (w % 2 ^ 16)
  | .rngCqBase s q => if d.cqEn s q then d else d.writeFields r w
  | .rngCqCtrl s q =>
    let old := d.cqEn s q
    let d := if s < 16 ∧ 32 ≤ bitsOf w 27 22 then d.goWild s else d
    let d := d.writeKeeping r (F.rngCqCtrl_EN :: if old then [F.rngCqCtrl_SIZE] else []) w
    d.edge old (bitOf w 31) (·.cqEnable s q) (·.cqDisable s q)
  | .rngCqHead s q => d.cqHeadWrite s q (w % 2 ^ 16)
  | .talWatch k => d.watchWrite k w
  | r =>
    match r.lagUnit with
    | some u => if bitOf w 31 then d.maxlagClr u else d
    | none => d.writeFields r w

/-- The LD whose ring set a register belongs to. -/
def Reg.ringLd (r : Reg) : Option Nat :=
  if 0xE00000 ≤ r.offset ∧ r.offset < 0xE20000 then some ((r.offset - 0xE00000) / 0x2000) else none

/-- A write of one register, whole. A non-zero value in a reserved field is a host error (Table 0.3): of the LD whose ring set the
register belongs to, or of no LD, where the write's other fields take effect (log entry 15). -/
def Dev.writeReg (nv : Nv) (p : Dev × Stile) (r : Reg) (w : Nat) : Dev × Stile :=
  let (d, st) := p
  match (if r.rsvError w then r.ringLd else none) with
  | some n => (d.goWild n, st)
  | none =>
  if d.casHidden r then (d, st)
  else if 0x1000000 ≤ r.offset ∧ r.offset < 0x1100000 then (d, if d.mgt.stlLost || !st.running then st else st.write r w)
  else if r = .gblReset then (if w % 256 = 0xA5 then d.askReset nv st 0 else (d, st))
  else (d.writeDev r w, st)

/-- The 64-bit write that a write of one half amounts to: the other half as it stands, its RW1C and WO bits 0 (R461). -/
def Dev.widen (st : Stile) (d : Dev) (r : Reg) (hi : Bool) (v : Nat) : Nat :=
  let old := d.readReg st r
  let keep := old - (old &&& r.accMask [.rw1c, .wo])
  if hi then keep % 2 ^ 32 + v % 2 ^ 32 * 2 ^ 32 else keep / 2 ^ 32 * 2 ^ 32 + v % 2 ^ 32

def Dev.writeDword (nv : Nv) (p : Dev × Stile) (x : RegSlot) (v : Nat) : Dev × Stile :=
  match x with
  | .whole r => Dev.writeReg nv p r v
  | .half r hi => Dev.writeReg nv p r (p.1.widen p.2 r hi v)
  | .hdm n off true => (p.1.hdmWrite n off v, p.2)
  | .standard fn off => (p.1.standardWrite fn off v, p.2)
  | _ => p

/-- The 64-bit register that a 64-bit access at an offset reaches whole. -/
def RegView.wide (view : RegView) (off size : Nat) : Option Reg :=
  if size = 8 then
    match view.slot off with
    | some (.half r false) => some r
    | _ => none
  else none

/-- A write access that reaches registers: whole, or dword by dword from the lower address up (R461). A dword that holds no register is
recorded. -/
def Dev.writeAccess (nv : Nv) (p : Dev × Stile) (view : RegView) (head off size v : Nat) : Dev × Stile :=
  match view.wide off size with
  | some r => Dev.writeReg nv p r v
  | none => (List.range (size / 4)).foldl (fun p i =>
      match view.slot (off + 4 * i) with
      | some x => Dev.writeDword nv p x (v / 2 ^ (32 * i) % 2 ^ 32)
      | none => (p.1.accErr view head (off + 4 * i) 1, p.2)) p

/-- A write to configuration space: an aligned dword of the 4 KiB. -/
def Dev.configAccess (d : Dev) (fn off size v : Nat) : Dev :=
  if off < 4096 ∧ off % 4 = 0 ∧ size = 4 then d.cfgWrite fn off v else d

/-- An access that its head does not carry to the function: an unsupported request of the head, while it is up (R85, R89, R109). -/
def Dev.unreached (d : Dev) (h : Nat) : Dev := if h < 8 ∧ d.headUp h then d.aer h 0xFF .unsupportedRequest else d

/-! ### Commands that write one register -/

/-- A command that stands for an access to a register: refused as R462 and R465 say, else `f`. -/
def Dev.viaReg (d : Dev) (r : Reg) (f : Dev → Dev) : Dev :=
  if regAt r.offset ≠ some r then d
  else match d.accessCause .mgmt r.offset (r.width / 8) with
  | some c => d.accErr .mgmt d.hp.mgmtHead r.offset c
  | none => if d.casHidden r then d else f d

/-- As `viaReg`, for a register of the Stile proxy, which a failed link does not reach (R410). -/
def Dev.viaStile (d : Dev) (st : Stile) (r : Reg) (f : Stile → Stile) : Dev × Stile :=
  if regAt r.offset ≠ some r then (d, st)
  else match d.accessCause .mgmt r.offset (r.width / 8) with
  | some c => (d.accErr .mgmt d.hp.mgmtHead r.offset c, st)
  | none => (d, if d.mgt.stlLost || !st.running then st else f st)

/-! ### Registers of a member (R374) -/

/-- The answer to a register access of the dealer: the dword, and whether R462 or R465 refuses the offset (log entry 54); none
goes out on a link that is down. -/
def Dev.regAnswer (d : Dev) (value : Nat) (bad : Bool) : Dev :=
  match d.upstream with
  | some u => if !d.leyUp u then d else d.pushTx u { vc := 3, op := 0x23, dev := d.role, la := b2n bad, md := value }
  | none => d

/-- REGRD on a member, while it accepts the dealer's entries (R383). -/
def Dev.regRd (st : Stile) (d : Dev) (p : Nat) : Dev :=
  match d.takeMgt p 0x22 with
  | none => d
  | some (e, d) =>
    if d.mine e then
      if !d.cas.takes then d
      else match d.accessCause .mgmt e.la 4 with
      | some c => (d.accErr .mgmt 0 e.la c).regAnswer (d.readAccess st .mgmt e.la 4) true
      | none => d.regAnswer (d.readAccess st .mgmt e.la 4) false
    else if d.role ≠ 0 then d.forwardMgt p e else d

/-- REGWR on a member, while it accepts the dealer's entries (R383): the dword is written, and what the register then reads as is written back. -/
def Dev.regWr (nv : Nv) (st : Stile) (d : Dev) (p : Nat) : Dev × Stile :=
  match d.takeMgt p 0x24 with
  | none => (d, st)
  | some (e, d) =>
    if d.mine e then
      if !d.cas.takes then (d, st)
      else match d.accessCause .mgmt e.la 4 with
      | some c => ((d.accErr .mgmt 0 e.la c).regAnswer e.md true, st)
      | none =>
        let (d, st) := Dev.writeAccess nv (d, st) .mgmt 0 e.la 4 e.md
        (d.regAnswer e.md false, st)
    else if d.role ≠ 0 then (d.forwardMgt p e, st) else (d, st)

/-- REGWR, which may have to wait where this member forwards it. -/
def Dev.regWrTurn (nv : Nv) (st : Stile) (d : Dev) (p : Nat) : Dev × Stile :=
  match d.mgtStall p 0x24 with
  | some q => (d.overrun (.leyTx q), st)
  | none => d.regWr nv st p

/-- An entry that a member's upstream port accepted is delivered, register accesses included. -/
def rxMember (nv : Nv) (p : Nat) (s : Dev × Stile) (e : Nat × LeyEnt) : Dev × Stile :=
  if e.2.vc = 3 ∧ e.2.op = 0x22 then (s.1.regRd s.2 p, s.2)
  else if e.2.vc = 3 ∧ e.2.op = 0x24 then s.1.regWr nv s.2 p
  else (s.1.rxHome p e, s.2)

/-- The core acts on a kind of a Ley port's event crossing (Table 2.7): link down, for the role that the device has, once the entries
accepted before it have been delivered (R48); retrain complete (R370). -/
def leyKind (nv : Nv) (p : Nat) (s : Dev × Stile) (k : Nat) : Dev × Stile :=
  if k ≠ 0 then (s.1.reDistance, s.2)
  else if (s.1.lp p).down.isNone then s
  else if s.1.role = 0 then (s.1.foldAct p, s.2)
  else if s.1.upstream = some p then
    let s := (s.1.lp p).rxq.foldl (rxMember nv p) s
    (s.1.memberDownAct p, s.2)
  else (s.1.downstreamAct p, s.2)

/-- A Ley port's events reach the core, when the entries before them let them pass (R48). -/
def leyEvents (nv : Nv) (p : Nat) (s : Dev × Stile) : Dev × Stile :=
  if 0 < (s.1.xevt (.leyEvt p)).wait then s
  else
    let t := s.1.eventTransfer (.leyEvt p)
    t.1.foldl (leyKind nv p) (t.2, s.2)

/-- MEMBER_LINK_DOWN (R383): the transfer with the link-down, and one ahead of it. -/
def memberLinkDown (nv : Nv) (p : Nat) (s : Dev × Stile) : Dev × Stile :=
  if s.1.role ≠ 0 ∧ s.1.upstream = some p ∧ (s.1.lp p).down.isSome ∧ s.1.downHeard p then
    let t := leyEvents nv p s
    if (t.1.lp p).down.isSome then leyEvents nv p t else t
  else s

/-! ### The global interrupt (R476) -/

/-- Sends the message when ARMED is set and the masked status is not zero. -/
def Dev.globalInterrupt (st : Stile) (d : Dev) : Dev :=
  if d.flag .gblIntCtrl F.gblIntCtrl_ARMED && d.intStat st &&& d.rd .gblIntEn != 0 then
    (d.setFlag .gblIntCtrl F.gblIntCtrl_ARMED false).emit (.msix 16 (d.fld .gblIntCtrl F.gblIntCtrl_VECTOR))
  else d

end Sys2Proof.Machine
end

