-- ==== Sys2Proof/WellFormed.lean ====
section
/-! DEFINITION. Which commands name something that the device has: every operand inside the range of what it numbers. A command
with an operand outside it names nothing, and changes nothing (log entry 62). -/

namespace Sys2Proof

/-- The unit exists: 24 channels, 4 Tedders (R11, R57). -/
def Machine.LagUnit.ok : Machine.LagUnit → Bool
  | .refresh c | .scrub c => decide (c < 24)
  | .epoch t => decide (t < 4)
  | .sweep => true

/-- The view exists: the tenant windows of 16 LDs (R458). -/
def Machine.RegView.ok : Machine.RegView → Bool
  | .tenant n => decide (n < 16)
  | .config n => decide (n < 17)
  | _ => true

/-- The operands of a command are in range. -/
def Instr.wf : Instr → Bool
  | .memRd h ldid hpa tag _ _ _ => decide (h < 8) && decide (ldid < 16) && decide (hpa < 2 ^ 52) && decide (tag < 2 ^ 16)
  | .memRdData h ldid hpa tag _ => decide (h < 8) && decide (ldid < 16) && decide (hpa < 2 ^ 52) && decide (tag < 2 ^ 16)
  | .memInv h ldid hpa tag _ _ => decide (h < 8) && decide (ldid < 16) && decide (hpa < 2 ^ 52) && decide (tag < 2 ^ 16)
  | .memInvNt h ldid hpa tag _ _ => decide (h < 8) && decide (ldid < 16) && decide (hpa < 2 ^ 52) && decide (tag < 2 ^ 16)
  | .memSpecRd h ldid hpa => decide (h < 8) && decide (ldid < 16) && decide (hpa < 2 ^ 52)
  | .memClnEvct h ldid hpa tag _ => decide (h < 8) && decide (ldid < 16) && decide (hpa < 2 ^ 52) && decide (tag < 2 ^ 16)
  | .memWr h ldid hpa tag _ _ _ _ _ => decide (h < 8) && decide (ldid < 16) && decide (hpa < 2 ^ 52) && decide (tag < 2 ^ 16)
  | .memWrPtl h ldid hpa tag _ _ _ _ _ _ => decide (h < 8) && decide (ldid < 16) && decide (hpa < 2 ^ 52) && decide (tag < 2 ^ 16)
  | .birsp ld line _ => decide (ld < 16) && decide (line < 2 ^ 42)
  | .biconflict ld line => decide (ld < 16) && decide (line < 2 ^ 42)
  | .directoryEvictionComplete line => decide (line < 2 ^ 42)
  | .lineLockRelease line => decide (line < 2 ^ 42)
  | .bisnpTimeout ld line => decide (ld < 16) && decide (line < 2 ^ 42)
  | .unresponsiveSweepComplete ld => decide (ld < 16)
  | .homeGrantWrite n v => decide (n < 16) && decide (v < 2 ^ 32)
  | .grantRevocationComplete n => decide (n < 16)
  | .defhintWrite v => decide (v < 4)
  | .tedderSample t par => decide (t < 4) && par.all fun r => decide (r < 4)
  | .headLinkUp h _ proto rate width _ _ =>
    decide (h < 8) && decide (proto < 4) && decide (rate < 7) && [1, 2, 4, 8, 16].contains width
  | .perstNAssert h => decide (h < 8)
  | .perstNRelease h => decide (h < 8)
  | .hotReset h => decide (h < 8)
  | .linkDown h => decide (h < 8)
  | .flr n => decide (n < 16)
  | .cxlReset n => decide (n < 16)
  | .headResetDelivery h => decide (h < 8)
  | .flrComplete n => decide (n < 16)
  | .ideCheckFailure h _ => decide (h < 8)
  | .ideKm h _ key _ => decide (h < 8) && decide (key < 2 ^ 256)
  | .ldbindEnable n => decide (n < 16)
  | .ldbindDisable n => decide (n < 16)
  | .mediaReady n => decide (n < 16)
  | .doeDiscovery fn index => decide (fn < 17) && decide (index < 256)
  | .spdm fn block => decide (fn < 17) && decide (block < 256)
  | .cdatTableAccess fn handle => decide (fn < 17) && decide (handle < 2 ^ 16)
  | .deckRequest fn handle => decide (fn < 17) && decide (handle < 2 ^ 16)
  | .readCompletion h tag _ _ _ _ data => decide (h < 8) && decide (tag < 1024) && data.all (· < 256)
  | .completionTimeout h tag => decide (h < 8) && decide (tag < 1024)
  | .tagQuarantineEnd h tag => decide (h < 8) && decide (tag < 1024)
  | .hdmCommit n i ig iw _ => decide (n < 16) && decide (i < 8) && decide (ig < 16) && decide (iw < 16)
  | .hdmCommitTakesEffect n i => decide (n < 16) && decide (i < 8)
  | .hdmUncommit n i => decide (n < 16) && decide (i < 8)
  | .hdmUncommitTakesEffect n i => decide (n < 16) && decide (i < 8)
  | .addCapacity n first fields _ => decide (n < 16) && decide (first < 2 ^ 27) && decide (fields < 2 ^ 27)
  | .releaseDynamicCapacity n first fields => decide (n < 16) && decide (first < 2 ^ 27) && decide (fields < 2 ^ 27)
  | .forcedRemoval n first fields => decide (n < 16) && decide (first < 2 ^ 27) && decide (fields < 2 ^ 27)
  | .dcRegionConfigure n i base len k => decide (n < 16) && decide (i < 8) && decide (base < 2 ^ 27) && decide (len < 2 ^ 27) && decide (k < 16)
  | .extentRemovalComplete n => decide (n < 16)
  | .ldwinEnable n => decide (n < 16)
  | .windowBuildComplete n => decide (n < 16)
  | .ldwinDisable n => decide (n < 16)
  | .windowTeardownComplete n => decide (n < 16)
  | .setCommit n => decide (n < 16)
  | .setCommitted n => decide (n < 16)
  | .counterRegionReady n => decide (n < 16)
  | .setUncommit n => decide (n < 16)
  | .valueCrossingOffer _ v => decide (v < 2 ^ 64)
  | .valueCrossingAck _ => true
  | .eventCrossingOffer _ _ => true
  | .eventCrossingAck _ => true
  | .queueEntryOffer _ _ => true
  | .queueSlotCredit _ => true
  | .crossingDelivery _ => true
  | .islandReset k => decide (k < 37)
  | .lagBeyondPeriod u => Machine.LagUnit.ok u
  | .maxlagClr u => Machine.LagUnit.ok u
  | .avsDecision => true
  | .avsSettleEnd => true
  | .speedWindowEnd q speed => decide (q < 4) && decide (speed < 2 ^ 16)
  | .avsbusFailure q => decide (q < 4)
  | .avsSetpointWrite q code => decide (q < 4) && decide (code < 256)
  | .busErrClear q => decide (q < 4)
  | .promotionStart page _ => decide (page < 2 ^ 36)
  | .promotionCommit page => decide (page < 2 ^ 36)
  | .sheafRelease page => decide (page < 2 ^ 36)
  | .promotionHoldExpiry page => decide (page < 2 ^ 36)
  | .tedderEpoch t _ par => decide (t < 4) && par.all fun w => decide (w < 2 ^ 17)
  | .demotionStart page _ => decide (page < 2 ^ 36)
  | .relocation _ _ => true
  | .fallowMove page _ => decide (page < 2 ^ 36)
  | .tedderMoveCommit page => decide (page < 2 ^ 36)
  | .poolEnable k => decide (k < 16)
  | .poolDrain k => decide (k < 16)
  | .poolDrained k => decide (k < 16)
  | .poolDisable k => decide (k < 16)
  | .watermarkWrite v => decide (v < 2 ^ 64)
  | .releaseRequestInterval => true
  | .balerJobWaitDispatch => true
  | .balerJobStart b => decide (b < 32)
  | .balerJobComplete b => decide (b < 32)
  | .balerFault b n => decide (b < 32) && decide (n < 4)
  | .balerReset b => decide (b < 32)
  | .balEnWrite v => decide (v < 2 ^ 32)
  | .counterLineMerge => true
  | .reencryptionEntryFree q => decide (q < 4)
  | .reencryptionComplete frame => decide (frame < 2 ^ 36)
  | .eraseSweepComplete n => decide (n < 16)
  | .channelReadReturn c => decide (c < 24)
  | .writeAcceptance c => decide (c < 24)
  | .channelCommandEntry c => decide (c < 24)
  | .commandIssue c i held => decide (c < 24) && decide (i < 2) && held.all fun k => decide (k < 2 ^ 15)
  | .pageIdleTimeout c i _ => decide (c < 24) && decide (i < 2)
  | .refreshDue c r => decide (c < 24) && decide (r < 8)
  | .nrfReseed c _ => decide (c < 24)
  | .dimmThermalRead c _ _ => decide (c < 24)
  | .sidebandError bus hub => decide (bus < 8) && decide (hub < 8)
  | .pmicFault c slots => decide (c < 24) && decide (slots < 4)
  | .channelTrainingComplete c eyeRd eyeWr _ _ _ => decide (c < 24) && decide (eyeRd < 256) && decide (eyeWr < 256)
  | .trainingRecordWrite c _ => decide (c < 24)
  | .zqCalibration c slot => decide (c < 24) && decide (slot < 2)
  | .dqsOscillatorRead c r => decide (c < 24) && decide (r < 8)
  | .codewordRead c i _ => decide (c < 24) && decide (i < 2)
  | .eccWindowEnd c => decide (c < 24)
  | .scrubRead c => decide (c < 24)
  | .spareStart c => decide (c < 24)
  | .spareCopyRead c => decide (c < 24)
  | .spareCopyComplete c => decide (c < 24)
  | .rankRetire c => decide (c < 24)
  | .frequencyChange c => decide (c < 24)
  | .frequencyChangeCheck c _ => decide (c < 24)
  | .powerDownEntry c r => decide (c < 24) && decide (r < 8)
  | .doorbell s_ r v => decide (s_ < 17) && decide (r < 8) && decide (v < 2 ^ 16)
  | .descriptorFetch s_ r => decide (s_ < 17) && decide (r < 8)
  | .crEnable s_ r => decide (s_ < 17) && decide (r < 8)
  | .crDisable s_ r => decide (s_ < 17) && decide (r < 8)
  | .cqEnable s_ q => decide (s_ < 17) && decide (q < 8)
  | .cqDisable s_ q => decide (s_ < 17) && decide (q < 8)
  | .cqHeadWrite s_ q v => decide (s_ < 17) && decide (q < 8) && decide (v < 2 ^ 16)
  | .nop => true
  | .setHint => true
  | .tierPolicy => true
  | .compPolicy => true
  | .promote => true
  | .demote => true
  | .fill => true
  | .zero => true
  | .copy => true
  | .sanitize => true
  | .capQuery => true
  | .releaseAck => true
  | .snapshot => true
  | .sampleCfg => true
  | .commandComplete => true
  | .interruptCoalescingTimeout s_ q => decide (s_ < 17) && decide (q < 8)
  | .leyEnable p => decide (p < 4)
  | .leyDisable p => decide (p < 4)
  | .leyPartnerDetect p => decide (p < 4)
  | .leyTrainComplete p rate lanes => decide (p < 4) && decide (rate < 7) && decide (lanes < 256)
  | .leyFlitReceive p _ => decide (p < 4)
  | .leyFlitTransmit p => decide (p < 4)
  | .replayTimeout p => decide (p < 4)
  | .settledWindow p v => decide (p < 4) && decide (v < 4)
  | .rtReq p => decide (p < 4)
  | .rsReq p => decide (p < 4)
  | .laneLockLoss p => decide (p < 4)
  | .rtrq p pass lower => decide (p < 4) && decide (pass < 256) && decide (lower < 256)
  | .rtack p pass lower => decide (p < 4) && decide (pass < 256) && decide (lower < 256)
  | .rsrq p => decide (p < 4)
  | .rsack p => decide (p < 4)
  | .resizeComplete p => decide (p < 4)
  | .resizeTimeout p => decide (p < 4)
  | .ident p => decide (p < 4)
  | .resync p => decide (p < 4)
  | .down p => decide (p < 4)
  | .retrainStepTimeout p => decide (p < 4)
  | .leyDownExpiry p => decide (p < 4)
  | .leyCredClr p v => decide (p < 4) && decide (v < 4)
  | .fold p => decide (p < 4)
  | .rd p => decide (p < 4)
  | .wr p => decide (p < 4)
  | .rdata p => decide (p < 4)
  | .wacc p => decide (p < 4)
  | .join p => decide (p < 4)
  | .memberJoinReady => true
  | .joinrsp p => decide (p < 4)
  | .regrd p => decide (p < 4)
  | .regwr p => decide (p < 4)
  | .regrsp p => decide (p < 4)
  | .record p => decide (p < 4)
  | .foldnote p => decide (p < 4)
  | .reopen p => decide (p < 4)
  | .casReopen => true
  | .forget => true
  | .memberRegAccess => true
  | .foldmapEnable => true
  | .memberRecoveryComplete m => decide (1 ≤ m) && decide (m < 8)
  | .memberLinkDown p => decide (p < 4)
  | .downstreamLinkDown p => decide (p < 4)
  | .stilePor _ _ _ => true
  | .stileEvaluationStep _ => true
  | .qualificationComplete i => decide (i < 2)
  | .rampTimeout i vin => decide (i < 2) && decide (vin < 2 ^ 16)
  | .currentLimit i => decide (i < 2)
  | .faultTimerExpiry i vin => decide (i < 2) && decide (vin < 2 ^ 16)
  | .faultTimerClear i => decide (i < 2)
  | .fastTrip i vin => decide (i < 2) && decide (vin < 2 ^ 16)
  | .coolExpiry i => decide (i < 2)
  | .retryCountReset i => decide (i < 2)
  | .passFetDamaged i vin => decide (i < 2) && decide (vin < 2 ^ 16)
  | .oringFetDamaged i vin => decide (i < 2) && decide (vin < 2 ^ 16)
  | .reverseTurnOff i => decide (i < 2)
  | .pgHoldExpiry => true
  | .orderlyGateOff => true
  | .latchInputLowExpiry i => decide (i < 2)
  | .stlOffNAssert => true
  | .stlOffNRelease => true
  | .feedEnable i => decide (i < 2)
  | .feedDisable i => decide (i < 2)
  | .restart i => decide (i < 2)
  | .clrFet i => decide (i < 2)
  | .stlVthrWrite v => decide (v < 2 ^ 64)
  | .pop => true
  | .stileLogDrain => true
  | .stileLinkLost => true
  | .stileMeasurement _ => true
  | .stileThermalShutdown vinA vinB => decide (vinA < 2 ^ 16) && decide (vinB < 2 ^ 16)
  | .pwrOkRise => true
  | .pwrOkFall _ => true
  | .powerOnResetRelease _ _ _ spd _ _ => decide (spd.length ≤ 48)
  | .dramReady => true
  | .watchdogExpiry => true
  | .transferFw _ slot off len _ => decide (slot < 256) && decide (off < 2 ^ 32) && decide (len < 2 ^ 32)
  | .activateFw slot _ => decide (slot < 256)
  | .pliuthTransfer off data => decide (off < 2 ^ 16) && data.all (· < 256)
  | .pliuthCommit => true
  | .getConfigurationState => true
  | .pliuthAbort => true
  | .holdCommitReset => true
  | .gblReset => true
  | .tallySweep _ _ _ => true
  | .snapshotPass _ _ _ => true
  | .sampleRecordComplete => true
  | .sampleRecordWrite n => decide (n < 16)
  | .registerWrite view h off size v => Machine.RegView.ok view && decide (h < 9) && decide (off < 2 ^ 25) && (size == 4 || size == 8) && decide (v < 2 ^ 64)
  | .invalidRegisterAccess view h off _ _ => Machine.RegView.ok view && decide (h < 9) && decide (off < 2 ^ 25)
  | .gblLockSet => true
  | .interruptAck => true
  | .thermtrip _ => true
  | .boundaryScanInstruction _ _ => true
  | .controllerRestartComplete => true
  | .commitBurnComplete _ => true
  | .stileStandbyLoss _ => true
  | .responseCreditReturn h _ => decide (h < 8)
  | .clearEventRecords owner log _ => decide (owner < 17) && decide (log < 5)

end Sys2Proof
end

