-- ==== Sys2Proof/Machine/Run.lean ====
section
/-! DEFINITION. How a command runs on the whole state: what powers the die, the work that follows a command inside the device,
and how a command's DRAM changes reach the DRAM devices. -/

namespace Sys2Proof.Machine

/-- What a command comes to. -/
abbrev Res := Host.Outcome State Fault Refusal

/-- A command whose operands name nothing that the device has changes nothing (log entry 62). -/
def ifWf (i : Instr) (s : State) (r : Res) : Res := if i.wf then r else .next s

/-! ### Internal progress -/

/-- The next thing that the device does without a command: the first of these that can happen. None when everything waits. -/
def Dev.pumpStep (m : Dram) (d : Dev) : Option Dev :=
  d.accPass m <|> d.cipDeliver <|> d.balDeliver m <|> d.txnPass <|> d.standRetry <|> d.readmitStep <|> d.admitStep <|> d.ringDoneStep m <|>
  d.noteStep <|> d.issueStep <|> d.badOpcodeStep <|> d.fetchStep <|> d.leyRoute <|> d.sendRecord <|>
  d.mapQStep <|> d.initStep

/-- At most `n` internal steps. -/
def Dev.pump (m : Dram) : Nat → Dev → Dev
  | 0, d => d
  | n + 1, d => match d.pumpStep m with
    | some d' => Dev.pump m n d'
    | none => d

/-- Internal steps that follow one command at most; what is left goes on with the next one. -/
def pumpFuel : Nat := 4096

/-! ### The end of a command -/

/-- A command's changes of DRAM contents reach the DRAM devices, in order. -/
def Dram.flush (m : Dram) (ops : List DramOp) : Dram := ops.foldl Dram.apply m

/-- The state after the main die has become `d`: the global interrupt is evaluated (R476), and DRAM changes are made. -/
def State.settle (s : State) (d : Dev) : State :=
  let d := d.globalInterrupt s.stile
  { s with dev := { d with bulk := [] }, dram := s.dram.flush d.bulk }

/-- As `settle`, after the work inside the device that follows. -/
def State.finish (s : State) (d : Dev) : State := s.settle (Dev.pump s.dram pumpFuel d.retakePages)

/-- The main die runs its firmware (Table 16.1 from step 3). -/
def State.up (s : State) : Bool := s.dev.mgt.power == .on

/-- The main die is out of power-on reset: running, or in recovery, where the management view answers (R418). -/
def State.powered (s : State) : Bool := s.dev.mgt.power == .on || s.dev.mgt.power == .recovery

/-- A command that acts on the main die while it runs. -/
def State.event (s : State) (f : Dev → Dev) : State := if s.up then s.settle (f s.dev) else s

/-- As `event`, with the work that follows. -/
def State.work (s : State) (f : Dev → Dev) : State := if s.up then s.finish (f s.dev) else s

/-- The power-fail warning when a write to Stile makes PFW_N assert (R404, Table 15.16). -/
def Dev.stileNote (old new : Stile) (d : Dev) : Dev :=
  if new.pfw && !old.pfw && !d.mgt.stlLost then
    let i := if new.feedA.state == .on then 0 else 1
    d.raise (vendorRec 0x0804 .warning 0x0D00 (i + (new.feed i).cause * 2))
  else d

/-- As `event`, for a command that may act on Stile too. -/
def State.both (s : State) (f : Dev → Dev × Stile) : State :=
  let p := f s.dev
  if s.up then { s with stile := p.2 }.settle (p.1.stileNote s.stile p.2) else s

/-- As `both`, with the work that follows. -/
def State.bothWork (s : State) (f : Dev → Dev × Stile) : State :=
  let p := f s.dev
  if s.up then { s with stile := p.2 }.finish (p.1.stileNote s.stile p.2) else s

/-- A register write that may act on Stile too, in recovery as well. -/
def State.bothPowered (s : State) (f : Dev → Dev × Stile) : State :=
  let p := f s.dev
  if s.powered then { s with stile := p.2 }.settle (p.1.stileNote s.stile p.2) else s

/-- A command that acts on flash too, in recovery as well (R418, R419). -/
def State.flash (s : State) (f : Dev → Dev × Nv) : State :=
  if s.powered then { s with nv := (f s.dev).2 }.settle (f s.dev).1 else s

/-- A pin of the main die changes: while the die does not run only its level counts. -/
def State.pin (s : State) (f : Dev → Dev) : State := if s.up then s.settle (f s.dev) else { s with dev := f s.dev }

/-- One tick of the management clock (R440), in which no command arrives: internal work goes on (log entry 70). -/
def State.tick (s : State) : State :=
  if s.powered then s.finish { s.dev with clk := s.dev.clk + 1 }.sweepTick else s

end Sys2Proof.Machine
end

