-- ==== Sys2Proof/Machine/StileRows.lean ====
section
/-! DEFINITION. Stile's events as commands (chapter 15): each of them is a rule that an evaluation step also applies, taken at
the moment at which its condition holds. -/

namespace Sys2Proof.Machine

/-- The record that a note of Stile asks for (Table 15.16). -/
def StlNote.record (n : StlNote) : Rec := vendorRec n.1 (if n.1 = 0x0806 then .info else .warning) 0x0D00 n.2

/-- The state after Stile has become `p.1`, with its notes: the management controller raises them while it runs and the Stile
link is up. -/
def State.stiled (s : State) (p : Stile × List StlNote) : State :=
  let s' := { s with stile := p.1 }
  if s.up then
    s'.settle (if s.dev.mgt.stlLost then s.dev else p.2.foldl (fun (d : Dev) n => d.raise n.record) s.dev)
  else s'

/-- A command of Stile, which acts while Stile runs (R389). -/
def State.onStile (s : State) (f : Stile → Stile × List StlNote) : State :=
  if s.stile.running then s.stiled (f s.stile) else s

/-- What follows a change of feed `i`: the start slot is passed (R394), and a withdrawal of PG is decided when no feed is to
remain ON, with the power-fail warning (R404, R406). -/
def Stile.after (i : Nat) (old s : Stile) : Stile × List StlNote :=
  let s := s.passSlot.decideWithdraw
  (s, if s.pfw && !old.pfw then [(0x0804, i + (s.feed i).cause * 2)] else [])

/-- A command of feed `i` (0 A, 1 B) that applies while the feed satisfies `when_`. -/
def Stile.feedEvent (i : Nat) (when_ : Feed → Bool) (f : Stile → Stile) (s : Stile) : Stile × List StlNote :=
  if i < 2 ∧ when_ (s.feed i) then Stile.after i s (f s) else (s, [])

/-- The pass gate of the feed conducts. -/
def Feed.driven (f : Feed) : Bool := f.state == .ramp || f.state == .on

/-- CURRENT_LIMIT (R396): the pass FET is held at the limit, and the fault timer runs. -/
def Stile.limit (i : Nat) (s : Stile) : Stile :=
  let f := s.feed i
  s.setFeed i { f with ilim := true, belowTime := 0, ftRun := true, ftTime := if f.ftRun then f.ftTime else 0,
                       ftBound := if f.ftRun then f.ftBound else s.ftMicros }

/-- FAULT_TIMER_CLEAR (R396). -/
def Stile.timerClear (i : Nat) (s : Stile) : Stile :=
  s.setFeed i { s.feed i with ilim := false, ftRun := false, ftTime := 0, belowTime := 0 }

/-- FAULT_TIMER_EXPIRY (R396, R398): the cause tells RAMP from ON. -/
def Stile.timerExpiry (i vin : Nat) (s : Stile) : Stile := s.fault i (if (s.feed i).state == .ramp then 1 else 2) vin

/-- STL_OFF_N asserted (R408): both feeds turn off in order. -/
def Stile.ejected (s : Stile) : Stile × List StlNote :=
  Stile.after (if s.feedA.state == .on then 0 else 1) s ((({ s with eject := true, offTime := 0 } : Stile).orderlyOff 0 9).orderlyOff 1 9)

/-- The die's own thermal shutdown turns a feed off (R491): as a fast trip, with no retry. -/
def Stile.hotOff (s : Stile) (i vin : Nat) : Stile :=
  let f := s.feed i
  match f.state with
  | .off | .latched | .fetBad => s
  | _ => (s.setFeed i { f.gatesOff with state := .latched, cause := 3, retries := min (f.retries + 1) 15, lowTime := 0,
                                        orderly := none }).logEvent i 3 true vin

/-- STILE_THERMAL_SHUTDOWN. -/
def Stile.thermal (vinA vinB : Nat) (s : Stile) : Stile × List StlNote :=
  Stile.after (if s.feedA.state == .on then 0 else 1) s ((s.hotOff 0 vinA).hotOff 1 vinB)

/-- STILE_MEASUREMENT (R413, Table 15.14). -/
def Stile.measure (x : StlSample) (s : Stile) : Stile := { s with meas := x, seq := (s.seq + 1) % 2 ^ 16 }

/-- Stile stops when both inputs are below the level at which it runs; both below 15 V for 10 ms arm the next Stile POR (R389). -/
def Stile.supplyLoss (ms : Nat) (s : Stile) : Stile := { s with running := false, armed := s.armed || decide (10 ≤ ms) }

/-- An evaluation step (R391); a Stile that stopped, with its POR not armed, runs again from 18 V on (log entry 72). -/
def Stile.step (x : StlSample) (s : Stile) : Stile × List StlNote :=
  if s.running then s.evalStep x
  else if !s.armed && decide (1800 ≤ x.vinA ∨ 1800 ≤ x.vinB) then ({ s with running := true } : Stile).evalStep x
  else (s, [])

/-- The record that replays an entry of the fault log (R412, R414). -/
def StlEntry.record (e : StlEntry) : Rec :=
  let r : Rec :=
    if e.cause = 5 ∨ e.cause = 6 then vendorRec 0x0802 .failure 0x0D00 (e.feed + e.cause * 2 + 2 ^ 63)
    else if e.cause = 7 then vendorRec 0x0803 .warning 0x0D00 (e.feed + e.vin % 2 ^ 16 * 2 ^ 16 + 2 ^ 63)
    else vendorRec 0x0801 .failure 0x0D00
      (e.feed + e.cause * 2 + e.retries * 2 ^ 5 + b2n e.latched * 2 ^ 9 + e.vin % 2 ^ 16 * 2 ^ 16 + 2 ^ 63)
  { r with addr0 := e.time }

/-- Raises a record for each entry of the log and removes it, oldest first. -/
def Stile.drain : Nat → Dev × Stile → Dev × Stile
  | 0, p => p
  | n + 1, (d, s) => match s.count, kvFind? s.log s.oldest with
    | 0, _ => (d, s)
    | _, some e => Stile.drain n (d.raise e.record, s.pop)
    | _, none => Stile.drain n (d, s.pop)

/-- STILE_LOG_DRAIN (R412): while the controller runs and the Stile link is up. -/
def Dev.stileDrain (st : Stile) (d : Dev) : Dev × Stile :=
  if d.mgt.stlLost || d.mgt.restarting || !st.running then (d, st) else Stile.drain 16 (d, st)

/-- STILE_LINK_LOST (R410). -/
def Dev.stileLost (d : Dev) : Dev :=
  if d.mgt.stlLost then d
  else { d with mgt := { d.mgt with stlLost := true } }.raise (vendorRec 0x0805 .failure 0x0D00 0)

end Sys2Proof.Machine
end

