-- ==== Sys2Proof/Machine/RowOps.lean ====
section
/-! DEFINITION. Operations that single commands need beside those of their units: requests as CXL.mem spells them, resets of
channel islands, what goes to flash, register accesses as commands. -/

namespace Sys2Proof.Machine

/-! ### CXL.mem requests (Tables 5.4, 17.5) -/

/-- The request of a MemRd (Table 5.4), and its code in samples (Table 17.5). -/
def MetaValue.rd : MetaValue → HomeOp × Nat
  | .s => (.rdS, 0) | .a => (.rdE, 1) | .i => (.rdI, 2)

/-- The request of a MemInv or MemInvNT (R112); with MetaValue S, which the tables do not name, a shared invalidate (log entry 60). On a
CXL 1.1 or 2.0 head each is Inv(I) (R126). -/
def MetaValue.inv : MetaValue → HomeOp × Nat
  | .s => (.rdS, 3) | .a => (.invA, 3) | .i => (.invI, 4)

/-- The error that the lookup of a request meets in on-chip SRAM takes effect first (R117, R121). -/
def Dev.sramError (d : Dev) (q : HostReq) (e : SramErr) : Dev :=
  match (d.ldOf q.head q.ldid).bind fun ld => d.bind ld q.hpa with
  | none => d
  | some (own, rel) =>
    let line := d.windowDpa own rel / 64
    match e with
    | .none => d
    | .dirCe => d.dirCe line
    | .dirUe w => d.dirUe line w
    | .swdCe => d.swdCe line
    | .swdUe => d.swdUe line

/-- A request of a host, with the SRAM error that it meets. -/
def Dev.memRequest (q : HostReq) (e : SramErr) (d : Dev) : Dev := (d.sramError q e).hostRequest q

/-- A read. -/
def Dev.memRead (h ldid hpa tag : Nat) (o : HomeOp × Nat) (noData : Bool) (e : SramErr) (d : Dev) : Dev :=
  d.memRequest { head := h, ldid := ldid, hpa := hpa, tag := tag, op := o.1, noData := noData, opc := o.2 } e

/-- A write of the bytes of `mask`; all of them for a MemWr. `uio`: it comes as a UIO request. -/
def Dev.memWrite (h ldid hpa tag : Nat) (m : MetaValue) (data : Line) (mask : BitVec 64) (poison uio : Bool) (opc : Nat) (e : SramErr)
    (d : Dev) : Dev :=
  d.memRequest { head := h, ldid := ldid, hpa := hpa, tag := tag, op := if uio then .ncWrite else .wr (m == .s), data := data, mask := mask, poison := poison,
                 opc := opc } e

/-- MEM_CLN_EVCT: only CXL 3.1 has it (Table 4.4); a head of another protocol answers it as R87 says. -/
def Dev.memClnEvct (h ldid hpa tag : Nat) (e : SramErr) (d : Dev) : Dev :=
  let q : HostReq := { head := h, ldid := ldid, hpa := hpa, tag := tag, op := .clnEvct, opc := 5 }
  if d.headUp h && d.memOpen h && !(d.head h).ideFailed && d.proto h != 3 then (d.decodeMiss q 0xFF 1).emitAnswer q
  else d.memRequest q e

/-! ### Crossings and islands -/

/-- A channel acts on a kind of its control crossing, with the parameters that its registers hold (Table 2.7): a frequency change, a rank
out of service, a spare copy; one that is under way or done already is not begun again (R45). -/
def Dev.chnKind (c : Nat) (d : Dev) (k : Nat) : Dev :=
  match k with
  | 0 => if (d.chn c).fchg = .idle then d.fchgStart c else d
  | 1 => if d.rankState c (d.fld (.chnSpare c) F.chnSpare_SRC) = 6 then d else d.rankRetire c
  | _ => if d.spareState c = 1 then d else d.spareStart c

/-- CROSSING_DELIVERY (R47): what is in flight is with the receiver, which acts on it: a head's resets (R104), a channel's control events,
a Ley port's events. Values and entries are kept as received; the ring engine reads its tails there (R45). -/
def crossingDelivery (nv : Nv) (x : XId) (s : Dev × Stile) : Dev × Stile :=
  if !x.exists then s
  else match x with
  | .headEvt h => (s.1.headDelivery h, s.2)
  | .chnCtl c => let p := s.1.eventTransfer x; (p.1.foldl (Dev.chnKind c) p.2, s.2)
  | .leyEvt p => leyEvents nv p s
  | _ => (s.1.arrive x, s.2)

/-- A channel island is reset (R49, R296): what was queued, in flight or on its way back is accounted for as R245 says, and a spare
copy ends without completing (log entry 61). -/
def Dev.chanIslandReset (c : Nat) (d : Dev) : Dev :=
  let ch := d.chn c
  let lost := ch.cmds ++ ch.subs.flatMap (·.flight)
  let rets := ch.rets.map fun r => match r with
    | .read u _ => ChRet.read u (.uncorrectable { data := 0, md := 0 })
    | r => r
  let d := d.modChn c fun ch => { ch with cmds := [], rets := rets, copyEnded := true,
                                          subs := ch.subs.map fun s => { s with flight := [], nrq := [] } }
  (lost.foldl (fun d e => d.refuseEntry c e) d).failQueues c

/-- ISLAND_RESET (R49): islands 0–7 heads, 8–31 channels, 32–35 Ley ports, 36 the management controller. -/
def Dev.islandRow (k : Nat) (d : Dev) : Dev :=
  let d := d.islandReset k
  if 8 ≤ k ∧ k < 32 then Dev.chanIslandReset (k - 8) d else d

/-! ### Channels -/

/-- What a channel returns next, when it is a read or is not (CHANNEL_READ_RETURN, WRITE_ACCEPTANCE). -/
def Dev.takeRet (c : Nat) (read : Bool) (d : Dev) : Dev :=
  match (d.chn c).rets with
  | [] => d
  | r :: rest =>
    let isRead := match r with
      | .accepted _ => false
      | _ => true
    if isRead != read then d
    else
      let d := d.modChn c fun ch => { ch with rets := rest }
      match r with
      | .read (.acc id) o => d.readBack id o
      | .accepted (.acc id) => d.writeBack id
      | r => d.leyReturn c r

/-- Ranks that get commands: all that are present but failed ones (Table 10.5). -/
def Dev.liveRanks (d : Dev) (c : Nat) : List Nat := (List.range 8).filter fun r => d.rankState c r != 0 && d.rankState c r != 5

/-- Adds maintenance operations of a channel in service, each of which waits for its command slots (R252). -/
def Dev.maintain (d : Dev) (c : Nat) (ms : List Maint) : Dev :=
  if d.inService c then d.modChn c fun ch => { ch with maint := ch.maint ++ ms.filter fun m => !ch.maint.contains m } else d

/-- ZQ_CALIBRATION (R252): a module is calibrated rank by rank. -/
def Dev.zqCalibration (c slot : Nat) (d : Dev) : Dev :=
  d.maintain c (((d.liveRanks c).filter fun r => r / 4 == slot).map fun r => { zq := true, rank := r })

/-- DQS_OSCILLATOR_READ (R252): a rank's oscillator is read. -/
def Dev.dqsRead (c r : Nat) (d : Dev) : Dev :=
  d.maintain c (((d.liveRanks c).filter (· == r)).map fun r => { zq := false, rank := r })

/-- TRAINING_RECORD_WRITE (R251): the record that a channel has due goes to flash, unless the write fails. -/
def Dev.trainingRecordWrite (nv : Nv) (c : Nat) (ok : Bool) (d : Dev) : Dev × Nv :=
  if !(d.chn c).recordDue then (d, nv)
  else
    let d' := d.modChn c fun ch => { ch with recordDue := false }
    (d', if ok then { nv with train := kvIns nv.train c (trainRecordOf d c) } else nv)

/-- FAILED of every channel, as CHN_SPARE holds it, is kept in flash (R297). -/
def Nv.keepFailed (nv : Nv) (d : Dev) : Nv :=
  { nv with failed := (List.range 24).foldl (fun m c =>
      kvSet (fun _ => 0) m c (d.fld (.chnSpare c) F.chnSpare_FAILED)) nv.failed }

/-- A state whose flash follows FAILED of the channels. -/
def State.keepFailed (s : State) : State := if s.up then { s with nv := s.nv.keepFailed s.dev } else s

/-! ### Register accesses as commands (R461 to R467) -/

/-- A request bit that is written 1 or 0 in one register. -/
def Dev.requestBit (d : Dev) (r : Reg) (f : Fld) (v : Bool) (act : Dev → Dev) : Dev :=
  d.viaReg r fun d => d.edge (d.flag r f) v act act

/-- REGISTER_WRITE: of a register of the management view or of a tenant window, or of configuration space, through head `head`, or 8, the
MCTP sideband (R89). -/
def State.registerWrite (s : State) (view : RegView) (head off size v : Nat) : State :=
  if !s.powered then s
  else if !s.dev.reaches head view.fn then s.settle (s.dev.unreached head)
  else if view.isConfig then s.settle (s.dev.configAccess view.fn off size v)
  else
    match s.dev.accessCause view off size with
    | some c => s.settle (s.dev.accErr view head off c)
    | none =>
      let p := Dev.writeAccess s.nv (s.dev, s.stile) view head off size v
      ({ s with stile := p.2 }.finish (p.1.stileNote s.stile p.2)).keepFailed

/-- The dword of a 64-bit access that holds no register, where its other dword holds one: refused by itself, as one of two accesses (R461). -/
def RegView.hole (view : RegView) (off size : Nat) : Option Nat :=
  if view.isConfig || size != 8 then none
  else ([off, off + 4].filter fun o => (view.slot o).isNone).head?

/-- INVALID_REGISTER_ACCESS: an access that R462 or R465 refuses is recorded; a read answers all ones or zeros, and of a read that is refused
in one dword only, zeros there. -/
def Dev.invalidAccess (st : Stile) (view : RegView) (head off size : Nat) (write : Bool) (fn : Nat) (d : Dev) : Dev :=
  if !d.reaches head fn then d.unreached head else
  match d.accessCause view off size with
  | none => if write then d else match view.hole off size with
    | some o => (d.accErr view head o 1).emit (.readData fn off (d.readAccess st view off size))
    | none => d
  | some c =>
    let value := d.readAccess st view off size
    let d := d.accErr view head off c
    if write then d else d.emit (.readData fn off value)

/-- FOLDMAP_ENABLE: a write of V, which counts while no member is joined (Table 14.9). -/
def Dev.foldmapRow (d : Dev) : Dev := if d.anyJoined || d.flag .casFoldmap F.casFoldmap_V then d else d.foldmapEnable

/-! ### Stile registers -/

/-- FEED_ENABLE and FEED_DISABLE: EN of a feed (R393, R406). -/
def Stile.setEn (i : Nat) (en : Bool) (s : Stile) : Stile :=
  let s := { s with regs := s.regs.setFld (.stlFeedCtrl i) F.stlFeedCtrl_EN (b2n en) }
  if en then s else (s.orderlyOff i 10).decideWithdraw

/-! ### The management mailbox -/

/-- A firmware command of the management mailbox: Busy while the controller restarts (R420). -/
def Dev.firmware (op : MboxOp) (nv : Nv) (f : Nv → Dev → Dev × Nv) (d : Dev) : Dev × Nv :=
  if d.mgt.restarting then (d.emit (.mailbox 16 op .busy []), nv) else f nv d

/-- CLEAR_EVENT_RECORDS of an LD's log, or of the management view's, whose mailbox the controller serves. -/
def Dev.clearRow (owner log n : Nat) (d : Dev) : Dev :=
  if owner = 16 then d.viaMgmt .clearEventRecords fun d => d.clearRecords 16 log n else d.clearRecords owner log n

end Sys2Proof.Machine
end

