-- ==== Sys2Proof/Machine/BalRows.lean ====
section
/-! DEFINITION. Meanings of the commands of balers (chapter 7). -/

namespace Sys2Proof.Machine

/-- BALER_JOB_WAIT_DISPATCH (R198): A job waiting because no baler could accept it is dispatched once one can. -/
def execBalerJobWaitDispatch (s : State) : Res :=
  .next (s.work fun d => d.jobDispatch)

/-- BALER_JOB_START (R198): A baler takes its next job in class order and starts it. -/
def execBalerJobStart (b : Nat) (s : State) : Res :=
  ifWf (.balerJobStart b) s <| .next (s.work fun d => d.jobStart b)

/-- BALER_JOB_COMPLETE (R192): A baler finishes a decode or compression and returns its lines or sheaves, or the job fails. -/
def execBalerJobComplete (b : Nat) (s : State) : Res :=
  ifWf (.balerJobComplete b) s <| .next (s.work fun d => d.jobComplete b)

/-- BALER_FAULT (R199): A baler completes no swath within 100 µs, is faulted and its jobs fail or are reissued. -/
def execBalerFault (b n : Nat) (s : State) : Res :=
  ifWf (.balerFault b n) s <| .next (s.work fun d => d.balerFault b n)

/-- BALER_RESET (R199): Writing 1 to a BAL_FAULT bit resets that baler and returns it to dispatch. -/
def execBalerReset (b : Nat) (s : State) : Res :=
  ifWf (.balerReset b) s <| .next (s.work fun d => d.viaReg .balFault (·.balerReset b))

/-- BAL_EN_WRITE (R201): A write to BAL_EN enables or stops balers, or is refused if none would remain available. -/
def execBalEnWrite (v : Nat) (s : State) : Res :=
  ifWf (.balEnWrite v) s <| .next (s.work fun d => d.viaReg .balEn (·.balEnWrite v))

end Sys2Proof.Machine
end

