-- ==== Sys2Proof/Machine/BootRows.lean ====
section
/-! DEFINITION. Meanings of the commands of power, bring-up, firmware and configuration (chapter 16). -/

namespace Sys2Proof.Machine

/-- PWR_OK_RISE (R415): PWR_OK rises and power-on reset is released 10 ms later. -/
def execPwrOkRise (s : State) : Res :=
  .next { s with dev := s.dev.pwrRise }

/-- PWR_OK_FALL (R415): PWR_OK falls and the main die is held in power-on reset. -/
def execPwrOkFall (at_ : BurnPoint) (s : State) : Res :=
  ifWf (.pwrOkFall at_) s <| .next (s.dropPower at_ false)

/-- POWER_ON_RESET_RELEASE (R416): Release of power-on reset samples straps, boots firmware, reads OTP, loads fields and
starts training. -/
def execPowerOnResetRelease (s1 s2 s3 : Nat) (spd : List (Option Spd)) (nack crcBad : List Nat) (s : State) : Res :=
  ifWf (.powerOnResetRelease s1 s2 s3 spd nack crcBad) s <|
    let p := s.dev.powerOnRelease s.nv s.stile s1 s2 s3 spd nack crcBad
    .next ({ s with stile := p.2 }.settle p.1)

/-- DRAM_READY (R416): Every channel with a module has finished training, DRAM_READY sets and Ley ports train and join
members. -/
def execDramReady (s : State) : Res :=
  .next (s.work fun d => d.dramReady)

/-- WATCHDOG_EXPIRY (R420): The management firmware stops for 1 s and the controller restarts, or a second expiry resets the
device. -/
def execWatchdogExpiry (s : State) : Res :=
  .next (s.both fun d => d.watchdog s.nv s.stile)

/-- TRANSFER_FW (R419): The Transfer FW mailbox command loads a firmware image into a slot. -/
def execTransferFw (part : FwPart) (slot off len : Nat) (good : Bool) (s : State) : Res :=
  ifWf (.transferFw part slot off len good) s <|
    .next (s.flash fun d => d.firmware .transferFw s.nv fun nv d => d.transferFw nv part slot off len good)

/-- ACTIVATE_FW (R419): The Activate FW command selects the slot used at the next reset. -/
def execActivateFw (slot : Nat) (online : Bool) (s : State) : Res :=
  ifWf (.activateFw slot online) s <|
    .next (s.flash fun d => d.firmware .activateFw s.nv fun nv d => d.activateFw nv slot online)

/-- PLIUTH_TRANSFER (R427): Pliuth Transfer stages image bytes into the staging buffer. -/
def execPliuthTransfer (off : Nat) (data : List Nat) (s : State) : Res :=
  ifWf (.pliuthTransfer off data) s <| .next (s.event fun d => d.pliuth .pliuthTransfer (Dev.pliuthTransfer off data))

/-- PLIUTH_COMMIT (R428): Pliuth Commit checks the staged image and burns it into the next OTP slot. -/
def execPliuthCommit (s : State) : Res :=
  .next (s.event fun d => d.pliuth .pliuthCommit (·.pliuthCommit s.nv))

/-- GET_CONFIGURATION_STATE (R427): Get Configuration State returns OTP_STAT, OTP_COMMIT and bytes staged. -/
def execGetConfigurationState (s : State) : Res :=
  .next (s.event fun d => d.pliuth .pliuthState Dev.configState)

/-- PLIUTH_ABORT (R427): Pliuth Abort clears the staging buffer. -/
def execPliuthAbort (s : State) : Res :=
  .next (s.event fun d => d.pliuth .pliuthAbort Dev.pliuthAbort)

/-- HOLD_COMMIT_RESET (R428): 100 ms after a successful commit in Hold, a device-wide reset starts. -/
def execHoldCommitReset (s : State) : Res :=
  .next (s.both fun d => d.holdReset s.nv s.stile)

/-- GBL_RESET (R430): Writing 0xA5 to GBL_RESET.CODE starts a device-wide reset. -/
def execGblReset (s : State) : Res :=
  .next (s.bothPowered fun d => d.askReset s.nv s.stile 0)

end Sys2Proof.Machine
end

