-- ==== Sys2Proof/Machine/CapRows.lean ====
section
/-! DEFINITION. Meanings of the commands of capacity: extents, windows and storage sets (chapters 3 and 6). -/

namespace Sys2Proof.Machine

/-- ADD_CAPACITY (R174): An FM request to add an extent is granted under the quota and overcommit tests or refused as
resource-exhausted. -/
def execAddCapacity (n first fields label : Nat) (s : State) : Res :=
  ifWf (.addCapacity n first fields label) s <|
    .next (s.work fun d => d.viaMgmt .addCapacity (·.addCapacity s.dram n first fields label))

/-- RELEASE_DYNAMIC_CAPACITY (R331): The host's Release Dynamic Capacity mailbox command removes the named extents under R177. -/
def execReleaseDynamicCapacity (n first fields : Nat) (s : State) : Res :=
  ifWf (.releaseDynamicCapacity n first fields) s <| .next (s.work fun d => d.releaseCapacity n first fields)

/-- FORCED_REMOVAL (R177): A forced removal from the fabric manager removes an extent. -/
def execForcedRemoval (n first fields : Nat) (s : State) : Res :=
  ifWf (.forcedRemoval n first fields) s <| .next (s.work fun d => d.viaMgmt .forcedRemoval (·.forcedRemoval n first fields))

/-- DC_REGION_CONFIGURE (R96): The fabric manager configures an LD's Dynamic Capacity regions through the FM API. -/
def execDcRegionConfigure (n i base len k : Nat) (s : State) : Res :=
  ifWf (.dcRegionConfigure n i base len k) s <| .next (s.event fun d => d.viaMgmt .configureRegion (·.regionSet n i base len k))

/-- EXTENT_REMOVAL_COMPLETE (R177): Descriptors, directory sweep and frame returns of an extent removal complete and the
release response completes. -/
def execExtentRemovalComplete (n : Nat) (s : State) : Res :=
  ifWf (.extentRemovalComplete n) s <| .next (s.work fun d => d.removalDone s.dram n)

/-- LDWIN_ENABLE (R59): Setting EN of GBL_LDWINn places the LD window and starts writing its descriptors, or is refused. -/
def execLdwinEnable (n : Nat) (s : State) : Res :=
  ifWf (.ldwinEnable n) s <| .next (s.work fun d => d.viaReg (.gblLdwin n) (·.winEnable n))

/-- WINDOW_BUILD_COMPLETE (R168): All descriptors of the window are written, BUILT sets and the LD's requests are admitted. -/
def execWindowBuildComplete (n : Nat) (s : State) : Res :=
  ifWf (.windowBuildComplete n) s <| .next (s.work fun d => d.windowBuilt s.dram n)

/-- LDWIN_DISABLE (R171): An accepted clear of EN starts the teardown of the window. -/
def execLdwinDisable (n : Nat) (s : State) : Res :=
  ifWf (.ldwinDisable n) s <| .next (s.work fun d => d.viaReg (.gblLdwin n) (·.winDisable n))

/-- WINDOW_TEARDOWN_COMPLETE (R171): The teardown finishes, BUILT clears and EN reads 0. -/
def execWindowTeardownComplete (n : Nat) (s : State) : Res :=
  ifWf (.windowTeardownComplete n) s <| .next (s.work fun d => d.windowTorn s.dram n)

/-- SET_COMMIT (R70): Setting COMMIT of a storage set is checked and accepted or refused with ERR. -/
def execSetCommit (n : Nat) (s : State) : Res :=
  ifWf (.setCommit n) s <| .next (s.event fun d => d.viaReg (.casSetCtrl n) (·.setCommit n))

/-- SET_COMMITTED (R70): COMMITTED of an accepted set sets within 2 µs and its counter region initialisation begins. -/
def execSetCommitted (n : Nat) (s : State) : Res :=
  ifWf (.setCommitted n) s <| .next (s.work fun d => d.setTakes n)

/-- COUNTER_REGION_READY (R212): All counter lines of a committed set are written, READY sets and waiting requests proceed. -/
def execCounterRegionReady (n : Nat) (s : State) : Res :=
  ifWf (.counterRegionReady n) s <| .next (s.work fun d => d.counterReady s.dram n)

/-- SET_UNCOMMIT (R71): Clearing COMMIT uncommits a set unless it is in use or still committing. -/
def execSetUncommit (n : Nat) (s : State) : Res :=
  ifWf (.setUncommit n) s <| .next (s.event fun d => d.viaReg (.casSetCtrl n) (·.setUncommit n))

end Sys2Proof.Machine
end

