-- ==== Sys2Proof/Machine/CascRows.lean ====
section
/-! DEFINITION. Meanings of the commands of cascades (chapter 14). -/

namespace Sys2Proof.Machine

/-- FOLD (R362): A Ley link-down reaches the dealer core and every member behind the port is folded. -/
def execFold (p : Nat) (s : State) : Res :=
  ifWf (.fold p) s <| .next (s.work fun d => d.fold p)

/-- RD (R351): A member receives an RD entry and delivers or forwards it toward its channel. -/
def execRd (p : Nat) (s : State) : Res :=
  ifWf (.rd p) s <| .next (s.work fun d => d.leyTake p 0 1)

/-- WR (R351): A member receives a WR entry and delivers or forwards it in arrival order. -/
def execWr (p : Nat) (s : State) : Res :=
  ifWf (.wr p) s <| .next (s.work fun d => d.leyTake p 1 8)

/-- RDATA (R350): An RDATA response returns a member's read data and outcome to the dealer. -/
def execRdata (p : Nat) (s : State) : Res :=
  ifWf (.rdata p) s <| .next (s.work fun d => d.rspTake p 0x10)

/-- WACC (R351): A WACC reaches the dealer's home slice and completes the member write. -/
def execWacc (p : Nat) (s : State) : Res :=
  ifWf (.wacc p) s <| .next (s.work fun d => d.rspTake p 0x11)

/-- JOIN (R373): A member receives JOIN carrying a new session number. -/
def execJoin (p : Nat) (s : State) : Res :=
  ifWf (.join p) s <| .next (s.work fun d => d.mgtTurn p 0x20 (·.joinMsg p))

/-- MEMBER_JOIN_READY (R373): Once every channel with a module has DONE set the member answers a pending JOIN. -/
def execMemberJoinReady (s : State) : Res :=
  .next (s.event fun d => d.joinReady)

/-- JOINRSP (R373): The dealer receives JOINRSP and records the member joined, or checks it during reopening. -/
def execJoinrsp (p : Nat) (s : State) : Res :=
  ifWf (.joinrsp p) s <| .next (s.work fun d => d.mgtTurn p 0x21 (·.joinRsp p))

/-- REGRD (R374): A member reads a register for the dealer and answers REGRSP. -/
def execRegrd (p : Nat) (s : State) : Res :=
  ifWf (.regrd p) s <| .next (s.event fun d => d.mgtTurn p 0x22 (Dev.regRd s.stile · p))

/-- REGWR (R374): A member writes a register for the dealer and answers REGRSP. -/
def execRegwr (p : Nat) (s : State) : Res :=
  ifWf (.regwr p) s <| .next (s.bothWork fun d => d.regWrTurn s.nv s.stile p).keepFailed

/-- REGRSP (R375): The dealer receives REGRSP and completes the CAS_MACC access. -/
def execRegrsp (p : Nat) (s : State) : Res :=
  ifWf (.regrsp p) s <| .next (s.event fun d => d.mgtTurn p 0x23 (·.regRsp p))

/-- RECORD (R376): The dealer receives a member's event record and logs it with rewritten channel numbers. -/
def execRecord (p : Nat) (s : State) : Res :=
  ifWf (.record p) s <| .next (s.event fun d => d.mgtTurn p 0x25 (·.recordMsg p))

/-- FOLDNOTE (R382): The dealer receives FOLDNOTE and folds, or allows recovery of, a member at distance 2. -/
def execFoldnote (p : Nat) (s : State) : Res :=
  ifWf (.foldnote p) s <| .next (s.work fun d => d.mgtTurn p 0x26 (·.foldNote p))

/-- REOPEN (R383): A member receives REOPEN and resumes its session with JOINRSP. -/
def execReopen (p : Nat) (s : State) : Res :=
  ifWf (.reopen p) s <| .next (s.work fun d => d.mgtTurn p 0x27 (·.reopenMsg p))

/-- CAS_REOPEN (R384): Writing REOPEN of CAS_CTRL starts reopening a folded member. -/
def execCasReopen (s : State) : Res :=
  .next (s.work fun d => d.viaReg .casCtrl (·.casReopen))

/-- FORGET (R385): Writing FORGET clears a lost member's list entries and bitmap and sets it absent. -/
def execForget (s : State) : Res :=
  .next (s.event fun d => d.viaReg .casCtrl (·.casForget))

/-- MEMBER_REG_ACCESS (R375): Writing GO of CAS_MACC sends one REGRD or REGWR to a member, or fails at once. -/
def execMemberRegAccess (s : State) : Res :=
  .next (s.event fun d => d.viaReg .casMacc (·.memberAccess))

/-- FOLDMAP_ENABLE (R380): Setting V of CAS_FOLDMAP validates and clears the fold-bitmap region, or is refused. -/
def execFoldmapEnable (s : State) : Res :=
  .next (s.work fun d => d.viaReg .casFoldmap (·.foldmapRow))

/-- MEMBER_RECOVERY_COMPLETE (R384): Every listed and bitmapped line of a recovering member is poisoned and the member
reopens. -/
def execMemberRecoveryComplete (m : Nat) (s : State) : Res :=
  ifWf (.memberRecoveryComplete m) s <| .next (s.work fun d => d.recover m)

/-- MEMBER_LINK_DOWN (R383): A member's upstream link goes down and it keeps its channels while refusing dealer entries. -/
def execMemberLinkDown (p : Nat) (s : State) : Res :=
  ifWf (.memberLinkDown p) s <| .next (s.bothWork fun d => memberLinkDown s.nv p (d, s.stile)).keepFailed

/-- DOWNSTREAM_LINK_DOWN (R382): A distance-1 member loses a downstream link, drops its entries and sends FOLDNOTE once
responses are drained. -/
def execDownstreamLinkDown (p : Nat) (s : State) : Res :=
  ifWf (.downstreamLinkDown p) s <| .next (s.work fun d => d.downstreamLinkDown p)

end Sys2Proof.Machine
end

