-- ==== Sys2Proof/Machine/ChanRows.lean ====
section
/-! DEFINITION. Meanings of the commands of DRAM channels (chapters 9 to 11). -/

namespace Sys2Proof.Machine

/-- WRITE_ACCEPTANCE (R257): A write acceptance returns on the channel return crossing and completes the waiting write. -/
def execWriteAcceptance (c : Nat) (s : State) : Res :=
  ifWf (.writeAcceptance c) s <| .next (s.work fun d => d.takeRet c false)

/-- CHANNEL_COMMAND_ENTRY (R256): An entry from the channel command crossing enters its subchannel queue or waits at the
crossing head. -/
def execChannelCommandEntry (c : Nat) (s : State) : Res :=
  ifWf (.channelCommandEntry c) s <| .next (s.event fun d => d.commandEntry c)

/-- COMMAND_ISSUE (R259): In a command slot the subchannel issues the first allowed command in the selection order. -/
def execCommandIssue (c i : Nat) (held : List Nat) (s : State) : Res :=
  ifWf (.commandIssue c i held) s <| .next (s.event fun d => d.commandIssue s.dram c i held)

/-- PAGE_IDLE_TIMEOUT (R260): PAGE_IDLE cycles pass with no entry for an open row and the row is closed. -/
def execPageIdleTimeout (c i bank : Nat) (s : State) : Res :=
  ifWf (.pageIdleTimeout c i bank) s <| .next (s.event fun d => d.pageIdle c i bank)

/-- REFRESH_DUE (R267): A rank's refresh due time arrives and its refresh is forced. -/
def execRefreshDue (c r : Nat) (s : State) : Res :=
  ifWf (.refreshDue c r) s <| .next (s.event fun d => d.refreshDue c r)

/-- NRF_RESEED (R272): Every 1 ms the neighbour-refresh generator is reseeded from a TRNG word, or RESEED_MISS sets. -/
def execNrfReseed (c : Nat) (arrived : Bool) (s : State) : Res :=
  ifWf (.nrfReseed c arrived) s <| .next (s.event fun d => d.nrfReseed c arrived)

/-- DIMM_THERMAL_READ (R244): The controller reads module thermal sensors and sets the refresh period and over-temperature
state. -/
def execDimmThermalRead (c : Nat) (t0 t1 : Option Nat) (s : State) : Res :=
  ifWf (.dimmThermalRead c t0 t1) s <| .next (s.event fun d => if d.mgt.restarting then d else d.thermalRead c t0 t1)

/-- SIDEBAND_ERROR (R243): A sideband transaction fails after retries and raises a sideband-error record. -/
def execSidebandError (bus hub : Nat) (s : State) : Res :=
  ifWf (.sidebandError bus hub) s <| .next (s.event fun d => d.sidebandError bus hub)

/-- PMIC_FAULT (R245): A PMIC fault or loss of power good puts the channel into STATE 6, poisoning reads and discarding
writes. -/
def execPmicFault (c slots : Nat) (s : State) : Res :=
  ifWf (.pmicFault c slots) s <| .next (s.event fun d => d.pmicFault c slots)

/-- CHANNEL_TRAINING_COMPLETE (R246): A channel's training ends in service, fallback retraining or training failed. -/
def execChannelTrainingComplete (c eyeRd eyeWr : Nat) (geometry : Bool) (turn turnAlt : List Nat) (s : State) : Res :=
  ifWf (.channelTrainingComplete c eyeRd eyeWr geometry turn turnAlt) s <|
    .next (s.event fun d => d.trainingComplete c eyeRd eyeWr geometry turn turnAlt)

/-- TRAINING_RECORD_WRITE (R251): A training record is written to management flash in the background. -/
def execTrainingRecordWrite (c : Nat) (ok : Bool) (s : State) : Res :=
  ifWf (.trainingRecordWrite c ok) s <| .next (s.flash fun d => d.trainingRecordWrite s.nv c ok)

/-- ZQ_CALIBRATION (R252): Every 128 ms a module receives ZQ calibration. -/
def execZqCalibration (c slot : Nat) (s : State) : Res :=
  ifWf (.zqCalibration c slot) s <| .next (s.event fun d => d.zqCalibration c slot)

/-- DQS_OSCILLATOR_READ (R252): Every 16 ms a rank's DQS interval oscillator is read and write timing adjusted. -/
def execDqsOscillatorRead (c r : Nat) (s : State) : Res :=
  ifWf (.dqsOscillatorRead c r) s <| .next (s.event fun d => d.dqsRead c r)

/-- CODEWORD_READ (R280): A read burst is captured and decoded as clean, corrected or uncorrectable and returned with its
outcome. -/
def execCodewordRead (c i : Nat) (err : BitVec 640) (s : State) : Res :=
  ifWf (.codewordRead c i err) s <| .next (s.event fun d => d.codewordRead c i err (d.codewordIgnored s.dram c i))

/-- ECC_WINDOW_END (R285): An accounting window ends and the per-rank error counts return to zero. -/
def execEccWindowEnd (c : Nat) (s : State) : Res :=
  ifWf (.eccWindowEnd c) s <| .next (s.event fun d => d.eccWindowEnd c)

/-- SCRUB_READ (R289): The Gleaner issues its next paced patrol-scrub read. -/
def execScrubRead (c : Nat) (s : State) : Res :=
  ifWf (.scrubRead c) s <| .next (s.event fun d => d.scrubRead c)

/-- SPARE_START (R293): Writing START begins a spare copy of SRC onto the spare, or is refused. -/
def execSpareStart (c : Nat) (s : State) : Res :=
  ifWf (.spareStart c) s <| .next (s.event fun d => d.viaReg (.chnSpare c) (·.spareStart c))

/-- SPARE_COPY_READ (R294): The Gleaner issues a copy read and copy write for the next line of the source rank. -/
def execSpareCopyRead (c : Nat) (s : State) : Res :=
  ifWf (.spareCopyRead c) s <| .next (s.event fun d => d.spareCopyRead c)

/-- SPARE_COPY_COMPLETE (R297): CP passes the last line, the rank map is swapped, FAILED set and the source retired from use. -/
def execSpareCopyComplete (c : Nat) (s : State) : Res :=
  ifWf (.spareCopyComplete c) s <| .next (s.event fun d => d.spareCopyComplete c).keepFailed

/-- RANK_RETIRE (R299): Writing RETIRE sets an in-service rank to retired, or is refused. -/
def execRankRetire (c : Nat) (s : State) : Res :=
  ifWf (.rankRetire c) s <| .next (s.event fun d => d.viaReg (.chnSpare c) (·.rankRetire c))

/-- FREQUENCY_CHANGE (R302): Writing CMD of CHN_FCHG starts a change to the shadow timing set through self-refresh, or is
refused. -/
def execFrequencyChange (c : Nat) (s : State) : Res :=
  ifWf (.frequencyChange c) s <| .next (s.event fun d => d.viaReg (.chnFchg c) (·.fchgStart c))

/-- FREQUENCY_CHANGE_CHECK (R303): The read-back check after a rate change completes, swapping sets, reverting or failing the
channel. -/
def execFrequencyChangeCheck (c : Nat) (failed : Option Nat) (s : State) : Res :=
  ifWf (.frequencyChangeCheck c failed) s <| .next (s.event fun d => d.fchgCheck c failed)

/-- POWER_DOWN_ENTRY (R307): An idle rank with all banks precharged enters precharge power-down after PD_IDLE cycles. -/
def execPowerDownEntry (c r : Nat) (s : State) : Res :=
  ifWf (.powerDownEntry c r) s <| .next (s.event fun d => d.powerDown c r)

end Sys2Proof.Machine
end

