-- ==== Sys2Proof/Machine/CipherRows.lean ====
section
/-! DEFINITION. Meanings of the commands of cipher units (chapter 8). -/

namespace Sys2Proof.Machine

/-- COUNTER_LINE_MERGE (R215): A written-back counter-line copy is merged into DRAM by the cipher unit of its storage channel. -/
def execCounterLineMerge (s : State) : Res :=
  .next (s.work fun d => d.counterMerge s.dram)

/-- REENCRYPTION_ENTRY_FREE (R223): A re-encryption entry frees and a write waiting for one proceeds. -/
def execReencryptionEntryFree (q : Nat) (s : State) : Res :=
  ifWf (.reencryptionEntryFree q) s <| .next (s.work fun d => d.reencResume q)

/-- REENCRYPTION_COMPLETE (R223): All 64 lines are done, the counter line is written back and the hold ends. -/
def execReencryptionComplete (frame : Nat) (s : State) : Res :=
  ifWf (.reencryptionComplete frame) s <| .next (s.work fun d => d.reencComplete s.dram frame)

/-- ERASE_SWEEP_COMPLETE (R228): The erase sweep of an LD window ends and raises an erase-sweep-complete record. -/
def execEraseSweepComplete (n : Nat) (s : State) : Res :=
  ifWf (.eraseSweepComplete n) s <| .next (s.work fun d => d.eraseSweepDone s.dram n)

/-- CHANNEL_READ_RETURN (R220): A read codeword returns to the cipher unit and is settled as zeros, poison or deciphered data. -/
def execChannelReadReturn (c : Nat) (s : State) : Res :=
  ifWf (.channelReadReturn c) s <| .next (s.work fun d => d.takeRet c true)

end Sys2Proof.Machine
end

