-- ==== Sys2Proof/Machine/CrossRows.lean ====
section
/-! DEFINITION. Meanings of the commands of crossings, periodic units and the speed controller (chapter 2). -/

namespace Sys2Proof.Machine

/-- VALUE_CROSSING_OFFER (R42): A value is offered on a value crossing, sent, held or replacing the held value with overrun. -/
def execValueCrossingOffer (x : XId) (v : Nat) (s : State) : Res :=
  ifWf (.valueCrossingOffer x v) s <| .next (s.event fun d => d.offerValue x v)

/-- VALUE_CROSSING_ACK (R42): The acknowledge of a value transfer arrives and any held value is sent next. -/
def execValueCrossingAck (x : XId) (s : State) : Res :=
  ifWf (.valueCrossingAck x) s <| .next (s.event fun d => d.ackValue x)

/-- EVENT_CROSSING_OFFER (R44): An event is offered on an event crossing, sent or added to or merged in the pending set. -/
def execEventCrossingOffer (x : XId) (k : Nat) (s : State) : Res :=
  ifWf (.eventCrossingOffer x k) s <| .next (s.event fun d => d.offerEvent x k)

/-- EVENT_CROSSING_ACK (R44): The acknowledge of an event transfer arrives and the pending set is delivered as one transfer. -/
def execEventCrossingAck (x : XId) (s : State) : Res :=
  ifWf (.eventCrossingAck x) s <| .next (s.event fun d => d.ackEvent x)

/-- QUEUE_ENTRY_OFFER (R46): An entry is offered on a queue crossing under a slot credit, or the sender stalls and sets
overrun. -/
def execQueueEntryOffer (x : XId) (v : Nat) (s : State) : Res :=
  ifWf (.queueEntryOffer x v) s <| .next (s.event fun d => d.offerEntry x v)

/-- QUEUE_SLOT_CREDIT (R46): A slot credit returns to the sender of a queue crossing and a stalled entry may proceed. -/
def execQueueSlotCredit (x : XId) (s : State) : Res :=
  ifWf (.queueSlotCredit x) s <| .next (s.event fun d => d.slotCredit x)

/-- CROSSING_DELIVERY (R47): A value, event or entry is delivered to the receiving domain after synchronisation. -/
def execCrossingDelivery (x : XId) (s : State) : Res :=
  ifWf (.crossingDelivery x) s <| .next (s.bothWork fun d => crossingDelivery s.nv x (d, s.stile)).keepFailed

/-- ISLAND_RESET (R49): A clocked island is reset and all its crossings return to idle, discarding in-flight transfers. -/
def execIslandReset (k : Nat) (s : State) : Res :=
  ifWf (.islandReset k) s <| .next (s.event fun d => d.islandRow k)

/-- LAG_BEYOND_PERIOD (R57): A periodic unit's lag exceeds its period and it raises one record for the excursion. -/
def execLagBeyondPeriod (u : LagUnit) (s : State) : Res :=
  ifWf (.lagBeyondPeriod u) s <| .next (s.event fun d => d.lagBeyond u)

/-- MAXLAG_CLR (R57): Writing CLR of a maximum-lag register sets MAX_LAG to zero. -/
def execMaxlagClr (u : LagUnit) (s : State) : Res :=
  ifWf (.maxlagClr u) s <| .next (s.event fun d => d.viaReg u.maxReg (·.maxlagClr u))

/-- AVS_DECISION (R37): At each decision interval the controller samples speed indices and moves quarter set points by the AVS
procedure. -/
def execAvsDecision (s : State) : Res :=
  .next (s.event fun d => d.avsDecision)

/-- AVS_SETTLE_END (R37): The settle time after sending set points passes and decisions may resume. -/
def execAvsSettleEnd (s : State) : Res :=
  .next (s.event fun d => d.avsSettled)

/-- SPEED_WINDOW_END (R36): A 1 µs monitor window ends and the quarter's speed index and SEQ are updated. -/
def execSpeedWindowEnd (q speed : Nat) (s : State) : Res :=
  ifWf (.speedWindowEnd q speed) s <| .next (s.event fun d => d.speedWindow q speed)

/-- AVSBUS_FAILURE (R39): An AVSBus command fails, is retried up to three times and then sets BUS_ERR with a record. -/
def execAvsbusFailure (q : Nat) (s : State) : Res :=
  ifWf (.avsbusFailure q) s <| .next (s.event fun d => d.avsFail q)

/-- AVS_SETPOINT_WRITE (R40): A software write of SETPOINT while EN is 0 sends the set point to the quarter regulator. -/
def execAvsSetpointWrite (q code : Nat) (s : State) : Res :=
  ifWf (.avsSetpointWrite q code) s <| .next (s.event fun d => d.viaReg (.gblAvsQ q) (·.avsWrite q code))

/-- BUS_ERR_CLEAR (R39): Clearing BUS_ERR resumes automatic decisions for the quarter. -/
def execBusErrClear (q : Nat) (s : State) : Res :=
  ifWf (.busErrClear q) s <| .next (s.event fun d => d.viaReg (.gblAvsQ q) (·.busErrClear q))

end Sys2Proof.Machine
end

