-- ==== Sys2Proof/Machine/HostRows.lean ====
section
/-! DEFINITION. Meanings of the commands of host ports, resets and endpoints (chapters 3 and 4). -/

namespace Sys2Proof.Machine

/-- HEAD_LINK_UP (R81): A head finishes training and opens CXL.io, and CXL.mem when negotiation, rate and media readiness
allow. -/
def execHeadLinkUp (h : Nat) (nego : Bool) (proto rate width : Nat) (flit256 : Bool) (credits : Nat) (s : State) : Res :=
  ifWf (.headLinkUp h nego proto rate width flit256 credits) s <|
    .next (s.event fun d => d.headLinkUp h nego proto rate width flit256 credits)

/-- PERST_N_ASSERT (R103): PERST_N of a head is asserted, taking its link down and resetting its LDs. -/
def execPerstNAssert (h : Nat) (s : State) : Res :=
  ifWf (.perstNAssert h) s <| .next (s.pin fun d => d.perstAssert h)

/-- PERST_N_RELEASE (R103): PERST_N is released and the head retrains. -/
def execPerstNRelease (h : Nat) (s : State) : Res :=
  ifWf (.perstNRelease h) s <| .next (s.pin fun d => d.perstRelease h)

/-- HOT_RESET (R103): An in-band hot reset from the link partner resets every LD of the head and retrains. -/
def execHotReset (h : Nat) (s : State) : Res :=
  ifWf (.hotReset h) s <| .next (s.event fun d => d.hotReset h)

/-- LINK_DOWN (R103): A head loses its link without reset, with the scope of a hot reset. -/
def execLinkDown (h : Nat) (s : State) : Res :=
  ifWf (.linkDown h) s <| .next (s.event fun d => d.hostLinkDown h)

/-- FLR (R105): Initiate FLR of an LD function resets that LD, regenerating its key and keeping its decoders committed. -/
def execFlr (n : Nat) (s : State) : Res :=
  ifWf (.flr n) s <| .next (s.event fun d => d.flr n)

/-- CXL_RESET (R103): A CXL Reset of an LD uncommits its decoders and regenerates its key. -/
def execCxlReset (n : Nat) (s : State) : Res :=
  ifWf (.cxlReset n) s <| .next (s.event fun d => d.cxlReset n)

/-- HEAD_RESET_DELIVERY (R104): A head or LD reset event reaches the core after earlier entries, frees tags, runs head loss
and stops rings. -/
def execHeadResetDelivery (h : Nat) (s : State) : Res :=
  ifWf (.headResetDelivery h) s <| .next (s.work fun d => d.headDelivery h)

/-- FLR_COMPLETE (R105): An FLR or CXL Reset completes and the function is ready for use within 10 ms. -/
def execFlrComplete (n : Nat) (s : State) : Res :=
  ifWf (.flrComplete n) s <| .next (s.event fun d => d.flrComplete n)

/-- IDE_CHECK_FAILURE (R97): An IDE check fails, the stream goes insecure, later CXL.mem requests are discarded and the head
is treated as lost. -/
def execIdeCheckFailure (h : Nat) (st : IdeStream) (s : State) : Res :=
  ifWf (.ideCheckFailure h st) s <| .next (s.work fun d => d.ideFail h st)

/-- IDE_KM (R97): IDE keys are programmed or refreshed through IDE_KM over Secured CMA/SPDM. -/
def execIdeKm (h : Nat) (st : IdeStream) (key : Nat) (containment : Bool) (s : State) : Res :=
  ifWf (.ideKm h st key containment) s <| .next (s.event fun d => d.ideKm h st key containment)

/-- LDBIND_ENABLE (R84): Setting EN of GBL_LDBINDn binds the LD to its head, or is refused on a duplicate LDID. -/
def execLdbindEnable (n : Nat) (s : State) : Res :=
  ifWf (.ldbindEnable n) s <| .next (s.event fun d => d.viaReg (.gblLdbind n) (·.bindEnable n))

/-- LDBIND_DISABLE (R84): Clearing EN of GBL_LDBINDn unbinds the LD, refused while decoders are committed or rings enabled. -/
def execLdbindDisable (n : Nat) (s : State) : Res :=
  ifWf (.ldbindDisable n) s <| .next (s.event fun d => d.viaReg (.gblLdbind n) (·.bindDisable n))

/-- MEDIA_READY (R88): Once the LD's committed capacity is trained and usable, Media Not Ready clears and Memory_Active sets. -/
def execMediaReady (n : Nat) (s : State) : Res :=
  ifWf (.mediaReady n) s <| .next (s.event fun d => d.mediaReady n)

/-- DOE_DISCOVERY (R92): A DOE Discovery request lists the supported data objects. -/
def execDoeDiscovery (fn index : Nat) (s : State) : Res :=
  ifWf (.doeDiscovery fn index) s <| .next (s.event fun d => d.doeDiscovery fn index)

/-- SPDM (R421): An SPDM 1.2 request over DOE or MCTP returns measurements or attestation. -/
def execSpdm (fn block : Nat) (s : State) : Res :=
  ifWf (.spdm fn block) s <| .next (s.event fun d => d.spdm s.nv fn block)

/-- CDAT_TABLE_ACCESS (R93): A CDAT Table Access request returns the LD's CDAT entries. -/
def execCdatTableAccess (fn handle : Nat) (s : State) : Res :=
  ifWf (.cdatTableAccess fn handle) s <| .next (s.event fun d => d.cdatAccess fn handle)

/-- DECK_REQUEST (R94): A Deck DOE request returns the entry for its handle and the next handle. -/
def execDeckRequest (fn handle : Nat) (s : State) : Res :=
  ifWf (.deckRequest fn handle) s <| .next (s.event fun d => d.deckRequest fn handle)

/-- READ_COMPLETION (R101): A completion for a device read arrives and is accepted if its tag, requester ID, byte count and
address agree. -/
def execReadCompletion (h tag : Nat) (idOk : Bool) (count lower : Nat) (st : CplStatus) (data : List Nat) (s : State) : Res :=
  ifWf (.readCompletion h tag idOk count lower st data) s <|
    .next (s.work fun d => d.readCompletion h tag idOk count lower st data)

/-- COMPLETION_TIMEOUT (R100): A device read's timer expires, the read fails, AER reports it and the tag is quarantined. -/
def execCompletionTimeout (h tag : Nat) (s : State) : Res :=
  ifWf (.completionTimeout h tag) s <| .next (s.work fun d => d.completionTimeout h tag)

/-- TAG_QUARANTINE_END (R100): A tag's quarantine ends and it returns to the tail of the free pool. -/
def execTagQuarantineEnd (h tag : Nat) (s : State) : Res :=
  ifWf (.tagQuarantineEnd h tag) s <| .next (s.work fun d => d.quarantineEnd h tag)

/-- HDM_COMMIT (R58): A write of Commit = 1 to an HDM decoder is checked against the LD window and supported values. -/
def execHdmCommit (n i ig iw : Nat) (lock : Bool) (s : State) : Res :=
  ifWf (.hdmCommit n i ig iw lock) s <|
    .next (s.event fun d => d.hdmCommit n i ig iw lock)

/-- HDM_COMMIT_TAKES_EFFECT (R62): Committed becomes 1 within 500 ns and the decoder starts binding requests. -/
def execHdmCommitTakesEffect (n i : Nat) (s : State) : Res :=
  ifWf (.hdmCommitTakesEffect n i) s <|
    .next (s.event fun d => d.hdmTakes n i)

/-- HDM_UNCOMMIT (R62): A write of Commit = 0 asks the decoder to stop taking effect. -/
def execHdmUncommit (n i : Nat) (s : State) : Res :=
  ifWf (.hdmUncommit n i) s <| .next (s.event fun d => d.hdmUncommit n i)

/-- HDM_UNCOMMIT_TAKES_EFFECT (R62): Committed returns to 0 within 500 ns and the decoder stops binding requests. -/
def execHdmUncommitTakesEffect (n i : Nat) (s : State) : Res :=
  ifWf (.hdmUncommitTakesEffect n i) s <| .next (s.event fun d => d.hdmUntakes n i)

end Sys2Proof.Machine
end

