-- ==== Sys2Proof/Machine/LeyRows.lean ====
section
/-! DEFINITION. Meanings of the commands of Ley ports (chapter 13). -/

namespace Sys2Proof.Machine

/-- LEY_ENABLE (R340): Setting EN of LEY_CTRL powers the port and starts detection. -/
def execLeyEnable (p : Nat) (s : State) : Res :=
  ifWf (.leyEnable p) s <|
    .next (s.event fun d => d.viaReg (.leyCtrl p) fun d => (d.setFlag (.leyCtrl p) F.leyCtrl_EN true).leyEnable p)

/-- LEY_DISABLE (R362): Clearing EN sends DOWN and takes the link down. -/
def execLeyDisable (p : Nat) (s : State) : Res :=
  ifWf (.leyDisable p) s <|
    .next (s.event fun d => d.viaReg (.leyCtrl p) fun d => (d.setFlag (.leyCtrl p) F.leyCtrl_EN false).leyDisable p)

/-- LEY_PARTNER_DETECT (R340): A partner appears on the lanes and the port starts training. -/
def execLeyPartnerDetect (p : Nat) (s : State) : Res :=
  ifWf (.leyPartnerDetect p) s <| .next (s.event fun d => d.partnerDetect p)

/-- LEY_TRAIN_COMPLETE (R339): Training picks rate and width and the port enters CONFIG. -/
def execLeyTrainComplete (p rate lanes : Nat) (s : State) : Res :=
  ifWf (.leyTrainComplete p rate lanes) s <| .next (s.event fun d => d.trainComplete p rate lanes)

/-- LEY_FLIT_RECEIVE (R346): A received flit is corrected and checked, its header applied and its payload accepted, duplicated
or discarded. -/
def execLeyFlitReceive (p : Nat) (flit : BitVec 2048) (s : State) : Res :=
  ifWf (.leyFlitReceive p flit) s <| .next (s.event fun d => d.flitReceive p flit)

/-- LEY_FLIT_TRANSMIT (R349): Each flit time the port sends a payload, idle or control flit packed with ready entries and
credit returns. -/
def execLeyFlitTransmit (p : Nat) (s : State) : Res :=
  ifWf (.leyFlitTransmit p) s <| .next (s.event fun d => d.flitTransmit p)

/-- REPLAY_TIMEOUT (R348): ACKSEQ has not advanced for REPLAY_TO and the transmitter replays from the oldest buffered flit. -/
def execReplayTimeout (p : Nat) (s : State) : Res :=
  ifWf (.replayTimeout p) s <| .next (s.event fun d => d.replayTimeout p)

/-- SETTLED_WINDOW (R356): A VC idle for IDLE µs has a settled window below THRESH and a retrain starts. -/
def execSettledWindow (p v : Nat) (s : State) : Res :=
  ifWf (.settledWindow p v) s <| .next (s.event fun d => d.settledWindow p v)

/-- RT_REQ (R357): Writing RT_REQ starts a retrain with cause software. -/
def execRtReq (p : Nat) (s : State) : Res :=
  ifWf (.rtReq p) s <| .next (s.event fun d => d.viaReg (.leyCtrl p) (·.leyRetrain p 4))

/-- RS_REQ (R360): Writing RS_REQ asks for a resize to RS_WIDTH, or is refused. -/
def execRsReq (p : Nat) (s : State) : Res :=
  ifWf (.rsReq p) s <|
    .next (s.event fun d => d.viaReg (.leyCtrl p) fun d => d.leyResize p (d.fld (.leyCtrl p) F.leyCtrl_RS_WIDTH))

/-- LANE_LOCK_LOSS (R357): Loss of lock or deskew on a lane in use starts a retrain. -/
def execLaneLockLoss (p : Nat) (s : State) : Res :=
  ifWf (.laneLockLoss p) s <| .next (s.event fun d => d.leyRetrain p 6)

/-- RTRQ (R357): A retrain request arrives and the end answers RTACK or resolves a collision. -/
def execRtrq (p pass lower : Nat) (s : State) : Res :=
  ifWf (.rtrq p pass lower) s <| .next (s.event fun d => d.rtrq p pass lower)

/-- RTACK (R357): A retrain acceptance arrives and the PHYs re-equalize. -/
def execRtack (p pass lower : Nat) (s : State) : Res :=
  ifWf (.rtack p pass lower) s <| .next (s.event fun d => d.rtack p pass lower)

/-- RSRQ (R360): A resize request arrives and is answered with RSACK or resolved as a collision. -/
def execRsrq (p : Nat) (s : State) : Res :=
  ifWf (.rsrq p) s <| .next (s.event fun d => d.rsrq p)

/-- RSACK (R360): A resize acceptance arrives and both ends change lanes after the flit in progress. -/
def execRsack (p : Nat) (s : State) : Res :=
  ifWf (.rsack p) s <| .next (s.event fun d => d.rsack p)

/-- RESIZE_COMPLETE (R360): The new lane set comes up and traffic resumes with credits and SEQ unchanged. -/
def execResizeComplete (p : Nat) (s : State) : Res :=
  ifWf (.resizeComplete p) s <| .next (s.event fun d => d.resizeComplete p)

/-- RESIZE_TIMEOUT (R360): The lanes of a resize do not come up within its bound and a retrain starts. -/
def execResizeTimeout (p : Nat) (s : State) : Res :=
  ifWf (.resizeTimeout p) s <| .next (s.event fun d => d.resizeTimeout p)

/-- IDENT (R357): An IDENT message carries the partner's serial number, DEV and DIST; a mismatch takes the link down. -/
def execIdent (p : Nat) (s : State) : Res :=
  ifWf (.ident p) s <| .next (s.event fun d => d.identMsg p)

/-- RESYNC (R358): A RESYNC sets windows to the partner's free credits and releases flits up to its reported SEQ. -/
def execResync (p : Nat) (s : State) : Res :=
  ifWf (.resync p) s <| .next (s.event fun d => d.resyncMsg p)

/-- DOWN (R362): An orderly DOWN message takes the link down. -/
def execDown (p : Nat) (s : State) : Res :=
  ifWf (.down p) s <| .next (s.event fun d => d.downMsg p)

/-- RETRAIN_STEP_TIMEOUT (R357): A retrain step passes its bound, the attempt fails, and after RT_TRIES the link goes down. -/
def execRetrainStepTimeout (p : Nat) (s : State) : Res :=
  ifWf (.retrainStepTimeout p) s <| .next (s.event fun d => d.stepTimeout p)

/-- LEY_DOWN_EXPIRY (R340): 1 ms after entering DOWN the port returns to DETECT. -/
def execLeyDownExpiry (p : Nat) (s : State) : Res :=
  ifWf (.leyDownExpiry p) s <| .next (s.event fun d => d.downExpiry p)

/-- LEY_CRED_CLR (R356): Writing CLR of LEY_CREDv sets HLOW and DLOW to the current windows. -/
def execLeyCredClr (p v : Nat) (s : State) : Res :=
  ifWf (.leyCredClr p v) s <| .next (s.event fun d => d.viaReg (.leyCred p v) (·.credClr p v))

end Sys2Proof.Machine
end

