-- ==== Sys2Proof/Machine/MemRows.lean ====
section
/-! DEFINITION. Meanings of the commands of CXL.mem requests and the home directory (chapters 4 and 5). -/

namespace Sys2Proof.Machine

/-- MEM_RD (R125): A MemRd request (RdS, RdE or RdI by MetaValue) is accepted from a head, bound to a decoder, admitted at its
home slice and served under the directory tables. An Exclusive read (MetaValue A), a shared one (S) or an uncached one (I). -/
def execMemRd (h ldid hpa tag : Nat) (m : MetaValue) (uio : Bool) (e : SramErr) (s : State) : Res :=
  ifWf (.memRd h ldid hpa tag m uio e) s <|
    .next (s.work fun d => d.memRead h ldid hpa tag (if uio then (.ncRead, 2) else m.rd) false e)

/-- MEM_RD_DATA (R125): A MemRdData request is accepted and served as RdS through the home. -/
def execMemRdData (h ldid hpa tag : Nat) (e : SramErr) (s : State) : Res :=
  ifWf (.memRdData h ldid hpa tag e) s <| .next (s.work fun d => d.memRead h ldid hpa tag (.rdS, 0) false e)

/-- MEM_INV (R125): A MemInv request is accepted and handled as Inv(A) or Inv(I) at the home. -/
def execMemInv (h ldid hpa tag : Nat) (m : MetaValue) (e : SramErr) (s : State) : Res :=
  ifWf (.memInv h ldid hpa tag m e) s <| .next (s.work fun d => d.memRead h ldid hpa tag m.inv true e)

/-- MEM_INV_NT (R125): A MemInvNT request is accepted and handled as Inv(A) or Inv(I) at the home. -/
def execMemInvNt (h ldid hpa tag : Nat) (m : MetaValue) (e : SramErr) (s : State) : Res :=
  ifWf (.memInvNt h ldid hpa tag m e) s <| .next (s.work fun d => d.memRead h ldid hpa tag m.inv true e)

/-- MEM_SPEC_RD (R87): A MemSpecRd is accepted and takes no action and sends no response. -/
def execMemSpecRd (h ldid hpa : Nat) (s : State) : Res :=
  ifWf (.memSpecRd h ldid hpa) s <| .next (s.event fun d => d.specRead h ldid hpa)

/-- MEM_CLN_EVCT (R125): A MemClnEvct from a CXL 3.1 holder removes the requester from the line's holders. -/
def execMemClnEvct (h ldid hpa tag : Nat) (e : SramErr) (s : State) : Res :=
  ifWf (.memClnEvct h ldid hpa tag e) s <| .next (s.work fun d => d.memClnEvct h ldid hpa tag e)

/-- MEM_WR (R17): A full-line MemWr is accepted and written per its hint, or applied at once as a holder write-back. -/
def execMemWr (h ldid hpa tag : Nat) (m : MetaValue) (data : Line) (poison uio : Bool) (e : SramErr) (s : State) : Res :=
  ifWf (.memWr h ldid hpa tag m data poison uio e) s <|
    .next (s.work fun d => d.memWrite h ldid hpa tag m data (BitVec.allOnes 64) poison uio 7 e)

/-- MEM_WR_PTL (R18): A partial write is merged into the Sward copy or by read, verify, merge and re-encipher at the cipher
unit. -/
def execMemWrPtl (h ldid hpa tag : Nat) (m : MetaValue) (data : Line) (mask : BitVec 64) (poison uio : Bool) (e : SramErr)
    (s : State) : Res :=
  ifWf (.memWrPtl h ldid hpa tag m data mask poison uio e) s <|
    .next (s.work fun d => d.memWrite h ldid hpa tag m data mask poison uio 8 e)

/-- BIRSP (R127): A BIRsp completes the waiting back-invalidate, clears the holder and stops its response timer. -/
def execBirsp (ld line : Nat) (a : BiAnswer) (s : State) : Res :=
  ifWf (.birsp ld line a) s <| .next (s.work fun d => d.birsp ld line a)

/-- BICONFLICT (R128): A BIConflict from a holder is answered at once with BIConflictAck. -/
def execBiconflict (ld line : Nat) (s : State) : Res :=
  ifWf (.biconflict ld line) s <| .next (s.work fun d => d.biconflict ld line)

/-- DIRECTORY_EVICTION_COMPLETE (R134): When every response and write-back of a victim has arrived, the way passes to the
waiting stand-by request. -/
def execDirectoryEvictionComplete (line : Nat) (s : State) : Res :=
  ifWf (.directoryEvictionComplete line) s <| .next (s.work fun d => d.evictionComplete line)

/-- LINE_LOCK_RELEASE (R129): When the last acknowledge of a transaction arrives, BUSY clears and the next line-wait request
for the line is taken. -/
def execLineLockRelease (line : Nat) (s : State) : Res :=
  ifWf (.lineLockRelease line) s <| .next (s.work fun d => d.lineRelease line)

/-- BISNP_TIMEOUT (R137): A BISnp response timer expires, the line is poisoned if held in E, the holder cleared and its LD
made unresponsive. -/
def execBisnpTimeout (ld line : Nat) (s : State) : Res :=
  ifWf (.bisnpTimeout ld line) s <| .next (s.work fun d => d.bisnpTimeout ld line)

/-- UNRESPONSIVE_SWEEP_COMPLETE (R139): The directory sweep for an unresponsive LD ends, raising a holder-unresponsive record
and clearing UNRESP after head loss. -/
def execUnresponsiveSweepComplete (ld : Nat) (s : State) : Res :=
  ifWf (.unresponsiveSweepComplete ld) s <| .next (s.work fun d => d.sweepDone ld)

/-- HOME_GRANT_WRITE (R113): A write to HOME_GRANTn sets grants or starts a revocation sweep that snoops sources whose rights
were cleared. -/
def execHomeGrantWrite (n v : Nat) (s : State) : Res :=
  ifWf (.homeGrantWrite n v) s <| .next (s.work fun d => d.viaReg (.homeGrant n) (·.grantWrite n v))

/-- GRANT_REVOCATION_COMPLETE (R113): The revocation sweep and all its responses complete and PEND[n] clears. -/
def execGrantRevocationComplete (n : Nat) (s : State) : Res :=
  ifWf (.grantRevocationComplete n) s <| .next (s.work fun d => d.grantDone n)

/-- DEFHINT_WRITE (R120): A write of HOME_CTRL.DEFHINT makes every slice unpin ways pinned under the default hint within 50
µs. -/
def execDefhintWrite (v : Nat) (s : State) : Res :=
  ifWf (.defhintWrite v) s <| .next (s.work fun d => d.viaReg .homeCtrl (·.defhintWrite v))

/-- TEDDER_SAMPLE (R158): A sample from a home slice reaches the owning Tedder and increments its hotness sketch counters. -/
def execTedderSample (t : Nat) (par : List Nat) (s : State) : Res :=
  ifWf (.tedderSample t par) s <| .next (s.event fun d => d.tedSample t par)

end Sys2Proof.Machine
end

