-- ==== Sys2Proof/Machine/RingRows.lean ====
section
/-! DEFINITION. Meanings of the commands of command and completion rings (chapter 12). -/

namespace Sys2Proof.Machine

/-- DOORBELL (R314): A write of TAIL to RNG_CRr_TAIL tells the ring engine how far descriptors are written. -/
def execDoorbell (s_ r v : Nat) (s : State) : Res :=
  ifWf (.doorbell s_ r v) s <|
    .next (s.work fun d => d.viaReg (.rngCrTail s_ r) (·.doorbell s_ r v))

/-- DESCRIPTOR_FETCH (R314): A descriptor read completes, HEAD advances and the descriptors enter prefetch memory. -/
def execDescriptorFetch (s_ r : Nat) (s : State) : Res :=
  ifWf (.descriptorFetch s_ r) s <| .next (s.work fun d => d.descriptorFetch s_ r)

/-- CR_ENABLE (R312): Setting EN of a command ring enables it with HEAD and TAIL 0, or is refused. -/
def execCrEnable (s_ r : Nat) (s : State) : Res :=
  ifWf (.crEnable s_ r) s <| .next (s.work fun d => d.viaReg (.rngCrCtrl s_ r) (·.crEnable s_ r))

/-- CR_DISABLE (R312): Clearing EN of a command ring stops fetching; running commands still post. -/
def execCrDisable (s_ r : Nat) (s : State) : Res :=
  ifWf (.crDisable s_ r) s <| .next (s.work fun d => d.viaReg (.rngCrCtrl s_ r) (·.crDisable s_ r))

/-- CQ_ENABLE (R313): Setting EN of a completion ring resets TAIL, HEAD and PHASE, or is refused. -/
def execCqEnable (s_ q : Nat) (s : State) : Res :=
  ifWf (.cqEnable s_ q) s <| .next (s.work fun d => d.viaReg (.rngCqCtrl s_ q) (·.cqEnable s_ q))

/-- CQ_DISABLE (R313): Clearing EN of a completion ring, refused while a ring names it or a command will post to it. -/
def execCqDisable (s_ q : Nat) (s : State) : Res :=
  ifWf (.cqDisable s_ q) s <| .next (s.work fun d => d.viaReg (.rngCqCtrl s_ q) (·.cqDisable s_ q))

/-- CQ_HEAD_WRITE (R321): The host moves RNG_CQr_HEAD and held records post and stalled rings resume. -/
def execCqHeadWrite (s_ q v : Nat) (s : State) : Res :=
  ifWf (.cqHeadWrite s_ q v) s <|
    .next (s.work fun d => d.viaReg (.rngCqHead s_ q) (·.cqHeadWrite s_ q v))

/-- NOP (R316): A NOP command posts a completion record. -/
def execNop (s : State) : Res :=
  .next (s.work fun d => d.startCmd .nop fun c d => d.ringFinish c 0 0 0 0)

/-- SET_HINT (R329): SET_HINT writes or removes a policy range and unpins ways that leave pinning ranges. -/
def execSetHint (s : State) : Res :=
  .next (s.work fun d => d.startCmd .setHint Dev.setHint)

/-- TIER_POLICY (R330): TIER_POLICY writes TPOL and RPROMO into field descriptors under field locks. -/
def execTierPolicy (s : State) : Res :=
  .next (s.work fun d => d.startCmd .tierPolicy Dev.tierPolicy)

/-- COMP_POLICY (R330): COMP_POLICY writes CPOL, THRESH and BUDGET into field descriptors. -/
def execCompPolicy (s : State) : Res :=
  .next (s.work fun d => d.startCmd .compPolicy Dev.compPolicy)

/-- PROMOTE (R330): PROMOTE queues each page of its range with its Tedder as a ring promotion. -/
def execPromote (s : State) : Res :=
  .next (s.work fun d => d.startCmd .promote Dev.ringPromote)

/-- DEMOTE (R330): DEMOTE queues each page of its range for one demotion attempt. -/
def execDemote (s : State) : Res :=
  .next (s.work fun d => d.startCmd .demote Dev.ringDemote)

/-- FILL (R324): FILL writes its pattern to every line of the range as non-caching writes. -/
def execFill (s : State) : Res :=
  .next (s.work fun d => d.startCmd .fill Dev.ringRun)

/-- ZERO (R327): ZERO makes whole tiered pages bare and writes zero lines elsewhere. -/
def execZero (s : State) : Res :=
  .next (s.work fun d => d.startCmd .zero Dev.ringRun)

/-- COPY (R326): COPY copies a range between DPA and host memory as if the source were read whole first. -/
def execCopy (s : State) : Res :=
  .next (s.work fun d => d.startCmd .copy Dev.ringRun)

/-- SANITIZE (R328): SANITIZE snoops, drops and erases or makes bare each page of its range, retrying failed commits. -/
def execSanitize (s : State) : Res :=
  .next (s.work fun d => d.startCmd .sanitize Dev.ringRun)

/-- CAP_QUERY (R331): CAP_QUERY reports the acting LD's capacity state at one instant. -/
def execCapQuery (s : State) : Res :=
  .next (s.work fun d => d.startCmd .capQuery Dev.capQuery)

/-- RELEASE_ACK (R331): RELEASE_ACK reads an extent list and removes the listed extents as the host's release response. -/
def execReleaseAck (s : State) : Res :=
  .next (s.work fun d => d.startCmd .releaseAck Dev.ringRun)

/-- SNAPSHOT (R332): SNAPSHOT has the Tally reader read selected counters into host memory. -/
def execSnapshot (s : State) : Res :=
  .next (s.work fun d => d.startCmd .snapshot Dev.ringRun)

/-- SAMPLE_CFG (R453): SAMPLE_CFG flushes pending samples and sets up or stops the LD's sample buffer. -/
def execSampleCfg (s : State) : Res :=
  .next (s.work fun d => d.startCmd .sampleCfg Dev.sampleCfg)

/-- COMMAND_COMPLETE (R319): A ring command finishes and its completion record is posted after its data writes. -/
def execCommandComplete (s : State) : Res :=
  .next (s.work fun d => d.commandComplete)

/-- INTERRUPT_COALESCING_TIMEOUT (R334): ITIME after the first eligible record the completion ring sends its MSI-X vector. -/
def execInterruptCoalescingTimeout (s_ q : Nat) (s : State) : Res :=
  ifWf (.interruptCoalescingTimeout s_ q) s <| .next (s.event fun d => d.coalesceTimeout s_ q)

end Sys2Proof.Machine
end

