-- ==== Sys2Proof/Machine/StileCmds.lean ====
section
/-! DEFINITION. Meanings of the commands of the Stile die (chapter 15). -/

namespace Sys2Proof.Machine

/-- STILE_POR (R389): Stile's power-on reset resets its registers and samples its straps. -/
def execStilePor (s1 s2 s3 : Nat) (s : State) : Res :=
  ifWf (.stilePor s1 s2 s3) s <| .next (if s.stile.armed && !s.stile.running then s.stiled (Stile.por s1 s2 s3, []) else s)

/-- STILE_EVALUATION_STEP (R391): Each 1 µs step Stile samples comparators, advances timers and applies its rules in
precedence order. -/
def execStileEvaluationStep (x : StlSample) (s : State) : Res :=
  ifWf (.stileEvaluationStep x) s <| .next (s.stiled (s.stile.step x))

/-- QUALIFICATION_COMPLETE (R393): A feed's input has stayed in the window for DLY with a passed FET check and the feed enters
WAIT. -/
def execQualificationComplete (i : Nat) (s : State) : Res :=
  ifWf (.qualificationComplete i) s <| .next (s.onStile (Stile.feedEvent i (·.state == .qual) (·.qualDone i)))

/-- RAMP_TIMEOUT (R395): A ramp is not complete within its bound and the feed faults. -/
def execRampTimeout (i vin : Nat) (s : State) : Res :=
  ifWf (.rampTimeout i vin) s <| .next (s.onStile (Stile.feedEvent i (·.state == .ramp) (·.fault i 4 vin)))

/-- CURRENT_LIMIT (R396): The sense voltage reaches the limit, the pass FET is held at the limit and the fault timer runs. -/
def execCurrentLimit (i : Nat) (s : State) : Res :=
  ifWf (.currentLimit i) s <| .next (s.onStile (Stile.feedEvent i (Feed.driven) (Stile.limit i)))

/-- FAULT_TIMER_EXPIRY (R396): The fault timer reaches FT, both gates go off and the feed faults. -/
def execFaultTimerExpiry (i vin : Nat) (s : State) : Res :=
  ifWf (.faultTimerExpiry i vin) s <| .next (s.onStile (Stile.feedEvent i (·.ftRun) (Stile.timerExpiry i vin)))

/-- FAULT_TIMER_CLEAR (R396): The current stays below the limit for 100 µs and the fault timer returns to zero. -/
def execFaultTimerClear (i : Nat) (s : State) : Res :=
  ifWf (.faultTimerClear i) s <| .next (s.onStile (Stile.feedEvent i (·.ftRun) (Stile.timerClear i)))

/-- FAST_TRIP (R397): The sense voltage reaches twice RUN_LIM and both gates are pulled off at once. -/
def execFastTrip (i vin : Nat) (s : State) : Res :=
  ifWf (.fastTrip i vin) s <| .next (s.onStile (Stile.feedEvent i (Feed.driven) (·.fault i 3 vin)))

/-- COOL_EXPIRY (R398): COOL elapses and the faulted feed ramps again. -/
def execCoolExpiry (i : Nat) (s : State) : Res :=
  ifWf (.coolExpiry i) s <| .next (s.onStile (Stile.feedEvent i (·.state == .cool) (·.coolDone i)))

/-- RETRY_COUNT_RESET (R398): A feed ON without interruption for 10 s has its retry count returned to zero. -/
def execRetryCountReset (i : Nat) (s : State) : Res :=
  ifWf (.retryCountReset i) s <|
    .next (s.onStile (Stile.feedEvent i (·.state == .on) (fun s => s.setFeed i { s.feed i with retries := 0 })))

/-- PASS_FET_DAMAGED (R400): The midpoint reads 10 V for 1 ms with both gates off and the feed goes to FET_BAD. -/
def execPassFetDamaged (i vin : Nat) (s : State) : Res :=
  ifWf (.passFetDamaged i vin) s <|
    .next (s.onStile (Stile.feedEvent i (fun f => !f.gps && !f.gor && f.state != .fetBad) (·.fetBad i 5 vin)))

/-- ORING_FET_DAMAGED (R401): Reverse current flows for 10 µs with GOR off and the feed goes to FET_BAD. -/
def execOringFetDamaged (i vin : Nat) (s : State) : Res :=
  ifWf (.oringFetDamaged i vin) s <|
    .next (s.onStile (Stile.feedEvent i (fun f => !f.gor && f.state != .fetBad) (·.fetBad i 6 vin)))

/-- REVERSE_TURN_OFF (R403): VOUT exceeds a midpoint by REV and the ORing gate is pulled off within 300 ns. -/
def execReverseTurnOff (i : Nat) (s : State) : Res :=
  ifWf (.reverseTurnOff i) s <|
    .next (s.onStile (Stile.feedEvent i (·.state == .on) (fun s => s.setFeed i { s.feed i with gor := false })))

/-- PG_HOLD_EXPIRY (R406): HOLD after PFW_N asserted, PG is withdrawn. -/
def execPgHoldExpiry (s : State) : Res :=
  .next (s.onStile (fun t => (if t.withdraw then t.withdrawPg else t, [])))

/-- ORDERLY_GATE_OFF (R406): 1 ms after PG is withdrawn for an orderly off, the gates go off. -/
def execOrderlyGateOff (s : State) : Res :=
  .next (s.onStile (fun t => ((if t.pg then t else t.orderlyGatesOff).passSlot, [])))

/-- LATCH_INPUT_LOW_EXPIRY (R393): A LATCHED feed's input has been below UV_OFF for 100 ms and the feed returns to OFF. -/
def execLatchInputLowExpiry (i : Nat) (s : State) : Res :=
  ifWf (.latchInputLowExpiry i) s <|
    .next (s.onStile (Stile.feedEvent i (·.state == .latched) (fun s => s.setFeed i (s.feed i).toOff)))

/-- STL_OFF_N_ASSERT (R408): STL_OFF_N low for 1 ms turns both feeds off in order and holds them off. -/
def execStlOffNAssert (s : State) : Res :=
  .next (s.onStile Stile.ejected)

/-- STL_OFF_N_RELEASE (R408): STL_OFF_N high for 1 ms lets the feeds requalify. -/
def execStlOffNRelease (s : State) : Res :=
  .next (s.onStile (fun t => ({ t with eject := false, offTime := 0 }, [])))

/-- FEED_ENABLE (R393): Setting EN of a feed lets it leave OFF and qualify. -/
def execFeedEnable (i : Nat) (s : State) : Res :=
  ifWf (.feedEnable i) s <| .next (s.both fun d => d.viaStile s.stile (.stlFeedCtrl i) (Stile.setEn i true))

/-- FEED_DISABLE (R406): Clearing EN of a feed turns it off in order. -/
def execFeedDisable (i : Nat) (s : State) : Res :=
  ifWf (.feedDisable i) s <| .next (s.both fun d => d.viaStile s.stile (.stlFeedCtrl i) (Stile.setEn i false))

/-- RESTART (R393): Writing RESTART returns a LATCHED feed to OFF, or sets ERR. -/
def execRestart (i : Nat) (s : State) : Res :=
  ifWf (.restart i) s <| .next (s.both fun d => d.viaStile s.stile (.stlFeedCtrl i) (·.restart i))

/-- CLR_FET (R402): Writing CLR_FET returns a FET_BAD feed to OFF, or sets ERR. -/
def execClrFet (i : Nat) (s : State) : Res :=
  ifWf (.clrFet i) s <| .next (s.both fun d => d.viaStile s.stile (.stlFeedCtrl i) (·.clrFet i))

/-- STL_VTHR_WRITE (R392): A write to STL_VTHR sets the thresholds as a whole or is refused. -/
def execStlVthrWrite (v : Nat) (s : State) : Res :=
  ifWf (.stlVthrWrite v) s <| .next (s.both fun d => d.viaStile s.stile .stlVthr (·.writeVthr v))

/-- POP (R412): Writing POP removes the oldest fault log entry. -/
def execPop (s : State) : Res :=
  .next (s.both fun d => d.viaStile s.stile .stlLogstat (·.pop))

/-- STILE_LOG_DRAIN (R412): The management controller raises a record for each fault log entry and pops it. -/
def execStileLogDrain (s : State) : Res :=
  .next (s.both fun d => d.stileDrain s.stile)

/-- STILE_LINK_LOST (R410): The Stile link fails, proxy reads return all ones, writes drop and a record is raised. -/
def execStileLinkLost (s : State) : Res :=
  .next (s.event fun d => d.stileLost)

/-- STILE_MEASUREMENT (R413): Every 100 µs a new measurement set is stored with the next SEQ. -/
def execStileMeasurement (x : StlSample) (s : State) : Res :=
  ifWf (.stileMeasurement x) s <| .next (s.onStile (fun t => (t.measure x, [])))

/-- STILE_THERMAL_SHUTDOWN (R491): The Stile die reaches 150 °C and turns off both feeds as a fast trip without retry. -/
def execStileThermalShutdown (vinA vinB : Nat) (s : State) : Res :=
  ifWf (.stileThermalShutdown vinA vinB) s <| .next (s.onStile (Stile.thermal vinA vinB))

end Sys2Proof.Machine
end

