-- ==== Sys2Proof/Machine/SysRows.lean ====
section
/-! DEFINITION. Meanings of the commands of register accesses, interrupts, trips and the rest of chapters 16, 18 and 19. -/

namespace Sys2Proof.Machine

/-- REGISTER_WRITE (R467): A write to a register without its own row clears RW1C bits, writes fields and evaluates any
request. -/
def execRegisterWrite (view : RegView) (h off size v : Nat) (s : State) : Res :=
  ifWf (.registerWrite view h off size v) s <| .next (s.registerWrite view h off size v)

/-- INVALID_REGISTER_ACCESS (R462): An access of wrong size, alignment, empty offset or off unit completes harmlessly and is
recorded in GBL_ACCERR. -/
def execInvalidRegisterAccess (view : RegView) (h off size : Nat) (write : Bool) (s : State) : Res :=
  ifWf (.invalidRegisterAccess view h off size write) s <|
    .next (s.bothPowered fun d => (d.invalidAccess s.stile view h off size write view.fn, s.stile))

/-- GBL_LOCK_SET (R473): Writing LOCK sets GBL_LOCK, freezing RWL fields and refusing commits until cold power-on. -/
def execGblLockSet (s : State) : Res :=
  .next (s.event fun d => d.viaReg .gblLock (·.setFlag .gblLock F.gblLock_LOCK true))

/-- INTERRUPT_ACK (R476): Writing ACK of GBL_INT_CTRL rearms the global interrupt. -/
def execInterruptAck (s : State) : Res :=
  .next (s.event fun d => d.viaReg .gblIntCtrl (·.setFlag .gblIntCtrl F.gblIntCtrl_ARMED true))

/-- THERMTRIP (R491): A main-die sensor reads 120 °C, THERMTRIP_N asserts and the die enters power-on reset. -/
def execThermtrip (at_ : BurnPoint) (s : State) : Res :=
  ifWf (.thermtrip at_) s <| .next (if s.dev.mgt.power = .held then s else s.dropPower at_ true)

/-- BOUNDARY_SCAN_INSTRUCTION (R490): A TAP instruction load is captured, with ball-driving instructions treated as BYPASS
while DRAM_READY is 1. -/
def execBoundaryScanInstruction (trstLow : Bool) (t : TapInstr) (s : State) : Res :=
  ifWf (.boundaryScanInstruction trstLow t) s <| .next (s.pin fun d => d.tapLoad trstLow t)

/-- CONTROLLER_RESTART_COMPLETE (R420): The management controller finishes its watchdog restart within 500 ms, the mailbox
stops answering Busy, AVS decisions and DIMM thermal reads resume, and managed register accesses are served again. -/
def execControllerRestartComplete (s : State) : Res :=
  .next (s.event fun d => d.restartDone)

/-- COMMIT_BURN_COMPLETE (R428): The OTP burn of a Pliuth Commit (steps 9 to 12, up to 60 ms) ends, the STATUS is posted, BUSY
clears and the suspended watchdog resumes. -/
def execCommitBurnComplete (stuck : List Nat) (s : State) : Res :=
  ifWf (.commitBurnComplete stuck) s <|
    if s.up then
      let p := Dev.burnComplete stuck s.nv s.stile s.dev
      .next ({ s with stile := p.1.2, nv := p.2 }.settle p.1.1)
    else .next s

/-- STILE_STANDBY_LOSS (R389): Both VIN_A and VIN_B fall below the level at which Stile runs, so Stile stops, arming the next
Stile POR once both have stayed below 15 V for 10 ms. -/
def execStileStandbyLoss (ms : Nat) (s : State) : Res :=
  ifWf (.stileStandbyLoss ms) s <| .next (s.onStile (fun t => (t.supplyLoss ms, [])))

/-- RESPONSE_CREDIT_RETURN (R22): A host returns link credits to a head, making that head admissible again in the trump
rotation so its waiting requests can be admitted. -/
def execResponseCreditReturn (h n : Nat) (s : State) : Res :=
  ifWf (.responseCreditReturn h n) s <| .next (s.work fun d => d.creditReturn h n)

/-- CLEAR_EVENT_RECORDS (R106): The standard Clear Event Records mailbox command removes records from an LD's or the
management view's event log. -/
def execClearEventRecords (owner log n : Nat) (s : State) : Res :=
  ifWf (.clearEventRecords owner log n) s <| .next (s.event fun d => d.clearRow owner log n)

end Sys2Proof.Machine
end

