-- ==== Sys2Proof/Machine/TallyRows.lean ====
section
/-! DEFINITION. Meanings of the commands of counters and sampling (chapter 17). -/

namespace Sys2Proof.Machine

/-- TALLY_SWEEP (R441): The periodic sweep reads every counter into the standing image and evaluates the watches. -/
def execTallySweep (par ue : List Nat) (ce : Nat) (s : State) : Res :=
  ifWf (.tallySweep par ue ce) s <| .next (s.event fun d => d.tallySweep par ue ce)

/-- SNAPSHOT_PASS (R442): A snapshot pass starts after any sweep and writes counter records to host memory. -/
def execSnapshotPass (par ue : List Nat) (ce : Nat) (s : State) : Res :=
  ifWf (.snapshotPass par ue ce) s <| .next (s.work fun d => d.snapshotPass par ue ce)

/-- SAMPLE_RECORD_COMPLETE (R449): A sampled request's response is handed to the PHY and its sample record is staged. -/
def execSampleRecordComplete (s : State) : Res :=
  .next (s.event fun d => d.sampleComplete)

/-- SAMPLE_RECORD_WRITE (R451): The ring engine writes a staged sample record to the buffer and may send the sample MSI-X. -/
def execSampleRecordWrite (n : Nat) (s : State) : Res :=
  ifWf (.sampleRecordWrite n) s <| .next (s.event fun d => d.sampleWrite n)

end Sys2Proof.Machine
end

