-- ==== Sys2Proof/Machine/TierRows.lean ====
section
/-! DEFINITION. Meanings of the commands of Tedders and the pool (chapter 6). -/

namespace Sys2Proof.Machine

/-- PROMOTION_START (R156): The owning Tedder takes a frame, reads and decodes or forms the page and enciphers and writes its
64 lines. -/
def execPromotionStart (page : Nat) (bad : List Nat) (s : State) : Res :=
  ifWf (.promotionStart page bad) s <| .next (s.work fun d => d.promoStart s.dram page bad)

/-- PROMOTION_COMMIT (R156): Under a page lock the promotion commits the page sward or aborts, and parked requests are
re-admitted. -/
def execPromotionCommit (page : Nat) (s : State) : Res :=
  ifWf (.promotionCommit page) s <| .next (s.work fun d => d.promoCommit page)

/-- SHEAF_RELEASE (R156): When every request bound to the old sheaves has completed they return to the sheaf map. -/
def execSheafRelease (page : Nat) (s : State) : Res :=
  ifWf (.sheafRelease page) s <| .next (s.work fun d => d.sheafRelease page)

/-- PROMOTION_HOLD_EXPIRY (R175): A held elastic promotion's HOLD expires, the page is poisoned and its parked requests
complete. -/
def execPromotionHoldExpiry (page : Nat) (s : State) : Res :=
  ifWf (.promotionHoldExpiry page) s <| .next (s.work fun d => d.holdExpiry page)

/-- TEDDER_EPOCH (R159): A Tedder epoch scans its quota of page-map entries, updates hotness and queues demotions and
promotions. -/
def execTedderEpoch (t : Nat) (lost par : List Nat) (s : State) : Res :=
  ifWf (.tedderEpoch t lost par) s <| .next (s.work fun d => d.tedEpoch t lost par)

/-- DEMOTION_START (R162): A queued demotion pins the counter line, reads the page and compresses or classifies it. -/
def execDemotionStart (page : Nat) (bad : List Nat) (s : State) : Res :=
  ifWf (.demotionStart page bad) s <| .next (s.work fun d => d.demoteStart s.dram page bad)

/-- RELOCATION (R166): A Tedder relocates a sward page or moves page tables out of a draining pool range. -/
def execRelocation (w : RelocWhat) (bad : List Nat) (s : State) : Res :=
  ifWf (.relocation w bad) s <| .next (s.work fun d => d.relocate s.dram w bad)

/-- FALLOW_MOVE (R165): In low mode a Tedder moves a fallow page out of a sparse sheaf frame into a fuller one. -/
def execFallowMove (page : Nat) (bad : List Nat) (s : State) : Res :=
  ifWf (.fallowMove page bad) s <| .next (s.work fun d => d.fallowMove s.dram page bad)

/-- TEDDER_MOVE_COMMIT (R154): Under a page lock a demotion, relocation or fallow move checks its commit condition and commits
or aborts. -/
def execTedderMoveCommit (page : Nat) (s : State) : Res :=
  ifWf (.tedderMoveCommit page) s <| .next (s.work fun d => d.moveCommit s.dram page)

/-- POOL_ENABLE (R167): Setting EN of TED_POOLk adds the range to the free list or is refused. -/
def execPoolEnable (k : Nat) (s : State) : Res :=
  ifWf (.poolEnable k) s <| .next (s.event fun d => d.viaReg (.tedPool k) (·.poolEnable k))

/-- POOL_DRAIN (R166): Setting DRAIN stops frames being taken from the range and starts its withdrawal. -/
def execPoolDrain (k : Nat) (s : State) : Res :=
  ifWf (.poolDrain k) s <| .next (s.event fun d => d.viaReg (.tedPool k) (·.poolDrain k))

/-- POOL_DRAINED (R166): No frame of the draining range remains in use, DRAINED sets and a drain-complete record is raised. -/
def execPoolDrained (k : Nat) (s : State) : Res :=
  ifWf (.poolDrained k) s <| .next (s.event fun d => d.drainCheck k)

/-- POOL_DISABLE (R166): Clearing EN of a drained pool range removes it from the pool. -/
def execPoolDisable (k : Nat) (s : State) : Res :=
  ifWf (.poolDisable k) s <| .next (s.event fun d => d.viaReg (.tedPool k) (·.poolDisable k))

/-- WATERMARK_WRITE (R175): A write to TED_WM sets the watermarks as a whole or is refused. -/
def execWatermarkWrite (v : Nat) (s : State) : Res :=
  ifWf (.watermarkWrite v) s <| .next (s.event fun d => d.viaReg .tedWm (·.wmWrite v))

/-- RELEASE_REQUEST_INTERVAL (R176): Every REL_INT in release mode the device raises a round of release requests. -/
def execReleaseRequestInterval (s : State) : Res :=
  .next (s.event fun d => d.releaseAgain)

end Sys2Proof.Machine
end

