-- ==== Sys2Proof/Machine/Dispatch.lean ====
section
/-! DEFINITION. One arm per command. -/

namespace Sys2Proof.Machine

def exec (i : Instr) (s : State) : Host.Outcome State Fault Refusal :=
  match i with
  | .memRd h ldid hpa tag m uio e => Sys2Proof.Machine.execMemRd h ldid hpa tag m uio e s
  | .memRdData h ldid hpa tag e => Sys2Proof.Machine.execMemRdData h ldid hpa tag e s
  | .memInv h ldid hpa tag m e => Sys2Proof.Machine.execMemInv h ldid hpa tag m e s
  | .memInvNt h ldid hpa tag m e => Sys2Proof.Machine.execMemInvNt h ldid hpa tag m e s
  | .memSpecRd h ldid hpa => Sys2Proof.Machine.execMemSpecRd h ldid hpa s
  | .memClnEvct h ldid hpa tag e => Sys2Proof.Machine.execMemClnEvct h ldid hpa tag e s
  | .memWr h ldid hpa tag m data poison uio e => Sys2Proof.Machine.execMemWr h ldid hpa tag m data poison uio e s
  | .memWrPtl h ldid hpa tag m data mask poison uio e => Sys2Proof.Machine.execMemWrPtl h ldid hpa tag m data mask poison uio e s
  | .birsp ld line a => Sys2Proof.Machine.execBirsp ld line a s
  | .biconflict ld line => Sys2Proof.Machine.execBiconflict ld line s
  | .directoryEvictionComplete line => Sys2Proof.Machine.execDirectoryEvictionComplete line s
  | .lineLockRelease line => Sys2Proof.Machine.execLineLockRelease line s
  | .bisnpTimeout ld line => Sys2Proof.Machine.execBisnpTimeout ld line s
  | .unresponsiveSweepComplete ld => Sys2Proof.Machine.execUnresponsiveSweepComplete ld s
  | .homeGrantWrite n v => Sys2Proof.Machine.execHomeGrantWrite n v s
  | .grantRevocationComplete n => Sys2Proof.Machine.execGrantRevocationComplete n s
  | .defhintWrite v => Sys2Proof.Machine.execDefhintWrite v s
  | .tedderSample t par => Sys2Proof.Machine.execTedderSample t par s
  | .headLinkUp h nego proto rate width flit256 credits => Sys2Proof.Machine.execHeadLinkUp h nego proto rate width flit256 credits s
  | .perstNAssert h => Sys2Proof.Machine.execPerstNAssert h s
  | .perstNRelease h => Sys2Proof.Machine.execPerstNRelease h s
  | .hotReset h => Sys2Proof.Machine.execHotReset h s
  | .linkDown h => Sys2Proof.Machine.execLinkDown h s
  | .flr n => Sys2Proof.Machine.execFlr n s
  | .cxlReset n => Sys2Proof.Machine.execCxlReset n s
  | .headResetDelivery h => Sys2Proof.Machine.execHeadResetDelivery h s
  | .flrComplete n => Sys2Proof.Machine.execFlrComplete n s
  | .ideCheckFailure h st => Sys2Proof.Machine.execIdeCheckFailure h st s
  | .ideKm h st key containment => Sys2Proof.Machine.execIdeKm h st key containment s
  | .ldbindEnable n => Sys2Proof.Machine.execLdbindEnable n s
  | .ldbindDisable n => Sys2Proof.Machine.execLdbindDisable n s
  | .mediaReady n => Sys2Proof.Machine.execMediaReady n s
  | .doeDiscovery fn index => Sys2Proof.Machine.execDoeDiscovery fn index s
  | .spdm fn block => Sys2Proof.Machine.execSpdm fn block s
  | .cdatTableAccess fn handle => Sys2Proof.Machine.execCdatTableAccess fn handle s
  | .deckRequest fn handle => Sys2Proof.Machine.execDeckRequest fn handle s
  | .readCompletion h tag idOk count lower st data => Sys2Proof.Machine.execReadCompletion h tag idOk count lower st data s
  | .completionTimeout h tag => Sys2Proof.Machine.execCompletionTimeout h tag s
  | .tagQuarantineEnd h tag => Sys2Proof.Machine.execTagQuarantineEnd h tag s
  | .hdmCommit n i_ ig iw lock => Sys2Proof.Machine.execHdmCommit n i_ ig iw lock s
  | .hdmCommitTakesEffect n i_ => Sys2Proof.Machine.execHdmCommitTakesEffect n i_ s
  | .hdmUncommit n i_ => Sys2Proof.Machine.execHdmUncommit n i_ s
  | .hdmUncommitTakesEffect n i_ => Sys2Proof.Machine.execHdmUncommitTakesEffect n i_ s
  | .addCapacity n first fields label => Sys2Proof.Machine.execAddCapacity n first fields label s
  | .releaseDynamicCapacity n first fields => Sys2Proof.Machine.execReleaseDynamicCapacity n first fields s
  | .forcedRemoval n first fields => Sys2Proof.Machine.execForcedRemoval n first fields s
  | .dcRegionConfigure n i_ base len k => Sys2Proof.Machine.execDcRegionConfigure n i_ base len k s
  | .extentRemovalComplete n => Sys2Proof.Machine.execExtentRemovalComplete n s
  | .ldwinEnable n => Sys2Proof.Machine.execLdwinEnable n s
  | .windowBuildComplete n => Sys2Proof.Machine.execWindowBuildComplete n s
  | .ldwinDisable n => Sys2Proof.Machine.execLdwinDisable n s
  | .windowTeardownComplete n => Sys2Proof.Machine.execWindowTeardownComplete n s
  | .setCommit n => Sys2Proof.Machine.execSetCommit n s
  | .setCommitted n => Sys2Proof.Machine.execSetCommitted n s
  | .counterRegionReady n => Sys2Proof.Machine.execCounterRegionReady n s
  | .setUncommit n => Sys2Proof.Machine.execSetUncommit n s
  | .valueCrossingOffer x v => Sys2Proof.Machine.execValueCrossingOffer x v s
  | .valueCrossingAck x => Sys2Proof.Machine.execValueCrossingAck x s
  | .eventCrossingOffer x k => Sys2Proof.Machine.execEventCrossingOffer x k s
  | .eventCrossingAck x => Sys2Proof.Machine.execEventCrossingAck x s
  | .queueEntryOffer x v => Sys2Proof.Machine.execQueueEntryOffer x v s
  | .queueSlotCredit x => Sys2Proof.Machine.execQueueSlotCredit x s
  | .crossingDelivery x => Sys2Proof.Machine.execCrossingDelivery x s
  | .islandReset k => Sys2Proof.Machine.execIslandReset k s
  | .lagBeyondPeriod u => Sys2Proof.Machine.execLagBeyondPeriod u s
  | .maxlagClr u => Sys2Proof.Machine.execMaxlagClr u s
  | .avsDecision => Sys2Proof.Machine.execAvsDecision s
  | .avsSettleEnd => Sys2Proof.Machine.execAvsSettleEnd s
  | .speedWindowEnd q speed => Sys2Proof.Machine.execSpeedWindowEnd q speed s
  | .avsbusFailure q => Sys2Proof.Machine.execAvsbusFailure q s
  | .avsSetpointWrite q code => Sys2Proof.Machine.execAvsSetpointWrite q code s
  | .busErrClear q => Sys2Proof.Machine.execBusErrClear q s
  | .promotionStart page bad => Sys2Proof.Machine.execPromotionStart page bad s
  | .promotionCommit page => Sys2Proof.Machine.execPromotionCommit page s
  | .sheafRelease page => Sys2Proof.Machine.execSheafRelease page s
  | .promotionHoldExpiry page => Sys2Proof.Machine.execPromotionHoldExpiry page s
  | .tedderEpoch t lost par => Sys2Proof.Machine.execTedderEpoch t lost par s
  | .demotionStart page bad => Sys2Proof.Machine.execDemotionStart page bad s
  | .relocation w bad => Sys2Proof.Machine.execRelocation w bad s
  | .fallowMove page bad => Sys2Proof.Machine.execFallowMove page bad s
  | .tedderMoveCommit page => Sys2Proof.Machine.execTedderMoveCommit page s
  | .poolEnable k => Sys2Proof.Machine.execPoolEnable k s
  | .poolDrain k => Sys2Proof.Machine.execPoolDrain k s
  | .poolDrained k => Sys2Proof.Machine.execPoolDrained k s
  | .poolDisable k => Sys2Proof.Machine.execPoolDisable k s
  | .watermarkWrite v => Sys2Proof.Machine.execWatermarkWrite v s
  | .releaseRequestInterval => Sys2Proof.Machine.execReleaseRequestInterval s
  | .balerJobWaitDispatch => Sys2Proof.Machine.execBalerJobWaitDispatch s
  | .balerJobStart b => Sys2Proof.Machine.execBalerJobStart b s
  | .balerJobComplete b => Sys2Proof.Machine.execBalerJobComplete b s
  | .balerFault b n => Sys2Proof.Machine.execBalerFault b n s
  | .balerReset b => Sys2Proof.Machine.execBalerReset b s
  | .balEnWrite v => Sys2Proof.Machine.execBalEnWrite v s
  | .counterLineMerge => Sys2Proof.Machine.execCounterLineMerge s
  | .reencryptionEntryFree q => Sys2Proof.Machine.execReencryptionEntryFree q s
  | .reencryptionComplete frame => Sys2Proof.Machine.execReencryptionComplete frame s
  | .eraseSweepComplete n => Sys2Proof.Machine.execEraseSweepComplete n s
  | .channelReadReturn c => Sys2Proof.Machine.execChannelReadReturn c s
  | .writeAcceptance c => Sys2Proof.Machine.execWriteAcceptance c s
  | .channelCommandEntry c => Sys2Proof.Machine.execChannelCommandEntry c s
  | .commandIssue c i_ held => Sys2Proof.Machine.execCommandIssue c i_ held s
  | .pageIdleTimeout c i_ bank => Sys2Proof.Machine.execPageIdleTimeout c i_ bank s
  | .refreshDue c r => Sys2Proof.Machine.execRefreshDue c r s
  | .nrfReseed c arrived => Sys2Proof.Machine.execNrfReseed c arrived s
  | .dimmThermalRead c t0 t1 => Sys2Proof.Machine.execDimmThermalRead c t0 t1 s
  | .sidebandError bus hub => Sys2Proof.Machine.execSidebandError bus hub s
  | .pmicFault c slots => Sys2Proof.Machine.execPmicFault c slots s
  | .channelTrainingComplete c eyeRd eyeWr geometry turn turnAlt => Sys2Proof.Machine.execChannelTrainingComplete c eyeRd eyeWr geometry turn turnAlt s
  | .trainingRecordWrite c ok => Sys2Proof.Machine.execTrainingRecordWrite c ok s
  | .zqCalibration c slot => Sys2Proof.Machine.execZqCalibration c slot s
  | .dqsOscillatorRead c r => Sys2Proof.Machine.execDqsOscillatorRead c r s
  | .codewordRead c i_ err => Sys2Proof.Machine.execCodewordRead c i_ err s
  | .eccWindowEnd c => Sys2Proof.Machine.execEccWindowEnd c s
  | .scrubRead c => Sys2Proof.Machine.execScrubRead c s
  | .spareStart c => Sys2Proof.Machine.execSpareStart c s
  | .spareCopyRead c => Sys2Proof.Machine.execSpareCopyRead c s
  | .spareCopyComplete c => Sys2Proof.Machine.execSpareCopyComplete c s
  | .rankRetire c => Sys2Proof.Machine.execRankRetire c s
  | .frequencyChange c => Sys2Proof.Machine.execFrequencyChange c s
  | .frequencyChangeCheck c failed => Sys2Proof.Machine.execFrequencyChangeCheck c failed s
  | .powerDownEntry c r => Sys2Proof.Machine.execPowerDownEntry c r s
  | .doorbell s_ r v => Sys2Proof.Machine.execDoorbell s_ r v s
  | .descriptorFetch s_ r => Sys2Proof.Machine.execDescriptorFetch s_ r s
  | .crEnable s_ r => Sys2Proof.Machine.execCrEnable s_ r s
  | .crDisable s_ r => Sys2Proof.Machine.execCrDisable s_ r s
  | .cqEnable s_ q => Sys2Proof.Machine.execCqEnable s_ q s
  | .cqDisable s_ q => Sys2Proof.Machine.execCqDisable s_ q s
  | .cqHeadWrite s_ q v => Sys2Proof.Machine.execCqHeadWrite s_ q v s
  | .nop => Sys2Proof.Machine.execNop s
  | .setHint => Sys2Proof.Machine.execSetHint s
  | .tierPolicy => Sys2Proof.Machine.execTierPolicy s
  | .compPolicy => Sys2Proof.Machine.execCompPolicy s
  | .promote => Sys2Proof.Machine.execPromote s
  | .demote => Sys2Proof.Machine.execDemote s
  | .fill => Sys2Proof.Machine.execFill s
  | .zero => Sys2Proof.Machine.execZero s
  | .copy => Sys2Proof.Machine.execCopy s
  | .sanitize => Sys2Proof.Machine.execSanitize s
  | .capQuery => Sys2Proof.Machine.execCapQuery s
  | .releaseAck => Sys2Proof.Machine.execReleaseAck s
  | .snapshot => Sys2Proof.Machine.execSnapshot s
  | .sampleCfg => Sys2Proof.Machine.execSampleCfg s
  | .commandComplete => Sys2Proof.Machine.execCommandComplete s
  | .interruptCoalescingTimeout s_ q => Sys2Proof.Machine.execInterruptCoalescingTimeout s_ q s
  | .leyEnable p => Sys2Proof.Machine.execLeyEnable p s
  | .leyDisable p => Sys2Proof.Machine.execLeyDisable p s
  | .leyPartnerDetect p => Sys2Proof.Machine.execLeyPartnerDetect p s
  | .leyTrainComplete p rate lanes => Sys2Proof.Machine.execLeyTrainComplete p rate lanes s
  | .leyFlitReceive p flit => Sys2Proof.Machine.execLeyFlitReceive p flit s
  | .leyFlitTransmit p => Sys2Proof.Machine.execLeyFlitTransmit p s
  | .replayTimeout p => Sys2Proof.Machine.execReplayTimeout p s
  | .settledWindow p v => Sys2Proof.Machine.execSettledWindow p v s
  | .rtReq p => Sys2Proof.Machine.execRtReq p s
  | .rsReq p => Sys2Proof.Machine.execRsReq p s
  | .laneLockLoss p => Sys2Proof.Machine.execLaneLockLoss p s
  | .rtrq p pass lower => Sys2Proof.Machine.execRtrq p pass lower s
  | .rtack p pass lower => Sys2Proof.Machine.execRtack p pass lower s
  | .rsrq p => Sys2Proof.Machine.execRsrq p s
  | .rsack p => Sys2Proof.Machine.execRsack p s
  | .resizeComplete p => Sys2Proof.Machine.execResizeComplete p s
  | .resizeTimeout p => Sys2Proof.Machine.execResizeTimeout p s
  | .ident p => Sys2Proof.Machine.execIdent p s
  | .resync p => Sys2Proof.Machine.execResync p s
  | .down p => Sys2Proof.Machine.execDown p s
  | .retrainStepTimeout p => Sys2Proof.Machine.execRetrainStepTimeout p s
  | .leyDownExpiry p => Sys2Proof.Machine.execLeyDownExpiry p s
  | .leyCredClr p v => Sys2Proof.Machine.execLeyCredClr p v s
  | .fold p => Sys2Proof.Machine.execFold p s
  | .rd p => Sys2Proof.Machine.execRd p s
  | .wr p => Sys2Proof.Machine.execWr p s
  | .rdata p => Sys2Proof.Machine.execRdata p s
  | .wacc p => Sys2Proof.Machine.execWacc p s
  | .join p => Sys2Proof.Machine.execJoin p s
  | .memberJoinReady => Sys2Proof.Machine.execMemberJoinReady s
  | .joinrsp p => Sys2Proof.Machine.execJoinrsp p s
  | .regrd p => Sys2Proof.Machine.execRegrd p s
  | .regwr p => Sys2Proof.Machine.execRegwr p s
  | .regrsp p => Sys2Proof.Machine.execRegrsp p s
  | .record p => Sys2Proof.Machine.execRecord p s
  | .foldnote p => Sys2Proof.Machine.execFoldnote p s
  | .reopen p => Sys2Proof.Machine.execReopen p s
  | .casReopen => Sys2Proof.Machine.execCasReopen s
  | .forget => Sys2Proof.Machine.execForget s
  | .memberRegAccess => Sys2Proof.Machine.execMemberRegAccess s
  | .foldmapEnable => Sys2Proof.Machine.execFoldmapEnable s
  | .memberRecoveryComplete m => Sys2Proof.Machine.execMemberRecoveryComplete m s
  | .memberLinkDown p => Sys2Proof.Machine.execMemberLinkDown p s
  | .downstreamLinkDown p => Sys2Proof.Machine.execDownstreamLinkDown p s
  | .stilePor s1 s2 s3 => Sys2Proof.Machine.execStilePor s1 s2 s3 s
  | .stileEvaluationStep x => Sys2Proof.Machine.execStileEvaluationStep x s
  | .qualificationComplete i_ => Sys2Proof.Machine.execQualificationComplete i_ s
  | .rampTimeout i_ vin => Sys2Proof.Machine.execRampTimeout i_ vin s
  | .currentLimit i_ => Sys2Proof.Machine.execCurrentLimit i_ s
  | .faultTimerExpiry i_ vin => Sys2Proof.Machine.execFaultTimerExpiry i_ vin s
  | .faultTimerClear i_ => Sys2Proof.Machine.execFaultTimerClear i_ s
  | .fastTrip i_ vin => Sys2Proof.Machine.execFastTrip i_ vin s
  | .coolExpiry i_ => Sys2Proof.Machine.execCoolExpiry i_ s
  | .retryCountReset i_ => Sys2Proof.Machine.execRetryCountReset i_ s
  | .passFetDamaged i_ vin => Sys2Proof.Machine.execPassFetDamaged i_ vin s
  | .oringFetDamaged i_ vin => Sys2Proof.Machine.execOringFetDamaged i_ vin s
  | .reverseTurnOff i_ => Sys2Proof.Machine.execReverseTurnOff i_ s
  | .pgHoldExpiry => Sys2Proof.Machine.execPgHoldExpiry s
  | .orderlyGateOff => Sys2Proof.Machine.execOrderlyGateOff s
  | .latchInputLowExpiry i_ => Sys2Proof.Machine.execLatchInputLowExpiry i_ s
  | .stlOffNAssert => Sys2Proof.Machine.execStlOffNAssert s
  | .stlOffNRelease => Sys2Proof.Machine.execStlOffNRelease s
  | .feedEnable i_ => Sys2Proof.Machine.execFeedEnable i_ s
  | .feedDisable i_ => Sys2Proof.Machine.execFeedDisable i_ s
  | .restart i_ => Sys2Proof.Machine.execRestart i_ s
  | .clrFet i_ => Sys2Proof.Machine.execClrFet i_ s
  | .stlVthrWrite v => Sys2Proof.Machine.execStlVthrWrite v s
  | .pop => Sys2Proof.Machine.execPop s
  | .stileLogDrain => Sys2Proof.Machine.execStileLogDrain s
  | .stileLinkLost => Sys2Proof.Machine.execStileLinkLost s
  | .stileMeasurement x => Sys2Proof.Machine.execStileMeasurement x s
  | .stileThermalShutdown vinA vinB => Sys2Proof.Machine.execStileThermalShutdown vinA vinB s
  | .pwrOkRise => Sys2Proof.Machine.execPwrOkRise s
  | .pwrOkFall at_ => Sys2Proof.Machine.execPwrOkFall at_ s
  | .powerOnResetRelease s1 s2 s3 spd nack crcBad => Sys2Proof.Machine.execPowerOnResetRelease s1 s2 s3 spd nack crcBad s
  | .dramReady => Sys2Proof.Machine.execDramReady s
  | .watchdogExpiry => Sys2Proof.Machine.execWatchdogExpiry s
  | .transferFw part slot off len good => Sys2Proof.Machine.execTransferFw part slot off len good s
  | .activateFw slot online => Sys2Proof.Machine.execActivateFw slot online s
  | .pliuthTransfer off data => Sys2Proof.Machine.execPliuthTransfer off data s
  | .pliuthCommit => Sys2Proof.Machine.execPliuthCommit s
  | .getConfigurationState => Sys2Proof.Machine.execGetConfigurationState s
  | .pliuthAbort => Sys2Proof.Machine.execPliuthAbort s
  | .holdCommitReset => Sys2Proof.Machine.execHoldCommitReset s
  | .gblReset => Sys2Proof.Machine.execGblReset s
  | .tallySweep par ue ce => Sys2Proof.Machine.execTallySweep par ue ce s
  | .snapshotPass par ue ce => Sys2Proof.Machine.execSnapshotPass par ue ce s
  | .sampleRecordComplete => Sys2Proof.Machine.execSampleRecordComplete s
  | .sampleRecordWrite n => Sys2Proof.Machine.execSampleRecordWrite n s
  | .registerWrite view h off size v => Sys2Proof.Machine.execRegisterWrite view h off size v s
  | .invalidRegisterAccess view h off size write => Sys2Proof.Machine.execInvalidRegisterAccess view h off size write s
  | .gblLockSet => Sys2Proof.Machine.execGblLockSet s
  | .interruptAck => Sys2Proof.Machine.execInterruptAck s
  | .thermtrip at_ => Sys2Proof.Machine.execThermtrip at_ s
  | .boundaryScanInstruction trstLow t => Sys2Proof.Machine.execBoundaryScanInstruction trstLow t s
  | .controllerRestartComplete => Sys2Proof.Machine.execControllerRestartComplete s
  | .commitBurnComplete stuck => Sys2Proof.Machine.execCommitBurnComplete stuck s
  | .stileStandbyLoss ms => Sys2Proof.Machine.execStileStandbyLoss ms s
  | .responseCreditReturn h n => Sys2Proof.Machine.execResponseCreditReturn h n s
  | .clearEventRecords owner log n => Sys2Proof.Machine.execClearEventRecords owner log n s

end Sys2Proof.Machine
end

