-- ==== Sys2Proof/Safety.lean ====
section
/-! DEFINITION. What a safe state and a safe step are, in the terms that the claims use. -/

namespace Sys2Proof.Machine

/-- At most one feed ramps (R394). -/
def Stile.oneRamp (s : Stile) : Prop := ¬ (s.feedA.state = .ramp ∧ s.feedB.state = .ramp)

/-- Every OTP bit of `a` is a bit of `b`: a burn only sets bits (R422). -/
def Nv.within (a b : Nv) : Prop := ∀ slot i k : Nat, (a.byte slot i).testBit k = true → (b.byte slot i).testBit k = true

/-- What every step keeps, from any state that has it: the DRAM list in its canonical form, and one start slot. -/
def State.Inv (s : State) : Prop := s.dram.wf = true ∧ s.stile.oneRamp

/-- A step that goes on, to `t`. -/
def Goes (s t : State) : Prop := step s = .next t

/-- Every register but those of the list reads as before. -/
def Dev.keepsRegs (d e : Dev) (but : List Reg) : Prop :=
  ∀ q : Reg, (∀ r ∈ but, r.offset ≠ q.offset) → e.rd q = d.rd q

/-- The die runs, the register is one that the catalogue has, and an access reaches it: neither R462 nor R465 refuses it. -/
def State.reaches (s : State) (r : Reg) : Prop :=
  s.up = true ∧ regAt r.offset = some r ∧ s.dev.accessCause .mgmt r.offset (r.width / 8) = none

/-- Head `h` takes the requests of LD-ID `ldid` for LD `ld`, which is in no host error and not in D3hot, and a decoder of that LD binds
`hpa` to the LD-relative DPA `rel` inside its enabled window (R7, R61, R84, R87, R138). -/
def Dev.serves (d : Dev) (h ldid ld hpa rel : Nat) : Prop :=
  d.headUp h = true ∧ d.proto h ≠ 0 ∧ d.memOpen h = true ∧ (d.head h).ideFailed = false ∧ d.ldOf h ldid = some ld ∧
  d.memActive ld = true ∧ d.isWild ld = false ∧ d.inD3 ld = false ∧ d.unresp ld = false ∧
  (d.hdmMatch ld hpa).map (fun x => x.toDpa hpa) = some rel ∧ d.winEn ld = true ∧ rel < d.winFields ld * 2 ^ 21

/-- Host request `c` enters its home as a request `op` of LD `ld` for `line`, and has no other effect of its own (R125) but that a request
which finds the receive crossing of its head full shows in that island's overrun flags (R46). -/
def State.enters (s : State) (c : Instr) (h ld hpa tag line : Nat) (op : HomeOp) (data : Line) (mask : BitVec 64)
    (poison : Bool) : Prop :=
  ∃ (d : Dev) (t : Txn), exec c s = .next (s.finish d) ∧
    d.home = { s.dev.home with txns := s.dev.home.txns ++ [t], nextId := s.dev.home.nextId + 1 } ∧
    t.op = op ∧ t.src = .host h ld tag ∧ t.line = line ∧ t.hpa = hpa ∧ t.data = data ∧ t.mask = mask ∧ t.poison = poison ∧
    t.phase = .entering ∧ (0 < s.dev.reqCredits h → d.regs = s.dev.regs) ∧ s.dev.keepsRegs d [.crossHead h] ∧ d.out = s.dev.out ∧
    d.chan = s.dev.chan ∧ d.cip = s.dev.cip ∧ d.bulk = s.dev.bulk

/-- Commands that can act on the Stile die (R389, R410): its own events, writes that the proxy carries, also those that a member's dealer
makes and that its Ley port still delivers, and what brings the main die up or resets it, which writes Stile's fields (R411). -/
def touchesStile : Instr → Bool
  | .stilePor .. | .stileEvaluationStep .. | .qualificationComplete .. | .rampTimeout .. | .currentLimit .. | .faultTimerExpiry ..
  | .faultTimerClear .. | .fastTrip .. | .coolExpiry .. | .retryCountReset .. | .passFetDamaged .. | .oringFetDamaged ..
  | .reverseTurnOff .. | .pgHoldExpiry | .orderlyGateOff | .latchInputLowExpiry .. | .stlOffNAssert | .stlOffNRelease
  | .feedEnable .. | .feedDisable .. | .restart .. | .clrFet .. | .stlVthrWrite .. | .pop | .stileLogDrain
  | .stileMeasurement .. | .stileThermalShutdown .. | .stileStandbyLoss .. => true
  | .registerWrite .. | .regwr .. | .crossingDelivery .. | .memberLinkDown .. => true
  | .powerOnResetRelease .. | .watchdogExpiry | .holdCommitReset | .gblReset | .commitBurnComplete .. => true
  | _ => false

/-- Between `s` and `t` the main die keeps everything but event logs, a member's record queue and the global interrupt; the flash
and the queue stay. -/
def State.onlyStile (s t : State) : Prop :=
  t.pending = s.pending ∧ t.nv = s.nv ∧ t.dev.home = s.dev.home ∧ t.dev.hp = s.dev.hp ∧ t.dev.chan = s.dev.chan ∧
  t.dev.cip = s.dev.cip ∧ s.dev.keepsRegs t.dev [.gblIntCtrl]

/-- A write through the Stile proxy reaches the Stile die (R410, R465). -/
def State.reachesStile (s : State) (r : Reg) : Prop := s.reaches r ∧ s.dev.mgt.stlLost = false ∧ s.stile.running = true

/-- The map line of a page's entry lies outside the field table, and neither it nor that of its field's descriptor lies in `frame`. -/
def Dev.tableApart (d : Dev) (page frame : Nat) : Prop :=
  let sa := d.pmeSa (fieldOfPage page) (page % 512)
  d.inFtab sa = false ∧ sa / 4096 ≠ frame ∧ d.descSa (fieldOfPage page) / 4096 ≠ frame

/-- The page lies in a tiered field that is neither unpopulated nor lost. -/
def Dev.livePage (d : Dev) (page : Nat) : Prop :=
  let ds := d.desc (fieldOfPage page)
  ds.v = true ∧ ds.tiered = true ∧ ds.fpois = false

/-! ### What each command comes to while the main die runs -/

/-- The state after a command whose operands are in range, in a state in which the main die runs: the operation that carries the
command's rule on the main die, ended by `State.settle`, or by `State.finish` where work inside the device follows. -/
def effectOf (c : Instr) (s : State) : State :=
  match c with
  | .memRd h ldid hpa tag m uio e => s.finish (s.dev.memRead h ldid hpa tag (if uio then (.ncRead, 2) else m.rd) false e)
  | .memRdData h ldid hpa tag e => s.finish (s.dev.memRead h ldid hpa tag (.rdS, 0) false e)
  | .memInv h ldid hpa tag m e => s.finish (s.dev.memRead h ldid hpa tag m.inv true e)
  | .memInvNt h ldid hpa tag m e => s.finish (s.dev.memRead h ldid hpa tag m.inv true e)
  | .memSpecRd h ldid hpa => s.settle (s.dev.specRead h ldid hpa)
  | .memClnEvct h ldid hpa tag e => s.finish (s.dev.memClnEvct h ldid hpa tag e)
  | .memWr h ldid hpa tag m data poison uio e =>
    s.finish (s.dev.memWrite h ldid hpa tag m data (BitVec.allOnes 64) poison uio 7 e)
  | .memWrPtl h ldid hpa tag m data mask poison uio e => s.finish (s.dev.memWrite h ldid hpa tag m data mask poison uio 8 e)
  | .birsp ld line a => s.finish (s.dev.birsp ld line a)
  | .biconflict ld line => s.finish (s.dev.biconflict ld line)
  | .directoryEvictionComplete line => s.finish (s.dev.evictionComplete line)
  | .lineLockRelease line => s.finish (s.dev.lineRelease line)
  | .bisnpTimeout ld line => s.finish (s.dev.bisnpTimeout ld line)
  | .unresponsiveSweepComplete ld => s.finish (s.dev.sweepDone ld)
  | .homeGrantWrite n v => s.finish (s.dev.viaReg (.homeGrant n) (·.grantWrite n v))
  | .grantRevocationComplete n => s.finish (s.dev.grantDone n)
  | .defhintWrite v => s.finish (s.dev.viaReg .homeCtrl (·.defhintWrite v))
  | .tedderSample t par => s.settle (s.dev.tedSample t par)
  | .headLinkUp h nego proto rate width flit256 credits =>
    s.settle (s.dev.headLinkUp h nego proto rate width flit256 credits)
  | .perstNAssert h => s.settle (s.dev.perstAssert h)
  | .perstNRelease h => s.settle (s.dev.perstRelease h)
  | .hotReset h => s.settle (s.dev.hotReset h)
  | .linkDown h => s.settle (s.dev.hostLinkDown h)
  | .flr n => s.settle (s.dev.flr n)
  | .cxlReset n => s.settle (s.dev.cxlReset n)
  | .headResetDelivery h => s.finish (s.dev.headDelivery h)
  | .flrComplete n => s.settle (s.dev.flrComplete n)
  | .ideCheckFailure h st => s.finish (s.dev.ideFail h st)
  | .ideKm h st key containment => s.settle (s.dev.ideKm h st key containment)
  | .ldbindEnable n => s.settle (s.dev.viaReg (.gblLdbind n) (·.bindEnable n))
  | .ldbindDisable n => s.settle (s.dev.viaReg (.gblLdbind n) (·.bindDisable n))
  | .mediaReady n => s.settle (s.dev.mediaReady n)
  | .doeDiscovery fn index => s.settle (s.dev.doeDiscovery fn index)
  | .spdm fn block => s.settle (s.dev.spdm s.nv fn block)
  | .cdatTableAccess fn handle => s.settle (s.dev.cdatAccess fn handle)
  | .deckRequest fn handle => s.settle (s.dev.deckRequest fn handle)
  | .readCompletion h tag idOk count lower st data => s.finish (s.dev.readCompletion h tag idOk count lower st data)
  | .completionTimeout h tag => s.finish (s.dev.completionTimeout h tag)
  | .tagQuarantineEnd h tag => s.finish (s.dev.quarantineEnd h tag)
  | .hdmCommit n i ig iw lock => s.settle (s.dev.hdmCommit n i ig iw lock)
  | .hdmCommitTakesEffect n i => s.settle (s.dev.hdmTakes n i)
  | .hdmUncommit n i => s.settle (s.dev.hdmUncommit n i)
  | .hdmUncommitTakesEffect n i => s.settle (s.dev.hdmUntakes n i)
  | .addCapacity n first fields label => s.finish (s.dev.viaMgmt .addCapacity (·.addCapacity s.dram n first fields label))
  | .releaseDynamicCapacity n first fields => s.finish (s.dev.releaseCapacity n first fields)
  | .forcedRemoval n first fields => s.finish (s.dev.viaMgmt .forcedRemoval (·.forcedRemoval n first fields))
  | .dcRegionConfigure n i base len k => s.settle (s.dev.viaMgmt .configureRegion (·.regionSet n i base len k))
  | .extentRemovalComplete n => s.finish (s.dev.removalDone s.dram n)
  | .ldwinEnable n => s.finish (s.dev.viaReg (.gblLdwin n) (·.winEnable n))
  | .windowBuildComplete n => s.finish (s.dev.windowBuilt s.dram n)
  | .ldwinDisable n => s.finish (s.dev.viaReg (.gblLdwin n) (·.winDisable n))
  | .windowTeardownComplete n => s.finish (s.dev.windowTorn s.dram n)
  | .setCommit n => s.settle (s.dev.viaReg (.casSetCtrl n) (·.setCommit n))
  | .setCommitted n => s.finish (s.dev.setTakes n)
  | .counterRegionReady n => s.finish (s.dev.counterReady s.dram n)
  | .setUncommit n => s.settle (s.dev.viaReg (.casSetCtrl n) (·.setUncommit n))
  | .valueCrossingOffer x v => s.settle (s.dev.offerValue x v)
  | .valueCrossingAck x => s.settle (s.dev.ackValue x)
  | .eventCrossingOffer x k => s.settle (s.dev.offerEvent x k)
  | .eventCrossingAck x => s.settle (s.dev.ackEvent x)
  | .queueEntryOffer x v => s.settle (s.dev.offerEntry x v)
  | .queueSlotCredit x => s.settle (s.dev.slotCredit x)
  | .crossingDelivery x => (s.bothWork fun d => crossingDelivery s.nv x (d, s.stile)).keepFailed
  | .islandReset k => s.settle (s.dev.islandRow k)
  | .lagBeyondPeriod u => s.settle (s.dev.lagBeyond u)
  | .maxlagClr u => s.settle (s.dev.viaReg u.maxReg (·.maxlagClr u))
  | .avsDecision => s.settle (s.dev.avsDecision)
  | .avsSettleEnd => s.settle (s.dev.avsSettled)
  | .speedWindowEnd q speed => s.settle (s.dev.speedWindow q speed)
  | .avsbusFailure q => s.settle (s.dev.avsFail q)
  | .avsSetpointWrite q code => s.settle (s.dev.viaReg (.gblAvsQ q) (·.avsWrite q code))
  | .busErrClear q => s.settle (s.dev.viaReg (.gblAvsQ q) (·.busErrClear q))
  | .promotionStart page bad => s.finish (s.dev.promoStart s.dram page bad)
  | .promotionCommit page => s.finish (s.dev.promoCommit page)
  | .sheafRelease page => s.finish (s.dev.sheafRelease page)
  | .promotionHoldExpiry page => s.finish (s.dev.holdExpiry page)
  | .tedderEpoch t lost par => s.finish (s.dev.tedEpoch t lost par)
  | .demotionStart page bad => s.finish (s.dev.demoteStart s.dram page bad)
  | .relocation w bad => s.finish (s.dev.relocate s.dram w bad)
  | .fallowMove page bad => s.finish (s.dev.fallowMove s.dram page bad)
  | .tedderMoveCommit page => s.finish (s.dev.moveCommit s.dram page)
  | .poolEnable k => s.settle (s.dev.viaReg (.tedPool k) (·.poolEnable k))
  | .poolDrain k => s.settle (s.dev.viaReg (.tedPool k) (·.poolDrain k))
  | .poolDrained k => s.settle (s.dev.drainCheck k)
  | .poolDisable k => s.settle (s.dev.viaReg (.tedPool k) (·.poolDisable k))
  | .watermarkWrite v => s.settle (s.dev.viaReg .tedWm (·.wmWrite v))
  | .releaseRequestInterval => s.settle (s.dev.releaseAgain)
  | .balerJobWaitDispatch => s.finish (s.dev.jobDispatch)
  | .balerJobStart b => s.finish (s.dev.jobStart b)
  | .balerJobComplete b => s.finish (s.dev.jobComplete b)
  | .balerFault b n => s.finish (s.dev.balerFault b n)
  | .balerReset b => s.finish (s.dev.viaReg .balFault (·.balerReset b))
  | .balEnWrite v => s.finish (s.dev.viaReg .balEn (·.balEnWrite v))
  | .counterLineMerge => s.finish (s.dev.counterMerge s.dram)
  | .reencryptionEntryFree q => s.finish (s.dev.reencResume q)
  | .reencryptionComplete frame => s.finish (s.dev.reencComplete s.dram frame)
  | .eraseSweepComplete n => s.finish (s.dev.eraseSweepDone s.dram n)
  | .channelReadReturn c => s.finish (s.dev.takeRet c true)
  | .writeAcceptance c => s.finish (s.dev.takeRet c false)
  | .channelCommandEntry c => s.settle (s.dev.commandEntry c)
  | .commandIssue c i held => s.settle (s.dev.commandIssue s.dram c i held)
  | .pageIdleTimeout c i bank => s.settle (s.dev.pageIdle c i bank)
  | .refreshDue c r => s.settle (s.dev.refreshDue c r)
  | .nrfReseed c arrived => s.settle (s.dev.nrfReseed c arrived)
  | .dimmThermalRead c t0 t1 => s.settle (if s.dev.mgt.restarting then s.dev else s.dev.thermalRead c t0 t1)
  | .sidebandError bus hub => s.settle (s.dev.sidebandError bus hub)
  | .pmicFault c slots => s.settle (s.dev.pmicFault c slots)
  | .channelTrainingComplete c eyeRd eyeWr geometry turn turnAlt =>
    s.settle (s.dev.trainingComplete c eyeRd eyeWr geometry turn turnAlt)
  | .trainingRecordWrite c ok => s.flash fun d => d.trainingRecordWrite s.nv c ok
  | .zqCalibration c slot => s.settle (s.dev.zqCalibration c slot)
  | .dqsOscillatorRead c r => s.settle (s.dev.dqsRead c r)
  | .codewordRead c i err => s.settle (s.dev.codewordRead c i err (s.dev.codewordIgnored s.dram c i))
  | .eccWindowEnd c => s.settle (s.dev.eccWindowEnd c)
  | .scrubRead c => s.settle (s.dev.scrubRead c)
  | .spareStart c => s.settle (s.dev.viaReg (.chnSpare c) (·.spareStart c))
  | .spareCopyRead c => s.settle (s.dev.spareCopyRead c)
  | .spareCopyComplete c => (s.event fun d => d.spareCopyComplete c).keepFailed
  | .rankRetire c => s.settle (s.dev.viaReg (.chnSpare c) (·.rankRetire c))
  | .frequencyChange c => s.settle (s.dev.viaReg (.chnFchg c) (·.fchgStart c))
  | .frequencyChangeCheck c failed => s.settle (s.dev.fchgCheck c failed)
  | .powerDownEntry c r => s.settle (s.dev.powerDown c r)
  | .doorbell s_ r v => s.finish (s.dev.viaReg (.rngCrTail s_ r) (·.doorbell s_ r v))
  | .descriptorFetch s_ r => s.finish (s.dev.descriptorFetch s_ r)
  | .crEnable s_ r => s.finish (s.dev.viaReg (.rngCrCtrl s_ r) (·.crEnable s_ r))
  | .crDisable s_ r => s.finish (s.dev.viaReg (.rngCrCtrl s_ r) (·.crDisable s_ r))
  | .cqEnable s_ q => s.finish (s.dev.viaReg (.rngCqCtrl s_ q) (·.cqEnable s_ q))
  | .cqDisable s_ q => s.finish (s.dev.viaReg (.rngCqCtrl s_ q) (·.cqDisable s_ q))
  | .cqHeadWrite s_ q v => s.finish (s.dev.viaReg (.rngCqHead s_ q) (·.cqHeadWrite s_ q v))
  | .nop => s.finish ((fun d => d.startCmd .nop fun c d => d.ringFinish c 0 0 0 0) s.dev)
  | .setHint => s.finish (s.dev.startCmd .setHint Dev.setHint)
  | .tierPolicy => s.finish (s.dev.startCmd .tierPolicy Dev.tierPolicy)
  | .compPolicy => s.finish (s.dev.startCmd .compPolicy Dev.compPolicy)
  | .promote => s.finish (s.dev.startCmd .promote Dev.ringPromote)
  | .demote => s.finish (s.dev.startCmd .demote Dev.ringDemote)
  | .fill => s.finish (s.dev.startCmd .fill Dev.ringRun)
  | .zero => s.finish (s.dev.startCmd .zero Dev.ringRun)
  | .copy => s.finish (s.dev.startCmd .copy Dev.ringRun)
  | .sanitize => s.finish (s.dev.startCmd .sanitize Dev.ringRun)
  | .capQuery => s.finish (s.dev.startCmd .capQuery Dev.capQuery)
  | .releaseAck => s.finish (s.dev.startCmd .releaseAck Dev.ringRun)
  | .snapshot => s.finish (s.dev.startCmd .snapshot Dev.ringRun)
  | .sampleCfg => s.finish (s.dev.startCmd .sampleCfg Dev.sampleCfg)
  | .commandComplete => s.finish (s.dev.commandComplete)
  | .interruptCoalescingTimeout s_ q => s.settle (s.dev.coalesceTimeout s_ q)
  | .leyEnable p =>
    s.settle ((fun d => d.viaReg (.leyCtrl p) fun d => (d.setFlag (.leyCtrl p) F.leyCtrl_EN true).leyEnable p) s.dev)
  | .leyDisable p =>
    s.settle ((fun d => d.viaReg (.leyCtrl p) fun d => (d.setFlag (.leyCtrl p) F.leyCtrl_EN false).leyDisable p) s.dev)
  | .leyPartnerDetect p => s.settle (s.dev.partnerDetect p)
  | .leyTrainComplete p rate lanes => s.settle (s.dev.trainComplete p rate lanes)
  | .leyFlitReceive p flit => s.settle (s.dev.flitReceive p flit)
  | .leyFlitTransmit p => s.settle (s.dev.flitTransmit p)
  | .replayTimeout p => s.settle (s.dev.replayTimeout p)
  | .settledWindow p v => s.settle (s.dev.settledWindow p v)
  | .rtReq p => s.settle (s.dev.viaReg (.leyCtrl p) (·.leyRetrain p 4))
  | .rsReq p =>
    s.settle ((fun d => d.viaReg (.leyCtrl p) fun d => d.leyResize p (d.fld (.leyCtrl p) F.leyCtrl_RS_WIDTH)) s.dev)
  | .laneLockLoss p => s.settle (s.dev.leyRetrain p 6)
  | .rtrq p pass lower => s.settle (s.dev.rtrq p pass lower)
  | .rtack p pass lower => s.settle (s.dev.rtack p pass lower)
  | .rsrq p => s.settle (s.dev.rsrq p)
  | .rsack p => s.settle (s.dev.rsack p)
  | .resizeComplete p => s.settle (s.dev.resizeComplete p)
  | .resizeTimeout p => s.settle (s.dev.resizeTimeout p)
  | .ident p => s.settle (s.dev.identMsg p)
  | .resync p => s.settle (s.dev.resyncMsg p)
  | .down p => s.settle (s.dev.downMsg p)
  | .retrainStepTimeout p => s.settle (s.dev.stepTimeout p)
  | .leyDownExpiry p => s.settle (s.dev.downExpiry p)
  | .leyCredClr p v => s.settle (s.dev.viaReg (.leyCred p v) (·.credClr p v))
  | .fold p => s.finish (s.dev.fold p)
  | .rd p => s.finish (s.dev.leyTake p 0 1)
  | .wr p => s.finish (s.dev.leyTake p 1 8)
  | .rdata p => s.finish (s.dev.rspTake p 0x10)
  | .wacc p => s.finish (s.dev.rspTake p 0x11)
  | .join p => s.finish (s.dev.mgtTurn p 0x20 (·.joinMsg p))
  | .memberJoinReady => s.settle (s.dev.joinReady)
  | .joinrsp p => s.finish (s.dev.mgtTurn p 0x21 (·.joinRsp p))
  | .regrd p => s.settle (s.dev.mgtTurn p 0x22 (Dev.regRd s.stile · p))
  | .regwr p => (s.bothWork fun d => d.regWrTurn s.nv s.stile p).keepFailed
  | .regrsp p => s.settle (s.dev.mgtTurn p 0x23 (·.regRsp p))
  | .record p => s.settle (s.dev.mgtTurn p 0x25 (·.recordMsg p))
  | .foldnote p => s.finish (s.dev.mgtTurn p 0x26 (·.foldNote p))
  | .reopen p => s.finish (s.dev.mgtTurn p 0x27 (·.reopenMsg p))
  | .casReopen => s.finish (s.dev.viaReg .casCtrl (·.casReopen))
  | .forget => s.settle (s.dev.viaReg .casCtrl (·.casForget))
  | .memberRegAccess => s.settle (s.dev.viaReg .casMacc (·.memberAccess))
  | .foldmapEnable => s.finish (s.dev.viaReg .casFoldmap (·.foldmapRow))
  | .memberRecoveryComplete m => s.finish (s.dev.recover m)
  | .memberLinkDown p => (s.bothWork fun d => memberLinkDown s.nv p (d, s.stile)).keepFailed
  | .downstreamLinkDown p => s.finish (s.dev.downstreamLinkDown p)
  | .stilePor s1 s2 s3 => if s.stile.armed && !s.stile.running then s.stiled (Stile.por s1 s2 s3, []) else s
  | .stileEvaluationStep x => s.stiled (s.stile.step x)
  | .qualificationComplete i => s.onStile (Stile.feedEvent i (·.state == .qual) (·.qualDone i))
  | .rampTimeout i vin => s.onStile (Stile.feedEvent i (·.state == .ramp) (·.fault i 4 vin))
  | .currentLimit i => s.onStile (Stile.feedEvent i (Feed.driven) (Stile.limit i))
  | .faultTimerExpiry i vin => s.onStile (Stile.feedEvent i (·.ftRun) (Stile.timerExpiry i vin))
  | .faultTimerClear i => s.onStile (Stile.feedEvent i (·.ftRun) (Stile.timerClear i))
  | .fastTrip i vin => s.onStile (Stile.feedEvent i (Feed.driven) (·.fault i 3 vin))
  | .coolExpiry i => s.onStile (Stile.feedEvent i (·.state == .cool) (·.coolDone i))
  | .retryCountReset i =>
    s.onStile (Stile.feedEvent i (·.state == .on) (fun s => s.setFeed i { s.feed i with retries := 0 }))
  | .passFetDamaged i vin =>
    s.onStile (Stile.feedEvent i (fun f => !f.gps && !f.gor && f.state != .fetBad) (·.fetBad i 5 vin))
  | .oringFetDamaged i vin => s.onStile (Stile.feedEvent i (fun f => !f.gor && f.state != .fetBad) (·.fetBad i 6 vin))
  | .reverseTurnOff i => s.onStile (Stile.feedEvent i (·.state == .on) (fun s => s.setFeed i { s.feed i with gor := false }))
  | .pgHoldExpiry => s.onStile (fun t => (if t.withdraw then t.withdrawPg else t, []))
  | .orderlyGateOff => s.onStile (fun t => ((if t.pg then t else t.orderlyGatesOff).passSlot, []))
  | .latchInputLowExpiry i => s.onStile (Stile.feedEvent i (·.state == .latched) (fun s => s.setFeed i (s.feed i).toOff))
  | .stlOffNAssert => s.onStile Stile.ejected
  | .stlOffNRelease => s.onStile (fun t => ({ t with eject := false, offTime := 0 }, []))
  | .feedEnable i => s.both fun d => d.viaStile s.stile (.stlFeedCtrl i) (Stile.setEn i true)
  | .feedDisable i => s.both fun d => d.viaStile s.stile (.stlFeedCtrl i) (Stile.setEn i false)
  | .restart i => s.both fun d => d.viaStile s.stile (.stlFeedCtrl i) (·.restart i)
  | .clrFet i => s.both fun d => d.viaStile s.stile (.stlFeedCtrl i) (·.clrFet i)
  | .stlVthrWrite v => s.both fun d => d.viaStile s.stile .stlVthr (·.writeVthr v)
  | .pop => s.both fun d => d.viaStile s.stile .stlLogstat (·.pop)
  | .stileLogDrain => s.both fun d => d.stileDrain s.stile
  | .stileLinkLost => s.settle (s.dev.stileLost)
  | .stileMeasurement x => s.onStile (fun t => (t.measure x, []))
  | .stileThermalShutdown vinA vinB => s.onStile (Stile.thermal vinA vinB)
  | .pwrOkRise => { s with dev := s.dev.pwrRise }
  | .pwrOkFall at_ => s.dropPower at_ false
  | .powerOnResetRelease s1 s2 s3 spd nack crcBad => 
    let p := s.dev.powerOnRelease s.nv s.stile s1 s2 s3 spd nack crcBad
    { s with stile := p.2 }.settle p.1
  | .dramReady => s.finish (s.dev.dramReady)
  | .watchdogExpiry => s.both fun d => d.watchdog s.nv s.stile
  | .transferFw part slot off len good =>
    s.flash fun d => d.firmware .transferFw s.nv fun nv d => d.transferFw nv part slot off len good
  | .activateFw slot online => s.flash fun d => d.firmware .activateFw s.nv fun nv d => d.activateFw nv slot online
  | .pliuthTransfer off data => s.settle (s.dev.pliuth .pliuthTransfer (Dev.pliuthTransfer off data))
  | .pliuthCommit => s.settle (s.dev.pliuth .pliuthCommit (·.pliuthCommit s.nv))
  | .getConfigurationState => s.settle (s.dev.pliuth .pliuthState Dev.configState)
  | .pliuthAbort => s.settle (s.dev.pliuth .pliuthAbort Dev.pliuthAbort)
  | .holdCommitReset => s.both fun d => d.holdReset s.nv s.stile
  | .gblReset => s.bothPowered fun d => d.askReset s.nv s.stile 0
  | .tallySweep par ue ce => s.settle (s.dev.tallySweep par ue ce)
  | .snapshotPass par ue ce => s.finish (s.dev.snapshotPass par ue ce)
  | .sampleRecordComplete => s.settle (s.dev.sampleComplete)
  | .sampleRecordWrite n => s.settle (s.dev.sampleWrite n)
  | .registerWrite view h off size v => s.registerWrite view h off size v
  | .invalidRegisterAccess view h off size write =>
    s.bothPowered fun d => (d.invalidAccess s.stile view h off size write view.fn, s.stile)
  | .gblLockSet => s.settle (s.dev.viaReg .gblLock (·.setFlag .gblLock F.gblLock_LOCK true))
  | .interruptAck => s.settle (s.dev.viaReg .gblIntCtrl (·.setFlag .gblIntCtrl F.gblIntCtrl_ARMED true))
  | .thermtrip at_ => if s.dev.mgt.power = .held then s else s.dropPower at_ true
  | .boundaryScanInstruction trstLow t => s.settle (s.dev.tapLoad trstLow t)
  | .controllerRestartComplete => s.settle (s.dev.restartDone)
  | .commitBurnComplete stuck => 
    let p := Dev.burnComplete stuck s.nv s.stile s.dev
    { s with stile := p.1.2, nv := p.2 }.settle p.1.1
  | .stileStandbyLoss ms => s.onStile (fun t => (t.supplyLoss ms, []))
  | .responseCreditReturn h n => s.finish (s.dev.creditReturn h n)
  | .clearEventRecords owner log n => s.settle (s.dev.clearRow owner log n)

end Sys2Proof.Machine
end

