-- ==== Sys2Proof/Certificates/Slice0/Obligations.lean ====
section
/-! DEFINITION. What the model claims: one proposition per statement, read from the numbered rules of spec/. A command's own
effect is stated on the die that `State.settle` (or `State.finish`, where work inside the device follows) then ends the command on. -/

open Sys2Proof Sys2Proof.Machine

/-- With a command at the front of the queue, step is exec of that command on the state whose queue is the rest. -/
def Obligations.FrontCommandRuns : Prop :=
  ∀ (c : Instr) (rest : List Instr) (s : State), s.pending = c :: rest → step s = exec c { s with pending := rest }

/-- The model's choice (log entry 70): with no command waiting, step goes on. A die without power stays as it is; a running one counts one step of the management clock, keeps its queue empty, Stile and the flash, lets a running sweep of the directory go on, and does what work it has. -/
def Obligations.EmptyQueueTicks : Prop :=
  ∀ s : State, s.pending = [] → ∃ t, step s = .next t ∧ t.pending = [] ∧ t.stile = s.stile ∧ t.nv = s.nv ∧
    (s.powered = false → t = s) ∧ (s.powered = true → t = s.finish { s.dev with clk := s.dev.clk + 1 }.sweepTick)

/-- In State.reset neither die runs, no command waits, every register that the catalogue names at an offset reads the reset value of its field table, the OTP is blank, Stile's power-on reset is armed, nothing has been sent, and every line of DRAM reads zeros (the last is the model's choice: log entry 5). -/
def Obligations.ResetState : Prop :=
  State.reset.pending = [] ∧ State.reset.up = false ∧ State.reset.powered = false ∧ State.reset.dev.out = [] ∧
    (∀ r : Reg, State.reset.dev.rd r = r.resetNat % 2 ^ 64) ∧ (∀ slot i, State.reset.nv.byte slot i = 0) ∧
    State.reset.stile.running = false ∧ State.reset.stile.armed = true ∧ (∀ key, State.reset.dram.read key = 0)

/-- In State.reset the DRAM list is in its canonical form and at most one feed ramps. -/
def Obligations.ResetHasInv : Prop := State.reset.Inv

/-- From every state whose DRAM list is in canonical form and in which at most one feed is in RAMP, every step that goes on, whatever the command, leads to such a state. -/
def Obligations.StepKeepsInv : Prop := ∀ s t : State, s.Inv → Goes s t → t.Inv

/-- Every bit of the configuration OTP that is 1 stays 1 over every step that goes on, a power loss in the middle of a burn included. -/
def Obligations.OtpOnlyGains : Prop := ∀ s t : State, Goes s t → s.nv.within t.nv

/-- A step whose command is neither an event of the Stile die, nor a write that can reach it through the proxy, nor one that brings the main die up or resets it, leaves every part of Stile as it was: its registers, its feeds and its fault log. -/
def Obligations.StileKeepsToItself : Prop :=
  ∀ (c : Instr) (s t : State), touchesStile c = false → exec c s = .next t → t.stile = s.stile

/-- Every command on every state, in whatever mode and with whatever operands, answers a next state: none is refused, and none ends in a fault. A host error too is a next state, in which the outcome stays with the LD that made it (R7). The commands that wait behind it stay as they are, and a command whose operands name nothing that the device has leaves the whole state as it is (the model's choice: log entry 62). -/
def Obligations.EveryCommandGoesOn : Prop :=
  ∀ (c : Instr) (s : State), ∃ t, exec c s = .next t ∧ t.pending = s.pending ∧ (c.wf = false → t = s)

/-- For every command whose operands are in range, and every state in which the main die runs, exec answers the next state that the command's own effect gives: `effectOf` names it command by command (Sys2Proof/Safety.lean), with the operation that carries the command's rule. -/
def Obligations.EveryCommandCompletes : Prop :=
  ∀ (c : Instr) (s : State), s.up = true → c.wf = true → exec c s = .next (effectOf c s)

/-- The end of a command: the global interrupt sends its message and clears ARMED where it is armed and the masked status is not zero, and only then; nothing else on the die changes, and the command's DRAM changes reach the DRAM. The work inside the device that some commands are followed by touches neither Stile nor the flash. -/
def Obligations.EndOfCommand : Prop :=
  ∀ (s : State) (d : Dev),
    (d.flag .gblIntCtrl F.gblIntCtrl_ARMED = true ∧ d.intStat s.stile &&& d.rd .gblIntEn ≠ 0 →
      (s.settle d).dev.flag .gblIntCtrl F.gblIntCtrl_ARMED = false ∧
      (s.settle d).dev.out = d.out ++ [.msix 16 (d.fld .gblIntCtrl F.gblIntCtrl_VECTOR)]) ∧
    (¬ (d.flag .gblIntCtrl F.gblIntCtrl_ARMED = true ∧ d.intStat s.stile &&& d.rd .gblIntEn ≠ 0) →
      (s.settle d).dev = { d with bulk := [] }) ∧
    (s.settle d).dram = s.dram.flush d.bulk ∧ d.keepsRegs (s.settle d).dev [.gblIntCtrl] ∧
    (s.settle d).dev.hp = d.hp ∧ (s.settle d).dev.home = d.home ∧ (s.settle d).dev.chan = d.chan ∧
    (s.finish d).stile = s.stile ∧ (s.finish d).nv = s.nv ∧ (s.finish d).pending = s.pending

/-- A codeword that is written reads back, every other line reads as before, and two writes to different lines come to the same DRAM in either order. -/
def Obligations.DramReadsBack : Prop :=
  ∀ (m : Dram) (key k : Nat) (c e : Codeword), (m.put key c).read key = c ∧ (k ≠ key → (m.put key c).read k = m.read k) ∧
    (m.wf = true → k ≠ key → (m.put key c).put k e = (m.put k e).put key c)

/-- On a value crossing: an offer with nothing in flight goes in flight; an offer while a transfer is in flight leaves the value in flight as it is and waits in the holding register, replacing what was held there, and then the crossing's overrun flag sets, and only then. A delivery gives the receiver the value in flight; the acknowledge that follows puts the held value in flight. Every other crossing and register stays as it was. -/
def Obligations.ValueCrossings : Prop :=
  ∀ (s : State) (x : XId) (v : Nat), s.up = true → v < 2 ^ 64 → x.kind = .value → x.exists = true →
    let old := s.dev.xval x
    (old.flight = none → ∃ d : Dev, exec (.valueCrossingOffer x v) s = .next (s.settle d) ∧
      d.xval x = { old with flight := some v, delivered := false } ∧ (∀ y : XId, y ≠ x → d.xval y = s.dev.xval y) ∧
      d.regs = s.dev.regs) ∧
    (∀ u, old.flight = some u → ∃ d : Dev, exec (.valueCrossingOffer x v) s = .next (s.settle d) ∧
      d.xval x = { old with hold := some v } ∧ (∀ y : XId, y ≠ x → d.xval y = s.dev.xval y) ∧
      (old.hold = none → d.regs = s.dev.regs) ∧
      (old.hold.isSome = true → bitOf (d.rd (islandReg x.island)) x.bit = true ∧ s.dev.keepsRegs d [islandReg x.island])) ∧
    (∀ u, old.flight = some u → old.delivered = false → ∃ d : Dev,
      exec (.crossingDelivery x) s = .next (s.finish d).keepFailed ∧
      d.xval x = { old with delivered := true, recv := some u } ∧ (∀ y : XId, y ≠ x → d.xval y = s.dev.xval y) ∧
      d.regs = s.dev.regs) ∧
    (old.delivered = true → ∃ d : Dev, exec (.valueCrossingAck x) s = .next (s.settle d) ∧
      d.xval x = { old with flight := old.hold, delivered := false, hold := none } ∧
      (∀ y : XId, y ≠ x → d.xval y = s.dev.xval y) ∧ d.regs = s.dev.regs)

/-- On an event crossing: an event with nothing in flight starts a transfer; one that arrives while a transfer is under way joins the pending set, or, where its kind is already there, is merged with it and sets the overrun flag, and only then. Each transfer waits for the entries that the receive queue before it had accepted (R48). The acknowledge sends the whole pending set as one transfer. A delivery on the management controller's crossing hands it the kinds of the set in the order of the crossing's list; on a head's, the core acts on the head's resets; on a channel's, the channel acts on the kinds; on a Ley port's, the core acts on them once the entries before them are delivered, and not before. -/
def Obligations.EventCrossings : Prop :=
  ∀ (s : State) (x : XId) (k : Nat), s.up = true → k < x.kinds → x.exists = true →
    let old := s.dev.xevt x
    (old.flight = 0 → ∃ d : Dev, exec (.eventCrossingOffer x k) s = .next (s.settle d) ∧
      d.xevt x = { old with flight := 2 ^ k, delivered := false, wait := s.dev.before x } ∧ d.regs = s.dev.regs) ∧
    (old.flight ≠ 0 → old.pending.testBit k = false → ∃ d : Dev, exec (.eventCrossingOffer x k) s = .next (s.settle d) ∧
      d.xevt x = { old with pending := old.pending + 2 ^ k, pendWait := s.dev.before x } ∧ d.regs = s.dev.regs) ∧
    (old.flight ≠ 0 → old.pending.testBit k = true → ∃ d : Dev, exec (.eventCrossingOffer x k) s = .next (s.settle d) ∧
      d.xevt x = { old with pendWait := s.dev.before x } ∧ bitOf (d.rd (islandReg x.island)) x.bit = true ∧
      s.dev.keepsRegs d [islandReg x.island]) ∧
    (old.delivered = true → ∃ d : Dev, exec (.eventCrossingAck x) s = .next (s.settle d) ∧
      d.xevt x = { old with flight := old.pending, delivered := false, pending := 0, wait := old.pendWait, pendWait := 0 } ∧
      d.regs = s.dev.regs) ∧
    (x = .mgtEvt → old.flight ≠ 0 → old.delivered = false → old.wait = 0 → ∃ d : Dev,
      exec (.crossingDelivery x) s = .next (s.finish d).keepFailed ∧
      d.xevt x = { old with delivered := true, recv := old.recv ++ (List.range x.kinds).filter old.flight.testBit } ∧
      d.regs = s.dev.regs) ∧
    (∀ h, x = .headEvt h → exec (.crossingDelivery x) s = .next (s.finish (s.dev.headDelivery h)).keepFailed) ∧
    (∀ c, x = .chnCtl c →
      let p := s.dev.eventTransfer x
      exec (.crossingDelivery x) s = .next (s.finish (p.1.foldl (Dev.chnKind c) p.2)).keepFailed) ∧
    (∀ p, x = .leyEvt p → 0 < old.wait → exec (.crossingDelivery x) s = .next (s.finish s.dev).keepFailed) ∧
    (∀ p, x = .leyEvt p → old.wait = 0 →
      let t := s.dev.eventTransfer x
      let e := t.1.foldl (leyKind s.nv p) (t.2, s.stile)
      exec (.crossingDelivery x) s = .next ({ s with stile := e.2 }.finish (e.1.stileNote s.stile e.2)).keepFailed)

/-- On a queue crossing the entries that are delivered, in flight and stalled stand in the order in which they were offered: an offer adds one at the end and overwrites none, a delivery moves the oldest one in flight to the receiver, and a returned credit frees the slot of the oldest delivered one. An offer goes in flight only with a slot credit and nobody stalled before it; otherwise it stalls and sets the overrun flag, which nothing else here sets, and no entry is lost. -/
def Obligations.QueueCrossings : Prop :=
  ∀ (s : State) (x : XId) (v : Nat), s.up = true → v < 2 ^ 64 → 0 < x.slots → x.exists = true →
    let old := s.dev.xque x
    let all (q : XQue) : List Nat := q.recv ++ q.entries ++ q.stalled
    (∃ d : Dev, exec (.queueEntryOffer x v) s = .next (s.settle d) ∧ all (d.xque x) = all old ++ [v] ∧
      (d.xque x).recv = old.recv ∧
      (old.used < x.slots ∧ old.stalled = [] → (d.xque x).entries = old.entries ++ [v] ∧ (d.xque x).used = old.used + 1 ∧
        d.regs = s.dev.regs) ∧
      (¬ (old.used < x.slots ∧ old.stalled = []) → (d.xque x).entries = old.entries ∧ (d.xque x).used = old.used ∧
        (d.xque x).stalled = old.stalled ++ [v] ∧ bitOf (d.rd (islandReg x.island)) x.bit = true ∧
        s.dev.keepsRegs d [islandReg x.island])) ∧
    (∀ u rest, old.entries = u :: rest → ∃ d : Dev, exec (.crossingDelivery x) s = .next (s.finish d).keepFailed ∧
      all (d.xque x) = all old ∧ (d.xque x).recv = old.recv ++ [u] ∧ d.regs = s.dev.regs) ∧
    (∀ u rest, old.recv = u :: rest → ∃ d : Dev, exec (.queueSlotCredit x) s = .next (s.settle d) ∧
      all old = u :: all (d.xque x) ∧ (d.xque x).used = (if old.stalled = [] then old.used - 1 else old.used) ∧
      (d.xque x).stalled = old.stalled.drop 1 ∧ d.regs = s.dev.regs)

/-- ISLAND_RESET of a head, a Ley port or the management controller returns every crossing of the island to idle, keeps the last value that a receiver in the core has, and changes no register; of a channel it also accounts for the entries that the channel held. LAG_BEYOND_PERIOD of a running period that is later than its length raises its record once; of another it does nothing. MAXLAG_CLR sets the unit's largest lag to zero and changes nothing else. -/
def Obligations.IslandsAndLags : Prop :=
  ∀ s : State, s.up = true →
    (∀ k, k < 37 → (k < 8 ∨ 32 ≤ k) → ∃ d : Dev, exec (.islandReset k) s = .next (s.settle d) ∧ d.regs = s.dev.regs ∧
      d.home = s.dev.home ∧
      ∀ x : XId, x.exists = true → (x.island = k → (d.xval x).flight = none ∧ (d.xval x).hold = none ∧ (d.xevt x) = {} ∧ (d.xque x) = {} ∧
          (d.xval x).recv = if x.intoIsland then none else (s.dev.xval x).recv) ∧
        (x.island ≠ k → d.xval x = s.dev.xval x ∧ d.xevt x = s.dev.xevt x ∧ d.xque x = s.dev.xque x)) ∧
    (∀ c, c < 24 → exec (.islandReset (8 + c)) s = .next (s.settle ((s.dev.islandReset (8 + c)).chanIslandReset c))) ∧
    (∀ u : LagUnit, u.ok = true →
      let x := s.dev.periodic u
      (x.running = true → x.grid + x.p < s.dev.nowNs → x.raised = false → ∃ d : Dev,
        exec (.lagBeyondPeriod u) s = .next (s.settle d) ∧ (d.periodic u).raised = true ∧ d.regs = s.dev.regs) ∧
      (¬ (x.running = true ∧ x.grid + x.p < s.dev.nowNs ∧ x.raised = false) →
        exec (.lagBeyondPeriod u) s = .next (s.settle s.dev)) ∧
      (s.reaches u.maxReg → ∃ d : Dev, exec (.maxlagClr u) s = .next (s.settle d) ∧ d.rd u.maxReg = 0 ∧
        s.dev.keepsRegs d [u.maxReg] ∧ d.out = s.dev.out ∧ d.periodic u = s.dev.periodic u))

/-- SPEED_WINDOW_END stores the speed index and counts SEQ. AVS_DECISION does nothing while automatic control is off (EN clear, or INTERVAL 0), while set points settle, while the controller restarts, or while the four indices are not of one window; else, for a quarter without BUS_ERR whose set point lies in its range, it raises the set point of a slow quarter by STEP up to CEIL, or sets AT_CEIL there, lowers that of a fast one by STEP down to FLOOR, and leaves any other; a set point below FLOOR or above CEIL is moved there at once. AVS_SETTLE_END ends the settling. AVSBUS_FAILURE sets BUS_ERR and takes the set point back to the last confirmed one; BUS_ERR_CLEAR clears BUS_ERR. AVS_SETPOINT_WRITE with automatic control off sends the set point, limited to its range, and with it on is ignored. -/
def Obligations.QuarterSupplies : Prop :=
  ∀ (s : State) (q v : Nat), s.up = true → q < 4 → v < 256 →
    let r : Reg := .gblAvsQ q
    let seq (k : Nat) : Nat := s.dev.fld (.gblAvsSpd k) F.gblAvsSpd_SEQ
    let auto := s.dev.flag .gblAvsCtrl F.gblAvsCtrl_EN && s.dev.fld .gblAvsCtrl F.gblAvsCtrl_INTERVAL != 0
    (∀ w, w < 2 ^ 16 → ∃ d : Dev, exec (.speedWindowEnd q w) s = .next (s.settle d) ∧
      d.fld (.gblAvsSpd q) F.gblAvsSpd_SPEED = w ∧
      d.fld (.gblAvsSpd q) F.gblAvsSpd_SEQ = (s.dev.fld (.gblAvsSpd q) F.gblAvsSpd_SEQ + 1) % 65536 ∧
      s.dev.keepsRegs d [.gblAvsSpd q] ∧ d.out = s.dev.out) ∧
    (auto = false ∨ s.dev.mgt.settling = true ∨ s.dev.mgt.restarting = true ∨ (∃ k < 4, seq k ≠ seq 0) →
      exec .avsDecision s = .next (s.settle s.dev)) ∧
    (auto = true → (∀ k < 4, seq k = seq 0) → s.dev.mgt.settling = false →
      s.dev.mgt.restarting = false → s.dev.flag r F.gblAvsQ_BUS_ERR = false →
      let set := s.dev.fld r F.gblAvsQ_SETPOINT
      let floor := s.dev.fld r F.gblAvsQ_FLOOR
      let ceil := s.dev.fld r F.gblAvsQ_CEIL
      19 ≤ floor → floor ≤ ceil → ceil ≤ 41 → 19 ≤ set → set ≤ 41 →
      let speed (k : Nat) : Nat := s.dev.fld (.gblAvsSpd k) F.gblAvsSpd_SPEED
      let sum := speed 0 + speed 1 + speed 2 + speed 3 - speed q
      let margin := s.dev.fld .gblAvsCtrl F.gblAvsCtrl_MARGIN
      let step := min 8 (max 1 (s.dev.fld .gblAvsCtrl F.gblAvsCtrl_STEP))
      let slow := 3 * (speed q + margin) < sum ∨ speed q < 1024 + margin
      let fast := sum + 6 * margin < 3 * speed q ∧ 1024 + 2 * margin < speed q
      ∃ d : Dev, exec .avsDecision s = .next (s.settle d) ∧
        (set < floor → d.fld r F.gblAvsQ_SETPOINT = floor ∧ d.mgt.settling = true) ∧
        (ceil < set → d.fld r F.gblAvsQ_SETPOINT = ceil ∧ d.mgt.settling = true) ∧
        (floor ≤ set → set ≤ ceil →
          (slow → set < ceil → d.fld r F.gblAvsQ_SETPOINT = min (set + step) ceil ∧ d.mgt.settling = true) ∧
          (slow → set = ceil → d.fld r F.gblAvsQ_SETPOINT = set ∧ d.flag r F.gblAvsQ_AT_CEIL = true) ∧
          (¬ slow → fast → floor < set → d.fld r F.gblAvsQ_SETPOINT = max (set - step) floor ∧ d.mgt.settling = true) ∧
          (¬ slow → ¬ (fast ∧ floor < set) → d.fld r F.gblAvsQ_SETPOINT = set)) ∧
        s.dev.keepsRegs d [.gblAvsQ 0, .gblAvsQ 1, .gblAvsQ 2, .gblAvsQ 3]) ∧
    (∃ d : Dev, exec .avsSettleEnd s = .next (s.settle d) ∧ d.mgt.settling = false ∧ d.regs = s.dev.regs ∧ d.out = s.dev.out) ∧
    (∃ d : Dev, exec (.avsbusFailure q) s = .next (s.settle d) ∧ d.flag r F.gblAvsQ_BUS_ERR = true ∧ s.dev.keepsRegs d [r] ∧
      (∀ c, s.dev.mgt.avsOld.getD q none = some c → d.fld r F.gblAvsQ_SETPOINT = c % 256)) ∧
    (s.reaches r → (∃ d : Dev, exec (.busErrClear q) s = .next (s.settle d) ∧ d.flag r F.gblAvsQ_BUS_ERR = false ∧
        d.fld r F.gblAvsQ_SETPOINT = s.dev.fld r F.gblAvsQ_SETPOINT ∧ s.dev.keepsRegs d [r]) ∧
      (auto = false → ∃ d : Dev, exec (.avsSetpointWrite q v) s = .next (s.settle d) ∧
        d.fld r F.gblAvsQ_SETPOINT = v ∧ d.out = s.dev.out ++ [.avs q (min 41 (max 19 v))] ∧ s.dev.keepsRegs d [r]) ∧
      (auto = true → exec (.avsSetpointWrite q v) s = .next (s.settle s.dev)))

/-- Each read or invalidate comes to the request of its message, whatever its MetaValue: MEM_RD with S, A or I to RdS, RdE or RdI, and to an uncached read where it is a UIO request; MEM_RD_DATA to RdS; MEM_INV and MEM_INV_NT with A or I to Inv(A) or Inv(I), without data (with S, which the tables do not name, to a shared invalidate: the model's choice, log entry 60); MEM_CLN_EVCT on a CXL 3.1 head, or on one that is not open, to the clean-evict notice. An error that its lookup meets in on-chip SRAM takes effect first. Where the head serves the request (its link up with CXL.mem open and no failed IDE stream, its LD bound, active, responsive and in no host error, its address bound by a decoder inside the enabled window), that request enters the line's home; on a head that is not CXL 3.1 every read enters as RdI and every invalidate as Inv(I). MEM_CLN_EVCT on an open head of another protocol is a decode miss, answered with Cmp, and enters nothing. MEM_SPEC_RD takes no action and sends no response. -/
def Obligations.HostReadsEnterTheHome : Prop :=
  ∀ (s : State) (h ldid hpa tag : Nat), s.up = true → h < 8 → ldid < 16 → hpa < 2 ^ 52 → tag < 2 ^ 16 →
    (∀ e : SramErr,
      let comesTo (c : Instr) (op : HomeOp) (noData : Bool) (opc : Nat) : Prop :=
        let q : HostReq := { head := h, ldid := ldid, hpa := hpa, tag := tag, op := op, noData := noData, opc := opc }
        exec c s = .next (s.finish ((s.dev.sramError q e).hostRequest q))
      comesTo (.memRd h ldid hpa tag .s false e) .rdS false 0 ∧ comesTo (.memRd h ldid hpa tag .a false e) .rdE false 1 ∧
      comesTo (.memRd h ldid hpa tag .i false e) .rdI false 2 ∧ (∀ m, comesTo (.memRd h ldid hpa tag m true e) .ncRead false 2) ∧
      comesTo (.memRdData h ldid hpa tag e) .rdS false 0 ∧
      comesTo (.memInv h ldid hpa tag .a e) .invA true 3 ∧ comesTo (.memInv h ldid hpa tag .i e) .invI true 4 ∧
      comesTo (.memInv h ldid hpa tag .s e) .rdS true 3 ∧
      comesTo (.memInvNt h ldid hpa tag .a e) .invA true 3 ∧ comesTo (.memInvNt h ldid hpa tag .i e) .invI true 4 ∧
      comesTo (.memInvNt h ldid hpa tag .s e) .rdS true 3 ∧
      (s.dev.proto h = 3 ∨ s.dev.headUp h = false ∨ s.dev.memOpen h = false ∨ (s.dev.head h).ideFailed = true →
        comesTo (.memClnEvct h ldid hpa tag e) .clnEvct false 5)) ∧
    (∀ ld rel, s.dev.serves h ldid ld hpa rel →
      let line := s.dev.windowDpa ld rel / 64
      (s.dev.on31 ld = true → s.dev.proto h = 3 →
        s.enters (.memRd h ldid hpa tag .s false .none) h ld hpa tag line .rdS 0 0 false ∧
        s.enters (.memRd h ldid hpa tag .a false .none) h ld hpa tag line .rdE 0 0 false ∧
        s.enters (.memRd h ldid hpa tag .i false .none) h ld hpa tag line .rdI 0 0 false ∧
        (∀ m, s.enters (.memRd h ldid hpa tag m true .none) h ld hpa tag line .ncRead 0 0 false) ∧
        s.enters (.memRdData h ldid hpa tag .none) h ld hpa tag line .rdS 0 0 false ∧
        s.enters (.memInv h ldid hpa tag .a .none) h ld hpa tag line .invA 0 0 false ∧
        s.enters (.memInv h ldid hpa tag .i .none) h ld hpa tag line .invI 0 0 false ∧
        s.enters (.memInv h ldid hpa tag .s .none) h ld hpa tag line .rdS 0 0 false ∧
        s.enters (.memInvNt h ldid hpa tag .a .none) h ld hpa tag line .invA 0 0 false ∧
        s.enters (.memInvNt h ldid hpa tag .i .none) h ld hpa tag line .invI 0 0 false ∧
        s.enters (.memInvNt h ldid hpa tag .s .none) h ld hpa tag line .rdS 0 0 false ∧
        s.enters (.memClnEvct h ldid hpa tag .none) h ld hpa tag line .clnEvct 0 0 false) ∧
      (s.dev.on31 ld = false →
        (∀ m, s.enters (.memRd h ldid hpa tag m false .none) h ld hpa tag line .rdI 0 0 false) ∧
        s.enters (.memRdData h ldid hpa tag .none) h ld hpa tag line .rdI 0 0 false ∧
        (∀ m, s.enters (.memInv h ldid hpa tag m .none) h ld hpa tag line .invI 0 0 false) ∧
        (∀ m, s.enters (.memInvNt h ldid hpa tag m .none) h ld hpa tag line .invI 0 0 false))) ∧
    (s.dev.headUp h = true → s.dev.memOpen h = true → (s.dev.head h).ideFailed = false → s.dev.proto h ≠ 3 →
      ∀ e, ∃ d : Dev, exec (.memClnEvct h ldid hpa tag e) s = .next (s.finish d) ∧ d.home = s.dev.home ∧ d.regs = s.dev.regs ∧
        .s2m h ldid .cmp hpa tag ∈ d.out) ∧
    (∃ d : Dev, exec (.memSpecRd h ldid hpa) s = .next (s.settle d) ∧ d.home.txns = s.dev.home.txns ∧
      d.home.dir = s.dev.home.dir ∧ d.regs = s.dev.regs ∧ ∀ o ∈ d.out, o ∈ s.dev.out ∨ ∃ owner v, o = .msix owner v)

/-- MEM_WR comes to a full-line write, and MEM_WR_PTL to a write of the bytes of its mask, each with its data and poison, and each as the write of a non-caching agent where it is a UIO request; an error that its lookup meets in on-chip SRAM takes effect first. Where the head serves the request and the writer does not hold the line in state E, that write enters the line's home; on a CXL 3.1 head MetaValue S keeps the writer as a holder. -/
def Obligations.HostWritesEnterTheHome : Prop :=
  ∀ (s : State) (h ldid hpa tag : Nat) (m : MetaValue) (data : Line) (mask : BitVec 64) (poison : Bool),
    s.up = true → h < 8 → ldid < 16 → hpa < 2 ^ 52 → tag < 2 ^ 16 →
    (∀ (e : SramErr) (uio : Bool),
      let q (k : BitVec 64) (opc : Nat) : HostReq :=
        { head := h, ldid := ldid, hpa := hpa, tag := tag, op := if uio then .ncWrite else .wr (m == .s), data := data, mask := k,
          poison := poison, opc := opc }
      exec (.memWr h ldid hpa tag m data poison uio e) s =
        .next (s.finish ((s.dev.sramError (q (BitVec.allOnes 64) 7) e).hostRequest (q (BitVec.allOnes 64) 7))) ∧
      exec (.memWrPtl h ldid hpa tag m data mask poison uio e) s =
        .next (s.finish ((s.dev.sramError (q mask 8) e).hostRequest (q mask 8)))) ∧
    (∀ ld rel, s.dev.serves h ldid ld hpa rel → s.dev.heldBy ld hpa = none →
      let line := s.dev.windowDpa ld rel / 64
      let op : HomeOp := .wr (s.dev.on31 ld && m == .s)
      s.enters (.memWr h ldid hpa tag m data poison false .none) h ld hpa tag line op data (BitVec.allOnes 64) poison ∧
      s.enters (.memWrPtl h ldid hpa tag m data mask poison false .none) h ld hpa tag line op data mask poison ∧
      (s.dev.on31 ld = true → s.dev.proto h = 3 →
        s.enters (.memWr h ldid hpa tag m data poison true .none) h ld hpa tag line .ncWrite data (BitVec.allOnes 64) poison ∧
        s.enters (.memWrPtl h ldid hpa tag m data mask poison true .none) h ld hpa tag line .ncWrite data mask poison))

/-- BIRSP, with whatever answer, ends the wait of the oldest back-invalidate of the line to the LD; with answer I, or to BISnpInv, it takes the LD out of the line's holders, and after BISnpData the line is no longer exclusive. Without such a back-invalidate, or from an unresponsive LD, it changes nothing. BICONFLICT of a waiting back-invalidate is answered with BIConflictAck, and changes nothing else. DIRECTORY_EVICTION_COMPLETE takes the victim whose answers have all come out of the directory, and hands its way to the request that waits for it. LINE_LOCK_RELEASE drops the completed request and hands the lock on. BISNP_TIMEOUT makes the LD unresponsive and starts its sweep. UNRESPONSIVE_SWEEP_COMPLETE ends the sweep, raises the holder-unresponsive record and, after a head loss, clears UNRESP. TEDDER_SAMPLE delivers the oldest sample of a Tedder to its sketch. Each that finds nothing to act on leaves the main die as it is. -/
def Obligations.HomeEvents : Prop :=
  ∀ (s : State) (ld line : Nat) (a : BiAnswer), s.up = true → ld < 16 → line < 2 ^ 42 → s.dev.biStray ld = false →
    (∀ x, s.dev.home.snoops.find? (fun x => x.line == line && x.ld == ld) = some x →
      (s.dev.unresp ld = false → ∃ d : Dev, exec (.birsp ld line a) s = .next (s.finish d) ∧
        d.home.snoops = s.dev.home.snoops.erase x ∧
        (a = .i ∨ x.op = .bisnpInv → ∀ e, d.ent line = some e → e.has ld = false) ∧
        (x.op = .bisnpData → a ≠ .i → ∀ e, d.ent line = some e → e.st ≠ .e) ∧
        d.regs = s.dev.regs ∧ d.out = s.dev.out) ∧
      (s.dev.unresp ld = false → ∃ d : Dev, exec (.biconflict ld line) s = .next (s.finish d) ∧ d.home = s.dev.home ∧
        d.regs = s.dev.regs ∧ d.out = s.dev.out ++ [.s2m (s.dev.ldHead ld) (s.dev.ldId ld) .biConflictAck (line * 64) 0]) ∧
      (∃ d : Dev, exec (.bisnpTimeout ld line) s = .next (s.finish d) ∧ d.unresp ld = true ∧
        (∀ x ∈ d.home.snoops, x.ld ≠ ld) ∧ ∃ w ∈ d.home.sweeps, w.ld = ld ∧ w.cause = 0 ∧ w.dpa = line * 64)) ∧
    (s.dev.home.snoops.find? (fun x => x.line == line && x.ld == ld) = none →
      exec (.birsp ld line a) s = .next (s.finish s.dev) ∧ exec (.biconflict ld line) s = .next (s.finish s.dev) ∧
      exec (.bisnpTimeout ld line) s = .next (s.finish s.dev)) ∧
    (s.dev.unresp ld = true → exec (.birsp ld line a) s = .next (s.finish s.dev) ∧
      exec (.biconflict ld line) s = .next (s.finish s.dev)) ∧
    (∀ t : Txn, s.dev.home.txns.find? (fun t => t.phase == .acked && t.line == line) = some t →
      exec (.directoryEvictionComplete line) s = .next (s.finish (s.dev.evicted t)) ∧
      ((∀ x ∈ s.dev.home.txns, x.victim ≠ some line) →
        (s.dev.evicted t).ent line = none ∧ ∀ x ∈ (s.dev.evicted t).home.txns, x.id ≠ t.id)) ∧
    (s.dev.home.txns.find? (fun t => t.phase == .acked && t.line == line) = none →
      exec (.directoryEvictionComplete line) s = .next (s.finish s.dev)) ∧
    (∀ t : Txn, s.dev.home.txns.find? (fun t => t.phase == .complete && t.line == line) = some t →
      exec (.lineLockRelease line) s = .next (s.finish ((s.dev.dropTxn t.id).unlock line true)) ∧
      ∀ x ∈ (s.dev.dropTxn t.id).home.txns, x.id ≠ t.id) ∧
    (s.dev.home.txns.find? (fun t => t.phase == .complete && t.line == line) = none →
      exec (.lineLockRelease line) s = .next (s.finish s.dev)) ∧
    (∀ w, s.dev.home.sweeps.find? (fun w => w.ld == ld) = some w → ∃ d : Dev,
      exec (.unresponsiveSweepComplete ld) s = .next (s.finish d) ∧ (∀ x ∈ d.home.sweeps, x.ld ≠ ld) ∧
      bitOf (d.rd .homeLdstat) (16 + ld) = false ∧ (s.dev.home.lost.contains ld = true → d.unresp ld = false)) ∧
    (s.dev.home.sweeps.find? (fun w => w.ld == ld) = none →
      exec (.unresponsiveSweepComplete ld) s = .next (s.finish s.dev)) ∧
    (∀ t par, t < 4 → (∀ r ∈ par, r < 4) →
      (∀ p, s.dev.ted.samples.find? (fun p => fieldOfPage p.2 % 4 == t) = some p → ∃ d : Dev,
        exec (.tedderSample t par) s = .next (s.settle d) ∧ d.ted.samples = s.dev.ted.samples.erase p ∧
        d.regs = s.dev.regs ∧ d.ted.map = s.dev.ted.map ∧
        (∀ r, r < 4 → par.contains r = false →
          kvGet (fun _ => 0) d.ted.sketch (sketchKey t r p.2) = min 15 (kvGet (fun _ => 0) s.dev.ted.sketch (sketchKey t r p.2) + 1))) ∧
      (s.dev.ted.samples.find? (fun p => fieldOfPage p.2 % 4 == t) = none →
        exec (.tedderSample t par) s = .next (s.settle s.dev)))

/-- HOME_GRANT_WRITE stores the grant, and sets PEND where it takes a right away; GRANT_REVOCATION_COMPLETE clears PEND once no back-invalidate of the revocation waits; DEFHINT_WRITE stores DEFHINT. -/
def Obligations.GrantsAndHints : Prop :=
  ∀ (s : State) (n v : Nat), n < 16 →
    (v < 2 ^ 32 → s.reaches (.homeGrant n) → bitOf (s.dev.fld .homeGrantstat F.homeGrantstat_PEND) n = false →
      ∃ d : Dev, exec (.homeGrantWrite n v) s = .next (s.finish d) ∧ d.rd (.homeGrant n) = v ∧
        (bitOf (d.fld .homeGrantstat F.homeGrantstat_PEND) n = true ↔
          ∃ i < 32, bitOf (s.dev.rd (.homeGrant n)) i = true ∧ bitOf v i = false) ∧
        s.dev.keepsRegs d [.homeGrant n, .homeGrantstat] ∧ d.bulk = s.dev.bulk) ∧
    (s.up = true → bitOf (s.dev.fld .homeGrantstat F.homeGrantstat_PEND) n = true →
      (∀ x ∈ s.dev.home.snoops, x.why ≠ .grant n) →
      ∃ d : Dev, exec (.grantRevocationComplete n) s = .next (s.finish d) ∧
        bitOf (d.fld .homeGrantstat F.homeGrantstat_PEND) n = false ∧ s.dev.keepsRegs d [.homeGrantstat] ∧
        d.home = s.dev.home ∧ d.bulk = s.dev.bulk) ∧
    (v < 4 → s.reaches .homeCtrl →
      ∃ d : Dev, exec (.defhintWrite v) s = .next (s.finish d) ∧ d.fld .homeCtrl F.homeCtrl_DEFHINT = v ∧
        d.fld .homeCtrl F.homeCtrl_PIN_WAYS = s.dev.fld .homeCtrl F.homeCtrl_PIN_WAYS ∧ s.dev.keepsRegs d [.homeCtrl] ∧
        d.home.dir = s.dev.home.dir)

/-- HEAD_LINK_UP of a head that is there and out of PERST_N, on a single device whose links are open, brings the link up, or ends a retrain of a link that is up, at the rate and the protocol that both ends offer (CXL 1.1 and 2.0 at 32 GT/s at most, no CXL at 2.5 and 5 GT/s), at the lanes of its port at most, with 256-byte flits from 64 GT/s on; from link-down it takes the response credits, and a retrain keeps credits and negotiated protocol (the model's choice: log entry 53). It writes no register but HP_STAT of the head. PERST_N_ASSERT, HOT_RESET and LINK_DOWN take the link down, close CXL.mem and end IDE; PERST_N_RELEASE lets the head train. A reset or link-down of a link that is down, and training of a head in PERST_N, change nothing. -/
def Obligations.HeadLinks : Prop :=
  ∀ (s : State) (h : Nat), s.up = true → h < 8 →
    (∀ nego proto rate width flit256 credits, proto < 4 → rate < 7 → width ∈ [1, 2, 4, 8, 16] → s.dev.headThere h = true →
      (s.dev.head h).perst = false → s.dev.mgt.linksOn = true → s.dev.role = 0 →
      let again := s.dev.headUp h
      let p := if again then (s.dev.head h).negotiated else if nego && !s.dev.inHold then min proto (s.dev.offers h).2 else 0
      let both := min rate (s.dev.offers h).1
      let r := if p = 1 ∨ p = 2 then min both 4 else both
      p < 4 →
      ∃ d : Dev, exec (.headLinkUp h nego proto rate width flit256 credits) s = .next (s.settle d) ∧ d.headUp h = true ∧
        d.fld (headReg h) F.hpStat_RATE = r ∧ d.proto h = (if r < 2 then 0 else p) ∧
        d.fld (headReg h) F.hpStat_WIDTH = min width (if s.dev.hp.split.getD (h / 2) false then 8 else 16) ∧
        d.flag (headReg h) F.hpStat_FLIT256 = (decide (5 ≤ r) || (decide (2 ≤ r) && p == 3 && flit256)) ∧
        d.hp.heads = (if again then s.dev.hp.heads
          else (s.dev.modHead h fun y => { y with negotiated := p, credits := credits }).hp.heads) ∧
        s.dev.keepsRegs d [headReg h]) ∧
    (∀ nego proto rate width flit256 credits, proto < 4 → rate < 7 → width ∈ [1, 2, 4, 8, 16] →
      s.dev.headThere h = false ∨ (s.dev.head h).perst = true ∨ s.dev.mgt.linksOn = false ∨ s.dev.role ≠ 0 →
      exec (.headLinkUp h nego proto rate width flit256 credits) s = .next (s.settle s.dev)) ∧
    (∀ p ∈ [(Instr.hotReset h, 1), (Instr.linkDown h, 2)],
      (s.dev.headUp h = true → ∃ d : Dev, exec p.1 s = .next (s.settle d) ∧ d = s.dev.headReset h p.2 ∧ d.headUp h = false ∧
        d.memOpen h = false ∧ d.flag (headReg h) F.hpStat_IDE = false) ∧
      (s.dev.headUp h = false → exec p.1 s = .next (s.settle s.dev))) ∧
    (s.dev.mgt.linksOn = true → s.dev.role = 0 → s.dev.headThere h = true → (s.dev.head h).perst = false →
      ∃ d : Dev, exec (.perstNAssert h) s = .next (s.settle d) ∧ d.headUp h = false ∧ d.memOpen h = false ∧
        d.hp.heads = (s.dev.modHead h fun y =>
          { y with perst := true, ide := y.ide.map fun x => { x with secure := false } }).hp.heads) ∧
    (s.dev.mgt.linksOn = false → (s.dev.head h).perst = false →
      exec (.perstNAssert h) s = .next (s.settle (s.dev.modHead h fun y => { y with perst := true }))) ∧
    ((s.dev.head h).perst = true → exec (.perstNAssert h) s = .next (s.settle s.dev)) ∧
    (exec (.perstNRelease h) s = .next (s.settle (s.dev.modHead h fun y => { y with perst := false })))

/-- FLR and CXL_RESET of an LD that its head reaches start its reset and offer its event; FLR keeps every decoder, CXL_RESET uncommits the LD's. Of an LD that no head reaches they do nothing. HEAD_RESET_DELIVERY takes the transfer of the head's event crossing and acts on its kinds in order. FLR_COMPLETE ends the reset. -/
def Obligations.DeviceResets : Prop :=
  ∀ (s : State) (h n : Nat), s.up = true → h < 8 → n < 16 →
    (s.dev.reaches (s.dev.ldHead n) n = true →
      (∃ d : Dev, exec (.flr n) s = .next (s.settle d) ∧ n ∈ d.hp.resetting ∧ d.hp.hdm = s.dev.hp.hdm ∧
        d.home = s.dev.home ∧ d.cip = s.dev.cip) ∧
      (∃ d : Dev, exec (.cxlReset n) s = .next (s.settle d) ∧ n ∈ d.hp.resetting ∧
        (∀ i < 8, (d.hdm n i).committed = false ∧ (d.hdm n i).commit = false) ∧
        (∀ m i, m < 16 → i < 8 → m ≠ n → d.hdm m i = s.dev.hdm m i))) ∧
    (s.dev.reaches (s.dev.ldHead n) n = false →
      exec (.flr n) s = .next (s.settle s.dev) ∧ exec (.cxlReset n) s = .next (s.settle s.dev)) ∧
    (let x : XId := .headEvt h
     let d := (s.dev.ackEvent x).arrive x
     exec (.headResetDelivery h) s =
      .next (s.finish ((d.xevt x).recv.foldl (Dev.headKind h) (d.setXevt x { d.xevt x with recv := [] })))) ∧
    (∃ d : Dev, exec (.flrComplete n) s = .next (s.settle d) ∧ n ∉ d.hp.resetting ∧ d.regs = s.dev.regs ∧
      d.hp.hdm = s.dev.hp.hdm)

/-- IDE_KM on a head whose link is up, over its function 0, gives a stream its key, counts it, takes its mode and makes it secure; of the CXL stream, which needs a protocol of CXL, it sets IDE of HP_STAT. IDE_CHECK_FAILURE of a secure stream makes it insecure, makes the head discard later requests, reports an uncorrectable error, and leaves every register but HP_STAT of the head and HOME_LDSTAT alone; of a stream that is not secure it does nothing. -/
def Obligations.LinkEncryption : Prop :=
  ∀ (s : State) (h key : Nat) (st : IdeStream) (containment : Bool), s.up = true → h < 8 → key < 2 ^ 256 →
    (s.dev.headUp h = true → (s.dev.fn0 h).isSome = true → (st = .cxl → 1 ≤ s.dev.proto h) →
      ∃ d : Dev, exec (.ideKm h st key containment) s = .next (s.settle d) ∧
        d.hp.heads = (s.dev.modHead h fun y => Head.ideSettle { y with ide := y.ide.modify st.idx fun x =>
          { keys := x.keys + 1, key := key, secure := true, containment := containment, failed := false } }).hp.heads ∧
        (st = .cxl → d.flag (headReg h) F.hpStat_IDE = true) ∧ (st ≠ .cxl → d.regs = s.dev.regs) ∧
        s.dev.keepsRegs d [headReg h] ∧ d.home = s.dev.home) ∧
    (¬ (s.dev.headUp h = true ∧ (s.dev.fn0 h).isSome = true ∧ (st = .cxl → 1 ≤ s.dev.proto h)) →
      exec (.ideKm h st key containment) s = .next (s.settle s.dev)) ∧
    (s.dev.headUp h = true → ((s.dev.head h).ide.getD st.idx {}).secure = true →
      ∃ (d : Dev) (sev : AerSev), exec (.ideCheckFailure h st) s = .next (s.finish d) ∧
        (st = .cxl → d.flag (headReg h) F.hpStat_IDE = false) ∧
        d.hp.heads = (s.dev.modHead h fun y =>
          { y with ide := y.ide.modify st.idx fun x => { x with secure := false, failed := true }, ideFailed := true,
                   ideReset := false }).hp.heads ∧
        .aer h 0xFF .ideCheckFailed sev ∈ d.out ∧ s.dev.keepsRegs d [headReg h, .homeLdstat]) ∧
    (s.dev.headUp h = false ∨ ((s.dev.head h).ide.getD st.idx {}).secure = false →
      exec (.ideCheckFailure h st) s = .next (s.finish s.dev))

/-- LDBIND_ENABLE of an unbound LD sets EN, unless another bound LD has its HEAD and LDID: then EN stays clear and ERR is set; of a bound LD it does nothing. LDBIND_DISABLE of a bound LD clears EN, unless one of its decoders is committed or one of its rings enabled: then EN stays set and ERR is set; of an unbound LD it does nothing. MEDIA_READY of an LD whose storage is usable, after DRAM_READY, sets its Memory_Active and nothing else; before that it does nothing. -/
def Obligations.BindingsAndMedia : Prop :=
  ∀ (s : State) (n : Nat), n < 16 →
    (s.reaches (.gblLdbind n) →
      (s.dev.bound n = false →
        (∀ k < 16, k ≠ n → ¬ (s.dev.bound k = true ∧ s.dev.ldHead k = s.dev.ldHead n ∧ s.dev.ldId k = s.dev.ldId n)) →
        ∃ d : Dev, exec (.ldbindEnable n) s = .next (s.settle d) ∧ d.bound n = true ∧
          s.dev.keepsRegs d [.gblLdbind n, headReg (s.dev.ldHead n)]) ∧
      (s.dev.bound n = false →
        (∃ k < 16, k ≠ n ∧ s.dev.bound k = true ∧ s.dev.ldHead k = s.dev.ldHead n ∧ s.dev.ldId k = s.dev.ldId n) →
        ∃ d : Dev, exec (.ldbindEnable n) s = .next (s.settle d) ∧ d.bound n = false ∧
          d.flag (.gblLdbind n) F.gblLdbind_ERR = true ∧ s.dev.keepsRegs d [.gblLdbind n]) ∧
      (s.dev.bound n = true → exec (.ldbindEnable n) s = .next (s.settle s.dev)) ∧
      (s.dev.bound n = true → (∀ i < 8, (s.dev.hdm n i).committed = false) →
        (∀ r < 8, s.dev.crEn n r = false ∧ s.dev.cqEn n r = false) →
        ∃ d : Dev, exec (.ldbindDisable n) s = .next (s.settle d) ∧ d.bound n = false ∧
          s.dev.keepsRegs d [.gblLdbind n, headReg (s.dev.ldHead n)]) ∧
      (s.dev.bound n = true → (∃ i < 8, (s.dev.hdm n i).committed = true ∨ s.dev.crEn n i = true ∨ s.dev.cqEn n i = true) →
        ∃ d : Dev, exec (.ldbindDisable n) s = .next (s.settle d) ∧ d.bound n = true ∧
          d.flag (.gblLdbind n) F.gblLdbind_ERR = true ∧ s.dev.keepsRegs d [.gblLdbind n]) ∧
      (s.dev.bound n = false → exec (.ldbindDisable n) s = .next (s.settle s.dev))) ∧
    (s.up = true →
      let ready := s.dev.flag .gblBoot F.gblBoot_DRAM_READY && s.dev.storageReady n
      (ready = true → ∃ d : Dev, exec (.mediaReady n) s = .next (s.settle d) ∧
        d = s.dev.modHp fun x => { x with memActive := x.memActive.set n true }) ∧
      (ready = false → exec (.mediaReady n) s = .next (s.settle s.dev)))

/-- On a function that answers, DOE_DISCOVERY returns the object of its index in the order of R92 and the next index, 0 after the last; CDAT_TABLE_ACCESS returns the entry of its handle in the table as it was last built, with the next handle, or an error past the last; DECK_REQUEST returns the entry of its handle with the table revision and the next handle, 0xFFFF after the last; SPDM sends one answer. None of them changes anything but what is sent. On a function that no head reaches nothing is sent, but SPDM of the management view, which MCTP carries too. -/
def Obligations.Discovery : Prop :=
  ∀ (s : State) (fn k : Nat), s.up = true → fn < 17 → k < 2 ^ 16 →
    (s.dev.fnUp fn = true →
      let es := s.dev.cdatOf fn
      (k < 256 → exec (.doeDiscovery fn k) s =
        .next (s.settle (s.dev.emit (.doeFound fn doeObjects[k]? (if k < 4 then k + 1 else 0))))) ∧
      (∀ e, es[k]? = some e → exec (.cdatTableAccess fn k) s = .next (s.settle (s.dev.emit
        (.cdat fn (s.dev.hp.cdatSeq.getD fn 0) e (if k + 1 < es.length then k + 1 else 0xFFFF))))) ∧
      (es.length ≤ k → exec (.cdatTableAccess fn k) s = .next (s.settle (s.dev.emit (.doeError fn)))) ∧
      (∃ body, exec (.deckRequest fn k) s = .next (s.settle (s.dev.emit (.doe fn
          ([Config.vendorId.toNat + 2 ^ 16, 3 + body.length,
            (if k + 1 < 3780 then k + 1 else 0xFFFF) + s.dev.fld .gblId F.gblId_DECK * 2 ^ 16] ++ body)))) ∧
        (k = 0 → body = dwordsOf deckSummary) ∧ (3780 ≤ k → body = []))) ∧
    (fn = 16 ∨ s.dev.fnUp fn = true → k < 256 →
      ∃ bytes, exec (.spdm fn k) s = .next (s.settle (s.dev.emit (.spdm fn k bytes))) ∧ bytes.length ≤ 4096 ∧
        (k = 4 → bytes = [b2n (s.dev.flag .otpStat F.otpStat_HOLD), s.dev.fld .otpStat F.otpStat_CAUSE])) ∧
    (s.dev.fnUp fn = false →
      (k < 256 → exec (.doeDiscovery fn k) s = .next (s.settle s.dev) ∧
        (fn ≠ 16 → exec (.spdm fn k) s = .next (s.settle s.dev))) ∧
      exec (.cdatTableAccess fn k) s = .next (s.settle s.dev) ∧ exec (.deckRequest fn k) s = .next (s.settle s.dev))

/-- For an outstanding read of a head: READ_COMPLETION with the right requester ID, byte count and lower address, and some but not all of the bytes still due, adds its bytes; with all of them it ends the read, frees the tag and hands the bytes on; with another status it ends the read and frees the tag, and the read has failed; one that does not agree is a late completion that leaves the read outstanding. So is one for a tag in quarantine; for any other tag it is an unexpected completion. COMPLETION_TIMEOUT quarantines the tag, counts and reports it. TAG_QUARANTINE_END returns a quarantined tag to the tail of the free pool. -/
def Obligations.HostReadsOfTheDevice : Prop :=
  ∀ (s : State) (h tag count lower : Nat) (idOk : Bool) (st : CplStatus) (data : List Nat), s.up = true → h < 8 → tag < 1024 →
    (∀ b ∈ data, b < 256) →
    (∀ x, (s.dev.head h).reads.find? (·.tag == tag) = some x →
      let left := x.len - x.got.length
      let agrees := idOk = true ∧ count = left ∧ lower = (x.addr + x.got.length) % 128 ∧
        (st = .ok → 0 < data.length ∧ data.length ≤ left)
      let ended := (s.dev.dropRead h tag).freeTag h tag
      (agrees → st = .ok → data.length < left → exec (.readCompletion h tag idOk count lower st data) s =
        .next (s.finish (s.dev.modHead h fun y =>
          { y with reads := y.reads.map fun z => if z.tag = tag then { z with got := x.got ++ data } else z }))) ∧
      (agrees → st = .ok → data.length = left → exec (.readCompletion h tag idOk count lower st data) s =
        .next (s.finish (ended.readDone x (x.got ++ data)))) ∧
      (agrees → st = .poisoned → exec (.readCompletion h tag idOk count lower st data) s =
        .next (s.finish ((ended.aer h (ended.useLd x.use) .poisonedTlp).readFailed x))) ∧
      (agrees → st ≠ .ok → st ≠ .poisoned → exec (.readCompletion h tag idOk count lower st data) s =
        .next (s.finish (ended.readFailed x))) ∧
      (¬ agrees → exec (.readCompletion h tag idOk count lower st data) s = .next (s.finish (s.dev.lateCompletion h tag x.addr))) ∧
      exec (.completionTimeout h tag) s = .next (s.finish (((((s.dev.count .readTimeout h).dropRead h tag).modHead h fun y =>
        { y with quar := y.quar ++ [(tag, x.addr)] }).aer h (s.dev.useLd x.use) .completionTimeout).readFailed x))) ∧
    ((s.dev.head h).reads.find? (·.tag == tag) = none →
      (∀ q, (s.dev.head h).quar.find? (·.1 == tag) = some q →
        exec (.readCompletion h tag idOk count lower st data) s = .next (s.finish (s.dev.lateCompletion h tag q.2))) ∧
      ((s.dev.head h).quar.find? (·.1 == tag) = none →
        exec (.readCompletion h tag idOk count lower st data) s = .next (s.finish (s.dev.aer h 0xFF .unexpectedCompletion))) ∧
      exec (.completionTimeout h tag) s = .next (s.finish s.dev)) ∧
    ((∃ a, (tag, a) ∈ (s.dev.head h).quar) →
      ∃ d : Dev, exec (.tagQuarantineEnd h tag) s = .next (s.finish d) ∧ (∀ a, (tag, a) ∉ (d.head h).quar) ∧
        (d.head h).free = (s.dev.head h).free ++ [tag] ∧ (d.head h).reads = (s.dev.head h).reads ∧ d.regs = s.dev.regs) ∧
    ((∀ a, (tag, a) ∉ (s.dev.head h).quar) → exec (.tagQuarantineEnd h tag) s = .next (s.finish s.dev))

/-- HDM_COMMIT of a decoder without Commit, or whose last commit was refused, takes IG, IW and the lock and sets Commit, with the DPA base of R58 where the checks of R58 and R60 pass and with Error Not Committed where they do not; of one with Commit it does nothing, but a rewrite of a committed decoder that is not locked is a host error of the LD. HDM_COMMIT_TAKES_EFFECT checks again: it sets Committed with the DPA base, or shows Error Not Committed; a decoder that overlaps a committed one is a host error of the LD. HDM_UNCOMMIT clears Commit of a decoder without a lock; HDM_UNCOMMIT_TAKES_EFFECT clears Committed. Every other decoder, every register and the home stay as they are, and a host error stays with its LD. -/
def Obligations.HdmDecoders : Prop :=
  ∀ (s : State) (n i ig iw : Nat) (lock : Bool), s.up = true → n < 16 → i < 8 → ig < 16 → iw < 16 →
    let x := s.dev.hdm n i
    let y : HdmDec := { x with ig := ig, iw := iw, lock := lock, err := false }
    let overlap := ∃ k < 8, k ≠ i ∧ (s.dev.hdm n k).committed = true ∧
      overlaps x.base x.size (s.dev.hdm n k).base (s.dev.hdm n k).size = true
    let rewrite := x.committed = true ∧ x.lock = false ∧ (x.ig ≠ ig ∨ x.iw ≠ iw)
    (x.commit = false ∨ x.err = true →
      (∀ b, s.dev.hdmCheck n i y = some b →
        exec (.hdmCommit n i ig iw lock) s = .next (s.settle (s.dev.setHdm n i { y with commit := true, dpaBase := b }))) ∧
      (s.dev.hdmCheck n i y = none →
        exec (.hdmCommit n i ig iw lock) s = .next (s.settle (s.dev.setHdm n i { y with commit := true, err := true })))) ∧
    (x.commit = true → x.err = false →
      (¬ rewrite → exec (.hdmCommit n i ig iw lock) s = .next (s.settle s.dev)) ∧
      (rewrite → exec (.hdmCommit n i ig iw lock) s = .next (s.settle (s.dev.goWild n)))) ∧
    (x.commit = true → x.committed = false → x.err = false →
      (∀ b, s.dev.hdmCheck n i x = some b →
        let d := s.dev.setHdm n i { x with committed := true, dpaBase := b }
        (¬ overlap → exec (.hdmCommitTakesEffect n i) s = .next (s.settle d)) ∧
        (overlap → exec (.hdmCommitTakesEffect n i) s = .next (s.settle (d.goWild n)))) ∧
      (s.dev.hdmCheck n i x = none →
        exec (.hdmCommitTakesEffect n i) s = .next (s.settle (s.dev.setHdm n i { x with err := true })))) ∧
    (x.commit = false ∨ x.committed = true ∨ x.err = true →
      exec (.hdmCommitTakesEffect n i) s = .next (s.settle s.dev)) ∧
    (x.commit = true → (x.lock = false ∨ x.err = true) →
      exec (.hdmUncommit n i) s = .next (s.settle (s.dev.setHdm n i { x with commit := false }))) ∧
    (x.commit = false ∨ x.lock = true ∧ x.err = false → exec (.hdmUncommit n i) s = .next (s.settle s.dev)) ∧
    (x.commit = false → x.committed = true →
      exec (.hdmUncommitTakesEffect n i) s = .next (s.settle (s.dev.setHdm n i { x with committed := false, dpaBase := 0 }))) ∧
    (x.commit = true ∨ x.committed = false → exec (.hdmUncommitTakesEffect n i) s = .next (s.settle s.dev)) ∧
    (∀ z : HdmDec, (s.dev.setHdm n i z).hdm n i = z ∧
      ∀ m k, (m ≠ n ∨ k ≠ i) → m < 16 → k < 8 → (s.dev.setHdm n i z).hdm m k = s.dev.hdm m k) ∧
    (s.dev.goWild n).isWild n = true ∧
    (∀ m, m ≠ n → (s.dev.goWild n).isWild m = s.dev.isWild m) ∧
    (s.dev.goWild n).regs = s.dev.regs ∧ (s.dev.goWild n).home = s.dev.home ∧ (s.dev.goWild n).hp.hdm = s.dev.hp.hdm ∧
    (s.dev.goWild n).cip = s.dev.cip ∧ (s.dev.goWild n).out = s.dev.out

/-- ADD_CAPACITY for a built LD on a CXL 3.1 head, inside one of its regions and clear of its extents, is refused as resource-exhausted where the quota or overcommit test or the watermarks say so, and else adds the extent at the end of the LD's list; of another extent it is refused as invalid input. RELEASE_DYNAMIC_CAPACITY and FORCED_REMOVAL of an extent that the LD holds take it off the list and start its removal; of another they are refused and change nothing. EXTENT_REMOVAL_COMPLETE ends the oldest removal of the LD and answers who asked; without one, or while a re-encryption runs in the extent, it does nothing. DC_REGION_CONFIGURE sets the region where the tests of R96 pass and is refused, changing nothing, where one fails. While the management controller restarts, the three commands of the fabric manager are answered Busy, and in Hold Unsupported. No other LD's extents or regions change. -/
def Obligations.DynamicCapacity : Prop :=
  ∀ (s : State) (n first fields : Nat), s.up = true → n < 16 → first < 2 ^ 27 → fields < 2 ^ 27 →
    let old := s.dev.extents n
    let hit := old.find? fun e => e.first == first && e.fields == fields
    let g := s.dev.extentPages n
    let add := 512 * fields
    let quota := s.dev.quotaFrames n
    let full := (s.dev.fld (.tedLdcap n) F.tedLdcap_OVC + 1) * quota < g + add ∨ quota * g * 16 < s.dev.foot n * (g + add) ∨
      s.dev.relMode = true ∨ s.dev.elasticFree - (fields : Int) < wmFrames (s.dev.fld .tedWm F.tedWm_FLOOR)
    let sound := s.dev.on31 n = true ∧ s.dev.winBuilt n = true ∧ 0 < fields ∧ (s.dev.regionOf n first fields).isSome = true ∧
      (∀ e ∈ old, overlaps first fields e.first e.fields = false) ∧ old.length < 1024
    let serves : Prop := s.dev.mgt.restarting = false ∧ s.dev.inHold = false
    (∀ c, c = (if s.dev.mgt.restarting then MboxCode.busy else .unsupported) → ¬ serves → ∀ label i k, i < 8 → k < 16 →
      exec (.addCapacity n first fields label) s = .next (s.finish (s.dev.emit (.mailbox 16 .addCapacity c []))) ∧
      exec (.forcedRemoval n first fields) s = .next (s.finish (s.dev.emit (.mailbox 16 .forcedRemoval c []))) ∧
      exec (.dcRegionConfigure n i first fields k) s =
        .next (s.settle (s.dev.emit (.mailbox 16 .configureRegion c [])))) ∧
    (∀ label, serves → ¬ sound → exec (.addCapacity n first fields label) s =
      .next (s.finish (s.dev.emit (.mailbox 16 .addCapacity .invalidInput [])))) ∧
    (∀ label, serves → sound →
      (full → exec (.addCapacity n first fields label) s =
        .next (s.finish (s.dev.emit (.mailbox 16 .addCapacity .resourcesExhausted [])))) ∧
      (¬ full → ∃ d : Dev, exec (.addCapacity n first fields label) s = .next (s.finish d) ∧
        d.extents n = old ++ [{ first := first, fields := fields, tag := label }] ∧
        (∀ k, k ≠ n → d.extents k = s.dev.extents k) ∧
        d.fld (.tedLdgrant n) F.tedLdgrant_EXTENTS = old.length + 1 ∧ d.hp.regions = s.dev.hp.regions ∧
        d.out.getLast? = some (.mailbox 16 .addCapacity .success []))) ∧
    (∀ e, hit = some e → ∃ d : Dev, exec (.releaseDynamicCapacity n first fields) s = .next (s.finish d) ∧
      d.extents n = old.filter (· != e) ∧ (∀ k, k ≠ n → d.extents k = s.dev.extents k) ∧
      d.hp.removals = s.dev.hp.removals ++ [{ ld := n, ext := e, origin := 1 }] ∧ s.dev.keepsRegs d [.tedLdgrant n] ∧
      d.out = s.dev.out ∧ d.ted = s.dev.ted) ∧
    (hit = none → exec (.releaseDynamicCapacity n first fields) s =
      .next (s.finish (s.dev.emit (.mailbox n .releaseCapacity .invalidInput [])))) ∧
    (serves →
      (∀ e, hit = some e → ∃ d : Dev, exec (.forcedRemoval n first fields) s = .next (s.finish d) ∧
        d.extents n = old.filter (· != e) ∧ (∀ k, k ≠ n → d.extents k = s.dev.extents k) ∧
        d.hp.removals = s.dev.hp.removals ++ [{ ld := n, ext := e, origin := 0 }] ∧ s.dev.keepsRegs d [.tedLdgrant n] ∧
        d.ted = s.dev.ted) ∧
      (hit = none → exec (.forcedRemoval n first fields) s =
        .next (s.finish (s.dev.emit (.mailbox 16 .forcedRemoval .invalidInput []))))) ∧
    (s.dev.hp.removals.find? (·.ld == n) = none → exec (.extentRemovalComplete n) s = .next (s.finish s.dev)) ∧
    (∀ r, s.dev.hp.removals.find? (·.ld == n) = some r →
      let busy := s.dev.jobIn fun f =>
        decide (s.dev.winBase n + r.ext.first ≤ f) && decide (f < s.dev.winBase n + r.ext.first + r.ext.fields)
      (busy = true → exec (.extentRemovalComplete n) s = .next (s.finish s.dev)) ∧
      (busy = false → ∃ d : Dev,
      exec (.extentRemovalComplete n) s = .next (s.finish d) ∧ d.hp.removals = s.dev.hp.removals.erase r ∧
      d.hp.extents = s.dev.hp.extents ∧ (r.origin = 0 → d.out.getLast? = some (.mailbox 16 .forcedRemoval .success [])) ∧
      (r.origin = 1 → d.out.getLast? = some (.mailbox n .releaseCapacity .success [])))) ∧
    (∀ i k, i < 8 → k < 16 → serves →
      let regs := s.dev.regions n
      let fits := k ≤ 9 ∧ s.dev.fld (.tedLdcap n) F.tedLdcap_COMMIT ≤ first ∧ first + fields ≤ s.dev.winFields n ∧ 0 < fields ∧
        first % 2 ^ k = 0 ∧ fields % 2 ^ k = 0 ∧ (∀ r ∈ regs.eraseIdx i, overlaps first fields r.base r.len = false) ∧ old = [] ∧
        i ≤ regs.length ∧ s.dev.on31 n = true
      (fits → ∃ d : Dev, exec (.dcRegionConfigure n i first fields k) s = .next (s.settle d) ∧
        (d.regions n)[i]? = some { base := first, len := fields, k := k } ∧
        (∀ j, j ≠ i → (d.regions n)[j]? = regs[j]?) ∧ (∀ m, m ≠ n → d.regions m = s.dev.regions m) ∧ d.regs = s.dev.regs ∧
        d.out = s.dev.out ++ [.mailbox 16 .configureRegion .success []]) ∧
      (¬ fits → exec (.dcRegionConfigure n i first fields k) s =
        .next (s.settle (s.dev.emit (.mailbox 16 .configureRegion .invalidInput [])))))

/-- LDWIN_ENABLE of a window with fields, inside the DPA space and clear of the enabled windows, that passes the tests of R170 and R211 sets EN and starts its descriptors; one that fails a test leaves EN clear and sets ERR, and one that fails R170 sets ERR of TED_LDCAP as well. Of an enabled window LDWIN_ENABLE does nothing, and so does LDWIN_DISABLE of one that is not. WINDOW_BUILD_COMPLETE, with the storage of the maps READY, sets BUILT, and of an LD with flat storage writes the descriptor of each committed field with the field's frames and an invalid one for each other field. LDWIN_DISABLE starts the teardown, or, with a committed decoder, an extent, or a teardown under way, sets ERR and leaves EN set. WINDOW_TEARDOWN_COMPLETE clears EN and BUILT, unless a re-encryption runs in the window. Each of the two does nothing where its build or its teardown is not under way. -/
def Obligations.Windows : Prop :=
  ∀ (s : State) (n : Nat), s.up = true → n < 16 →
    let base := s.dev.winBase n
    let fields := s.dev.winFields n
    let placed := fields ≠ 0 ∧ base + fields ≤ 2 ^ 27 ∧
      ∀ k < 16, k ≠ n → s.dev.winEn k = true → overlaps base fields (s.dev.winBase k) (s.dev.winFields k) = false
    (s.reaches (.gblLdwin n) → (s.dev.winEn n = true → exec (.ldwinEnable n) s = .next (s.finish s.dev)) ∧
      (s.dev.winEn n = false → exec (.ldwinDisable n) s = .next (s.finish s.dev))) ∧
    (s.reaches (.gblLdwin n) → s.dev.winEn n = false →
      (placed → s.dev.winRefused170 n = false → s.dev.winRefused211 n = false → ∃ d : Dev,
        exec (.ldwinEnable n) s = .next (s.finish d) ∧ d.winEn n = true ∧ d.ted = { s.dev.ted with win := s.dev.ted.win.set n .building } ∧
        s.dev.keepsRegs d [.gblLdwin n] ∧ d.out = s.dev.out) ∧
      (¬ placed → ∃ d : Dev, exec (.ldwinEnable n) s = .next (s.finish d) ∧ d.winEn n = false ∧
        d.flag (.gblLdwin n) F.gblLdwin_ERR = true ∧ s.dev.keepsRegs d [.gblLdwin n] ∧ d.ted = s.dev.ted) ∧
      (placed → s.dev.winRefused170 n = true → ∃ d : Dev,
        exec (.ldwinEnable n) s = .next (s.finish d) ∧ d.winEn n = false ∧ d.flag (.gblLdwin n) F.gblLdwin_ERR = true ∧
        d.flag (.tedLdcap n) F.tedLdcap_ERR = true ∧ s.dev.keepsRegs d [.gblLdwin n, .tedLdcap n] ∧ d.ted = s.dev.ted) ∧
      (placed → s.dev.winRefused170 n = false → s.dev.winRefused211 n = true → ∃ d : Dev,
        exec (.ldwinEnable n) s = .next (s.finish d) ∧ d.winEn n = false ∧ d.flag (.gblLdwin n) F.gblLdwin_ERR = true ∧
        s.dev.keepsRegs d [.gblLdwin n] ∧ d.ted = s.dev.ted)) ∧
    (s.reaches (.gblLdwin n) → s.dev.winEn n = true →
      let busy := (∃ i < 8, (s.dev.hdm n i).committed = true) ∨ s.dev.extents n ≠ [] ∨ s.dev.winPhase n = .tearing
      (¬ busy → exec (.ldwinDisable n) s = .next (s.finish (s.dev.setWin n .tearing))) ∧
      (busy → ∃ d : Dev, exec (.ldwinDisable n) s = .next (s.finish d) ∧ d.winEn n = true ∧
        d.flag (.gblLdwin n) F.gblLdwin_ERR = true ∧ s.dev.keepsRegs d [.gblLdwin n] ∧ d.ted = s.dev.ted)) ∧
    (s.dev.winPhase n ≠ .building ∨ s.dev.mapsReady n = false → exec (.windowBuildComplete n) s = .next (s.finish s.dev)) ∧
    (s.dev.winPhase n = .building → s.dev.mapsReady n = true → ∃ d : Dev, exec (.windowBuildComplete n) s = .next (s.finish d) ∧ d.winBuilt n = true ∧
      d.winPhase n = .none ∧ d.hp.hdm = s.dev.hp.hdm ∧
      (s.dev.flag (.tedLdcap n) F.tedLdcap_TIERED = false → base + fields ≤ 2 ^ 27 →
        let commit := s.dev.fld (.tedLdcap n) F.tedLdcap_COMMIT
        let flat := s.dev.fld (.tedLdflat n) F.tedLdflat_BASE
        flat + commit ≤ 2 ^ 27 → ∀ i < fields,
          d.desc (base + i) = if i < commit then { v := true, ld := n, base := (flat + i) * 512 } else {})) ∧
    let busy := s.dev.jobIn (List.range' base fields).contains
    (s.dev.winPhase n ≠ .tearing ∨ busy = true → exec (.windowTeardownComplete n) s = .next (s.finish s.dev)) ∧
    (s.dev.winPhase n = .tearing → busy = false → ∃ d : Dev, exec (.windowTeardownComplete n) s = .next (s.finish d) ∧ d.winEn n = false ∧
      d.winBuilt n = false ∧ d.winPhase n = .none ∧ d.hp.hdm = s.dev.hp.hdm ∧ d.hp.extents = s.dev.hp.extents)

/-- On a device that is no member, SET_COMMIT of a set that is neither committed nor accepted sets COMMIT; the commit is accepted, or ERR sets where a test of R70 refuses it; of another set only COMMIT is set. SET_COMMITTED of an accepted set sets COMMITTED and INIT, raises the major high-water mark by one, fills the set's counter lines on the device's own channels with it and begins to send those of its members. COUNTER_REGION_READY, with no counter line still on its way to a member, sets READY in place of INIT. SET_UNCOMMIT of a committed set clears COMMIT, COMMITTED, INIT and READY, or, where the set is in use, clears COMMIT, sets ERR and leaves it committed; of an accepted set it clears COMMIT and sets ERR, and of any other it clears COMMIT. Each writes the registers that it names and no other. On a member SET_COMMIT and SET_UNCOMMIT do nothing, and a set that has no commit accepted, or no counter lines due, does not take effect or become READY. -/
def Obligations.StorageSets : Prop :=
  ∀ (s : State) (n : Nat), s.up = true → n < 16 →
    let r : Reg := .casSetCtrl n
    let commit (d : Dev) : Bool := d.flag r F.casSetCtrl_COMMIT
    let err (d : Dev) : Bool := d.flag r F.casSetCtrl_ERR
    (s.reaches r → s.dev.role ≠ 0 →
      exec (.setCommit n) s = .next (s.settle s.dev) ∧ exec (.setUncommit n) s = .next (s.settle s.dev)) ∧
    (s.reaches r → s.dev.role = 0 → ∃ d : Dev,
      exec (.setCommit n) s = .next (s.settle d) ∧ s.dev.keepsRegs d [r] ∧ d.setCommitted n = s.dev.setCommitted n ∧ commit d = true ∧
      d.setPending n = (s.dev.setPending n || (!s.dev.setCommitted n && !s.dev.setRefused n)) ∧
      (s.dev.setCommitted n = false → s.dev.setPending n = false → s.dev.setRefused n = true → err d = true)) ∧
    (s.dev.setCommitted n = true ∨ s.dev.setPending n = false → exec (.setCommitted n) s = .next (s.finish s.dev)) ∧
    (∀ g, s.dev.setCommitted n = false → s.dev.setPending n = true → s.dev.setGeo n = some g → ∃ d : Dev,
      exec (.setCommitted n) s = .next (s.finish d) ∧ d.setCommitted n = true ∧ bitOf (d.rd .cipSetstat) (16 + n) = true ∧
      d.rd .cipMajhw = (s.dev.rd .cipMajhw + 1) % 2 ^ 64 ∧ s.dev.keepsRegs d [r, .cipSetstat, .cipMajhw] ∧
      ((∃ t ∈ s.dev.setTargets g, t.1 ≠ 0) → ∃ i ∈ d.cas.inits, i.set = n ∧ i.major = s.dev.rd .cipMajhw + 1 ∧ i.next = g.base * 2 ^ 18) ∧
      ∃ fill, d.bulk = s.dev.bulk ++ [.fill fill] ∧ fill.geo = g ∧ fill.major = s.dev.rd .cipMajhw + 1 ∧
        fill.devKey = s.dev.cip.devKey ∧ fill.legs.map (fun l => (l.dev, l.chan, l.k)) = (s.dev.setTargets g).filter fun t => t.1 == 0) ∧
    (let due := s.dev.setCommitted n && bitOf (s.dev.rd .cipSetstat) (16 + n) && !s.dev.initOut n
     (due = false → exec (.counterRegionReady n) s = .next (s.finish s.dev)) ∧
     (due = true → s.dev.ted.erases = [] → ∃ d : Dev,
      exec (.counterRegionReady n) s = .next (s.finish d) ∧ bitOf (d.rd .cipSetstat) n = true ∧
      bitOf (d.rd .cipSetstat) (16 + n) = false ∧ s.dev.keepsRegs d [.cipSetstat] ∧ d.bulk = s.dev.bulk) ∧
     (due = true → ∃ d e : Dev, exec (.counterRegionReady n) s = .next (s.finish (e.erasesDue s.dram)) ∧
      d = (s.dev.setBit .cipSetstat (16 + n) false).setBit .cipSetstat n true ∧ d.keepsRegs e [])) ∧
    (s.reaches r → s.dev.role = 0 →
      (s.dev.setCommitted n = false → ∃ d : Dev, exec (.setUncommit n) s = .next (s.settle d) ∧ commit d = false ∧
        d.setCommitted n = false ∧ d.setPending n = s.dev.setPending n ∧ (s.dev.setPending n = true → err d = true) ∧
        s.dev.keepsRegs d [r]) ∧
      (s.dev.setCommitted n = true → s.dev.setInUse n = false → ∃ d : Dev, exec (.setUncommit n) s = .next (s.settle d) ∧
        d.setCommitted n = false ∧ commit d = false ∧ bitOf (d.rd .cipSetstat) n = false ∧
        bitOf (d.rd .cipSetstat) (16 + n) = false ∧ s.dev.keepsRegs d [r, .cipSetstat] ∧ d.ted = s.dev.ted ∧ d.cip = s.dev.cip) ∧
      (s.dev.setCommitted n = true → s.dev.setInUse n = true → ∃ d : Dev, exec (.setUncommit n) s = .next (s.settle d) ∧
        d.setCommitted n = true ∧ commit d = false ∧ err d = true ∧ s.dev.keepsRegs d [r]))

/-- PROMOTION_START of a queued promotion of a bare or poisoned page of a committed field takes the first frame of the free list and leaves the promotion ready to commit; without a free frame it waits; of an elastic field for which the watermarks leave no frame it is held; of a page that is sward already, or of no live field, it ends. PROMOTION_COMMIT of a page that still holds what the promotion found makes it sward on that frame, with HOT 15; of another page it gives the frame back; either way the promotion ends. PROMOTION_HOLD_EXPIRY poisons a held page that is bare or poisoned, and ends the promotion of one that is sward already or of no live field. SHEAF_RELEASE frees the sheaves of a promoted page once no request is bound to them, and until then does nothing. TEDDER_EPOCH starts an epoch where EN is set, the epoch before has no work left and the next has begun, and else does nothing. A promotion of another phase is left alone, and a full map write buffer stalls the change of the page. -/
def Obligations.Promotions : Prop :=
  ∀ (s : State) (page : Nat) (bad : List Nat), s.up = true → page < 2 ^ 36 →
    let field := fieldOfPage page
    let ds := s.dev.desc field
    let e := s.dev.pageEntry page
    let sa := s.dev.pmeSa field (page % 512)
    let alone (c : Instr) : Prop := exec c s = .next (s.finish s.dev)
    (s.dev.promo page = none → alone (.promotionStart page bad) ∧ alone (.promotionCommit page) ∧ alone (.promotionHoldExpiry page)) ∧
    (∀ p, s.dev.promo page = some p →
      (p.phase = .reading ∨ p.phase = .decoded ∨ p.phase = .written → alone (.promotionStart page bad)) ∧
      (p.phase ≠ .written → alone (.promotionCommit page)) ∧ ((∀ t, p.phase ≠ .held t) → alone (.promotionHoldExpiry page)) ∧
      (p.phase = .queued →
        (¬ s.dev.livePage page → exec (.promotionStart page bad) s = .next (s.finish (s.dev.promoEnd p .promoSkipped))) ∧
        (s.dev.livePage page → e.state = 1 →
          exec (.promotionStart page bad) s = .next (s.finish (s.dev.promoEnd p .alreadySward))) ∧
        (s.dev.livePage page → e.state ≠ 1 →
          let full := 64 ≤ (s.dev.ted.promos.filter fun x => x.ted == p.ted && x.runs).length
          (full → alone (.promotionStart page bad)) ∧
          (¬ full → ds.elastic = false → s.dev.freeFrames = 0 → alone (.promotionStart page bad)) ∧
          (¬ full → ds.elastic = true → s.dev.mayTake .elasticPromotion = false →
            exec (.promotionStart page bad) s = .next (s.finish (s.dev.promoHold p))) ∧
          (∀ f l, ¬ full → ds.elastic = false → e.state ≠ 2 → 0 < s.dev.freeFrames →
            takeFrame s.dev.draining s.dev.ted.free = some (f, l) → s.dev.tableApart page f → s.dev.place (f * 4096) ≠ .wait →
            f ∉ s.dev.ted.erases → ∃ d : Dev,
            exec (.promotionStart page bad) s = .next (s.finish d) ∧ d.ted.free = l ∧ d.freeFrames = s.dev.freeFrames - 1 ∧
            ∃ q, d.promo page = some q ∧ q.phase = .written ∧ q.frame = f ∧ q.entry = e.num ∧ q.cmds = p.cmds))) ∧
      (p.phase = .written →
        let ok := s.dev.livePage page ∧ e.sameStorage (pmeOf p.entry) = true ∧ s.dev.ldKeyId p.ld = p.key
        (s.dev.mapRoom p.ted sa = false → alone (.promotionCommit page)) ∧
        (s.dev.mapRoom p.ted sa = true →
          (ok → p.frame < 2 ^ 36 → s.dev.inFtab sa = false → ∃ d : Dev, exec (.promotionCommit page) s = .next (s.finish d) ∧
            d.promo page = none ∧
            d.pageEntry page = { e with state := 1, frame := p.frame, soff := 0, scnt := 0, tsel := 0, hot := 15 } ∧
            d.ted.free = s.dev.ted.free) ∧
          (¬ ok → ∃ d : Dev, exec (.promotionCommit page) s = .next (s.finish d) ∧ d.promo page = none ∧
            d.ted.free = (if s.dev.draining p.frame then s.dev.ted.free else putFrame s.dev.ted.free p.frame)))) ∧
      (∀ t, p.phase = .held t →
        (¬ s.dev.livePage page → exec (.promotionHoldExpiry page) s = .next (s.finish (s.dev.promoEnd p .promoSkipped))) ∧
        (s.dev.livePage page → e.state = 1 →
          exec (.promotionHoldExpiry page) s = .next (s.finish (s.dev.promoEnd p .alreadySward))) ∧
        (s.dev.livePage page → e.state ≠ 1 → s.dev.mapRoom p.ted sa = false → alone (.promotionHoldExpiry page)) ∧
        (s.dev.livePage page → e.state ≠ 1 → s.dev.mapRoom p.ted sa = true → ∃ d : Dev,
          exec (.promotionHoldExpiry page) s = .next (s.finish d) ∧ d.promo page = none ∧
          (e.state ≠ 2 → s.dev.inFtab sa = false → d.pageEntry page = e.toState 3 ∧ d.ted.free = s.dev.ted.free)))) ∧
    (let free := s.dev.ted.old.find? fun o => o.page == page && !(o.txns.any fun i => (s.dev.txn i).isSome)
     (free = none → alone (.sheafRelease page)) ∧
     (∀ o, free = some o → exec (.sheafRelease page) s = .next (s.finish
       ((s.dev.modTed fun t => { t with old := t.old.filter (· != o) }).freeSheaves o.frame o.soff o.scnt)))) ∧
    (∀ f first n ted g, s.dev.ted.useOf f = some (.sheaves ted) → s.dev.sheafMapOf ted (f / 2048) = some g →
      let occ := s.dev.sheafOcc ted f
      let left := occ - (occ &&& ((2 ^ n - 1) <<< first))
      left ≠ 0 → (∃ p ∈ s.dev.ted.slots, p.1 / 16 = f ∧ (p.1 < f * 16 + first ∨ f * 16 + first + n ≤ p.1)) →
      (s.dev.freeSheaves f first n).sheafOcc ted f = left ∧ (s.dev.freeSheaves f first n).ted.free = s.dev.ted.free) ∧
    (∀ t lost par, t < 4 → (Instr.tedderEpoch t lost par).wf = true →
      let x := s.dev.ted.epoch.getD t {}
      let waits := s.dev.flag (.tedCtrl t) F.tedCtrl_EN = false ∨ t ∈ s.dev.ted.working ∨ (x.running = true ∧ s.dev.nowNs < x.start)
      (waits → alone (.tedderEpoch t lost par)) ∧
      (¬ waits → s.dev.ted.epoch.length = 4 → ∃ d : Dev, exec (.tedderEpoch t lost par) s = .next (s.finish d) ∧
        (d.ted.epoch.getD t {}).running = true ∧ d.hp = s.dev.hp))

/-- DEMOTION_START of a queued demotion of a sward page whose lines are all poisoned, or all zero, marks it for poisoned or for bare; of one with other lines, none of them poisoned, it raises one compression of the 64 lines; of one with some lines poisoned it ends, counted, with the page sward; of a page that is not sward or of no live field it ends. With EN of its Tedder 0 it does nothing. RELOCATION of a sward page of a draining range copies it to a frame and leaves the move ready; that of a page table or sheaf map of a draining range moves it to the first free frame. FALLOW_MOVE writes the page to the sheaves that it takes and leaves the move ready. TEDDER_MOVE_COMMIT ends a move that is ready; where its commit condition holds the page's entry becomes what the move made, and where it does not hold only storage is given back. What has no such move, and a change that finds the map write buffer full, is left alone. -/
def Obligations.Moves : Prop :=
  ∀ (s : State) (page : Nat) (bad : List Nat), s.up = true → page < 2 ^ 36 →
    let field := fieldOfPage page
    let ds := s.dev.desc field
    let e := s.dev.pageEntry page
    let alone (c : Instr) : Prop := exec c s = .next (s.finish s.dev)
    ((∀ x, s.dev.move page = some x → x.kind ≠ .demote ∨ x.phase ≠ .queued ∨ s.dev.flag (.tedCtrl x.ted) F.tedCtrl_EN = false) →
      alone (.demotionStart page bad)) ∧
    (∀ x, s.dev.move page = some x → x.kind = .demote → x.phase = .queued → s.dev.flag (.tedCtrl x.ted) F.tedCtrl_EN = true →
      (¬ (s.dev.livePage page ∧ e.state = 1) →
        exec (.demotionStart page bad) s = .next (s.finish ((s.dev.dropMove page).moveNote x .demoteSkipped))) ∧
      (s.dev.livePage page → e.state = 1 → (s.dev.reencOf e.frame).isSome = true →
        exec (.demotionStart page bad) s = .next (s.finish (s.dev.demoteEnd x false 5))) ∧
      (s.dev.livePage page → e.state = 1 → s.dev.reencOf e.frame = none →
        let full := 32 ≤ (s.dev.ted.moves.filter fun y => y.ted == x.ted && y.kind == .demote && y.phase != .queued).length ∨
          s.dev.ctrSpare e.frame x.ted = false
        (full → alone (.demotionStart page bad)) ∧
        (¬ full → s.dev.hold s.dram e.frame x.ted = none →
          exec (.demotionStart page bad) s = .next (s.finish (s.dev.demoteEnd x false 4))) ∧
        (∀ d1 d2 ls, ¬ full → s.dev.hold s.dram e.frame x.ted = some d1 →
          (let ld := (d1.ldOfField field).getD 0
           (d1.modMove page fun _ => { x with
              entry := e.num, ld := ld, key := d1.ldKeyId ld, kgen := d1.ldKgen ld, phase := .coding,
              snap := (match d1.ctrCopy e.frame x.ted with | some c => (c.ctr.major.toNat, c.ctr.minors.toNat) | none => (0, 0)) }).readLines
            s.dram (.ld ld (d1.ldKeyId ld) (d1.ldKgen ld)) page (e.frame * 4096) 64 none bad = some (d2, ls)) →
          ls.length = 64 → ∃ d : Dev, exec (.demotionStart page bad) s = .next (s.finish d) ∧ d.ted.free = s.dev.ted.free ∧
            ((∀ z ∈ ls, z.2 = 1) → ∃ q, d.move page = some q ∧ q.phase = .ready ∧ q.target = .poisoned ∧ q.entry = e.num) ∧
            ((∃ z ∈ ls, z.2 = 1) → (∃ z ∈ ls, z.2 ≠ 1) → d.move page = none) ∧
            ((∀ z ∈ ls, z.2 ≠ 1 ∧ z.1 = 0) → ∃ q, d.move page = some q ∧ q.phase = .ready ∧ q.target = .bare ∧ q.entry = e.num) ∧
            ((∀ z ∈ ls, z.2 ≠ 1) → (∃ z ∈ ls, z.1 ≠ 0) → (ds.tpol = 1 ∨ e.fctr = 63) → d.move page = none) ∧
            ((∀ z ∈ ls, z.2 ≠ 1) → (∃ z ∈ ls, z.1 ≠ 0) → ds.tpol ≠ 1 → e.fctr ≠ 63 → 0 < d2.balCount → ∃ q j,
              d.move page = some q ∧ q.phase = .coding ∧ q.entry = e.num ∧ d.bal.jobs = s.dev.bal.jobs ++ [j] ∧
              j.cls = .compression ∧ j.page = page ∧ j.bytes = ls.flatMap fun z => toBytes 64 z.1.toNat)))) ∧
    (¬ (s.dev.livePage page ∧ e.state = 1 ∧ s.dev.draining e.frame = true ∧ s.dev.move page = none ∧ s.dev.reencOf e.frame = none ∧
        0 < s.dev.elasticFree ∧ s.dev.nextWaits = false ∧ s.dev.ctrSpare e.frame (field % 4) = true) →
      alone (.relocation (.page page) bad)) ∧
    (∀ d1 d2 ls f d3, s.dev.livePage page → e.state = 1 → s.dev.draining e.frame = true → s.dev.move page = none →
      s.dev.reencOf e.frame = none → 0 < s.dev.elasticFree → s.dev.nextWaits = false → s.dev.ctrSpare e.frame (field % 4) = true →
      s.dev.hold s.dram e.frame (field % 4) = some d1 →
      d1.readLines s.dram (d1.ldDom ((d1.ldOfField field).getD 0)) page (e.frame * 4096) 64 none bad = some (d2, ls) →
      d2.takeFrame s.dram (.page field (page % 512)) = some (f, d3) → ∃ d : Dev,
      exec (.relocation (.page page) bad) s = .next (s.finish d) ∧ ∃ q, d.ted.moves = s.dev.ted.moves ++ [q] ∧ q.page = page ∧
        q.kind = .relocate ∧ q.phase = .ready ∧ q.frame = f ∧ q.entry = e.num) ∧
    (¬ (s.dev.livePage page ∧ s.dev.draining ds.base = true ∧ 0 < s.dev.elasticFree ∧ s.dev.reencOf ds.base = none ∧
        (takeFrame s.dev.draining s.dev.ted.free).isSome = true) → alone (.relocation (.table field) bad)) ∧
    (∀ f l, s.dev.livePage page → s.dev.draining ds.base = true → 0 < s.dev.elasticFree → s.dev.reencOf ds.base = none →
      takeFrame s.dev.draining s.dev.ted.free = some (f, l) → f ≠ ds.base → ∃ d : Dev,
      exec (.relocation (.table field) bad) s = .next (s.finish d) ∧ d.ted.useOf f = some (.table field) ∧
      d.ted.useOf ds.base = none ∧ d.ted.moves = s.dev.ted.moves) ∧
    (∀ t r,
      (¬ (∃ g, s.dev.sheafMapOf t r = some g ∧ s.dev.draining g = true ∧ 0 < s.dev.elasticFree ∧ s.dev.reencOf g = none ∧
        (takeFrame s.dev.draining s.dev.ted.free).isSome = true) → alone (.relocation (.sheafMap t r) bad)) ∧
      (∀ g f l, s.dev.sheafMapOf t r = some g → s.dev.draining g = true → 0 < s.dev.elasticFree → s.dev.reencOf g = none →
        takeFrame s.dev.draining s.dev.ted.free = some (f, l) → f ≠ g → ∃ d : Dev,
        exec (.relocation (.sheafMap t r) bad) s = .next (s.finish d) ∧ d.ted.useOf f = some (.sheafMap t r) ∧
        d.ted.useOf g = none ∧ d.ted.moves = s.dev.ted.moves)) ∧
    (let drain := s.dev.draining e.frame
     let asked := (drain = true ∧ s.dev.move page = none) ∨ ∃ x, s.dev.move page = some x ∧ x.kind = .fallowMove ∧ x.phase = .queued
     let d0 := s.dev.mendCtr s.dram e.frame
     (¬ asked ∨ (drain = true ∧ s.dev.nextWaits = true) → alone (.fallowMove page bad)) ∧
     (asked → (drain = true → s.dev.nextWaits = false) → ¬ (s.dev.livePage page ∧ e.state = 2 ∧ e.fctr ≠ 63) →
       exec (.fallowMove page bad) s = .next (s.finish (s.dev.dropMove page))) ∧
     (∀ d2 ls f soff d3, asked → (drain = true → s.dev.nextWaits = false) → s.dev.livePage page → e.state = 2 → e.fctr ≠ 63 →
       d0.readLines s.dram (d0.ldDom ((d0.ldOfField field).getD 0)) page (e.frame * 4096 + e.soff * 256)
         (4 * e.scnt) (some (e.frame * 4096 + e.soff * 256, e.soff, e.fctr)) bad = some (d2, ls) → (ls.headD (0, 0)).2 ≠ 2 →
       (let fuller (g : Nat) : Bool := g != e.frame && (drain ||
          decide (usedSheaves (d2.sheafOcc (field % 4) e.frame) < usedSheaves (d2.sheafOcc (field % 4) g)))
        (drain = false → (d2.sheafFit s.dram (field % 4) e.scnt fuller).isSome = true) ∧
        d2.takeSheaves s.dram (field % 4) e.scnt page .elasticMove fuller = some (f, soff, d3)) → ∃ d : Dev,
       exec (.fallowMove page bad) s = .next (s.finish d) ∧ ∃ q ∈ d.ted.moves, q.page = page ∧ q.kind = .fallowMove ∧
         q.phase = .ready ∧ q.frame = f ∧ q.soff = soff ∧ q.scnt = e.scnt ∧ q.entry = e.num)) ∧
    ((∀ x, s.dev.move page = some x → x.phase ≠ .ready ∨ s.dev.mapRoom x.ted (s.dev.pmeSa field (page % 512)) = false) →
      alone (.tedderMoveCommit page)) ∧
    (∀ x, s.dev.move page = some x → x.phase = .ready → s.dev.mapRoom x.ted (s.dev.pmeSa field (page % 512)) = true →
      x.frame < 2 ^ 36 → x.soff < 16 → x.scnt < 16 → x.tsel < 8 → x.pgc < 32 →
      let old := pmeOf x.entry
      let base := s.dev.livePage page ∧ e.sameStorage old = true ∧ s.dev.ldKeyId x.ld = x.key
      let still := s.dev.unsentTo old.frame = false ∧ s.dev.sameCounters s.dram old.frame x.snap = true
      ∃ d : Dev, exec (.tedderMoveCommit page) s = .next (s.finish d) ∧ d.ted.moves = s.dev.ted.moves.filter (·.page != page) ∧
        (s.dev.tableApart page old.frame →
          (x.kind = .relocate → base → still → s.dev.pageBusy page = false →
            d.pageEntry page = { e with frame := x.frame }) ∧
          (x.kind = .demote → base → still → s.dev.pageValid page = false →
            (x.target = .bare → d.pageEntry page = e.toState 0) ∧ (x.target = .poisoned → d.pageEntry page = e.toState 3) ∧
            (x.target = .fallow → d.pageEntry page =
              { state := 2, frame := x.frame, soff := x.soff, scnt := x.scnt, tsel := x.tsel, pgc := x.pgc, hot := e.hot,
                fctr := (e.fctr + 1) % 64 })) ∧
          ((∀ p ∈ s.dev.ted.uses, (∃ t r, p.2 = .sheafMap t r) → s.dev.tableApart page p.1) →
            x.kind = .fallowMove → base → s.dev.pageBusy page = false →
            d.pageEntry page = { e with frame := x.frame, soff := x.soff, scnt := x.scnt, fctr := (e.fctr + 1) % 64 })) ∧
        (x.kind = .relocate → ¬ base → s.dev.tableApart page x.frame → d.pageEntry page = e) ∧
        (x.kind = .demote → ¬ base → x.target ≠ .fallow → d.pageEntry page = e))

/-- POOL_ENABLE of a range that passes the tests of R167 sets EN, puts its frames at the end of the free list and adds them to F; of one that fails it sets ERR. POOL_DRAIN of an enabled range sets DRAIN, or ERR where the other ranges would not hold what R170 asks for. POOL_DRAINED sets DRAINED of a draining range that has no frame in use, and else does nothing. POOL_DISABLE of a drained range clears EN, DRAIN and DRAINED and takes its frames off the list. Of a range that is as asked already, or that is not enabled, POOL_ENABLE, POOL_DRAIN and POOL_DISABLE do nothing. WATERMARK_WRITE sets all watermarks where they are in order, else none of them and ERR. RELEASE_REQUEST_INTERVAL does nothing outside release mode, and in it names the extents of an LD over its quota. -/
def Obligations.PoolAndWatermarks : Prop :=
  ∀ (s : State) (k : Nat), s.up = true → k < 16 →
    let r : Reg := .tedPool k
    let a := (s.dev.poolSpan k).1
    let len := (s.dev.poolSpan k).2
    let fits := 0 < len ∧ s.dev.covered a len = true ∧
      (∀ j < 16, j ≠ k → s.dev.poolEn j = true → overlaps a len (s.dev.poolSpan j).1 (s.dev.poolSpan j).2 = false) ∧
      overlaps a len s.dev.ftab (2 ^ 30) = false ∧
      (∀ n < 16, s.dev.winEn n = true → overlaps a len (s.dev.flatRange n).1 (s.dev.flatRange n).2 = false) ∧
      s.dev.hitsCounters a len = false
    (s.reaches r → (s.dev.poolEn k = true → exec (.poolEnable k) s = .next (s.settle s.dev)) ∧
      (s.dev.poolEn k = false → exec (.poolDisable k) s = .next (s.settle s.dev)) ∧
      (s.dev.poolEn k = false ∨ s.dev.flag r F.tedPool_DRAIN = true → exec (.poolDrain k) s = .next (s.settle s.dev))) ∧
    (s.reaches r → s.dev.poolEn k = false →
      (fits → s.dev.freeFrames + len / 4096 < 2 ^ 64 → ∃ d : Dev, exec (.poolEnable k) s = .next (s.settle d) ∧ d.poolEn k = true ∧
        d.flag r F.tedPool_DRAINED = false ∧ d.ted.free = s.dev.ted.free ++ [(a / 4096, len / 4096)] ∧
        d.freeFrames = s.dev.freeFrames + len / 4096 ∧ s.dev.keepsRegs d [r, .tedPoolFree, .tedPoolResv, .tedPoolStat]) ∧
      (¬ fits → ∃ d : Dev, exec (.poolEnable k) s = .next (s.settle d) ∧ d.poolEn k = false ∧ d.flag r F.tedPool_ERR = true ∧
        s.dev.keepsRegs d [r] ∧ d.ted = s.dev.ted)) ∧
    (s.reaches r → s.dev.poolEn k = true → s.dev.flag r F.tedPool_DRAIN = false →
      let need := (((List.range 16).filter s.dev.winEn).map fun n =>
        (if s.dev.flag (.tedLdcap n) F.tedLdcap_TIERED then 513 * s.dev.fld (.tedLdcap n) F.tedLdcap_COMMIT else 0) +
          s.dev.quotaFrames n).sum
      let rest := s.dev.poolFrames ((List.range 16).filter fun j => j != k && !s.dev.flag (.tedPool j) F.tedPool_DRAIN)
      ∃ d : Dev, exec (.poolDrain k) s = .next (s.settle d) ∧ s.dev.keepsRegs d [r] ∧ d.ted = s.dev.ted ∧
        d.flag r F.tedPool_DRAIN = decide (need ≤ rest) ∧ (rest < need → d.flag r F.tedPool_ERR = true)) ∧
    (let used := ∃ p ∈ s.dev.ted.uses, a / 4096 ≤ p.1 ∧ p.1 < a / 4096 + len / 4096
     let due := s.dev.poolEn k = true ∧ s.dev.flag r F.tedPool_DRAIN = true ∧ s.dev.flag r F.tedPool_DRAINED = false ∧ ¬ used
     (due → ∃ d : Dev, exec (.poolDrained k) s = .next (s.settle d) ∧ d.flag r F.tedPool_DRAINED = true ∧
       s.dev.keepsRegs d [r] ∧ d.ted = s.dev.ted) ∧
     (¬ due → exec (.poolDrained k) s = .next (s.settle s.dev))) ∧
    (s.reaches r → s.dev.poolEn k = true →
      (s.dev.flag r F.tedPool_DRAINED = true → ∃ d : Dev, exec (.poolDisable k) s = .next (s.settle d) ∧ d.poolEn k = false ∧
        d.flag r F.tedPool_DRAIN = false ∧ d.flag r F.tedPool_DRAINED = false ∧
        d.ted.free = s.dev.ted.free.filter (fun f => !(decide (a / 4096 ≤ f.1) && decide (f.1 < (a + len) / 4096))) ∧
        s.dev.keepsRegs d [r, .tedPoolFree, .tedPoolResv, .tedPoolStat]) ∧
      (s.dev.flag r F.tedPool_DRAINED = false → ∃ d : Dev, exec (.poolDisable k) s = .next (s.settle d) ∧ d.poolEn k = true ∧
        d.flag r F.tedPool_ERR = true ∧ s.dev.keepsRegs d [r] ∧ d.ted = s.dev.ted)) ∧
    (∀ v, v < 2 ^ 64 → s.reaches .tedWm →
      let ordered := bitsOf v 15 0 < bitsOf v 31 16 ∧ bitsOf v 31 16 < bitsOf v 47 32
      ∃ d : Dev, exec (.watermarkWrite v) s = .next (s.settle d) ∧ s.dev.keepsRegs d [.tedWm, .tedPoolStat] ∧
        (ordered → ∀ f ∈ [F.tedWm_FLOOR, F.tedWm_REL, F.tedWm_LOW, F.tedWm_HYST], d.fld .tedWm f = bitsOf v f.hi f.lo) ∧
        (¬ ordered → d.flag .tedWm F.tedWm_ERR = true ∧
          ∀ f ∈ [F.tedWm_FLOOR, F.tedWm_REL, F.tedWm_LOW, F.tedWm_HYST], d.fld .tedWm f = s.dev.fld .tedWm f)) ∧
    (s.dev.relMode = false → exec .releaseRequestInterval s = .next (s.settle s.dev)) ∧
    (s.dev.relMode = true → s.dev.elasticFree < wmFrames (s.dev.fld .tedWm F.tedWm_LOW) →
      (∀ n < 16, n ≠ k → s.dev.foot n ≤ 16 * s.dev.quotaFrames n) → 16 * s.dev.quotaFrames k < s.dev.foot k →
      ∀ x, (s.dev.extents k).getLast? = some x → (kvGet (fun _ => []) s.dev.logs.recs (k * 5 + 4)).length < 256 → ∃ d : Dev,
        exec .releaseRequestInterval s = .next (s.settle d) ∧ d.regs = s.dev.regs ∧ d.hp = s.dev.hp ∧
        ∃ y ∈ kvGet (fun _ => []) d.logs.recs (k * 5 + 4), y.kind = .releaseCapacity ∧ y.addr0 = x.first * 2 ^ 21 ∧
          y.addr1 = x.fields * 2 ^ 21 ∧ y.detail = x.tag)

/-- BALER_JOB_WAIT_DISPATCH hands the waiting job that goes next to a baler that can take it. BALER_JOB_START starts, on a baler that is not faulted and runs no decode, a waiting job of the first class that has one; beside a compression only a decode. BALER_JOB_COMPLETE ends the job that the baler works on and returns its lines, or the compressed page. BALER_FAULT marks a baler that runs a job as faulted and leaves it no job; BALER_RESET clears the mark. BAL_EN_WRITE is refused where no baler would be left. COUNTER_LINE_MERGE takes the oldest copy written back, and writes it over its stored counter line. REENCRYPTION_ENTRY_FREE lets the oldest waiting write of a partition with a free entry go on; REENCRYPTION_COMPLETE frees the entry. ERASE_SWEEP_COMPLETE clears SWEEP once no re-encryption runs in the window. CHANNEL_READ_RETURN gives the codeword to the access that waits for it, WRITE_ACCEPTANCE ends the write that waits, and each sends what a member's dealer waits for back to it. Each that finds nothing to act on does nothing. -/
def Obligations.BalersAndCipher : Prop :=
  ∀ (s : State) (b : Nat), s.up = true → b < 32 →
    let alone (c : Instr) : Prop := exec c s = .next (s.finish s.dev)
    (s.dev.nextWaiting [] s.dev.bal.jobs = none → alone .balerJobWaitDispatch) ∧
    (∀ j x, s.dev.nextWaiting [] s.dev.bal.jobs = some (j, x) → j ∈ s.dev.bal.jobs ∧ j.baler = none ∧ s.dev.balPick j.q j.cls = some x ∧
      exec .balerJobWaitDispatch s = .next (s.finish (s.dev.modBal fun y =>
        { y with jobs := y.jobs.filter (·.id != j.id) ++ [{ j with baler := some x }] }))) ∧
    (let mine := s.dev.bal.jobs.filter fun j => j.baler == some b
     let runs := mine.filter (·.started)
     let ready := mine.filter fun j => !j.started && (runs.isEmpty || j.cls != .compression)
     let stuck := s.dev.balFaulted b = true ∨ (∃ j ∈ runs, j.cls ≠ .compression) ∨ ready = []
     (stuck → alone (.balerJobStart b)) ∧
     (¬ stuck → ∃ j ∈ ready, (∀ k ∈ ready, j.cls.rank ≤ k.cls.rank) ∧ ∃ d : Dev, exec (.balerJobStart b) s = .next (s.finish d) ∧
       d.bal.jobs = s.dev.bal.jobs.map (fun k => if k.id = j.id then { k with started := true } else k) ∧
       d.bal.done = s.dev.bal.done ∧ d.regs = s.dev.regs ∧ d.ted = s.dev.ted ∧ d.home = s.dev.home)) ∧
    (s.dev.jobNow b = none → alone (.balerJobComplete b)) ∧
    (∀ j, s.dev.jobNow b = some j → ∃ d res,
      exec (.balerJobComplete b) s = .next (s.finish d) ∧ d.bal.jobs = s.dev.bal.jobs.filter (·.id != j.id) ∧
      d.bal.done = s.dev.bal.done ++ [(j.why, res)] ∧ d.regs = s.dev.regs ∧
      (j.cls = .readDecode → ∃ l, res = .lines [l] ∧ ∀ x, decodeSwath j.bytes j.poison j.scnt (j.line / 16) = .ok x → j.line % 16 < x.length →
        ∃ v, x[j.line % 16]? = some v ∧ l = (BitVec.ofNat 512 v, false)) ∧
      (j.cls = .promoDecode → ∃ ls, res = .lines ls ∧ ∀ k < 4, ∀ e, decodeSwath j.bytes j.poison j.scnt k = .error e →
        (∀ m < 4, m < k → ∃ x, decodeSwath j.bytes j.poison j.scnt m = .ok x ∧ x.length = 16) →
        ∀ i < 16, ls[16 * k + i]? = some (0, true)) ∧
      (j.cls = .compression → ∀ f, compressPage ((List.range 64).map fun i => ofBytes ((j.bytes.drop (64 * i)).take 64)) j.cpol j.thresh
        j.budget j.pgc j.low = some f → res = .form f.bytes f.scnt f.tsel f.pgc)) ∧
    (∀ n, n < 4 →
      let runs := ∃ j ∈ s.dev.bal.jobs, j.baler = some b ∧ j.started = true
      (¬ runs ∨ s.dev.balFaulted b = true → alone (.balerFault b n)) ∧
      (runs → s.dev.balFaulted b = false → ∃ d : Dev,
        exec (.balerFault b n) s = .next (s.finish d) ∧ d.balFaulted b = true ∧ s.dev.keepsRegs d [.balFault] ∧
        ∀ j ∈ d.bal.jobs, j.baler ≠ some b)) ∧
    (s.reaches .balFault → ∃ d : Dev, exec (.balerReset b) s = .next (s.finish d) ∧ d.balFaulted b = false ∧
      s.dev.keepsRegs d [.balFault] ∧ d.bal = s.dev.bal ∧ ∀ k < 32, k ≠ b → d.balFaulted k = s.dev.balFaulted k) ∧
    (∀ v, v < 2 ^ 32 → s.reaches .balEn → let left := ∃ k < 32, bitOf v k = true ∧ s.dev.balFaulted k = false
      (left → ∃ d : Dev, exec (.balEnWrite v) s = .next (s.finish d) ∧ d.rd .balEn = v ∧ s.dev.keepsRegs d [.balEn] ∧
        d.bal = s.dev.bal) ∧
      (¬ left → ∃ d : Dev, exec (.balEnWrite v) s = .next (s.finish d) ∧ d.flag .balStat F.balStat_ERR = true ∧
        s.dev.keepsRegs d [.balStat])) ∧
    (s.dev.cip.merges = [] → alone .counterLineMerge) ∧
    (∀ x rest c,
      let d := (s.dev.modCip fun y => { y with merges := rest }).count .ctrMerge x.q
      s.dev.cip.merges = x :: rest → d.storedCtr s.dram x.frame = .ok c →
      exec .counterLineMerge s = .next (s.finish ((d.noteCtr s.dram x.frame).writeCtr x.frame (x.over c)))) ∧
    (∀ q, q < 4 →
      let next := s.dev.cip.accs.find? fun a => a.parked && s.dev.frameOwner (a.sa / 4096) == q
      (16 ≤ s.dev.reencUsed q ∨ next = none → alone (.reencryptionEntryFree q)) ∧
      (∀ a, s.dev.reencUsed q < 16 → next = some a →
        exec (.reencryptionEntryFree q) s = .next (s.finish (s.dev.modAcc a.id fun x => { x with parked := false })))) ∧
    (∀ frame, frame < 2 ^ 36 → (s.dev.reencOf frame = none → alone (.reencryptionComplete frame)) ∧
      (∀ r, s.dev.reencOf frame = some r → ∃ d : Dev,
        exec (.reencryptionComplete frame) s = .next (s.finish d) ∧ d.reencOf frame = none ∧
        (∀ f, f ≠ frame → d.reencOf f = s.dev.reencOf f) ∧ d.bal = s.dev.bal ∧ d.ted = s.dev.ted)) ∧
    (∀ n, n < 16 →
      let busy := s.dev.winEn n = true ∧ (s.dev.jobIn fun f =>
        decide (s.dev.winBase n ≤ f) && decide (f < s.dev.winBase n + s.dev.winFields n)) = true
      (s.dev.flag (.cipLdkey n) F.cipLdkey_SWEEP = false ∨ busy → alone (.eraseSweepComplete n)) ∧
      (s.dev.flag (.cipLdkey n) F.cipLdkey_SWEEP = true → ¬ busy → ∃ d : Dev,
        exec (.eraseSweepComplete n) s = .next (s.finish d) ∧ d.flag (.cipLdkey n) F.cipLdkey_SWEEP = false ∧
        d.ldKgen n = s.dev.ldKgen n ∧ d.hp = s.dev.hp ∧ d.cip.ldKey = s.dev.cip.ldKey ∧
        (s.dev.winEn n = false → s.dev.keepsRegs d [.cipLdkey n] ∧ d.ted = s.dev.ted))) ∧
    (∀ c, c < 24 →
      let took (rest : List ChRet) : Dev := s.dev.modChn c fun ch => { ch with rets := rest }
      (∀ id o rest, (s.dev.chn c).rets = .read (.acc id) o :: rest →
        exec (.channelReadReturn c) s = .next (s.finish ((took rest).readBack id o)) ∧ alone (.writeAcceptance c)) ∧
      (∀ id rest, (s.dev.chn c).rets = .accepted (.acc id) :: rest →
        exec (.writeAcceptance c) s = .next (s.finish ((took rest).writeBack id)) ∧ alone (.channelReadReturn c)) ∧
      (∀ u o rest, (∀ id, u ≠ .acc id) → (s.dev.chn c).rets = .read u o :: rest →
        exec (.channelReadReturn c) s = .next (s.finish ((took rest).leyReturn c (.read u o))) ∧ alone (.writeAcceptance c)) ∧
      (∀ u rest, (∀ id, u ≠ .acc id) → (s.dev.chn c).rets = .accepted u :: rest →
        exec (.writeAcceptance c) s = .next (s.finish ((took rest).leyReturn c (.accepted u))) ∧ alone (.channelReadReturn c)) ∧
      (∀ u rest, (s.dev.chn c).rets = .notServed u :: rest →
        exec (.channelReadReturn c) s = .next (s.finish ((took rest).leyReturn c (.notServed u))) ∧ alone (.writeAcceptance c)) ∧
      ((s.dev.chn c).rets = [] → alone (.channelReadReturn c) ∧ alone (.writeAcceptance c)))

/-- CHANNEL_COMMAND_ENTRY moves the oldest entry of the crossing to the end of the queue that it is steered to, accepts a write there, refuses one that DRAM does not serve, and leaves one without room with the overrun flag set. COMMAND_ISSUE issues the first command in the order of Table 9.10 that the timing allows: with nothing more urgent the column command of the oldest row hit, where one that carries a write puts the encoded line into the DRAM and a read captures what the DRAM holds; with no refresh forced the maintenance command that waits. CODEWORD_READ decodes the oldest burst with the bus errors that it met and returns it to whom it is for, and counts a corrected or uncorrectable one. PAGE_IDLE_TIMEOUT closes a row that no entry wants. REFRESH_DUE forces a rank's refresh on both subchannels. SCRUB_READ and SPARE_COPY_READ read the next line and move on. NRF_RESEED takes a TRNG word or sets RESEED_MISS. ECC_WINDOW_END returns the counts to zero. POWER_DOWN_ENTRY powers an idle rank down. ZQ_CALIBRATION and DQS_OSCILLATOR_READ put their commands behind those that wait. Each that finds nothing to act on does nothing. -/
def Obligations.ChannelTraffic : Prop :=
  ∀ (s : State) (c i : Nat), s.up = true → c < 24 → i < 2 → c < s.dev.chan.length → (s.dev.chn c).subs.length = 2 →
    let ch := s.dev.chn c
    let sub := ch.sub i
    let st := s.dev.chState c
    let alone (x : Instr) : Prop := exec x s = .next (s.settle s.dev)
    (ch.cmds = [] → alone (.channelCommandEntry c)) ∧
    (∀ e rest, ch.cmds = e :: rest →
      let popped := s.dev.modChn c fun ch => { ch with cmds := rest }
      (st ≠ 3 → st ≠ 7 → exec (.channelCommandEntry c) s = .next (s.settle (popped.refuseEntry c e))) ∧
      (st = 3 ∨ st = 7 → s.dev.steer c e = [] → exec (.channelCommandEntry c) s = .next (s.settle (popped.refuseEntry c e))) ∧
      (∀ id, e.use = .acc id → popped.refuseEntry c e =
        popped.pushRet c (if e.write then .accepted e.use else .read e.use (.uncorrectable { data := 0, md := 0 }))) ∧
      (∀ x, st = 3 ∨ st = 7 → s.dev.steer c e = [x] → x.sub < 2 →
        (∀ k, (if e.write then (ch.sub k).wrq else (ch.sub k).rdq).length ≤ 64) →
        let q := if e.write then (ch.sub x.sub).wrq else (ch.sub x.sub).rdq
        (q.length < 64 → ∃ d : Dev, exec (.channelCommandEntry c) s = .next (s.settle d) ∧ (d.chn c).cmds = rest ∧
          (e.write = false → ((d.chn c).sub x.sub).rdq = q ++ [{ x with id := ch.nextId }] ∧ (d.chn c).rets = ch.rets) ∧
          (e.write = true → ((d.chn c).sub x.sub).wrq = q ++ [{ x with id := ch.nextId }]) ∧
          (∀ id, e.write = true → e.use = .acc id → (d.chn c).rets = ch.rets ++ [.accepted e.use]) ∧
          s.dev.keepsRegs d [.chnSpareCp c, .crossChn c]) ∧
        (64 ≤ q.length → exec (.channelCommandEntry c) s = .next (s.settle (s.dev.setCross (.crossChn c) 1))))) ∧
    (∀ held, (∀ k ∈ held, k < 2 ^ 15) →
      let runs := st = 3 ∧ ch.fchg = .idle
      let calm := ch.refForced = [] ∧ ∀ x ∈ sub.queued, s.dev.rankState c x.rank ≠ 6
      (¬ runs ∨ s.dev.selectCmd c i held = none → alone (.commandIssue c i held)) ∧
      (∀ a, runs → s.dev.selectCmd c i held = some a →
        exec (.commandIssue c i held) s = .next (s.settle (s.dev.issue s.dram c i a))) ∧
      (∀ m rest, calm → ch.maint = m :: rest → i ∈ m.left → s.dev.poweredDown c m.rank = false →
        let a : ChAct := if m.zq then .zqCal m.rank else .mrr m.rank
        (∀ k, a.code = some k → k ∉ held) → s.dev.selectCmd c i held = some a ∧
        (s.dev.issue s.dram c i a).out =
          s.dev.out ++ [.dimm c i (if m.zq then .zqCal m.rank else .mrr m.rank)]) ∧
      (∀ e pre post, calm → ch.ref.running = false → s.dev.rfmOn c = false → sub.nrq = [] → ch.maint = [] → sub.inOrder = [] →
        (if sub.drain then sub.wrq else sub.rdq) = pre ++ e :: post →
        (pre ++ e :: post).Pairwise (fun x y => x.id < y.id) →
        (∀ x ∈ sub.queued, x.age < s.dev.ageMax c ∧ s.dev.poweredDown c x.rank = false) →
        sub.openRow e.bank = some e.row → (∀ x ∈ pre, sub.openRow x.bank ≠ some x.row) →
        e.bank * 16 + (if e.write then 3 else 2) ∉ held → s.dev.selectCmd c i held = some (.col e))) ∧
    (∀ e, ch.failing = [] → ch.scrubEnd = false → sub.restore = [] →
      let col := ((s.dev.amap c).coord (e.ca / 64)).col * 16
      let d := s.dev.issue s.dram c i (.col e)
      (e.write = true → d.out = s.dev.out ++ [.dimm c i (.wr e.bank col
          (BitVec.ofNat 640 (burstOf (s.dev.isX8 c) (encode e.data).toNat)))] ∧
        d.bulk = (s.dev.lineWrite c e.rank e.line (encode e.data)).bulk) ∧
      (e.write = false → d.out = s.dev.out ++ [.dimm c i (.rd e.bank col)] ∧ d.bulk = s.dev.bulk ∧
        ((d.chn c).sub i).flight = sub.flight ++ [{ e with cap := s.dev.lineRead s.dram c e.rank e.line }]) ∧
      (∀ x ∈ ((d.chn c).sub i).queued, x.id ≠ e.id)) ∧
    (∀ bank, (sub.openRow bank = none → alone (.pageIdleTimeout c i bank)) ∧
      (∀ row, sub.openRow bank = some row →
        ((∀ x ∈ sub.queued, ¬ (x.bank = bank ∧ x.row = row)) → ∃ d : Dev,
          exec (.pageIdleTimeout c i bank) s = .next (s.settle d) ∧ ((d.chn c).sub i).openRow bank = none ∧
          d.out = s.dev.out ++ [.dimm c i (.pre bank)] ∧ d.regs = s.dev.regs) ∧
        ((∃ x ∈ sub.queued, x.bank = bank ∧ x.row = row) → alone (.pageIdleTimeout c i bank)))) ∧
    (∀ r, r < 8 → (st ≠ 3 ∨ r ∉ s.dev.refreshedRanks c → alone (.refreshDue c r)) ∧
      (st = 3 → r ∈ s.dev.refreshedRanks c → ∃ d : Dev, exec (.refreshDue c r) s = .next (s.settle d) ∧
        (∀ k ∈ [r, 8 + r], k ∈ ch.refDone ∨ ∃ n, (k, n) ∈ (d.chn c).refForced) ∧ (∀ p ∈ ch.refForced, p ∈ (d.chn c).refForced) ∧
        d.regs = s.dev.regs ∧ d.out = s.dev.out)) ∧
    (∀ err, (sub.flight = [] → alone (.codewordRead c i err)) ∧
      (∀ e rest, sub.flight = e :: rest →
        let o := decodeWord (s.dev.isX8 c) (if err = 0 then e.cap else e.cap ^^^ BitVec.ofNat 640 (unburst (s.dev.isX8 c) err.toNat))
        let d0 := s.dev.modChn c fun ch => ch.modSub i fun y => { y with flight := rest }
        let d := if s.dev.codewordIgnored s.dram c i then d0 else d0.burstNoted c i e o
        exec (.codewordRead c i err) s = .next (s.settle (match e.use with
          | .scrub => d.scrubSettle c
          | .copyRead k => d.copySettle c k e o
          | .acc _ | .ley .. => d.pushRet c (.read e.use o)
          | _ => d)) ∧
        (e.rank < 8 →
          (∀ p, o = .clean p → (d0.burstNoted c i e o).regs = s.dev.regs ∧ (d0.burstNoted c i e o).out = s.dev.out) ∧
          (∀ p v, o = .corrected p v → (d0.burstNoted c i e o).fld (.chnEccRank c e.rank) F.chnEccRank_CE =
            min (s.dev.fld (.chnEccRank c e.rank) F.chnEccRank_CE + 1) 65535) ∧
          (∀ p, o = .uncorrectable p → (d0.burstNoted c i e o).fld (.chnEccRank c e.rank) F.chnEccRank_UE =
            min (s.dev.fld (.chnEccRank c e.rank) F.chnEccRank_UE + 1) 255)))) ∧
    (let at_ := s.dev.scrubFrom c (s.dev.fld (.chnScrubPos c) F.chnScrubPos_RANK) (s.dev.fld (.chnScrubPos c) F.chnScrubPos_LINE)
     let waits := s.dev.flag (.chnScrub c) F.chnScrub_EN = false ∨ st ≠ 3 ∨ ch.scrubEnd = true ∨ s.dev.nowNs < ch.scrub.start
     (waits → alone (.scrubRead c)) ∧
     (¬ waits → at_ = none → exec (.scrubRead c) s =
       .next (s.settle ((s.dev.modChn c fun ch => { ch with scrubEnd := true }).scrubCheck c))) ∧
     (∀ lr line x, ¬ waits → at_ = some (lr, line) →
       s.dev.steer c { write := false, ca := (lr <<< (s.dev.amap c).rankBits ||| line) * 64, use := .scrub, src := .scrub } = [x] →
       x.sub < 2 →
       let room := ((ch.sub x.sub).rdq ++ (ch.sub x.sub).flight).countP (fun y => y.use == .scrub) < 4 ∧ (ch.sub x.sub).rdq.length < 64
       (¬ room → alone (.scrubRead c)) ∧
       (room → ∃ d : Dev, exec (.scrubRead c) s = .next (s.settle d) ∧ (d.chn c).scrubOut = ch.scrubOut + 1 ∧
         ((d.chn c).sub x.sub).rdq = (ch.sub x.sub).rdq ++ [{ x with id := ch.nextId }] ∧ s.dev.keepsRegs d [.chnScrubPos c] ∧
         (∀ p, s.dev.scrubFrom c lr (line + 1) = some p → p.2 < 2 ^ 33 → d.fld (.chnScrubPos c) F.chnScrubPos_LINE = p.2 ∧
           d.fld (.chnScrubPos c) F.chnScrubPos_RANK = p.1) ∧
         (s.dev.scrubFrom c lr (line + 1) = none → (d.chn c).scrubEnd = true)))) ∧
    (let copies := (s.dev.rankIn c 3).isSome = true ∧ s.dev.spareState c = 1 ∧ st = 3 ∧ ch.copyEnded = false ∧
       ch.copyNext < s.dev.rankLines c ∧ ch.copyNext < s.dev.copyPtr c + 64
     (¬ copies → alone (.spareCopyRead c)) ∧
     (copies → (∀ k, (ch.sub k).rdq.length < 64) → ∃ d : Dev,
       exec (.spareCopyRead c) s = .next (s.settle d) ∧ (d.chn c).copyNext = ch.copyNext + 1 ∧
       (d.chn c).copyWin = ch.copyWin ++ [(ch.copyNext, false)] ∧ d.regs = s.dev.regs ∧ d.out = s.dev.out)) ∧
    (∃ d : Dev, exec (.nrfReseed c true) s = .next (s.settle d) ∧ (d.chn c).genWord = s.dev.cip.drawn ∧ (d.chn c).genDraws = 0 ∧
      d.cip.drawn = s.dev.cip.drawn + 1 ∧ d.regs = s.dev.regs) ∧
    (∃ d : Dev, exec (.nrfReseed c false) s = .next (s.settle d) ∧ d.flag (.chnNrfstat c) F.chnNrfstat_RESEED_MISS = true ∧
      s.dev.keepsRegs d [.chnNrfstat c] ∧ d.chan = s.dev.chan) ∧
    (∃ d : Dev, exec (.eccWindowEnd c) s = .next (s.settle d) ∧ (d.chn c).devCe = [] ∧ s.dev.keepsRegs d ((List.range 8).map (Reg.chnEccRank c)) ∧
      ∀ r < 8, d.fld (.chnEccRank c r) F.chnEccRank_CE = 0 ∧ d.fld (.chnEccRank c r) F.chnEccRank_UE = 0 ∧
        d.fld (.chnEccRank c r) F.chnEccRank_DEV = 15) ∧
    (∀ r, r < 8 →
      (s.dev.flag (.chnPwr c) F.chnPwr_PD_EN = false ∨ st ≠ 3 ∨ r ∉ s.dev.refreshedRanks c ∨ s.dev.poweredDown c r = true →
        alone (.powerDownEntry c r)) ∧
      (s.dev.flag (.chnPwr c) F.chnPwr_PD_EN = true → st = 3 → r ∈ s.dev.refreshedRanks c → s.dev.poweredDown c r = false →
        s.dev.rfmOn c = false →
        (∀ x ∈ ch.subs, x.nrq = [] ∧ x.nrOpen = none ∧ (∀ y ∈ x.queued, y.rank ≠ r) ∧ ∀ y ∈ x.rows, rankOfKey y.1 ≠ r) →
        (∀ k ∈ ch.refForced, k.1 % 8 ≠ r) → (∀ m ∈ ch.maint, m.rank ≠ r) → ∃ d : Dev,
        exec (.powerDownEntry c r) s = .next (s.settle d) ∧ d.poweredDown c r = true ∧
        d.out = s.dev.out ++ [.dimm c 0 (.pde r), .dimm c 1 (.pde r)] ∧ s.dev.keepsRegs d [.chnPwrstat c])) ∧
    (let asked (ms : List Maint) : State := s.settle (s.dev.modChn c fun ch =>
       { ch with maint := ch.maint ++ ms.filter fun m => !ch.maint.contains m })
     (∀ k, k < 2 → (st = 3 → exec (.zqCalibration c k) s = .next (asked
         (((s.dev.liveRanks c).filter fun r => r / 4 == k).map fun r => { zq := true, rank := r }))) ∧
       (st ≠ 3 → alone (.zqCalibration c k))) ∧
     (∀ r, r < 8 → (st = 3 → s.dev.rankState c r ≠ 0 → s.dev.rankState c r ≠ 5 →
         exec (.dqsOscillatorRead c r) s = .next (asked [{ zq := false, rank := r }])) ∧
       (st ≠ 3 → alone (.dqsOscillatorRead c r))))

/-- CHANNEL_TRAINING_COMPLETE brings a training channel with wide enough eyes and the SPD's geometry into service at its rate, fails one with another geometry with REASON 8, and lets one with narrow eyes leave the stored path, or fall back by one rate, or fail with REASON 6. TRAINING_RECORD_WRITE stores the record that is due. DIMM_THERMAL_READ sets TEMP by the hotter module, unless the controller restarts; SIDEBAND_ERROR writes its record; PMIC_FAULT takes a channel in service to STATE 6 with empty queues. SPARE_START starts a copy of SRC onto the spare or sets ERR; SPARE_COPY_COMPLETE, once CP has passed the last line, puts the spare in the source's place and FAILED on the source. RANK_RETIRE retires SRC or sets ERR. FREQUENCY_CHANGE takes the channel to self-refresh or sets ERR with its CAUSE; FREQUENCY_CHANGE_CHECK ends the change in the new set, turns it back, ends the return, or fails the channel. Each that finds nothing to act on does nothing. -/
def Obligations.ChannelStates : Prop :=
  ∀ (s : State) (c : Nat), s.up = true → c < 24 → c < s.dev.chan.length →
    let ch := s.dev.chn c
    let st := s.dev.chState c
    let rate := s.dev.fld (.chnStat c) F.chnStat_RATE
    let src := s.dev.fld (.chnSpare c) F.chnSpare_SRC
    let reason (d : Dev) : Nat := d.fld (.chnStat c) F.chnStat_REASON
    let alone (x : Instr) : Prop := exec x s = .next (s.settle s.dev)
    (∀ rd wr turn turnAlt, rd < 256 → wr < 256 →
      (st ≠ 2 → ∀ g, alone (.channelTrainingComplete c rd wr g turn turnAlt)) ∧
      (st = 2 →
        (∃ d : Dev, exec (.channelTrainingComplete c rd wr false turn turnAlt) s = .next (s.settle d) ∧ d.chState c = 5 ∧
          reason d = 8 ∧ s.dev.keepsRegs d [.chnStat c, .chnTrain c]) ∧
        (26 ≤ rd → 26 ≤ wr → ∃ d : Dev, exec (.channelTrainingComplete c rd wr true turn turnAlt) s = .next (s.settle d) ∧
          d.chState c = 3 ∧ d.fld (.chnStat c) F.chnStat_RATE = rate ∧ d.flag (.chnTrain c) F.chnTrain_DONE = true ∧
          d.fld (.chnTrain c) F.chnTrain_TRATE = rate ∧ d.fld (.chnTrain c) F.chnTrain_RDEYE = rd ∧
          d.fld (.chnTrain c) F.chnTrain_WREYE = wr ∧ d.activeSet c = 0 ∧ (d.chn c).recordDue = !ch.storedPath) ∧
        (rd < 26 ∨ wr < 26 → ch.storedPath = true → ∃ d : Dev,
          exec (.channelTrainingComplete c rd wr true turn turnAlt) s = .next (s.settle d) ∧ d.chState c = 2 ∧
          (d.chn c).storedPath = false ∧ s.dev.keepsRegs d [.chnTrain c]) ∧
        (rd < 26 ∨ wr < 26 → ch.storedPath = false → ∃ d : Dev,
          exec (.channelTrainingComplete c rd wr true turn turnAlt) s = .next (s.settle d) ∧
          s.dev.keepsRegs d [.chnStat c, .chnTrain c] ∧
          let n := s.dev.fld (.chnStat c) F.chnStat_FALLBACK
          let down := n < 2 ∧ (if rate ≤ 5 then 1 else 6) < rate
          (down → d.chState c = 2 ∧ d.fld (.chnStat c) F.chnStat_RATE = rate - 1 ∧ d.fld (.chnStat c) F.chnStat_FALLBACK = n + 1) ∧
          (¬ down → d.chState c = 5 ∧ reason d = 6)))) ∧
    (∀ ok : Bool, (ch.recordDue = false → alone (.trainingRecordWrite c ok)) ∧
      (ch.recordDue = true → ∃ (nv : Nv) (d : Dev),
        exec (.trainingRecordWrite c ok) s = .next ({ s with nv := nv }.settle d) ∧ (d.chn c).recordDue = false ∧ d.regs = s.dev.regs ∧
        (ok = false → nv = s.nv) ∧ (ok = true → ∃ x, kvFind? nv.train c = some x ∧
          x.rate = s.dev.fld (.chnTrain c) F.chnTrain_TRATE ∧ nv.otp = s.nv.otp))) ∧
    (∀ t0 t1 : Option Nat, (s.dev.mgt.restarting = true → alone (.dimmThermalRead c t0 t1)) ∧
      (s.dev.mgt.restarting = false →
        let t2x := min 85 (s.dev.fld (.chnRef c) F.chnRef_T2X)
        let slot (k : Nat) (t : Option Nat) : Nat := if bitOf (s.dev.rd (.chnPop c)) (15 + 16 * k) then t.getD t2x else 0
        let t := max (slot 0 t0) (slot 1 t1)
        ∃ d : Dev, exec (.dimmThermalRead c t0 t1) s = .next (s.settle d) ∧ s.dev.keepsRegs d [.chnStat c] ∧ d.chState c = st ∧
          d.fld (.chnStat c) F.chnStat_TEMP = (if 95 ≤ t then 2 else if t2x ≤ t then 1
            else if s.dev.fld (.chnStat c) F.chnStat_TEMP ≠ 0 ∧ t2x - 2 ≤ t then 1 else 0))) ∧
    (∀ bus hub, bus < 8 → hub < 8 →
      (∃ d : Dev, exec (.sidebandError bus hub) s = .next (s.settle d) ∧ d.regs = s.dev.regs) ∧
      ((kvGet (fun _ => []) s.dev.logs.recs 81).length < 256 → ∃ (d : Dev) (r : Rec),
        exec (.sidebandError bus hub) s = .next (s.settle d) ∧
        kvGet (fun _ => []) d.logs.recs 81 = kvGet (fun _ => []) s.dev.logs.recs 81 ++ [r] ∧
        r.ty = 0x0507 ∧ r.detail = bus + hub * 16)) ∧
    (∀ slots, slots < 4 →
      (st = 3 ∨ st = 7 → ∃ d : Dev, exec (.pmicFault c slots) s = .next (s.settle d) ∧ d.chState c = 6 ∧
        s.dev.keepsRegs d [.chnStat c, .chnFchg c, .crossChn c, .chnScrubPos c, (LagUnit.scrub c).lagReg, (LagUnit.scrub c).maxReg] ∧
        ∀ x ∈ (d.chn c).subs, x.rdq = [] ∧ x.wrq = [] ∧ x.restore = []) ∧
      (st ≠ 3 → st ≠ 7 → alone (.pmicFault c slots))) ∧
    (s.reaches (.chnSpare c) → let spare := s.dev.fld (.chnSpare c) F.chnSpare_RANK
      (s.dev.spareRefusal c src = none → spare ≠ src → ∃ d : Dev, exec (.spareStart c) s = .next (s.settle d) ∧ d.spareState c = 1 ∧
        d.rankState c src = 3 ∧ d.rankState c spare = 4 ∧ d.copyPtr c = 0 ∧
        s.dev.keepsRegs d [.chnSpare c, .chnRankstat c, .chnSpareCp c]) ∧
      (∀ why, s.dev.spareRefusal c src = some why → ∃ d : Dev, exec (.spareStart c) s = .next (s.settle d) ∧
        d.flag (.chnSpare c) F.chnSpare_ERR = true ∧ s.dev.keepsRegs d [.chnSpare c] ∧ d.chan = s.dev.chan)) ∧
    (let due := (s.dev.rankIn c 3).isSome = true ∧ (s.dev.rankIn c 4).isSome = true ∧ s.dev.spareState c = 1 ∧
       ch.copyEnded = false ∧ s.dev.rankLines c ≤ s.dev.copyPtr c
     (¬ due → exec (.spareCopyComplete c) s = .next (s.settle s.dev).keepFailed) ∧
     (∀ r t lr, due → s.dev.rankIn c 3 = some r → s.dev.rankIn c 4 = some t →
       ((List.range 8).find? fun k => s.dev.physRank c k == some r) = some lr →
       t ∉ ch.failing → ∃ d : Dev,
       exec (.spareCopyComplete c) s = .next (s.settle d).keepFailed ∧ d.spareState c = 2 ∧ d.physRank c lr = some t ∧
       d.fld (.chnSpare c) F.chnSpare_FAILED = 8 + r ∧ d.rankState c t = 1 ∧
       s.dev.keepsRegs d [.chnSpare c, .chnRankmap c, .chnRankstat c, .chnPwrstat c])) ∧
    (s.reaches (.chnSpare c) →
      (s.dev.rankState c src = 1 → ∃ d : Dev, exec (.rankRetire c) s = .next (s.settle d) ∧ d.rankState c src = 6 ∧
        s.dev.keepsRegs d [.chnRankstat c] ∧ ∀ r < 8, r ≠ src → d.rankState c r = s.dev.rankState c r) ∧
      (s.dev.rankState c src ≠ 1 → ∃ d : Dev, exec (.rankRetire c) s = .next (s.settle d) ∧
        d.flag (.chnSpare c) F.chnSpare_ERR = true ∧ s.dev.keepsRegs d [.chnSpare c])) ∧
    (s.reaches (.chnFchg c) →
      (s.dev.fchgRefusal c = 0 → ∃ d : Dev, exec (.frequencyChange c) s = .next (s.settle d) ∧ d.chState c = 7 ∧
        d.flag (.chnFchg c) F.chnFchg_BUSY = true ∧ (d.chn c).fchg = .changing ∧ d.activeSet c = s.dev.activeSet c) ∧
      (s.dev.fchgRefusal c ≠ 0 → ∃ d : Dev, exec (.frequencyChange c) s = .next (s.settle d) ∧
        d.flag (.chnFchg c) F.chnFchg_ERR = true ∧ d.fld (.chnFchg c) F.chnFchg_CAUSE = s.dev.fchgRefusal c ∧
        s.dev.keepsRegs d [.chnFchg c] ∧ d.chan = s.dev.chan)) ∧
    (let x := s.dev.activeSet c
     let shadow := s.dev.fld (.chnTim0 c (1 - x)) F.chnTim0_RATE
     (ch.fchg = .changing → (∃ d : Dev, exec (.frequencyChangeCheck c none) s = .next (s.settle d) ∧ d.chState c = 3 ∧
         d.activeSet c = 1 - x ∧ d.fld (.chnStat c) F.chnStat_RATE = shadow ∧ d.flag (.chnFchg c) F.chnFchg_BUSY = false ∧
         (d.chn c).fchg = .idle) ∧
       ∀ r, ∃ d : Dev, exec (.frequencyChangeCheck c (some r)) s = .next (s.settle d) ∧ d.chState c = st ∧ d.activeSet c = x ∧
         d.flag (.chnFchg c) F.chnFchg_REVERTED = true ∧ (d.chn c).fchg = .returning) ∧
     (ch.fchg = .returning → (∃ d : Dev, exec (.frequencyChangeCheck c none) s = .next (s.settle d) ∧ d.chState c = 3 ∧
         d.activeSet c = x ∧ d.flag (.chnFchg c) F.chnFchg_BUSY = false ∧ (d.chn c).fchg = .idle) ∧
       ∀ r, ∃ d : Dev, exec (.frequencyChangeCheck c (some r)) s = .next (s.settle d) ∧ d.chState c = 5 ∧ reason d = 6 ∧
         d.flag (.chnFchg c) F.chnFchg_BUSY = false ∧ (d.chn c).fchg = .idle) ∧
     (ch.fchg = .idle → ∀ r, alone (.frequencyChangeCheck c r)))

/-- CR_ENABLE and CQ_ENABLE reset the ring and set EN, or set ERR where SIZE, the completion ring or the binding forbids it. CR_DISABLE clears EN, leaves TAIL at the value that the ring engine has received, and lets fetched commands be; CQ_DISABLE clears EN, or sets ERR while the ring is wanted. DOORBELL stores TAIL of an enabled ring and offers it to the ring engine as a value; outside the ring, or past HEAD, it is a host error of the LD. DESCRIPTOR_FETCH appends the descriptors read to prefetch memory and moves HEAD. COMMAND_COMPLETE writes the oldest record that is not held at TAIL, with PHASE, and moves TAIL, or holds it while the ring is full. CQ_HEAD_WRITE stores HEAD of an enabled ring and is a host error of the LD where it passes TAIL. INTERRUPT_COALESCING_TIMEOUT sends the message of a running timer. Each that finds nothing to act on does nothing; after a host error of its LD a record's bytes are free. -/
def Obligations.RingRegisters : Prop :=
  ∀ (s : State) (n r v : Nat), s.up = true → n < 17 → r < 8 → v < 2 ^ 16 →
    let ctrl : Reg := .rngCrCtrl n r
    let size := s.dev.fld ctrl F.rngCrCtrl_SIZE
    let cqsize := s.dev.fld (.rngCqCtrl n r) F.rngCqCtrl_SIZE
    let fits := 4 ≤ size ∧ size ≤ 16 ∧ s.dev.cqEn n (s.dev.fld ctrl F.rngCrCtrl_CQ) = true ∧ (n < 16 → s.dev.bound n = true)
    let wanted := (∃ k < 8, s.dev.crEn n k = true ∧ s.dev.fld (.rngCrCtrl n k) F.rngCrCtrl_CQ = r) ∨
      (∃ c ∈ s.dev.rng.run, c.set = n ∧ c.cq = r) ∨ (∃ f ∈ s.dev.rng.fin, f.set = n ∧ f.cq = r) ∨
      ∃ k < 8, s.dev.fld (.rngCrCtrl n k) F.rngCrCtrl_CQ = r ∧ s.dev.prefetched n k ≠ []
    let alone (c : Instr) : Prop := exec c s = .next (s.finish s.dev)
    (s.reaches ctrl → (s.dev.crEn n r = true → alone (.crEnable n r)) ∧ (s.dev.crEn n r = false → alone (.crDisable n r))) ∧
    (s.reaches (.rngCqCtrl n r) → (s.dev.cqEn n r = true → alone (.cqEnable n r)) ∧ (s.dev.cqEn n r = false → alone (.cqDisable n r))) ∧
    (s.reaches ctrl → s.dev.crEn n r = false →
      (fits → ∃ d : Dev, exec (.crEnable n r) s = .next (s.finish d) ∧ d.crEn n r = true ∧ d.crHead n r = 0 ∧ d.crTail n r = 0 ∧
        s.dev.keepsRegs d [ctrl, .rngCrStat n r, .rngCrTail n r] ∧ d.rng = s.dev.rng ∧ d.out = s.dev.out) ∧
      (¬ fits → ∃ d : Dev, exec (.crEnable n r) s = .next (s.finish d) ∧ d.crEn n r = false ∧
        d.flag ctrl F.rngCrCtrl_ERR = true ∧ s.dev.keepsRegs d [ctrl] ∧ d.rng = s.dev.rng)) ∧
    (s.reaches ctrl → s.dev.crEn n r = true → ∃ d : Dev, exec (.crDisable n r) s = .next (s.finish d) ∧ d.crEn n r = false ∧
      d.crTail n r = s.dev.tailRecv n r % 2 ^ 16 ∧ s.dev.keepsRegs d [ctrl, .rngCrTail n r] ∧ d.rng.run = s.dev.rng.run ∧ d.rng.fin = s.dev.rng.fin ∧ d.rng.pre = s.dev.rng.pre) ∧
    (s.reaches (.rngCqCtrl n r) → s.dev.cqEn n r = false →
      (4 ≤ cqsize → cqsize ≤ 16 → ∃ d : Dev, exec (.cqEnable n r) s = .next (s.finish d) ∧ d.cqEn n r = true ∧ d.cqTail n r = 0 ∧
        d.cqHead n r = 0 ∧ d.flag (.rngCqStat n r) F.rngCqStat_PHASE = true ∧
        s.dev.keepsRegs d [.rngCqCtrl n r, .rngCqStat n r, .rngCqHead n r] ∧ d.out = s.dev.out) ∧
      (cqsize < 4 ∨ 16 < cqsize → ∃ d : Dev, exec (.cqEnable n r) s = .next (s.finish d) ∧ d.cqEn n r = false ∧
        d.flag (.rngCqCtrl n r) F.rngCqCtrl_ERR = true ∧ s.dev.keepsRegs d [.rngCqCtrl n r])) ∧
    (s.reaches (.rngCqCtrl n r) → s.dev.cqEn n r = true →
      (¬ wanted → ∃ d : Dev, exec (.cqDisable n r) s = .next (s.finish d) ∧ d.cqEn n r = false ∧
        s.dev.keepsRegs d [.rngCqCtrl n r] ∧ d.rng.fin = s.dev.rng.fin) ∧
      (wanted → ∃ d : Dev, exec (.cqDisable n r) s = .next (s.finish d) ∧ d.cqEn n r = true ∧
        d.flag (.rngCqCtrl n r) F.rngCqCtrl_ERR = true ∧ s.dev.keepsRegs d [.rngCqCtrl n r] ∧ d.rng = s.dev.rng)) ∧
    (s.reaches (.rngCrTail n r) →
      (s.dev.crEn n r = false → alone (.doorbell n r v)) ∧
      (s.dev.crEn n r = true → s.dev.crSlots n r ≤ v ∨ s.dev.crAhead n r v < s.dev.crAhead n r (s.dev.crTail n r) →
        exec (.doorbell n r v) s = .next (s.finish (s.dev.goWild n))) ∧
      (s.dev.crEn n r = true → v < s.dev.crSlots n r → s.dev.crAhead n r (s.dev.crTail n r) ≤ s.dev.crAhead n r v → ∃ d : Dev,
        exec (.doorbell n r v) s = .next (s.finish (d.offerValue (s.dev.tailX n r) v)) ∧ d.crTail n r = v ∧
        s.dev.keepsRegs d [.rngCrTail n r] ∧ d.rng = s.dev.rng ∧ d.out = s.dev.out ∧ d.xval (s.dev.tailX n r) = s.dev.xval (s.dev.tailX n r))) ∧
    (s.dev.rng.fetched.find? (fun f => f.1 == ringKey n r) = none → alone (.descriptorFetch n r)) ∧
    (∀ f, (s.dev.rng.fetched.find? fun f => f.1 == ringKey n r) = some f → s.dev.crSlots n r ≤ 2 ^ 16 → ∃ d : Dev,
      exec (.descriptorFetch n r) s = .next (s.finish d) ∧ d.crHead n r = (f.2.1 + f.2.2.length) % s.dev.crSlots n r ∧
      (d.prefetched n r).map (·.2) = (s.dev.prefetched n r).map (·.2) ++ f.2.2 ∧ d.rng.fetched = s.dev.rng.fetched.erase f ∧
      s.dev.keepsRegs d [.rngCrStat n r] ∧ d.out = s.dev.out) ∧
    ((s.dev.rng.fin.find? fun f => !f.held) = none → alone .commandComplete) ∧
    (∀ f, (s.dev.rng.fin.find? fun f => !f.held) = some f → f.set = n → f.cq = r → s.dev.cqEn n r = false →
      exec .commandComplete s = .next (s.finish (s.dev.modRng fun g => { g with fin := g.fin.erase f }))) ∧
    (∀ f, (s.dev.rng.fin.find? fun f => !f.held) = some f → f.set = n → f.cq = r → s.dev.cqEn n r = true →
      s.dev.cqSlots n r ≤ 2 ^ 16 →
      let tail := s.dev.cqTail n r
      (s.dev.cqFull n r = false → s.dev.isWild n = true → ∃ (d : Dev) (bytes : List Nat) (msgs : List Out),
        exec .commandComplete s = .next (s.finish d) ∧ bytes.length = 32 ∧
        d.out = s.dev.out ++ .hostWrite (s.dev.setHead n) (s.dev.fld (.rngCqBase n r) F.rngCqBase_BASE * 32 + 32 * tail) bytes false :: msgs ∧
        d.rng.fin = s.dev.rng.fin.erase f ∧ s.dev.keepsRegs d [.rngCqStat n r]) ∧
      (s.dev.cqFull n r = false → s.dev.isWild n = false → ∃ (d : Dev) (msgs : List Out), exec .commandComplete s = .next (s.finish d) ∧
        d.out = s.dev.out ++ .hostWrite (s.dev.setHead n) (s.dev.fld (.rngCqBase n r) F.rngCqBase_BASE * 32 + 32 * tail)
          (f.bytes (s.dev.flag (.rngCqStat n r) F.rngCqStat_PHASE)) false :: msgs ∧
        (∀ m ∈ msgs, m = .msix n (s.dev.fld (.rngCqCtrl n r) F.rngCqCtrl_VECTOR)) ∧
        d.cqTail n r = (tail + 1) % s.dev.cqSlots n r ∧ d.rng.fin = s.dev.rng.fin.erase f ∧
        s.dev.keepsRegs d [.rngCqStat n r]) ∧
      (s.dev.cqFull n r = true → ∃ d : Dev, exec .commandComplete s = .next (s.finish d) ∧ d.out = s.dev.out ∧
        d.rng.fin = s.dev.rng.fin.erase f ++ [{ f with held := true }] ∧ d.regs = s.dev.regs)) ∧
    (s.reaches (.rngCqHead n r) →
      (s.dev.cqHeadError n r v = true → exec (.cqHeadWrite n r v) s = .next (s.finish (s.dev.goWild n))) ∧
      (s.dev.cqEn n r = false → alone (.cqHeadWrite n r v)) ∧
      (s.dev.cqEn n r = true → s.dev.cqHeadError n r v = false → ∃ d : Dev,
        exec (.cqHeadWrite n r v) s = .next (s.finish (d.postHeld n r)) ∧ d.cqHead n r = v ∧ s.dev.keepsRegs d [.rngCqHead n r] ∧
        d.rng = s.dev.rng ∧ d.out = s.dev.out) ∧
      ((∀ f ∈ s.dev.rng.fin, f.set = n → f.cq = r → f.held = false) → ∀ d : Dev, d.rng = s.dev.rng → d.postHeld n r = d)) ∧
    ((s.dev.coalesce n r).timer = true → s.dev.cqEn n r = true → ∃ d : Dev,
      exec (.interruptCoalescingTimeout n r) s = .next (s.settle d) ∧ d.coalesce n r = {} ∧ d.regs = s.dev.regs ∧
      d.out = s.dev.out ++ [.msix n (s.dev.fld (.rngCqCtrl n r) F.rngCqCtrl_VECTOR)]) ∧
    ((s.dev.coalesce n r).timer = false ∨ s.dev.cqEn n r = false → exec (.interruptCoalescingTimeout n r) s = .next (s.settle s.dev))

/-- Where no ring may start a command, or the descriptor whose turn it is carries another opcode, the command does nothing. With the first descriptor of the ring whose turn it is carrying the command's opcode: where the checks of R318 give a status, the command ends with that status and does nothing else. Else NOP finishes with status 0; FILL, ZERO, COPY, SANITIZE, RELEASE_ACK and SNAPSHOT run; PROMOTE and DEMOTE run with each page of their range asked for at its Tedder; SET_HINT replaces the range of its number, or removes it for a length of zero; TIER_POLICY and COMP_POLICY write the fields that they select into the descriptor of each tiered field of their range; CAP_QUERY ends with the capacity state; SAMPLE_CFG sets up or stops the sampler of its LD. -/
def Obligations.RingCommands : Prop :=
  ∀ (s : State), s.up = true → ∀ (op : RingOp) (i : Instr), (i, op) ∈ [(Instr.nop, RingOp.nop), (.setHint, .setHint), (.tierPolicy, .tierPolicy), (.compPolicy, .compPolicy),
      (.promote, .promote), (.demote, .demote), (.fill, .fill), (.zero, .zero), (.copy, .copy), (.sanitize, .sanitize),
      (.capQuery, .capQuery), (.releaseAck, .releaseAck), (.snapshot, .snapshot), (.sampleCfg, .sampleCfg)] →
    (s.dev.ringTurn = none → exec i s = .next (s.finish s.dev)) ∧
    ∀ (n r slot : Nat) (x : Line) (rest : List (Nat × Line)), s.dev.ringTurn = some (n, r) → s.dev.prefetched n r = (slot, x) :: rest →
    (RingOp.ofCode (descField x 0 1) ≠ some op → exec i s = .next (s.finish s.dev)) ∧
    ∀ (c : RingCmd) (e : Dev), RingOp.ofCode (descField x 0 1) = some op → s.dev.takeCmd n r op = some (c, e) →
    let st := e.ringCheck op c.ld c.a c.b c.n c.x
    let first := s.dev.winBase c.ld + c.a / 2 ^ 21
    (c.a = descField x 8 8 ∧ c.b = descField x 16 8 ∧ c.n = descField x 24 8 ∧ c.x = descField x 32 8 ∧ c.ld = actingLd n x ∧
      c.tag = descField x 4 4 ∧ e.regs = s.dev.regs ∧ e.prefetched n r = rest) ∧
    (st ≠ 0 → exec i s = .next (s.finish (e.post (c.fin st 0 0 0)))) ∧
    (st = 0 → ∃ d : Dev, exec i s = .next (s.finish d) ∧
      (op = .nop → d = e.ringFinish c 0 0 0 0) ∧
      (op ∈ [RingOp.fill, .zero, .copy, .sanitize, .releaseAck, .snapshot] → d = e.ringRun c) ∧
      (op = .promote → d.rng.run = e.rng.run ++ [c] ∧ ∀ k < c.n, (d.promo ((s.dev.winBase c.ld * 2 ^ 21 + c.a) / 4096 + k)).isSome = true) ∧
      (op = .demote → d.rng.run = e.rng.run ++ [c] ∧ ∀ k < c.n, (d.move ((s.dev.winBase c.ld * 2 ^ 21 + c.a) / 4096 + k)).isSome = true) ∧
      (op = .setHint → let id := bitsOf c.x 4 0
        let keep := s.dev.home.pol.filter fun p => !(p.ld == c.ld && p.id == id)
        d.home.pol = if c.n = 0 then keep else
          keep ++ [{ ld := c.ld, id := id, first := s.dev.ldLine c.ld c.a, lines := c.n / 64, hint := bitsOf c.x 9 8 }]) ∧
      (op = .tierPolicy → ∀ k < c.n, let ds := s.dev.desc (first + k)
        d.desc (first + k) = if ds.v && ds.tiered && !ds.fpois then
          { ds with tpol := if bitOf c.x 8 then bitsOf c.x 1 0 else ds.tpol, rpromo := if bitOf c.x 9 then bitsOf c.x 5 4 else ds.rpromo }
          else ds) ∧
      (op = .compPolicy → ∀ k < c.n, let ds := s.dev.desc (first + k)
        d.desc (first + k) = if ds.v && ds.tiered && !ds.fpois then
          { ds with cpol := if bitOf c.x 24 then bitsOf c.x 1 0 else ds.cpol, thresh := if bitOf c.x 25 then bitsOf c.x 11 8 else ds.thresh,
                    budget := if bitOf c.x 26 then bitsOf c.x 19 16 else ds.budget }
          else ds) ∧
      (op = .capQuery → ∃ r0, d = e.post (c.fin 0 r0 (s.dev.foot c.ld) (s.dev.extentPages c.ld)) ∧
        bitsOf r0 27 0 = s.dev.fld (.tedLdcap c.ld) F.tedLdcap_COMMIT ∧ bitsOf r0 47 32 = s.dev.fld (.tedLdcap c.ld) F.tedLdcap_QUOTA ∧
        bitsOf r0 50 48 = s.dev.fld (.tedLdcap c.ld) F.tedLdcap_OVC ∧ bitOf r0 63 = s.dev.low ∧ bitOf r0 62 = s.dev.relMode) ∧
      (op = .sampleCfg → s.dev.samp.length = 16 → d.sampler c.ld = if bitOf c.x 31 then
        { en := true, n := bitsOf c.x 4 0, base := c.a, slots := c.n / 32, vector := bitsOf c.x 13 8, thresh := bitsOf c.x 63 32 }
        else {}))

/-- LEY_ENABLE to LEY_DOWN_EXPIRY move the port through the states of R340. LEY_FLIT_RECEIVE marks a flit that does not decode for a NAK; an in-order payload flit extends the receive queues and moves the expected SEQ, its header returns credits and releases the replay buffer; an earlier SEQ is a duplicate; an overrun starts a retrain; a control message is taken once. LEY_FLIT_TRANSMIT sends one flit, and a ready entry with its credits goes into it, is kept for replay and takes its credits. Each cause starts a retrain of an ACTIVE port with an RTRQ; the answers, collisions, RESIZE, IDENT, RESYNC, DOWN and the time limits act as Table 13.9 and R360 to R362 say; RESYNC sets the windows. A control message that is not the one that the command names waits; one that its port is in no state to act on is taken and has no effect; every other event that finds nothing to act on does nothing. -/
def Obligations.LeyPortEvents : Prop :=
  ∀ (s : State) (p : Nat), s.up = true → p < 4 → p < s.dev.ley.length →
    let x := s.dev.lp p
    let st := s.dev.leyState p
    let ctrl : Reg := .leyCtrl p
    let stat : Reg := .leyStat p
    let err : Reg := .leyErr p
    let creds : List Reg := [.leyCred p 0, .leyCred p 1, .leyCred p 2, .leyCred p 3]
    let lanes := s.dev.fld stat F.leyStat_LANES
    let top := min 2 (s.dev.fld ctrl F.leyCtrl_MAXRATE)
    let same (i : Instr) : Prop := exec i s = .next (s.settle s.dev)
    let takes (i : Instr) (rest : List LeyCtl) : Prop := ∃ d : Dev, exec i s = .next (s.settle d) ∧
      d.ley = (s.dev.modLp p fun x => { x with ctlIn := rest }).ley ∧ d.regs = s.dev.regs ∧ d.out = s.dev.out
    let said (d : Dev) (m : LeyCtl) : Prop := (d.lp p).ctlOut = x.ctlOut ++ [(m, x.nextCtl, 4)]
    let asks (d : Dev) (cause : Nat) : Prop := d.leyState p = 5 ∧ (d.lp p).want = some (.retrain cause) ∧ (d.lp p).mine = true ∧
      (d.lp p).phase = .asked ∧ said d { ctl := 1 }
    let retrains (i : Instr) (cause : Nat) : Prop :=
      (st = 4 → x.phase = .none → ∃ d : Dev, exec i s = .next (s.settle d) ∧ asks d cause ∧ s.dev.keepsRegs d [stat]) ∧
      (st = 4 → x.phase ≠ .none → ∃ d : Dev, exec i s = .next (s.settle d) ∧ (d.lp p).again = some (.retrain cause) ∧
        d.regs = s.dev.regs) ∧
      (st ≠ 4 → same i)
    let equalized (d : Dev) (pass : Nat) : Prop := ∀ l, widestSet (lanes &&& pass) = some l →
      d.fld stat F.leyStat_LANES = l ∧ d.fld stat F.leyStat_WIDTH = widthOf l ∧
      d.fld stat F.leyStat_RATE = min (s.dev.fld stat F.leyStat_RATE) top ∧ (d.lp p).phase = .ident
    -- from OFF to CONFIG and back
    (s.reaches ctrl → ∃ d : Dev, exec (.leyEnable p) s = .next (s.settle d) ∧ d.flag ctrl F.leyCtrl_EN = true ∧
      d.leyState p = (if st = 0 then 1 else st) ∧ s.dev.keepsRegs d [ctrl, stat] ∧ d.ley = s.dev.ley ∧ d.out = s.dev.out) ∧
    (s.reaches ctrl → ∃ d : Dev, exec (.leyDisable p) s = .next (s.settle d) ∧ d.flag ctrl F.leyCtrl_EN = false ∧
      s.dev.keepsRegs d [ctrl, stat, err, .crossLey p] ∧
      (3 ≤ st → st ≤ 6 → d.leyState p = 7 ∧ d.fld stat F.leyStat_WIDTH = 3 ∧ d.fld stat F.leyStat_LANES = 0 ∧
        (d.lp p).down = some 2 ∧ (d.lp p).txq = [] ∧ (d.lp p).replay = [] ∧ (d.lp p).rxq = x.rxq ∧
        ∃ fs : List Out, fs.length = 4 ∧ (∀ o ∈ fs, ∃ b, o = .leyFlit p b) ∧ d.out = s.dev.out ++ fs) ∧
      (st < 3 → d.leyState p = 0 ∧ d.out = s.dev.out) ∧ (st = 7 → d.leyState p = 7 ∧ d.out = s.dev.out)) ∧
    (∃ d : Dev, exec (.leyPartnerDetect p) s = .next (s.settle d) ∧ d.leyState p = (if st = 1 then 2 else st) ∧
      s.dev.keepsRegs d [stat] ∧ d.ley = s.dev.ley ∧ d.out = s.dev.out) ∧
    (∀ rate ls, rate < 7 → ls < 256 → st ≠ 2 → same (.leyTrainComplete p rate ls)) ∧
    (∀ rate ls, rate < 7 → ls < 256 → st = 2 →
      (∀ l, widestSet ls = some l → ∃ d : Dev, exec (.leyTrainComplete p rate ls) s = .next (s.settle d) ∧ d.leyState p = 3 ∧
        d.fld stat F.leyStat_RATE = min (min 2 rate) top ∧ d.fld stat F.leyStat_WIDTH = widthOf l ∧
        d.fld stat F.leyStat_LANES = l ∧ (d.lp p).seq = 0 ∧ (d.lp p).expect = 0 ∧ (d.lp p).phase = .ident ∧
        (d.lp p).ctlOut =
          [({ ctl := 7, slot0 := Config.serial.toNat + s.dev.role * 2 ^ 64 + s.dev.sdist * 2 ^ 68 }, x.nextCtl, 4)] ∧
        s.dev.keepsRegs d [stat] ∧ d.out = s.dev.out) ∧
      (widestSet ls = none → same (.leyTrainComplete p rate ls))) ∧
    (st = 7 → ∃ d : Dev, exec (.leyDownExpiry p) s = .next (s.settle d) ∧
      d.leyState p = (if s.dev.flag ctrl F.leyCtrl_EN then 1 else 0) ∧ s.dev.keepsRegs d [stat] ∧ d.ley = s.dev.ley) ∧
    (st ≠ 7 → same (.leyDownExpiry p)) ∧
    -- flits
    (∀ flit : BitVec 2048, st < 3 ∨ st = 7 → same (.leyFlitReceive p flit)) ∧
    (∀ flit : BitVec 2048, 3 ≤ st → st ≤ 6 →
      let run := exec (.leyFlitReceive p flit) s
      (leyDecode (toBytes 256 flit.toNat) = none → ∃ d : Dev, run = .next (s.settle d) ∧ d.flag err F.leyErr_CRC = true ∧
        (x.nakSent = false → (d.lp p).nakDue = true) ∧ (d.lp p).rxq = x.rxq ∧ (d.lp p).expect = x.expect ∧
        s.dev.keepsRegs d [err] ∧ d.out = s.dev.out) ∧
      (∀ bs fixed, leyDecode (toBytes 256 flit.toNat) = some (bs, fixed) →
        let h := ofBytes (bs.take 16)
        let slots := (List.range (min 14 (bitsOf h 27 24))).map fun k => ofBytes ((bs.drop (16 + 16 * k)).take 16)
        let es := (parseSlots 16 (x.rxPart ++ slots)).1
        let part := (parseSlots 16 (x.rxPart ++ slots)).2
        let q := x.rxq ++ es.map fun e => (x.era, e)
        let id := bitsOf h 103 96
        h.testBit 21 = false →
        (bitsOf h 23 22 = 0 → bitsOf h 9 0 = x.expect → (∀ e ∈ es, e.known = true) →
          (overrunVc q part = none → ∃ d : Dev, run = .next (s.settle d) ∧ (d.lp p).rxq = q ∧ (d.lp p).rxPart = part ∧
            (d.lp p).expect = (x.expect + 1) % 1024 ∧ (d.lp p).nakSent = false ∧ (d.lp p).gotAny = true ∧
            (d.lp p).replay = (if h.testBit 20 then releaseTo x.replay (bitsOf h 19 10) else x.replay) ∧
            (∀ v < 4, d.hwin p v = satTo 9 (s.dev.hwin p v + (h >>> (32 + 12 * v)) % 32) ∧
              d.dwin p v = satTo 9 (s.dev.dwin p v + (h >>> (32 + 12 * v)) / 32 % 128)) ∧
            (fixed = true → d.flag err F.leyErr_FEC_CORR = true) ∧ s.dev.keepsRegs d (err :: creds) ∧ d.out = s.dev.out) ∧
          (∀ v, overrunVc q part = some v → st = 4 → x.phase = .none → ∃ d : Dev, run = .next (s.settle d) ∧
            d.flag err F.leyErr_OVERRUN = true ∧ asks d 2 ∧ (d.lp p).rxq = x.rxq ∧ (d.lp p).expect = x.expect ∧
            s.dev.keepsRegs d (stat :: err :: creds))) ∧
        (bitsOf h 23 22 = 0 → bitsOf h 9 0 ≠ x.expect → (x.expect + 1024 - bitsOf h 9 0) % 1024 ≤ 512 → ∃ d : Dev,
          run = .next (s.settle d) ∧ d.flag err F.leyErr_DUP = true ∧ (d.lp p).rxq = x.rxq ∧ (d.lp p).expect = x.expect ∧
          s.dev.keepsRegs d (err :: creds)) ∧
        (bitsOf h 23 22 = 2 → x.ctlId ≠ some id → ∃ d : Dev, run = .next (s.settle d) ∧ (d.lp p).ctlId = some id ∧
          (∃ m : LeyCtl, m.ctl = bitsOf h 91 88 ∧ m.arg = bitsOf h 95 92 ∧ m.slot0 = ofBytes ((bs.drop 16).take 16) ∧
            (d.lp p).ctlIn = x.ctlIn ++ [m]) ∧ (d.lp p).rxq = x.rxq ∧ s.dev.keepsRegs d (err :: creds)) ∧
        (bitsOf h 23 22 = 2 → x.ctlId = some id → ∃ d : Dev, run = .next (s.settle d) ∧ (d.lp p).ctlIn = x.ctlIn ∧
          (d.lp p).rxq = x.rxq ∧ s.dev.keepsRegs d (err :: creds)))) ∧
    (st < 3 ∨ st = 7 → same (.leyFlitTransmit p)) ∧
    (3 ≤ st → st ≤ 6 → (st = 6 → x.ctlOut ≠ []) → ∃ (d : Dev) (b : BitVec 2048), exec (.leyFlitTransmit p) s = .next (s.settle d) ∧
      d.out = s.dev.out ++ [.leyFlit p b] ∧ d.home = s.dev.home ∧ d.chan = s.dev.chan) ∧
    (st = 4 → x.ctlOut = [] → x.cursor = none →
      (512 ≤ x.replay.length → ∃ d : Dev, exec (.leyFlitTransmit p) s = .next (s.settle d) ∧ (d.lp p).seq = x.seq ∧
        (d.lp p).replay = x.replay ∧ (d.lp p).txq = x.txq ∧ s.dev.keepsRegs d [err]) ∧
      (∀ e, x.replay.length < 512 → x.part = [] → x.txq = [e] → e.vc < 4 → e.dlen ≤ 2 → e.data.length = e.dlen →
        0 < s.dev.hwin p e.vc → e.dlen ≤ s.dev.dwin p e.vc → ∃ d : Dev, exec (.leyFlitTransmit p) s = .next (s.settle d) ∧
        (d.lp p).txq = [] ∧ (d.lp p).seq = (x.seq + 1) % 1024 ∧
        (d.lp p).replay = x.replay ++ [{ seq := x.seq, slots := e.slots, took := [(e.vc, e.dlen)] }] ∧
        d.hwin p e.vc = s.dev.hwin p e.vc - 1 ∧ d.dwin p e.vc = s.dev.dwin p e.vc - e.dlen ∧
        s.dev.keepsRegs d [err, .leyCred p e.vc])) ∧
    (∀ b rest, x.replay = b :: rest → st = 4 →
      (x.resent < max 1 (s.dev.fld ctrl F.leyCtrl_REPLAY_NUM) → ∃ d : Dev, exec (.replayTimeout p) s = .next (s.settle d) ∧
        (d.lp p).cursor = some b.seq ∧ (d.lp p).replay = x.replay ∧ d.flag err F.leyErr_REPLAY_TO = true ∧
        s.dev.keepsRegs d [err]) ∧
      (max 1 (s.dev.fld ctrl F.leyCtrl_REPLAY_NUM) ≤ x.resent → x.phase = .none → ∃ d : Dev,
        exec (.replayTimeout p) s = .next (s.settle d) ∧ asks d 1 ∧ d.flag err F.leyErr_REPLAY_TO = true ∧
        s.dev.keepsRegs d [stat, err])) ∧
    (x.replay = [] ∨ st ≠ 4 → same (.replayTimeout p)) ∧
    -- retrain and resize
    (∀ v < 4, s.dev.winLow p v = true → retrains (.settledWindow p v) 3) ∧
    (∀ v < 4, s.dev.winLow p v = false → same (.settledWindow p v)) ∧
    (s.reaches ctrl → retrains (.rtReq p) 4) ∧ retrains (.laneLockLoss p) 6 ∧
    (s.reaches ctrl →
      let w := min 2 (s.dev.fld ctrl F.leyCtrl_RS_WIDTH)
      (st ≠ 4 ∨ setOfWidth w x.trained = none → ∃ d : Dev, exec (.rsReq p) s = .next (s.settle d) ∧
        d.flag ctrl F.leyCtrl_ERR = true ∧ s.dev.keepsRegs d [ctrl] ∧ d.ley = s.dev.ley) ∧
      (st = 4 → setOfWidth w x.trained ≠ none → x.phase = .none → ∃ d : Dev, exec (.rsReq p) s = .next (s.settle d) ∧
        (d.lp p).want = some (.resize w) ∧ (d.lp p).mine = true ∧ (d.lp p).phase = .asked ∧ said d { ctl := 3, arg := w } ∧
        d.regs = s.dev.regs)) ∧
    (∀ pass lower, pass < 256 → lower < 256 → ∀ i ∈ [(Instr.rtrq p pass lower, 1), (.rtack p pass lower, 2), (.rsrq p, 3), (.rsack p, 4),
        (.resync p, 5), (.down p, 6), (.ident p, 7)], (∀ m, x.ctlIn.head? = some m → m.ctl ≠ i.2) → same i.1) ∧
    (∀ m rest, x.ctlIn = m :: rest →
      let asked := x.mine = true ∧ x.phase = .asked
      (∀ pass lower, pass < 256 → lower < 256 →
        (m.ctl = 1 → st < 4 ∨ st = 7 → takes (.rtrq p pass lower) rest) ∧
        (m.ctl = 2 → ¬ (st = 5 ∧ asked) → takes (.rtack p pass lower) rest) ∧
        (m.ctl = 1 → 4 ≤ st → st ≤ 6 →
          (asked → s.dev.proceeds m = true → takes (.rtrq p pass lower) rest) ∧
          (¬ asked ∨ s.dev.proceeds m = false → ∃ (d : Dev) (more : List (LeyCtl × Nat × Nat)),
            exec (.rtrq p pass lower) s = .next (s.settle d) ∧
            d.leyState p = 5 ∧ (d.lp p).mine = false ∧ (d.lp p).ctlIn = rest ∧
            (d.lp p).ctlOut = x.ctlOut ++ [({ ctl := 2 }, x.nextCtl, 4)] ++ more ∧
            (asked → (d.lp p).again = x.want ∧ d.flag err F.leyErr_ABANDONED = true) ∧ equalized d pass ∧
            s.dev.keepsRegs d [stat, err])) ∧
        (m.ctl = 2 → st = 5 → asked → ∃ d : Dev, exec (.rtack p pass lower) s = .next (s.settle d) ∧ d.leyState p = 5 ∧
          (d.lp p).ctlIn = rest ∧ equalized d pass ∧ s.dev.keepsRegs d [stat])) ∧
      (m.ctl = 3 → (asked ∧ s.dev.proceeds m = true) ∨ (¬ asked ∧ st ≠ 4) → takes (.rsrq p) rest) ∧
      (m.ctl = 4 → ¬ (st = 4 ∧ asked ∧ ∃ w, x.want = some (.resize w)) → takes (.rsack p) rest) ∧
      (m.ctl = 5 → x.phase ≠ .resync → takes (.resync p) rest) ∧ (m.ctl = 7 → x.phase ≠ .ident → takes (.ident p) rest) ∧
      (m.ctl = 6 → st < 3 ∨ st = 7 → takes (.down p) rest) ∧
      (m.ctl = 3 → asked → s.dev.proceeds m = false → ∃ (d : Dev) (w : Option LeyWant), exec (.rsrq p) s = .next (s.settle d) ∧
        d.leyState p = 6 ∧ (d.lp p).again = x.want ∧ w = (d.lp p).want ∧ w = some (.resize (min 2 m.arg)) ∧ said d { ctl := 4 } ∧
        (d.lp p).ctlIn = rest ∧ d.flag err F.leyErr_ABANDONED = true ∧ s.dev.keepsRegs d [stat, err]) ∧
      (m.ctl = 3 → st = 4 → ¬ asked → ∃ d : Dev, exec (.rsrq p) s = .next (s.settle d) ∧ d.leyState p = 6 ∧
        (d.lp p).want = some (.resize (min 2 m.arg)) ∧ (d.lp p).mine = false ∧ said d { ctl := 4 } ∧ (d.lp p).ctlIn = rest ∧
        s.dev.keepsRegs d [stat]) ∧
      (∀ w, m.ctl = 4 → st = 4 → asked → x.want = some (.resize w) → ∃ d : Dev, exec (.rsack p) s = .next (s.settle d) ∧
        d.leyState p = 6 ∧ (d.lp p).ctlIn = rest ∧ (d.lp p).phase = .lanes ∧ s.dev.keepsRegs d [stat]) ∧
      (let dev := bitsOf m.slot0 66 64
       let dist := bitsOf m.slot0 69 68
       let who := (bitsOf m.slot0 63 0, dev)
       m.ctl = 7 → x.phase = .ident →
        (st = 3 → ∃ (d : Dev) (n : Nat), exec (.ident p) s = .next (s.settle d) ∧ d.leyState p = 3 ∧ d.leyPdev p = dev ∧
          d.leyPdist p = dist ∧ (d.lp p).ident = some who ∧ (d.lp p).phase = .resync ∧ said d { ctl := 5, slot0 := n } ∧
          (d.lp p).pend = [(0, 0), (0, 0), (0, 0), (0, 0)] ∧ s.dev.keepsRegs d [stat]) ∧
        (st ≠ 3 → x.ident = some who → ∃ (d : Dev) (n : Nat), exec (.ident p) s = .next (s.settle d) ∧ d.leyPdist p = dist ∧
          (d.lp p).phase = .resync ∧ said d { ctl := 5, slot0 := n } ∧ s.dev.keepsRegs d [stat, .casId]) ∧
        (st ≠ 3 → x.ident ≠ some who → ∃ d : Dev, exec (.ident p) s = .next (s.settle d) ∧ d.leyState p = 7 ∧
          (d.lp p).down = some 3 ∧ s.dev.keepsRegs d [stat, .crossLey p])) ∧
      (m.ctl = 5 → x.phase = .resync → x.again = none → ∃ d : Dev, exec (.resync p) s = .next (s.settle d) ∧
        d.leyState p = 4 ∧ (d.lp p).phase = .none ∧
        (∀ v < 4, d.hwin p v = (m.slot0 >>> (18 * v)) % 512 ∧ d.dwin p v = (m.slot0 >>> (18 * v)) / 512 % 512) ∧
        (let l := if m.slot0.testBit 82 then releaseTo x.replay (bitsOf m.slot0 81 72) else x.replay
         (d.lp p).replay.map (·.seq) = l.map (·.seq) ∧ (d.lp p).cursor = l.head?.map (·.seq)) ∧
        (st ≠ 3 → d.flag err F.leyErr_RETRAIN = true)) ∧
      (m.ctl = 6 → 3 ≤ st → st ≤ 6 → ∃ d : Dev, exec (.down p) s = .next (s.settle d) ∧ d.leyState p = 7 ∧
        (d.lp p).down = some 1 ∧ (d.lp p).txq = [] ∧ (d.lp p).replay = [] ∧ (d.lp p).rxq = x.rxq ∧ s.dev.keepsRegs d [stat, .crossLey p])) ∧
    (st ≠ 6 ∨ (∀ w, x.want ≠ some (.resize w)) → same (.resizeComplete p)) ∧
    (∀ w l, st = 6 → x.want = some (.resize w) → setOfWidth w x.trained = some l → x.again = none → ∃ d : Dev,
      exec (.resizeComplete p) s = .next (s.settle d) ∧ d.leyState p = 4 ∧ d.fld stat F.leyStat_LANES = l ∧
      d.fld stat F.leyStat_WIDTH = widthOf l ∧ d.flag err F.leyErr_RESIZE = true ∧ (d.lp p).want = none ∧ (d.lp p).seq = x.seq ∧
      (d.lp p).replay = x.replay ∧ s.dev.keepsRegs d [stat, err, .leyLast p]) ∧
    (st = 6 → ∃ d : Dev, exec (.resizeTimeout p) s = .next (s.settle d) ∧ asks d 6 ∧ s.dev.keepsRegs d [stat]) ∧
    (st ≠ 6 → same (.resizeTimeout p)) ∧
    (st = 5 →
      (x.tries < max 1 (s.dev.fld ctrl F.leyCtrl_RT_TRIES) → ∃ d : Dev, exec (.retrainStepTimeout p) s = .next (s.settle d) ∧
        (d.lp p).tries = x.tries + 1 ∧ (d.lp p).mine = true ∧ (d.lp p).phase = .asked ∧ said d { ctl := 1 } ∧ d.regs = s.dev.regs) ∧
      (max 1 (s.dev.fld ctrl F.leyCtrl_RT_TRIES) ≤ x.tries → ∃ d : Dev, exec (.retrainStepTimeout p) s = .next (s.settle d) ∧
        d.leyState p = 7 ∧ (d.lp p).down = some 0 ∧ (d.lp p).rxq = x.rxq ∧ s.dev.keepsRegs d [stat, .crossLey p])) ∧
    (st ≠ 5 → same (.retrainStepTimeout p)) ∧
    (∀ v < 4, s.reaches (.leyCred p v) → ∃ d : Dev, exec (.leyCredClr p v) s = .next (s.settle d) ∧
      d.fld (.leyCred p v) F.leyCred_HLOW = s.dev.hwin p v ∧ d.fld (.leyCred p v) F.leyCred_DLOW = s.dev.dwin p v ∧
      d.hwin p v = s.dev.hwin p v ∧ d.dwin p v = s.dev.dwin p v ∧ s.dev.keepsRegs d [.leyCred p v] ∧ d.ley = s.dev.ley)

/-- FOLD waits for the entries accepted before the link-down, then folds every member behind the port: reads end as folded, writes enter the fold list or the bitmap. A member delivers RD and WR to its channel when that has a slot, or forwards them; RDATA and WACC end the dealer's access and a member forwards them. JOIN waits for MEMBER_JOIN_READY; JOINRSP opens a member, or its recovery goes on or fails. REGRD, REGWR and REGRSP carry one register access, RECORD one event record. An entry to be forwarded waits while its port's transmit queue has no slot. FOLDNOTE folds a member behind another or notes its return; REOPEN resumes the session. CAS_REOPEN, FORGET, MEMBER_REG_ACCESS and FOLDMAP_ENABLE act or are refused as R375, R380, R384 and R385 say, and do nothing on a member, which has no such registers (R386). An entry that its member has no way for is dropped; a command whose entry is not at the front of its queue does nothing. MEMBER_RECOVERY_COMPLETE poisons what is listed and opens the member. MEMBER_LINK_DOWN ends the taking of entries, after those that came before it; DOWNSTREAM_LINK_DOWN drops the entries for what was behind the link and notes it to the dealer. -/
def Obligations.CascadeEvents : Prop :=
  ∀ (s : State) (p : Nat), s.up = true → p < 4 → p < s.dev.ley.length →
    let x := s.dev.lp p
    let role := s.dev.role
    let macc : Reg := .casMacc
    let ones := 2 ^ 32 - 1
    let took : Dev := s.dev.downTransfer p
    let heard : Prop := s.dev.downHeard p = true
    let alone (i : Instr) : Prop := exec i s = .next (s.finish s.dev)
    let rest (i : Instr) : Prop := exec i s = .next (s.settle s.dev)
    let sent (d : Dev) (q : Nat) (e : LeyEnt) : Prop := (d.lp q).txq = (s.dev.lp q).txq ++ [e]
    let joins (d : Dev) (u : Nat) : Prop := d.cas.takes = true ∧ ∃ (ds : List Line) (more : List LeyEnt), ds.length = 2 ∧
      (ds.getD 0 0).toNat % 2 ^ 64 = Config.serial.toNat ∧
      (d.lp u).txq = (s.dev.lp u).txq ++ { vc := 3, op := 0x21, dev := role, dlen := 2, data := ds } :: more
    let gone (e d : Dev) (k : Nat) : Prop := (d.mem k).up = false ∧
      d.memState k = (if e.memState k = 1 ∨ e.memState k = 3 then 2 else e.memState k)
    -- folds (R362, R382)
    (∀ cause, role = 0 → x.down = some cause → heard →
      let d0 := (took.modLp p fun y => { y with down := none }).drainHome p
      let mine (k : Nat) : Prop := 1 ≤ k ∧ k < 8 ∧ (d0.mem k).up = true ∧ (d0.mem k).port = p
      ∃ d : Dev, exec (.fold p) s = .next (s.finish d) ∧ d.flag (.leyErr p) F.leyErr_FOLD = true ∧
        (∀ k, mine k → gone d0 d k) ∧ (∀ k < 8, ¬ mine k → d.mem k = d0.mem k ∧ d.memState k = d0.memState k) ∧
        (∀ r, r ∈ d.cas.reqs ↔ r ∈ d0.cas.reqs ∧ ¬ mine r.dev) ∧
        (∀ r ∈ d0.cas.reqs, mine r.dev → r.write = true →
          (∃ b, (r.sa / 64, r.dev, b) ∈ d.cas.foldList) ∨ r.dev * 2 ^ 27 + r.sa / 2 ^ 21 ∈ d.cas.foldMap) ∧
        (∀ r ∈ d0.cas.reqs, ∀ id, mine r.dev → r.write = false → r.use = .acc id → ∀ a ∈ d.cip.accs, a.id = id →
          a.folded = true ∧ a.got = some (.uncorrectable { data := 0, md := 0 })) ∧
        d0.keepsRegs d ([.leyErr p, macc, .casMdata, .casFoldstat] ++ (List.range 8).map Reg.casMember)) ∧
    (role ≠ 0 ∨ x.down = none ∨ ¬ heard → alone (.fold p)) ∧
    (∀ era e, role = 0 → x.front 3 0x26 = some (era, e) →
      let k := e.la % 8
      let d0 := (s.dev.drainRsp p (some (era, e))).popRx p (era, e)
      (k = 0 → exec (.foldnote p) s = .next (s.finish d0)) ∧
      (k ≠ 0 → k < d0.cas.mem.length → ∃ d : Dev, exec (.foldnote p) s = .next (s.finish d) ∧
        (e.la.testBit 8 = false → (d0.mem k).up = true → gone d0 d k ∧ d.flag (.leyErr p) F.leyErr_FOLD = true) ∧
        (e.la.testBit 8 = false → (d0.mem k).up = false → d.cas = d0.cas ∧ d.regs = d0.regs) ∧
        (e.la.testBit 8 = true → d0.memState k ≠ 1 → d0.memState k ≠ 3 →
          (d.mem k).up = true ∧ (d.mem k).port = p ∧ (d.mem k).dist = 2 ∧ (d.mem k).via = e.dev) ∧
        (e.la.testBit 8 = true → d0.memState k = 1 ∨ d0.memState k = 3 → d.mem k = d0.mem k ∧ d.regs = d0.regs))) ∧
    -- lines (R351, R372, R383)
    (∀ i vc op, (i, vc, op) ∈ [(Instr.rd p, 0, 1), (.wr p, 1, 8)] → s.dev.leyFirst p vc op = none → alone i) ∧
    (∀ i vc op era e, (i, vc, op) ∈ [(Instr.rd p, 0, 1), (.wr p, 1, 8)] → s.dev.leyFirst p vc op = some (era, e) →
      let room := (e.dev = role → s.dev.cmdRoom e.chan = true) ∧
        (∀ q, e.dev ≠ role → s.dev.downTo e.dev = some q → s.dev.txRoom q = true)
      let on := era ≠ x.era ∨ s.dev.cas.takes = true
      (e.dev = role → s.dev.cmdRoom e.chan = false → exec i s = .next (s.finish (s.dev.overrun (.chnCmd e.chan)))) ∧
      (∀ q, e.dev ≠ role → s.dev.downTo e.dev = some q → s.dev.txRoom q = false →
        exec i s = .next (s.finish (s.dev.overrun (.leyTx q)))) ∧ (role = 0 → room → alone i) ∧
      (role ≠ 0 → room → ¬ on → exec i s = .next (s.finish (s.dev.popRx p (era, e)))) ∧
      (role ≠ 0 → room → on → e.dev = role → e.chan < 24 → e.chan < s.dev.chan.length → ∃ (d : Dev) (y : ChEnt),
        exec i s = .next (s.finish d) ∧ (d.lp p).rxq = x.rxq.erase (era, e) ∧ (d.chn e.chan).cmds = (s.dev.chn e.chan).cmds ++ [y] ∧
        y.write = (vc == 1) ∧ y.ca = 64 * e.la ∧ y.data = { data := e.data.getD 0 0, md := BitVec.ofNat 32 e.md } ∧
        y.use = .ley p era e.tag e.la ∧ d.regs = s.dev.regs ∧ d.out = s.dev.out) ∧
      (role ≠ 0 → room → on → e.dev = role → 24 ≤ e.chan → era = x.era → s.dev.leyUp p = true → ∃ (d : Dev) (y : LeyEnt),
        exec i s = .next (s.finish d) ∧ (d.lp p).rxq = x.rxq.erase (era, e) ∧ sent d p y ∧ y.vc = 2 ∧
        y.op = (if vc = 1 then 0x11 else 0x10) ∧ y.tag = e.tag ∧ y.out = (if vc = 1 then 0 else 3) ∧ d.chan = s.dev.chan ∧
        s.dev.keepsRegs d [.crossLey p]) ∧
      (∀ q, role ≠ 0 → room → on → e.dev ≠ role → s.dev.downTo e.dev = some q → q < s.dev.ley.length → ∃ d : Dev,
        exec i s = .next (s.finish d) ∧ (d.lp p).rxq = x.rxq.erase (era, e) ∧ sent d q { e with via := p + 1 } ∧
        (∃ up, d.cas.fwd = s.dev.cas.fwd ++ [(e.dev, e.tag, up)]) ∧ d.chan = s.dev.chan ∧ d.regs = s.dev.regs) ∧
      (role ≠ 0 → room → e.dev ≠ role → s.dev.downTo e.dev = none → exec i s = .next (s.finish (s.dev.popRx p (era, e))))) ∧
    (∀ i op era e, (i, op) ∈ [(Instr.rdata p, 0x10), (.wacc p, 0x11)] → x.front 2 op = some (era, e) →
      (role = 0 → s.dev.reqOf e (op == 0x11) = none → exec i s = .next (s.finish (s.dev.popRx p (era, e)))) ∧
      (∀ r id, role = 0 → s.dev.reqOf e (op == 0x11) = some r → r.use = .acc id → ∃ d : Dev,
        exec i s = .next (s.finish d) ∧ (d.lp p).rxq = x.rxq.erase (era, e) ∧ d.regs = s.dev.regs ∧
        d.cas.reqs = s.dev.cas.reqs.filter (·.id != r.id) ∧
        (let y : Payload := { data := e.data.getD 0 0, md := BitVec.ofNat 32 e.md }
         op = 0x10 → d.bulk = s.dev.bulk ∧ (3 ≤ e.out → ∀ a ∈ d.cip.accs, a.id ≠ id) ∧ (e.out < 3 → ∀ a ∈ d.cip.accs, a.id = id →
          a.got = some (if e.out = 0 then .clean y else if e.out = 1 then .corrected y e.cdev else .uncorrectable y))) ∧
        (op = 0x11 → (∀ a ∈ d.cip.accs, a.id ≠ id) ∧ (s.dev.beyondMember r = true → d.bulk = s.dev.bulk) ∧
          (s.dev.beyondMember r = false → d.bulk = s.dev.bulk ++ [.put (memberKey r.dev r.chan r.ca) (encode r.data)]))) ∧
      (∀ y u, role ≠ 0 → (s.dev.cas.fwd.find? fun y => y.1 == e.dev && y.2.1 == e.tag) = some y → s.dev.upstream = some u →
        u < s.dev.ley.length →
        let goes := (s.dev.lp u).era = y.2.2 ∧ s.dev.leyUp u = true
        (goes → s.dev.txRoom u = false → exec i s = .next (s.finish (s.dev.overrun (.leyTx u)))) ∧
        (goes → s.dev.txRoom u = true → ∃ d : Dev, exec i s = .next (s.finish d) ∧ d.cas.fwd = s.dev.cas.fwd.erase y ∧
          (d.lp p).rxq = x.rxq.erase (era, e) ∧ d.regs = s.dev.regs ∧ sent d u { e with via := p + 1 }) ∧
        (¬ goes → ∃ d : Dev, exec i s = .next (s.finish d) ∧ d.cas.fwd = s.dev.cas.fwd.erase y ∧
          (d.lp p).rxq = x.rxq.erase (era, e) ∧ d.regs = s.dev.regs ∧ (d.lp u).txq = (s.dev.lp u).txq)) ∧
      (role ≠ 0 → (s.dev.cas.fwd.find? fun y => y.1 == e.dev && y.2.1 == e.tag) = none →
        exec i s = .next (s.finish (s.dev.popRx p (era, e))))) ∧
    -- entries whose turn it is not
    (∀ i vc op, (i, vc, op) ∈ [(Instr.rdata p, 2, 0x10), (.wacc p, 2, 0x11), (.join p, 3, 0x20), (.joinrsp p, 3, 0x21),
      (.foldnote p, 3, 0x26), (.reopen p, 3, 0x27)] → x.front vc op = none → alone i) ∧
    (∀ i op, (i, op) ∈ [(Instr.regrd p, 0x22), (.regrsp p, 0x23), (.record p, 0x25)] → x.front 3 op = none → rest i) ∧
    (x.front 3 0x24 = none → exec (.regwr p) s = .next (s.finish s.dev).keepFailed) ∧
    -- management entries on a member (R372 to R374, R383)
    (∀ op era e, role ≠ 0 → x.front 3 op = some (era, e) → op ∈ [0x21, 0x23, 0x25, 0x26] ∨ e.dev ≠ role →
      let way (q : Nat) : Prop := s.dev.leyUp q = true ∧
        (if s.dev.upstream = some p then s.dev.downTo e.dev = some q ∧ s.dev.cas.takes = true else s.dev.upstream = some q)
      ∃ d : Dev, d.cas = s.dev.cas ∧ d.out = s.dev.out ∧
        (∀ q, way q → s.dev.txRoom q = false → d = s.dev.overrun (.leyTx q)) ∧
        (∀ q, way q → s.dev.txRoom q = true → q < s.dev.ley.length → sent d q { e with via := p + 1 } ∧
          (d.lp p).rxq = x.rxq.erase (era, e) ∧ d.regs = s.dev.regs) ∧
        ((∀ q, ¬ way q) → d = s.dev.popRx p (era, e)) ∧
        (∀ i, (i, op) ∈ [(Instr.join p, 0x20), (.joinrsp p, 0x21), (.foldnote p, 0x26), (.reopen p, 0x27)] →
          exec i s = .next (s.finish d)) ∧
        (∀ i, (i, op) ∈ [(Instr.regrd p, 0x22), (.regrsp p, 0x23), (.record p, 0x25)] → exec i s = .next (s.settle d)) ∧
        (op = 0x24 → exec (.regwr p) s = .next (s.finish d).keepFailed)) ∧
    (∀ op era e u, role ≠ 0 → x.front 3 op = some (era, e) → e.dev = role → s.dev.upstream = some u → u < s.dev.ley.length →
      let d0 := s.dev.popRx p (era, e)
      let up := s.dev.leyUp u
      let ans (v : Nat) (bad : Bool) : LeyEnt := { vc := 3, op := 0x23, dev := role, la := b2n bad, md := v }
      let cause := s.dev.accessCause .mgmt e.la 4
      let takes := s.dev.cas.takes = true
      (op = 0x20 → ∃ d : Dev, exec (.join p) s = .next (s.finish d) ∧ d.cas.joinDue = some e.md ∧
        (d.lp p).rxq = x.rxq.erase (era, e) ∧ d.regs = s.dev.regs ∧ d.out = s.dev.out) ∧
      (op = 0x27 → ∃ d : Dev, exec (.reopen p) s = .next (s.finish d) ∧ d.cas.session = s.dev.cas.session ∧
        s.dev.keepsRegs d [.crossLey u] ∧ (up = true → joins d u) ∧ (up = false → d.cas.takes = false ∧ d.ley = d0.ley)) ∧
      (op = 0x22 → takes → up = true → ∃ d : Dev, exec (.regrd p) s = .next (s.settle d) ∧
        sent d u (ans (d0.readAccess s.stile .mgmt e.la 4) cause.isSome) ∧
        s.dev.keepsRegs d (.crossLey u :: if cause.isSome then [.gblAccerr] else [])) ∧
      (op = 0x24 → takes → up = true → cause.isSome = true → ∃ d : Dev,
        exec (.regwr p) s = .next (s.finish d).keepFailed ∧ sent d u (ans e.md true) ∧ s.dev.keepsRegs d [.crossLey u, .gblAccerr]) ∧
      (op = 0x22 → ¬ takes → exec (.regrd p) s = .next (s.settle d0)) ∧
      (op = 0x24 → ¬ takes → exec (.regwr p) s = .next (s.finish d0).keepFailed) ∧
      (op = 0x24 → takes → cause = none →
        let w := Dev.writeAccess s.nv (d0, s.stile) .mgmt 0 e.la 4 e.md
        w.1.upstream = some u → w.1.role = role → u < w.1.ley.length → w.1.leyUp u = true → ∃ d : Dev,
        exec (.regwr p) s = .next ({ s with stile := w.2 }.finish (d.stileNote s.stile w.2)).keepFailed ∧
        w.1.keepsRegs d [.crossLey u] ∧ (d.lp u).txq = (w.1.lp u).txq ++ [ans e.md false])) ∧
    (∀ v u, s.dev.cas.joinDue = some v → role ≠ 0 → s.dev.allTrained = true → s.dev.upstream = some u → u < s.dev.ley.length →
      ∃ d : Dev, exec .memberJoinReady s = .next (s.settle d) ∧ d.flag .casId F.casId_JOINED = true ∧ d.cas.joinDue = none ∧
        d.cas.session = v ∧ (s.dev.leyUp u = true → joins d u) ∧ s.dev.keepsRegs d [.casId, .crossLey u]) ∧
    (s.dev.cas.joinDue = none ∨ role = 0 ∨ s.dev.allTrained = false ∨ s.dev.upstream = none → rest .memberJoinReady) ∧
    -- management entries at the dealer (R373, R375, R376, R384)
    (∀ op era e, role = 0 → x.front 3 op = some (era, e) →
      let d0 := s.dev.popRx p (era, e)
      (∀ i, (i, op) ∈ [(Instr.join p, 0x20), (.reopen p, 0x27)] → exec i s = .next (s.finish d0)) ∧
      (op = 0x22 → exec (.regrd p) s = .next (s.settle d0)) ∧
      (op = 0x24 → exec (.regwr p) s = .next (s.finish d0).keepFailed)) ∧
    (∀ era e, role = 0 → x.front 3 0x21 = some (era, e) →
      let v := (e.data.getD 0 0).toNat + (e.data.getD 1 0).toNat * 2 ^ 512
      let k := bitsOf v 71 64 % 8
      let dist := bitsOf v 79 72
      let serial := bitsOf v 63 0
      let session := bitsOf v 127 96
      ((s.dev.mem k).step = .joining session → ∃ d : Dev, exec (.joinrsp p) s = .next (s.finish d) ∧ (d.mem k).step = .none ∧
        d.fld (.casMember k) F.casMember_PORT = p ∧ s.dev.keepsRegs d [.casMember k, .casMser k] ∧
        (dist < 3 → d.memState k = 1 ∧ d.rd (.casMser k) = serial ∧ d.fld (.casMember k) F.casMember_SESSION = session ∧
          d.fld (.casMember k) F.casMember_DIST = dist) ∧
        (3 ≤ dist → d.memState k = 5)) ∧
      ((s.dev.mem k).step = .reopening → ∃ d : Dev, exec (.joinrsp p) s = .next (s.finish d) ∧
        s.dev.keepsRegs d [.casMember k] ∧
        (serial = s.dev.fld (.casMser k) F.casMser_SERIAL → session = s.dev.fld (.casMember k) F.casMember_SESSION →
          d.memberServes k = true → (d.mem k).step = .poisoning ∧ d.memState k = s.dev.memState k) ∧
        (serial ≠ s.dev.fld (.casMser k) F.casMser_SERIAL ∨ session ≠ s.dev.fld (.casMember k) F.casMember_SESSION ∨
          d.memberServes k = false → d.memState k = 4)) ∧
      ((s.dev.mem k).step ≠ .joining session → (s.dev.mem k).step ≠ .reopening →
        exec (.joinrsp p) s = .next (s.finish (s.dev.popRx p (era, e))))) ∧
    (∀ era e, role = 0 → x.front 3 0x23 = some (era, e) →
      (s.dev.flag macc F.casMacc_DONE = false → s.dev.fld macc F.casMacc_DEV = e.dev → ∃ d : Dev,
        exec (.regrsp p) s = .next (s.settle d) ∧ d.flag macc F.casMacc_DONE = true ∧ s.dev.keepsRegs d [macc, .casMdata] ∧
        (e.la.testBit 0 = false → e.md < 2 ^ 32 → d.rd .casMdata = e.md) ∧
        (e.la.testBit 0 = true → d.flag macc F.casMacc_ERR = true ∧ d.rd .casMdata = ones)) ∧
      (s.dev.flag macc F.casMacc_DONE = true ∨ s.dev.fld macc F.casMacc_DEV ≠ e.dev →
        exec (.regrsp p) s = .next (s.settle (s.dev.popRx p (era, e))))) ∧
    (∀ era e, role = 0 → x.front 3 0x25 = some (era, e) →
      let v := (e.data.getD 0 0).toNat + (e.data.getD 1 0).toNat * 2 ^ 512
      let b := v >>> 384
      let unit := bitsOf b 47 32
      ∃ (d : Dev) (r : Rec), exec (.record p) s = .next (s.settle d) ∧ d.regs = s.dev.regs ∧ d.cas = s.dev.cas ∧
        d.out = s.dev.out ∧ d.logs = s.dev.logs.put s.dev.nowNs 16 r ∧ r.kind = kindOf (v % 2 ^ 128) (b % 256) ∧
        (r.kind = .vendor → r.ty = bitsOf b 15 0 ∧ r.detail = bitsOf b 255 192 ∧ r.addr0 = bitsOf b 127 64 ∧
          r.unit = if unit / 256 = 8 then 0x800 + (24 * e.dev + unit % 256) % 256 else unit)) ∧
    -- registers of the dealer (R375, R380, R384 to R386)
    (∀ r i, (r, i) ∈ [(Reg.casCtrl, Instr.casReopen), (.casFoldmap, .foldmapEnable)] → s.reaches r → role ≠ 0 → alone i) ∧
    (∀ r i, (r, i) ∈ [(Reg.casCtrl, Instr.forget), (macc, .memberRegAccess)] → s.reaches r → role ≠ 0 → rest i) ∧
    (s.reaches .casCtrl → role = 0 →
      let k := s.dev.fld .casCtrl F.casCtrl_RDEV
      let q := (s.dev.mem k).port
      (k ≠ 0 → s.dev.memState k = 3 → (s.dev.mem k).step = .waiting → q < s.dev.ley.length → ∃ d : Dev,
        exec .casReopen s = .next (s.finish d) ∧ (d.mem k).step = .reopening ∧
        sent d q { vc := 3, op := 0x27, dev := k, md := s.dev.fld (.casMember k) F.casMember_SESSION } ∧
        s.dev.keepsRegs d [islandReg (XId.leyTx q).island]) ∧
      (k ≠ 0 → s.dev.memState k = 2 → k < s.dev.cas.mem.length → ∃ d : Dev, exec .casReopen s = .next (s.finish d) ∧
        (d.mem k).asked = true ∧ d.regs = s.dev.regs ∧ d.ley = s.dev.ley) ∧
      (k = 0 ∨ (s.dev.memState k ≠ 2 ∧ ¬ (s.dev.memState k = 3 ∧ (s.dev.mem k).step = .waiting)) → ∃ d : Dev,
        exec .casReopen s = .next (s.finish d) ∧ d.flag .casCtrl F.casCtrl_ERR = true ∧ s.dev.keepsRegs d [.casCtrl] ∧
        d.cas = s.dev.cas) ∧
      (k ≠ 0 → s.dev.memState k = 4 → ∃ d : Dev, exec .forget s = .next (s.settle d) ∧ d.memState k = 0 ∧
        d.cas.foldList = s.dev.cas.foldList.filter (fun y => y.2.1 != k) ∧
        d.cas.foldMap = s.dev.cas.foldMap.filter (fun b => b / 2 ^ 27 != k) ∧ s.dev.keepsRegs d [.casMember k]) ∧
      (k = 0 ∨ s.dev.memState k ≠ 4 → ∃ d : Dev, exec .forget s = .next (s.settle d) ∧
        d.flag .casCtrl F.casCtrl_ERR = true ∧ s.dev.keepsRegs d [.casCtrl] ∧ d.cas = s.dev.cas)) ∧
    (s.reaches macc → role = 0 →
      let k := s.dev.fld macc F.casMacc_DEV
      (s.dev.flag macc F.casMacc_DONE = false → rest .memberRegAccess) ∧
      (s.dev.flag macc F.casMacc_DONE = true → k = 0 ∨ s.dev.memState k ≠ 1 → ∃ d : Dev,
        exec .memberRegAccess s = .next (s.settle d) ∧ d.flag macc F.casMacc_DONE = true ∧ d.flag macc F.casMacc_ERR = true ∧
        d.rd .casMdata = ones ∧ s.dev.keepsRegs d [macc, .casMdata] ∧ d.ley = s.dev.ley) ∧
      (s.dev.flag macc F.casMacc_DONE = true → k ≠ 0 → s.dev.memState k = 1 → s.dev.memPort k < s.dev.ley.length → ∃ d : Dev,
        exec .memberRegAccess s = .next (s.settle d) ∧ d.flag macc F.casMacc_DONE = false ∧
        s.dev.keepsRegs d [macc, .crossLey (s.dev.memPort k)] ∧
        sent d (s.dev.memPort k)
          { vc := 3, op := if s.dev.flag macc F.casMacc_WR then 0x24 else 0x22, dev := k, la := s.dev.fld macc F.casMacc_OFFSET,
            md := s.dev.rd .casMdata })) ∧
    (s.reaches .casFoldmap → role = 0 →
      let a := s.dev.fld .casFoldmap F.casFoldmap_BASE * 2 ^ 27
      let hit (y : Nat × Nat) : Prop := overlaps a (2 ^ 27) y.1 y.2 = true
      let refused := s.dev.covered a (2 ^ 27) = false ∨ s.dev.homeOnly a (2 ^ 27) = false ∨ s.dev.hitsCounters a (2 ^ 27) = true ∨
        (∃ k < 16, s.dev.poolEn k = true ∧ hit (s.dev.poolSpan k)) ∨ (∃ k < 16, s.dev.winEn k = true ∧ hit (s.dev.flatRange k)) ∨
        hit (s.dev.ftab, 2 ^ 30)
      let v := s.dev.flag .casFoldmap F.casFoldmap_V
      (s.dev.anyJoined = true ∨ v = true → alone .foldmapEnable) ∧
      (s.dev.anyJoined = false → v = false → refused → ∃ d : Dev, exec .foldmapEnable s = .next (s.finish d) ∧
        d.flag .casFoldmap F.casFoldmap_V = false ∧ d.flag .casCtrl F.casCtrl_ERR = true ∧
        s.dev.keepsRegs d [.casFoldmap, .casCtrl] ∧ d.cas = s.dev.cas) ∧
      (s.dev.anyJoined = false → v = false → ¬ refused → ∃ d : Dev, exec .foldmapEnable s = .next (s.finish d) ∧
        d.flag .casFoldmap F.casFoldmap_V = true ∧ d.cas.foldMap = [] ∧
        s.dev.keepsRegs d (.casFoldmap :: (List.range 8).map fun k => islandReg (XId.leyTx (s.dev.mem k).port).island) ∧
        ∀ k < 8, 1 ≤ k → (s.dev.mem k).up = true → s.dev.memState k = 0 → (d.mem k).step ≠ .none)) ∧
    -- recovery and lost links (R382 to R384)
    (∀ k < 8, 1 ≤ k → s.dev.memState k = 3 → (s.dev.mem k).step = .poisoning → ∃ d : Dev,
      exec (.memberRecoveryComplete k) s = .next (s.finish d) ∧ d.memState k = 1 ∧ (d.mem k).step = .none ∧
      (∀ y ∈ d.cas.foldList, y.2.1 ≠ k) ∧ (∀ b ∈ d.cas.foldMap, b / 2 ^ 27 ≠ k) ∧
      ((∀ b ∈ s.dev.cas.foldMap, b / 2 ^ 27 ≠ k) → (∀ y ∈ s.dev.cas.foldList, y.2.1 = k → s.dev.ctrFrameAt (y.1 * 64) = none) →
        ∀ y ∈ s.dev.cas.foldList, y.2.1 = k → ∃ a ∈ d.cip.accs, a.sa = y.1 * 64 ∧ a.kind = .write ∧ a.poison = true)) ∧
    (∀ k < 8, 1 ≤ k → s.dev.memState k ≠ 3 ∨ (s.dev.mem k).step ≠ .poisoning → alone (.memberRecoveryComplete k)) ∧
    (∀ cause, x.down = some cause → role ≠ 0 → s.dev.upstream = some p → heard → (s.dev.eventTransfer (.leyEvt p)).1 = [0] →
      let w := x.rxq.foldl (rxMember s.nv p) (took, s.stile)
      exec (.memberLinkDown p) s =
        .next ({ s with stile := w.2 }.finish ((w.1.memberDownAct p).stileNote s.stile w.2)).keepFailed ∧
      (x.rxq = [] → ∃ d : Dev, exec (.memberLinkDown p) s = .next (s.finish d).keepFailed ∧ (d.lp p).down = none ∧
        d.cas.takes = false ∧ d.cas.joinDue = none ∧ d.cas.session = s.dev.cas.session ∧ d.cas.recs = s.dev.cas.recs ∧
        d.flag (.leyErr p) F.leyErr_FOLD = true ∧ d.chan = s.dev.chan ∧ s.dev.keepsRegs d [.leyErr p, .casId])) ∧
    (role = 0 ∨ s.dev.upstream ≠ some p ∨ x.down = none ∨ ¬ heard →
      exec (.memberLinkDown p) s = .next (s.finish s.dev).keepFailed) ∧
    (∀ cause, x.down = some cause → role ≠ 0 → s.dev.upstream ≠ some p → heard →
      let d1 := ((took.modLp p fun y => { y with down := none }).setFlag (.leyErr p) F.leyErr_FOLD true).drainHome p
      ∃ d : Dev, exec (.downstreamLinkDown p) s = .next (s.finish d) ∧
        (s.dev.isDown p = false → (d.lp p).down = none ∧ d.flag (.leyErr p) F.leyErr_FOLD = true ∧ (d.lp p).rxq = x.rxq ∧
          s.dev.keepsRegs d [.leyErr p, .casId]) ∧
        (∀ u, s.dev.isDown p = true → d1.upstream = some u → u < d1.ley.length →
          (∀ y ∈ (d.lp u).rxq, y.2.vc < 2 → y.2.dev ≠ s.dev.leyPdev p) ∧
          (d1.cas.takes = true → (d.lp u).txq = (d1.lp u).txq ++
            [{ vc := 3, op := 0x26, dev := d1.role, la := s.dev.leyPdev p, via := p + 1 }]) ∧
          (d1.cas.takes = false → (d.lp u).txq = (d1.lp u).txq) ∧ d1.keepsRegs d [.crossLey u])) ∧
    (role = 0 ∨ s.dev.upstream = some p ∨ x.down = none ∨ ¬ heard → alone (.downstreamLinkDown p))

/-- FAST_TRIP of a feed in RAMP or ON pulls both of its gates off at once, whatever its fault timer says, and the feed faults with cause 3, fast trip (Table 15.7). -/
def Obligations.FastTrips : Prop :=
  ∀ (s : State) (i vin : Nat), s.stile.running = true → i < 2 → vin < 2 ^ 16 → (s.stile.feed i).driven = true →
    ∃ t, exec (.fastTrip i vin) s = .next t ∧ (t.stile.feed i).gps = false ∧ (t.stile.feed i).gor = false ∧
      (t.stile.feed i).cause = 3 ∧ ((t.stile.feed i).state = .cool ∨ (t.stile.feed i).state = .latched) ∧ s.onlyStile t

/-- A ramp that times out faults with cause 4, an expired fault timer with cause 1 in RAMP and 2 in ON. A fault of any cause pulls the gates off and stops the timer, counts a retry up to 15, and leaves the feed in COOL while retries are left under RTY and LATCHED otherwise; it is logged with its time, feed, cause and input. -/
def Obligations.FeedFaults : Prop :=
  ∀ (s : State) (i vin : Nat), s.stile.running = true → i < 2 → vin < 2 ^ 16 →
    let f := s.stile.feed i
    let left := match rtyLimit (s.stile.f (.stlFeedCtrl i) F.stlFeedCtrl_RTY) with | none => True | some k => f.retries + 1 ≤ k
    ∀ c ∈ [(Instr.rampTimeout i vin, f.state = .ramp, 4), (Instr.faultTimerExpiry i vin, f.ftRun = true, if f.state = .ramp then 1 else 2),
        (Instr.fastTrip i vin, f.driven = true, 3)], c.2.1 →
      ∃ t, exec c.1 s = .next t ∧ s.onlyStile t ∧
        let g := t.stile.feed i
        g.gps = false ∧ g.gor = false ∧ g.ilim = false ∧ g.ftRun = false ∧ g.cause = c.2.2 ∧ g.retries = min (f.retries + 1) 15 ∧
        (left → g.state = .cool) ∧ (¬ left → g.state = .latched) ∧ t.stile.regs = s.stile.regs ∧
        (s.stile.count < 16 → t.stile.count = s.stile.count + 1 ∧ t.stile.oldest = s.stile.oldest) ∧
        (16 ≤ s.stile.count → t.stile.count = s.stile.count ∧ t.stile.ovf = true ∧ t.stile.oldest = (s.stile.oldest + 1) % 16) ∧
        ∃ e, kvFind? t.stile.log (if s.stile.count < 16 then (s.stile.oldest + s.stile.count) % 16 else s.stile.oldest) = some e ∧
          e.feed = i ∧ e.cause = c.2.2 ∧ e.vin = vin

/-- PASS_FET_DAMAGED of a feed with both gates off, and ORING_FET_DAMAGED of one with its ORing gate off, put it in FET_BAD with cause 5 or 6 and its gates off. CURRENT_LIMIT of a driven feed holds the limit and runs the fault timer, FAULT_TIMER_CLEAR stops it at zero, REVERSE_TURN_OFF of a feed in ON pulls its ORing gate off, and RETRY_COUNT_RESET returns its count to zero; none of these four changes the feed's state. Where the condition of a feed's event does not hold, the event leaves Stile as it is, and while Stile does not run nothing happens. -/
def Obligations.FetsAndLimits : Prop :=
  ∀ (s : State) (i vin : Nat), s.stile.running = true → i < 2 → vin < 2 ^ 16 →
    let f := s.stile.feed i
    (∀ c ∈ [(Instr.passFetDamaged i vin, f.gps = false ∧ f.gor = false, 5), (Instr.oringFetDamaged i vin, f.gor = false, 6)],
      c.2.1 → f.state ≠ .fetBad → ∃ t, exec c.1 s = .next t ∧ s.onlyStile t ∧ (t.stile.feed i).state = .fetBad ∧
        (t.stile.feed i).cause = c.2.2 ∧ (t.stile.feed i).gps = false ∧ (t.stile.feed i).gor = false ∧
        (t.stile.feed i).retries = f.retries) ∧
    (f.driven = true → ∃ t, exec (.currentLimit i) s = .next t ∧ s.onlyStile t ∧ (t.stile.feed i).ilim = true ∧
      (t.stile.feed i).ftRun = true ∧ (t.stile.feed i).gps = f.gps ∧ (t.stile.feed i).gor = f.gor ∧ (t.stile.feed i).state = f.state ∧
      (f.ftRun = false → (t.stile.feed i).ftTime = 0 ∧ (t.stile.feed i).ftBound = s.stile.ftMicros)) ∧
    (f.ftRun = true → f.state ≠ .wait → ∃ t, exec (.faultTimerClear i) s = .next t ∧ s.onlyStile t ∧ (t.stile.feed i).ftRun = false ∧
      (t.stile.feed i).ftTime = 0 ∧ (t.stile.feed i).state = f.state) ∧
    (∀ c ∈ [(Instr.rampTimeout i vin, f.state = .ramp), (.faultTimerExpiry i vin, f.ftRun = true), (.fastTrip i vin, f.driven = true),
        (.passFetDamaged i vin, f.gps = false ∧ f.gor = false ∧ f.state ≠ .fetBad), (.oringFetDamaged i vin, f.gor = false ∧ f.state ≠ .fetBad),
        (.currentLimit i, f.driven = true), (.faultTimerClear i, f.ftRun = true), (.reverseTurnOff i, f.state = .on),
        (.retryCountReset i, f.state = .on), (.qualificationComplete i, f.state = .qual), (.coolExpiry i, f.state = .cool),
        (.latchInputLowExpiry i, f.state = .latched)], ¬ c.2 → ∃ t, exec c.1 s = .next t ∧ s.onlyStile t ∧ t.stile = s.stile) ∧
    (f.state = .on → (∃ t, exec (.reverseTurnOff i) s = .next t ∧ s.onlyStile t ∧ (t.stile.feed i).gor = false ∧
        (t.stile.feed i).gps = f.gps ∧ (t.stile.feed i).state = .on) ∧
      ∃ t, exec (.retryCountReset i) s = .next t ∧ s.onlyStile t ∧ (t.stile.feed i).retries = 0 ∧ (t.stile.feed i).state = .on)

/-- QUALIFICATION_COMPLETE of a feed in QUAL puts it in WAIT, and in RAMP where the start slot is free and the other feed does not wait. COOL_EXPIRY of a feed in COOL ramps it again unless the other feed ramps (the model's choice: log entry 71). LATCH_INPUT_LOW_EXPIRY returns a LATCHED feed to OFF with its retries at zero. PG_HOLD_EXPIRY of a decided withdrawal deasserts PG with PFW_N asserted. ORDERLY_GATE_OFF with PG deasserted turns off the feeds that wait for it. STL_OFF_N_ASSERT holds the feeds off: one in QUAL, WAIT, RAMP or COOL is OFF at once, and STL_OFF_N_RELEASE lets them requalify. -/
def Obligations.FeedTransitions : Prop :=
  ∀ (s : State) (i : Nat), s.stile.running = true → i < 2 →
    let f := s.stile.feed i
    let o := s.stile.feed (1 - i)
    (f.state = .qual → ∃ t, exec (.qualificationComplete i) s = .next t ∧ s.onlyStile t ∧
      (s.stile.slot ≠ 0 → (t.stile.feed i).state = .wait) ∧
      (s.stile.slot = 0 → o.state ≠ .wait → (t.stile.feed i).state = .ramp ∧ (t.stile.feed i).gps = true)) ∧
    (f.state = .cool → o.state = .ramp → ∃ t, exec (.coolExpiry i) s = .next t ∧ s.onlyStile t ∧
      t.stile.feed i = f ∧ t.stile.feed (1 - i) = o) ∧
    (f.state = .cool → o.state ≠ .ramp → ∃ t, exec (.coolExpiry i) s = .next t ∧ s.onlyStile t ∧
      (t.stile.feed i).state = .ramp ∧ (t.stile.feed i).gps = true ∧ (t.stile.feed i).retries = f.retries) ∧
    (f.state = .latched → ∃ t, exec (.latchInputLowExpiry i) s = .next t ∧ s.onlyStile t ∧
      (t.stile.feed i).state = .off ∧ (t.stile.feed i).retries = 0 ∧ (t.stile.feed i).gps = false) ∧
    (s.stile.withdraw = true → ∃ t, exec .pgHoldExpiry s = .next t ∧ s.onlyStile t ∧ t.stile.pg = false ∧ t.stile.pfw = true ∧
      t.stile.withdraw = false ∧ t.stile.feedA = s.stile.feedA ∧ t.stile.feedB = s.stile.feedB) ∧
    (s.stile.withdraw = false → ∃ t, exec .pgHoldExpiry s = .next t ∧ s.onlyStile t ∧ t.stile = s.stile) ∧
    (s.stile.pg = true → ∃ t, exec .orderlyGateOff s = .next t ∧ s.onlyStile t ∧ t.stile = s.stile.passSlot) ∧
    (s.stile.pg = false → f.orderly.isSome = true → ∃ t, exec .orderlyGateOff s = .next t ∧ s.onlyStile t ∧
      (t.stile.feed i).state = .off ∧ (t.stile.feed i).gps = false ∧ (t.stile.feed i).gor = false) ∧
    (∃ t, exec .stlOffNAssert s = .next t ∧ s.onlyStile t ∧ t.stile.eject = true ∧
      (f.state ∈ [FeedState.off, .qual, .wait, .ramp, .cool] → (t.stile.feed i).state = .off)) ∧
    (∃ t, exec .stlOffNRelease s = .next t ∧ s.onlyStile t ∧ t.stile.eject = false ∧ t.stile.feedA = s.stile.feedA ∧
      t.stile.feedB = s.stile.feedB)

/-- STILE_POR of a Stile that does not run and is armed samples its straps by majority and puts every register at its reset value or the strap's default, with both feeds OFF and an empty log. STILE_STANDBY_LOSS stops Stile and arms its power-on reset after 10 ms below 15 V. STILE_EVALUATION_STEP of a running Stile takes one microsecond and writes no register. STILE_MEASUREMENT stores the measurement with the next SEQ. STILE_THERMAL_SHUTDOWN latches off each feed that is not already off, with cause 3. A Stile that does not run takes none of its events, and an evaluation step leaves it as it is while its power-on reset is armed or both inputs are below 18 V. -/
def Obligations.StileDie : Prop :=
  ∀ s : State,
    (∀ s1 s2 s3, s.stile.running = false → s.stile.armed = true → ∃ t, exec (.stilePor s1 s2 s3) s = .next t ∧ s.onlyStile t ∧
      t.stile.running = true ∧ t.stile.feedA.state = .off ∧ t.stile.feedB.state = .off ∧ t.stile.count = 0 ∧ t.stile.pg = false ∧
      t.stile.dlyStrap = majority3 s1 s2 s3 % 8 ∧ t.stile.rtyStrap = majority3 s1 s2 s3 / 8 % 4 ∧
      t.stile.f .stlTime F.stlTime_FT = ftOfStrap (majority3 s1 s2 s3 / 2 ^ 7 % 4) ∧
      t.stile.f .stlTime F.stlTime_RAMP = rampOfStrap (majority3 s1 s2 s3 / 2 ^ 5 % 4) ∧
      t.stile.regs.get .stlVthr = (Reg.stlVthr).resetNat % 2 ^ 64 ∧ t.stile.regs.get .stlIlim = (Reg.stlIlim).resetNat % 2 ^ 64) ∧
    (∀ s1 s2 s3, s.stile.running = true ∨ s.stile.armed = false → exec (.stilePor s1 s2 s3) s = .next s) ∧
    (s.stile.running = false →
      (∀ x, s.stile.armed = true ∨ (x.vinA < 1800 ∧ x.vinB < 1800) →
        ∃ t, exec (.stileEvaluationStep x) s = .next t ∧ s.onlyStile t ∧ t.stile = s.stile) ∧
      ∀ i vin x, i < 2 → vin < 2 ^ 16 → ∀ c ∈ [Instr.rampTimeout i vin, .faultTimerExpiry i vin, .fastTrip i vin, .passFetDamaged i vin,
        .oringFetDamaged i vin, .currentLimit i, .faultTimerClear i, .reverseTurnOff i, .retryCountReset i, .qualificationComplete i,
        .coolExpiry i, .latchInputLowExpiry i, .pgHoldExpiry, .orderlyGateOff, .stlOffNAssert, .stlOffNRelease, .stileMeasurement x,
        .stileThermalShutdown vin vin], exec c s = .next s) ∧
    (s.stile.running = true →
      (∀ ms, ms < 2 ^ 32 → ∃ t, exec (.stileStandbyLoss ms) s = .next t ∧ s.onlyStile t ∧
        t.stile = { s.stile with running := false, armed := s.stile.armed || decide (10 ≤ ms) }) ∧
      (∀ x, ∃ t, exec (.stileEvaluationStep x) s = .next t ∧ s.onlyStile t ∧ t.stile.time = s.stile.time + 1 ∧
        t.stile.regs = s.stile.regs ∧ t.stile.meas = s.stile.meas ∧ t.stile.seq = s.stile.seq) ∧
      (∀ x, ∃ t, exec (.stileMeasurement x) s = .next t ∧ s.onlyStile t ∧
        t.stile = { s.stile with meas := x, seq := (s.stile.seq + 1) % 2 ^ 16 }) ∧
      (∀ va vb i, va < 2 ^ 16 → vb < 2 ^ 16 → i < 2 → (s.stile.feed i).state ∉ [FeedState.off, .latched, .fetBad] →
        ∃ t, exec (.stileThermalShutdown va vb) s = .next t ∧ s.onlyStile t ∧ (t.stile.feed i).state = .latched ∧
          (t.stile.feed i).cause = 3 ∧ (t.stile.feed i).gps = false ∧ (t.stile.feed i).gor = false))

/-- Through a proxy that works: FEED_ENABLE sets EN; FEED_DISABLE clears it and turns off a feed in QUAL, WAIT, RAMP or COOL, or one in ON beside another or with PG deasserted, while the last feed that keeps PG asserted waits for the withdrawal of PG, which is decided; RESTART returns a LATCHED feed to OFF and CLR_FET a FET_BAD one, and otherwise each sets ERR and leaves the feed; STL_VTHR_WRITE takes thresholds in the order UV_OFF < UV_ON < OV_ON < OV_OFF, UV_OFF < WARN < OV_ON as a whole, and refuses any others with ERR; POP removes the oldest log entry. STILE_LOG_DRAIN raises and removes up to 16 of them. STILE_LINK_LOST cuts the proxy off and leaves Stile as it is; through a proxy that does not work no write reaches Stile. -/
def Obligations.StileWrites : Prop :=
  ∀ (s : State) (i : Nat), i < 2 →
    (s.reachesStile (.stlFeedCtrl i) →
      let f := s.stile.feed i
      (∃ t, exec (.feedEnable i) s = .next t ∧ s.onlyStile t ∧ t.stile.en i = true ∧ t.stile.feedA = s.stile.feedA ∧
        t.stile.feedB = s.stile.feedB) ∧
      (∃ t, exec (.feedDisable i) s = .next t ∧ s.onlyStile t ∧ t.stile.en i = false ∧
        (f.state ∈ [FeedState.qual, .wait, .ramp, .cool] → (t.stile.feed i).state = .off ∧ (t.stile.feed i).cause = 10) ∧
        (f.state = .on → f.orderly = none → s.stile.pg = true → s.stile.otherOn i = false → (t.stile.feed i).state = .on ∧
          (t.stile.feed i).orderly = some 10 ∧ (t.stile.feed i).gps = f.gps ∧ (t.stile.feed i).gor = f.gor ∧ t.stile.withdraw = true) ∧
        (f.state = .on → f.orderly = none → s.stile.pg = false ∨ s.stile.otherOn i = true → (t.stile.feed i).state = .off ∧
          (t.stile.feed i).gps = false ∧ (t.stile.feed i).gor = false ∧ t.stile.pg = s.stile.pg) ∧
        (f.state ∈ [FeedState.off, .latched, .fetBad] → t.stile.feed i = f) ∧
        t.stile.feed (1 - i) = s.stile.feed (1 - i)) ∧
      (f.state = .latched → ∃ t, exec (.restart i) s = .next t ∧ s.onlyStile t ∧ t.stile.feed i = f.toOff) ∧
      (f.state ≠ .latched → ∃ t, exec (.restart i) s = .next t ∧ s.onlyStile t ∧ t.stile.feed i = f ∧
        t.stile.regs.flag (.stlFeedCtrl i) F.stlFeedCtrl_ERR = true) ∧
      (f.state = .fetBad → ∃ t, exec (.clrFet i) s = .next t ∧ s.onlyStile t ∧ t.stile.feed i = f.toOff) ∧
      (f.state ≠ .fetBad → ∃ t, exec (.clrFet i) s = .next t ∧ s.onlyStile t ∧ t.stile.feed i = f ∧
        t.stile.regs.flag (.stlFeedCtrl i) F.stlFeedCtrl_ERR = true)) ∧
    (s.reachesStile .stlVthr → ∀ uvOff uvOn ovOff ovOn warn, uvOff < 1024 → uvOn < 1024 → ovOff < 1024 → ovOn < 1024 → warn < 1024 →
      let w := uvOff + uvOn * 2 ^ 10 + ovOff * 2 ^ 20 + ovOn * 2 ^ 30 + warn * 2 ^ 40
      ∃ t, exec (.stlVthrWrite w) s = .next t ∧ s.onlyStile t ∧
        (uvOff < uvOn ∧ uvOn < ovOn ∧ ovOn < ovOff ∧ uvOff < warn ∧ warn < ovOn →
          t.stile.uvOff = uvOff * 10 ∧ t.stile.uvOn = uvOn * 10 ∧ t.stile.ovOff = ovOff * 10 ∧ t.stile.ovOn = ovOn * 10 ∧
            t.stile.warn = warn * 10) ∧
        (¬ (uvOff < uvOn ∧ uvOn < ovOn ∧ ovOn < ovOff ∧ uvOff < warn ∧ warn < ovOn) →
          t.stile.regs.flag .stlVthr F.stlVthr_ERR = true ∧ t.stile.uvOff = s.stile.uvOff ∧ t.stile.uvOn = s.stile.uvOn ∧
            t.stile.ovOff = s.stile.ovOff ∧ t.stile.ovOn = s.stile.ovOn ∧ t.stile.warn = s.stile.warn)) ∧
    (∀ c ∈ [(Reg.stlFeedCtrl i, Instr.feedEnable i), (.stlFeedCtrl i, .feedDisable i), (.stlFeedCtrl i, .restart i), (.stlFeedCtrl i, .clrFet i),
        (.stlLogstat, .pop), (.stlVthr, .stlVthrWrite 0)], s.reaches c.1 → s.dev.mgt.stlLost = true ∨ s.stile.running = false →
      ∃ t, exec c.2 s = .next t ∧ s.onlyStile t ∧ t.stile = s.stile) ∧
    (s.reachesStile .stlLogstat → s.stile.count = 0 → ∃ t, exec .pop s = .next t ∧ s.onlyStile t ∧ t.stile = s.stile) ∧
    (s.up = true → s.dev.mgt.stlLost = true ∨ s.dev.mgt.restarting = true ∨ s.stile.running = false →
      ∃ t, exec .stileLogDrain s = .next t ∧ s.onlyStile t ∧ t.stile = s.stile) ∧
    (s.reachesStile .stlLogstat → 0 < s.stile.count → ∃ t, exec .pop s = .next t ∧ s.onlyStile t ∧
      t.stile.count = s.stile.count - 1 ∧ t.stile.oldest = (s.stile.oldest + 1) % 16 ∧ kvFind? t.stile.log s.stile.oldest = none ∧
      ∀ k, k ≠ s.stile.oldest → kvFind? t.stile.log k = kvFind? s.stile.log k) ∧
    (s.up = true → s.dev.mgt.stlLost = false → s.dev.mgt.restarting = false → s.stile.running = true →
      ∃ t, exec .stileLogDrain s = .next t ∧ s.onlyStile t ∧ t.stile.count = s.stile.count - 16 ∧ t.stile.feedA = s.stile.feedA ∧
        t.stile.feedB = s.stile.feedB ∧ t.stile.regs = s.stile.regs) ∧
    (s.up = true → ∃ t, exec .stileLinkLost s = .next t ∧ s.onlyStile t ∧ t.dev.mgt.stlLost = true ∧ t.stile = s.stile)

/-- TALLY_SWEEP with EN clear reads nothing. With EN set, every enabled watch on a counter that exists and is not in error keeps the counter's value, and its bit of TAL_WATCHSTAT sets where it has a value of the last sweep and the test value passes THRESH. A counter whose parity fails is cleared and its watch keeps 0; one whose words of the buffer fail leaves its watch as it is; each kind of error sets its flag, and corrected errors are counted. -/
def Obligations.SweepsAndWatches : Prop :=
  ∀ (s : State) (par ue : List Nat) (ce : Nat), s.up = true →
    let run := exec (.tallySweep par ue ce) s
    (s.dev.flag .talCtrl F.talCtrl_EN = false →
      ∃ d : Dev, run = .next (s.settle d) ∧ d.tal.prev = s.dev.tal.prev ∧ d.regs = s.dev.regs ∧ d.logs = s.dev.logs) ∧
    (s.dev.flag .talCtrl F.talCtrl_EN = true → ∃ d : Dev, run = .next (s.settle d) ∧
      (∀ k < 16, s.dev.flag (.talWatch k) F.talWatch_EN = true → s.dev.fld (.talWatch k) F.talWatch_ID ≤ 3607 →
        let id := s.dev.fld (.talWatch k) F.talWatch_ID
        let v := s.dev.counter id
        (id ∈ par → kvFind? d.tal.prev k = some 0) ∧
        (id ∉ par → id ∈ ue → kvFind? d.tal.prev k = kvFind? s.dev.tal.prev k) ∧
        (id ∉ par → id ∉ ue → kvFind? d.tal.prev k = some v ∧ ∀ old, kvFind? s.dev.tal.prev k = some old →
          (let test := if counterIsLevel id then v else (v + 2 ^ 48 - old) % 2 ^ 48
           if s.dev.flag (.talWatch k) F.talWatch_BELOW then test < s.dev.fld (.talWatch k) F.talWatch_THRESH
           else s.dev.fld (.talWatch k) F.talWatch_THRESH < test) → bitOf (d.rd .talWatchstat) k = true)) ∧
      (∀ k < 16, s.dev.flag (.talWatch k) F.talWatch_EN = false → kvFind? d.tal.prev k = kvFind? s.dev.tal.prev k) ∧
      (∀ id ∈ par, 256 ≤ id → id < 384 → d.counter id = 0) ∧ (par ≠ [] → d.flag .talStat F.talStat_PAR_SEEN = true) ∧
      (ue ≠ [] → d.flag .talStat F.talStat_ECC_UE_SEEN = true) ∧
      d.fld .talStat F.talStat_ECC_CE = satTo 16 (s.dev.fld .talStat F.talStat_ECC_CE + ce))

/-- SNAPSHOT_PASS of the running snapshot writes one record for each counter that it selects and that its buffer holds, in ascending ID, to its buffer; it sets RNG_SNAPSTAT with the next SEQ, the ring and the tag, and the command waits to complete. With no snapshot running it does nothing. -/
def Obligations.SnapshotPasses : Prop :=
  ∀ (s : State) (par ue : List Nat) (ce : Nat), s.up = true →
    let x := s.dev.rng.run.find? fun c => c.op == .snapshot
    (x = none → exec (.snapshotPass par ue ce) s = .next (s.finish s.dev)) ∧
    (∀ c, x = some c → c.set < 17 → c.ring < 8 → c.tag < 2 ^ 32 → let ids := (snapSelect c.set c.x).take (c.n / 16)
      ∃ (d : Dev) (more : List Out), exec (.snapshotPass par ue ce) s = .next (s.finish d) ∧ (par = [] → ue = [] → more = []) ∧
        d.out = s.dev.out ++ (List.range ids.length).map (fun i =>
          Out.hostWrite (s.dev.setHead c.set) (c.a + 16 * i) (toBytes 16 (s.dev.snapRecord par ue i (ids.getD i 0))) false) ++ more ∧
        d.fld (.rngSnapstat c.set) F.rngSnapstat_SEQ = (s.dev.fld (.rngSnapstat c.set) F.rngSnapstat_SEQ + 1) % 2 ^ 16 ∧
        d.fld (.rngSnapstat c.set) F.rngSnapstat_TAG = c.tag ∧ d.fld (.rngSnapstat c.set) F.rngSnapstat_RING = c.ring ∧
        d.rng.run = s.dev.rng.run.filter (·.id != c.id) ∧ (∃ x ∈ d.rng.fin, x.id = c.id) ∧
        s.dev.keepsRegs d [.rngSnapstat c.set, .talStat])

/-- SAMPLE_RECORD_COMPLETE stages the oldest sample that is done where its LD samples and stages fewer than 64, drops and counts it where the staging is full, and drops it where the LD does not sample. SAMPLE_RECORD_WRITE writes the LD's oldest staged record to the next slot of its buffer, counts it, moves on a slot, inverts PHASE where the slots wrap, and sends the message after every THRESH records. With no sample done, or none staged, they do nothing. -/
def Obligations.SampleRecords : Prop :=
  ∀ s : State, s.up = true →
    (s.dev.home.sampleDone = [] → exec .sampleRecordComplete s = .next (s.settle s.dev)) ∧
    (∀ n < 16, (s.dev.sampler n).staged = [] → exec (.sampleRecordWrite n) s = .next (s.settle s.dev)) ∧
    (∀ r rest, s.dev.home.sampleDone = r :: rest →
      let d0 := s.dev.modHome fun h => { h with sampleDone := rest }
      ((s.dev.sampler r.ld).en = true → (s.dev.sampler r.ld).staged.length < 64 → exec .sampleRecordComplete s =
        .next (s.settle (d0.modSampler r.ld fun x => { x with staged := x.staged ++ [r] }))) ∧
      ((s.dev.sampler r.ld).en = true → 64 ≤ (s.dev.sampler r.ld).staged.length → exec .sampleRecordComplete s =
        .next (s.settle ((d0.countLd r.ld 7).modSampler r.ld fun x => { x with loss := true }))) ∧
      ((s.dev.sampler r.ld).en = false → exec .sampleRecordComplete s = .next (s.settle d0))) ∧
    (∀ n r rest, n < 16 → (s.dev.sampler n).staged = r :: rest → s.dev.samp.length = 16 → ∃ d : Dev,
      exec (.sampleRecordWrite n) s = .next (s.settle d) ∧
      let x := s.dev.sampler n
      let next := (x.slot + 1) % x.slots
      let hit := x.thresh ≠ 0 ∧ min x.thresh x.slots ≤ x.since + 1
      d.out = s.dev.out ++ [.hostWrite (s.dev.ldHead n) (x.base + 32 * x.slot) (toBytes 32 (r.num x.phase x.loss)) false] ++
        (if hit then [.msix n x.vector] else []) ∧
      (d.sampler n).staged = rest ∧ (d.sampler n).slot = next ∧ (d.sampler n).loss = false ∧
      (d.sampler n).phase = (if next = 0 then !x.phase else x.phase) ∧ (d.sampler n).since = (if hit then 0 else x.since + 1) ∧
      d.regs = s.dev.regs)

/-- PWR_OK_RISE of a die held in reset, with no thermal trip, starts the 10 ms before the release, and changes nothing else; any other die it leaves as it is. PWR_OK_FALL of any die, and THERMTRIP of one that is not held already, hold it in reset: its registers are at reset, the DRAM has lost its contents, Stile is as before, and the flash too unless a burn was cut off. POWER_ON_RESET_RELEASE brings the die up: to recovery where no firmware slot is valid, with its straps sampled by majority; else running with its links on, in Hold where the OTP calls for it, with Stile loaded from the configuration block where it does not. -/
def Obligations.PowerOnAndOff : Prop :=
  ∀ s : State,
    (s.dev.mgt.power = .held → s.dev.mgt.tripped = false → ∃ t, exec .pwrOkRise s = .next t ∧ t.dev.mgt.power = .rising ∧
      t.dev.regs = s.dev.regs ∧ t.dram = s.dram ∧ t.nv = s.nv ∧ t.stile = s.stile) ∧
    (s.dev.mgt.power ≠ .held ∨ s.dev.mgt.tripped = true → exec .pwrOkRise s = .next s) ∧
    (∀ b, s.dev.mgt.power = .held → exec (.thermtrip b) s = .next s) ∧
    (s.dev.mgt.power ≠ .rising → ∀ s1 s2 s3 spd nack crcBad, spd.length ≤ 48 →
      exec (.powerOnResetRelease s1 s2 s3 spd nack crcBad) s = .next (s.settle s.dev)) ∧
    (∀ (b : BurnPoint) (c : Instr × Bool), c ∈ [(Instr.pwrOkFall b, false), (Instr.thermtrip b, true)] →
      s.dev.mgt.power ≠ .held ∨ c.2 = false →
      ∃ t, exec c.1 s = .next t ∧ t.dev.mgt.power = .held ∧ t.dev.mgt.tripped = c.2 ∧ t.dev.regs = [] ∧
        t.dram = { cells := [], fills := [] } ∧ t.stile = s.stile ∧ t.dev.out = s.dev.out ∧
        (s.dev.mgt.burn = none → t.nv = s.nv) ∧ (∀ x, s.dev.mgt.burn = some x → t.nv = x.torn s.nv b)) ∧
    (∀ s1 s2 s3 spd nack crcBad, s.dev.mgt.power = .rising → spd.length ≤ 48 → ∃ (d : Dev) (st : Stile),
      exec (.powerOnResetRelease s1 s2 s3 spd nack crcBad) s = .next ({ s with stile := st }.settle d) ∧
      (s.nv.fwRun = none → d.mgt.power = .recovery ∧ st = s.stile ∧ d.fld .gblStrap F.gblStrap_CAS_ROLE = majority3 s1 s2 s3 % 8 ∧
        d.fld .gblStrap F.gblStrap_MGT_SBA = majority3 s1 s2 s3 % 32 / 8 ∧ d.fld .casId F.casId_ROLE = majority3 s1 s2 s3 % 8) ∧
      (s.nv.fwRun ≠ none → d.mgt.power = .on ∧ d.mgt.linksOn = true) ∧
      (s.nv.fwRun ≠ none → s.nv.holdCause ≠ 0 → st = s.stile ∧ d.rd .otpStat = s.nv.stat % 2 ^ 64 ∧ d.inHold = true ∧
        d.flag .gblBoot F.gblBoot_COLD = true) ∧
      (s.nv.fwRun ≠ none → s.nv.holdCause = 0 → s.stile.running = true →
        st = s.stile.load (s.nv.byte (s.nv.chosen.getD 0))))

/-- GBL_RESET, HOLD_COMMIT_RESET after a commit in Hold, and a second WATCHDOG_EXPIRY within 10 s each reset the device with their cause of Table 16.8, unless a burn is under way: then GBL_RESET and HOLD_COMMIT_RESET wait for its end. A first WATCHDOG_EXPIRY restarts the controller only; during a burn the watchdog is suspended. CONTROLLER_RESTART_COMPLETE ends the restart. DRAM_READY sets DRAM_READY once no channel with modules is still training, outside Hold, and does nothing otherwise; on a member it changes nothing else. GBL_RESET acts in recovery too. -/
def Obligations.DeviceResetsAndWatchdog : Prop :=
  ∀ s : State, s.powered = true →
    let resets (i : Instr) (d : Dev) (c : Nat) : Prop := let p := d.wideReset s.nv s.stile c
      exec i s = .next ({ s with stile := p.2 }.settle (p.1.stileNote s.stile p.2))
    let rest (i : Instr) : Prop := exec i s = .next (s.settle s.dev)
    (s.dev.mgt.burn = none → resets .gblReset s.dev 0) ∧
    (∀ i c, (i, c) ∈ [(Instr.gblReset, 0), (.holdCommitReset, 1)] → s.dev.mgt.burn.isSome = true →
      (i = .holdCommitReset → s.up = true ∧ s.dev.mgt.holdReset = true) → ∃ d : Dev, exec i s = .next (s.settle d) ∧
      d.mgt.resetDue = some (s.dev.mgt.resetDue.getD c) ∧ d.regs = s.dev.regs) ∧
    (s.up = true → s.dev.mgt.holdReset = true → s.dev.mgt.burn = none → resets .holdCommitReset s.dev 1) ∧
    (s.up = true → s.dev.mgt.holdReset = false → rest .holdCommitReset) ∧
    (s.up = true → s.dev.mgt.burn.isSome = true → rest .watchdogExpiry) ∧
    (s.up = true → s.dev.mgt.burn = none → (∀ t, s.dev.mgt.expiry = some t → t + 8000000000 ≤ s.dev.clk) →
      ∃ d : Dev, exec .watchdogExpiry s = .next (s.settle d) ∧ d.mgt.restarting = true ∧ d.mgt.expiry = some s.dev.clk ∧
        d.mgt.power = .on) ∧
    (∀ t, s.up = true → s.dev.mgt.burn = none → s.dev.mgt.expiry = some t → s.dev.clk < t + 8000000000 →
      ∃ d : Dev, d.regs = s.dev.regs ∧ resets .watchdogExpiry d 2) ∧
    (s.up = true → exec .controllerRestartComplete s = .next (s.settle (s.dev.modMgt fun m => { m with restarting := false }))) ∧
    (s.up = true →
      let ready := s.dev.inHold = false ∧ s.dev.flag .gblBoot F.gblBoot_DRAM_READY = false ∧
        ∀ c < 24, s.dev.rd (.chnPop c) ≠ 0 → s.dev.flag (.chnTrain c) F.chnTrain_DONE = true
      (¬ ready → exec .dramReady s = .next (s.finish s.dev)) ∧
      (ready → ∃ d : Dev, exec .dramReady s = .next (s.finish d) ∧ d.flag .gblBoot F.gblBoot_DRAM_READY = true ∧
        (s.dev.role ≠ 0 → s.dev.keepsRegs d [.gblBoot])))

/-- A device-wide reset, before the bring-up that follows it, leaves GBL_STRAP, GBL_LOCK and the overrun registers of the crossings as they were, and puts every register that R470's list does not name back to its reset value; the event logs and the clock stay, and the requests of the home, the rings and the balers are gone; of the directory only the retired ways are left (R117). -/
def Obligations.WideResetKeeps : Prop :=
  ∀ d : Dev, let e := d.wideCleared
    (∀ q ∈ [Reg.gblStrap, .gblLock, .crossMgt], e.rd q = d.rd q) ∧
    (∀ n < 8, e.rd (.crossHead n) = d.rd (.crossHead n)) ∧ (∀ c < 24, e.rd (.crossChn c) = d.rd (.crossChn c)) ∧
    (∀ p < 4, e.rd (.crossLey p) = d.rd (.crossLey p)) ∧
    (∀ c < 24, e.fld (.chnSpare c) F.chnSpare_FAILED = d.fld (.chnSpare c) F.chnSpare_FAILED) ∧
    (∀ p < 4, e.fld (.hpCfg p) F.hpCfg_SPLIT = d.fld (.hpCfg p) F.hpCfg_SPLIT) ∧
    (∀ q : Reg, (∀ r ∈ [Reg.gblStrap, .gblLock, .crossMgt, .casId] ++ (List.range 4).map Reg.crossLey ++ (List.range 4).map Reg.hpCfg ++
        (List.range 4).map Reg.chnQcfg ++ (List.range 8).map Reg.crossHead ++ (List.range 16).map Reg.cipLdkey ++
        (List.range 24).map Reg.crossChn ++ (List.range 24).map Reg.chnTrain ++ (List.range 24).map Reg.chnSpare ++
        (List.range 24).map Reg.chnFchgTime, r.offset ≠ q.offset) → e.rd q = q.resetNat % 2 ^ 64) ∧
    e.clk = d.clk ∧ e.logs = d.logs ∧ e.home.txns = [] ∧ e.home.dir = retiredOnly d.home.dir ∧ e.rng.run = [] ∧ e.bal.jobs = [] ∧ e.mgt.stlLost = d.mgt.stlLost

/-- With the main die running or in recovery, and the controller not restarting: TRANSFER_FW of a whole image, or of its first part, into a slot that does not run stores it; a part out of order, and an image for the slot that runs or for a slot that does not exist, is refused. ACTIVATE_FW of a slot whose image verifies selects it for the next reset, and of another is refused; online activation is not supported. While the controller restarts both are answered Busy. Firmware commands change neither the registers nor the OTP. -/
def Obligations.FirmwareUpdate : Prop :=
  ∀ (s : State) (slot off len : Nat) (good : Bool), s.powered = true → off < 2 ^ 32 → len < 2 ^ 32 → slot < 256 →
    let say (d : Dev) (op : MboxOp) (c : MboxCode) : Dev := d.emit (.mailbox 16 op c [])
    let keep (x : Option (Nat × Nat)) : Dev := s.dev.modMgt fun m => { m with fw := x }
    let open_ := slot < 2 ∧ ¬ (s.up = true ∧ b2n (s.dev.flag .gblBoot F.gblBoot_FWSLOT) = slot)
    let run (part : FwPart) := exec (.transferFw part slot off len good) s
    let refused (part : FwPart) (c : MboxCode) : Prop := run part = .next (s.settle (say s.dev .transferFw c))
    (s.dev.mgt.restarting = true → (∀ part, refused part .busy) ∧
      ∀ online, exec (.activateFw slot online) s = .next (s.settle (say s.dev .activateFw .busy))) ∧
    (s.dev.mgt.restarting = false →
      (open_ → run .full =
        .next ({ s with nv := s.nv.setFw slot { valid := good, size := len } }.settle (say (keep none) .transferFw .success))) ∧
      (open_ → off = 0 → run .first =
        .next ({ s with nv := s.nv.setFw slot {} }.settle (say (keep (some (slot, len))) .transferFw .success))) ∧
      (open_ → off ≠ 0 → refused .first .transferOutOfOrder) ∧
      (¬ open_ → refused .full .invalidSlot ∧ refused .first .invalidSlot) ∧
      (∀ k n, s.dev.mgt.fw = some (k, n) → n = off →
        run .middle = .next (s.settle (say (keep (some (k, n + len))) .transferFw .success)) ∧
        run .last = .next ({ s with nv := s.nv.setFw k { valid := good, size := n + len } }.settle (say (keep none) .transferFw .success))) ∧
      ((∀ k, s.dev.mgt.fw ≠ some (k, off)) → refused .middle .transferOutOfOrder ∧ refused .last .transferOutOfOrder) ∧
      (run .abort = .next (s.settle (say (keep none) .transferFw .success))) ∧
      (let valid := (if slot = 0 then s.nv.fwA.valid else s.nv.fwB.valid) = true
       exec (.activateFw slot true) s = .next (s.settle (say s.dev .activateFw .unsupported)) ∧
       (slot < 2 → valid →
         exec (.activateFw slot false) s = .next ({ s with nv := { s.nv with active := slot } }.settle (say s.dev .activateFw .success))) ∧
       (slot < 2 → ¬ valid → exec (.activateFw slot false) s = .next (s.settle (say s.dev .activateFw .verificationFailed))) ∧
       (2 ≤ slot → exec (.activateFw slot false) s = .next (s.settle (say s.dev .activateFw .invalidSlot)))))

/-- With no commit under way and the controller running: PLIUTH_TRANSFER of 1 to 512 bytes that end within 2,100 stages them, and of others is refused; PLIUTH_ABORT clears the staging buffer; GET_CONFIGURATION_STATE answers OTP_STAT, OTP_COMMIT and the bytes staged; PLIUTH_COMMIT of an image that passes steps 1 to 8 sets BUSY, counts SEQ and starts the burn of the next slot, and of another sets its STATUS. While a commit runs, or the controller restarts, each of them is answered Busy. COMMIT_BURN_COMPLETE ends the burn, clears BUSY and shows the slots in OTP_STAT, whose GEN and HOLD stay those of the boot; a reset that waited for it then follows; with no burn it does nothing. -/
def Obligations.PliuthCommits : Prop :=
  ∀ (s : State) (off : Nat) (data stuck : List Nat), s.up = true → off < 2 ^ 16 → (∀ b ∈ data, b < 256) →
    let ops : List (Instr × MboxOp) := [(.pliuthTransfer off data, .pliuthTransfer), (.pliuthCommit, .pliuthCommit),
      (.getConfigurationState, .pliuthState), (.pliuthAbort, .pliuthAbort)]
    (s.dev.mgt.burn.isSome = true ∨ s.dev.mgt.restarting = true → ∀ c ∈ ops, exec c.1 s = .next (s.settle (s.dev.emit (.mailbox 16 c.2 .busy [])))) ∧
    (s.dev.mgt.burn = none → s.dev.mgt.restarting = false →
      (0 < data.length → data.length ≤ 512 → off + data.length ≤ 2100 →
        ∃ d : Dev, exec (.pliuthTransfer off data) s = .next (s.settle d) ∧ d.regs = s.dev.regs ∧
          d.out = s.dev.out ++ [.mailbox 16 .pliuthTransfer .success []] ∧
          (∀ i < data.length, kvFind? d.mgt.stage (off + i) = some (data.getD i 0)) ∧
          (∀ k, (k < off ∨ off + data.length ≤ k) → kvFind? d.mgt.stage k = kvFind? s.dev.mgt.stage k)) ∧
      (data = [] ∨ 512 < data.length ∨ 2100 < off + data.length →
        exec (.pliuthTransfer off data) s = .next (s.settle (s.dev.emit (.mailbox 16 .pliuthTransfer .invalidInput [])))) ∧
      (exec .pliuthAbort s = .next (s.settle ((s.dev.modMgt fun m => { m with stage := [] }).emit (.mailbox 16 .pliuthAbort .success [])))) ∧
      (exec .getConfigurationState s = .next (s.settle (s.dev.emit (.mailbox 16 .pliuthState .success
        (toBytes 4 (s.dev.rd .otpStat) ++ toBytes 4 (s.dev.rd .otpCommit) ++ toBytes 2 s.dev.mgt.stage.length))))) ∧
      (s.dev.commitStatus s.nv = 0 → ∃ (d : Dev) (x : Burn), exec .pliuthCommit s = .next (s.settle d) ∧ d.mgt.burn = some x ∧
        x.slot = s.nv.target ∧ x.body.length = 2036 ∧ d.flag .otpCommit F.otpCommit_BUSY = true ∧ d.mgt.stage = [] ∧
        d.fld .otpCommit F.otpCommit_SEQ = (s.dev.fld .otpCommit F.otpCommit_SEQ + 1) % 2 ^ 16 ∧ s.dev.keepsRegs d [.otpCommit]) ∧
      (s.dev.commitStatus s.nv ≠ 0 → ∃ d : Dev, exec .pliuthCommit s = .next (s.settle d) ∧ d.mgt.burn = none ∧
        d.flag .otpCommit F.otpCommit_BUSY = false ∧ d.fld .otpCommit F.otpCommit_STATUS = s.dev.commitStatus s.nv ∧
        d.mgt.stage = [] ∧ s.dev.keepsRegs d [.otpCommit])) ∧
    (s.dev.mgt.burn = none → exec (.commitBurnComplete stuck) s = .next (s.settle s.dev)) ∧
    (∀ x c, s.dev.mgt.burn = some x → s.dev.mgt.resetDue = some c → ∃ (d : Dev) (n : Nv), s.nv.within n ∧ d.mgt.burn = none ∧
      let p := d.wideReset n s.stile c
      exec (.commitBurnComplete stuck) s = .next ({ s with stile := p.2, nv := n }.settle p.1)) ∧
    (∀ x, s.dev.mgt.burn = some x → s.dev.mgt.resetDue = none → x.body.length = 2036 → ∃ (d : Dev) (n : Nv),
      exec (.commitBurnComplete stuck) s = .next ({ s with nv := n }.settle d) ∧ d.mgt.burn = none ∧
        d.flag .otpCommit F.otpCommit_BUSY = false ∧ s.nv.within n ∧
        (∀ k i, k ≠ x.slot → i < 2048 → n.byte k i = s.nv.byte k i) ∧ s.dev.keepsRegs d [.otpStat, .otpCommit] ∧
        d.rd .otpStat = s.dev.rd .otpStat / 2 ^ 24 * 2 ^ 24 + n.stat % 2 ^ 24)

/-- Every access that R462 or R465 refuses, through any view and any head that carries it, or the MCTP sideband, counts in COUNT, saturating. While SEEN is clear it also sets SEEN and describes the access in CAUSE, HEAD, MGT, LD and OFFSET; while SEEN is set it changes only COUNT. A refused write changes no other register, and sends nothing; a refused read is answered with zero, or with all ones where the management controller serves nothing. A 64-bit read of which one dword holds no register is recorded for that dword, which reads zero. An access that its head does not carry to the function changes no register. No tenant window shows GBL_ACCERR. -/
def Obligations.RefusedAccesses : Prop :=
  (∀ (s : State) (view : RegView) (h off size : Nat), s.powered = true → view.ok = true → h < 9 → off < 2 ^ 25 →
    let bad (write : Bool) := exec (.invalidRegisterAccess view h off size write) s
    (s.dev.reaches h view.fn = false → ∃ d : Dev, s.dev.keepsRegs d [] ∧ d.home = s.dev.home ∧
      (∀ write, bad write = .next (s.settle d)) ∧
      ∀ v, v < 2 ^ 64 → size = 4 ∨ size = 8 → exec (.registerWrite view h off size v) s = .next (s.settle d)) ∧
    (s.dev.reaches h view.fn = true → s.dev.accessCause view off size = none →
      bad true = .next (s.settle s.dev) ∧
      (view.hole off size = none → bad false = .next (s.settle s.dev)) ∧
      (∀ o, view.hole off size = some o → ∃ v, v < 2 ^ 64 ∧ v / 2 ^ (8 * (o - off)) % 2 ^ 32 = 0 ∧
        bad false = .next (s.settle ((s.dev.accErr view h o 1).emit (.readData view.fn off v))))) ∧
    (∀ c, s.dev.reaches h view.fn = true → s.dev.accessCause view off size = some c → ∃ d : Dev,
      bad true = .next (s.settle d) ∧
      bad false = .next (s.settle (d.emit (.readData view.fn off (if c = 3 then 2 ^ (8 * size) - 1 else 0)))) ∧
      (∀ v, v < 2 ^ 64 → size = 4 ∨ size = 8 → exec (.registerWrite view h off size v) s = .next (s.settle d)) ∧
      d.out = s.dev.out ∧ d.home = s.dev.home ∧ d.rng = s.dev.rng ∧ s.dev.keepsRegs d [.gblAccerr] ∧
      d.fld .gblAccerr F.gblAccerr_COUNT = min (s.dev.fld .gblAccerr F.gblAccerr_COUNT + 1) (2 ^ 16 - 1) ∧
      d.flag .gblAccerr F.gblAccerr_SEEN = true ∧
      (s.dev.flag .gblAccerr F.gblAccerr_SEEN = false →
        d.fld .gblAccerr F.gblAccerr_CAUSE = c % 8 ∧ d.fld .gblAccerr F.gblAccerr_HEAD = h % 8 ∧
        d.fld .gblAccerr F.gblAccerr_OFFSET = off ∧
        d.fld .gblAccerr F.gblAccerr_MGT = (match view with | .tenant _ => 0 | _ => 1) ∧
        d.fld .gblAccerr F.gblAccerr_LD = (match view with | .tenant n => n | _ => 0)) ∧
      (s.dev.flag .gblAccerr F.gblAccerr_SEEN = true →
        ∀ f ∈ [F.gblAccerr_CAUSE, F.gblAccerr_HEAD, F.gblAccerr_MGT, F.gblAccerr_LD, F.gblAccerr_OFFSET],
          d.fld .gblAccerr f = s.dev.fld .gblAccerr f))) ∧
  (∀ n off x, RegView.slot (.tenant n) off = some x → x.reg ≠ some .gblAccerr)

/-- For every register of the catalogue and every value written to it: each RW and RWS field takes its bits of the value, each RWL field does so while the device is not locked and else stays, each RW1C bit is cleared where the value has a 1 and else stays, and each RO, WO and reserved field stays. WO and reserved fields read as zero. -/
def Obligations.FieldRules : Prop :=
  ∀ (r : Reg) (locked : Bool) (v w : Nat), ∀ f ∈ r.fieldDefs,
    let old := bitsOf v f.hi f.lo
    let new := bitsOf w f.hi f.lo
    let now := bitsOf (r.applyWrite locked v w) f.hi f.lo
    let shown := bitsOf (r.readMask v) f.hi f.lo
    match f.acc with
    | .rw | .rws => now = new ∧ shown = old
    | .rwl => now = (if locked then old else new) ∧ shown = old
    | .rw1c => now = old - (old &&& new) ∧ shown = old
    | .ro => now = old ∧ shown = old
    | .wo | .rsv => now = old ∧ shown = 0

/-- A write that nothing refuses, of 32 bits to a register without side effects, changes that register as its field types say, and no other, whatever its reserved fields hold (the last is the model's choice: log entry 15). A reserved field that is not zero in a register of a tenant's ring set is a host error of its LD: the LD goes wild, which no other LD does, and the write changes no register. A write of a dword of configuration space stores the writable bits and clears the bits that a 1 clears, and keeps the rest; a power state that does not exist is not stored, and a Completion Timeout Value outside Table 4.10 is a host error of the LD (the places of the bits are the standard's: log entry 53). -/
def Obligations.RegisterWrites : Prop :=
  ∀ (s : State) (h v : Nat), s.powered = true → h < 9 → v < 2 ^ 32 →
    (∀ r ∈ [Reg.gblIntEn, .crossIntEn0, .talCtrl, .gblAvsCtrl, .gblLock], s.dev.reaches h 16 = true →
      s.dev.accessCause .mgmt r.offset 4 = none → exec (.registerWrite .mgmt h r.offset 4 v) s =
        .next (s.finish (s.dev.wr r (r.applyWrite (s.dev.flag .gblLock F.gblLock_LOCK) (s.dev.rd r) v))).keepFailed) ∧
    (∀ n off r, n < 16 → off < 2 ^ 25 → RegView.slot (.tenant n) off = some (.whole r) → r.ringLd = some n → r.rsvError v = true →
      s.dev.reaches h n = true → s.dev.accessCause (.tenant n) off 4 = none → ∃ d : Dev,
      exec (.registerWrite (.tenant n) h off 4 v) s = .next (s.finish d).keepFailed ∧ d.isWild n = true ∧
        (∀ m, m ≠ n → d.isWild m = s.dev.isWild m) ∧ d.regs = s.dev.regs ∧ d.out = s.dev.out) ∧
    (∀ n off, (RegView.config n).ok = true → s.dev.reaches h n = true → off < 4096 → off % 4 = 0 →
      let run := exec (.registerWrite (.config n) h off 4 v) s
      let none_ := off = 0x44 ∧ (v % 4 = 1 ∨ v % 4 = 2)
      (none_ → run = .next (s.settle s.dev)) ∧
      (¬ none_ → ∃ d : Dev, run = .next (s.settle d) ∧ (∀ b, (d.cfg n off).testBit b =
          (if (cfgRw n off).testBit b then v.testBit b
           else (s.dev.cfg n off).testBit b && !((cfgRw1c off).testBit b && v.testBit b))) ∧
        (∀ m o, m * 2 ^ 12 + o ≠ n * 2 ^ 12 + off → d.cfg m o = s.dev.cfg m o) ∧ d.regs = s.dev.regs ∧ d.out = s.dev.out ∧
        (off = 0x78 → v % 16 ∉ [0, 1, 2, 5, 6, 9, 10, 13, 14] → n < 16 → d.isWild n = true))) ∧
    (∀ n off size, (RegView.config n).ok = true → s.dev.reaches h n = true → off < 2 ^ 25 → size = 4 ∨ size = 8 →
      ¬ (off < 4096 ∧ off % 4 = 0 ∧ size = 4) → exec (.registerWrite (.config n) h off size v) s = .next (s.settle s.dev))

/-- GBL_LOCK_SET sets GBL_LOCK; once it is set no write to GBL_LOCK or GBL_FTAB changes anything, and a Pliuth Commit has STATUS 8. INTERRUPT_ACK arms the global interrupt. Each writes its own register only. -/
def Obligations.LockAndInterruptAck : Prop :=
  ∀ s : State,
    (s.reaches .gblLock → ∃ d : Dev, exec .gblLockSet s = .next (s.settle d) ∧ d.flag .gblLock F.gblLock_LOCK = true ∧
      s.dev.keepsRegs d [.gblLock] ∧ d.home = s.dev.home ∧ d.out = s.dev.out ∧ d.commitStatus s.nv = 8 ∧
      ∀ w, (d.writeDev .gblLock w).rd .gblLock = d.rd .gblLock ∧
        (d.writeDev .gblFtab w).fld .gblFtab F.gblFtab_BASE = d.fld .gblFtab F.gblFtab_BASE) ∧
    (s.reaches .gblIntCtrl → ∃ d : Dev, exec .interruptAck s = .next (s.settle d) ∧
      d.flag .gblIntCtrl F.gblIntCtrl_ARMED = true ∧ d.fld .gblIntCtrl F.gblIntCtrl_VECTOR = s.dev.fld .gblIntCtrl F.gblIntCtrl_VECTOR ∧
      s.dev.keepsRegs d [.gblIntCtrl] ∧ d.out = s.dev.out)

/-- CLEAR_EVENT_RECORDS of a log whose function answers removes its n oldest records and no others, or is refused where the log has fewer; the management view's is answered Busy while the controller restarts and Unsupported in Hold, and a function that no head reaches does not answer. RESPONSE_CREDIT_RETURN adds to the credits of a head whose link is up, and to no other's. BOUNDARY_SCAN_INSTRUCTION is captured, and loads the TAP, with BYPASS for an instruction that drives balls while DRAM_READY is 1, and changes nothing else. -/
def Obligations.LogsCreditsAndScan : Prop :=
  ∀ (s : State) (o log n h : Nat),
    (s.up = true → o < 17 → log < 5 →
      let run := exec (.clearEventRecords o log n) s
      let old := kvGet (fun _ => []) s.dev.logs.recs (o * 5 + log)
      let say (c : MboxCode) : Dev := s.dev.emit (.mailbox o .clearEventRecords c [])
      let answers := if o = 16 then s.dev.mgt.restarting = false ∧ s.dev.inHold = false else s.dev.fnUp o = true
      (o = 16 → ¬ answers → run = .next (s.settle (say (if s.dev.mgt.restarting then .busy else .unsupported)))) ∧ (o < 16 → ¬ answers → run = .next (s.settle s.dev)) ∧
      (answers → n ≤ old.length → ∃ d : Dev, run = .next (s.settle d) ∧
        kvGet (fun _ => []) d.logs.recs (o * 5 + log) = old.drop n ∧
        (∀ k, k ≠ o * 5 + log → kvGet (fun _ => []) d.logs.recs k = kvGet (fun _ => []) s.dev.logs.recs k) ∧
        d.regs = s.dev.regs ∧ d.out = (say .success).out) ∧
      (answers → old.length < n → run = .next (s.settle (say .invalidHandle)))) ∧
    (s.up = true → h < 8 → exec (.responseCreditReturn h n) s = .next (s.finish
      (if s.dev.headUp h then s.dev.modHead h fun y => { y with credits := y.credits + n } else s.dev))) ∧
    (∀ (low : Bool) (t : TapInstr), ∃ d : Dev,
      exec (.boundaryScanInstruction low t) s = .next (if s.up then s.settle d else { s with dev := d }) ∧
      d.mgt.ir = (if low = true then .bypass else t) ∧
      (d.mgt.tap = if low = true ∨ t ∈ [TapInstr.extest, .extestPulse, .extestTrain, .intest, .clamp] ∧
        s.dev.flag .gblBoot F.gblBoot_DRAM_READY = true then .bypass else t) ∧
      d.regs = s.dev.regs ∧ d.out = s.dev.out ∧ d.home = s.dev.home ∧ d.chan = s.dev.chan)

/-- LD n's tenant window shows the eight HP counters and the eight ring counters of instance n, which are the groups that Table 17.2 marks as tenant-visible, and no other counter. The management view shows each of the 3,608 counters. -/
def Obligations.TenantCounters : Prop :=
  (∀ n off id hi, n < 16 → RegView.slot (.tenant n) off = some (.counter id hi) →
    ∃ k < 8, id = 256 + 8 * n + k ∨ id = 3464 + 8 * n + k) ∧
  (∀ n k, n < 16 → k < 8 → (∃ off, RegView.slot (.tenant n) off = some (.counter (256 + 8 * n + k) false)) ∧
    ∃ off, RegView.slot (.tenant n) off = some (.counter (3464 + 8 * n + k) false)) ∧
  (∀ id < 3608, ∃ off, RegView.slot .mgmt off = some (.counter id false))
end

