-- ==== Sys2Proof/Laws/Store.lean ====
section
/-! SUPPORT. Laws of sparse data by key: what a key holds after another key, or the same one, was written or removed, and
that every write keeps the canonical form. -/

namespace Sys2Proof.Machine

variable {α : Type}

@[simp] theorem kvFind?_nil (a : Nat) : kvFind? ([] : List (Nat × α)) a = none := rfl

@[simp] theorem kvGet_nil (d : Nat → α) (a : Nat) : kvGet d [] a = d a := rfl

theorem kvFind?_del_self (m : List (Nat × α)) (a : Nat) : kvFind? (kvDel m a) a = none := by
  induction m with
  | nil => rfl
  | cons p m ih =>
    obtain ⟨k, v⟩ := p
    by_cases h : k = a
    · simpa [kvDel, h] using ih
    · simpa [kvDel, h, kvFind?] using ih

theorem kvFind?_del_other (m : List (Nat × α)) {a b : Nat} (hab : a ≠ b) : kvFind? (kvDel m a) b = kvFind? m b := by
  induction m with
  | nil => rfl
  | cons p m ih =>
    obtain ⟨k, v⟩ := p
    have ih' : kvFind? (List.filter (fun p => p.1 != a) m) b = kvFind? m b := ih
    by_cases h : k = a
    · subst h
      simp [kvDel, kvFind?, hab, ih']
    · simp [kvDel, h, kvFind?, ih']

theorem kvFind?_ins_self (m : List (Nat × α)) (a : Nat) (x : α) : kvFind? (kvIns m a x) a = some x := by
  induction m with
  | nil => simp [kvIns, kvFind?]
  | cons p m ih =>
    obtain ⟨k, v⟩ := p
    by_cases h1 : a < k
    · simp [kvIns, h1, kvFind?]
    · by_cases h2 : k = a <;> simp [kvIns, h1, h2, kvFind?, ih]

theorem kvFind?_ins_other (m : List (Nat × α)) {a b : Nat} (hab : a ≠ b) (x : α) :
    kvFind? (kvIns m a x) b = kvFind? m b := by
  induction m with
  | nil => simp [kvIns, kvFind?, hab]
  | cons p m ih =>
    obtain ⟨k, v⟩ := p
    by_cases h1 : a < k
    · simp [kvIns, h1, kvFind?, hab]
    · by_cases h2 : k = a
      · subst h2
        simp [kvIns, kvFind?, hab]
      · simp [kvIns, h1, h2, kvFind?, ih]

/-- A key reads as it was last written. -/
@[simp] theorem kvGet_set_self [DecidableEq α] (d : Nat → α) (m : List (Nat × α)) (a : Nat) (x : α) :
    kvGet d (kvSet d m a x) a = x := by
  unfold kvSet kvGet
  split
  · rename_i h
    simp [kvFind?_del_self, h]
  · simp [kvFind?_ins_self]

/-- A write leaves every other key alone. -/
theorem kvGet_set_other [DecidableEq α] (d : Nat → α) (m : List (Nat × α)) {a b : Nat} (hab : a ≠ b) (x : α) :
    kvGet d (kvSet d m a x) b = kvGet d m b := by
  unfold kvSet kvGet
  split
  · rw [kvFind?_del_other m hab]
  · rw [kvFind?_ins_other m hab]

@[simp] theorem kvGet_mod_self [DecidableEq α] (d : Nat → α) (m : List (Nat × α)) (a : Nat) (f : α → α) :
    kvGet d (kvMod d m a f) a = f (kvGet d m a) := kvGet_set_self d m a _

theorem kvGet_mod_other [DecidableEq α] (d : Nat → α) (m : List (Nat × α)) {a b : Nat} (hab : a ≠ b) (f : α → α) :
    kvGet d (kvMod d m a f) b = kvGet d m b := kvGet_set_other d m hab _

/-- Applying a function at one key, read at any key. -/
theorem kvGet_mod [DecidableEq α] (d : Nat → α) (m : List (Nat × α)) (a b : Nat) (f : α → α) :
    kvGet d (kvMod d m a f) b = if b = a then f (kvGet d m b) else kvGet d m b := by
  split
  · rename_i h; subst h; exact kvGet_mod_self d m b f
  · rename_i h; exact kvGet_mod_other d m (Ne.symm h) f

/-! ### The canonical form -/

theorem kvSorted_iff (m : List (Nat × α)) : kvSorted m = true ↔ m.Pairwise fun p q => p.1 < q.1 := by
  induction m with
  | nil => simp [kvSorted]
  | cons p m ih =>
    cases m with
    | nil => simp [kvSorted]
    | cons q m =>
      rw [kvSorted, Bool.and_eq_true, ih, List.pairwise_cons (a := p)]
      constructor
      · rintro ⟨h, hp⟩
        refine ⟨?_, hp⟩
        intro r hr
        rcases List.mem_cons.mp hr with rfl | hr
        · simpa using h
        · exact lt_trans (by simpa using h) ((List.pairwise_cons.mp hp).1 r hr)
      · rintro ⟨h, hp⟩
        exact ⟨by simpa using h q (by simp), hp⟩

theorem kvWf_iff [DecidableEq α] (d : Nat → α) (m : List (Nat × α)) :
    kvWf d m = true ↔ (m.Pairwise fun p q => p.1 < q.1) ∧ ∀ p ∈ m, p.2 ≠ d p.1 := by
  simp [kvWf, kvSorted_iff]

theorem kvIns_mem {m : List (Nat × α)} {a : Nat} {x : α} {p : Nat × α} (h : p ∈ kvIns m a x) : p = (a, x) ∨ p ∈ m := by
  induction m with
  | nil => simpa [kvIns] using h
  | cons q m ih =>
    obtain ⟨k, v⟩ := q
    simp only [kvIns] at h
    split at h
    · simpa using h
    · split at h
      · rcases List.mem_cons.mp h with h | h
        · exact .inl h
        · exact .inr (List.mem_cons_of_mem _ h)
      · rcases List.mem_cons.mp h with h | h
        · exact .inr (by simp [h])
        · rcases ih h with h | h
          · exact .inl h
          · exact .inr (List.mem_cons_of_mem _ h)

theorem kvIns_sorted {m : List (Nat × α)} (a : Nat) (x : α) (h : m.Pairwise fun p q => p.1 < q.1) :
    (kvIns m a x).Pairwise fun p q => p.1 < q.1 := by
  induction m with
  | nil => simp [kvIns]
  | cons q m ih =>
    obtain ⟨k, v⟩ := q
    have hq := List.pairwise_cons.mp h
    simp only [kvIns]
    split
    · rename_i hlt
      refine List.pairwise_cons.mpr ⟨?_, h⟩
      intro p hp
      rcases List.mem_cons.mp hp with rfl | hp
      · exact hlt
      · exact lt_trans hlt (hq.1 p hp)
    · split
      · rename_i _ heq
        subst heq
        exact List.pairwise_cons.mpr ⟨fun p hp => hq.1 p hp, hq.2⟩
      · rename_i h1 h2
        refine List.pairwise_cons.mpr ⟨?_, ih hq.2⟩
        intro p hp
        rcases kvIns_mem hp with rfl | hp
        · simp only
          omega
        · exact hq.1 p hp

/-- Writing a key keeps the canonical form. -/
theorem kvSet_wf [DecidableEq α] (d : Nat → α) (m : List (Nat × α)) (a : Nat) (x : α) (h : kvWf d m = true) :
    kvWf d (kvSet d m a x) = true := by
  rw [kvWf_iff] at h ⊢
  unfold kvSet
  split
  · exact ⟨h.1.filter _, fun p hp => h.2 p (List.mem_of_mem_filter hp)⟩
  · rename_i hx
    refine ⟨kvIns_sorted a x h.1, ?_⟩
    intro p hp
    rcases kvIns_mem hp with rfl | hp
    · exact hx
    · exact h.2 p hp

end Sys2Proof.Machine
end

