-- ==== Sys2Proof/Laws/Regs.lean ====
section
/-! SUPPORT. Laws of bit fields and of register files. -/

namespace Sys2Proof.Machine

theorem bitsOf_testBit (v hi lo i : Nat) : (bitsOf v hi lo).testBit i = (decide (i < hi + 1 - lo) && v.testBit (lo + i)) := by
  simp [bitsOf, Nat.testBit_mod_two_pow, Nat.testBit_shiftRight]

theorem bitsOf_lt (v hi lo : Nat) : bitsOf v hi lo < 2 ^ (hi + 1 - lo) := Nat.mod_lt _ (by positivity)

/-- The bits of a number with a field replaced. -/
theorem putBits_testBit (v hi lo x i : Nat) :
    (putBits v hi lo x).testBit i =
      if lo ≤ i ∧ i < lo + (hi + 1 - lo) then x.testBit (i - lo) else v.testBit i := by
  set w := hi + 1 - lo with hw
  have split3 : v = (v % 2 ^ lo) + 2 ^ lo * (bitsOf v hi lo + 2 ^ w * (v / 2 ^ (lo + w))) := by
    unfold bitsOf
    rw [← hw, Nat.shiftRight_eq_div_pow, Nat.pow_add, ← Nat.div_div_eq_div_mul, Nat.mod_add_div, Nat.mod_add_div]
  have put : putBits v hi lo x = (v % 2 ^ lo) + 2 ^ lo * (x % 2 ^ w + 2 ^ w * (v / 2 ^ (lo + w))) := by
    have hsub : v - (bitsOf v hi lo <<< lo) = (v % 2 ^ lo) + 2 ^ lo * (2 ^ w * (v / 2 ^ (lo + w))) := by
      conv_lhs => lhs; rw [split3]
      rw [Nat.shiftLeft_eq, Nat.mul_add, Nat.mul_comm (bitsOf v hi lo)]
      omega
    unfold putBits
    rw [hsub, ← hw, Nat.shiftLeft_eq, Nat.mul_comm (x % 2 ^ w), Nat.mul_add]
    omega
  have low {a b k n : Nat} (ha : a < 2 ^ k) : (a + 2 ^ k * b).testBit n =
      if n < k then a.testBit n else b.testBit (n - k) := by
    rw [Nat.add_comm, Nat.testBit_two_pow_mul_add b ha]
  have hv : v.testBit i = if i < lo then (v % 2 ^ lo).testBit i else
      if i - lo < w then (bitsOf v hi lo).testBit (i - lo) else (v / 2 ^ (lo + w)).testBit (i - lo - w) := by
    conv_lhs => rw [split3]
    rw [low (Nat.mod_lt _ (by positivity)), low (bitsOf_lt v hi lo)]
  rw [put, low (Nat.mod_lt _ (by positivity)), low (Nat.mod_lt _ (by positivity)), hv]
  by_cases h1 : i < lo
  · simp [h1, show ¬ (lo ≤ i) by omega]
  · by_cases h2 : i - lo < w
    · simp [h1, h2, Nat.testBit_mod_two_pow, show lo ≤ i ∧ i < lo + w by omega]
    · simp [h1, h2, show ¬ (lo ≤ i ∧ i < lo + w) by omega]

theorem bitsOf_put_self {v hi lo x : Nat} (h : lo ≤ hi) : bitsOf (putBits v hi lo x) hi lo = x % 2 ^ (hi + 1 - lo) := by
  apply Nat.eq_of_testBit_eq
  intro i
  rw [bitsOf_testBit, putBits_testBit, Nat.testBit_mod_two_pow]
  by_cases hi' : i < hi + 1 - lo
  · simp [hi', show lo ≤ lo + i ∧ lo + i < lo + (hi + 1 - lo) by omega]
  · simp [hi']

theorem bitsOf_put_other {v hi lo x h2 l2 : Nat} (h : lo ≤ hi) (hd : h2 < lo ∨ hi < l2) :
    bitsOf (putBits v hi lo x) h2 l2 = bitsOf v h2 l2 := by
  apply Nat.eq_of_testBit_eq
  intro i
  rw [bitsOf_testBit, bitsOf_testBit, putBits_testBit]
  by_cases hi' : i < h2 + 1 - l2
  · simp [hi', show ¬ (lo ≤ l2 + i ∧ l2 + i < lo + (hi + 1 - lo)) by omega]
  · simp [hi']

/-- A register file's value is at most 64 bits wide. -/
theorem RegFile.get_lt (m : RegFile) (r : Reg) : m.get r < 2 ^ 64 := BitVec.isLt _

/-- A register reads as it was last stored, to 64 bits. -/
@[simp] theorem RegFile.get_set_self (m : RegFile) (r : Reg) (v : Nat) : (m.set r v).get r = v % 2 ^ 64 := by
  unfold RegFile.set RegFile.get
  split
  · rename_i h
    rw [kvFind?_del_self]
    simp [← h]
  · rw [kvFind?_ins_self]
    simp

/-- Storing a register leaves a register at another offset alone. -/
theorem RegFile.get_set_other (m : RegFile) {r q : Reg} (h : r.offset ≠ q.offset) (v : Nat) :
    (m.set r v).get q = m.get q := by
  unfold RegFile.set RegFile.get
  split
  · rw [kvFind?_del_other m h]
  · rw [kvFind?_ins_other m h]

/-- A field reads as it was last set. -/
theorem RegFile.fld_setFld_self (m : RegFile) (r : Reg) {f : Fld} (x : Nat) (h : f.lo ≤ f.hi) (h64 : f.hi < 64) :
    (m.setFld r f x).fld r f = x % 2 ^ (f.hi + 1 - f.lo) := by
  unfold RegFile.setFld RegFile.fld
  rw [RegFile.get_set_self]
  apply Nat.eq_of_testBit_eq
  intro i
  have hb := congrArg (fun n => n.testBit i) (bitsOf_put_self (v := m.get r) (x := x) h)
  simp only [bitsOf_testBit, Nat.testBit_mod_two_pow] at hb ⊢
  by_cases hi : i < f.hi + 1 - f.lo
  · simpa [hi, show f.lo + i < 64 by omega] using hb
  · simp [hi]

/-- Setting a field leaves another field of the same register alone. -/
theorem RegFile.fld_setFld_field (m : RegFile) (r : Reg) {f g : Fld} (x : Nat) (h : f.lo ≤ f.hi) (h64 : g.hi < 64)
    (hd : g.hi < f.lo ∨ f.hi < g.lo) : (m.setFld r f x).fld r g = m.fld r g := by
  unfold RegFile.setFld RegFile.fld
  rw [RegFile.get_set_self]
  have hb := bitsOf_put_other (v := m.get r) (x := x) h hd
  apply Nat.eq_of_testBit_eq
  intro i
  have hb := congrArg (fun n => n.testBit i) hb
  simp only [bitsOf_testBit, Nat.testBit_mod_two_pow] at hb ⊢
  by_cases hi : i < g.hi + 1 - g.lo
  · simpa [hi, show g.lo + i < 64 by omega] using hb
  · simp [hi]

/-- Setting a field leaves every register at another offset alone. -/
theorem RegFile.fld_setFld_other (m : RegFile) {r q : Reg} {f g : Fld} (x : Nat) (h : r.offset ≠ q.offset) :
    (m.setFld r f x).fld q g = m.fld q g := by
  unfold RegFile.setFld RegFile.fld
  rw [RegFile.get_set_other m h]

/-! ### The same laws on the main die -/

theorem Dev.fld_setFld_self (d : Dev) (r : Reg) {f : Fld} (x : Nat) (h : f.lo ≤ f.hi) (h64 : f.hi < 64) :
    (d.setFld r f x).fld r f = x % 2 ^ (f.hi + 1 - f.lo) := RegFile.fld_setFld_self d.regs r x h h64

theorem Dev.fld_setFld_field (d : Dev) (r : Reg) {f g : Fld} (x : Nat) (h : f.lo ≤ f.hi) (h64 : g.hi < 64)
    (hd : g.hi < f.lo ∨ f.hi < g.lo) : (d.setFld r f x).fld r g = d.fld r g := RegFile.fld_setFld_field d.regs r x h h64 hd

theorem Dev.fld_setFld_other (d : Dev) {r q : Reg} {f g : Fld} (x : Nat) (h : r.offset ≠ q.offset) :
    (d.setFld r f x).fld q g = d.fld q g := RegFile.fld_setFld_other d.regs x h

theorem Dev.rd_setFld_other (d : Dev) {r q : Reg} {f : Fld} (x : Nat) (h : r.offset ≠ q.offset) :
    (d.setFld r f x).rd q = d.rd q := RegFile.get_set_other d.regs h _

@[simp] theorem Dev.rd_wr_self (d : Dev) (r : Reg) (v : Nat) : (d.wr r v).rd r = v % 2 ^ 64 :=
  RegFile.get_set_self d.regs r v

theorem Dev.rd_wr_other (d : Dev) {r q : Reg} (h : r.offset ≠ q.offset) (v : Nat) : (d.wr r v).rd q = d.rd q :=
  RegFile.get_set_other d.regs h v

theorem Dev.fld_wr_other (d : Dev) {r q : Reg} {g : Fld} (h : r.offset ≠ q.offset) (v : Nat) :
    (d.wr r v).fld q g = d.fld q g := by
  simp [Dev.fld, Dev.wr, RegFile.fld, RegFile.get_set_other d.regs h v]

/-- A flag reads as it was last set. -/
theorem Dev.flag_setFlag_self (d : Dev) (r : Reg) {f : Fld} (b : Bool) (h : f.lo ≤ f.hi) (h64 : f.hi < 64) :
    (d.setFlag r f b).flag r f = b := by
  have hx := Dev.fld_setFld_self d r (b2n b) h h64
  show ((d.setFld r f (b2n b)).fld r f != 0) = b
  rw [hx]
  have : 1 < 2 ^ (f.hi + 1 - f.lo) := Nat.one_lt_two_pow (by omega)
  cases b <;> simp [b2n, Nat.mod_eq_of_lt this]

end Sys2Proof.Machine
end

