-- ==== Sys2Proof/Laws/Cipher.lean ====
section
/-! SUPPORT. What the cipher units seal they read back: enciphering twice gives a line back (R217), a tag has 28 bits (R219), and a line
that was sealed under a key and counters settles as row 7 of Table 8.5, or as row 3 where it is poisoned. -/

namespace Sys2Proof.Machine

/-- Deciphering is enciphering under the same counter block. -/
@[simp] theorem crypt_crypt (k : KeyPair) (b : CtrBlock) (x : Line) : crypt k b (crypt k b x) = x := by
  simp [crypt]

theorem ofBeBytes_lt (bs : List Nat) : ofBeBytes bs < 256 ^ bs.length := by
  suffices h : ∀ (l : List Nat) v, l.foldl (fun v b => v * 256 + b % 256) v < (v + 1) * 256 ^ l.length by
    simpa [ofBeBytes] using h bs 0
  intro l
  induction l with
  | nil => simp
  | cons b l ih =>
    intro v
    refine (ih _).trans_le ?_
    rw [List.length_cons, pow_succ, Nat.mul_comm (256 ^ _), ← Nat.mul_assoc]
    exact Nat.mul_le_mul_right _ (by show v * 256 + b % 256 + 1 ≤ _; omega)

theorem aesRounds_length (ks : List Nat) : ∀ s : List Nat, s.length ≤ 16 → (aesRounds ks s).length ≤ 16 := by
  induction ks with
  | nil => exact fun _ h => h
  | cons k ks ih =>
    intro s _
    cases ks with
    | nil => simp [aesRounds, aesSubShift]
    | cons k2 ks => exact ih _ (by simp [aesMix])

theorem aesWith_lt (rks : List Nat) (blk : Nat) : aesWith rks blk < 2 ^ 128 := by
  cases rks with
  | nil => simp [aesWith]
  | cons k ks =>
    refine (ofBeBytes_lt _).trans_le ?_
    have h := aesRounds_length ks (beBytes 16 (Nat.xor blk k)) (by simp [beBytes])
    calc 256 ^ _ ≤ 256 ^ 16 := Nat.pow_le_pow_right (by decide) h
      _ = 2 ^ 128 := by norm_num

theorem ghashMulGo_lt (x n : Nat) : ∀ v z : Nat, v < 2 ^ 128 → z < 2 ^ 128 → ghashMulGo x n v z < 2 ^ 128 := by
  induction n with
  | zero => exact fun _ _ _ h => h
  | succ n ih =>
    intro v z hv hz
    refine ih _ _ ?_ ?_
    · split
      · exact Nat.xor_lt_two_pow (by omega) (by norm_num)
      · omega
    · split
      · exact Nat.xor_lt_two_pow hz hv
      · exact hz

theorem ghash_lt (h : Nat) (bs : List Nat) (hh : h < 2 ^ 128) : ghash h bs < 2 ^ 128 := by
  suffices w : ∀ (l : List Nat) y, y < 2 ^ 128 → l.foldl (fun y b => ghashMul (Nat.xor y b) h) y < 2 ^ 128 from w bs 0 (by norm_num)
  intro l
  induction l with
  | nil => exact fun _ h => h
  | cons b l ih => exact fun y _ => ih _ (ghashMulGo_lt _ _ _ _ hh (by norm_num))

/-- A tag has 28 bits. -/
theorem lineTag_lt (k : KeyPair) (b : CtrBlock) (c : Line) : lineTag k b c < 2 ^ 28 := by
  have h := Nat.xor_lt_two_pow (ghash_lt _ ((List.range 4).map (lineBlock c))
    (aesWith_lt (aesRoundKeys k.km) (CtrBlock.num { kind := 2 } 0))) (aesWith_lt (aesRoundKeys k.km) (b.num 0))
  unfold lineTag
  rw [Nat.shiftRight_eq_div_pow]
  exact Nat.div_lt_of_lt_mul (by norm_num at h ⊢; exact h)

theorem counterTag_lt (k : KeyPair) (sa : Nat) (x : Line) : counterTag k sa x < 2 ^ 28 := by
  unfold counterTag
  rw [Nat.shiftRight_eq_div_pow]
  exact Nat.div_lt_of_lt_mul ((aesWith_lt _ _).trans_eq (by norm_num))

/-- The fields of a metadata word (Table 8.1) read as they were written. -/
theorem mdWord_fields (g : Nat) (c p : Bool) (t : Nat) (x : Line) (hg : g < 4) (ht : t < 2 ^ 28) :
    let y : Payload := { data := x, md := mdWord g c p t }
    y.kgen = g ∧ y.cmark = c ∧ y.poison = p ∧ y.tag = t := by
  have h : (mdWord g c p t).toNat = g * 2 ^ 30 + b2n c * 2 ^ 29 + b2n p * 2 ^ 28 + t := by
    have hc : b2n c ≤ 1 := by cases c <;> decide
    have hp : b2n p ≤ 1 := by cases p <;> decide
    rw [mdWord, Nat.mod_eq_of_lt ht, Nat.mod_eq_of_lt hg, BitVec.toNat_ofNat]
    exact Nat.mod_eq_of_lt (by omega)
  refine ⟨?_, ?_, ?_, ?_⟩
  · simp only [Payload.kgen, h, bitsOf, Nat.shiftRight_eq_div_pow]
    cases c <;> cases p <;> simp only [b2n] <;> norm_num <;> omega
  · simp only [Payload.cmark, h, bitOf, Nat.testBit, Nat.shiftRight_eq_div_pow, Nat.one_and_eq_mod_two]
    cases c <;> cases p <;> simp [b2n] <;> omega
  · simp only [Payload.poison, h, bitOf, Nat.testBit, Nat.shiftRight_eq_div_pow, Nat.one_and_eq_mod_two]
    cases c <;> cases p <;> simp [b2n] <;> omega
  · simp only [Payload.tag, h, bitsOf, Nat.shiftRight_eq_div_pow]
    cases c <;> cases p <;> simp only [b2n] <;> norm_num <;> omega

/-- A line settles as row 7 of Table 8.5 where its generation, marks and tag are those of the read. -/
theorem Dev.settle_row7 (d : Dev) (dom : Dom) (sa : Nat) (slot : Option (Nat × Nat × Nat)) (c : Nat × Nat) (p : Payload)
    (hk : p.kgen = dom.kgen) (hc : p.cmark = false) (hp : p.poison = false)
    (ht : lineTag (d.domKey dom) (blockOf sa slot c.1 c.2) p.data = p.tag) :
    d.settle dom sa slot [c] (.clean p) = { data := crypt (d.domKey dom) (blockOf sa slot c.1 c.2) p.data, row := 7 } := by
  have hn : ∀ g, p.kgen = g → (p.kgen != g) = false := fun g h => by simp [h]
  unfold Dev.settle
  cases dom with
  | ld n key g => simp only [CwOut.payload, hc, hp, hn g hk, Bool.false_eq_true, if_false, List.find?, ht, beq_self_eq_true, List.head?,
      bne_self_eq_false]
  | device => simp only [CwOut.payload, hc, hp, Bool.false_eq_true, if_false, List.find?, ht, beq_self_eq_true, List.head?, bne_self_eq_false]
  | counter => simp only [CwOut.payload, hc, hp, Bool.false_eq_true, if_false, List.find?, ht, beq_self_eq_true, List.head?, bne_self_eq_false]

/-- A line sealed under the counters `c` of a line or slot settles to its data as row 7 of Table 8.5; no second verification is
needed. -/
theorem Dev.settle_seal (d : Dev) (dom : Dom) (sa : Nat) (slot : Option (Nat × Nat × Nat)) (c : Nat × Nat) (x : Line)
    (hg : dom.kgen < 4) :
    d.settle dom sa slot [c] (.clean (d.seal dom (blockOf sa slot c.1 c.2) x false)) = { data := x, row := 7 } := by
  obtain ⟨h1, h2, h3, h4⟩ := mdWord_fields dom.kgen false false
    (lineTag (d.domKey dom) (blockOf sa slot c.1 c.2) (crypt (d.domKey dom) (blockOf sa slot c.1 c.2) x))
    (crypt (d.domKey dom) (blockOf sa slot c.1 c.2) x) hg (lineTag_lt _ _ _)
  have h := d.settle_row7 dom sa slot c _ h1 h2 h3 h4.symm
  rwa [crypt_crypt] at h

@[simp] theorem ctrOfLine_payload (k sa : Nat) (c : Ctr) : ctrOfLine (counterPayload k sa c).data = c := by
  cases c with
  | mk major minors =>
    simp only [ctrOfLine, counterPayload, Ctr.mk.injEq]
    refine ⟨?_, ?_⟩ <;> ext i hi <;> simp only [BitVec.getElem_extractLsb', Nat.zero_add]
    · exact BitVec.getLsbD_append.trans (by simp [hi])
    · exact BitVec.getLsbD_append.trans (by simp [hi])

theorem settleCtr_ok {d : Dev} {sa : Nat} {p : Payload} (hp : p.poison = false) (hc : p.cmark = true)
    (ht : counterTag (keyPair d.cip.devKey) sa p.data = p.tag) : d.settleCtr sa (.clean p) = .ok (ctrOfLine p.data) := by
  simp only [Dev.settleCtr, CwOut.payload, hp, hc, ht, Bool.false_eq_true, if_false, Bool.not_true, beq_self_eq_true, if_true]

/-- A counter line written under the device key reads back (R230: no row of Table 8.5 fails). -/
theorem Dev.settleCtr_payload (d : Dev) (sa : Nat) (c : Ctr) :
    d.settleCtr sa (.clean (counterPayload d.cip.devKey sa c)) = .ok c := by
  obtain ⟨-, h2, h3, h4⟩ := mdWord_fields 0 true false (counterTag (keyPair d.cip.devKey) sa (counterPayload d.cip.devKey sa c).data)
    (counterPayload d.cip.devKey sa c).data (by decide) (counterTag_lt _ _ _)
  exact (settleCtr_ok h3 h2 h4.symm).trans (congrArg _ (ctrOfLine_payload _ _ _))

/-- A line that settles as row 7 is what the device's own read gives, and its burst is noted. -/
theorem Dev.readLine_row7 (m : Dram) (d : Dev) (dom : Dom) (dpa sa : Nat) (c : Ctr) (o : CwOut) (x : Line)
    (hp : d.place sa ≠ .fault) (hc : d.currentCtr m (sa / 4096) = .ok c) (hm : c.minor (sa / 64 % 64) ≠ 0) (ho : d.peek m sa = some o)
    (hs : d.settle dom sa none [(c.major.toNat, c.minor (sa / 64 % 64))] o = { data := x, row := 7 }) :
    d.readLine m dom dpa sa none false =
      some (d.noteRead m sa dpa (match dom with | .ld n _ _ => n | _ => 0xFF) .internal false, x, 0) := by
  unfold Dev.readLine
  rw [if_neg hp, hc]
  dsimp only
  rw [if_neg hm, if_neg Bool.false_ne_true, ho]
  dsimp only
  rw [hs]
  simp only [Dev.countZero, Bool.false_eq_true, if_false, Nat.reduceEqDiff, or_self]
  cases dom <;> rfl

end Sys2Proof.Machine
end

