-- ==== Sys2Proof/Laws/Dram.lean ====
section
/-! SUPPORT. Every change of DRAM contents keeps the canonical form of the cell list. -/

namespace Sys2Proof.Machine

theorem cellDefault_at (fs : List Fill) (key : Nat) {j : Nat} (h : j < 80) :
    cellDefault fs (key * 128 + j) = cwByte (baseWord fs key) j := by
  unfold cellDefault
  rw [show (key * 128 + j) / 128 = key by omega, show (key * 128 + j) % 128 = j by omega]

/-- Writing a codeword keeps the canonical form. -/
theorem Dram.put_wf (m : Dram) (key : Nat) (c : Codeword) (h : m.wf = true) : (m.put key c).wf = true := by
  have step : ∀ (l : List Nat) (cs : List Host.Cell), (∀ j ∈ l, j < 80) → kvWf (cellDefault m.fills) cs = true →
      kvWf (cellDefault m.fills) (l.foldl (fun cs j =>
        kvSet (fun _ => cwByte (baseWord m.fills key) j) cs (key * 128 + j) (cwByte c j)) cs) = true := by
    intro l
    induction l with
    | nil => intro cs _ h; exact h
    | cons j l ih =>
      intro cs hl hcs
      refine ih _ (fun i hi => hl i (List.mem_cons_of_mem _ hi)) ?_
      have hj := cellDefault_at m.fills key (hl j (by simp))
      have := kvSet_wf (cellDefault m.fills) cs (key * 128 + j) (cwByte c j) hcs
      unfold kvSet at this ⊢
      rwa [hj] at this
  exact step _ _ (fun j hj => by simpa using hj) h

/-- A fill keeps the canonical form: the cells that it covers are no longer listed, and the others default as before. -/
theorem Dram.fill_wf (m : Dram) (f : Fill) (h : m.wf = true) : (m.fill f).wf = true := by
  unfold Dram.wf Dram.fill at *
  rw [kvWf_iff] at h ⊢
  refine ⟨h.1.filter _, ?_⟩
  intro p hp
  have hp' := List.mem_filter.mp hp
  have := h.2 p hp'.1
  have hn : f.word (p.1 / 128) = none := by
    have := hp'.2
    simp only [Option.isNone_iff_eq_none] at this
    simp [Fill.word, this]
  simpa [cellDefault, baseWord, hn] using this

theorem Dram.apply_wf (m : Dram) (op : DramOp) (h : m.wf = true) : (m.apply op).wf = true := by
  cases op with
  | put key c => exact m.put_wf key c h
  | fill f => exact m.fill_wf f h

/-- What a command does to DRAM keeps the canonical form. -/
theorem Dram.flush_wf (m : Dram) (ops : List DramOp) (h : m.wf = true) : (m.flush ops).wf = true := by
  induction ops generalizing m with
  | nil => exact h
  | cons op ops ih => exact ih (m.apply op) (m.apply_wf op h)

@[simp] theorem Dram.flush_nil (m : Dram) : m.flush [] = m := rfl

/-- The empty list is in canonical form, whatever was filled. -/
@[simp] theorem Dram.wf_empty (fs : List Fill) : Dram.wf { cells := [], fills := fs } = true := rfl

end Sys2Proof.Machine
end

