-- ==== Sys2Proof/Laws/State.lean ====
section
/-! SUPPORT. Each field of the main die after each update of another one, and the parts of the whole state after a command.
No later proof unfolds a record update. -/

namespace Sys2Proof.Machine

variable (d : Dev)

@[simp] theorem Dev.setFld_clk (r : Reg) (f : Fld) (x : Nat) : (d.setFld r f x).clk = d.clk := rfl
@[simp] theorem Dev.setFld_logs (r : Reg) (f : Fld) (x : Nat) : (d.setFld r f x).logs = d.logs := rfl
@[simp] theorem Dev.setFld_out (r : Reg) (f : Fld) (x : Nat) : (d.setFld r f x).out = d.out := rfl
@[simp] theorem Dev.setFld_xs (r : Reg) (f : Fld) (x : Nat) : (d.setFld r f x).xs = d.xs := rfl
@[simp] theorem Dev.setFld_hp (r : Reg) (f : Fld) (x : Nat) : (d.setFld r f x).hp = d.hp := rfl
@[simp] theorem Dev.setFld_home (r : Reg) (f : Fld) (x : Nat) : (d.setFld r f x).home = d.home := rfl
@[simp] theorem Dev.setFld_ted (r : Reg) (f : Fld) (x : Nat) : (d.setFld r f x).ted = d.ted := rfl
@[simp] theorem Dev.setFld_bal (r : Reg) (f : Fld) (x : Nat) : (d.setFld r f x).bal = d.bal := rfl
@[simp] theorem Dev.setFld_cip (r : Reg) (f : Fld) (x : Nat) : (d.setFld r f x).cip = d.cip := rfl
@[simp] theorem Dev.setFld_chan (r : Reg) (f : Fld) (x : Nat) : (d.setFld r f x).chan = d.chan := rfl
@[simp] theorem Dev.setFld_ley (r : Reg) (f : Fld) (x : Nat) : (d.setFld r f x).ley = d.ley := rfl
@[simp] theorem Dev.setFld_cas (r : Reg) (f : Fld) (x : Nat) : (d.setFld r f x).cas = d.cas := rfl
@[simp] theorem Dev.setFld_samp (r : Reg) (f : Fld) (x : Nat) : (d.setFld r f x).samp = d.samp := rfl
@[simp] theorem Dev.setFld_rng (r : Reg) (f : Fld) (x : Nat) : (d.setFld r f x).rng = d.rng := rfl
@[simp] theorem Dev.setFld_tal (r : Reg) (f : Fld) (x : Nat) : (d.setFld r f x).tal = d.tal := rfl
@[simp] theorem Dev.setFld_mgt (r : Reg) (f : Fld) (x : Nat) : (d.setFld r f x).mgt = d.mgt := rfl
@[simp] theorem Dev.setFld_bulk (r : Reg) (f : Fld) (x : Nat) : (d.setFld r f x).bulk = d.bulk := rfl
@[simp] theorem Dev.setFld_tally (r : Reg) (f : Fld) (x : Nat) : (d.setFld r f x).tally = d.tally := rfl
@[simp] theorem Dev.setFld_events (r : Reg) (f : Fld) (x : Nat) : (d.setFld r f x).events = d.events := rfl
@[simp] theorem Dev.setFld_fresh (r : Reg) (f : Fld) (x : Nat) : (d.setFld r f x).fresh = d.fresh := rfl

@[simp] theorem Dev.setFlag_clk (r : Reg) (f : Fld) (b : Bool) : (d.setFlag r f b).clk = d.clk := rfl
@[simp] theorem Dev.setFlag_logs (r : Reg) (f : Fld) (b : Bool) : (d.setFlag r f b).logs = d.logs := rfl
@[simp] theorem Dev.setFlag_out (r : Reg) (f : Fld) (b : Bool) : (d.setFlag r f b).out = d.out := rfl
@[simp] theorem Dev.setFlag_xs (r : Reg) (f : Fld) (b : Bool) : (d.setFlag r f b).xs = d.xs := rfl
@[simp] theorem Dev.setFlag_hp (r : Reg) (f : Fld) (b : Bool) : (d.setFlag r f b).hp = d.hp := rfl
@[simp] theorem Dev.setFlag_home (r : Reg) (f : Fld) (b : Bool) : (d.setFlag r f b).home = d.home := rfl
@[simp] theorem Dev.setFlag_ted (r : Reg) (f : Fld) (b : Bool) : (d.setFlag r f b).ted = d.ted := rfl
@[simp] theorem Dev.setFlag_bal (r : Reg) (f : Fld) (b : Bool) : (d.setFlag r f b).bal = d.bal := rfl
@[simp] theorem Dev.setFlag_cip (r : Reg) (f : Fld) (b : Bool) : (d.setFlag r f b).cip = d.cip := rfl
@[simp] theorem Dev.setFlag_chan (r : Reg) (f : Fld) (b : Bool) : (d.setFlag r f b).chan = d.chan := rfl
@[simp] theorem Dev.setFlag_ley (r : Reg) (f : Fld) (b : Bool) : (d.setFlag r f b).ley = d.ley := rfl
@[simp] theorem Dev.setFlag_cas (r : Reg) (f : Fld) (b : Bool) : (d.setFlag r f b).cas = d.cas := rfl
@[simp] theorem Dev.setFlag_samp (r : Reg) (f : Fld) (b : Bool) : (d.setFlag r f b).samp = d.samp := rfl
@[simp] theorem Dev.setFlag_rng (r : Reg) (f : Fld) (b : Bool) : (d.setFlag r f b).rng = d.rng := rfl
@[simp] theorem Dev.setFlag_tal (r : Reg) (f : Fld) (b : Bool) : (d.setFlag r f b).tal = d.tal := rfl
@[simp] theorem Dev.setFlag_mgt (r : Reg) (f : Fld) (b : Bool) : (d.setFlag r f b).mgt = d.mgt := rfl
@[simp] theorem Dev.setFlag_bulk (r : Reg) (f : Fld) (b : Bool) : (d.setFlag r f b).bulk = d.bulk := rfl
@[simp] theorem Dev.setFlag_tally (r : Reg) (f : Fld) (b : Bool) : (d.setFlag r f b).tally = d.tally := rfl
@[simp] theorem Dev.setFlag_events (r : Reg) (f : Fld) (b : Bool) : (d.setFlag r f b).events = d.events := rfl
@[simp] theorem Dev.setFlag_fresh (r : Reg) (f : Fld) (b : Bool) : (d.setFlag r f b).fresh = d.fresh := rfl

@[simp] theorem Dev.wr_clk (r : Reg) (v : Nat) : (d.wr r v).clk = d.clk := rfl
@[simp] theorem Dev.wr_logs (r : Reg) (v : Nat) : (d.wr r v).logs = d.logs := rfl
@[simp] theorem Dev.wr_out (r : Reg) (v : Nat) : (d.wr r v).out = d.out := rfl
@[simp] theorem Dev.wr_xs (r : Reg) (v : Nat) : (d.wr r v).xs = d.xs := rfl
@[simp] theorem Dev.wr_hp (r : Reg) (v : Nat) : (d.wr r v).hp = d.hp := rfl
@[simp] theorem Dev.wr_home (r : Reg) (v : Nat) : (d.wr r v).home = d.home := rfl
@[simp] theorem Dev.wr_ted (r : Reg) (v : Nat) : (d.wr r v).ted = d.ted := rfl
@[simp] theorem Dev.wr_bal (r : Reg) (v : Nat) : (d.wr r v).bal = d.bal := rfl
@[simp] theorem Dev.wr_cip (r : Reg) (v : Nat) : (d.wr r v).cip = d.cip := rfl
@[simp] theorem Dev.wr_chan (r : Reg) (v : Nat) : (d.wr r v).chan = d.chan := rfl
@[simp] theorem Dev.wr_ley (r : Reg) (v : Nat) : (d.wr r v).ley = d.ley := rfl
@[simp] theorem Dev.wr_cas (r : Reg) (v : Nat) : (d.wr r v).cas = d.cas := rfl
@[simp] theorem Dev.wr_samp (r : Reg) (v : Nat) : (d.wr r v).samp = d.samp := rfl
@[simp] theorem Dev.wr_rng (r : Reg) (v : Nat) : (d.wr r v).rng = d.rng := rfl
@[simp] theorem Dev.wr_tal (r : Reg) (v : Nat) : (d.wr r v).tal = d.tal := rfl
@[simp] theorem Dev.wr_mgt (r : Reg) (v : Nat) : (d.wr r v).mgt = d.mgt := rfl
@[simp] theorem Dev.wr_bulk (r : Reg) (v : Nat) : (d.wr r v).bulk = d.bulk := rfl
@[simp] theorem Dev.wr_tally (r : Reg) (v : Nat) : (d.wr r v).tally = d.tally := rfl
@[simp] theorem Dev.wr_events (r : Reg) (v : Nat) : (d.wr r v).events = d.events := rfl
@[simp] theorem Dev.wr_fresh (r : Reg) (v : Nat) : (d.wr r v).fresh = d.fresh := rfl

@[simp] theorem Dev.emit_regs (o : Out) : (d.emit o).regs = d.regs := rfl
@[simp] theorem Dev.emit_clk (o : Out) : (d.emit o).clk = d.clk := rfl
@[simp] theorem Dev.emit_logs (o : Out) : (d.emit o).logs = d.logs := rfl
@[simp] theorem Dev.emit_xs (o : Out) : (d.emit o).xs = d.xs := rfl
@[simp] theorem Dev.emit_hp (o : Out) : (d.emit o).hp = d.hp := rfl
@[simp] theorem Dev.emit_home (o : Out) : (d.emit o).home = d.home := rfl
@[simp] theorem Dev.emit_ted (o : Out) : (d.emit o).ted = d.ted := rfl
@[simp] theorem Dev.emit_bal (o : Out) : (d.emit o).bal = d.bal := rfl
@[simp] theorem Dev.emit_cip (o : Out) : (d.emit o).cip = d.cip := rfl
@[simp] theorem Dev.emit_chan (o : Out) : (d.emit o).chan = d.chan := rfl
@[simp] theorem Dev.emit_ley (o : Out) : (d.emit o).ley = d.ley := rfl
@[simp] theorem Dev.emit_cas (o : Out) : (d.emit o).cas = d.cas := rfl
@[simp] theorem Dev.emit_samp (o : Out) : (d.emit o).samp = d.samp := rfl
@[simp] theorem Dev.emit_rng (o : Out) : (d.emit o).rng = d.rng := rfl
@[simp] theorem Dev.emit_tal (o : Out) : (d.emit o).tal = d.tal := rfl
@[simp] theorem Dev.emit_mgt (o : Out) : (d.emit o).mgt = d.mgt := rfl
@[simp] theorem Dev.emit_bulk (o : Out) : (d.emit o).bulk = d.bulk := rfl
@[simp] theorem Dev.emit_tally (o : Out) : (d.emit o).tally = d.tally := rfl
@[simp] theorem Dev.emit_events (o : Out) : (d.emit o).events = d.events := rfl
@[simp] theorem Dev.emit_fresh (o : Out) : (d.emit o).fresh = d.fresh := rfl
@[simp] theorem Dev.emit_rd (o : Out) (q : Reg) : (d.emit o).rd q = d.rd q := rfl
@[simp] theorem Dev.emit_fld (o : Out) (q : Reg) (g : Fld) : (d.emit o).fld q g = d.fld q g := rfl
@[simp] theorem Dev.emit_flag (o : Out) (q : Reg) (g : Fld) : (d.emit o).flag q g = d.flag q g := rfl

@[simp] theorem Dev.modHead_regs (h : Nat) (f : Head → Head) : (d.modHead h f).regs = d.regs := rfl
@[simp] theorem Dev.modHead_clk (h : Nat) (f : Head → Head) : (d.modHead h f).clk = d.clk := rfl
@[simp] theorem Dev.modHead_logs (h : Nat) (f : Head → Head) : (d.modHead h f).logs = d.logs := rfl
@[simp] theorem Dev.modHead_out (h : Nat) (f : Head → Head) : (d.modHead h f).out = d.out := rfl
@[simp] theorem Dev.modHead_xs (h : Nat) (f : Head → Head) : (d.modHead h f).xs = d.xs := rfl
@[simp] theorem Dev.modHead_home (h : Nat) (f : Head → Head) : (d.modHead h f).home = d.home := rfl
@[simp] theorem Dev.modHead_ted (h : Nat) (f : Head → Head) : (d.modHead h f).ted = d.ted := rfl
@[simp] theorem Dev.modHead_bal (h : Nat) (f : Head → Head) : (d.modHead h f).bal = d.bal := rfl
@[simp] theorem Dev.modHead_cip (h : Nat) (f : Head → Head) : (d.modHead h f).cip = d.cip := rfl
@[simp] theorem Dev.modHead_chan (h : Nat) (f : Head → Head) : (d.modHead h f).chan = d.chan := rfl
@[simp] theorem Dev.modHead_ley (h : Nat) (f : Head → Head) : (d.modHead h f).ley = d.ley := rfl
@[simp] theorem Dev.modHead_cas (h : Nat) (f : Head → Head) : (d.modHead h f).cas = d.cas := rfl
@[simp] theorem Dev.modHead_samp (h : Nat) (f : Head → Head) : (d.modHead h f).samp = d.samp := rfl
@[simp] theorem Dev.modHead_rng (h : Nat) (f : Head → Head) : (d.modHead h f).rng = d.rng := rfl
@[simp] theorem Dev.modHead_tal (h : Nat) (f : Head → Head) : (d.modHead h f).tal = d.tal := rfl
@[simp] theorem Dev.modHead_mgt (h : Nat) (f : Head → Head) : (d.modHead h f).mgt = d.mgt := rfl
@[simp] theorem Dev.modHead_bulk (h : Nat) (f : Head → Head) : (d.modHead h f).bulk = d.bulk := rfl
@[simp] theorem Dev.modHead_tally (h : Nat) (f : Head → Head) : (d.modHead h f).tally = d.tally := rfl
@[simp] theorem Dev.modHead_events (h : Nat) (f : Head → Head) : (d.modHead h f).events = d.events := rfl
@[simp] theorem Dev.modHead_fresh (h : Nat) (f : Head → Head) : (d.modHead h f).fresh = d.fresh := rfl
@[simp] theorem Dev.modHead_rd (h : Nat) (f : Head → Head) (q : Reg) : (d.modHead h f).rd q = d.rd q := rfl
@[simp] theorem Dev.modHead_fld (h : Nat) (f : Head → Head) (q : Reg) (g : Fld) : (d.modHead h f).fld q g = d.fld q g := rfl
@[simp] theorem Dev.modHead_flag (h : Nat) (f : Head → Head) (q : Reg) (g : Fld) : (d.modHead h f).flag q g = d.flag q g := rfl

@[simp] theorem Dev.modChn_regs (c : Nat) (f : Chan → Chan) : (d.modChn c f).regs = d.regs := rfl
@[simp] theorem Dev.modChn_clk (c : Nat) (f : Chan → Chan) : (d.modChn c f).clk = d.clk := rfl
@[simp] theorem Dev.modChn_logs (c : Nat) (f : Chan → Chan) : (d.modChn c f).logs = d.logs := rfl
@[simp] theorem Dev.modChn_out (c : Nat) (f : Chan → Chan) : (d.modChn c f).out = d.out := rfl
@[simp] theorem Dev.modChn_xs (c : Nat) (f : Chan → Chan) : (d.modChn c f).xs = d.xs := rfl
@[simp] theorem Dev.modChn_hp (c : Nat) (f : Chan → Chan) : (d.modChn c f).hp = d.hp := rfl
@[simp] theorem Dev.modChn_home (c : Nat) (f : Chan → Chan) : (d.modChn c f).home = d.home := rfl
@[simp] theorem Dev.modChn_ted (c : Nat) (f : Chan → Chan) : (d.modChn c f).ted = d.ted := rfl
@[simp] theorem Dev.modChn_bal (c : Nat) (f : Chan → Chan) : (d.modChn c f).bal = d.bal := rfl
@[simp] theorem Dev.modChn_cip (c : Nat) (f : Chan → Chan) : (d.modChn c f).cip = d.cip := rfl
@[simp] theorem Dev.modChn_ley (c : Nat) (f : Chan → Chan) : (d.modChn c f).ley = d.ley := rfl
@[simp] theorem Dev.modChn_cas (c : Nat) (f : Chan → Chan) : (d.modChn c f).cas = d.cas := rfl
@[simp] theorem Dev.modChn_samp (c : Nat) (f : Chan → Chan) : (d.modChn c f).samp = d.samp := rfl
@[simp] theorem Dev.modChn_rng (c : Nat) (f : Chan → Chan) : (d.modChn c f).rng = d.rng := rfl
@[simp] theorem Dev.modChn_tal (c : Nat) (f : Chan → Chan) : (d.modChn c f).tal = d.tal := rfl
@[simp] theorem Dev.modChn_mgt (c : Nat) (f : Chan → Chan) : (d.modChn c f).mgt = d.mgt := rfl
@[simp] theorem Dev.modChn_bulk (c : Nat) (f : Chan → Chan) : (d.modChn c f).bulk = d.bulk := rfl
@[simp] theorem Dev.modChn_tally (c : Nat) (f : Chan → Chan) : (d.modChn c f).tally = d.tally := rfl
@[simp] theorem Dev.modChn_events (c : Nat) (f : Chan → Chan) : (d.modChn c f).events = d.events := rfl
@[simp] theorem Dev.modChn_fresh (c : Nat) (f : Chan → Chan) : (d.modChn c f).fresh = d.fresh := rfl
@[simp] theorem Dev.modChn_rd (c : Nat) (f : Chan → Chan) (q : Reg) : (d.modChn c f).rd q = d.rd q := rfl
@[simp] theorem Dev.modChn_fld (c : Nat) (f : Chan → Chan) (q : Reg) (g : Fld) : (d.modChn c f).fld q g = d.fld q g := rfl
@[simp] theorem Dev.modChn_flag (c : Nat) (f : Chan → Chan) (q : Reg) (g : Fld) : (d.modChn c f).flag q g = d.flag q g := rfl

@[simp] theorem Dev.modHome_regs (f : Home → Home) : (d.modHome f).regs = d.regs := rfl
@[simp] theorem Dev.modHome_clk (f : Home → Home) : (d.modHome f).clk = d.clk := rfl
@[simp] theorem Dev.modHome_logs (f : Home → Home) : (d.modHome f).logs = d.logs := rfl
@[simp] theorem Dev.modHome_out (f : Home → Home) : (d.modHome f).out = d.out := rfl
@[simp] theorem Dev.modHome_xs (f : Home → Home) : (d.modHome f).xs = d.xs := rfl
@[simp] theorem Dev.modHome_hp (f : Home → Home) : (d.modHome f).hp = d.hp := rfl
@[simp] theorem Dev.modHome_ted (f : Home → Home) : (d.modHome f).ted = d.ted := rfl
@[simp] theorem Dev.modHome_bal (f : Home → Home) : (d.modHome f).bal = d.bal := rfl
@[simp] theorem Dev.modHome_cip (f : Home → Home) : (d.modHome f).cip = d.cip := rfl
@[simp] theorem Dev.modHome_chan (f : Home → Home) : (d.modHome f).chan = d.chan := rfl
@[simp] theorem Dev.modHome_ley (f : Home → Home) : (d.modHome f).ley = d.ley := rfl
@[simp] theorem Dev.modHome_cas (f : Home → Home) : (d.modHome f).cas = d.cas := rfl
@[simp] theorem Dev.modHome_samp (f : Home → Home) : (d.modHome f).samp = d.samp := rfl
@[simp] theorem Dev.modHome_rng (f : Home → Home) : (d.modHome f).rng = d.rng := rfl
@[simp] theorem Dev.modHome_tal (f : Home → Home) : (d.modHome f).tal = d.tal := rfl
@[simp] theorem Dev.modHome_mgt (f : Home → Home) : (d.modHome f).mgt = d.mgt := rfl
@[simp] theorem Dev.modHome_bulk (f : Home → Home) : (d.modHome f).bulk = d.bulk := rfl
@[simp] theorem Dev.modHome_tally (f : Home → Home) : (d.modHome f).tally = d.tally := rfl
@[simp] theorem Dev.modHome_events (f : Home → Home) : (d.modHome f).events = d.events := rfl
@[simp] theorem Dev.modHome_fresh (f : Home → Home) : (d.modHome f).fresh = d.fresh := rfl
@[simp] theorem Dev.modHome_rd (f : Home → Home) (q : Reg) : (d.modHome f).rd q = d.rd q := rfl
@[simp] theorem Dev.modHome_fld (f : Home → Home) (q : Reg) (g : Fld) : (d.modHome f).fld q g = d.fld q g := rfl
@[simp] theorem Dev.modHome_flag (f : Home → Home) (q : Reg) (g : Fld) : (d.modHome f).flag q g = d.flag q g := rfl

@[simp] theorem Dev.modTed_regs (f : Tiers → Tiers) : (d.modTed f).regs = d.regs := rfl
@[simp] theorem Dev.modTed_clk (f : Tiers → Tiers) : (d.modTed f).clk = d.clk := rfl
@[simp] theorem Dev.modTed_logs (f : Tiers → Tiers) : (d.modTed f).logs = d.logs := rfl
@[simp] theorem Dev.modTed_out (f : Tiers → Tiers) : (d.modTed f).out = d.out := rfl
@[simp] theorem Dev.modTed_xs (f : Tiers → Tiers) : (d.modTed f).xs = d.xs := rfl
@[simp] theorem Dev.modTed_hp (f : Tiers → Tiers) : (d.modTed f).hp = d.hp := rfl
@[simp] theorem Dev.modTed_home (f : Tiers → Tiers) : (d.modTed f).home = d.home := rfl
@[simp] theorem Dev.modTed_bal (f : Tiers → Tiers) : (d.modTed f).bal = d.bal := rfl
@[simp] theorem Dev.modTed_cip (f : Tiers → Tiers) : (d.modTed f).cip = d.cip := rfl
@[simp] theorem Dev.modTed_chan (f : Tiers → Tiers) : (d.modTed f).chan = d.chan := rfl
@[simp] theorem Dev.modTed_ley (f : Tiers → Tiers) : (d.modTed f).ley = d.ley := rfl
@[simp] theorem Dev.modTed_cas (f : Tiers → Tiers) : (d.modTed f).cas = d.cas := rfl
@[simp] theorem Dev.modTed_samp (f : Tiers → Tiers) : (d.modTed f).samp = d.samp := rfl
@[simp] theorem Dev.modTed_rng (f : Tiers → Tiers) : (d.modTed f).rng = d.rng := rfl
@[simp] theorem Dev.modTed_tal (f : Tiers → Tiers) : (d.modTed f).tal = d.tal := rfl
@[simp] theorem Dev.modTed_mgt (f : Tiers → Tiers) : (d.modTed f).mgt = d.mgt := rfl
@[simp] theorem Dev.modTed_bulk (f : Tiers → Tiers) : (d.modTed f).bulk = d.bulk := rfl
@[simp] theorem Dev.modTed_tally (f : Tiers → Tiers) : (d.modTed f).tally = d.tally := rfl
@[simp] theorem Dev.modTed_events (f : Tiers → Tiers) : (d.modTed f).events = d.events := rfl
@[simp] theorem Dev.modTed_fresh (f : Tiers → Tiers) : (d.modTed f).fresh = d.fresh := rfl
@[simp] theorem Dev.modTed_rd (f : Tiers → Tiers) (q : Reg) : (d.modTed f).rd q = d.rd q := rfl
@[simp] theorem Dev.modTed_fld (f : Tiers → Tiers) (q : Reg) (g : Fld) : (d.modTed f).fld q g = d.fld q g := rfl
@[simp] theorem Dev.modTed_flag (f : Tiers → Tiers) (q : Reg) (g : Fld) : (d.modTed f).flag q g = d.flag q g := rfl

@[simp] theorem Dev.modBal_regs (f : Balers → Balers) : (d.modBal f).regs = d.regs := rfl
@[simp] theorem Dev.modBal_clk (f : Balers → Balers) : (d.modBal f).clk = d.clk := rfl
@[simp] theorem Dev.modBal_logs (f : Balers → Balers) : (d.modBal f).logs = d.logs := rfl
@[simp] theorem Dev.modBal_out (f : Balers → Balers) : (d.modBal f).out = d.out := rfl
@[simp] theorem Dev.modBal_xs (f : Balers → Balers) : (d.modBal f).xs = d.xs := rfl
@[simp] theorem Dev.modBal_hp (f : Balers → Balers) : (d.modBal f).hp = d.hp := rfl
@[simp] theorem Dev.modBal_home (f : Balers → Balers) : (d.modBal f).home = d.home := rfl
@[simp] theorem Dev.modBal_ted (f : Balers → Balers) : (d.modBal f).ted = d.ted := rfl
@[simp] theorem Dev.modBal_cip (f : Balers → Balers) : (d.modBal f).cip = d.cip := rfl
@[simp] theorem Dev.modBal_chan (f : Balers → Balers) : (d.modBal f).chan = d.chan := rfl
@[simp] theorem Dev.modBal_ley (f : Balers → Balers) : (d.modBal f).ley = d.ley := rfl
@[simp] theorem Dev.modBal_cas (f : Balers → Balers) : (d.modBal f).cas = d.cas := rfl
@[simp] theorem Dev.modBal_samp (f : Balers → Balers) : (d.modBal f).samp = d.samp := rfl
@[simp] theorem Dev.modBal_rng (f : Balers → Balers) : (d.modBal f).rng = d.rng := rfl
@[simp] theorem Dev.modBal_tal (f : Balers → Balers) : (d.modBal f).tal = d.tal := rfl
@[simp] theorem Dev.modBal_mgt (f : Balers → Balers) : (d.modBal f).mgt = d.mgt := rfl
@[simp] theorem Dev.modBal_bulk (f : Balers → Balers) : (d.modBal f).bulk = d.bulk := rfl
@[simp] theorem Dev.modBal_tally (f : Balers → Balers) : (d.modBal f).tally = d.tally := rfl
@[simp] theorem Dev.modBal_events (f : Balers → Balers) : (d.modBal f).events = d.events := rfl
@[simp] theorem Dev.modBal_fresh (f : Balers → Balers) : (d.modBal f).fresh = d.fresh := rfl
@[simp] theorem Dev.modBal_rd (f : Balers → Balers) (q : Reg) : (d.modBal f).rd q = d.rd q := rfl
@[simp] theorem Dev.modBal_fld (f : Balers → Balers) (q : Reg) (g : Fld) : (d.modBal f).fld q g = d.fld q g := rfl
@[simp] theorem Dev.modBal_flag (f : Balers → Balers) (q : Reg) (g : Fld) : (d.modBal f).flag q g = d.flag q g := rfl

@[simp] theorem Dev.modCip_regs (f : Cipher → Cipher) : (d.modCip f).regs = d.regs := rfl
@[simp] theorem Dev.modCip_clk (f : Cipher → Cipher) : (d.modCip f).clk = d.clk := rfl
@[simp] theorem Dev.modCip_logs (f : Cipher → Cipher) : (d.modCip f).logs = d.logs := rfl
@[simp] theorem Dev.modCip_out (f : Cipher → Cipher) : (d.modCip f).out = d.out := rfl
@[simp] theorem Dev.modCip_xs (f : Cipher → Cipher) : (d.modCip f).xs = d.xs := rfl
@[simp] theorem Dev.modCip_hp (f : Cipher → Cipher) : (d.modCip f).hp = d.hp := rfl
@[simp] theorem Dev.modCip_home (f : Cipher → Cipher) : (d.modCip f).home = d.home := rfl
@[simp] theorem Dev.modCip_ted (f : Cipher → Cipher) : (d.modCip f).ted = d.ted := rfl
@[simp] theorem Dev.modCip_bal (f : Cipher → Cipher) : (d.modCip f).bal = d.bal := rfl
@[simp] theorem Dev.modCip_chan (f : Cipher → Cipher) : (d.modCip f).chan = d.chan := rfl
@[simp] theorem Dev.modCip_ley (f : Cipher → Cipher) : (d.modCip f).ley = d.ley := rfl
@[simp] theorem Dev.modCip_cas (f : Cipher → Cipher) : (d.modCip f).cas = d.cas := rfl
@[simp] theorem Dev.modCip_samp (f : Cipher → Cipher) : (d.modCip f).samp = d.samp := rfl
@[simp] theorem Dev.modCip_rng (f : Cipher → Cipher) : (d.modCip f).rng = d.rng := rfl
@[simp] theorem Dev.modCip_tal (f : Cipher → Cipher) : (d.modCip f).tal = d.tal := rfl
@[simp] theorem Dev.modCip_mgt (f : Cipher → Cipher) : (d.modCip f).mgt = d.mgt := rfl
@[simp] theorem Dev.modCip_bulk (f : Cipher → Cipher) : (d.modCip f).bulk = d.bulk := rfl
@[simp] theorem Dev.modCip_tally (f : Cipher → Cipher) : (d.modCip f).tally = d.tally := rfl
@[simp] theorem Dev.modCip_events (f : Cipher → Cipher) : (d.modCip f).events = d.events := rfl
@[simp] theorem Dev.modCip_fresh (f : Cipher → Cipher) : (d.modCip f).fresh = d.fresh := rfl
@[simp] theorem Dev.modCip_rd (f : Cipher → Cipher) (q : Reg) : (d.modCip f).rd q = d.rd q := rfl
@[simp] theorem Dev.modCip_fld (f : Cipher → Cipher) (q : Reg) (g : Fld) : (d.modCip f).fld q g = d.fld q g := rfl
@[simp] theorem Dev.modCip_flag (f : Cipher → Cipher) (q : Reg) (g : Fld) : (d.modCip f).flag q g = d.flag q g := rfl

@[simp] theorem Dev.modRng_regs (f : Rings → Rings) : (d.modRng f).regs = d.regs := rfl
@[simp] theorem Dev.modRng_clk (f : Rings → Rings) : (d.modRng f).clk = d.clk := rfl
@[simp] theorem Dev.modRng_logs (f : Rings → Rings) : (d.modRng f).logs = d.logs := rfl
@[simp] theorem Dev.modRng_out (f : Rings → Rings) : (d.modRng f).out = d.out := rfl
@[simp] theorem Dev.modRng_xs (f : Rings → Rings) : (d.modRng f).xs = d.xs := rfl
@[simp] theorem Dev.modRng_hp (f : Rings → Rings) : (d.modRng f).hp = d.hp := rfl
@[simp] theorem Dev.modRng_home (f : Rings → Rings) : (d.modRng f).home = d.home := rfl
@[simp] theorem Dev.modRng_ted (f : Rings → Rings) : (d.modRng f).ted = d.ted := rfl
@[simp] theorem Dev.modRng_bal (f : Rings → Rings) : (d.modRng f).bal = d.bal := rfl
@[simp] theorem Dev.modRng_cip (f : Rings → Rings) : (d.modRng f).cip = d.cip := rfl
@[simp] theorem Dev.modRng_chan (f : Rings → Rings) : (d.modRng f).chan = d.chan := rfl
@[simp] theorem Dev.modRng_ley (f : Rings → Rings) : (d.modRng f).ley = d.ley := rfl
@[simp] theorem Dev.modRng_cas (f : Rings → Rings) : (d.modRng f).cas = d.cas := rfl
@[simp] theorem Dev.modRng_samp (f : Rings → Rings) : (d.modRng f).samp = d.samp := rfl
@[simp] theorem Dev.modRng_tal (f : Rings → Rings) : (d.modRng f).tal = d.tal := rfl
@[simp] theorem Dev.modRng_mgt (f : Rings → Rings) : (d.modRng f).mgt = d.mgt := rfl
@[simp] theorem Dev.modRng_bulk (f : Rings → Rings) : (d.modRng f).bulk = d.bulk := rfl
@[simp] theorem Dev.modRng_tally (f : Rings → Rings) : (d.modRng f).tally = d.tally := rfl
@[simp] theorem Dev.modRng_events (f : Rings → Rings) : (d.modRng f).events = d.events := rfl
@[simp] theorem Dev.modRng_fresh (f : Rings → Rings) : (d.modRng f).fresh = d.fresh := rfl
@[simp] theorem Dev.modRng_rd (f : Rings → Rings) (q : Reg) : (d.modRng f).rd q = d.rd q := rfl
@[simp] theorem Dev.modRng_fld (f : Rings → Rings) (q : Reg) (g : Fld) : (d.modRng f).fld q g = d.fld q g := rfl
@[simp] theorem Dev.modRng_flag (f : Rings → Rings) (q : Reg) (g : Fld) : (d.modRng f).flag q g = d.flag q g := rfl

@[simp] theorem Dev.modHp_regs (f : HostPorts → HostPorts) : (d.modHp f).regs = d.regs := rfl
@[simp] theorem Dev.modHp_clk (f : HostPorts → HostPorts) : (d.modHp f).clk = d.clk := rfl
@[simp] theorem Dev.modHp_logs (f : HostPorts → HostPorts) : (d.modHp f).logs = d.logs := rfl
@[simp] theorem Dev.modHp_out (f : HostPorts → HostPorts) : (d.modHp f).out = d.out := rfl
@[simp] theorem Dev.modHp_xs (f : HostPorts → HostPorts) : (d.modHp f).xs = d.xs := rfl
@[simp] theorem Dev.modHp_home (f : HostPorts → HostPorts) : (d.modHp f).home = d.home := rfl
@[simp] theorem Dev.modHp_ted (f : HostPorts → HostPorts) : (d.modHp f).ted = d.ted := rfl
@[simp] theorem Dev.modHp_bal (f : HostPorts → HostPorts) : (d.modHp f).bal = d.bal := rfl
@[simp] theorem Dev.modHp_cip (f : HostPorts → HostPorts) : (d.modHp f).cip = d.cip := rfl
@[simp] theorem Dev.modHp_chan (f : HostPorts → HostPorts) : (d.modHp f).chan = d.chan := rfl
@[simp] theorem Dev.modHp_ley (f : HostPorts → HostPorts) : (d.modHp f).ley = d.ley := rfl
@[simp] theorem Dev.modHp_cas (f : HostPorts → HostPorts) : (d.modHp f).cas = d.cas := rfl
@[simp] theorem Dev.modHp_samp (f : HostPorts → HostPorts) : (d.modHp f).samp = d.samp := rfl
@[simp] theorem Dev.modHp_rng (f : HostPorts → HostPorts) : (d.modHp f).rng = d.rng := rfl
@[simp] theorem Dev.modHp_tal (f : HostPorts → HostPorts) : (d.modHp f).tal = d.tal := rfl
@[simp] theorem Dev.modHp_mgt (f : HostPorts → HostPorts) : (d.modHp f).mgt = d.mgt := rfl
@[simp] theorem Dev.modHp_bulk (f : HostPorts → HostPorts) : (d.modHp f).bulk = d.bulk := rfl
@[simp] theorem Dev.modHp_tally (f : HostPorts → HostPorts) : (d.modHp f).tally = d.tally := rfl
@[simp] theorem Dev.modHp_events (f : HostPorts → HostPorts) : (d.modHp f).events = d.events := rfl
@[simp] theorem Dev.modHp_fresh (f : HostPorts → HostPorts) : (d.modHp f).fresh = d.fresh := rfl
@[simp] theorem Dev.modHp_rd (f : HostPorts → HostPorts) (q : Reg) : (d.modHp f).rd q = d.rd q := rfl
@[simp] theorem Dev.modHp_fld (f : HostPorts → HostPorts) (q : Reg) (g : Fld) : (d.modHp f).fld q g = d.fld q g := rfl
@[simp] theorem Dev.modHp_flag (f : HostPorts → HostPorts) (q : Reg) (g : Fld) : (d.modHp f).flag q g = d.flag q g := rfl

@[simp] theorem Dev.modMgt_regs (f : Mgt → Mgt) : (d.modMgt f).regs = d.regs := rfl
@[simp] theorem Dev.modMgt_clk (f : Mgt → Mgt) : (d.modMgt f).clk = d.clk := rfl
@[simp] theorem Dev.modMgt_logs (f : Mgt → Mgt) : (d.modMgt f).logs = d.logs := rfl
@[simp] theorem Dev.modMgt_out (f : Mgt → Mgt) : (d.modMgt f).out = d.out := rfl
@[simp] theorem Dev.modMgt_xs (f : Mgt → Mgt) : (d.modMgt f).xs = d.xs := rfl
@[simp] theorem Dev.modMgt_hp (f : Mgt → Mgt) : (d.modMgt f).hp = d.hp := rfl
@[simp] theorem Dev.modMgt_home (f : Mgt → Mgt) : (d.modMgt f).home = d.home := rfl
@[simp] theorem Dev.modMgt_ted (f : Mgt → Mgt) : (d.modMgt f).ted = d.ted := rfl
@[simp] theorem Dev.modMgt_bal (f : Mgt → Mgt) : (d.modMgt f).bal = d.bal := rfl
@[simp] theorem Dev.modMgt_cip (f : Mgt → Mgt) : (d.modMgt f).cip = d.cip := rfl
@[simp] theorem Dev.modMgt_chan (f : Mgt → Mgt) : (d.modMgt f).chan = d.chan := rfl
@[simp] theorem Dev.modMgt_ley (f : Mgt → Mgt) : (d.modMgt f).ley = d.ley := rfl
@[simp] theorem Dev.modMgt_cas (f : Mgt → Mgt) : (d.modMgt f).cas = d.cas := rfl
@[simp] theorem Dev.modMgt_samp (f : Mgt → Mgt) : (d.modMgt f).samp = d.samp := rfl
@[simp] theorem Dev.modMgt_rng (f : Mgt → Mgt) : (d.modMgt f).rng = d.rng := rfl
@[simp] theorem Dev.modMgt_tal (f : Mgt → Mgt) : (d.modMgt f).tal = d.tal := rfl
@[simp] theorem Dev.modMgt_bulk (f : Mgt → Mgt) : (d.modMgt f).bulk = d.bulk := rfl
@[simp] theorem Dev.modMgt_tally (f : Mgt → Mgt) : (d.modMgt f).tally = d.tally := rfl
@[simp] theorem Dev.modMgt_events (f : Mgt → Mgt) : (d.modMgt f).events = d.events := rfl
@[simp] theorem Dev.modMgt_fresh (f : Mgt → Mgt) : (d.modMgt f).fresh = d.fresh := rfl
@[simp] theorem Dev.modMgt_rd (f : Mgt → Mgt) (q : Reg) : (d.modMgt f).rd q = d.rd q := rfl
@[simp] theorem Dev.modMgt_fld (f : Mgt → Mgt) (q : Reg) (g : Fld) : (d.modMgt f).fld q g = d.fld q g := rfl
@[simp] theorem Dev.modMgt_flag (f : Mgt → Mgt) (q : Reg) (g : Fld) : (d.modMgt f).flag q g = d.flag q g := rfl

/-! ### Records change the logs, on a member the queue of records, and the event interrupts sent, and nothing else -/

theorem Dev.logIrq_cases (owner was : Nat) (sev : Sev) : ∃ o, d.logIrq owner was sev = { d with out := d.out ++ o } ∧
    ∀ x ∈ o, ∃ v, x = .msix owner v := by
  unfold Dev.logIrq
  split
  · split
    · exact ⟨[_], rfl, by simp⟩
    · exact ⟨[], by simp, by simp⟩
  · exact ⟨[], by simp, by simp⟩

theorem Dev.raise_cases (r : Rec) : ∃ l x o, d.raise r = { d with logs := l, cas := x, out := d.out ++ o } := by
  unfold Dev.raise
  dsimp only
  split
  · obtain ⟨o, h, -⟩ := Dev.logIrq_cases { d with logs := _, cas := _ } r.ld (d.logged r.ld r.sev) r.sev
    obtain ⟨o', h', -⟩ := Dev.logIrq_cases { d with logs := _, cas := _, out := d.out ++ o } 16 (d.logged 16 r.sev) r.sev
    exact ⟨_, _, o ++ o', by rw [h, h', List.append_assoc]⟩
  · obtain ⟨o', h', -⟩ := Dev.logIrq_cases { d with logs := _, cas := _ } 16 (d.logged 16 r.sev) r.sev
    exact ⟨_, _, o', h'⟩

theorem Dev.raiseLimited_cases (k : Nat) (r : Rec) :
    ∃ l x o, d.raiseLimited k r = { d with logs := l, cas := x, out := d.out ++ o } := by
  unfold Dev.raiseLimited
  dsimp only
  split
  · split
    · exact ⟨_, d.cas, [], by rw [List.append_nil]⟩
    · obtain ⟨l, x, o, h⟩ := Dev.raise_cases { d with logs := _ } _
      exact ⟨l, x, o, h⟩
  · obtain ⟨l, x, o, h⟩ := Dev.raise_cases { d with logs := _ } _
    exact ⟨l, x, o, h⟩

@[simp] theorem Dev.raise_regs (r : Rec) : (d.raise r).regs = d.regs := by
  obtain ⟨l, x, o, h⟩ := d.raise_cases r; rw [h]
@[simp] theorem Dev.raise_clk (r : Rec) : (d.raise r).clk = d.clk := by
  obtain ⟨l, x, o, h⟩ := d.raise_cases r; rw [h]
@[simp] theorem Dev.raise_xs (r : Rec) : (d.raise r).xs = d.xs := by
  obtain ⟨l, x, o, h⟩ := d.raise_cases r; rw [h]
@[simp] theorem Dev.raise_hp (r : Rec) : (d.raise r).hp = d.hp := by
  obtain ⟨l, x, o, h⟩ := d.raise_cases r; rw [h]
@[simp] theorem Dev.raise_home (r : Rec) : (d.raise r).home = d.home := by
  obtain ⟨l, x, o, h⟩ := d.raise_cases r; rw [h]
@[simp] theorem Dev.raise_ted (r : Rec) : (d.raise r).ted = d.ted := by
  obtain ⟨l, x, o, h⟩ := d.raise_cases r; rw [h]
@[simp] theorem Dev.raise_bal (r : Rec) : (d.raise r).bal = d.bal := by
  obtain ⟨l, x, o, h⟩ := d.raise_cases r; rw [h]
@[simp] theorem Dev.raise_cip (r : Rec) : (d.raise r).cip = d.cip := by
  obtain ⟨l, x, o, h⟩ := d.raise_cases r; rw [h]
@[simp] theorem Dev.raise_chan (r : Rec) : (d.raise r).chan = d.chan := by
  obtain ⟨l, x, o, h⟩ := d.raise_cases r; rw [h]
@[simp] theorem Dev.raise_ley (r : Rec) : (d.raise r).ley = d.ley := by
  obtain ⟨l, x, o, h⟩ := d.raise_cases r; rw [h]
@[simp] theorem Dev.raise_samp (r : Rec) : (d.raise r).samp = d.samp := by
  obtain ⟨l, x, o, h⟩ := d.raise_cases r; rw [h]
@[simp] theorem Dev.raise_rng (r : Rec) : (d.raise r).rng = d.rng := by
  obtain ⟨l, x, o, h⟩ := d.raise_cases r; rw [h]
@[simp] theorem Dev.raise_tal (r : Rec) : (d.raise r).tal = d.tal := by
  obtain ⟨l, x, o, h⟩ := d.raise_cases r; rw [h]
@[simp] theorem Dev.raise_mgt (r : Rec) : (d.raise r).mgt = d.mgt := by
  obtain ⟨l, x, o, h⟩ := d.raise_cases r; rw [h]
@[simp] theorem Dev.raise_bulk (r : Rec) : (d.raise r).bulk = d.bulk := by
  obtain ⟨l, x, o, h⟩ := d.raise_cases r; rw [h]
@[simp] theorem Dev.raise_tally (r : Rec) : (d.raise r).tally = d.tally := by
  obtain ⟨l, x, o, h⟩ := d.raise_cases r; rw [h]
@[simp] theorem Dev.raise_events (r : Rec) : (d.raise r).events = d.events := by
  obtain ⟨l, x, o, h⟩ := d.raise_cases r; rw [h]
@[simp] theorem Dev.raise_fresh (r : Rec) : (d.raise r).fresh = d.fresh := by
  obtain ⟨l, x, o, h⟩ := d.raise_cases r; rw [h]
@[simp] theorem Dev.raise_rd (r : Rec) (q : Reg) : (d.raise r).rd q = d.rd q := by
  obtain ⟨l, x, o, h⟩ := d.raise_cases r; rw [h]; rfl
@[simp] theorem Dev.raise_fld (r : Rec) (q : Reg) (g : Fld) : (d.raise r).fld q g = d.fld q g := by
  obtain ⟨l, x, o, h⟩ := d.raise_cases r; rw [h]; rfl
@[simp] theorem Dev.raise_flag (r : Rec) (q : Reg) (g : Fld) : (d.raise r).flag q g = d.flag q g := by
  obtain ⟨l, x, o, h⟩ := d.raise_cases r; rw [h]; rfl
@[simp] theorem Dev.raiseLimited_regs (k : Nat) (r : Rec) : (d.raiseLimited k r).regs = d.regs := by
  obtain ⟨l, x, o, h⟩ := d.raiseLimited_cases k r; rw [h]
@[simp] theorem Dev.raiseLimited_clk (k : Nat) (r : Rec) : (d.raiseLimited k r).clk = d.clk := by
  obtain ⟨l, x, o, h⟩ := d.raiseLimited_cases k r; rw [h]
@[simp] theorem Dev.raiseLimited_xs (k : Nat) (r : Rec) : (d.raiseLimited k r).xs = d.xs := by
  obtain ⟨l, x, o, h⟩ := d.raiseLimited_cases k r; rw [h]
@[simp] theorem Dev.raiseLimited_hp (k : Nat) (r : Rec) : (d.raiseLimited k r).hp = d.hp := by
  obtain ⟨l, x, o, h⟩ := d.raiseLimited_cases k r; rw [h]
@[simp] theorem Dev.raiseLimited_home (k : Nat) (r : Rec) : (d.raiseLimited k r).home = d.home := by
  obtain ⟨l, x, o, h⟩ := d.raiseLimited_cases k r; rw [h]
@[simp] theorem Dev.raiseLimited_ted (k : Nat) (r : Rec) : (d.raiseLimited k r).ted = d.ted := by
  obtain ⟨l, x, o, h⟩ := d.raiseLimited_cases k r; rw [h]
@[simp] theorem Dev.raiseLimited_bal (k : Nat) (r : Rec) : (d.raiseLimited k r).bal = d.bal := by
  obtain ⟨l, x, o, h⟩ := d.raiseLimited_cases k r; rw [h]
@[simp] theorem Dev.raiseLimited_cip (k : Nat) (r : Rec) : (d.raiseLimited k r).cip = d.cip := by
  obtain ⟨l, x, o, h⟩ := d.raiseLimited_cases k r; rw [h]
@[simp] theorem Dev.raiseLimited_chan (k : Nat) (r : Rec) : (d.raiseLimited k r).chan = d.chan := by
  obtain ⟨l, x, o, h⟩ := d.raiseLimited_cases k r; rw [h]
@[simp] theorem Dev.raiseLimited_ley (k : Nat) (r : Rec) : (d.raiseLimited k r).ley = d.ley := by
  obtain ⟨l, x, o, h⟩ := d.raiseLimited_cases k r; rw [h]
@[simp] theorem Dev.raiseLimited_samp (k : Nat) (r : Rec) : (d.raiseLimited k r).samp = d.samp := by
  obtain ⟨l, x, o, h⟩ := d.raiseLimited_cases k r; rw [h]
@[simp] theorem Dev.raiseLimited_rng (k : Nat) (r : Rec) : (d.raiseLimited k r).rng = d.rng := by
  obtain ⟨l, x, o, h⟩ := d.raiseLimited_cases k r; rw [h]
@[simp] theorem Dev.raiseLimited_tal (k : Nat) (r : Rec) : (d.raiseLimited k r).tal = d.tal := by
  obtain ⟨l, x, o, h⟩ := d.raiseLimited_cases k r; rw [h]
@[simp] theorem Dev.raiseLimited_mgt (k : Nat) (r : Rec) : (d.raiseLimited k r).mgt = d.mgt := by
  obtain ⟨l, x, o, h⟩ := d.raiseLimited_cases k r; rw [h]
@[simp] theorem Dev.raiseLimited_bulk (k : Nat) (r : Rec) : (d.raiseLimited k r).bulk = d.bulk := by
  obtain ⟨l, x, o, h⟩ := d.raiseLimited_cases k r; rw [h]
@[simp] theorem Dev.raiseLimited_tally (k : Nat) (r : Rec) : (d.raiseLimited k r).tally = d.tally := by
  obtain ⟨l, x, o, h⟩ := d.raiseLimited_cases k r; rw [h]
@[simp] theorem Dev.raiseLimited_events (k : Nat) (r : Rec) : (d.raiseLimited k r).events = d.events := by
  obtain ⟨l, x, o, h⟩ := d.raiseLimited_cases k r; rw [h]
@[simp] theorem Dev.raiseLimited_fresh (k : Nat) (r : Rec) : (d.raiseLimited k r).fresh = d.fresh := by
  obtain ⟨l, x, o, h⟩ := d.raiseLimited_cases k r; rw [h]
@[simp] theorem Dev.raiseLimited_rd (k : Nat) (r : Rec) (q : Reg) : (d.raiseLimited k r).rd q = d.rd q := by
  obtain ⟨l, x, o, h⟩ := d.raiseLimited_cases k r; rw [h]; rfl
@[simp] theorem Dev.raiseLimited_fld (k : Nat) (r : Rec) (q : Reg) (g : Fld) : (d.raiseLimited k r).fld q g = d.fld q g := by
  obtain ⟨l, x, o, h⟩ := d.raiseLimited_cases k r; rw [h]; rfl
@[simp] theorem Dev.raiseLimited_flag (k : Nat) (r : Rec) (q : Reg) (g : Fld) : (d.raiseLimited k r).flag q g = d.flag q g := by
  obtain ⟨l, x, o, h⟩ := d.raiseLimited_cases k r; rw [h]; rfl

/-! ### Counters -/

@[simp] theorem Dev.count_regs (k : EvKind) (u p n : Nat) : (d.count k u p n).regs = d.regs := rfl
@[simp] theorem Dev.count_clk (k : EvKind) (u p n : Nat) : (d.count k u p n).clk = d.clk := rfl
@[simp] theorem Dev.count_logs (k : EvKind) (u p n : Nat) : (d.count k u p n).logs = d.logs := rfl
@[simp] theorem Dev.count_out (k : EvKind) (u p n : Nat) : (d.count k u p n).out = d.out := rfl
@[simp] theorem Dev.count_xs (k : EvKind) (u p n : Nat) : (d.count k u p n).xs = d.xs := rfl
@[simp] theorem Dev.count_hp (k : EvKind) (u p n : Nat) : (d.count k u p n).hp = d.hp := rfl
@[simp] theorem Dev.count_home (k : EvKind) (u p n : Nat) : (d.count k u p n).home = d.home := rfl
@[simp] theorem Dev.count_ted (k : EvKind) (u p n : Nat) : (d.count k u p n).ted = d.ted := rfl
@[simp] theorem Dev.count_bal (k : EvKind) (u p n : Nat) : (d.count k u p n).bal = d.bal := rfl
@[simp] theorem Dev.count_cip (k : EvKind) (u p n : Nat) : (d.count k u p n).cip = d.cip := rfl
@[simp] theorem Dev.count_chan (k : EvKind) (u p n : Nat) : (d.count k u p n).chan = d.chan := rfl
@[simp] theorem Dev.count_ley (k : EvKind) (u p n : Nat) : (d.count k u p n).ley = d.ley := rfl
@[simp] theorem Dev.count_cas (k : EvKind) (u p n : Nat) : (d.count k u p n).cas = d.cas := rfl
@[simp] theorem Dev.count_samp (k : EvKind) (u p n : Nat) : (d.count k u p n).samp = d.samp := rfl
@[simp] theorem Dev.count_rng (k : EvKind) (u p n : Nat) : (d.count k u p n).rng = d.rng := rfl
@[simp] theorem Dev.count_tal (k : EvKind) (u p n : Nat) : (d.count k u p n).tal = d.tal := rfl
@[simp] theorem Dev.count_mgt (k : EvKind) (u p n : Nat) : (d.count k u p n).mgt = d.mgt := rfl
@[simp] theorem Dev.count_bulk (k : EvKind) (u p n : Nat) : (d.count k u p n).bulk = d.bulk := rfl
@[simp] theorem Dev.count_tally (k : EvKind) (u p n : Nat) : (d.count k u p n).tally = d.tally := rfl
@[simp] theorem Dev.count_fresh (k : EvKind) (u p n : Nat) : (d.count k u p n).fresh = d.fresh := rfl
@[simp] theorem Dev.count_rd (k : EvKind) (u p n : Nat) (q : Reg) : (d.count k u p n).rd q = d.rd q := rfl
@[simp] theorem Dev.count_fld (k : EvKind) (u p n : Nat) (q : Reg) (g : Fld) : (d.count k u p n).fld q g = d.fld q g := rfl
@[simp] theorem Dev.count_flag (k : EvKind) (u p n : Nat) (q : Reg) (g : Fld) : (d.count k u p n).flag q g = d.flag q g := rfl
@[simp] theorem Dev.countLd_regs (n c : Nat) : (d.countLd n c).regs = d.regs := by unfold Dev.countLd; split <;> rfl
@[simp] theorem Dev.countLd_clk (n c : Nat) : (d.countLd n c).clk = d.clk := by unfold Dev.countLd; split <;> rfl
@[simp] theorem Dev.countLd_logs (n c : Nat) : (d.countLd n c).logs = d.logs := by unfold Dev.countLd; split <;> rfl
@[simp] theorem Dev.countLd_out (n c : Nat) : (d.countLd n c).out = d.out := by unfold Dev.countLd; split <;> rfl
@[simp] theorem Dev.countLd_xs (n c : Nat) : (d.countLd n c).xs = d.xs := by unfold Dev.countLd; split <;> rfl
@[simp] theorem Dev.countLd_hp (n c : Nat) : (d.countLd n c).hp = d.hp := by unfold Dev.countLd; split <;> rfl
@[simp] theorem Dev.countLd_home (n c : Nat) : (d.countLd n c).home = d.home := by unfold Dev.countLd; split <;> rfl
@[simp] theorem Dev.countLd_ted (n c : Nat) : (d.countLd n c).ted = d.ted := by unfold Dev.countLd; split <;> rfl
@[simp] theorem Dev.countLd_bal (n c : Nat) : (d.countLd n c).bal = d.bal := by unfold Dev.countLd; split <;> rfl
@[simp] theorem Dev.countLd_cip (n c : Nat) : (d.countLd n c).cip = d.cip := by unfold Dev.countLd; split <;> rfl
@[simp] theorem Dev.countLd_chan (n c : Nat) : (d.countLd n c).chan = d.chan := by unfold Dev.countLd; split <;> rfl
@[simp] theorem Dev.countLd_ley (n c : Nat) : (d.countLd n c).ley = d.ley := by unfold Dev.countLd; split <;> rfl
@[simp] theorem Dev.countLd_cas (n c : Nat) : (d.countLd n c).cas = d.cas := by unfold Dev.countLd; split <;> rfl
@[simp] theorem Dev.countLd_samp (n c : Nat) : (d.countLd n c).samp = d.samp := by unfold Dev.countLd; split <;> rfl
@[simp] theorem Dev.countLd_rng (n c : Nat) : (d.countLd n c).rng = d.rng := by unfold Dev.countLd; split <;> rfl
@[simp] theorem Dev.countLd_tal (n c : Nat) : (d.countLd n c).tal = d.tal := by unfold Dev.countLd; split <;> rfl
@[simp] theorem Dev.countLd_mgt (n c : Nat) : (d.countLd n c).mgt = d.mgt := by unfold Dev.countLd; split <;> rfl
@[simp] theorem Dev.countLd_bulk (n c : Nat) : (d.countLd n c).bulk = d.bulk := by unfold Dev.countLd; split <;> rfl
@[simp] theorem Dev.countLd_events (n c : Nat) : (d.countLd n c).events = d.events := by unfold Dev.countLd; split <;> rfl
@[simp] theorem Dev.countLd_fresh (n c : Nat) : (d.countLd n c).fresh = d.fresh := by unfold Dev.countLd; split <;> rfl
@[simp] theorem Dev.countLd_rd (n c : Nat) (q : Reg) : (d.countLd n c).rd q = d.rd q := by unfold Dev.countLd; split <;> rfl
@[simp] theorem Dev.countLd_fld (n c : Nat) (q : Reg) (g : Fld) : (d.countLd n c).fld q g = d.fld q g := by unfold Dev.countLd; split <;> rfl
@[simp] theorem Dev.countLd_flag (n c : Nat) (q : Reg) (g : Fld) : (d.countLd n c).flag q g = d.flag q g := by unfold Dev.countLd; split <;> rfl

/-! ### The end of a command -/

theorem Dev.globalInterrupt_cases (st : Stile) : Dev.globalInterrupt st d = d ∨ Dev.globalInterrupt st d =
    (d.setFlag .gblIntCtrl F.gblIntCtrl_ARMED false).emit (.msix 16 (d.fld .gblIntCtrl F.gblIntCtrl_VECTOR)) := by
  unfold Dev.globalInterrupt
  split
  · exact .inr rfl
  · exact .inl rfl

variable (s : State)

@[simp] theorem State.settle_clk : (s.settle d).dev.clk = d.clk := by
  rcases Dev.globalInterrupt_cases d s.stile with h | h <;> simp [State.settle, h]
@[simp] theorem State.settle_logs : (s.settle d).dev.logs = d.logs := by
  rcases Dev.globalInterrupt_cases d s.stile with h | h <;> simp [State.settle, h]
@[simp] theorem State.settle_xs : (s.settle d).dev.xs = d.xs := by
  rcases Dev.globalInterrupt_cases d s.stile with h | h <;> simp [State.settle, h]
@[simp] theorem State.settle_hp : (s.settle d).dev.hp = d.hp := by
  rcases Dev.globalInterrupt_cases d s.stile with h | h <;> simp [State.settle, h]
@[simp] theorem State.settle_home : (s.settle d).dev.home = d.home := by
  rcases Dev.globalInterrupt_cases d s.stile with h | h <;> simp [State.settle, h]
@[simp] theorem State.settle_ted : (s.settle d).dev.ted = d.ted := by
  rcases Dev.globalInterrupt_cases d s.stile with h | h <;> simp [State.settle, h]
@[simp] theorem State.settle_bal : (s.settle d).dev.bal = d.bal := by
  rcases Dev.globalInterrupt_cases d s.stile with h | h <;> simp [State.settle, h]
@[simp] theorem State.settle_cip : (s.settle d).dev.cip = d.cip := by
  rcases Dev.globalInterrupt_cases d s.stile with h | h <;> simp [State.settle, h]
@[simp] theorem State.settle_chan : (s.settle d).dev.chan = d.chan := by
  rcases Dev.globalInterrupt_cases d s.stile with h | h <;> simp [State.settle, h]
@[simp] theorem State.settle_ley : (s.settle d).dev.ley = d.ley := by
  rcases Dev.globalInterrupt_cases d s.stile with h | h <;> simp [State.settle, h]
@[simp] theorem State.settle_cas : (s.settle d).dev.cas = d.cas := by
  rcases Dev.globalInterrupt_cases d s.stile with h | h <;> simp [State.settle, h]
@[simp] theorem State.settle_samp : (s.settle d).dev.samp = d.samp := by
  rcases Dev.globalInterrupt_cases d s.stile with h | h <;> simp [State.settle, h]
@[simp] theorem State.settle_rng : (s.settle d).dev.rng = d.rng := by
  rcases Dev.globalInterrupt_cases d s.stile with h | h <;> simp [State.settle, h]
@[simp] theorem State.settle_tal : (s.settle d).dev.tal = d.tal := by
  rcases Dev.globalInterrupt_cases d s.stile with h | h <;> simp [State.settle, h]
@[simp] theorem State.settle_mgt : (s.settle d).dev.mgt = d.mgt := by
  rcases Dev.globalInterrupt_cases d s.stile with h | h <;> simp [State.settle, h]
@[simp] theorem State.settle_tally : (s.settle d).dev.tally = d.tally := by
  rcases Dev.globalInterrupt_cases d s.stile with h | h <;> simp [State.settle, h]
@[simp] theorem State.settle_events : (s.settle d).dev.events = d.events := by
  rcases Dev.globalInterrupt_cases d s.stile with h | h <;> simp [State.settle, h]
@[simp] theorem State.settle_fresh : (s.settle d).dev.fresh = d.fresh := by
  rcases Dev.globalInterrupt_cases d s.stile with h | h <;> simp [State.settle, h]
@[simp] theorem State.settle_bulk : (s.settle d).dev.bulk = [] := rfl
@[simp] theorem State.settle_pending : (s.settle d).pending = s.pending := rfl
@[simp] theorem State.settle_stile : (s.settle d).stile = s.stile := rfl
@[simp] theorem State.settle_nv : (s.settle d).nv = s.nv := rfl

/-- DRAM changes only as the command asked. -/
@[simp] theorem State.settle_dram : (s.settle d).dram = s.dram.flush d.bulk := by
  rcases Dev.globalInterrupt_cases d s.stile with h | h <;> simp [State.settle, h]

/-- Every register but the global interrupt's is as the command left it. -/
theorem State.settle_rd {q : Reg} (h : Reg.gblIntCtrl.offset ≠ q.offset) : (s.settle d).dev.rd q = d.rd q := by
  rcases Dev.globalInterrupt_cases d s.stile with e | e
  · simp [State.settle, e, Dev.rd]
  · have := Dev.rd_setFld_other d (f := F.gblIntCtrl_ARMED) (b2n false) h
    simpa [State.settle, e, Dev.rd, Dev.setFlag, Dev.emit] using this

theorem State.settle_fld {q : Reg} (g : Fld) (h : Reg.gblIntCtrl.offset ≠ q.offset) :
    (s.settle d).dev.fld q g = d.fld q g := by
  have := s.settle_rd d h
  simp only [Dev.rd] at this
  simp [Dev.fld, RegFile.fld, this]

theorem State.settle_flag {q : Reg} (g : Fld) (h : Reg.gblIntCtrl.offset ≠ q.offset) :
    (s.settle d).dev.flag q g = d.flag q g := by
  have := s.settle_fld d g h
  simp only [Dev.fld] at this
  simp [Dev.flag, RegFile.flag, this]

@[simp] theorem State.finish_pending : (s.finish d).pending = s.pending := rfl
@[simp] theorem State.finish_stile : (s.finish d).stile = s.stile := rfl
@[simp] theorem State.finish_nv : (s.finish d).nv = s.nv := rfl
@[simp] theorem State.finish_bulk : (s.finish d).dev.bulk = [] := rfl

variable (f : Dev → Dev)

theorem State.event_up (h : s.up = true) : s.event f = s.settle (f s.dev) := by simp [State.event, h]
theorem State.event_down (h : s.up = false) : s.event f = s := by simp [State.event, h]
theorem State.work_up (h : s.up = true) : s.work f = s.finish (f s.dev) := by simp [State.work, h]
theorem State.work_down (h : s.up = false) : s.work f = s := by simp [State.work, h]
theorem State.pin_up (h : s.up = true) : s.pin f = s.settle (f s.dev) := by simp [State.pin, h]

@[simp] theorem State.event_pending : (s.event f).pending = s.pending := by unfold State.event; split <;> rfl
@[simp] theorem State.event_stile : (s.event f).stile = s.stile := by unfold State.event; split <;> rfl
@[simp] theorem State.event_nv : (s.event f).nv = s.nv := by unfold State.event; split <;> rfl
@[simp] theorem State.work_pending : (s.work f).pending = s.pending := by unfold State.work; split <;> rfl
@[simp] theorem State.work_stile : (s.work f).stile = s.stile := by unfold State.work; split <;> rfl
@[simp] theorem State.work_nv : (s.work f).nv = s.nv := by unfold State.work; split <;> rfl
@[simp] theorem State.pin_pending : (s.pin f).pending = s.pending := by unfold State.pin; split <;> rfl
@[simp] theorem State.pin_stile : (s.pin f).stile = s.stile := by unfold State.pin; split <;> rfl
@[simp] theorem State.pin_nv : (s.pin f).nv = s.nv := by unfold State.pin; split <;> rfl

variable (g : Dev → Dev × Stile) (k : Dev → Dev × Nv)

@[simp] theorem State.both_pending : (s.both g).pending = s.pending := by unfold State.both; dsimp only; split <;> rfl
@[simp] theorem State.both_nv : (s.both g).nv = s.nv := by unfold State.both; dsimp only; split <;> rfl
@[simp] theorem State.bothWork_pending : (s.bothWork g).pending = s.pending := by
  unfold State.bothWork; dsimp only; split <;> rfl
@[simp] theorem State.bothWork_nv : (s.bothWork g).nv = s.nv := by unfold State.bothWork; dsimp only; split <;> rfl
@[simp] theorem State.bothPowered_pending : (s.bothPowered g).pending = s.pending := by
  unfold State.bothPowered; dsimp only; split <;> rfl
@[simp] theorem State.bothPowered_nv : (s.bothPowered g).nv = s.nv := by unfold State.bothPowered; dsimp only; split <;> rfl
@[simp] theorem State.flash_pending : (s.flash k).pending = s.pending := by unfold State.flash; split <;> rfl
@[simp] theorem State.flash_stile : (s.flash k).stile = s.stile := by unfold State.flash; split <;> rfl
@[simp] theorem State.tick_pending : s.tick.pending = s.pending := by unfold State.tick; split <;> rfl
@[simp] theorem State.tick_stile : s.tick.stile = s.stile := by unfold State.tick; split <;> rfl
@[simp] theorem State.tick_nv : s.tick.nv = s.nv := by unfold State.tick; split <;> rfl

end Sys2Proof.Machine
end

