-- ==== Sys2Proof/Laws/Exec.lean ====
section
/-! SUPPORT. What each command comes to once its operands are in range: one equation per command, which later proofs cite instead
of unfolding `exec`; for a command that acts on a running die, its next state there. -/

namespace Sys2Proof.Machine

open Sys2Proof

theorem ifWf_ok {i : Instr} (h : i.wf = true) (s : State) (r : Res) : ifWf i s r = r := by simp [ifWf, h]
theorem event_of {i : Instr} {s : State} {f : Dev → Dev} (hwf : i.wf = true) (hu : s.up = true) :
    ifWf i s (.next (s.event f)) = .next (s.settle (f s.dev)) := by rw [ifWf_ok hwf, State.event_up _ _ hu]
theorem work_of {i : Instr} {s : State} {f : Dev → Dev} (hwf : i.wf = true) (hu : s.up = true) :
    ifWf i s (.next (s.work f)) = .next (s.finish (f s.dev)) := by rw [ifWf_ok hwf, State.work_up _ _ hu]
theorem pin_of {i : Instr} {s : State} {f : Dev → Dev} (hwf : i.wf = true) (hu : s.up = true) :
    ifWf i s (.next (s.pin f)) = .next (s.settle (f s.dev)) := by rw [ifWf_ok hwf, State.pin_up _ _ hu]
theorem ifWf_not {i : Instr} (h : i.wf = false) (s : State) (r : Res) : ifWf i s r = .next s := by simp [ifWf, h]

theorem exec_memRd {h ldid hpa tag : Nat} {m : MetaValue} {uio : Bool} {e : SramErr} {s : State} (hwf : Instr.wf (.memRd h ldid hpa tag m uio e) = true)
    (hu : s.up = true) : exec (.memRd h ldid hpa tag m uio e) s =
      .next (s.finish (s.dev.memRead h ldid hpa tag (if uio then (.ncRead, 2) else m.rd) false e)) :=
  work_of (f := fun d => d.memRead h ldid hpa tag (if uio then (.ncRead, 2) else m.rd) false e) hwf hu
theorem exec_memRdData {h ldid hpa tag : Nat} {e : SramErr} {s : State} (hwf : Instr.wf (.memRdData h ldid hpa tag e) = true)
    (hu : s.up = true) : exec (.memRdData h ldid hpa tag e) s =
      .next (s.finish (s.dev.memRead h ldid hpa tag (.rdS, 0) false e)) :=
  work_of (f := fun d => d.memRead h ldid hpa tag (.rdS, 0) false e) hwf hu
theorem exec_memInv {h ldid hpa tag : Nat} {m : MetaValue} {e : SramErr} {s : State} (hwf : Instr.wf (.memInv h ldid hpa tag m e) = true)
    (hu : s.up = true) : exec (.memInv h ldid hpa tag m e) s =
      .next (s.finish (s.dev.memRead h ldid hpa tag m.inv true e)) :=
  work_of (f := fun d => d.memRead h ldid hpa tag m.inv true e) hwf hu
theorem exec_memInvNt {h ldid hpa tag : Nat} {m : MetaValue} {e : SramErr} {s : State} (hwf : Instr.wf (.memInvNt h ldid hpa tag m e) = true)
    (hu : s.up = true) : exec (.memInvNt h ldid hpa tag m e) s =
      .next (s.finish (s.dev.memRead h ldid hpa tag m.inv true e)) :=
  work_of (f := fun d => d.memRead h ldid hpa tag m.inv true e) hwf hu
theorem exec_memSpecRd {h ldid hpa : Nat} {s : State} (hwf : Instr.wf (.memSpecRd h ldid hpa) = true)
    (hu : s.up = true) : exec (.memSpecRd h ldid hpa) s =
      .next (s.settle (s.dev.specRead h ldid hpa)) :=
  event_of (f := fun d => d.specRead h ldid hpa) hwf hu
theorem exec_memClnEvct {h ldid hpa tag : Nat} {e : SramErr} {s : State} (hwf : Instr.wf (.memClnEvct h ldid hpa tag e) = true)
    (hu : s.up = true) : exec (.memClnEvct h ldid hpa tag e) s =
      .next (s.finish (s.dev.memClnEvct h ldid hpa tag e)) :=
  work_of (f := fun d => d.memClnEvct h ldid hpa tag e) hwf hu
theorem exec_memWr {h ldid hpa tag : Nat} {m : MetaValue} {data : Line} {poison uio : Bool} {e : SramErr} {s : State} (hwf : Instr.wf (.memWr h ldid hpa tag m data poison uio e) = true)
    (hu : s.up = true) : exec (.memWr h ldid hpa tag m data poison uio e) s =
      .next (s.finish (s.dev.memWrite h ldid hpa tag m data (BitVec.allOnes 64) poison uio 7 e)) :=
  work_of (f := fun d => d.memWrite h ldid hpa tag m data (BitVec.allOnes 64) poison uio 7 e) hwf hu
theorem exec_memWrPtl {h ldid hpa tag : Nat} {m : MetaValue} {data : Line} {mask : BitVec 64} {poison uio : Bool} {e : SramErr} {s : State} (hwf : Instr.wf (.memWrPtl h ldid hpa tag m data mask poison uio e) = true)
    (hu : s.up = true) : exec (.memWrPtl h ldid hpa tag m data mask poison uio e) s =
      .next (s.finish (s.dev.memWrite h ldid hpa tag m data mask poison uio 8 e)) :=
  work_of (f := fun d => d.memWrite h ldid hpa tag m data mask poison uio 8 e) hwf hu
theorem exec_birsp {ld line : Nat} {a : BiAnswer} {s : State} (hwf : Instr.wf (.birsp ld line a) = true)
    (hu : s.up = true) : exec (.birsp ld line a) s =
      .next (s.finish (s.dev.birsp ld line a)) :=
  work_of (f := fun d => d.birsp ld line a) hwf hu
theorem exec_biconflict {ld line : Nat} {s : State} (hwf : Instr.wf (.biconflict ld line) = true)
    (hu : s.up = true) : exec (.biconflict ld line) s =
      .next (s.finish (s.dev.biconflict ld line)) :=
  work_of (f := fun d => d.biconflict ld line) hwf hu
theorem exec_directoryEvictionComplete {line : Nat} {s : State} (hwf : Instr.wf (.directoryEvictionComplete line) = true)
    (hu : s.up = true) : exec (.directoryEvictionComplete line) s =
      .next (s.finish (s.dev.evictionComplete line)) :=
  work_of (f := fun d => d.evictionComplete line) hwf hu
theorem exec_lineLockRelease {line : Nat} {s : State} (hwf : Instr.wf (.lineLockRelease line) = true)
    (hu : s.up = true) : exec (.lineLockRelease line) s =
      .next (s.finish (s.dev.lineRelease line)) :=
  work_of (f := fun d => d.lineRelease line) hwf hu
theorem exec_bisnpTimeout {ld line : Nat} {s : State} (hwf : Instr.wf (.bisnpTimeout ld line) = true)
    (hu : s.up = true) : exec (.bisnpTimeout ld line) s =
      .next (s.finish (s.dev.bisnpTimeout ld line)) :=
  work_of (f := fun d => d.bisnpTimeout ld line) hwf hu
theorem exec_unresponsiveSweepComplete {ld : Nat} {s : State} (hwf : Instr.wf (.unresponsiveSweepComplete ld) = true)
    (hu : s.up = true) : exec (.unresponsiveSweepComplete ld) s =
      .next (s.finish (s.dev.sweepDone ld)) :=
  work_of (f := fun d => d.sweepDone ld) hwf hu
theorem exec_homeGrantWrite {n v : Nat} {s : State} (hwf : Instr.wf (.homeGrantWrite n v) = true)
    (hu : s.up = true) : exec (.homeGrantWrite n v) s =
      .next (s.finish (s.dev.viaReg (.homeGrant n) (·.grantWrite n v))) :=
  work_of (f := fun d => d.viaReg (.homeGrant n) (·.grantWrite n v)) hwf hu
theorem exec_grantRevocationComplete {n : Nat} {s : State} (hwf : Instr.wf (.grantRevocationComplete n) = true)
    (hu : s.up = true) : exec (.grantRevocationComplete n) s =
      .next (s.finish (s.dev.grantDone n)) :=
  work_of (f := fun d => d.grantDone n) hwf hu
theorem exec_defhintWrite {v : Nat} {s : State} (hwf : Instr.wf (.defhintWrite v) = true)
    (hu : s.up = true) : exec (.defhintWrite v) s =
      .next (s.finish (s.dev.viaReg .homeCtrl (·.defhintWrite v))) :=
  work_of (f := fun d => d.viaReg .homeCtrl (·.defhintWrite v)) hwf hu
theorem exec_tedderSample {t : Nat} {par : List Nat} {s : State} (hwf : Instr.wf (.tedderSample t par) = true)
    (hu : s.up = true) : exec (.tedderSample t par) s =
      .next (s.settle (s.dev.tedSample t par)) :=
  event_of (f := fun d => d.tedSample t par) hwf hu
theorem exec_headLinkUp {h : Nat} {nego : Bool} {proto rate width : Nat} {flit256 : Bool} {credits : Nat} {s : State} (hwf : Instr.wf (.headLinkUp h nego proto rate width flit256 credits) = true)
    (hu : s.up = true) : exec (.headLinkUp h nego proto rate width flit256 credits) s =
      .next (s.settle (s.dev.headLinkUp h nego proto rate width flit256 credits)) :=
  event_of (f := fun d => d.headLinkUp h nego proto rate width flit256 credits) hwf hu
theorem exec_perstNAssert {h : Nat} {s : State} (hwf : Instr.wf (.perstNAssert h) = true)
    (hu : s.up = true) : exec (.perstNAssert h) s =
      .next (s.settle (s.dev.perstAssert h)) :=
  pin_of (f := fun d => d.perstAssert h) hwf hu
theorem exec_perstNRelease {h : Nat} {s : State} (hwf : Instr.wf (.perstNRelease h) = true)
    (hu : s.up = true) : exec (.perstNRelease h) s =
      .next (s.settle (s.dev.perstRelease h)) :=
  pin_of (f := fun d => d.perstRelease h) hwf hu
theorem exec_hotReset {h : Nat} {s : State} (hwf : Instr.wf (.hotReset h) = true)
    (hu : s.up = true) : exec (.hotReset h) s =
      .next (s.settle (s.dev.hotReset h)) :=
  event_of (f := fun d => d.hotReset h) hwf hu
theorem exec_linkDown {h : Nat} {s : State} (hwf : Instr.wf (.linkDown h) = true)
    (hu : s.up = true) : exec (.linkDown h) s =
      .next (s.settle (s.dev.hostLinkDown h)) :=
  event_of (f := fun d => d.hostLinkDown h) hwf hu
theorem exec_flr {n : Nat} {s : State} (hwf : Instr.wf (.flr n) = true)
    (hu : s.up = true) : exec (.flr n) s =
      .next (s.settle (s.dev.flr n)) :=
  event_of (f := fun d => d.flr n) hwf hu
theorem exec_cxlReset {n : Nat} {s : State} (hwf : Instr.wf (.cxlReset n) = true)
    (hu : s.up = true) : exec (.cxlReset n) s =
      .next (s.settle (s.dev.cxlReset n)) :=
  event_of (f := fun d => d.cxlReset n) hwf hu
theorem exec_headResetDelivery {h : Nat} {s : State} (hwf : Instr.wf (.headResetDelivery h) = true)
    (hu : s.up = true) : exec (.headResetDelivery h) s =
      .next (s.finish (s.dev.headDelivery h)) :=
  work_of (f := fun d => d.headDelivery h) hwf hu
theorem exec_flrComplete {n : Nat} {s : State} (hwf : Instr.wf (.flrComplete n) = true)
    (hu : s.up = true) : exec (.flrComplete n) s =
      .next (s.settle (s.dev.flrComplete n)) :=
  event_of (f := fun d => d.flrComplete n) hwf hu
theorem exec_ideCheckFailure {h : Nat} {st : IdeStream} {s : State} (hwf : Instr.wf (.ideCheckFailure h st) = true)
    (hu : s.up = true) : exec (.ideCheckFailure h st) s =
      .next (s.finish (s.dev.ideFail h st)) :=
  work_of (f := fun d => d.ideFail h st) hwf hu
theorem exec_ideKm {h : Nat} {st : IdeStream} {key : Nat} {containment : Bool} {s : State} (hwf : Instr.wf (.ideKm h st key containment) = true)
    (hu : s.up = true) : exec (.ideKm h st key containment) s =
      .next (s.settle (s.dev.ideKm h st key containment)) :=
  event_of (f := fun d => d.ideKm h st key containment) hwf hu
theorem exec_ldbindEnable {n : Nat} {s : State} (hwf : Instr.wf (.ldbindEnable n) = true)
    (hu : s.up = true) : exec (.ldbindEnable n) s =
      .next (s.settle (s.dev.viaReg (.gblLdbind n) (·.bindEnable n))) :=
  event_of (f := fun d => d.viaReg (.gblLdbind n) (·.bindEnable n)) hwf hu
theorem exec_ldbindDisable {n : Nat} {s : State} (hwf : Instr.wf (.ldbindDisable n) = true)
    (hu : s.up = true) : exec (.ldbindDisable n) s =
      .next (s.settle (s.dev.viaReg (.gblLdbind n) (·.bindDisable n))) :=
  event_of (f := fun d => d.viaReg (.gblLdbind n) (·.bindDisable n)) hwf hu
theorem exec_mediaReady {n : Nat} {s : State} (hwf : Instr.wf (.mediaReady n) = true)
    (hu : s.up = true) : exec (.mediaReady n) s =
      .next (s.settle (s.dev.mediaReady n)) :=
  event_of (f := fun d => d.mediaReady n) hwf hu
theorem exec_doeDiscovery {fn index : Nat} {s : State} (hwf : Instr.wf (.doeDiscovery fn index) = true)
    (hu : s.up = true) : exec (.doeDiscovery fn index) s =
      .next (s.settle (s.dev.doeDiscovery fn index)) :=
  event_of (f := fun d => d.doeDiscovery fn index) hwf hu
theorem exec_spdm {fn block : Nat} {s : State} (hwf : Instr.wf (.spdm fn block) = true)
    (hu : s.up = true) : exec (.spdm fn block) s =
      .next (s.settle (s.dev.spdm s.nv fn block)) :=
  event_of (f := fun d => d.spdm s.nv fn block) hwf hu
theorem exec_cdatTableAccess {fn handle : Nat} {s : State} (hwf : Instr.wf (.cdatTableAccess fn handle) = true)
    (hu : s.up = true) : exec (.cdatTableAccess fn handle) s =
      .next (s.settle (s.dev.cdatAccess fn handle)) :=
  event_of (f := fun d => d.cdatAccess fn handle) hwf hu
theorem exec_deckRequest {fn handle : Nat} {s : State} (hwf : Instr.wf (.deckRequest fn handle) = true)
    (hu : s.up = true) : exec (.deckRequest fn handle) s =
      .next (s.settle (s.dev.deckRequest fn handle)) :=
  event_of (f := fun d => d.deckRequest fn handle) hwf hu
theorem exec_readCompletion {h tag : Nat} {idOk : Bool} {count lower : Nat} {st : CplStatus} {data : List Nat} {s : State} (hwf : Instr.wf (.readCompletion h tag idOk count lower st data) = true)
    (hu : s.up = true) : exec (.readCompletion h tag idOk count lower st data) s =
      .next (s.finish (s.dev.readCompletion h tag idOk count lower st data)) :=
  work_of (f := fun d => d.readCompletion h tag idOk count lower st data) hwf hu
theorem exec_completionTimeout {h tag : Nat} {s : State} (hwf : Instr.wf (.completionTimeout h tag) = true)
    (hu : s.up = true) : exec (.completionTimeout h tag) s =
      .next (s.finish (s.dev.completionTimeout h tag)) :=
  work_of (f := fun d => d.completionTimeout h tag) hwf hu
theorem exec_tagQuarantineEnd {h tag : Nat} {s : State} (hwf : Instr.wf (.tagQuarantineEnd h tag) = true)
    (hu : s.up = true) : exec (.tagQuarantineEnd h tag) s =
      .next (s.finish (s.dev.quarantineEnd h tag)) :=
  work_of (f := fun d => d.quarantineEnd h tag) hwf hu
theorem exec_hdmCommit {n i ig iw : Nat} {lock : Bool} {s : State} (hwf : Instr.wf (.hdmCommit n i ig iw lock) = true)
    (hu : s.up = true) : exec (.hdmCommit n i ig iw lock) s =
      .next (s.settle (s.dev.hdmCommit n i ig iw lock)) :=
  event_of (f := fun d => d.hdmCommit n i ig iw lock) hwf hu
theorem exec_hdmCommitTakesEffect {n i : Nat} {s : State} (hwf : Instr.wf (.hdmCommitTakesEffect n i) = true)
    (hu : s.up = true) : exec (.hdmCommitTakesEffect n i) s =
      .next (s.settle (s.dev.hdmTakes n i)) :=
  event_of (f := fun d => d.hdmTakes n i) hwf hu
theorem exec_hdmUncommit {n i : Nat} {s : State} (hwf : Instr.wf (.hdmUncommit n i) = true)
    (hu : s.up = true) : exec (.hdmUncommit n i) s =
      .next (s.settle (s.dev.hdmUncommit n i)) :=
  event_of (f := fun d => d.hdmUncommit n i) hwf hu
theorem exec_hdmUncommitTakesEffect {n i : Nat} {s : State} (hwf : Instr.wf (.hdmUncommitTakesEffect n i) = true)
    (hu : s.up = true) : exec (.hdmUncommitTakesEffect n i) s =
      .next (s.settle (s.dev.hdmUntakes n i)) :=
  event_of (f := fun d => d.hdmUntakes n i) hwf hu
theorem exec_addCapacity {n first fields label : Nat} {s : State} (hwf : Instr.wf (.addCapacity n first fields label) = true)
    (hu : s.up = true) : exec (.addCapacity n first fields label) s =
      .next (s.finish (s.dev.viaMgmt .addCapacity (·.addCapacity s.dram n first fields label))) :=
  work_of (f := fun d => d.viaMgmt .addCapacity (·.addCapacity s.dram n first fields label)) hwf hu
theorem exec_releaseDynamicCapacity {n first fields : Nat} {s : State} (hwf : Instr.wf (.releaseDynamicCapacity n first fields) = true)
    (hu : s.up = true) : exec (.releaseDynamicCapacity n first fields) s =
      .next (s.finish (s.dev.releaseCapacity n first fields)) :=
  work_of (f := fun d => d.releaseCapacity n first fields) hwf hu
theorem exec_forcedRemoval {n first fields : Nat} {s : State} (hwf : Instr.wf (.forcedRemoval n first fields) = true)
    (hu : s.up = true) : exec (.forcedRemoval n first fields) s =
      .next (s.finish (s.dev.viaMgmt .forcedRemoval (·.forcedRemoval n first fields))) :=
  work_of (f := fun d => d.viaMgmt .forcedRemoval (·.forcedRemoval n first fields)) hwf hu
theorem exec_dcRegionConfigure {n i base len k : Nat} {s : State} (hwf : Instr.wf (.dcRegionConfigure n i base len k) = true)
    (hu : s.up = true) : exec (.dcRegionConfigure n i base len k) s =
      .next (s.settle (s.dev.viaMgmt .configureRegion (·.regionSet n i base len k))) :=
  event_of (f := fun d => d.viaMgmt .configureRegion (·.regionSet n i base len k)) hwf hu
theorem exec_extentRemovalComplete {n : Nat} {s : State} (hwf : Instr.wf (.extentRemovalComplete n) = true)
    (hu : s.up = true) : exec (.extentRemovalComplete n) s =
      .next (s.finish (s.dev.removalDone s.dram n)) :=
  work_of (f := fun d => d.removalDone s.dram n) hwf hu
theorem exec_ldwinEnable {n : Nat} {s : State} (hwf : Instr.wf (.ldwinEnable n) = true)
    (hu : s.up = true) : exec (.ldwinEnable n) s =
      .next (s.finish (s.dev.viaReg (.gblLdwin n) (·.winEnable n))) :=
  work_of (f := fun d => d.viaReg (.gblLdwin n) (·.winEnable n)) hwf hu
theorem exec_windowBuildComplete {n : Nat} {s : State} (hwf : Instr.wf (.windowBuildComplete n) = true)
    (hu : s.up = true) : exec (.windowBuildComplete n) s =
      .next (s.finish (s.dev.windowBuilt s.dram n)) :=
  work_of (f := fun d => d.windowBuilt s.dram n) hwf hu
theorem exec_ldwinDisable {n : Nat} {s : State} (hwf : Instr.wf (.ldwinDisable n) = true)
    (hu : s.up = true) : exec (.ldwinDisable n) s =
      .next (s.finish (s.dev.viaReg (.gblLdwin n) (·.winDisable n))) :=
  work_of (f := fun d => d.viaReg (.gblLdwin n) (·.winDisable n)) hwf hu
theorem exec_windowTeardownComplete {n : Nat} {s : State} (hwf : Instr.wf (.windowTeardownComplete n) = true)
    (hu : s.up = true) : exec (.windowTeardownComplete n) s =
      .next (s.finish (s.dev.windowTorn s.dram n)) :=
  work_of (f := fun d => d.windowTorn s.dram n) hwf hu
theorem exec_setCommit {n : Nat} {s : State} (hwf : Instr.wf (.setCommit n) = true)
    (hu : s.up = true) : exec (.setCommit n) s =
      .next (s.settle (s.dev.viaReg (.casSetCtrl n) (·.setCommit n))) :=
  event_of (f := fun d => d.viaReg (.casSetCtrl n) (·.setCommit n)) hwf hu
theorem exec_setCommitted {n : Nat} {s : State} (hwf : Instr.wf (.setCommitted n) = true)
    (hu : s.up = true) : exec (.setCommitted n) s =
      .next (s.finish (s.dev.setTakes n)) :=
  work_of (f := fun d => d.setTakes n) hwf hu
theorem exec_counterRegionReady {n : Nat} {s : State} (hwf : Instr.wf (.counterRegionReady n) = true)
    (hu : s.up = true) : exec (.counterRegionReady n) s =
      .next (s.finish (s.dev.counterReady s.dram n)) :=
  work_of (f := fun d => d.counterReady s.dram n) hwf hu
theorem exec_setUncommit {n : Nat} {s : State} (hwf : Instr.wf (.setUncommit n) = true)
    (hu : s.up = true) : exec (.setUncommit n) s =
      .next (s.settle (s.dev.viaReg (.casSetCtrl n) (·.setUncommit n))) :=
  event_of (f := fun d => d.viaReg (.casSetCtrl n) (·.setUncommit n)) hwf hu
theorem exec_valueCrossingOffer {x : XId} {v : Nat} {s : State} (hwf : Instr.wf (.valueCrossingOffer x v) = true)
    (hu : s.up = true) : exec (.valueCrossingOffer x v) s =
      .next (s.settle (s.dev.offerValue x v)) :=
  event_of (f := fun d => d.offerValue x v) hwf hu
theorem exec_valueCrossingAck {x : XId} {s : State} (hwf : Instr.wf (.valueCrossingAck x) = true)
    (hu : s.up = true) : exec (.valueCrossingAck x) s =
      .next (s.settle (s.dev.ackValue x)) :=
  event_of (f := fun d => d.ackValue x) hwf hu
theorem exec_eventCrossingOffer {x : XId} {k : Nat} {s : State} (hwf : Instr.wf (.eventCrossingOffer x k) = true)
    (hu : s.up = true) : exec (.eventCrossingOffer x k) s =
      .next (s.settle (s.dev.offerEvent x k)) :=
  event_of (f := fun d => d.offerEvent x k) hwf hu
theorem exec_eventCrossingAck {x : XId} {s : State} (hwf : Instr.wf (.eventCrossingAck x) = true)
    (hu : s.up = true) : exec (.eventCrossingAck x) s =
      .next (s.settle (s.dev.ackEvent x)) :=
  event_of (f := fun d => d.ackEvent x) hwf hu
theorem exec_queueEntryOffer {x : XId} {v : Nat} {s : State} (hwf : Instr.wf (.queueEntryOffer x v) = true)
    (hu : s.up = true) : exec (.queueEntryOffer x v) s =
      .next (s.settle (s.dev.offerEntry x v)) :=
  event_of (f := fun d => d.offerEntry x v) hwf hu
theorem exec_queueSlotCredit {x : XId} {s : State} (hwf : Instr.wf (.queueSlotCredit x) = true)
    (hu : s.up = true) : exec (.queueSlotCredit x) s =
      .next (s.settle (s.dev.slotCredit x)) :=
  event_of (f := fun d => d.slotCredit x) hwf hu
theorem exec_crossingDelivery {x : XId} {s : State} (hwf : Instr.wf (.crossingDelivery x) = true) :
    exec (.crossingDelivery x) s =
      (.next (s.bothWork fun d => crossingDelivery s.nv x (d, s.stile)).keepFailed : Res) := ifWf_ok hwf s _
theorem exec_islandReset {k : Nat} {s : State} (hwf : Instr.wf (.islandReset k) = true)
    (hu : s.up = true) : exec (.islandReset k) s =
      .next (s.settle (s.dev.islandRow k)) :=
  event_of (f := fun d => d.islandRow k) hwf hu
theorem exec_lagBeyondPeriod {u : LagUnit} {s : State} (hwf : Instr.wf (.lagBeyondPeriod u) = true)
    (hu : s.up = true) : exec (.lagBeyondPeriod u) s =
      .next (s.settle (s.dev.lagBeyond u)) :=
  event_of (f := fun d => d.lagBeyond u) hwf hu
theorem exec_maxlagClr {u : LagUnit} {s : State} (hwf : Instr.wf (.maxlagClr u) = true)
    (hu : s.up = true) : exec (.maxlagClr u) s =
      .next (s.settle (s.dev.viaReg u.maxReg (·.maxlagClr u))) :=
  event_of (f := fun d => d.viaReg u.maxReg (·.maxlagClr u)) hwf hu
theorem exec_avsDecision {s : State}
    (hu : s.up = true) : exec .avsDecision s =
      .next (s.settle (s.dev.avsDecision)) :=
  congrArg _ (State.event_up _ (fun d => d.avsDecision) hu)
theorem exec_avsSettleEnd {s : State}
    (hu : s.up = true) : exec .avsSettleEnd s =
      .next (s.settle (s.dev.avsSettled)) :=
  congrArg _ (State.event_up _ (fun d => d.avsSettled) hu)
theorem exec_speedWindowEnd {q speed : Nat} {s : State} (hwf : Instr.wf (.speedWindowEnd q speed) = true)
    (hu : s.up = true) : exec (.speedWindowEnd q speed) s =
      .next (s.settle (s.dev.speedWindow q speed)) :=
  event_of (f := fun d => d.speedWindow q speed) hwf hu
theorem exec_avsbusFailure {q : Nat} {s : State} (hwf : Instr.wf (.avsbusFailure q) = true)
    (hu : s.up = true) : exec (.avsbusFailure q) s =
      .next (s.settle (s.dev.avsFail q)) :=
  event_of (f := fun d => d.avsFail q) hwf hu
theorem exec_avsSetpointWrite {q code : Nat} {s : State} (hwf : Instr.wf (.avsSetpointWrite q code) = true)
    (hu : s.up = true) : exec (.avsSetpointWrite q code) s =
      .next (s.settle (s.dev.viaReg (.gblAvsQ q) (·.avsWrite q code))) :=
  event_of (f := fun d => d.viaReg (.gblAvsQ q) (·.avsWrite q code)) hwf hu
theorem exec_busErrClear {q : Nat} {s : State} (hwf : Instr.wf (.busErrClear q) = true)
    (hu : s.up = true) : exec (.busErrClear q) s =
      .next (s.settle (s.dev.viaReg (.gblAvsQ q) (·.busErrClear q))) :=
  event_of (f := fun d => d.viaReg (.gblAvsQ q) (·.busErrClear q)) hwf hu
theorem exec_promotionStart {page : Nat} {bad : List Nat} {s : State} (hwf : Instr.wf (.promotionStart page bad) = true)
    (hu : s.up = true) : exec (.promotionStart page bad) s =
      .next (s.finish (s.dev.promoStart s.dram page bad)) :=
  work_of (f := fun d => d.promoStart s.dram page bad) hwf hu
theorem exec_promotionCommit {page : Nat} {s : State} (hwf : Instr.wf (.promotionCommit page) = true)
    (hu : s.up = true) : exec (.promotionCommit page) s =
      .next (s.finish (s.dev.promoCommit page)) :=
  work_of (f := fun d => d.promoCommit page) hwf hu
theorem exec_sheafRelease {page : Nat} {s : State} (hwf : Instr.wf (.sheafRelease page) = true)
    (hu : s.up = true) : exec (.sheafRelease page) s =
      .next (s.finish (s.dev.sheafRelease page)) :=
  work_of (f := fun d => d.sheafRelease page) hwf hu
theorem exec_promotionHoldExpiry {page : Nat} {s : State} (hwf : Instr.wf (.promotionHoldExpiry page) = true)
    (hu : s.up = true) : exec (.promotionHoldExpiry page) s =
      .next (s.finish (s.dev.holdExpiry page)) :=
  work_of (f := fun d => d.holdExpiry page) hwf hu
theorem exec_tedderEpoch {t : Nat} {lost par : List Nat} {s : State} (hwf : Instr.wf (.tedderEpoch t lost par) = true)
    (hu : s.up = true) : exec (.tedderEpoch t lost par) s =
      .next (s.finish (s.dev.tedEpoch t lost par)) :=
  work_of (f := fun d => d.tedEpoch t lost par) hwf hu
theorem exec_demotionStart {page : Nat} {bad : List Nat} {s : State} (hwf : Instr.wf (.demotionStart page bad) = true)
    (hu : s.up = true) : exec (.demotionStart page bad) s =
      .next (s.finish (s.dev.demoteStart s.dram page bad)) :=
  work_of (f := fun d => d.demoteStart s.dram page bad) hwf hu
theorem exec_relocation {w : RelocWhat} {bad : List Nat} {s : State} (hwf : Instr.wf (.relocation w bad) = true)
    (hu : s.up = true) : exec (.relocation w bad) s =
      .next (s.finish (s.dev.relocate s.dram w bad)) :=
  work_of (f := fun d => d.relocate s.dram w bad) hwf hu
theorem exec_fallowMove {page : Nat} {bad : List Nat} {s : State} (hwf : Instr.wf (.fallowMove page bad) = true)
    (hu : s.up = true) : exec (.fallowMove page bad) s =
      .next (s.finish (s.dev.fallowMove s.dram page bad)) :=
  work_of (f := fun d => d.fallowMove s.dram page bad) hwf hu
theorem exec_tedderMoveCommit {page : Nat} {s : State} (hwf : Instr.wf (.tedderMoveCommit page) = true)
    (hu : s.up = true) : exec (.tedderMoveCommit page) s =
      .next (s.finish (s.dev.moveCommit s.dram page)) :=
  work_of (f := fun d => d.moveCommit s.dram page) hwf hu
theorem exec_poolEnable {k : Nat} {s : State} (hwf : Instr.wf (.poolEnable k) = true)
    (hu : s.up = true) : exec (.poolEnable k) s =
      .next (s.settle (s.dev.viaReg (.tedPool k) (·.poolEnable k))) :=
  event_of (f := fun d => d.viaReg (.tedPool k) (·.poolEnable k)) hwf hu
theorem exec_poolDrain {k : Nat} {s : State} (hwf : Instr.wf (.poolDrain k) = true)
    (hu : s.up = true) : exec (.poolDrain k) s =
      .next (s.settle (s.dev.viaReg (.tedPool k) (·.poolDrain k))) :=
  event_of (f := fun d => d.viaReg (.tedPool k) (·.poolDrain k)) hwf hu
theorem exec_poolDrained {k : Nat} {s : State} (hwf : Instr.wf (.poolDrained k) = true)
    (hu : s.up = true) : exec (.poolDrained k) s =
      .next (s.settle (s.dev.drainCheck k)) :=
  event_of (f := fun d => d.drainCheck k) hwf hu
theorem exec_poolDisable {k : Nat} {s : State} (hwf : Instr.wf (.poolDisable k) = true)
    (hu : s.up = true) : exec (.poolDisable k) s =
      .next (s.settle (s.dev.viaReg (.tedPool k) (·.poolDisable k))) :=
  event_of (f := fun d => d.viaReg (.tedPool k) (·.poolDisable k)) hwf hu
theorem exec_watermarkWrite {v : Nat} {s : State} (hwf : Instr.wf (.watermarkWrite v) = true)
    (hu : s.up = true) : exec (.watermarkWrite v) s =
      .next (s.settle (s.dev.viaReg .tedWm (·.wmWrite v))) :=
  event_of (f := fun d => d.viaReg .tedWm (·.wmWrite v)) hwf hu
theorem exec_releaseRequestInterval {s : State}
    (hu : s.up = true) : exec .releaseRequestInterval s =
      .next (s.settle (s.dev.releaseAgain)) :=
  congrArg _ (State.event_up _ (fun d => d.releaseAgain) hu)
theorem exec_balerJobWaitDispatch {s : State}
    (hu : s.up = true) : exec .balerJobWaitDispatch s =
      .next (s.finish (s.dev.jobDispatch)) :=
  congrArg _ (State.work_up _ (fun d => d.jobDispatch) hu)
theorem exec_balerJobStart {b : Nat} {s : State} (hwf : Instr.wf (.balerJobStart b) = true)
    (hu : s.up = true) : exec (.balerJobStart b) s =
      .next (s.finish (s.dev.jobStart b)) :=
  work_of (f := fun d => d.jobStart b) hwf hu
theorem exec_balerJobComplete {b : Nat} {s : State} (hwf : Instr.wf (.balerJobComplete b) = true)
    (hu : s.up = true) : exec (.balerJobComplete b) s =
      .next (s.finish (s.dev.jobComplete b)) :=
  work_of (f := fun d => d.jobComplete b) hwf hu
theorem exec_balerFault {b n : Nat} {s : State} (hwf : Instr.wf (.balerFault b n) = true)
    (hu : s.up = true) : exec (.balerFault b n) s =
      .next (s.finish (s.dev.balerFault b n)) :=
  work_of (f := fun d => d.balerFault b n) hwf hu
theorem exec_balerReset {b : Nat} {s : State} (hwf : Instr.wf (.balerReset b) = true)
    (hu : s.up = true) : exec (.balerReset b) s =
      .next (s.finish (s.dev.viaReg .balFault (·.balerReset b))) :=
  work_of (f := fun d => d.viaReg .balFault (·.balerReset b)) hwf hu
theorem exec_balEnWrite {v : Nat} {s : State} (hwf : Instr.wf (.balEnWrite v) = true)
    (hu : s.up = true) : exec (.balEnWrite v) s =
      .next (s.finish (s.dev.viaReg .balEn (·.balEnWrite v))) :=
  work_of (f := fun d => d.viaReg .balEn (·.balEnWrite v)) hwf hu
theorem exec_counterLineMerge {s : State}
    (hu : s.up = true) : exec .counterLineMerge s =
      .next (s.finish (s.dev.counterMerge s.dram)) :=
  congrArg _ (State.work_up _ (fun d => d.counterMerge s.dram) hu)
theorem exec_reencryptionEntryFree {q : Nat} {s : State} (hwf : Instr.wf (.reencryptionEntryFree q) = true)
    (hu : s.up = true) : exec (.reencryptionEntryFree q) s =
      .next (s.finish (s.dev.reencResume q)) :=
  work_of (f := fun d => d.reencResume q) hwf hu
theorem exec_reencryptionComplete {frame : Nat} {s : State} (hwf : Instr.wf (.reencryptionComplete frame) = true)
    (hu : s.up = true) : exec (.reencryptionComplete frame) s =
      .next (s.finish (s.dev.reencComplete s.dram frame)) :=
  work_of (f := fun d => d.reencComplete s.dram frame) hwf hu
theorem exec_eraseSweepComplete {n : Nat} {s : State} (hwf : Instr.wf (.eraseSweepComplete n) = true)
    (hu : s.up = true) : exec (.eraseSweepComplete n) s =
      .next (s.finish (s.dev.eraseSweepDone s.dram n)) :=
  work_of (f := fun d => d.eraseSweepDone s.dram n) hwf hu
theorem exec_channelReadReturn {c : Nat} {s : State} (hwf : Instr.wf (.channelReadReturn c) = true)
    (hu : s.up = true) : exec (.channelReadReturn c) s =
      .next (s.finish (s.dev.takeRet c true)) :=
  work_of (f := fun d => d.takeRet c true) hwf hu
theorem exec_writeAcceptance {c : Nat} {s : State} (hwf : Instr.wf (.writeAcceptance c) = true)
    (hu : s.up = true) : exec (.writeAcceptance c) s =
      .next (s.finish (s.dev.takeRet c false)) :=
  work_of (f := fun d => d.takeRet c false) hwf hu
theorem exec_channelCommandEntry {c : Nat} {s : State} (hwf : Instr.wf (.channelCommandEntry c) = true)
    (hu : s.up = true) : exec (.channelCommandEntry c) s =
      .next (s.settle (s.dev.commandEntry c)) :=
  event_of (f := fun d => d.commandEntry c) hwf hu
theorem exec_commandIssue {c i : Nat} {held : List Nat} {s : State} (hwf : Instr.wf (.commandIssue c i held) = true)
    (hu : s.up = true) : exec (.commandIssue c i held) s =
      .next (s.settle (s.dev.commandIssue s.dram c i held)) :=
  event_of (f := fun d => d.commandIssue s.dram c i held) hwf hu
theorem exec_pageIdleTimeout {c i bank : Nat} {s : State} (hwf : Instr.wf (.pageIdleTimeout c i bank) = true)
    (hu : s.up = true) : exec (.pageIdleTimeout c i bank) s =
      .next (s.settle (s.dev.pageIdle c i bank)) :=
  event_of (f := fun d => d.pageIdle c i bank) hwf hu
theorem exec_refreshDue {c r : Nat} {s : State} (hwf : Instr.wf (.refreshDue c r) = true)
    (hu : s.up = true) : exec (.refreshDue c r) s =
      .next (s.settle (s.dev.refreshDue c r)) :=
  event_of (f := fun d => d.refreshDue c r) hwf hu
theorem exec_nrfReseed {c : Nat} {arrived : Bool} {s : State} (hwf : Instr.wf (.nrfReseed c arrived) = true)
    (hu : s.up = true) : exec (.nrfReseed c arrived) s =
      .next (s.settle (s.dev.nrfReseed c arrived)) :=
  event_of (f := fun d => d.nrfReseed c arrived) hwf hu
theorem exec_dimmThermalRead {c : Nat} {t0 t1 : Option Nat} {s : State} (hwf : Instr.wf (.dimmThermalRead c t0 t1) = true)
    (hu : s.up = true) : exec (.dimmThermalRead c t0 t1) s =
      .next (s.settle (if s.dev.mgt.restarting then s.dev else s.dev.thermalRead c t0 t1)) :=
  event_of (f := fun d => if d.mgt.restarting then d else d.thermalRead c t0 t1) hwf hu
theorem exec_sidebandError {bus hub : Nat} {s : State} (hwf : Instr.wf (.sidebandError bus hub) = true)
    (hu : s.up = true) : exec (.sidebandError bus hub) s =
      .next (s.settle (s.dev.sidebandError bus hub)) :=
  event_of (f := fun d => d.sidebandError bus hub) hwf hu
theorem exec_pmicFault {c slots : Nat} {s : State} (hwf : Instr.wf (.pmicFault c slots) = true)
    (hu : s.up = true) : exec (.pmicFault c slots) s =
      .next (s.settle (s.dev.pmicFault c slots)) :=
  event_of (f := fun d => d.pmicFault c slots) hwf hu
theorem exec_channelTrainingComplete {c eyeRd eyeWr : Nat} {geometry : Bool} {turn turnAlt : List Nat} {s : State} (hwf : Instr.wf (.channelTrainingComplete c eyeRd eyeWr geometry turn turnAlt) = true)
    (hu : s.up = true) : exec (.channelTrainingComplete c eyeRd eyeWr geometry turn turnAlt) s =
      .next (s.settle (s.dev.trainingComplete c eyeRd eyeWr geometry turn turnAlt)) :=
  event_of (f := fun d => d.trainingComplete c eyeRd eyeWr geometry turn turnAlt) hwf hu
theorem exec_trainingRecordWrite {c : Nat} {ok : Bool} {s : State} (hwf : Instr.wf (.trainingRecordWrite c ok) = true) :
    exec (.trainingRecordWrite c ok) s =
      (.next (s.flash fun d => d.trainingRecordWrite s.nv c ok) : Res) := ifWf_ok hwf s _
theorem exec_zqCalibration {c slot : Nat} {s : State} (hwf : Instr.wf (.zqCalibration c slot) = true)
    (hu : s.up = true) : exec (.zqCalibration c slot) s =
      .next (s.settle (s.dev.zqCalibration c slot)) :=
  event_of (f := fun d => d.zqCalibration c slot) hwf hu
theorem exec_dqsOscillatorRead {c r : Nat} {s : State} (hwf : Instr.wf (.dqsOscillatorRead c r) = true)
    (hu : s.up = true) : exec (.dqsOscillatorRead c r) s =
      .next (s.settle (s.dev.dqsRead c r)) :=
  event_of (f := fun d => d.dqsRead c r) hwf hu
theorem exec_codewordRead {c i : Nat} {err : BitVec 640} {s : State} (hwf : Instr.wf (.codewordRead c i err) = true)
    (hu : s.up = true) : exec (.codewordRead c i err) s =
      .next (s.settle (s.dev.codewordRead c i err (s.dev.codewordIgnored s.dram c i))) :=
  event_of (f := fun d => d.codewordRead c i err (d.codewordIgnored s.dram c i)) hwf hu
theorem exec_eccWindowEnd {c : Nat} {s : State} (hwf : Instr.wf (.eccWindowEnd c) = true)
    (hu : s.up = true) : exec (.eccWindowEnd c) s =
      .next (s.settle (s.dev.eccWindowEnd c)) :=
  event_of (f := fun d => d.eccWindowEnd c) hwf hu
theorem exec_scrubRead {c : Nat} {s : State} (hwf : Instr.wf (.scrubRead c) = true)
    (hu : s.up = true) : exec (.scrubRead c) s =
      .next (s.settle (s.dev.scrubRead c)) :=
  event_of (f := fun d => d.scrubRead c) hwf hu
theorem exec_spareStart {c : Nat} {s : State} (hwf : Instr.wf (.spareStart c) = true)
    (hu : s.up = true) : exec (.spareStart c) s =
      .next (s.settle (s.dev.viaReg (.chnSpare c) (·.spareStart c))) :=
  event_of (f := fun d => d.viaReg (.chnSpare c) (·.spareStart c)) hwf hu
theorem exec_spareCopyRead {c : Nat} {s : State} (hwf : Instr.wf (.spareCopyRead c) = true)
    (hu : s.up = true) : exec (.spareCopyRead c) s =
      .next (s.settle (s.dev.spareCopyRead c)) :=
  event_of (f := fun d => d.spareCopyRead c) hwf hu
theorem exec_spareCopyComplete {c : Nat} {s : State} (hwf : Instr.wf (.spareCopyComplete c) = true) :
    exec (.spareCopyComplete c) s =
      (.next (s.event fun d => d.spareCopyComplete c).keepFailed : Res) := ifWf_ok hwf s _
theorem exec_rankRetire {c : Nat} {s : State} (hwf : Instr.wf (.rankRetire c) = true)
    (hu : s.up = true) : exec (.rankRetire c) s =
      .next (s.settle (s.dev.viaReg (.chnSpare c) (·.rankRetire c))) :=
  event_of (f := fun d => d.viaReg (.chnSpare c) (·.rankRetire c)) hwf hu
theorem exec_frequencyChange {c : Nat} {s : State} (hwf : Instr.wf (.frequencyChange c) = true)
    (hu : s.up = true) : exec (.frequencyChange c) s =
      .next (s.settle (s.dev.viaReg (.chnFchg c) (·.fchgStart c))) :=
  event_of (f := fun d => d.viaReg (.chnFchg c) (·.fchgStart c)) hwf hu
theorem exec_frequencyChangeCheck {c : Nat} {failed : Option Nat} {s : State} (hwf : Instr.wf (.frequencyChangeCheck c failed) = true)
    (hu : s.up = true) : exec (.frequencyChangeCheck c failed) s =
      .next (s.settle (s.dev.fchgCheck c failed)) :=
  event_of (f := fun d => d.fchgCheck c failed) hwf hu
theorem exec_powerDownEntry {c r : Nat} {s : State} (hwf : Instr.wf (.powerDownEntry c r) = true)
    (hu : s.up = true) : exec (.powerDownEntry c r) s =
      .next (s.settle (s.dev.powerDown c r)) :=
  event_of (f := fun d => d.powerDown c r) hwf hu
theorem exec_doorbell {s_ r v : Nat} {s : State} (hwf : Instr.wf (.doorbell s_ r v) = true)
    (hu : s.up = true) : exec (.doorbell s_ r v) s =
      .next (s.finish (s.dev.viaReg (.rngCrTail s_ r) (·.doorbell s_ r v))) :=
  work_of (f := fun d => d.viaReg (.rngCrTail s_ r) (·.doorbell s_ r v)) hwf hu
theorem exec_descriptorFetch {s_ r : Nat} {s : State} (hwf : Instr.wf (.descriptorFetch s_ r) = true)
    (hu : s.up = true) : exec (.descriptorFetch s_ r) s =
      .next (s.finish (s.dev.descriptorFetch s_ r)) :=
  work_of (f := fun d => d.descriptorFetch s_ r) hwf hu
theorem exec_crEnable {s_ r : Nat} {s : State} (hwf : Instr.wf (.crEnable s_ r) = true)
    (hu : s.up = true) : exec (.crEnable s_ r) s =
      .next (s.finish (s.dev.viaReg (.rngCrCtrl s_ r) (·.crEnable s_ r))) :=
  work_of (f := fun d => d.viaReg (.rngCrCtrl s_ r) (·.crEnable s_ r)) hwf hu
theorem exec_crDisable {s_ r : Nat} {s : State} (hwf : Instr.wf (.crDisable s_ r) = true)
    (hu : s.up = true) : exec (.crDisable s_ r) s =
      .next (s.finish (s.dev.viaReg (.rngCrCtrl s_ r) (·.crDisable s_ r))) :=
  work_of (f := fun d => d.viaReg (.rngCrCtrl s_ r) (·.crDisable s_ r)) hwf hu
theorem exec_cqEnable {s_ q : Nat} {s : State} (hwf : Instr.wf (.cqEnable s_ q) = true)
    (hu : s.up = true) : exec (.cqEnable s_ q) s =
      .next (s.finish (s.dev.viaReg (.rngCqCtrl s_ q) (·.cqEnable s_ q))) :=
  work_of (f := fun d => d.viaReg (.rngCqCtrl s_ q) (·.cqEnable s_ q)) hwf hu
theorem exec_cqDisable {s_ q : Nat} {s : State} (hwf : Instr.wf (.cqDisable s_ q) = true)
    (hu : s.up = true) : exec (.cqDisable s_ q) s =
      .next (s.finish (s.dev.viaReg (.rngCqCtrl s_ q) (·.cqDisable s_ q))) :=
  work_of (f := fun d => d.viaReg (.rngCqCtrl s_ q) (·.cqDisable s_ q)) hwf hu
theorem exec_cqHeadWrite {s_ q v : Nat} {s : State} (hwf : Instr.wf (.cqHeadWrite s_ q v) = true)
    (hu : s.up = true) : exec (.cqHeadWrite s_ q v) s =
      .next (s.finish (s.dev.viaReg (.rngCqHead s_ q) (·.cqHeadWrite s_ q v))) :=
  work_of (f := fun d => d.viaReg (.rngCqHead s_ q) (·.cqHeadWrite s_ q v)) hwf hu
theorem exec_nop {s : State}
    (hu : s.up = true) : exec .nop s =
      .next (s.finish (((fun d => d.startCmd .nop fun c d => d.ringFinish c 0 0 0 0) s.dev))) :=
  congrArg _ (State.work_up _ (fun d => d.startCmd .nop fun c d => d.ringFinish c 0 0 0 0) hu)
theorem exec_setHint {s : State}
    (hu : s.up = true) : exec .setHint s =
      .next (s.finish (s.dev.startCmd .setHint Dev.setHint)) :=
  congrArg _ (State.work_up _ (fun d => d.startCmd .setHint Dev.setHint) hu)
theorem exec_tierPolicy {s : State}
    (hu : s.up = true) : exec .tierPolicy s =
      .next (s.finish (s.dev.startCmd .tierPolicy Dev.tierPolicy)) :=
  congrArg _ (State.work_up _ (fun d => d.startCmd .tierPolicy Dev.tierPolicy) hu)
theorem exec_compPolicy {s : State}
    (hu : s.up = true) : exec .compPolicy s =
      .next (s.finish (s.dev.startCmd .compPolicy Dev.compPolicy)) :=
  congrArg _ (State.work_up _ (fun d => d.startCmd .compPolicy Dev.compPolicy) hu)
theorem exec_promote {s : State}
    (hu : s.up = true) : exec .promote s =
      .next (s.finish (s.dev.startCmd .promote Dev.ringPromote)) :=
  congrArg _ (State.work_up _ (fun d => d.startCmd .promote Dev.ringPromote) hu)
theorem exec_demote {s : State}
    (hu : s.up = true) : exec .demote s =
      .next (s.finish (s.dev.startCmd .demote Dev.ringDemote)) :=
  congrArg _ (State.work_up _ (fun d => d.startCmd .demote Dev.ringDemote) hu)
theorem exec_fill {s : State}
    (hu : s.up = true) : exec .fill s =
      .next (s.finish (s.dev.startCmd .fill Dev.ringRun)) :=
  congrArg _ (State.work_up _ (fun d => d.startCmd .fill Dev.ringRun) hu)
theorem exec_zero {s : State}
    (hu : s.up = true) : exec .zero s =
      .next (s.finish (s.dev.startCmd .zero Dev.ringRun)) :=
  congrArg _ (State.work_up _ (fun d => d.startCmd .zero Dev.ringRun) hu)
theorem exec_copy {s : State}
    (hu : s.up = true) : exec .copy s =
      .next (s.finish (s.dev.startCmd .copy Dev.ringRun)) :=
  congrArg _ (State.work_up _ (fun d => d.startCmd .copy Dev.ringRun) hu)
theorem exec_sanitize {s : State}
    (hu : s.up = true) : exec .sanitize s =
      .next (s.finish (s.dev.startCmd .sanitize Dev.ringRun)) :=
  congrArg _ (State.work_up _ (fun d => d.startCmd .sanitize Dev.ringRun) hu)
theorem exec_capQuery {s : State}
    (hu : s.up = true) : exec .capQuery s =
      .next (s.finish (s.dev.startCmd .capQuery Dev.capQuery)) :=
  congrArg _ (State.work_up _ (fun d => d.startCmd .capQuery Dev.capQuery) hu)
theorem exec_releaseAck {s : State}
    (hu : s.up = true) : exec .releaseAck s =
      .next (s.finish (s.dev.startCmd .releaseAck Dev.ringRun)) :=
  congrArg _ (State.work_up _ (fun d => d.startCmd .releaseAck Dev.ringRun) hu)
theorem exec_snapshot {s : State}
    (hu : s.up = true) : exec .snapshot s =
      .next (s.finish (s.dev.startCmd .snapshot Dev.ringRun)) :=
  congrArg _ (State.work_up _ (fun d => d.startCmd .snapshot Dev.ringRun) hu)
theorem exec_sampleCfg {s : State}
    (hu : s.up = true) : exec .sampleCfg s =
      .next (s.finish (s.dev.startCmd .sampleCfg Dev.sampleCfg)) :=
  congrArg _ (State.work_up _ (fun d => d.startCmd .sampleCfg Dev.sampleCfg) hu)
theorem exec_commandComplete {s : State}
    (hu : s.up = true) : exec .commandComplete s =
      .next (s.finish (s.dev.commandComplete)) :=
  congrArg _ (State.work_up _ (fun d => d.commandComplete) hu)
theorem exec_interruptCoalescingTimeout {s_ q : Nat} {s : State} (hwf : Instr.wf (.interruptCoalescingTimeout s_ q) = true)
    (hu : s.up = true) : exec (.interruptCoalescingTimeout s_ q) s =
      .next (s.settle (s.dev.coalesceTimeout s_ q)) :=
  event_of (f := fun d => d.coalesceTimeout s_ q) hwf hu
theorem exec_leyEnable {p : Nat} {s : State} (hwf : Instr.wf (.leyEnable p) = true)
    (hu : s.up = true) : exec (.leyEnable p) s =
      .next (s.settle (((fun d => d.viaReg (.leyCtrl p) fun d => (d.setFlag (.leyCtrl p) F.leyCtrl_EN true).leyEnable p) s.dev))) :=
  event_of (f := fun d => d.viaReg (.leyCtrl p) fun d => (d.setFlag (.leyCtrl p) F.leyCtrl_EN true).leyEnable p) hwf hu
theorem exec_leyDisable {p : Nat} {s : State} (hwf : Instr.wf (.leyDisable p) = true)
    (hu : s.up = true) : exec (.leyDisable p) s =
      .next (s.settle (((fun d => d.viaReg (.leyCtrl p) fun d => (d.setFlag (.leyCtrl p) F.leyCtrl_EN false).leyDisable p) s.dev))) :=
  event_of (f := fun d => d.viaReg (.leyCtrl p) fun d => (d.setFlag (.leyCtrl p) F.leyCtrl_EN false).leyDisable p) hwf hu
theorem exec_leyPartnerDetect {p : Nat} {s : State} (hwf : Instr.wf (.leyPartnerDetect p) = true)
    (hu : s.up = true) : exec (.leyPartnerDetect p) s =
      .next (s.settle (s.dev.partnerDetect p)) :=
  event_of (f := fun d => d.partnerDetect p) hwf hu
theorem exec_leyTrainComplete {p rate lanes : Nat} {s : State} (hwf : Instr.wf (.leyTrainComplete p rate lanes) = true)
    (hu : s.up = true) : exec (.leyTrainComplete p rate lanes) s =
      .next (s.settle (s.dev.trainComplete p rate lanes)) :=
  event_of (f := fun d => d.trainComplete p rate lanes) hwf hu
theorem exec_leyFlitReceive {p : Nat} {flit : BitVec 2048} {s : State} (hwf : Instr.wf (.leyFlitReceive p flit) = true)
    (hu : s.up = true) : exec (.leyFlitReceive p flit) s =
      .next (s.settle (s.dev.flitReceive p flit)) :=
  event_of (f := fun d => d.flitReceive p flit) hwf hu
theorem exec_leyFlitTransmit {p : Nat} {s : State} (hwf : Instr.wf (.leyFlitTransmit p) = true)
    (hu : s.up = true) : exec (.leyFlitTransmit p) s =
      .next (s.settle (s.dev.flitTransmit p)) :=
  event_of (f := fun d => d.flitTransmit p) hwf hu
theorem exec_replayTimeout {p : Nat} {s : State} (hwf : Instr.wf (.replayTimeout p) = true)
    (hu : s.up = true) : exec (.replayTimeout p) s =
      .next (s.settle (s.dev.replayTimeout p)) :=
  event_of (f := fun d => d.replayTimeout p) hwf hu
theorem exec_settledWindow {p v : Nat} {s : State} (hwf : Instr.wf (.settledWindow p v) = true)
    (hu : s.up = true) : exec (.settledWindow p v) s =
      .next (s.settle (s.dev.settledWindow p v)) :=
  event_of (f := fun d => d.settledWindow p v) hwf hu
theorem exec_rtReq {p : Nat} {s : State} (hwf : Instr.wf (.rtReq p) = true)
    (hu : s.up = true) : exec (.rtReq p) s =
      .next (s.settle (s.dev.viaReg (.leyCtrl p) (·.leyRetrain p 4))) :=
  event_of (f := fun d => d.viaReg (.leyCtrl p) (·.leyRetrain p 4)) hwf hu
theorem exec_rsReq {p : Nat} {s : State} (hwf : Instr.wf (.rsReq p) = true)
    (hu : s.up = true) : exec (.rsReq p) s =
      .next (s.settle (((fun d => d.viaReg (.leyCtrl p) fun d => d.leyResize p (d.fld (.leyCtrl p) F.leyCtrl_RS_WIDTH)) s.dev))) :=
  event_of (f := fun d => d.viaReg (.leyCtrl p) fun d => d.leyResize p (d.fld (.leyCtrl p) F.leyCtrl_RS_WIDTH)) hwf hu
theorem exec_laneLockLoss {p : Nat} {s : State} (hwf : Instr.wf (.laneLockLoss p) = true)
    (hu : s.up = true) : exec (.laneLockLoss p) s =
      .next (s.settle (s.dev.leyRetrain p 6)) :=
  event_of (f := fun d => d.leyRetrain p 6) hwf hu
theorem exec_rtrq {p pass lower : Nat} {s : State} (hwf : Instr.wf (.rtrq p pass lower) = true)
    (hu : s.up = true) : exec (.rtrq p pass lower) s =
      .next (s.settle (s.dev.rtrq p pass lower)) :=
  event_of (f := fun d => d.rtrq p pass lower) hwf hu
theorem exec_rtack {p pass lower : Nat} {s : State} (hwf : Instr.wf (.rtack p pass lower) = true)
    (hu : s.up = true) : exec (.rtack p pass lower) s =
      .next (s.settle (s.dev.rtack p pass lower)) :=
  event_of (f := fun d => d.rtack p pass lower) hwf hu
theorem exec_rsrq {p : Nat} {s : State} (hwf : Instr.wf (.rsrq p) = true)
    (hu : s.up = true) : exec (.rsrq p) s =
      .next (s.settle (s.dev.rsrq p)) :=
  event_of (f := fun d => d.rsrq p) hwf hu
theorem exec_rsack {p : Nat} {s : State} (hwf : Instr.wf (.rsack p) = true)
    (hu : s.up = true) : exec (.rsack p) s =
      .next (s.settle (s.dev.rsack p)) :=
  event_of (f := fun d => d.rsack p) hwf hu
theorem exec_resizeComplete {p : Nat} {s : State} (hwf : Instr.wf (.resizeComplete p) = true)
    (hu : s.up = true) : exec (.resizeComplete p) s =
      .next (s.settle (s.dev.resizeComplete p)) :=
  event_of (f := fun d => d.resizeComplete p) hwf hu
theorem exec_resizeTimeout {p : Nat} {s : State} (hwf : Instr.wf (.resizeTimeout p) = true)
    (hu : s.up = true) : exec (.resizeTimeout p) s =
      .next (s.settle (s.dev.resizeTimeout p)) :=
  event_of (f := fun d => d.resizeTimeout p) hwf hu
theorem exec_ident {p : Nat} {s : State} (hwf : Instr.wf (.ident p) = true)
    (hu : s.up = true) : exec (.ident p) s =
      .next (s.settle (s.dev.identMsg p)) :=
  event_of (f := fun d => d.identMsg p) hwf hu
theorem exec_resync {p : Nat} {s : State} (hwf : Instr.wf (.resync p) = true)
    (hu : s.up = true) : exec (.resync p) s =
      .next (s.settle (s.dev.resyncMsg p)) :=
  event_of (f := fun d => d.resyncMsg p) hwf hu
theorem exec_down {p : Nat} {s : State} (hwf : Instr.wf (.down p) = true)
    (hu : s.up = true) : exec (.down p) s =
      .next (s.settle (s.dev.downMsg p)) :=
  event_of (f := fun d => d.downMsg p) hwf hu
theorem exec_retrainStepTimeout {p : Nat} {s : State} (hwf : Instr.wf (.retrainStepTimeout p) = true)
    (hu : s.up = true) : exec (.retrainStepTimeout p) s =
      .next (s.settle (s.dev.stepTimeout p)) :=
  event_of (f := fun d => d.stepTimeout p) hwf hu
theorem exec_leyDownExpiry {p : Nat} {s : State} (hwf : Instr.wf (.leyDownExpiry p) = true)
    (hu : s.up = true) : exec (.leyDownExpiry p) s =
      .next (s.settle (s.dev.downExpiry p)) :=
  event_of (f := fun d => d.downExpiry p) hwf hu
theorem exec_leyCredClr {p v : Nat} {s : State} (hwf : Instr.wf (.leyCredClr p v) = true)
    (hu : s.up = true) : exec (.leyCredClr p v) s =
      .next (s.settle (s.dev.viaReg (.leyCred p v) (·.credClr p v))) :=
  event_of (f := fun d => d.viaReg (.leyCred p v) (·.credClr p v)) hwf hu
theorem exec_fold {p : Nat} {s : State} (hwf : Instr.wf (.fold p) = true)
    (hu : s.up = true) : exec (.fold p) s =
      .next (s.finish (s.dev.fold p)) :=
  work_of (f := fun d => d.fold p) hwf hu
theorem exec_rd {p : Nat} {s : State} (hwf : Instr.wf (.rd p) = true)
    (hu : s.up = true) : exec (.rd p) s =
      .next (s.finish (s.dev.leyTake p 0 1)) :=
  work_of (f := fun d => d.leyTake p 0 1) hwf hu
theorem exec_wr {p : Nat} {s : State} (hwf : Instr.wf (.wr p) = true)
    (hu : s.up = true) : exec (.wr p) s =
      .next (s.finish (s.dev.leyTake p 1 8)) :=
  work_of (f := fun d => d.leyTake p 1 8) hwf hu
theorem exec_rdata {p : Nat} {s : State} (hwf : Instr.wf (.rdata p) = true)
    (hu : s.up = true) : exec (.rdata p) s =
      .next (s.finish (s.dev.rspTake p 0x10)) :=
  work_of (f := fun d => d.rspTake p 0x10) hwf hu
theorem exec_wacc {p : Nat} {s : State} (hwf : Instr.wf (.wacc p) = true)
    (hu : s.up = true) : exec (.wacc p) s =
      .next (s.finish (s.dev.rspTake p 0x11)) :=
  work_of (f := fun d => d.rspTake p 0x11) hwf hu
theorem exec_join {p : Nat} {s : State} (hwf : Instr.wf (.join p) = true)
    (hu : s.up = true) : exec (.join p) s =
      .next (s.finish (s.dev.mgtTurn p 0x20 (·.joinMsg p))) :=
  work_of (f := fun d => d.mgtTurn p 0x20 (·.joinMsg p)) hwf hu
theorem exec_memberJoinReady {s : State}
    (hu : s.up = true) : exec .memberJoinReady s =
      .next (s.settle (s.dev.joinReady)) :=
  congrArg _ (State.event_up _ (fun d => d.joinReady) hu)
theorem exec_joinrsp {p : Nat} {s : State} (hwf : Instr.wf (.joinrsp p) = true)
    (hu : s.up = true) : exec (.joinrsp p) s =
      .next (s.finish (s.dev.mgtTurn p 0x21 (·.joinRsp p))) :=
  work_of (f := fun d => d.mgtTurn p 0x21 (·.joinRsp p)) hwf hu
theorem exec_regrd {p : Nat} {s : State} (hwf : Instr.wf (.regrd p) = true)
    (hu : s.up = true) : exec (.regrd p) s =
      .next (s.settle (s.dev.mgtTurn p 0x22 (Dev.regRd s.stile · p))) :=
  event_of (f := fun d => d.mgtTurn p 0x22 (Dev.regRd s.stile · p)) hwf hu
theorem exec_regwr {p : Nat} {s : State} (hwf : Instr.wf (.regwr p) = true) :
    exec (.regwr p) s =
      (.next (s.bothWork fun d => d.regWrTurn s.nv s.stile p).keepFailed : Res) := ifWf_ok hwf s _
theorem exec_regrsp {p : Nat} {s : State} (hwf : Instr.wf (.regrsp p) = true)
    (hu : s.up = true) : exec (.regrsp p) s =
      .next (s.settle (s.dev.mgtTurn p 0x23 (·.regRsp p))) :=
  event_of (f := fun d => d.mgtTurn p 0x23 (·.regRsp p)) hwf hu
theorem exec_record {p : Nat} {s : State} (hwf : Instr.wf (.record p) = true)
    (hu : s.up = true) : exec (.record p) s =
      .next (s.settle (s.dev.mgtTurn p 0x25 (·.recordMsg p))) :=
  event_of (f := fun d => d.mgtTurn p 0x25 (·.recordMsg p)) hwf hu
theorem exec_foldnote {p : Nat} {s : State} (hwf : Instr.wf (.foldnote p) = true)
    (hu : s.up = true) : exec (.foldnote p) s =
      .next (s.finish (s.dev.mgtTurn p 0x26 (·.foldNote p))) :=
  work_of (f := fun d => d.mgtTurn p 0x26 (·.foldNote p)) hwf hu
theorem exec_reopen {p : Nat} {s : State} (hwf : Instr.wf (.reopen p) = true)
    (hu : s.up = true) : exec (.reopen p) s =
      .next (s.finish (s.dev.mgtTurn p 0x27 (·.reopenMsg p))) :=
  work_of (f := fun d => d.mgtTurn p 0x27 (·.reopenMsg p)) hwf hu
theorem exec_casReopen {s : State}
    (hu : s.up = true) : exec .casReopen s =
      .next (s.finish (s.dev.viaReg .casCtrl (·.casReopen))) :=
  congrArg _ (State.work_up _ (fun d => d.viaReg .casCtrl (·.casReopen)) hu)
theorem exec_forget {s : State}
    (hu : s.up = true) : exec .forget s =
      .next (s.settle (s.dev.viaReg .casCtrl (·.casForget))) :=
  congrArg _ (State.event_up _ (fun d => d.viaReg .casCtrl (·.casForget)) hu)
theorem exec_memberRegAccess {s : State}
    (hu : s.up = true) : exec .memberRegAccess s =
      .next (s.settle (s.dev.viaReg .casMacc (·.memberAccess))) :=
  congrArg _ (State.event_up _ (fun d => d.viaReg .casMacc (·.memberAccess)) hu)
theorem exec_foldmapEnable {s : State}
    (hu : s.up = true) : exec .foldmapEnable s =
      .next (s.finish (s.dev.viaReg .casFoldmap (·.foldmapRow))) :=
  congrArg _ (State.work_up _ (fun d => d.viaReg .casFoldmap (·.foldmapRow)) hu)
theorem exec_memberRecoveryComplete {m : Nat} {s : State} (hwf : Instr.wf (.memberRecoveryComplete m) = true)
    (hu : s.up = true) : exec (.memberRecoveryComplete m) s =
      .next (s.finish (s.dev.recover m)) :=
  work_of (f := fun d => d.recover m) hwf hu
theorem exec_memberLinkDown {p : Nat} {s : State} (hwf : Instr.wf (.memberLinkDown p) = true) :
    exec (.memberLinkDown p) s =
      (.next (s.bothWork fun d => memberLinkDown s.nv p (d, s.stile)).keepFailed : Res) := ifWf_ok hwf s _
theorem exec_downstreamLinkDown {p : Nat} {s : State} (hwf : Instr.wf (.downstreamLinkDown p) = true)
    (hu : s.up = true) : exec (.downstreamLinkDown p) s =
      .next (s.finish (s.dev.downstreamLinkDown p)) :=
  work_of (f := fun d => d.downstreamLinkDown p) hwf hu
theorem exec_stilePor {s1 s2 s3 : Nat} {s : State} (hwf : Instr.wf (.stilePor s1 s2 s3) = true) :
    exec (.stilePor s1 s2 s3) s =
      (.next (if s.stile.armed && !s.stile.running then s.stiled (Stile.por s1 s2 s3, []) else s) : Res) := ifWf_ok hwf s _
theorem exec_stileEvaluationStep {x : StlSample} {s : State} (hwf : Instr.wf (.stileEvaluationStep x) = true) :
    exec (.stileEvaluationStep x) s =
      (.next (s.stiled (s.stile.step x)) : Res) := ifWf_ok hwf s _
theorem exec_qualificationComplete {i : Nat} {s : State} (hwf : Instr.wf (.qualificationComplete i) = true) :
    exec (.qualificationComplete i) s =
      (.next (s.onStile (Stile.feedEvent i (·.state == .qual) (·.qualDone i))) : Res) := ifWf_ok hwf s _
theorem exec_rampTimeout {i vin : Nat} {s : State} (hwf : Instr.wf (.rampTimeout i vin) = true) :
    exec (.rampTimeout i vin) s =
      (.next (s.onStile (Stile.feedEvent i (·.state == .ramp) (·.fault i 4 vin))) : Res) := ifWf_ok hwf s _
theorem exec_currentLimit {i : Nat} {s : State} (hwf : Instr.wf (.currentLimit i) = true) :
    exec (.currentLimit i) s =
      (.next (s.onStile (Stile.feedEvent i (Feed.driven) (Stile.limit i))) : Res) := ifWf_ok hwf s _
theorem exec_faultTimerExpiry {i vin : Nat} {s : State} (hwf : Instr.wf (.faultTimerExpiry i vin) = true) :
    exec (.faultTimerExpiry i vin) s =
      (.next (s.onStile (Stile.feedEvent i (·.ftRun) (Stile.timerExpiry i vin))) : Res) := ifWf_ok hwf s _
theorem exec_faultTimerClear {i : Nat} {s : State} (hwf : Instr.wf (.faultTimerClear i) = true) :
    exec (.faultTimerClear i) s =
      (.next (s.onStile (Stile.feedEvent i (·.ftRun) (Stile.timerClear i))) : Res) := ifWf_ok hwf s _
theorem exec_fastTrip {i vin : Nat} {s : State} (hwf : Instr.wf (.fastTrip i vin) = true) :
    exec (.fastTrip i vin) s =
      (.next (s.onStile (Stile.feedEvent i (Feed.driven) (·.fault i 3 vin))) : Res) := ifWf_ok hwf s _
theorem exec_coolExpiry {i : Nat} {s : State} (hwf : Instr.wf (.coolExpiry i) = true) :
    exec (.coolExpiry i) s =
      (.next (s.onStile (Stile.feedEvent i (·.state == .cool) (·.coolDone i))) : Res) := ifWf_ok hwf s _
theorem exec_retryCountReset {i : Nat} {s : State} (hwf : Instr.wf (.retryCountReset i) = true) :
    exec (.retryCountReset i) s =
      (.next (s.onStile (Stile.feedEvent i (·.state == .on) (fun s => s.setFeed i { s.feed i with retries := 0 }))) : Res) := ifWf_ok hwf s _
theorem exec_passFetDamaged {i vin : Nat} {s : State} (hwf : Instr.wf (.passFetDamaged i vin) = true) :
    exec (.passFetDamaged i vin) s =
      (.next (s.onStile (Stile.feedEvent i (fun f => !f.gps && !f.gor && f.state != .fetBad) (·.fetBad i 5 vin))) : Res) := ifWf_ok hwf s _
theorem exec_oringFetDamaged {i vin : Nat} {s : State} (hwf : Instr.wf (.oringFetDamaged i vin) = true) :
    exec (.oringFetDamaged i vin) s =
      (.next (s.onStile (Stile.feedEvent i (fun f => !f.gor && f.state != .fetBad) (·.fetBad i 6 vin))) : Res) := ifWf_ok hwf s _
theorem exec_reverseTurnOff {i : Nat} {s : State} (hwf : Instr.wf (.reverseTurnOff i) = true) :
    exec (.reverseTurnOff i) s =
      (.next (s.onStile (Stile.feedEvent i (·.state == .on) (fun s => s.setFeed i { s.feed i with gor := false }))) : Res) := ifWf_ok hwf s _
theorem exec_pgHoldExpiry {s : State} :
    exec .pgHoldExpiry s =
      (.next (s.onStile (fun t => (if t.withdraw then t.withdrawPg else t, []))) : Res) := rfl
theorem exec_orderlyGateOff {s : State} :
    exec .orderlyGateOff s =
      (.next (s.onStile (fun t => ((if t.pg then t else t.orderlyGatesOff).passSlot, []))) : Res) := rfl
theorem exec_latchInputLowExpiry {i : Nat} {s : State} (hwf : Instr.wf (.latchInputLowExpiry i) = true) :
    exec (.latchInputLowExpiry i) s =
      (.next (s.onStile (Stile.feedEvent i (·.state == .latched) (fun s => s.setFeed i (s.feed i).toOff))) : Res) := ifWf_ok hwf s _
theorem exec_stlOffNAssert {s : State} :
    exec .stlOffNAssert s =
      (.next (s.onStile Stile.ejected) : Res) := rfl
theorem exec_stlOffNRelease {s : State} :
    exec .stlOffNRelease s =
      (.next (s.onStile (fun t => ({ t with eject := false, offTime := 0 }, []))) : Res) := rfl
theorem exec_feedEnable {i : Nat} {s : State} (hwf : Instr.wf (.feedEnable i) = true) :
    exec (.feedEnable i) s =
      (.next (s.both fun d => d.viaStile s.stile (.stlFeedCtrl i) (Stile.setEn i true)) : Res) := ifWf_ok hwf s _
theorem exec_feedDisable {i : Nat} {s : State} (hwf : Instr.wf (.feedDisable i) = true) :
    exec (.feedDisable i) s =
      (.next (s.both fun d => d.viaStile s.stile (.stlFeedCtrl i) (Stile.setEn i false)) : Res) := ifWf_ok hwf s _
theorem exec_restart {i : Nat} {s : State} (hwf : Instr.wf (.restart i) = true) :
    exec (.restart i) s =
      (.next (s.both fun d => d.viaStile s.stile (.stlFeedCtrl i) (·.restart i)) : Res) := ifWf_ok hwf s _
theorem exec_clrFet {i : Nat} {s : State} (hwf : Instr.wf (.clrFet i) = true) :
    exec (.clrFet i) s =
      (.next (s.both fun d => d.viaStile s.stile (.stlFeedCtrl i) (·.clrFet i)) : Res) := ifWf_ok hwf s _
theorem exec_stlVthrWrite {v : Nat} {s : State} (hwf : Instr.wf (.stlVthrWrite v) = true) :
    exec (.stlVthrWrite v) s =
      (.next (s.both fun d => d.viaStile s.stile .stlVthr (·.writeVthr v)) : Res) := ifWf_ok hwf s _
theorem exec_pop {s : State} :
    exec .pop s =
      (.next (s.both fun d => d.viaStile s.stile .stlLogstat (·.pop)) : Res) := rfl
theorem exec_stileLogDrain {s : State} :
    exec .stileLogDrain s =
      (.next (s.both fun d => d.stileDrain s.stile) : Res) := rfl
theorem exec_stileLinkLost {s : State}
    (hu : s.up = true) : exec .stileLinkLost s =
      .next (s.settle (s.dev.stileLost)) :=
  congrArg _ (State.event_up _ (fun d => d.stileLost) hu)
theorem exec_stileMeasurement {x : StlSample} {s : State} (hwf : Instr.wf (.stileMeasurement x) = true) :
    exec (.stileMeasurement x) s =
      (.next (s.onStile (fun t => (t.measure x, []))) : Res) := ifWf_ok hwf s _
theorem exec_stileThermalShutdown {vinA vinB : Nat} {s : State} (hwf : Instr.wf (.stileThermalShutdown vinA vinB) = true) :
    exec (.stileThermalShutdown vinA vinB) s =
      (.next (s.onStile (Stile.thermal vinA vinB)) : Res) := ifWf_ok hwf s _
theorem exec_pwrOkRise {s : State} :
    exec .pwrOkRise s =
      (.next { s with dev := s.dev.pwrRise } : Res) := rfl
theorem exec_pwrOkFall {at_ : BurnPoint} {s : State} (hwf : Instr.wf (.pwrOkFall at_) = true) :
    exec (.pwrOkFall at_) s =
      (.next (s.dropPower at_ false) : Res) := ifWf_ok hwf s _
theorem exec_powerOnResetRelease {s1 s2 s3 : Nat} {spd : List (Option Spd)} {nack crcBad : List Nat} {s : State} (hwf : Instr.wf (.powerOnResetRelease s1 s2 s3 spd nack crcBad) = true) :
    exec (.powerOnResetRelease s1 s2 s3 spd nack crcBad) s =
      (let p := s.dev.powerOnRelease s.nv s.stile s1 s2 s3 spd nack crcBad
    .next ({ s with stile := p.2 }.settle p.1) : Res) := ifWf_ok hwf s _
theorem exec_dramReady {s : State}
    (hu : s.up = true) : exec .dramReady s =
      .next (s.finish (s.dev.dramReady)) :=
  congrArg _ (State.work_up _ (fun d => d.dramReady) hu)
theorem exec_watchdogExpiry {s : State} :
    exec .watchdogExpiry s =
      (.next (s.both fun d => d.watchdog s.nv s.stile) : Res) := rfl
theorem exec_transferFw {part : FwPart} {slot off len : Nat} {good : Bool} {s : State} (hwf : Instr.wf (.transferFw part slot off len good) = true) :
    exec (.transferFw part slot off len good) s =
      (.next (s.flash fun d => d.firmware .transferFw s.nv fun nv d => d.transferFw nv part slot off len good) : Res) := ifWf_ok hwf s _
theorem exec_activateFw {slot : Nat} {online : Bool} {s : State} (hwf : Instr.wf (.activateFw slot online) = true) :
    exec (.activateFw slot online) s =
      (.next (s.flash fun d => d.firmware .activateFw s.nv fun nv d => d.activateFw nv slot online) : Res) := ifWf_ok hwf s _
theorem exec_pliuthTransfer {off : Nat} {data : List Nat} {s : State} (hwf : Instr.wf (.pliuthTransfer off data) = true)
    (hu : s.up = true) : exec (.pliuthTransfer off data) s =
      .next (s.settle (s.dev.pliuth .pliuthTransfer (Dev.pliuthTransfer off data))) :=
  event_of (f := fun d => d.pliuth .pliuthTransfer (Dev.pliuthTransfer off data)) hwf hu
theorem exec_pliuthCommit {s : State}
    (hu : s.up = true) : exec .pliuthCommit s =
      .next (s.settle (s.dev.pliuth .pliuthCommit (·.pliuthCommit s.nv))) :=
  congrArg _ (State.event_up _ (fun d => d.pliuth .pliuthCommit (·.pliuthCommit s.nv)) hu)
theorem exec_getConfigurationState {s : State}
    (hu : s.up = true) : exec .getConfigurationState s =
      .next (s.settle (s.dev.pliuth .pliuthState Dev.configState)) :=
  congrArg _ (State.event_up _ (fun d => d.pliuth .pliuthState Dev.configState) hu)
theorem exec_pliuthAbort {s : State}
    (hu : s.up = true) : exec .pliuthAbort s =
      .next (s.settle (s.dev.pliuth .pliuthAbort Dev.pliuthAbort)) :=
  congrArg _ (State.event_up _ (fun d => d.pliuth .pliuthAbort Dev.pliuthAbort) hu)
theorem exec_holdCommitReset {s : State} :
    exec .holdCommitReset s =
      (.next (s.both fun d => d.holdReset s.nv s.stile) : Res) := rfl
theorem exec_gblReset {s : State} :
    exec .gblReset s =
      (.next (s.bothPowered fun d => d.askReset s.nv s.stile 0) : Res) := rfl
theorem exec_tallySweep {par ue : List Nat} {ce : Nat} {s : State} (hwf : Instr.wf (.tallySweep par ue ce) = true)
    (hu : s.up = true) : exec (.tallySweep par ue ce) s =
      .next (s.settle (s.dev.tallySweep par ue ce)) :=
  event_of (f := fun d => d.tallySweep par ue ce) hwf hu
theorem exec_snapshotPass {par ue : List Nat} {ce : Nat} {s : State} (hwf : Instr.wf (.snapshotPass par ue ce) = true)
    (hu : s.up = true) : exec (.snapshotPass par ue ce) s =
      .next (s.finish (s.dev.snapshotPass par ue ce)) :=
  work_of (f := fun d => d.snapshotPass par ue ce) hwf hu
theorem exec_sampleRecordComplete {s : State}
    (hu : s.up = true) : exec .sampleRecordComplete s =
      .next (s.settle (s.dev.sampleComplete)) :=
  congrArg _ (State.event_up _ (fun d => d.sampleComplete) hu)
theorem exec_sampleRecordWrite {n : Nat} {s : State} (hwf : Instr.wf (.sampleRecordWrite n) = true)
    (hu : s.up = true) : exec (.sampleRecordWrite n) s =
      .next (s.settle (s.dev.sampleWrite n)) :=
  event_of (f := fun d => d.sampleWrite n) hwf hu
theorem exec_registerWrite {view : RegView} {h off size v : Nat} {s : State} (hwf : Instr.wf (.registerWrite view h off size v) = true) :
    exec (.registerWrite view h off size v) s =
      (.next (s.registerWrite view h off size v) : Res) := ifWf_ok hwf s _
theorem exec_invalidRegisterAccess {view : RegView} {h off size : Nat} {write : Bool} {s : State} (hwf : Instr.wf (.invalidRegisterAccess view h off size write) = true) :
    exec (.invalidRegisterAccess view h off size write) s =
      (.next (s.bothPowered fun d => (d.invalidAccess s.stile view h off size write view.fn, s.stile)) : Res) := ifWf_ok hwf s _
theorem exec_gblLockSet {s : State}
    (hu : s.up = true) : exec .gblLockSet s =
      .next (s.settle (s.dev.viaReg .gblLock (·.setFlag .gblLock F.gblLock_LOCK true))) :=
  congrArg _ (State.event_up _ (fun d => d.viaReg .gblLock (·.setFlag .gblLock F.gblLock_LOCK true)) hu)
theorem exec_interruptAck {s : State}
    (hu : s.up = true) : exec .interruptAck s =
      .next (s.settle (s.dev.viaReg .gblIntCtrl (·.setFlag .gblIntCtrl F.gblIntCtrl_ARMED true))) :=
  congrArg _ (State.event_up _ (fun d => d.viaReg .gblIntCtrl (·.setFlag .gblIntCtrl F.gblIntCtrl_ARMED true)) hu)
theorem exec_thermtrip {at_ : BurnPoint} {s : State} (hwf : Instr.wf (.thermtrip at_) = true) :
    exec (.thermtrip at_) s =
      (.next (if s.dev.mgt.power = .held then s else s.dropPower at_ true) : Res) := ifWf_ok hwf s _
theorem exec_boundaryScanInstruction {trstLow : Bool} {t : TapInstr} {s : State} (hwf : Instr.wf (.boundaryScanInstruction trstLow t) = true)
    (hu : s.up = true) : exec (.boundaryScanInstruction trstLow t) s =
      .next (s.settle (s.dev.tapLoad trstLow t)) :=
  pin_of (f := fun d => d.tapLoad trstLow t) hwf hu
theorem exec_controllerRestartComplete {s : State}
    (hu : s.up = true) : exec .controllerRestartComplete s =
      .next (s.settle (s.dev.restartDone)) :=
  congrArg _ (State.event_up _ (fun d => d.restartDone) hu)
theorem exec_commitBurnComplete {stuck : List Nat} {s : State} (hwf : Instr.wf (.commitBurnComplete stuck) = true) :
    exec (.commitBurnComplete stuck) s =
      (if s.up then
      let p := Dev.burnComplete stuck s.nv s.stile s.dev
      .next ({ s with stile := p.1.2, nv := p.2 }.settle p.1.1)
    else .next s : Res) := ifWf_ok hwf s _
theorem exec_stileStandbyLoss {ms : Nat} {s : State} (hwf : Instr.wf (.stileStandbyLoss ms) = true) :
    exec (.stileStandbyLoss ms) s =
      (.next (s.onStile (fun t => (t.supplyLoss ms, []))) : Res) := ifWf_ok hwf s _
theorem exec_responseCreditReturn {h n : Nat} {s : State} (hwf : Instr.wf (.responseCreditReturn h n) = true)
    (hu : s.up = true) : exec (.responseCreditReturn h n) s =
      .next (s.finish (s.dev.creditReturn h n)) :=
  work_of (f := fun d => d.creditReturn h n) hwf hu
theorem exec_clearEventRecords {owner log n : Nat} {s : State} (hwf : Instr.wf (.clearEventRecords owner log n) = true)
    (hu : s.up = true) : exec (.clearEventRecords owner log n) s =
      .next (s.settle (s.dev.clearRow owner log n)) :=
  event_of (f := fun d => d.clearRow owner log n) hwf hu

end Sys2Proof.Machine
end

