-- ==== Sys2Proof/Laws/Goes.lean ====
section
/-! SUPPORT. What a step can do, said once: most commands only change the main die and, through it, DRAM. Proofs about every
command take those from `exec_plain` and look at the others by name. -/

namespace Sys2Proof.Machine

open Sys2Proof

/-- The answer leaves the state, ends a command on another main die, or only sets a pin of it. -/
def Plain (s : State) (r : Res) : Prop := r = .next s ∨ (∃ d, r = .next (s.settle d)) ∨ ∃ d, r = .next { s with dev := d }

theorem plain_same {s : State} {i : Instr} {r : Res} (h : Plain s r) : Plain s (ifWf i s r) := by
  unfold ifWf; split
  · exact h
  · exact .inl rfl

theorem plain_event (s : State) (f : Dev → Dev) : Plain s (.next (s.event f)) := by
  unfold State.event; split
  · exact .inr (.inl ⟨_, rfl⟩)
  · exact .inl rfl

theorem plain_work (s : State) (f : Dev → Dev) : Plain s (.next (s.work f)) := by
  unfold State.work; split
  · exact .inr (.inl ⟨_, rfl⟩)
  · exact .inl rfl

theorem plain_pin (s : State) (f : Dev → Dev) : Plain s (.next (s.pin f)) := by
  unfold State.pin; split
  · exact .inr (.inl ⟨_, rfl⟩)
  · exact .inr (.inr ⟨_, rfl⟩)

/-- A plain answer is a next state with the same queue, Stile and flash, and DRAM in canonical form if it was. -/
theorem Plain.keeps {s : State} {r : Res} (h : Plain s r) : ∃ t, r = .next t ∧ t.pending = s.pending ∧ t.stile = s.stile ∧
    t.nv = s.nv ∧ (s.dram.wf = true → t.dram.wf = true) := by
  obtain rfl | ⟨d, rfl⟩ | ⟨d, rfl⟩ := h
  · exact ⟨_, rfl, rfl, rfl, rfl, id⟩
  · exact ⟨_, rfl, rfl, rfl, rfl, Dram.flush_wf _ _⟩
  · exact ⟨_, rfl, rfl, rfl, rfl, id⟩

/-- The command acts on nothing but the main die and DRAM. -/
def plainCmd : Instr → Bool
  | .crossingDelivery .. | .trainingRecordWrite .. | .spareCopyComplete .. | .regwr .. | .memberLinkDown ..
  | .stilePor .. | .stileEvaluationStep .. | .qualificationComplete .. | .rampTimeout .. | .currentLimit ..
  | .faultTimerExpiry .. | .faultTimerClear .. | .fastTrip .. | .coolExpiry .. | .retryCountReset ..
  | .passFetDamaged .. | .oringFetDamaged .. | .reverseTurnOff .. | .pgHoldExpiry | .orderlyGateOff
  | .latchInputLowExpiry .. | .stlOffNAssert | .stlOffNRelease | .feedEnable .. | .feedDisable .. | .restart ..
  | .clrFet .. | .stlVthrWrite .. | .pop | .stileLogDrain | .stileMeasurement .. | .stileThermalShutdown ..
  | .pwrOkRise | .pwrOkFall .. | .powerOnResetRelease .. | .watchdogExpiry | .transferFw .. | .activateFw ..
  | .holdCommitReset | .gblReset | .registerWrite .. | .invalidRegisterAccess .. | .thermtrip ..
  | .commitBurnComplete .. | .stileStandbyLoss .. => false
  | _ => true

theorem exec_plain (i : Instr) (s : State) (h : plainCmd i = true) : Plain s (exec i s) := by
  cases i with
  | memRd _ _ _ _ _ _ _ => exact plain_same (plain_work _ _)
  | memRdData _ _ _ _ _ => exact plain_same (plain_work _ _)
  | memInv _ _ _ _ _ _ => exact plain_same (plain_work _ _)
  | memInvNt _ _ _ _ _ _ => exact plain_same (plain_work _ _)
  | memSpecRd _ _ _ => exact plain_same (plain_event _ _)
  | memClnEvct _ _ _ _ _ => exact plain_same (plain_work _ _)
  | memWr _ _ _ _ _ _ _ _ _ => exact plain_same (plain_work _ _)
  | memWrPtl _ _ _ _ _ _ _ _ _ _ => exact plain_same (plain_work _ _)
  | birsp _ _ _ => exact plain_same (plain_work _ _)
  | biconflict _ _ => exact plain_same (plain_work _ _)
  | directoryEvictionComplete _ => exact plain_same (plain_work _ _)
  | lineLockRelease _ => exact plain_same (plain_work _ _)
  | bisnpTimeout _ _ => exact plain_same (plain_work _ _)
  | unresponsiveSweepComplete _ => exact plain_same (plain_work _ _)
  | homeGrantWrite _ _ => exact plain_same (plain_work _ _)
  | grantRevocationComplete _ => exact plain_same (plain_work _ _)
  | defhintWrite _ => exact plain_same (plain_work _ _)
  | tedderSample _ _ => exact plain_same (plain_event _ _)
  | headLinkUp _ _ _ _ _ _ _ => exact plain_same (plain_event _ _)
  | perstNAssert _ => exact plain_same (plain_pin _ _)
  | perstNRelease _ => exact plain_same (plain_pin _ _)
  | hotReset _ => exact plain_same (plain_event _ _)
  | linkDown _ => exact plain_same (plain_event _ _)
  | flr _ => exact plain_same (plain_event _ _)
  | cxlReset _ => exact plain_same (plain_event _ _)
  | headResetDelivery _ => exact plain_same (plain_work _ _)
  | flrComplete _ => exact plain_same (plain_event _ _)
  | ideCheckFailure _ _ => exact plain_same (plain_work _ _)
  | ideKm _ _ _ _ => exact plain_same (plain_event _ _)
  | ldbindEnable _ => exact plain_same (plain_event _ _)
  | ldbindDisable _ => exact plain_same (plain_event _ _)
  | mediaReady _ => exact plain_same (plain_event _ _)
  | doeDiscovery _ _ => exact plain_same (plain_event _ _)
  | spdm _ _ => exact plain_same (plain_event _ _)
  | cdatTableAccess _ _ => exact plain_same (plain_event _ _)
  | deckRequest _ _ => exact plain_same (plain_event _ _)
  | readCompletion _ _ _ _ _ _ _ => exact plain_same (plain_work _ _)
  | completionTimeout _ _ => exact plain_same (plain_work _ _)
  | tagQuarantineEnd _ _ => exact plain_same (plain_work _ _)
  | hdmCommit _ _ _ _ _ => exact plain_same (plain_event _ _)
  | hdmCommitTakesEffect _ _ => exact plain_same (plain_event _ _)
  | hdmUncommit _ _ => exact plain_same (plain_event _ _)
  | hdmUncommitTakesEffect _ _ => exact plain_same (plain_event _ _)
  | addCapacity _ _ _ _ => exact plain_same (plain_work _ _)
  | releaseDynamicCapacity _ _ _ => exact plain_same (plain_work _ _)
  | forcedRemoval _ _ _ => exact plain_same (plain_work _ _)
  | dcRegionConfigure _ _ _ _ _ => exact plain_same (plain_event _ _)
  | extentRemovalComplete _ => exact plain_same (plain_work _ _)
  | ldwinEnable _ => exact plain_same (plain_work _ _)
  | windowBuildComplete _ => exact plain_same (plain_work _ _)
  | ldwinDisable _ => exact plain_same (plain_work _ _)
  | windowTeardownComplete _ => exact plain_same (plain_work _ _)
  | setCommit _ => exact plain_same (plain_event _ _)
  | setCommitted _ => exact plain_same (plain_work _ _)
  | counterRegionReady _ => exact plain_same (plain_work _ _)
  | setUncommit _ => exact plain_same (plain_event _ _)
  | valueCrossingOffer _ _ => exact plain_same (plain_event _ _)
  | valueCrossingAck _ => simp only [exec, execValueCrossingAck]; exact plain_same (plain_event _ _)
  | eventCrossingOffer _ _ => simp only [exec, execEventCrossingOffer]; exact plain_same (plain_event _ _)
  | eventCrossingAck _ => simp only [exec, execEventCrossingAck]; exact plain_same (plain_event _ _)
  | queueEntryOffer _ _ => simp only [exec, execQueueEntryOffer]; exact plain_same (plain_event _ _)
  | queueSlotCredit _ => simp only [exec, execQueueSlotCredit]; exact plain_same (plain_event _ _)
  | crossingDelivery _ => simp [plainCmd] at h
  | islandReset _ => exact plain_same (plain_event _ _)
  | lagBeyondPeriod _ => exact plain_same (plain_event _ _)
  | maxlagClr _ => exact plain_same (plain_event _ _)
  | avsDecision => exact plain_event _ _
  | avsSettleEnd => exact plain_event _ _
  | speedWindowEnd _ _ => exact plain_same (plain_event _ _)
  | avsbusFailure _ => exact plain_same (plain_event _ _)
  | avsSetpointWrite _ _ => exact plain_same (plain_event _ _)
  | busErrClear _ => exact plain_same (plain_event _ _)
  | promotionStart _ _ => exact plain_same (plain_work _ _)
  | promotionCommit _ => exact plain_same (plain_work _ _)
  | sheafRelease _ => exact plain_same (plain_work _ _)
  | promotionHoldExpiry _ => exact plain_same (plain_work _ _)
  | tedderEpoch _ _ _ => exact plain_same (plain_work _ _)
  | demotionStart _ _ => exact plain_same (plain_work _ _)
  | relocation _ _ => simp only [exec, execRelocation]; exact plain_same (plain_work _ _)
  | fallowMove _ _ => exact plain_same (plain_work _ _)
  | tedderMoveCommit _ => exact plain_same (plain_work _ _)
  | poolEnable _ => exact plain_same (plain_event _ _)
  | poolDrain _ => exact plain_same (plain_event _ _)
  | poolDrained _ => exact plain_same (plain_event _ _)
  | poolDisable _ => exact plain_same (plain_event _ _)
  | watermarkWrite _ => exact plain_same (plain_event _ _)
  | releaseRequestInterval => exact plain_event _ _
  | balerJobWaitDispatch => exact plain_work _ _
  | balerJobStart _ => exact plain_same (plain_work _ _)
  | balerJobComplete _ => exact plain_same (plain_work _ _)
  | balerFault _ _ => exact plain_same (plain_work _ _)
  | balerReset _ => exact plain_same (plain_work _ _)
  | balEnWrite _ => exact plain_same (plain_work _ _)
  | counterLineMerge => exact plain_work _ _
  | reencryptionEntryFree _ => exact plain_same (plain_work _ _)
  | reencryptionComplete _ => exact plain_same (plain_work _ _)
  | eraseSweepComplete _ => exact plain_same (plain_work _ _)
  | channelReadReturn _ => exact plain_same (plain_work _ _)
  | writeAcceptance _ => exact plain_same (plain_work _ _)
  | channelCommandEntry _ => exact plain_same (plain_event _ _)
  | commandIssue _ _ _ => exact plain_same (plain_event _ _)
  | pageIdleTimeout _ _ _ => exact plain_same (plain_event _ _)
  | refreshDue _ _ => exact plain_same (plain_event _ _)
  | nrfReseed _ _ => exact plain_same (plain_event _ _)
  | dimmThermalRead _ _ _ => exact plain_same (plain_event _ _)
  | sidebandError _ _ => exact plain_same (plain_event _ _)
  | pmicFault _ _ => exact plain_same (plain_event _ _)
  | channelTrainingComplete _ _ _ _ _ _ => exact plain_same (plain_event _ _)
  | trainingRecordWrite _ _ => simp [plainCmd] at h
  | zqCalibration _ _ => exact plain_same (plain_event _ _)
  | dqsOscillatorRead _ _ => exact plain_same (plain_event _ _)
  | codewordRead _ _ _ => exact plain_same (plain_event _ _)
  | eccWindowEnd _ => exact plain_same (plain_event _ _)
  | scrubRead _ => exact plain_same (plain_event _ _)
  | spareStart _ => exact plain_same (plain_event _ _)
  | spareCopyRead _ => exact plain_same (plain_event _ _)
  | spareCopyComplete _ => simp [plainCmd] at h
  | rankRetire _ => exact plain_same (plain_event _ _)
  | frequencyChange _ => exact plain_same (plain_event _ _)
  | frequencyChangeCheck _ _ => exact plain_same (plain_event _ _)
  | powerDownEntry _ _ => exact plain_same (plain_event _ _)
  | doorbell _ _ _ => exact plain_same (plain_work _ _)
  | descriptorFetch _ _ => exact plain_same (plain_work _ _)
  | crEnable _ _ => exact plain_same (plain_work _ _)
  | crDisable _ _ => exact plain_same (plain_work _ _)
  | cqEnable _ _ => exact plain_same (plain_work _ _)
  | cqDisable _ _ => exact plain_same (plain_work _ _)
  | cqHeadWrite _ _ _ => exact plain_same (plain_work _ _)
  | nop => exact plain_work _ _
  | setHint => exact plain_work _ _
  | tierPolicy => exact plain_work _ _
  | compPolicy => exact plain_work _ _
  | promote => exact plain_work _ _
  | demote => exact plain_work _ _
  | fill => exact plain_work _ _
  | zero => exact plain_work _ _
  | copy => exact plain_work _ _
  | sanitize => exact plain_work _ _
  | capQuery => exact plain_work _ _
  | releaseAck => exact plain_work _ _
  | snapshot => exact plain_work _ _
  | sampleCfg => exact plain_work _ _
  | commandComplete => exact plain_work _ _
  | interruptCoalescingTimeout _ _ => exact plain_same (plain_event _ _)
  | leyEnable _ => exact plain_same (plain_event _ _)
  | leyDisable _ => exact plain_same (plain_event _ _)
  | leyPartnerDetect _ => exact plain_same (plain_event _ _)
  | leyTrainComplete _ _ _ => exact plain_same (plain_event _ _)
  | leyFlitReceive _ _ => exact plain_same (plain_event _ _)
  | leyFlitTransmit _ => exact plain_same (plain_event _ _)
  | replayTimeout _ => exact plain_same (plain_event _ _)
  | settledWindow _ _ => exact plain_same (plain_event _ _)
  | rtReq _ => exact plain_same (plain_event _ _)
  | rsReq _ => exact plain_same (plain_event _ _)
  | laneLockLoss _ => exact plain_same (plain_event _ _)
  | rtrq _ _ _ => exact plain_same (plain_event _ _)
  | rtack _ _ _ => exact plain_same (plain_event _ _)
  | rsrq _ => exact plain_same (plain_event _ _)
  | rsack _ => exact plain_same (plain_event _ _)
  | resizeComplete _ => exact plain_same (plain_event _ _)
  | resizeTimeout _ => exact plain_same (plain_event _ _)
  | ident _ => exact plain_same (plain_event _ _)
  | resync _ => exact plain_same (plain_event _ _)
  | down _ => exact plain_same (plain_event _ _)
  | retrainStepTimeout _ => exact plain_same (plain_event _ _)
  | leyDownExpiry _ => exact plain_same (plain_event _ _)
  | leyCredClr _ _ => exact plain_same (plain_event _ _)
  | fold _ => exact plain_same (plain_work _ _)
  | rd _ => exact plain_same (plain_work _ _)
  | wr _ => exact plain_same (plain_work _ _)
  | rdata _ => exact plain_same (plain_work _ _)
  | wacc _ => exact plain_same (plain_work _ _)
  | join _ => exact plain_same (plain_work _ _)
  | memberJoinReady => exact plain_event _ _
  | joinrsp _ => exact plain_same (plain_work _ _)
  | regrd _ => exact plain_same (plain_event _ _)
  | regwr _ => simp [plainCmd] at h
  | regrsp _ => exact plain_same (plain_event _ _)
  | record _ => exact plain_same (plain_event _ _)
  | foldnote _ => exact plain_same (plain_work _ _)
  | reopen _ => exact plain_same (plain_work _ _)
  | casReopen => exact plain_work _ _
  | forget => exact plain_event _ _
  | memberRegAccess => exact plain_event _ _
  | foldmapEnable => exact plain_work _ _
  | memberRecoveryComplete _ => exact plain_same (plain_work _ _)
  | memberLinkDown _ => simp [plainCmd] at h
  | downstreamLinkDown _ => exact plain_same (plain_work _ _)
  | stilePor _ _ _ => simp [plainCmd] at h
  | stileEvaluationStep _ => simp [plainCmd] at h
  | qualificationComplete _ => simp [plainCmd] at h
  | rampTimeout _ _ => simp [plainCmd] at h
  | currentLimit _ => simp [plainCmd] at h
  | faultTimerExpiry _ _ => simp [plainCmd] at h
  | faultTimerClear _ => simp [plainCmd] at h
  | fastTrip _ _ => simp [plainCmd] at h
  | coolExpiry _ => simp [plainCmd] at h
  | retryCountReset _ => simp [plainCmd] at h
  | passFetDamaged _ _ => simp [plainCmd] at h
  | oringFetDamaged _ _ => simp [plainCmd] at h
  | reverseTurnOff _ => simp [plainCmd] at h
  | pgHoldExpiry => simp [plainCmd] at h
  | orderlyGateOff => simp [plainCmd] at h
  | latchInputLowExpiry _ => simp [plainCmd] at h
  | stlOffNAssert => simp [plainCmd] at h
  | stlOffNRelease => simp [plainCmd] at h
  | feedEnable _ => simp [plainCmd] at h
  | feedDisable _ => simp [plainCmd] at h
  | restart _ => simp [plainCmd] at h
  | clrFet _ => simp [plainCmd] at h
  | stlVthrWrite _ => simp [plainCmd] at h
  | pop => simp [plainCmd] at h
  | stileLogDrain => simp [plainCmd] at h
  | stileLinkLost => exact plain_event _ _
  | stileMeasurement _ => simp [plainCmd] at h
  | stileThermalShutdown _ _ => simp [plainCmd] at h
  | pwrOkRise => simp [plainCmd] at h
  | pwrOkFall _ => simp [plainCmd] at h
  | powerOnResetRelease _ _ _ _ _ _ => simp [plainCmd] at h
  | dramReady => exact plain_work _ _
  | watchdogExpiry => simp [plainCmd] at h
  | transferFw _ _ _ _ _ => simp [plainCmd] at h
  | activateFw _ _ => simp [plainCmd] at h
  | pliuthTransfer _ _ => exact plain_same (plain_event _ _)
  | pliuthCommit => exact plain_event _ _
  | getConfigurationState => exact plain_event _ _
  | pliuthAbort => exact plain_event _ _
  | holdCommitReset => simp [plainCmd] at h
  | gblReset => simp [plainCmd] at h
  | tallySweep _ _ _ => simp only [exec, execTallySweep]; exact plain_same (plain_event _ _)
  | snapshotPass _ _ _ => simp only [exec, execSnapshotPass]; exact plain_same (plain_work _ _)
  | sampleRecordComplete => exact plain_event _ _
  | sampleRecordWrite _ => exact plain_same (plain_event _ _)
  | registerWrite _ _ _ _ _ => simp [plainCmd] at h
  | invalidRegisterAccess _ _ _ _ _ => simp [plainCmd] at h
  | gblLockSet => exact plain_event _ _
  | interruptAck => exact plain_event _ _
  | thermtrip _ => simp [plainCmd] at h
  | boundaryScanInstruction _ _ => simp only [exec, execBoundaryScanInstruction]; exact plain_same (plain_pin _ _)
  | controllerRestartComplete => exact plain_event _ _
  | commitBurnComplete _ => simp [plainCmd] at h
  | stileStandbyLoss _ => simp [plainCmd] at h
  | responseCreditReturn _ _ => exact plain_same (plain_work _ _)
  | clearEventRecords _ _ _ => exact plain_same (plain_event _ _)

end Sys2Proof.Machine
end

