-- ==== Sys2Proof/Tests/Slice0.lean ====
section
/-! SUPPORT. The model's own tests: well-formedness of commands, worked examples of the spec, and for each statement with hypotheses a
state that meets them. Expected values are the spec's own or worked out by hand from its rules. -/

namespace Sys2Proof.Machine.Test

open Sys2Proof Sys2Proof.Machine

set_option Elab.async false

/-! ### Operand checks -/

/-- Each command that has checks is well-formed with its least operands. -/
theorem test_well_formed_least :
    (([.memRd 0 0 0 0 .i false .none, .memRdData 0 0 0 0 .none, .memInv 0 0 0 0 .i .none, .memInvNt 0 0 0 0 .i .none,
      .memSpecRd 0 0 0, .memClnEvct 0 0 0 0 .none, .memWr 0 0 0 0 .i 0 true false .none, .memWrPtl 0 0 0 0 .i 0 0 true false .none,
      .birsp 0 0 .i, .biconflict 0 0, .directoryEvictionComplete 0, .lineLockRelease 0, .bisnpTimeout 0 0,
      .unresponsiveSweepComplete 0, .homeGrantWrite 0 0, .grantRevocationComplete 0, .defhintWrite 0, .tedderSample 0 [],
      .headLinkUp 0 true 0 0 16 true 0, .perstNAssert 0, .perstNRelease 0, .hotReset 0, .linkDown 0, .flr 0] : List Instr) ++
     ([.cxlReset 0, .headResetDelivery 0, .flrComplete 0, .ideCheckFailure 0 .cxl, .ideKm 0 .cxl 0 false, .ldbindEnable 0, .ldbindDisable 0,
      .mediaReady 0, .doeDiscovery 0 0, .spdm 0 0, .cdatTableAccess 0 0, .deckRequest 0 0,
      .readCompletion 0 0 true 0 0 .ok [], .completionTimeout 0 0, .tagQuarantineEnd 0 0, .hdmCommit 0 0 0 0 true,
      .hdmCommitTakesEffect 0 0, .hdmUncommit 0 0, .hdmUncommitTakesEffect 0 0, .addCapacity 0 0 0 0,
      .releaseDynamicCapacity 0 0 0, .forcedRemoval 0 0 0, .dcRegionConfigure 0 0 0 0 0,
      .extentRemovalComplete 0] : List Instr) ++
     ([.ldwinEnable 0, .windowBuildComplete 0, .ldwinDisable 0, .windowTeardownComplete 0, .setCommit 0, .setCommitted 0,
      .counterRegionReady 0, .setUncommit 0, .valueCrossingOffer .mgtEvt 0, .islandReset 0, .lagBeyondPeriod .sweep,
      .maxlagClr .sweep, .speedWindowEnd 0 0, .avsbusFailure 0, .avsSetpointWrite 0 0, .busErrClear 0, .promotionStart 0 [],
      .promotionCommit 0, .sheafRelease 0, .promotionHoldExpiry 0, .tedderEpoch 0 [] [], .demotionStart 0 [], .fallowMove 0 [],
      .tedderMoveCommit 0] : List Instr) ++
     ([.poolEnable 0, .poolDrain 0, .poolDrained 0, .poolDisable 0, .watermarkWrite 0, .balerJobStart 0,
      .balerJobComplete 0, .balerFault 0 0, .balerReset 0, .balEnWrite 0, .reencryptionEntryFree 0, .reencryptionComplete 0,
      .eraseSweepComplete 0, .channelReadReturn 0, .writeAcceptance 0, .channelCommandEntry 0, .commandIssue 0 0 [],
      .pageIdleTimeout 0 0 0, .refreshDue 0 0, .nrfReseed 0 true, .dimmThermalRead 0 none none, .sidebandError 0 0,
      .pmicFault 0 0, .channelTrainingComplete 0 0 0 true [] []] : List Instr) ++
     ([.trainingRecordWrite 0 true, .zqCalibration 0 0, .dqsOscillatorRead 0 0, .codewordRead 0 0 0, .eccWindowEnd 0,
      .scrubRead 0, .spareStart 0, .spareCopyRead 0, .spareCopyComplete 0, .rankRetire 0, .frequencyChange 0,
      .frequencyChangeCheck 0 none, .powerDownEntry 0 0, .doorbell 0 0 0, .descriptorFetch 0 0, .crEnable 0 0,
      .crDisable 0 0, .cqEnable 0 0, .cqDisable 0 0, .cqHeadWrite 0 0 0, .interruptCoalescingTimeout 0 0, .leyEnable 0,
      .leyDisable 0, .leyPartnerDetect 0] : List Instr) ++
     ([.leyTrainComplete 0 0 0, .leyFlitReceive 0 0, .leyFlitTransmit 0, .replayTimeout 0, .settledWindow 0 0, .rtReq 0,
      .rsReq 0, .laneLockLoss 0, .rtrq 0 0 0, .rtack 0 0 0, .rsrq 0, .rsack 0, .resizeComplete 0, .resizeTimeout 0,
      .ident 0, .resync 0, .down 0, .retrainStepTimeout 0, .leyDownExpiry 0, .leyCredClr 0 0, .fold 0, .rd 0, .wr 0,
      .rdata 0] : List Instr) ++
     ([.wacc 0, .join 0, .joinrsp 0, .regrd 0, .regwr 0, .regrsp 0, .record 0, .foldnote 0, .reopen 0,
      .memberRecoveryComplete 1, .memberLinkDown 0, .downstreamLinkDown 0, .qualificationComplete 0, .rampTimeout 0 0,
      .currentLimit 0, .faultTimerExpiry 0 0, .faultTimerClear 0, .fastTrip 0 0, .coolExpiry 0, .retryCountReset 0,
      .passFetDamaged 0 0, .oringFetDamaged 0 0, .reverseTurnOff 0, .latchInputLowExpiry 0] : List Instr) ++
     ([.feedEnable 0, .feedDisable 0, .restart 0, .clrFet 0, .stlVthrWrite 0, .stileThermalShutdown 0 0,
      .transferFw .full 0 0 0 true, .activateFw 0 true, .pliuthTransfer 0 [], .sampleRecordWrite 0,
      .registerWrite .mgmt 0 0 4 0, .invalidRegisterAccess .mgmt 0 0 0 true, .responseCreditReturn 0 0,
      .clearEventRecords 0 0 0] : List Instr)).all (fun c => c.wf == true) = true := by
  decide

/-- For each operand check of each command, a term that fails exactly it is refused (part 1). -/
theorem test_ill_formed_1 :
    (([.memRd 8 0 0 0 .i false .none, .memRd 0 16 0 0 .i false .none, .memRd 0 0 (2 ^ 52) 0 .i false .none, .memRd 0 0 0 (2 ^ 16) .i false .none,
      .memRdData 8 0 0 0 .none, .memRdData 0 16 0 0 .none, .memRdData 0 0 (2 ^ 52) 0 .none, .memRdData 0 0 0 (2 ^ 16) .none,
      .memInv 8 0 0 0 .i .none, .memInv 0 16 0 0 .i .none, .memInv 0 0 (2 ^ 52) 0 .i .none, .memInv 0 0 0 (2 ^ 16) .i .none,
      .memInvNt 8 0 0 0 .i .none, .memInvNt 0 16 0 0 .i .none, .memInvNt 0 0 (2 ^ 52) 0 .i .none,
      .memInvNt 0 0 0 (2 ^ 16) .i .none, .memSpecRd 8 0 0, .memSpecRd 0 16 0, .memSpecRd 0 0 (2 ^ 52),
      .memClnEvct 8 0 0 0 .none, .memClnEvct 0 16 0 0 .none, .memClnEvct 0 0 (2 ^ 52) 0 .none,
      .memClnEvct 0 0 0 (2 ^ 16) .none, .memWr 8 0 0 0 .i 0 true false .none] : List Instr) ++
     ([.memWr 0 16 0 0 .i 0 true false .none, .memWr 0 0 (2 ^ 52) 0 .i 0 true false .none, .memWr 0 0 0 (2 ^ 16) .i 0 true false .none,
      .memWrPtl 8 0 0 0 .i 0 0 true false .none, .memWrPtl 0 16 0 0 .i 0 0 true false .none, .memWrPtl 0 0 (2 ^ 52) 0 .i 0 0 true false .none,
      .memWrPtl 0 0 0 (2 ^ 16) .i 0 0 true false .none, .birsp 16 0 .i, .birsp 0 (2 ^ 42) .i, .biconflict 16 0,
      .biconflict 0 (2 ^ 42), .directoryEvictionComplete (2 ^ 42), .lineLockRelease (2 ^ 42), .bisnpTimeout 16 0,
      .bisnpTimeout 0 (2 ^ 42), .unresponsiveSweepComplete 16, .homeGrantWrite 16 0, .homeGrantWrite 0 (2 ^ 32),
      .grantRevocationComplete 16, .defhintWrite 4, .tedderSample 4 [], .headLinkUp 8 true 0 0 16 true 0,
      .headLinkUp 0 true 4 0 16 true 0, .headLinkUp 0 true 0 7 16 true 0, .headLinkUp 0 true 0 0 3 true 0] : List Instr)).all (fun c => c.wf == false) = true := by
  decide

/-- For each operand check of each command, a term that fails exactly it is refused (part 2). -/
theorem test_ill_formed_2 :
    (([.perstNAssert 8, .perstNRelease 8, .hotReset 8, .linkDown 8, .flr 16, .cxlReset 16, .headResetDelivery 8,
      .flrComplete 16, .ideCheckFailure 8 .cxl, .ideKm 8 .cxl 0 false, .ldbindEnable 16, .ldbindDisable 16, .mediaReady 16,
      .doeDiscovery 17 0, .doeDiscovery 0 256, .spdm 17 0, .spdm 0 256, .cdatTableAccess 17 0, .cdatTableAccess 0 (2 ^ 16),
      .deckRequest 17 0, .deckRequest 0 (2 ^ 16), .readCompletion 8 0 true 0 0 .ok [],
      .readCompletion 0 1024 true 0 0 .ok [], .readCompletion 0 0 true 0 0 .ok [256]] : List Instr) ++
     ([.completionTimeout 8 0, .completionTimeout 0 1024, .tagQuarantineEnd 8 0, .tagQuarantineEnd 0 1024,
      .hdmCommit 16 0 0 0 true, .hdmCommit 0 8 0 0 true, .hdmCommit 0 0 16 0 true, .hdmCommit 0 0 0 16 true,
      .hdmCommitTakesEffect 16 0, .hdmCommitTakesEffect 0 8, .hdmUncommit 16 0, .hdmUncommit 0 8,
      .hdmUncommitTakesEffect 16 0, .hdmUncommitTakesEffect 0 8, .addCapacity 16 0 0 0, .addCapacity 0 (2 ^ 27) 0 0,
      .addCapacity 0 0 (2 ^ 27) 0, .releaseDynamicCapacity 16 0 0, .releaseDynamicCapacity 0 (2 ^ 27) 0,
      .releaseDynamicCapacity 0 0 (2 ^ 27), .forcedRemoval 16 0 0, .forcedRemoval 0 (2 ^ 27) 0, .forcedRemoval 0 0 (2 ^ 27),
      .dcRegionConfigure 16 0 0 0 0] : List Instr)).all (fun c => c.wf == false) = true := by
  decide

/-- For each operand check of each command, a term that fails exactly it is refused (part 3). -/
theorem test_ill_formed_3 :
    (([.dcRegionConfigure 0 8 0 0 0, .dcRegionConfigure 0 0 (2 ^ 27) 0 0, .dcRegionConfigure 0 0 0 (2 ^ 27) 0,
      .dcRegionConfigure 0 0 0 0 16, .extentRemovalComplete 16, .ldwinEnable 16, .windowBuildComplete 16, .ldwinDisable 16,
      .windowTeardownComplete 16, .setCommit 16, .setCommitted 16, .counterRegionReady 16, .setUncommit 16,
      .valueCrossingOffer .mgtEvt (2 ^ 64), .islandReset 37, .lagBeyondPeriod (.refresh 24), .maxlagClr (.refresh 24),
      .speedWindowEnd 4 0, .speedWindowEnd 0 (2 ^ 16), .avsbusFailure 4, .avsSetpointWrite 4 0, .avsSetpointWrite 0 256,
      .busErrClear 4, .promotionStart (2 ^ 36) []] : List Instr) ++
     ([.promotionCommit (2 ^ 36), .sheafRelease (2 ^ 36), .promotionHoldExpiry (2 ^ 36), .tedderEpoch 4 [] [],
      .demotionStart (2 ^ 36) [], .fallowMove (2 ^ 36) [], .tedderMoveCommit (2 ^ 36), .poolEnable 16, .poolDrain 16,
      .poolDrained 16, .poolDisable 16, .watermarkWrite (2 ^ 64), .balerJobStart 32, .balerJobComplete 32, .balerFault 32 0, .balerFault 0 4, .ideKm 0 .cxl (2 ^ 256) false, .tedderSample 0 [4], .tedderEpoch 0 [] [2 ^ 17], .commandIssue 0 0 [2 ^ 15],
      .registerWrite (.config 17) 0 0 4 0,
      .balerReset 32, .balEnWrite (2 ^ 32), .reencryptionEntryFree 4, .reencryptionComplete (2 ^ 36),
      .eraseSweepComplete 16, .channelReadReturn 24, .writeAcceptance 24, .channelCommandEntry 24,
      .commandIssue 24 0 []] : List Instr)).all (fun c => c.wf == false) = true := by
  decide

/-- For each operand check of each command, a term that fails exactly it is refused (part 4). -/
theorem test_ill_formed_4 :
    (([.commandIssue 0 2 [], .pageIdleTimeout 24 0 0, .pageIdleTimeout 0 2 0, .refreshDue 24 0, .refreshDue 0 8,
      .nrfReseed 24 true, .dimmThermalRead 24 none none, .sidebandError 8 0, .sidebandError 0 8, .pmicFault 24 0,
      .pmicFault 0 4, .channelTrainingComplete 24 0 0 true [] [], .channelTrainingComplete 0 256 0 true [] [],
      .channelTrainingComplete 0 0 256 true [] [], .trainingRecordWrite 24 true, .zqCalibration 24 0, .zqCalibration 0 2,
      .dqsOscillatorRead 24 0, .dqsOscillatorRead 0 8, .codewordRead 24 0 0, .codewordRead 0 2 0, .eccWindowEnd 24,
      .scrubRead 24, .spareStart 24] : List Instr) ++
     ([.spareCopyRead 24, .spareCopyComplete 24, .rankRetire 24, .frequencyChange 24, .frequencyChangeCheck 24 none,
      .powerDownEntry 24 0, .powerDownEntry 0 8, .doorbell 17 0 0, .doorbell 0 8 0, .doorbell 0 0 (2 ^ 16),
      .descriptorFetch 17 0, .descriptorFetch 0 8, .crEnable 17 0, .crEnable 0 8, .crDisable 17 0, .crDisable 0 8,
      .cqEnable 17 0, .cqEnable 0 8, .cqDisable 17 0, .cqDisable 0 8, .cqHeadWrite 17 0 0, .cqHeadWrite 0 8 0,
      .cqHeadWrite 0 0 (2 ^ 16), .interruptCoalescingTimeout 17 0] : List Instr)).all (fun c => c.wf == false) = true := by
  decide

/-- For each operand check of each command, a term that fails exactly it is refused (part 5). -/
theorem test_ill_formed_5 :
    (([.interruptCoalescingTimeout 0 8, .leyEnable 4, .leyDisable 4, .leyPartnerDetect 4, .leyTrainComplete 4 0 0,
      .leyTrainComplete 0 7 0, .leyTrainComplete 0 0 256, .leyFlitReceive 4 0, .leyFlitTransmit 4, .replayTimeout 4,
      .settledWindow 4 0, .settledWindow 0 4, .rtReq 4, .rsReq 4, .laneLockLoss 4, .rtrq 4 0 0, .rtrq 0 256 0,
      .rtrq 0 0 256, .rtack 4 0 0, .rtack 0 256 0, .rtack 0 0 256, .rsrq 4, .rsack 4, .resizeComplete 4] : List Instr) ++
     ([.resizeTimeout 4, .ident 4, .resync 4, .down 4, .retrainStepTimeout 4, .leyDownExpiry 4, .leyCredClr 4 0,
      .leyCredClr 0 4, .fold 4, .rd 4, .wr 4, .rdata 4, .wacc 4, .join 4, .joinrsp 4, .regrd 4, .regwr 4, .regrsp 4,
      .record 4, .foldnote 4, .reopen 4, .memberRecoveryComplete 0,
      .memberRecoveryComplete 8] : List Instr)).all (fun c => c.wf == false) = true := by
  decide

/-- For each operand check of each command, a term that fails exactly it is refused (part 6). -/
theorem test_ill_formed_6 :
    (([.memberLinkDown 4, .downstreamLinkDown 4, .qualificationComplete 2, .rampTimeout 2 0, .rampTimeout 0 (2 ^ 16),
      .currentLimit 2, .faultTimerExpiry 2 0, .faultTimerExpiry 0 (2 ^ 16), .faultTimerClear 2, .fastTrip 2 0,
      .fastTrip 0 (2 ^ 16), .coolExpiry 2, .retryCountReset 2, .passFetDamaged 2 0, .passFetDamaged 0 (2 ^ 16),
      .oringFetDamaged 2 0, .oringFetDamaged 0 (2 ^ 16), .reverseTurnOff 2, .latchInputLowExpiry 2, .feedEnable 2,
      .feedDisable 2, .restart 2, .clrFet 2, .stlVthrWrite (2 ^ 64)] : List Instr) ++
     ([.stileThermalShutdown (2 ^ 16) 0, .stileThermalShutdown 0 (2 ^ 16), .transferFw .full 256 0 0 true,
      .transferFw .full 0 (2 ^ 32) 0 true, .transferFw .full 0 0 (2 ^ 32) true, .activateFw 256 true,
      .pliuthTransfer (2 ^ 16) [], .pliuthTransfer 0 [256], .sampleRecordWrite 16, .registerWrite (.tenant 16) 0 0 4 0,
      .registerWrite .mgmt 9 0 4 0, .registerWrite .mgmt 0 (2 ^ 25) 4 0, .registerWrite .mgmt 0 0 5 0,
      .registerWrite .mgmt 0 0 4 (2 ^ 64), .invalidRegisterAccess (.tenant 16) 0 0 0 true,
      .invalidRegisterAccess .mgmt 9 0 0 true, .invalidRegisterAccess .mgmt 0 (2 ^ 25) 0 true, .responseCreditReturn 8 0,
      .clearEventRecords 17 0 0, .clearEventRecords 0 5 0, .lagBeyondPeriod (.scrub 24),
      .lagBeyondPeriod (.epoch 4)] : List Instr)).all (fun c => c.wf == false) = true := by
  decide
/-! ### The spec's worked examples -/

/-- HDM decode of the worked translation: HPA offset 0x1234_5AC0, IW 2, IG 4 KiB (chapter 3). -/
theorem test_hdm_offset : hdmOffset 1 4 0x12345AC0 = 0x091A2AC0 := by decide

/-- The home of that line is H13 (chapter 3, step 3). -/
theorem test_home_slice : homeOf (0x0100091A2AC0 / 64) = 13 := by decide

/-- Table 3.13: the same SA under the 3-, 6- and 12-way sets, 24 ways, channel multiply and widen. -/
theorem test_storage_sets :
    let g (m w g1 : Nat) : SetGeo := { base := 0, size := 3072, cbase := 0, tbase := 0, m := m, w := w, g1 := g1, g2 := 8 }
    let sa := 0x0040001A2AC0
    (g 1 3 30).place sa = (0, 0x15555E0EC0) ∧ (g 1 6 30).place sa = (0, 0xAAAAF07C0) ∧ (g 1 12 30).place sa = (6, 0x5555783C0) ∧
    (g 1 24 30).place sa = (18, 0x2AAABC1C0) ∧ (g 1 48 30).place sa = (42, 0x15555E0C0) ∧ (g 4 24 30).place sa = (18, 0xAAABC1C0) := by
  decide

/-- The SA comes back from its target and channel address. -/
theorem test_unplace :
    ({ base := 0, size := 3072, cbase := 0, tbase := 0, m := 1, w := 24, g1 := 30, g2 := 8 } : SetGeo).unplace 18 0x2AAABC1C0 =
      some 0x0040001A2AC0 := by decide

/-- Table 3.12: the coordinates of LA 0xAAA_AF07 under the channel map at reset. -/
theorem test_coordinates :
    let x := (State.reset.dev.amap 18).coord 0xAAAAF07
    x.sub = 1 ∧ x.col = 3 ∧ x.bg = 7 ∧ x.bgSent = 2 ∧ x.bank = 1 ∧ x.bankSent = 3 ∧ x.row = 0x5555 ∧ x.rank = 0 := by decide

/-- The page-map entry of chapter 6 and its fields, both ways. -/
theorem test_page_entry :
    let x : Pme := { state := 2, frame := 0x123456, soff := 9, scnt := 5, tsel := 6, pgc := 0b01011, hot := 1, fctr := 3 }
    pmeOf 0x800048D15A572C43 = x ∧ x.num = 0x800048D15A572C43 := by decide

/-- The counter line and counter block of chapter 8. -/
theorem test_counter_block :
    let g : SetGeo := { base := 0, size := 3072, cbase := 0, tbase := 0, m := 1, w := 24, g1 := 30, g2 := 8 }
    g.ctrSa 0x40001A2 = 0x02F500006880 ∧ g.ctrFrame 0x02F500006880 = 0x40001A2 ∧
    (blockOf 0x0040001A2AC0 none 0x13 5).num 0 = 0x000A0000000000000026008000345580 ∧
    (blockOf 0x0040001A2AC0 none 0x13 5).num 3 = 0x000A0000000000000026008000345583 := by decide

/-- The offsets of counters 584 and 282, and of the second in LD3's tenant window (chapter 18). -/
theorem test_counter_offsets :
    RegView.slot .mgmt 0x458000 = some (.counter 584 false) ∧ RegView.slot .mgmt 0x2200D0 = some (.counter 282 false) ∧
    RegView.slot (.tenant 3) 0x30010 = some (.counter 282 false) := by decide

/-- The completion record of the FILL of chapter 12: 16 bytes, 15 zeros, then PHASE in the last byte. -/
theorem test_fill_record :
    let f : RingFin := { set := 5, ring := 0, cq := 0, id := 1, chead := 7, ld := 5, tag := 0x101, irq := true, status := 0,
                         r0 := 0x100000 }
    f.bytes true = [1, 1, 0, 0, 7, 0, 0, 0, 0, 0, 0x10, 0, 0, 0, 0, 0] ++ List.replicate 15 0 ++ [0x80] := by decide

/-- The compressed page of chapter 7. -/
def exampleSwath (a : Nat) : List Nat :=
  [0xD8, 0x22, 0x20, 0x06, 0x18, 0x40, 0x00, 0x10, 0x07, 0xE1, a, 0x03, 0x6D, 0xB6, 0xD0, 0x08, 0x04, 0x02, 0x01, 0x00, 0x80, 0x40,
   0x20, 0x10, 0x08, 0x04, 0x02, 0x01, 0x00, 0x80, 0x40, 0x00]
def examplePage : List Nat :=
  [0xB1, 0x03, 0x30, 0x00, 0x05, 0x70, 0x00, 0x09, 0xC0, 0x21, 0xC0, 0x61, 0xC0, 0xA1, 0xC0, 0xE1] ++ exampleSwath 0x50 ++
    exampleSwath 0x54 ++ exampleSwath 0x58 ++ exampleSwath 0x5C ++ List.replicate 112 0

/-- Its header (Table 7.4): grain, predictors, offsets and checks. -/
theorem test_page_header :
    readHead examplePage 1 = some { grain := 3, offs := [16, 48, 80, 112, 144], chk := [0x21C0, 0x61C0, 0xA1C0, 0xE1C0] } ∧
    readHead (examplePage.set 7 0) 1 = none ∧ readHead examplePage 2 = none := by decide +kernel

/-- An entry header and its slots come back from a payload (Table 13.6). -/
theorem test_entry_slots :
    let e : LeyEnt := { vc := 1, op := 8, dev := 6, chan := 23, dlen := 1, tag := 0x2AAA, la := 0x5_1234_5678, md := 0x89ABCDEF,
                        data := [0xF00D] }
    parseSlots 16 e.slots = ([e], []) := by decide +kernel

/-- The widest lane set within a mask, and the sets of a width (Table 13.1). -/
theorem test_lane_sets :
    widestSet 0xFF = some 0xFF ∧ widestSet 0x7F = some 0x0F ∧ widestSet 0xF7 = some 0xF0 ∧ widestSet 0x33 = some 0x03 ∧
    widestSet 0x55 = none ∧ setOfWidth 2 0xC0 = some 0xC0 ∧ setOfWidth 0 0xF0 = none := by decide

/-! ### Reset (R470) -/

/-- Registers at reset, each word put together by hand from its field table. -/
theorem test_reset_registers :
    [Reg.leyCtrl 3, .leyStat 0, .casCtrl, .casMacc, .gblAvsCtrl, .gblAvsQ 2].map State.reset.dev.rd =
      [0x04000843, 0x03000000, 0x80000000, 0x4000000000000000, 0x800A1F22, 0x001E291E] := by decide
/-! ### States that meet the hypotheses of the statements

Each theorem is named after its statement and shows, for each of its clauses, a state and operands that meet what the clause asks. -/

/-- A running die, changed by `f`. -/
def on (f : Dev → Dev) : State :=
  let s := State.reset
  { s with dev := f { s.dev with mgt := { s.dev.mgt with power := .on, linksOn := true } } }

/-- A running die beside a running Stile, changed by `g`. -/
def onS (g : Stile → Stile) : State := { on id with stile := g { State.reset.stile with running := true } }

/-- The register is reached. -/
theorem reaches_of (s : State) (r : Reg)
    (h : (s.up && decide (regAt r.offset = some r) && (s.dev.accessCause .mgmt r.offset (r.width / 8)).isNone) = true) :
    s.reaches r := by
  simp only [Bool.and_eq_true, decide_eq_true_eq, Option.isNone_iff_eq_none] at h
  exact ⟨h.1.1, h.1.2, h.2⟩

theorem wit_FrontCommandRuns : ({ on id with pending := [.pop, .avsDecision] } : State).pending = .pop :: [.avsDecision] := rfl

theorem wit_EmptyQueueTicks :
    (State.reset.pending = [] ∧ State.reset.powered = false) ∧ ((on id).pending = [] ∧ (on id).powered = true) := by decide

theorem wit_StepKeepsInv : (onS id).Inv ∧
    ∃ t, Goes { onS id with pending := [.stlOffNAssert] } t ∧ (State.Inv { onS id with pending := [.stlOffNAssert] }) := by
  refine ⟨⟨by decide, by unfold Stile.oneRamp; decide⟩, _, rfl, by decide, by unfold Stile.oneRamp; decide⟩

theorem wit_OtpOnlyGains : ∃ t, Goes { onS id with pending := [.stlOffNAssert] } t := ⟨_, rfl⟩

theorem wit_StileKeepsToItself : touchesStile .avsSettleEnd = false ∧ ∃ t, exec .avsSettleEnd (on id) = .next t := ⟨rfl, _, rfl⟩

theorem wit_EveryCommandGoesOn : (Instr.leyEnable 4).wf = false := by decide

theorem wit_EveryCommandCompletes : (on id).up = true ∧ (Instr.leyEnable 3).wf = true := by decide

theorem wit_EndOfCommand :
    let d := ((on id).dev.setFlag .gblIntCtrl F.gblIntCtrl_ARMED true).wr .gblIntEn 4
    (let e := d.wr .talWatchstat 0x8000
     e.flag .gblIntCtrl F.gblIntCtrl_ARMED = true ∧ e.intStat (on id).stile &&& e.rd .gblIntEn ≠ 0) ∧
    ¬ (d.flag .gblIntCtrl F.gblIntCtrl_ARMED = true ∧ d.intStat (on id).stile &&& d.rd .gblIntEn ≠ 0) := by decide

theorem wit_DramReadsBack :
    let m : Dram := State.reset.dram
    m.wf = true ∧ (5 : Nat) ≠ 6 := by decide

theorem wit_ValueCrossings :
    let x : XId := .leyVal 3 (.window 3)
    let s (v : XVal) := on (·.setXval x v)
    x.kind = .value ∧ x.exists = true ∧ ((s {}).up = true ∧ ((s {}).dev.xval x).flight = none) ∧
    ((s { flight := some 7 }).dev.xval x).flight = some 7 ∧ ((s { flight := some 7 }).dev.xval x).hold = none ∧
    ((s { flight := some 7, hold := some (2 ^ 64 - 1) }).dev.xval x).hold.isSome = true ∧
    ((s { flight := some 7 }).dev.xval x).delivered = false ∧
    ((s { flight := some 7, delivered := true }).dev.xval x).delivered = true := by decide

theorem wit_EventCrossings :
    let x : XId := .leyEvt 3
    let s (v : XEvt) := on (·.setXevt x v)
    0 < x.kinds ∧ x.exists = true ∧ ((s {}).up = true ∧ ((s {}).dev.xevt x).flight = 0) ∧
    (((s { flight := 1 }).dev.xevt x).flight ≠ 0 ∧ ((s { flight := 1 }).dev.xevt x).pending.testBit 0 = false) ∧
    (((s { flight := 1, pending := 1 }).dev.xevt x).flight ≠ 0 ∧ ((s { flight := 1, pending := 1 }).dev.xevt x).pending.testBit 0 = true) ∧
    ((s { flight := 1, delivered := true }).dev.xevt x).delivered = true ∧
    (0 < ((s { flight := 1, wait := 1 }).dev.xevt x).wait ∧ ((s { flight := 1 }).dev.xevt x).wait = 0) ∧
    (let m := on (·.setXevt .mgtEvt { flight := 9 })
     0 < XId.mgtEvt.kinds ∧ XId.mgtEvt.exists = true ∧ (m.dev.xevt .mgtEvt).flight ≠ 0 ∧ (m.dev.xevt .mgtEvt).delivered = false ∧
       (m.dev.xevt .mgtEvt).wait = 0) ∧
    (0 < (XId.headEvt 7).kinds ∧ (XId.headEvt 7).exists = true) ∧ (0 < (XId.chnCtl 23).kinds ∧ (XId.chnCtl 23).exists = true) := by decide

theorem wit_QueueCrossings :
    let x : XId := .chnCmd 23
    let s (v : XQue) := on (·.setXque x v)
    0 < x.slots ∧ x.exists = true ∧
    (((s {}).dev.xque x).used < x.slots ∧ ((s {}).dev.xque x).stalled = []) ∧
    ¬ (((s { used := x.slots }).dev.xque x).used < x.slots) ∧ ((s { stalled := [1] }).dev.xque x).stalled ≠ [] ∧
    ((s { used := 1, entries := [9] }).dev.xque x).entries = [9] ∧ ((s { used := 1, recv := [9] }).dev.xque x).recv = [9] := by decide

theorem wit_IslandsAndLags :
    (let s := on fun d => { (d.setPeriodic { running := true } (.refresh 23)) with clk := 2 ^ 40 }
     (LagUnit.refresh 23).ok = true ∧ (s.dev.periodic (.refresh 23)).running = true ∧ (s.dev.periodic (.refresh 23)).raised = false ∧
       (s.dev.periodic (.refresh 23)).grid + (s.dev.periodic (.refresh 23)).p < s.dev.nowNs) ∧
    ((on id).dev.periodic .sweep).running = false ∧ (on id).reaches (LagUnit.epoch 3).maxReg :=
  ⟨by decide, by decide, reaches_of _ _ (by decide)⟩

/-- The window of chapter 2's worked example: Q2's index 1,398 is slow at code 30. -/
def avsState (speed2 set2 : Nat) : State :=
  on fun d => ((((d.setFld (.gblAvsSpd 0) F.gblAvsSpd_SPEED 1460).setFld (.gblAvsSpd 1) F.gblAvsSpd_SPEED 1452).setFld (.gblAvsSpd 2)
    F.gblAvsSpd_SPEED speed2).setFld (.gblAvsSpd 3) F.gblAvsSpd_SPEED 1466).setFld (.gblAvsQ 2) F.gblAvsQ_SETPOINT set2

theorem wit_QuarterSupplies :
    (on id).up = true ∧ (on (·.setFlag .gblAvsCtrl F.gblAvsCtrl_EN false)).dev.flag .gblAvsCtrl F.gblAvsCtrl_EN = false ∧
    (∀ s ∈ [avsState 1398 30, avsState 1398 41, avsState 2000 32, avsState 1444 34],
      s.dev.flag .gblAvsCtrl F.gblAvsCtrl_EN = true ∧ 0 < s.dev.fld .gblAvsCtrl F.gblAvsCtrl_INTERVAL ∧ s.dev.mgt.settling = false ∧
      s.dev.mgt.restarting = false ∧ s.dev.flag (.gblAvsQ 2) F.gblAvsQ_BUS_ERR = false ∧
      (∀ k < 4, s.dev.fld (.gblAvsSpd k) F.gblAvsSpd_SEQ = s.dev.fld (.gblAvsSpd 0) F.gblAvsSpd_SEQ) ∧
      19 ≤ s.dev.fld (.gblAvsQ 2) F.gblAvsQ_FLOOR ∧ s.dev.fld (.gblAvsQ 2) F.gblAvsQ_FLOOR ≤ s.dev.fld (.gblAvsQ 2) F.gblAvsQ_SETPOINT ∧
      s.dev.fld (.gblAvsQ 2) F.gblAvsQ_SETPOINT ≤ s.dev.fld (.gblAvsQ 2) F.gblAvsQ_CEIL ∧ s.dev.fld (.gblAvsQ 2) F.gblAvsQ_CEIL ≤ 41) ∧
    ((avsState 1398 20).dev.fld (.gblAvsQ 2) F.gblAvsQ_SETPOINT < (avsState 1398 20).dev.fld (.gblAvsQ 2) F.gblAvsQ_FLOOR) ∧
    (let s := on fun d => (d.setFld (.gblAvsQ 2) F.gblAvsQ_SETPOINT 41).setFld (.gblAvsQ 2) F.gblAvsQ_CEIL 40
     s.dev.fld (.gblAvsQ 2) F.gblAvsQ_FLOOR ≤ 40 ∧ s.dev.fld (.gblAvsQ 2) F.gblAvsQ_CEIL < s.dev.fld (.gblAvsQ 2) F.gblAvsQ_SETPOINT) ∧
    (let s := on (·.setFld (.gblAvsSpd 1) F.gblAvsSpd_SEQ 1)
     s.dev.fld (.gblAvsSpd 1) F.gblAvsSpd_SEQ ≠ s.dev.fld (.gblAvsSpd 0) F.gblAvsSpd_SEQ) ∧
    (3 * (1398 + 31) < 1460 + 1452 + 1466) ∧ (1460 + 1452 + 1466 + 6 * 31 < 3 * 2000) ∧ (on id).reaches (.gblAvsQ 3) ∧
    (on fun d => d.modMgt fun m => { m with avsOld := [none, none, none, some 19] }).dev.mgt.avsOld.getD 3 none = some 19 :=
  ⟨by decide, by decide, by decide, by decide, by decide, by decide, by decide, by decide, reaches_of _ _ (by decide), by decide⟩

/-- Chapter 2's worked example: codes 32, then 34, then held. -/
theorem test_avs_example :
    ((avsState 1398 30).dev.avsDecision.fld (.gblAvsQ 2) F.gblAvsQ_SETPOINT = 32) ∧
    ((avsState 1421 32).dev.avsDecision.fld (.gblAvsQ 2) F.gblAvsQ_SETPOINT = 34) ∧
    ((avsState 1444 34).dev.avsDecision.fld (.gblAvsQ 2) F.gblAvsQ_SETPOINT = 34) := by decide
/-- Head 7, up at protocol `proto`, serves LD 15 under LD-ID 15: decoder 7 binds the top 256 MB of the host's space to its window. -/
def hosted (proto : Nat) (d : Dev) : Dev :=
  let d := (((d.setFlag (headReg 7) F.hpStat_UP true).setFld (headReg 7) F.hpStat_PROTO proto).setFld (headReg 7) F.hpStat_RATE 5).setFlag
    (headReg 7) F.hpStat_MEMOPEN true
  let d := ((d.setFlag (.gblLdbind 15) F.gblLdbind_EN true).setFld (.gblLdbind 15) F.gblLdbind_HEAD 7).setFld (.gblLdbind 15) F.gblLdbind_LDID 15
  let d := (d.setFlag (.gblLdwin 15) F.gblLdwin_EN true).setFld (.gblLdwin 15) F.gblLdwin_FIELDS 128
  let d := d.setHdm 15 7 { base := 2 ^ 52 - 2 ^ 28, size := 2 ^ 28, commit := true, committed := true }
  { d with hp := { d.hp with memActive := d.hp.memActive.set 15 true, split := [true, true, true, true] } }

theorem hosted_serves (proto : Nat) (h : proto = 1 ∧ False ∨ proto = 2 ∨ proto = 3) :
    (on (hosted proto)).dev.serves 7 15 15 (2 ^ 52 - 64) (2 ^ 28 - 64) := by
  unfold Dev.serves
  rcases h with h | h | h <;> first | exact absurd h.2 id | (subst h; decide +kernel)

theorem wit_HostReadsEnterTheHome :
    ((on (hosted 3)).up = true ∧ (on (hosted 3)).dev.serves 7 15 15 (2 ^ 52 - 64) (2 ^ 28 - 64) ∧ (on (hosted 3)).dev.on31 15 = true ∧
      (on (hosted 3)).dev.proto 7 = 3) ∧
    ((on (hosted 2)).up = true ∧ (on (hosted 2)).dev.serves 7 15 15 (2 ^ 52 - 64) (2 ^ 28 - 64) ∧ (on (hosted 2)).dev.on31 15 = false ∧
      (on (hosted 2)).dev.proto 7 ≠ 3 ∧
      (on (hosted 2)).dev.headUp 7 = true ∧ (on (hosted 2)).dev.memOpen 7 = true ∧ ((on (hosted 2)).dev.head 7).ideFailed = false) :=
  ⟨⟨by decide, hosted_serves 3 (by simp), by decide +kernel, by decide +kernel⟩, by decide, hosted_serves 2 (by simp),
    by decide +kernel, by decide +kernel, by decide +kernel, by decide +kernel, by decide +kernel⟩

theorem wit_HostWritesEnterTheHome :
    (on (hosted 3)).up = true ∧ (on (hosted 3)).dev.serves 7 15 15 (2 ^ 52 - 64) (2 ^ 28 - 64) ∧
    (on (hosted 3)).dev.heldBy 15 (2 ^ 52 - 64) = none := ⟨by decide, hosted_serves 3 (by simp), by decide +kernel⟩

/-- A running die whose home is `h`. -/
def onHome (h : Home) : State := on fun d => { d with home := h }

/-- A request of LD 15 on line 9. -/
def aTxn (phase : TPhase) : Txn := { id := 3, src := .host 7 15 1, op := .rdE, line := 9, own := 15, phase := phase }

theorem wit_HomeEvents :
    (let s := onHome { snoops := [{ line := 9, ld := 15, op := .bisnpInv, why := .drop, bound := 100 }] }
     s.up = true ∧ (s.dev.home.snoops.find? (fun x => x.line == 9 && x.ld == 15)).isSome = true ∧ s.dev.unresp 15 = false ∧
       s.dev.biStray 15 = false) ∧
    (let s := on (·.setFld .homeLdstat F.homeLdstat_UNRESP (2 ^ 15))
     s.dev.home.snoops = [] ∧ s.dev.home.txns = [] ∧ s.dev.home.sweeps = [] ∧ s.dev.ted.samples = [] ∧ s.dev.unresp 15 = true) ∧
    ((onHome { txns := [aTxn .acked] }).dev.home.txns.find? (fun t => t.phase == .acked && t.line == 9)).isSome = true ∧
    ((onHome { txns := [aTxn .complete] }).dev.home.txns.find? (fun t => t.phase == .complete && t.line == 9)).isSome = true ∧
    (∀ l ∈ [[], [15]], ((onHome { sweeps := [{ ld := 15, cause := 1, dpa := 0, poisoned := 0, since := 0 }], lost := l }).dev.home.sweeps.find?
      (fun w => w.ld == 15)).isSome = true) ∧
    ((on fun d => { d with ted := { d.ted with samples := [(15, 3 * 512)] } }).dev.ted.samples.find?
      (fun p => fieldOfPage p.2 % 4 == 3)).isSome = true := by decide

theorem wit_GrantsAndHints :
    (bitOf ((on id).dev.fld .homeGrantstat F.homeGrantstat_PEND) 15 = false ∧ (on id).reaches (.homeGrant 15)) ∧
    (let s := on fun d => d.setFld .homeGrantstat F.homeGrantstat_PEND (2 ^ 15)
     s.up = true ∧ bitOf (s.dev.fld .homeGrantstat F.homeGrantstat_PEND) 15 = true ∧ ∀ x ∈ s.dev.home.snoops, x.why ≠ .grant 15) ∧
    (on id).reaches .homeCtrl := ⟨⟨by decide, reaches_of _ _ (by decide)⟩, by decide, reaches_of _ _ (by decide)⟩

theorem wit_HeadLinks :
    (let s := on fun d => { d with hp := { d.hp with split := [true, true, true, true] }, mgt := { d.mgt with linksOn := true } }
     s.up = true ∧ s.dev.headThere 7 = true ∧ (s.dev.head 7).perst = false ∧ s.dev.headUp 7 = false ∧ s.dev.mgt.linksOn = true ∧ s.dev.role = 0) ∧
    (on (hosted 3)).dev.headUp 7 = true ∧ (on (·.modHead 7 fun y => { y with perst := true })).dev.headUp 7 = false ∧
    ((on (·.modHead 7 fun y => { y with perst := true })).dev.head 7).perst = true ∧
    (let s := on fun d => { d with mgt := { d.mgt with linksOn := false } }
     s.dev.mgt.linksOn = false ∧ (s.dev.head 7).perst = false) ∧
    ((on (hosted 3)).dev.mgt.linksOn = true ∧ (on (hosted 3)).dev.role = 0 ∧ (on (hosted 3)).dev.headThere 7 = true ∧
      ((on (hosted 3)).dev.head 7).perst = false) := by decide

theorem wit_DeviceResets :
    (on (hosted 3)).up = true ∧ (on (hosted 3)).dev.reaches ((on (hosted 3)).dev.ldHead 15) 15 = true ∧
    (on id).dev.reaches ((on id).dev.ldHead 15) 15 = false := by decide +kernel

theorem wit_LinkEncryption :
    (let s := on (hosted 3)
     s.up = true ∧ s.dev.headUp 7 = true ∧ (s.dev.fn0 7).isSome = true ∧ 1 ≤ s.dev.proto 7 ∧
       (∀ st : IdeStream, ((s.dev.head 7).ide.getD st.idx {}).secure = false)) ∧
    (on id).dev.headUp 7 = false ∧
    ∀ st : IdeStream, ((((on (hosted 3)).dev.modHead 7 fun y => { y with ide := y.ide.map fun x => { x with secure := true } }).head 7).ide.getD
      st.idx {}).secure = true := by
  refine ⟨⟨by decide +kernel, by decide +kernel, by decide +kernel, by decide +kernel, ?_⟩, by decide +kernel, ?_⟩ <;>
    (intro st; cases st <;> decide +kernel)

theorem wit_BindingsAndMedia :
    (on id).reaches (.gblLdbind 15) ∧
    ((on id).dev.bound 15 = false ∧
      ∀ k < 16, k ≠ 15 → ¬ ((on id).dev.bound k = true ∧ (on id).dev.ldHead k = (on id).dev.ldHead 15 ∧ (on id).dev.ldId k = (on id).dev.ldId 15)) ∧
    (let s := on fun d => d.setFlag (.gblLdbind 15) F.gblLdbind_EN true
     s.dev.bound 0 = false ∧ ∃ k < 16, k ≠ 0 ∧ s.dev.bound k = true ∧ s.dev.ldHead k = s.dev.ldHead 0 ∧ s.dev.ldId k = s.dev.ldId 0) ∧
    (let s := on fun d => d.setFlag (.gblLdbind 15) F.gblLdbind_EN true
     s.dev.bound 15 = true ∧ (∀ i < 8, (s.dev.hdm 15 i).committed = false) ∧ ∀ r < 8, s.dev.crEn 15 r = false ∧ s.dev.cqEn 15 r = false) ∧
    ((on (hosted 3)).dev.bound 15 = true ∧ ∃ i < 8, ((on (hosted 3)).dev.hdm 15 i).committed = true) ∧
    (let s := on fun d => (d.setFlag .gblBoot F.gblBoot_DRAM_READY true).setFlag (.tedLdcap 15) F.tedLdcap_BUILT true
     s.up = true ∧ (s.dev.flag .gblBoot F.gblBoot_DRAM_READY && s.dev.storageReady 15) = true ∧
       ((on id).dev.flag .gblBoot F.gblBoot_DRAM_READY && (on id).dev.storageReady 15) = false) :=
  ⟨reaches_of _ _ (by decide), by decide, by decide, by decide, by decide, by decide +kernel⟩

theorem wit_Discovery :
    (let s := on (hosted 3)
     s.up = true ∧ s.dev.fnUp 15 = true ∧ (s.dev.cdatOf 15)[0]? = some .header ∧ (s.dev.cdatOf 15).length ≤ 2 ^ 16 - 1) ∧
    (on (fun d => (hosted 3 d).setFlag (headReg 7) F.hpStat_MLD true)).dev.fnUp 16 = true ∧
    (on id).dev.fnUp 16 = false ∧ (on id).dev.fnUp 15 = false := by decide +kernel

theorem wit_HostReadsOfTheDevice :
    let x : BmRead := { tag := 1023, addr := 2 ^ 52 - 64, len := 64, got := [], timeout := 50, use := .abandoned }
    let s := on (·.modHead 7 fun y => { y with reads := [x], quar := [(1022, 5)] })
    let left := x.len - x.got.length
    let agrees (count lower : Nat) (st : CplStatus) (n : Nat) : Prop :=
      count = left ∧ lower = (x.addr + x.got.length) % 128 ∧ (st = .ok → 0 < n ∧ n ≤ left)
    s.up = true ∧ (s.dev.head 7).reads.find? (·.tag == 1023) = some x ∧ agrees 64 64 .ok 1 ∧ agrees 64 64 .ok left ∧
      agrees 64 64 .poisoned 0 ∧ agrees 64 64 .abort 0 ∧ ¬ agrees 63 64 .ok 1 ∧
      (s.dev.head 7).reads.find? (·.tag == 1022) = none ∧ (s.dev.head 7).quar.find? (·.1 == 1022) = some (1022, 5) ∧
      (s.dev.head 7).reads.find? (·.tag == 1021) = none ∧ (s.dev.head 7).quar.find? (·.1 == 1021) = none := by decide

theorem wit_HdmDecoders :
    let y : HdmDec := { base := 0, size := 2 ^ 28 }
    let s (f : Dev → Dev) : State := on fun d => f ((d.setFlag (.gblLdwin 15) F.gblLdwin_EN true).setFld (.gblLdwin 15) F.gblLdwin_FIELDS 256)
    let w (x : HdmDec) : Dev := (s (·.setHdm 15 1 x)).dev
    let both : Dev := ((w { y with commit := true }).setHdm 15 0 { y with commit := true, committed := true })
    let overlap (d : Dev) : Prop := ∃ k < 8, k ≠ 1 ∧ (d.hdm 15 k).committed = true ∧
      overlaps (d.hdm 15 1).base (d.hdm 15 1).size (d.hdm 15 k).base (d.hdm 15 k).size = true
    ((s id).up = true ∧ ((s id).dev.hdm 15 1).commit = false ∧ (w y).hdmCheck 15 0 y = some 0 ∧ (on id).dev.hdmCheck 15 7 y = none) ∧
    (((w { y with commit := true, committed := true }).hdm 15 1).lock = false ∧ ((w { y with commit := true, committed := true }).hdm 15 1).ig ≠ 15) ∧
    (((w { y with commit := true }).hdm 15 1).commit = true ∧ ((w { y with commit := true }).hdm 15 1).committed = false ∧
      ((w { y with commit := true }).hdm 15 1).err = false ∧ ¬ overlap (w { y with commit := true }) ∧
      (w { y with commit := true }).hdmCheck 15 0 { y with commit := true } = some 0) ∧
    ((both.hdm 15 1).commit = true ∧ (both.hdm 15 1).committed = false ∧ overlap both ∧ (both.hdmCheck 15 1 (both.hdm 15 1)).isSome = true) ∧
    ((on id).dev.hdmCheck 15 1 { y with commit := true } = none) ∧
    (((w { y with commit := true, lock := true }).hdm 15 1).lock = true ∧ ((w { y with commit := true, lock := true }).hdm 15 1).err = false) ∧
    (((w { y with committed := true }).hdm 15 1).commit = false ∧ ((w { y with committed := true }).hdm 15 1).committed = true) := by
  decide +kernel
theorem wit_DynamicCapacity :
    let g (o : List Extent) (quota : Nat) (d : Dev) :=
      let d := (((hosted 3 d).setFlag (.tedLdcap 15) F.tedLdcap_BUILT true).setFld (.tedLdcap 15) F.tedLdcap_QUOTA quota)
      let d := (d.setFlag (.tedLdcap 15) F.tedLdcap_TIERED true).setPool (2 ^ 32) 0
      { d with hp := { d.hp with regions := [(15, [{ base := 0, len := 128, k := 0 }])], extents := [(15, o)],
                                 removals := [{ ld := 15, ext := { first := 0, fields := 127, tag := 1 }, origin := 1 }] } }
    let full (s : State) := (s.dev.fld (.tedLdcap 15) F.tedLdcap_OVC + 1) * s.dev.quotaFrames 15 < s.dev.extentPages 15 + 512 * 1 ∨
      s.dev.quotaFrames 15 * s.dev.extentPages 15 * 16 < s.dev.foot 15 * (s.dev.extentPages 15 + 512 * 1) ∨ s.dev.relMode = true ∨
      s.dev.elasticFree - ((1 : Nat) : Int) < wmFrames (s.dev.fld .tedWm F.tedWm_FLOOR)
    let fits (s : State) (i first fields k : Nat) := k ≤ 9 ∧ s.dev.fld (.tedLdcap 15) F.tedLdcap_COMMIT ≤ first ∧
      first + fields ≤ s.dev.winFields 15 ∧ 0 < fields ∧ first % 2 ^ k = 0 ∧ fields % 2 ^ k = 0 ∧
      (∀ r ∈ (s.dev.regions 15).eraseIdx i, overlaps first fields r.base r.len = false) ∧ s.dev.extents 15 = [] ∧
      i ≤ (s.dev.regions 15).length ∧ s.dev.on31 15 = true
    (∀ q ∈ [0, 1], let s := on (g [{ first := 0, fields := 127, tag := 1 }] q)
      s.up = true ∧ s.dev.mgt.restarting = false ∧ s.dev.inHold = false ∧ s.dev.on31 15 = true ∧ s.dev.winBuilt 15 = true ∧ (s.dev.regionOf 15 127 1).isSome = true ∧
      (∀ e ∈ s.dev.extents 15, overlaps 127 1 e.first e.fields = false) ∧ (s.dev.extents 15).length < 1024 ∧ (full s ↔ q = 0) ∧
      ((s.dev.extents 15).find? fun e => e.first == 0 && e.fields == 127).isSome = true ∧
      ((s.dev.extents 15).find? fun e => e.first == 0 && e.fields == 128) = none ∧
      (s.dev.hp.removals.find? (·.ld == 15)).isSome = true) ∧
    fits (on (g [] 1)) 0 64 64 6 ∧ fits (on (g [] 1)) 0 0 128 0 ∧ ¬ fits (on (g [] 1)) 0 0 129 0 := by decide +kernel

/-- Set 0 committed over the first 16 GB, on channel target 0. -/
def setUp (size : Nat) (d : Dev) : Dev :=
  (((d.setFlag (.casSetCtrl 0) F.casSetCtrl_COMMIT true).setFlag (.casSetCtrl 0) F.casSetCtrl_COMMITTED true).setFld (.casSetMap 0)
    F.casSetMap_SIZE size)

theorem wit_Windows :
    let w (en : Bool) (fields : Nat) (d : Dev) := (d.setFlag (.gblLdwin 15) F.gblLdwin_EN en).setFld (.gblLdwin 15) F.gblLdwin_FIELDS fields
    let placed (s : State) := s.dev.winFields 15 ≠ 0 ∧ s.dev.winBase 15 + s.dev.winFields 15 ≤ 2 ^ 27 ∧ ∀ k < 16, k ≠ 15 → s.dev.winEn k = true →
        overlaps (s.dev.winBase 15) (s.dev.winFields 15) (s.dev.winBase k) (s.dev.winFields k) = false
    ((on (w false 1)).reaches (.gblLdwin 15) ∧ (on (w false 1)).dev.winEn 15 = false ∧ placed (on (w false 1)) ∧
      (on (w false 1)).dev.winRefused170 15 = false ∧ (on (w false 1)).dev.winRefused211 15 = false) ∧
    ((on (w false 0)).reaches (.gblLdwin 15) ∧ ¬ placed (on (w false 0))) ∧
    (let s := on fun d => (w false 1 d).setFld (.tedLdcap 15) F.tedLdcap_COMMIT 2
     s.reaches (.gblLdwin 15) ∧ placed s ∧ s.dev.winRefused170 15 = true) ∧
    (let s := on fun d => setUp 1 (w false 1 d)
     s.reaches (.gblLdwin 15) ∧ placed s ∧ s.dev.winRefused170 15 = false ∧ s.dev.winRefused211 15 = true) ∧
    (let busy (s : State) := (∃ i < 8, (s.dev.hdm 15 i).committed = true) ∨ s.dev.extents 15 ≠ [] ∨ s.dev.winPhase 15 = .tearing
     (on (w true 1)).reaches (.gblLdwin 15) ∧ (on (w true 1)).dev.winEn 15 = true ∧ ¬ busy (on (w true 1)) ∧
     (on fun d => (w true 1 d).setWin 15 .tearing).dev.winEn 15 = true ∧ busy (on fun d => (w true 1 d).setWin 15 .tearing)) ∧
    (let s := on fun d => ((w true 2 d).setFld (.tedLdcap 15) F.tedLdcap_COMMIT 1).setWin 15 .building
     s.dev.winPhase 15 = .building ∧ s.dev.mapsReady 15 = true ∧ s.dev.flag (.tedLdcap 15) F.tedLdcap_TIERED = false ∧ s.dev.winBase 15 + s.dev.winFields 15 ≤ 2 ^ 27 ∧
      s.dev.fld (.tedLdflat 15) F.tedLdflat_BASE + s.dev.fld (.tedLdcap 15) F.tedLdcap_COMMIT ≤ 2 ^ 27) ∧
    (on (·.setWin 15 .tearing)).dev.winPhase 15 = .tearing :=
  ⟨⟨reaches_of _ _ (by decide), by decide, by decide, by decide +kernel, by decide +kernel⟩, ⟨reaches_of _ _ (by decide), by decide⟩,
   ⟨reaches_of _ _ (by decide), by decide, by decide +kernel⟩,
   ⟨reaches_of _ _ (by decide), by decide, by decide +kernel, by decide +kernel⟩, ⟨reaches_of _ _ (by decide), by decide, by decide, by decide, by decide⟩,
   by decide, by decide⟩

theorem wit_StorageSets :
    ((on id).reaches (.casSetCtrl 15) ∧ (on id).dev.setCommitted 15 = false ∧ (on id).dev.setPending 15 = false ∧ (on id).dev.setRefused 15 = true) ∧
    (let s := on fun d => (((d.setFld (.casSetMap 15) F.casSetMap_SIZE 1).setFlag (.casTgt 0) F.casTgt_V true).setFld (.chnStat 0)
      F.chnStat_STATE 3).wr (.chnRankmap 0) 0xFFFFFFFF
     s.reaches (.casSetCtrl 15) ∧ s.dev.setCommitted 15 = false ∧ s.dev.setPending 15 = false ∧ s.dev.setRefused 15 = false) ∧
    (let s := on fun d => d.setPend 15 true
     s.dev.setCommitted 15 = false ∧ s.dev.setPending 15 = true ∧ (s.dev.setGeo 15).isSome = true) ∧
    (let s := on fun d => (setUp 1 d).setFld .cipSetstat F.cipSetstat_INIT 1
     s.dev.setCommitted 0 = true ∧ bitOf (s.dev.rd .cipSetstat) 16 = true) ∧
    (let s := on (setUp 1)
     s.reaches (.casSetCtrl 0) ∧ s.dev.setCommitted 0 = true ∧ s.dev.setInUse 0 = false) ∧
    (let s := on fun d => (setUp 1 d).setFlag (.gblLdwin 15) F.gblLdwin_EN true
     s.reaches (.casSetCtrl 0) ∧ s.dev.setCommitted 0 = true ∧ s.dev.setInUse 0 = true) :=
  ⟨⟨reaches_of _ _ (by decide), by decide, by decide, by decide +kernel⟩, ⟨reaches_of _ _ (by decide), by decide, by decide, by decide +kernel⟩, by decide, by decide,
   ⟨reaches_of _ _ (by decide), by decide, by decide +kernel⟩, reaches_of _ _ (by decide), by decide, by decide +kernel⟩

/-- Set 0 is READY over the first 16 GiB, which channel 0 holds. -/
def media (d : Dev) : Dev := ((setUp 16 d).setFld .cipSetstat F.cipSetstat_READY 1).wr (.chnRankmap 0) 0xFFFFFFFF

/-- Field 0 with descriptor `ds`, the entry of its page 0 being `e`; frames 2^20 on are free. -/
def tiered (ds : Desc) (e : Pme) (d : Dev) : Dev :=
  let d := (media d).setPool (2 ^ 24) 0
  { d with ted := { d.ted with
      map := [(0, BitVec.ofNat 512 ds.num), (ds.base * 64, BitVec.ofNat 512 e.num)], free := [(2 ^ 20, 2 ^ 21)] } }

/-- A tiered field whose page table is frame 2^19. -/
def aField : Desc := { v := true, tiered := true, base := 2 ^ 19 }

def aPromo (p : PromoPhase) : Promo := { ted := 0, page := 0, why := .ring, phase := p, frame := 2 ^ 20 + 5 }
def withPromos (ds : Desc) (l : List Promo) (e : Pme) (f : Dev → Dev := id) : State :=
  on fun d => let d := tiered ds e d; f { d with ted := { d.ted with promos := l } }
def withPromo (p : Promo) (e : Pme) : State := withPromos aField [p] e

/-- A line of Tedder 0 waits for an entry of its map write buffer. -/
def mapFull (d : Dev) : Dev := d.modTed fun t => { t with mapQ := [(0, 2 ^ 20)] }

def bare : Pme := {}
def sward : Pme := { state := 1, frame := 2 ^ 19 + 7 }
def elastic : Desc := { aField with elastic := true }
def mapOf (s : State) : Bool := s.dev.mapRoom 0 (s.dev.pmeSa 0 0)

theorem wit_Promotions_start :
    let q := aPromo .queued
    (on id).dev.promo 0 = none ∧
    (∀ p ∈ [PromoPhase.reading, .decoded, .written, .held 3], (withPromo (aPromo p) bare).dev.promo 0 = some (aPromo p)) ∧
    (let s := withPromos { aField with fpois := true } [q] bare
     s.up = true ∧ s.dev.promo 0 = some q ∧ ¬ s.dev.livePage 0) ∧
    (let s := withPromo q sward
     s.dev.promo 0 = some q ∧ s.dev.livePage 0 ∧ (s.dev.pageEntry 0).state = 1) := by
  unfold Dev.livePage; decide +kernel

/-- Page 0 is to be promoted, and is not sward. -/
def Live (s : State) : Prop := s.dev.promo 0 = some (aPromo .queued) ∧ s.dev.livePage 0 ∧ (s.dev.pageEntry 0).state ≠ 1
/-- 64 promotions of Tedder 0 run. -/
def Full (s : State) : Prop := 64 ≤ (s.dev.ted.promos.filter fun x => x.ted == 0 && x.runs).length

theorem wit_Promotions_full :
    let s := withPromos aField (aPromo .queued :: (List.range 64).map fun i => { aPromo .written with page := 4 * 512 * (i + 1) }) bare
    Live s ∧ Full s := by
  unfold Live Full Dev.livePage; decide +kernel

theorem wit_Promotions_empty :
    (let s := withPromos aField [aPromo .queued] bare (·.setPool 0 0)
     Live s ∧ ¬ Full s ∧ (s.dev.desc 0).elastic = false ∧ s.dev.freeFrames = 0) ∧
    (let s := withPromos elastic [aPromo .queued] bare (·.setPool 0 0)
     Live s ∧ ¬ Full s ∧ (s.dev.desc 0).elastic = true ∧ s.dev.mayTake .elasticPromotion = false) := by
  unfold Live Full Dev.livePage; decide +kernel

theorem wit_Promotions_frame :
    ∀ e ∈ [bare, { state := 3 }], let s := withPromo (aPromo .queued) e
      Live s ∧ ¬ Full s ∧ (s.dev.desc 0).elastic = false ∧ (s.dev.pageEntry 0).state ≠ 2 ∧ 0 < s.dev.freeFrames ∧
      takeFrame s.dev.draining s.dev.ted.free = some (2 ^ 20, [(2 ^ 20 + 1, 2 ^ 21 - 1)]) ∧ s.dev.tableApart 0 (2 ^ 20) ∧
      s.dev.place (2 ^ 20 * 4096) ≠ .wait ∧ 2 ^ 20 ∉ s.dev.ted.erases := by
  unfold Live Full Dev.livePage Dev.tableApart; decide +kernel

theorem wit_Promotions_commit :
    let q : Promo := { aPromo .written with entry := bare.num }
    let ok (s : State) := s.dev.livePage 0 ∧ (s.dev.pageEntry 0).sameStorage (pmeOf bare.num) = true ∧ s.dev.ldKeyId 0 = 0
    (let s := withPromos aField [q] bare mapFull
     s.dev.promo 0 = some q ∧ mapOf s = false) ∧
    (let s := withPromo q bare
     s.dev.promo 0 = some q ∧ mapOf s = true ∧ ok s ∧ q.frame < 2 ^ 36 ∧ s.dev.inFtab (s.dev.pmeSa 0 0) = false) ∧
    (let s := withPromo q sward
     s.dev.promo 0 = some q ∧ mapOf s = true ∧ ¬ ok s) := by
  unfold Dev.livePage; decide +kernel

theorem wit_Promotions_hold :
    let q := aPromo (.held 3)
    let at0 (s : State) := s.dev.promo 0 = some q
    (let s := withPromos { aField with v := false } [q] bare
     at0 s ∧ ¬ s.dev.livePage 0) ∧
    (let s := withPromo q sward
     at0 s ∧ s.dev.livePage 0 ∧ (s.dev.pageEntry 0).state = 1) ∧
    (let s := withPromos aField [q] bare mapFull
     at0 s ∧ s.dev.livePage 0 ∧ (s.dev.pageEntry 0).state ≠ 1 ∧ mapOf s = false) ∧
    (let s := withPromo q bare
     at0 s ∧ s.dev.livePage 0 ∧ (s.dev.pageEntry 0).state ≠ 1 ∧ mapOf s = true ∧ (s.dev.pageEntry 0).state ≠ 2 ∧
      s.dev.inFtab (s.dev.pmeSa 0 0) = false) := by
  unfold Dev.livePage; decide +kernel

/-- Sheaf frame 2^20 of Tedder 0, whose sheaf map is frame 2^19 + 9, holds sheaves 13 to 15: 15 is that of page 0. -/
def sheaved (d : Dev) : Dev :=
  { d with ted := { d.ted with
      uses := [(2 ^ 19 + 9, .sheafMap 0 512), (2 ^ 20, .sheaves 0)], slots := [(2 ^ 24 + 13, 4), (2 ^ 24 + 14, 4), (2 ^ 24 + 15, 0)],
      map := d.ted.map ++ [((2 ^ 19 + 9) * 64, 0xE000)] } }

theorem wit_Promotions_sheaves :
    (let o : OldSheaves := { page := 0, frame := 2 ^ 20, soff := 15, scnt := 1, txns := [3] }
     let find (s : State) := s.dev.ted.old.find? fun o => o.page == 0 && !(o.txns.any fun i => (s.dev.txn i).isSome)
     find (on fun d => { d with ted := { d.ted with old := [o] } }) = some o ∧ find (on id) = none) ∧
    (let s := on sheaved
     s.dev.ted.useOf (2 ^ 20) = some (.sheaves 0) ∧ s.dev.sheafMapOf 0 (2 ^ 20 / 2048) = some (2 ^ 19 + 9) ∧
      (let occ := s.dev.sheafOcc 0 (2 ^ 20)
       occ - (occ &&& ((2 ^ 1 - 1) <<< 15)) ≠ 0) ∧
      ∃ p ∈ s.dev.ted.slots, p.1 / 16 = 2 ^ 20 ∧ (p.1 < 2 ^ 20 * 16 + 15 ∨ 2 ^ 20 * 16 + 15 + 1 ≤ p.1)) := by decide +kernel

theorem wit_Promotions_epoch :
    (Instr.tedderEpoch 3 [] [2 ^ 17 - 1]).wf = true ∧
    ((on (·.setFlag (.tedCtrl 3) F.tedCtrl_EN false)).dev.flag (.tedCtrl 3) F.tedCtrl_EN = false) ∧
    (3 ∈ (on fun d => { d with ted := { d.ted with working := [3] } }).dev.ted.working) ∧
    (let s := on fun d => { d with ted := { d.ted with epoch := d.ted.epoch.set 3 { running := true, start := 10 ^ 9 } } }
     (s.dev.ted.epoch.getD 3 {}).running = true ∧ s.dev.nowNs < (s.dev.ted.epoch.getD 3 {}).start) ∧
    ((on id).dev.flag (.tedCtrl 3) F.tedCtrl_EN = true ∧ 3 ∉ (on id).dev.ted.working ∧ ((on id).dev.ted.epoch.getD 3 {}).running = false ∧
      (on id).dev.ted.epoch.length = 4) := by decide

/-- Move `x` of page 0 of field `ds`, with entry `e`; the counter line of the page's frame is held at `c`. -/
def movingOf (ds : Desc) (x : List Move) (e : Pme) (c : Ctr) (f : Dev → Dev) : State :=
  on fun d =>
    let d := tiered ds e d
    f { d with ted := { d.ted with moves := x },
               cip := { d.cip with copies := [{ frame := e.frame, q := 0, ctr := c, changed := 0 }],
                                   holds := [{ frame := e.frame, q := 0, pins := 1 }] } }
def moving (x : Move) (e : Pme) (c : Ctr) (f : Dev → Dev := id) : State := movingOf aField [x] e c f

def aMove (k : MoveKind) (p : MovePhase) : Move := { ted := 0, page := 0, kind := k, cmd := none, phase := p }
def demotes (e : Pme) (f : Dev → Dev := id) : State := moving (aMove .demote .queued) e (Ctr.all 3 0) f
def aFrame : Nat := 2 ^ 19 + 7

/-- What the compression of page 0, of frame `aFrame`, reads. -/
def readsBack (s : State) (bad : List Nat) : Option (Dev × List (Line × Nat)) :=
  (s.dev.hold s.dram aFrame 0).bind fun d1 =>
    let ld := (d1.ldOfField 0).getD 0
    (d1.modMove 0 fun _ => { aMove .demote .queued with
      entry := (s.dev.pageEntry 0).num, ld := ld, key := d1.ldKeyId ld, kgen := d1.ldKgen ld, phase := .coding,
      snap := (match d1.ctrCopy aFrame 0 with | some c => (c.ctr.major.toNat, c.ctr.minors.toNat) | none => (0, 0)) }).readLines
        s.dram (.ld ld (d1.ldKeyId ld) (d1.ldKgen ld)) 0 (aFrame * 4096) 64 none bad

/-- A line of ones, as a write that waits for channel 0, in line 0 of the frame; the other lines are zero. -/
def oneWritten (p : Payload) (d : Dev) : Dev :=
  { d.modChn 0 fun ch => { ch with cmds := [{ write := true, ca := aFrame * 4096, use := .fire, data := p }] } with
    cip := { d.cip with copies := [{ frame := aFrame, q := 0, ctr := (Ctr.all 3 0).setMinor 0 1, changed := 0 }] } }

theorem test_zero_page_reads : (readsBack (demotes sward) []).map (·.2) = some (List.replicate 64 (0, 0)) := by decide +kernel
theorem test_poisoned_page_reads :
    (readsBack (moving (aMove .demote .queued) sward (Ctr.all 3 1)) (List.range 64)).map (·.2) = some (List.replicate 64 (0, 1)) := by
  decide +kernel
theorem test_partly_poisoned_page_reads :
    (readsBack (moving (aMove .demote .queued) sward ((Ctr.all 3 0).setMinor 63 1)) [63]).map (·.2) =
      some (List.replicate 63 (0, 0) ++ [(0, 1)]) := by decide +kernel

/-- The rest of a page's reading after its first line. -/
theorem readLines_first (m : Dram) (d e : Dev) (dom : Dom) (page sa : Nat) (bad : List Nat) (x : Line) (k : Nat)
    (h : d.readLine m dom (page * 4096) sa none (bad.contains 0) = some (e, x, k)) :
    (d.readLines m dom page sa 64 none bad) = (List.range' 1 63).foldl (fun acc i => match acc with
      | none => none
      | some (d, l) => (d.readLine m dom (page * 4096 + 64 * i) (sa + 64 * i) none (bad.contains i)).map fun (d, x, k) => (d, l ++ [(x, k)]))
      (some (e, [(x, k)])) := by
  have : List.range 64 = 0 :: List.range' 1 63 := rfl
  simp only [Dev.readLines, this, List.foldl_cons, Option.isSome_none, Bool.false_eq_true, if_false, Nat.mul_zero, Nat.add_zero, h,
    Option.map_some, List.nil_append]
  try rfl

def onesSealed : Payload := (on id).dev.seal (.ld 0 0 0) (blockOf (aFrame * 4096) none 3 1) (BitVec.allOnes 512) false
def written (ds : Desc) (e : Pme) : State := movingOf ds [aMove .demote .queued] e (Ctr.all 3 0) (oneWritten onesSealed)
/-- The device in which the compression of page 0 of `written` reads. -/
def writtenDev (ds : Desc) (e : Pme) : Dev :=
  let s := written ds e
  let d1 := (s.dev.hold s.dram aFrame 0).getD s.dev
  d1.modMove 0 fun _ => { aMove .demote .queued with
    entry := (s.dev.pageEntry 0).num, ld := (d1.ldOfField 0).getD 0, key := d1.ldKeyId 0, kgen := d1.ldKgen 0, phase := .coding,
    snap := (match d1.ctrCopy aFrame 0 with | some c => (c.ctr.major.toNat, c.ctr.minors.toNat) | none => (0, 0)) }

theorem oneWritten_cmds (p : Payload) (d : Dev) (h : d.chan.length = 24) :
    ((oneWritten p d).chn 0).cmds = [{ write := true, ca := aFrame * 4096, use := .fire, data := p }] := by
  cases hc : d.chan with
  | nil => simp [hc] at h
  | cons c l => simp [oneWritten, Dev.chn, Dev.modChn, hc]

/-- What evaluation shows of `writtenDev`: the place and the counters of its frame, and its lines after the first. -/
def writtenFacts (ds : Desc) (e : Pme) : Bool :=
  let s := written ds e
  let d := writtenDev ds e
  s.dev.heldIn aFrame == some 0 && d.place (aFrame * 4096) == .here 0 (aFrame * 4096) &&
  (match d.currentCtr s.dram (aFrame * 4096 / 4096) with
    | .ok c => decide (c = (Ctr.all 3 0).setMinor 0 1) | .error _ => false) &&
  ((List.range' 1 63).foldl (fun acc i => match acc with
      | none => none
      | some (d, l) => (d.readLine s.dram (.ld 0 0 0) (0 * 4096 + 64 * i) (aFrame * 4096 + 64 * i) none (([] : List Nat).contains i)).map
          fun (d, x, k) => (d, l ++ [(x, k)]))
      (some (d, [(BitVec.allOnes 512, 0)]))).map (fun r => (r.2, decide (0 < r.1.balCount))) ==
    some ((BitVec.allOnes 512, 0) :: List.replicate 63 (0, 0), true)

theorem written_reads (ds : Desc) (e : Pme) (h : writtenFacts ds e = true)
    (hl : (movingOf ds [aMove .demote .queued] e (Ctr.all 3 0) id).dev.chan.length = 24) :
    ∃ d2 ls, (writtenDev ds e).readLines (written ds e).dram (.ld 0 0 0) 0 (aFrame * 4096) 64 none [] = some (d2, ls) ∧
      ls = (BitVec.allOnes 512, 0) :: List.replicate 63 (0, 0) ∧ 0 < d2.balCount := by
  simp only [writtenFacts, Bool.and_eq_true, beq_iff_eq] at h
  obtain ⟨⟨⟨hh, hp⟩, hc⟩, hr⟩ := h
  have hcmds : ((writtenDev ds e).chn 0).cmds = [{ write := true, ca := aFrame * 4096, use := .fire, data := onesSealed }] := by
    have : (writtenDev ds e).chan = (written ds e).dev.chan := by simp [writtenDev, Dev.hold, hh, Dev.modMove, Dev.modTed, Dev.modCip]
    rw [Dev.chn, this]
    exact oneWritten_cmds _ _ hl
  have hm : ((Ctr.all 3 0).setMinor 0 1).minor 0 = 1 ∧ ((Ctr.all 3 0).setMinor 0 1).major.toNat = 3 := by decide +kernel
  have hk : (writtenDev ds e).peek (written ds e).dram (aFrame * 4096) = some (.clean onesSealed) := by
    simp only [Dev.peek, hp, Chan.newest, hcmds, List.reverse_singleton, List.findSome?_cons, and_self, if_true]
  have h0 : aFrame * 4096 / 64 % 64 = 0 := by decide
  have h1 : (writtenDev ds e).readLine (written ds e).dram (.ld 0 0 0) 0 (aFrame * 4096) none false =
      some (writtenDev ds e, BitVec.allOnes 512, 0) := by
    split at hc
    case h_2 => cases hc
    case h_1 c hcc =>
      have hce := of_decide_eq_true hc
      rw [(writtenDev ds e).readLine_row7 (written ds e).dram (.ld 0 0 0) 0 (aFrame * 4096) c (.clean onesSealed) (BitVec.allOnes 512)
        (by rw [hp]; simp) hcc (by rw [hce, h0, hm.1]; decide) hk (by
          rw [hce, h0, hm.1, hm.2]
          exact (writtenDev ds e).settle_seal (.ld 0 0 0) (aFrame * 4096) none (3, 1) (BitVec.allOnes 512) (by decide))]
      simp only [Dev.noteRead, hp, Chan.newest, hcmds, List.reverse_singleton, List.findSome?_cons, and_self, if_true, Option.isSome_some,
        Bool.not_false, Bool.and_true]
  rw [readLines_first (written ds e).dram (writtenDev ds e) (writtenDev ds e) (.ld 0 0 0) 0 (aFrame * 4096) [] _ _ h1]
  obtain ⟨⟨d2, ls⟩, h2, h3⟩ := Option.map_eq_some_iff.1 hr
  simp only [Prod.mk.injEq, decide_eq_true_eq] at h3
  exact ⟨d2, ls, h2, h3⟩

theorem test_written_page_reads : ∀ v ∈ [(aField, sward), ({ aField with tpol := 1 }, sward), (aField, { sward with fctr := 63 })],
    ∃ d2 ls, (writtenDev v.1 v.2).readLines (written v.1 v.2).dram (.ld 0 0 0) 0 (aFrame * 4096) 64 none [] = some (d2, ls) ∧
      ls = (BitVec.allOnes 512, 0) :: List.replicate 63 (0, 0) ∧ 0 < d2.balCount := by
  intro v hv
  have h : ∀ v ∈ [(aField, sward), ({ aField with tpol := 1 }, sward), (aField, { sward with fctr := 63 })],
      writtenFacts v.1 v.2 = true ∧ (movingOf v.1 [aMove .demote .queued] v.2 (Ctr.all 3 0) id).dev.chan.length = 24 := by decide +kernel
  exact written_reads v.1 v.2 (h v hv).1 (h v hv).2

theorem wit_Moves_demote :
    (on id).dev.move 0 = none ∧ (demotes sward (·.setFlag (.tedCtrl 0) F.tedCtrl_EN false)).dev.flag (.tedCtrl 0) F.tedCtrl_EN = false ∧
    (∀ s ∈ [demotes bare, demotes sward], s.up = true ∧ s.dev.move 0 = some (aMove .demote .queued) ∧
      s.dev.flag (.tedCtrl 0) F.tedCtrl_EN = true ∧ s.dev.livePage 0) ∧
    (demotes bare).dev.pageEntry 0 = bare ∧ (demotes sward).dev.pageEntry 0 = sward ∧ (demotes sward).dev.reencOf aFrame = none := by
  unfold Dev.livePage; decide +kernel

theorem wit_Moves_demote_stops :
    (let s := demotes sward fun d => d.modCip fun c => { c with reencs := [{ frame := aFrame, q := 0, old := Ctr.all 3 0, done := 0, dom := .device }] }
     s.dev.livePage 0 ∧ (s.dev.pageEntry 0).state = 1 ∧ (s.dev.reencOf aFrame).isSome = true) ∧
    (let others := (List.range 15).map fun i => aFrame + 1536 * (i + 1)
     let s := demotes sward fun d => d.modCip fun c => { c with
       copies := others.map fun f => { frame := f, q := 0, ctr := Ctr.all 0 0, changed := 0 },
       holds := others.map fun f => { frame := f, q := 0, pins := 1 } }
     s.dev.livePage 0 ∧ (s.dev.pageEntry 0).state = 1 ∧ s.dev.reencOf aFrame = none ∧ s.dev.ctrSpare aFrame 0 = false) ∧
    (demotes sward).dev.ctrSpare aFrame 0 = true ∧
    (demotes sward).dev.ted.moves.filter (fun y => y.ted == 0 && y.kind == .demote && y.phase != .queued) = [] := by
  unfold Dev.livePage; decide +kernel

/-- The counter line of the frame lies at a member that is folded. -/
theorem wit_Moves_demote_folded :
    let s := demotes sward fun d => (d.setFld (.casTgt 0) F.casTgt_DEV 1).modCip fun c => { c with copies := [], holds := [] }
    s.dev.livePage 0 ∧ (s.dev.pageEntry 0).state = 1 ∧ s.dev.reencOf aFrame = none ∧ s.dev.ctrSpare aFrame 0 = true ∧
    s.dev.hold s.dram aFrame 0 = none := by
  unfold Dev.livePage; decide +kernel

/-- Pool range 0 holds frames 2^18 to 2^19 − 1 and drains. -/
def drainingPool (d : Dev) : Dev :=
  (((d.setFlag (.tedPool 0) F.tedPool_EN true).setFlag (.tedPool 0) F.tedPool_DRAIN true).setFld (.tedPool 0) F.tedPool_BASE 1).setFld
    (.tedPool 0) F.tedPool_SIZE 1

/-- Nothing moves yet; the page, its table and the sheaf map of Tedder 3 lie in a draining range. -/
def drains (e : Pme) : State :=
  movingOf { aField with base := 2 ^ 18 } [] e (Ctr.all 3 0) fun d =>
    let d := drainingPool d
    { d with ted := { d.ted with uses := [(2 ^ 18, .table 0), (2 ^ 18 + 9, .sheafMap 3 1)] } }

theorem wit_Moves_relocate :
    let f := 2 ^ 18 + 7
    let s := drains { state := 1, frame := f }
    (s.up = true ∧ s.dev.livePage 0 ∧ (s.dev.pageEntry 0).state = 1 ∧ (s.dev.pageEntry 0).frame = f ∧ s.dev.draining f = true ∧
      s.dev.move 0 = none ∧ s.dev.reencOf f = none ∧ 0 < s.dev.elasticFree ∧ s.dev.nextWaits = false ∧ s.dev.ctrSpare f 0 = true ∧
      (match s.dev.hold s.dram f 0 with
       | none => false
       | some d1 => match d1.readLines s.dram (d1.ldDom ((d1.ldOfField 0).getD 0)) 0 (f * 4096) 64 none [] with
         | some (d2, _) => (d2.takeFrame s.dram (.page 0 0)).isSome
         | none => false) = true) ∧
    ¬ ((demotes sward).dev.draining aFrame = true) := by
  unfold Dev.livePage; decide +kernel

theorem wit_Moves_relocate_maps :
    let s := drains { state := 1, frame := 2 ^ 18 + 7 }
    (s.dev.livePage 0 ∧ s.dev.draining (s.dev.desc 0).base = true ∧ 0 < s.dev.elasticFree ∧ s.dev.reencOf (s.dev.desc 0).base = none ∧
      takeFrame s.dev.draining s.dev.ted.free = some (2 ^ 20, [(2 ^ 20 + 1, 2 ^ 21 - 1)]) ∧ 2 ^ 20 ≠ (s.dev.desc 0).base) ∧
    (s.dev.sheafMapOf 3 1 = some (2 ^ 18 + 9) ∧ s.dev.draining (2 ^ 18 + 9) = true ∧ s.dev.reencOf (2 ^ 18 + 9) = none) ∧
    (demotes sward).dev.draining ((demotes sward).dev.desc 0).base = false ∧ s.dev.sheafMapOf 2 1 = none := by
  unfold Dev.livePage; decide +kernel

theorem wit_Moves_fallow :
    let f := 2 ^ 18 + 7
    let e : Pme := { state := 2, frame := f, soff := 15, scnt := 1 }
    let s := drains e
    s.dev.livePage 0 ∧ s.dev.draining f = true ∧ s.dev.nextWaits = false ∧ s.dev.move 0 = none ∧ s.dev.pageEntry 0 = e ∧
      (let d0 := s.dev.mendCtr s.dram f
       match d0.readLines s.dram (d0.ldDom ((d0.ldOfField 0).getD 0)) 0 (f * 4096 + 15 * 256) 4 (some (f * 4096 + 15 * 256, 15, 0)) [] with
       | some (d2, ls) => (ls.headD (0, 0)).2 != 2 && (d2.takeSheaves s.dram 0 1 0 .elasticMove fun g => g != f || true).isSome
       | none => false) = true := by
  unfold Dev.livePage; decide +kernel

theorem wit_Moves_fallow_not :
    let alone := on id
    (alone.dev.draining (alone.dev.pageEntry 0).frame = false ∧ alone.dev.move 0 = none) ∧
    (let s := drains { state := 1, frame := 2 ^ 18 + 7 }
     s.dev.draining (s.dev.pageEntry 0).frame = true ∧ s.dev.move 0 = none ∧ s.dev.nextWaits = false ∧ (s.dev.pageEntry 0).state ≠ 2) ∧
    (let e : Pme := { state := 2, frame := aFrame, soff := 15, scnt := 1 }
     let s := moving (aMove .fallowMove .queued) e (Ctr.all 3 0)
     s.dev.draining aFrame = false ∧ s.dev.move 0 = some (aMove .fallowMove .queued) ∧ s.dev.livePage 0 ∧ s.dev.pageEntry 0 = e) := by
  unfold Dev.livePage; decide +kernel

/-- A ready move of page 0, found with entry `e`. -/
def readyMove (k : MoveKind) (t : MoveTarget) (e : Pme) : Move :=
  { aMove k .ready with entry := e.num, snap := ((Ctr.all 3 0).major.toNat, (Ctr.all 3 0).minors.toNat), target := t, frame := 2 ^ 20 + 5, soff := 15, scnt := 1 }

theorem wit_Moves_commit :
    ∀ k ∈ [(MoveKind.relocate, MoveTarget.sward), (.demote, .bare), (.demote, .poisoned), (.demote, .fallow)],
      let x := readyMove k.1 k.2 sward
      let s := moving x sward (Ctr.all 3 0)
      s.dev.move 0 = some x ∧ mapOf s = true ∧ s.dev.livePage 0 ∧ (s.dev.pageEntry 0).sameStorage (pmeOf sward.num) = true ∧ s.dev.ldKeyId 0 = 0 ∧
      s.dev.unsentTo aFrame = false ∧ s.dev.sameCounters s.dram aFrame x.snap = true ∧ s.dev.pageBusy 0 = false ∧ s.dev.pageValid 0 = false ∧
      s.dev.tableApart 0 aFrame := by
  unfold Dev.livePage Dev.tableApart; decide +kernel

def aSlot : Pme := { state := 2, frame := 2 ^ 20, soff := 15, scnt := 1 }
theorem wit_Moves_commit_fallow :
    let s := moving (readyMove .fallowMove .sward aSlot) aSlot (Ctr.all 3 0) sheaved
    s.dev.move 0 = some (readyMove .fallowMove .sward aSlot) ∧ mapOf s = true ∧ s.dev.livePage 0 ∧ (s.dev.pageEntry 0).sameStorage (pmeOf aSlot.num) = true ∧ s.dev.pageBusy 0 = false ∧
      s.dev.ted.uses = [(2 ^ 19 + 9, .sheafMap 0 512), (2 ^ 20, .sheaves 0)] ∧ s.dev.tableApart 0 (2 ^ 20) ∧ s.dev.tableApart 0 (2 ^ 19 + 9) := by
  unfold Dev.livePage Dev.tableApart; decide +kernel

theorem wit_Moves_commit_not :
    (∀ k ∈ [(MoveKind.relocate, MoveTarget.sward), (.demote, .bare)],
      let x := readyMove k.1 k.2 { sward with frame := aFrame + 1 }
      let s := moving x sward (Ctr.all 3 0)
      s.dev.move 0 = some x ∧ mapOf s = true ∧
      ¬ (s.dev.livePage 0 ∧ (s.dev.pageEntry 0).sameStorage (pmeOf x.entry) = true ∧ s.dev.ldKeyId 0 = 0) ∧ s.dev.tableApart 0 (2 ^ 20 + 5)) ∧
    mapOf (moving (readyMove .relocate .sward sward) sward (Ctr.all 3 0) mapFull) = false ∧ (on id).dev.move 0 = none := by
  unfold Dev.livePage Dev.tableApart; decide +kernel
theorem wit_PoolAndWatermarks :
    let p (f : Dev → Dev) := on fun d => f ((d.setFld (.tedPool 15) F.tedPool_BASE 1).setFld (.tedPool 15) F.tedPool_SIZE 1)
    let en (d : Dev) := d.setFlag (.tedPool 15) F.tedPool_EN true
    let fits (s : State) := 0 < (s.dev.poolSpan 15).2 ∧ s.dev.covered (s.dev.poolSpan 15).1 (s.dev.poolSpan 15).2 = true ∧
        (∀ j < 16, j ≠ 15 → s.dev.poolEn j = true →
          overlaps (s.dev.poolSpan 15).1 (s.dev.poolSpan 15).2 (s.dev.poolSpan j).1 (s.dev.poolSpan j).2 = false) ∧
        overlaps (s.dev.poolSpan 15).1 (s.dev.poolSpan 15).2 s.dev.ftab (2 ^ 30) = false ∧
        (∀ n < 16, s.dev.winEn n = true →
          overlaps (s.dev.poolSpan 15).1 (s.dev.poolSpan 15).2 (s.dev.flatRange n).1 (s.dev.flatRange n).2 = false) ∧
        s.dev.hitsCounters (s.dev.poolSpan 15).1 (s.dev.poolSpan 15).2 = false
    ((p (setUp 1024)).reaches (.tedPool 15) ∧ (p (setUp 1024)).dev.poolEn 15 = false ∧ fits (p (setUp 1024)) ∧
      (p (setUp 1024)).dev.freeFrames + ((p (setUp 1024)).dev.poolSpan 15).2 / 4096 < 2 ^ 64) ∧
    ¬ fits (p id) ∧
    ((p en).reaches (.tedPool 15) ∧ (p en).dev.poolEn 15 = true ∧ (p en).dev.flag (.tedPool 15) F.tedPool_DRAIN = false) ∧
    (let used (s : State) := ∃ p ∈ s.dev.ted.uses, (s.dev.poolSpan 15).1 / 4096 ≤ p.1 ∧
       p.1 < (s.dev.poolSpan 15).1 / 4096 + (s.dev.poolSpan 15).2 / 4096
     let due (s : State) := s.dev.poolEn 15 = true ∧ s.dev.flag (.tedPool 15) F.tedPool_DRAIN = true ∧
       s.dev.flag (.tedPool 15) F.tedPool_DRAINED = false ∧ ¬ used s
     let of (u : List (Nat × FrameUse)) := p fun d =>
       let d := (en d).setFlag (.tedPool 15) F.tedPool_DRAIN true; { d with ted := { d.ted with uses := u } }
     due (of []) ∧ due (of [(2 ^ 19, .sheaves 3)]) ∧ ¬ due (of [(2 ^ 18, .sheaves 3)]) ∧ ¬ due (of [(2 ^ 19 - 1, .sheaves 3)])) ∧
    (let s := p fun d => (en d).setFlag (.tedPool 15) F.tedPool_DRAINED true
     s.reaches (.tedPool 15) ∧ s.dev.poolEn 15 = true ∧ s.dev.flag (.tedPool 15) F.tedPool_DRAINED = true) ∧
    (on id).reaches .tedWm ∧ (on id).dev.relMode = false ∧
    (let s := on fun d =>
      let d := (d.setFlag .tedPoolStat F.tedPoolStat_REL true).wr (.tedLduse 15) 1
      { d with hp := { d.hp with extents := [(15, [{ first := 3, fields := 1, tag := 0 }])] } }
     s.dev.relMode = true ∧ s.dev.elasticFree < wmFrames (s.dev.fld .tedWm F.tedWm_LOW) ∧
      (∀ n < 16, n ≠ 15 → s.dev.foot n ≤ 16 * s.dev.quotaFrames n) ∧ 16 * s.dev.quotaFrames 15 < s.dev.foot 15 ∧
      (s.dev.extents 15).getLast? = some { first := 3, fields := 1, tag := 0 } ∧
      (kvGet (fun _ => []) s.dev.logs.recs (15 * 5 + 4)).length < 256) := by
  refine ⟨⟨reaches_of _ _ (by decide), by decide, by decide +kernel, by decide +kernel⟩, by decide +kernel,
    ⟨reaches_of _ _ (by decide), by decide, by decide⟩, by decide +kernel, ⟨reaches_of _ _ (by decide), by decide, by decide⟩,
    reaches_of _ _ (by decide), by decide, by decide +kernel⟩
/-- A running die whose cipher units are `f` of those after reset. -/
def onCip (f : Cipher → Cipher) : State := on fun d => { d with cip := f d.cip }

def aJob (id : Nat) (cls : JobClass) (baler : Option Nat) (started : Bool) : BalJob :=
  { id := id, cls := cls, why := .move 0, q := 3, unit := 16 + 3, baler := baler, started := started, bytes := [] }
def onJobs (l : List BalJob) : State := on fun d => { d with bal := { d.bal with jobs := l } }

theorem wit_BalersAndCipher_jobs :
    (let s := onJobs [aJob 1 .readDecode (some 31) true, aJob 2 .compression none false]
     (s.dev.nextWaiting [] s.dev.bal.jobs).map (·.1) = some (aJob 2 .compression none false)) ∧
    (onJobs [aJob 1 .readDecode (some 31) true]).dev.nextWaiting [] [aJob 1 .readDecode (some 31) true] = none ∧
    (let mine (s : State) := s.dev.bal.jobs.filter fun j => j.baler == some 31
     let runs (s : State) := (mine s).filter (·.started)
     let ready (s : State) := (mine s).filter fun j => !j.started && ((runs s).isEmpty || j.cls != .compression)
     let stuck (s : State) := s.dev.balFaulted 31 = true ∨ (∃ j ∈ runs s, j.cls ≠ .compression) ∨ ready s = []
     ¬ stuck (onJobs [aJob 1 .compression (some 31) false, aJob 2 .readDecode (some 31) false]) ∧
     ¬ stuck (onJobs [aJob 1 .compression (some 31) true, aJob 2 .promoDecode (some 31) false]) ∧
     stuck (onJobs [aJob 1 .compression (some 31) true, aJob 2 .compression (some 31) false]) ∧
     stuck (onJobs [aJob 1 .readDecode (some 31) true, aJob 2 .promoDecode (some 31) false])) ∧
    (∀ cls ∈ [JobClass.readDecode, .promoDecode, .compression], let s := onJobs [aJob 1 cls (some 31) true]
      s.dev.jobNow 31 = some (aJob 1 cls (some 31) true) ∧ s.dev.balFaulted 31 = false) ∧
    (onJobs [aJob 1 .compression (some 31) false]).dev.jobNow 31 = none := by decide +kernel

/-- A page is compressed within a large enough budget; a page whose first sheaf is poisoned is not decoded. -/
theorem wit_BalersAndCipher_coded :
    (∀ page, ∃ budget, (compressPage page 0 0 budget 0 false).isSome = true) ∧
    (match decodeSwath [] [true] 1 0 with | .error e => decide (e = 8) | .ok _ => false) = true := by
  refine ⟨fun page => ⟨16 + ((pageForms page 0 0 0 0 false).2.2.map (·.bytes.length)).sum, ?_⟩, by decide +kernel⟩
  have h : ∀ b, pageForms page 0 0 b 0 false = pageForms page 0 0 0 0 false := fun b => by simp [pageForms]
  rw [compressPage, h]
  generalize pageForms page 0 0 0 0 false = f
  obtain ⟨g, r, fs⟩ := f
  simp only
  rw [if_neg (by omega)]
  rfl

/-- A stored swath of zeros (Table 7.5), as the last of a page whose header puts it at byte 19. -/
def storedPage : List Nat :=
  toBytes 8 (1 + 5 * 2 ^ 9 + 17 * 2 ^ 16 + 18 * 2 ^ 28 + 19 * 2 ^ 40 + 1044 * 2 ^ 52) ++ List.replicate 11 0 ++ 0xE0 :: List.replicate 1024 0

theorem decodeStream_stored (l : List Nat) (h : l.length = 1024) :
    decodeStream 0 (0xE0 :: l) = .ok ((List.range 16).map fun i => ofBytes ((l.drop (64 * i)).take 64)) := by
  have hl : (bitsOfBytes l).length = 8192 := by
    have : ∀ l : List Nat, (bitsOfBytes l).length = 8 * l.length := by
      intro l
      induction l with
      | nil => rfl
      | cons x l ih => simp only [bitsOfBytes, List.flatMap_cons, List.length_append, List.length_cons] at ih ⊢; simp [msbBits, ih]; omega
    rw [this, h]
  have hb : bitsOfBytes (0xE0 :: l) = true :: true :: true :: false :: false :: false :: false :: false :: bitsOfBytes l := rfl
  have h1 : readBits 5 (bitsOfBytes (0xE0 :: l)) = .ok (28, false :: false :: false :: bitsOfBytes l) := by
    simp [readBits, hb, b2n]
  have h2 : readBits 3 (false :: false :: false :: bitsOfBytes l) = .ok (0, bitsOfBytes l) := by
    simp [readBits, b2n]
  simp [decodeStream, h1, h2, hl, endCheck, List.drop_of_length_le (Nat.le_of_eq hl)]

theorem swathCheck_zeros (n : Nat) : swathCheck (List.replicate n 0) = 0 := by
  have hz : ∀ i, (List.replicate n 0).getD i 0 = 0 := fun i => by
    rw [List.getD_eq_getElem?_getD, List.getElem?_replicate]; split <;> rfl
  have h : ∀ l : List Nat, l.foldl (fun n _ => n) 0 = 0 := fun l => by
    induction l with
    | nil => rfl
    | cons _ _ ih => exact ih
  simp only [swathCheck, hz, Nat.add_zero, Nat.mul_zero, h, Nat.zero_mod]

theorem test_stored_swath :
    (match decodeSwath storedPage [] 5 3 with | .ok x => decide (x = List.replicate 16 0) | .error _ => false) = true := by
  have hh : readHead storedPage 5 = some { grain := 0, offs := [16, 17, 18, 19, 1044], chk := [0, 0, 0, 0] } := by decide +kernel
  have hd : (storedPage.drop 19).take (1044 - 19) = 0xE0 :: List.replicate 1024 0 := by decide +kernel
  have hc : (List.range 16).map (fun i => ofBytes (((List.replicate 1024 0).drop (64 * i)).take 64)) = List.replicate 16 0 := by decide +kernel
  have hb : swathBytes (List.replicate 16 0) = List.replicate 1024 0 := by decide +kernel
  have hr := decodeStream_stored (List.replicate 1024 0) (List.length_replicate ..)
  rw [hc] at hr
  rw [decodeSwath, hh]
  simp only [List.headD_nil, Bool.false_eq_true, if_false, List.getD_cons_succ, List.getD_cons_zero, Nat.reduceAdd, hd, hr, hb, swathCheck_zeros, List.getD_nil,
    Bool.false_and, if_true, List.any_eq_true, Bool.false_eq_true, and_false, exists_false, decide_true]


theorem wit_BalersAndCipher_regs :
    (on id).reaches .balFault ∧ (on id).reaches .balEn ∧
    ((∃ k < 32, bitOf (2 ^ 31) k = true ∧ (on id).dev.balFaulted k = false) ∧ ¬ ∃ k < 32, bitOf 0 k = true ∧ (on id).dev.balFaulted k = false) :=
  ⟨reaches_of _ _ (by decide), reaches_of _ _ (by decide), by decide⟩

theorem wit_BalersAndCipher_reenc :
    (let a : Access := { id := 5, own := .none, kind := .write, sa := 64, dom := .device, parked := true }
     let s := onCip fun c => { c with accs := [a] }
     s.dev.reencUsed 0 < 16 ∧ (s.dev.cip.accs.find? fun a => a.parked && s.dev.frameOwner (a.sa / 4096) == 0) = some a) ∧
    (let r : ReEnc := { frame := 2 ^ 36 - 1, q := 3, old := Ctr.all 0 127, done := 0, dom := .device }
     16 ≤ (onCip fun c => { c with reencs := List.replicate 16 r }).dev.reencUsed 3 ∧
     (onCip fun c => { c with reencs := [r] }).dev.reencOf (2 ^ 36 - 1) = some r ∧ (on id).dev.reencOf (2 ^ 36 - 1) = none) := by decide +kernel

theorem wit_BalersAndCipher_sweep :
    let sweeps (w : Bool) (r : List ReEnc) := on fun d =>
      (((d.setFlag (.cipLdkey 15) F.cipLdkey_SWEEP true).setFlag (.gblLdwin 15) F.gblLdwin_EN w).setFld (.gblLdwin 15) F.gblLdwin_FIELDS 1).setFld
        (.tedLdcap 15) F.tedLdcap_COMMIT 1 |>.modCip fun c => { c with reencs := r }
    let busy (s : State) := s.dev.winEn 15 = true ∧ (s.dev.jobIn fun f =>
      decide (s.dev.winBase 15 ≤ f) && decide (f < s.dev.winBase 15 + s.dev.winFields 15)) = true
    (∀ w ∈ [false, true], (sweeps w []).dev.flag (.cipLdkey 15) F.cipLdkey_SWEEP = true ∧ ¬ busy (sweeps w [])) ∧
    busy (sweeps true [{ frame := 511, q := 3, old := Ctr.all 0 127, done := 0, dom := .device }]) := by decide +kernel

theorem wit_BalersAndCipher_returns :
    let o : CwOut := .uncorrectable { data := 0, md := 0 }
    ∀ r ∈ [ChRet.read (.acc 5) o, .accepted (.acc 5), .read (.ley 1 2 3 4) o, .accepted (.ley 1 2 3 4), .notServed (.ley 1 2 3 4)],
      ((on (·.modChn 23 fun ch => { ch with rets := [r] })).dev.chn 23).rets = r :: [] := by decide +kernel

/-- The counter line of frame 7 lies in the channel's queue when its merge finds it. -/
def mergeSa : Nat := 16 * 2 ^ 30 - 16 * 2 ^ 24 + 7 * 64
def mergeCopy : CtrCopy := { frame := 7, q := 3, ctr := Ctr.all 3 1, changed := 1 }
def toMerge (p : Payload) (d : Dev) : Dev :=
  { d.modChn 0 fun ch => { ch with cmds := [{ write := true, ca := mergeSa, use := .fire, data := p }] } with
    cip := { d.cip with merges := [mergeCopy] } }
def merging : State := on fun d => toMerge (counterPayload 0 mergeSa (Ctr.all 3 0)) (media d)

theorem wit_BalersAndCipher_merge :
    (on id).dev.cip.merges = [] ∧ merging.up = true ∧ merging.dev.cip.merges = mergeCopy :: [] ∧
    ((merging.dev.modCip fun y => { y with merges := [] }).count .ctrMerge 3).storedCtr merging.dram 7 = .ok (Ctr.all 3 0) := by
  refine ⟨by decide, by decide +kernel, by decide +kernel, ?_⟩
  generalize hd : (merging.dev.modCip fun y => { y with merges := [] }).count .ctrMerge 3 = d
  have hk : d.cip.devKey = 0 := by rw [← hd]; decide +kernel
  have ha : d.ctrSaOf 7 = some mergeSa := by rw [← hd]; decide +kernel
  have hp : d.place mergeSa = .here 0 mergeSa := by rw [← hd]; decide +kernel
  have hc : (d.chn 0).cmds = [{ write := true, ca := mergeSa, use := .fire, data := counterPayload 0 mergeSa (Ctr.all 3 0) }] := by
    have : d.chan = (toMerge (counterPayload 0 mergeSa (Ctr.all 3 0)) (on media).dev).chan := by rw [← hd]; rfl
    rw [Dev.chn, this]
    have hl : (on media).dev.chan.length = 24 := by decide +kernel
    cases hx : (on media).dev.chan with
    | nil => simp [hx] at hl
    | cons c l => simp [toMerge, Dev.modChn, hx]
  have hn : d.peek merging.dram mergeSa = some (.clean (counterPayload 0 mergeSa (Ctr.all 3 0))) := by
    simp only [Dev.peek, hp, Chan.newest, hc, List.reverse_singleton, List.findSome?_cons, and_self, if_true]
  have hs := d.settleCtr_payload mergeSa (Ctr.all 3 0)
  rw [hk] at hs
  simp only [Dev.storedCtr, ha, hn, hs]

/-- Channel `c` in STATE `st`, with ranks 0 to 3 mapped and the others unused. -/
def chan (c st : Nat) (d : Dev) : Dev :=
  ((((d.setFld (.chnStat c) F.chnStat_STATE st).setFld (.chnStat c) F.chnStat_RATE 5).wr (.chnRankmap c) 0xBA98).wr (.chnRankstat c) 0o1111)
def onCh (c st : Nat) (f : Chan → Chan) : State := on fun d => (chan c st d).modChn c f

/-- An entry of the channel command crossing for channel address 64 × `line`. -/
def entry (write : Bool) (line : Nat) : ChEnt := { write := write, ca := line * 64, use := .acc 7 }

/-- Subchannel 0 becomes `f` of an empty one. -/
def sub0 (f : SubCh → SubCh) (ch : Chan) : Chan := { ch with subs := [f {}, {}] }

theorem wit_ChannelTraffic_state :
    (let s := onCh 23 3 id
     s.up = true ∧ 23 < s.dev.chan.length ∧ (s.dev.chn 23).subs.length = 2) := by decide +kernel

theorem wit_ChannelTraffic_entry :
    (∀ w ∈ [false, true], let s := onCh 23 3 fun ch => { ch with cmds := [entry w 1] }
      (s.dev.chn 23).cmds = [entry w 1] ∧ s.dev.chState 23 = 3 ∧ (s.dev.steer 23 (entry w 1)).length = 1 ∧
      (∀ x ∈ s.dev.steer 23 (entry w 1), x.sub < 2)) := by decide +kernel

theorem wit_ChannelTraffic_full :
    (let s := onCh 23 3 fun ch => { ch with cmds := [entry false 1], subs := List.replicate 2 { rdq := List.replicate 64 (entry false 1) } }
     ∀ x ∈ s.dev.steer 23 (entry false 1), 64 ≤ ((s.dev.chn 23).sub x.sub).rdq.length) := by decide +kernel

theorem wit_ChannelTraffic_unserved :
    (let s := onCh 23 5 fun ch => { ch with cmds := [entry false 1] }
     (s.dev.chn 23).cmds = [entry false 1] ∧ s.dev.chState 23 ≠ 3 ∧ s.dev.chState 23 ≠ 7) ∧
    (let s := onCh 23 3 id
     s.dev.steer 23 (entry false (2 ^ 40)) = [] ∧ (s.dev.chn 23).cmds = []) := by decide +kernel

theorem wit_ChannelTraffic_issue :
    (∀ w ∈ [false, true], let e := { entry w 0 with rank := 0, bank := 5, row := 9 }
      let s := onCh 23 3 (sub0 fun b => { b with rdq := if w then [] else [e], wrq := if w then [e] else [], drain := w, rows := [(5, 9)] })
      let sub := (s.dev.chn 23).sub 0
      s.dev.chState 23 = 3 ∧ (s.dev.chn 23).fchg = .idle ∧ (s.dev.chn 23).refForced = [] ∧ (s.dev.chn 23).ref.running = false ∧
      s.dev.rfmOn 23 = false ∧ sub.nrq = [] ∧ (s.dev.chn 23).maint = [] ∧ sub.inOrder = [] ∧
      (if sub.drain then sub.wrq else sub.rdq) = [] ++ e :: [] ∧
      (∀ x ∈ sub.queued, x.age < s.dev.ageMax 23 ∧ s.dev.rankState 23 x.rank ≠ 6 ∧ s.dev.poweredDown 23 x.rank = false) ∧
      sub.openRow e.bank = some e.row ∧ sub.restore = [] ∧ (s.dev.chn 23).failing = [] ∧ (s.dev.chn 23).scrubEnd = false ∧
      (s.dev.selectCmd 23 0 []).isSome = true ∧ ∃ x ∈ sub.queued, x.bank = 5 ∧ x.row = 9) ∧
    (onCh 23 3 id).dev.selectCmd 23 0 [] = none := by decide +kernel

theorem wit_ChannelTraffic_maintenance :
    ∀ zq ∈ [false, true], let m : Maint := { zq := zq, rank := 3 }
      let s := onCh 23 3 fun ch => { ch with maint := [m] }
      (s.dev.chn 23).refForced = [] ∧ ((s.dev.chn 23).sub 1).queued = [] ∧ (s.dev.chn 23).maint = m :: [] ∧ 1 ∈ m.left ∧
      s.dev.poweredDown 23 m.rank = false := by decide +kernel

theorem wit_ChannelTraffic_idle :
    (let sub := ((onCh 23 3 (sub0 fun b => { b with rows := [(5, 9)] })).dev.chn 23).sub 0
     sub.openRow 5 = some 9 ∧ ∀ x ∈ sub.queued, ¬ (x.bank = 5 ∧ x.row = 9)) := by decide +kernel

theorem wit_ChannelTraffic_refresh :
    (0 ∈ (onCh 23 3 id).dev.refreshedRanks 23 ∧ 3 ∈ (onCh 23 3 id).dev.refreshedRanks 23) := by decide +kernel

theorem wit_ChannelTraffic_read :
    (let s := onCh 23 3 (sub0 fun b => { b with flight := [entry false 0] })
     ((s.dev.chn 23).sub 0).flight = entry false 0 :: [] ∧ s.dev.codewordIgnored s.dram 23 0 = false) ∧
    ((onCh 23 3 id).dev.chn 23).sub 1 = {} := by decide +kernel

/-- A codeword with no error and with one symbol wrong, and a burst of zeros. -/
theorem wit_ChannelTraffic_codeword :
    let o (err : Nat) := decodeWord false (encode { data := 1, md := 0 } ^^^ BitVec.ofNat 640 (unburst false err))
    (match o 0 with | .clean _ => true | _ => false) = true ∧ (match o 1 with | .corrected _ _ => true | _ => false) = true ∧
    (match decodeWord false 0 with | .uncorrectable _ => true | _ => false) = true := by decide +kernel

theorem wit_ChannelTraffic_scrub :
    let at_ (r line : Nat) (n : Nat) := on fun d =>
      ((((chan 23 3 d).wr (.chnRankmap 23) 0xBA98).setFld (.chnScrubPos 23) F.chnScrubPos_RANK r).setFld (.chnScrubPos 23) F.chnScrubPos_LINE
        line).modChn 23 fun ch => { ch with subs := List.replicate 2 { rdq := List.replicate n { entry false 0 with use := .scrub } } }
    let next (s : State) := s.dev.scrubFrom 23 (s.dev.fld (.chnScrubPos 23) F.chnScrubPos_RANK) (s.dev.fld (.chnScrubPos 23) F.chnScrubPos_LINE)
    let waits (s : State) := s.dev.flag (.chnScrub 23) F.chnScrub_EN = false ∨ s.dev.chState 23 ≠ 3 ∨ (s.dev.chn 23).scrubEnd = true ∨
      s.dev.nowNs < (s.dev.chn 23).scrub.start
    let room (s : State) (k : Nat) := (((s.dev.chn 23).sub k).rdq ++ ((s.dev.chn 23).sub k).flight).countP (fun y => y.use == .scrub) < 4 ∧
      ((s.dev.chn 23).sub k).rdq.length < 64
    let last := (at_ 0 0 0).dev.rankLines 23 - 1
    waits (onCh 23 5 id) ∧
    (∀ p ∈ [(0, 0), (3, last)], let s := at_ p.1 p.2 0
      ¬ waits s ∧ next s = some p ∧ room s 0 ∧ room s 1 ∧
      let xs := s.dev.steer 23 { write := false, ca := (p.1 <<< (s.dev.amap 23).rankBits ||| p.2) * 64, use := .scrub, src := .scrub }
      xs.length = 1 ∧ ∀ x ∈ xs, x.sub < 2) ∧
    (∀ k < 2, ¬ room (at_ 0 0 4) k) ∧ (at_ 0 0 0).dev.scrubFrom 23 0 1 = some (0, 1) ∧ (at_ 0 0 0).dev.scrubFrom 23 3 (last + 1) = none ∧
    next (at_ 7 0 0) = none ∧ ¬ waits (at_ 7 0 0) := by decide +kernel

theorem wit_ChannelTraffic_copy :
    (let s := on fun d => ((chan 23 3 d).wr (.chnRankstat 23) 0o43111).setFld (.chnSpare 23) F.chnSpare_STATE 1
     s.dev.rankIn 23 3 = some 3 ∧ s.dev.spareState 23 = 1 ∧ (s.dev.chn 23).copyEnded = false ∧ (s.dev.chn 23).copyNext < s.dev.rankLines 23 ∧
      (s.dev.chn 23).copyNext < s.dev.copyPtr 23 + 64) := by decide +kernel

theorem wit_ChannelTraffic_accepted :
    (let a : Access := { id := 7, own := .txn 3, kind := .write, sa := 64, dom := .device }
     let s := on fun d => { (chan 23 3 d).modChn 23 fun ch => { ch with rets := [.accepted (.acc 7)] } with cip := { d.cip with accs := [a] } }
     (s.dev.chn 23).rets = .accepted (.acc 7) :: [] ∧ (s.dev.cip.accs.find? fun a => a.id == 7) = some a) := by decide +kernel

theorem wit_ChannelTraffic_power :
    (let s := onCh 23 3 id
     s.dev.flag (.chnPwr 23) F.chnPwr_PD_EN = true ∧ 0 ∈ s.dev.refreshedRanks 23 ∧ s.dev.rfmOn 23 = false ∧
      (∀ x ∈ (s.dev.chn 23).subs, x.nrq = [] ∧ x.nrOpen = none ∧ (∀ y ∈ x.queued, y.rank ≠ 0) ∧ ∀ y ∈ x.rows, rankOfKey y.1 ≠ 0) ∧
      (∀ k ∈ (s.dev.chn 23).refForced, k.1 % 8 ≠ 0) ∧ (∀ m ∈ (s.dev.chn 23).maint, m.rank ≠ 0) ∧ s.dev.poweredDown 23 0 = false) := by decide +kernel

theorem wit_ChannelTraffic_zq :
    (let s := on fun d => (chan 23 3 d).wr (.chnPop 23) (2 ^ 31 + 2 ^ 15)
     bitsOf (s.dev.rd (.chnPop 23)) 15 0 ≠ 0 ∧ bitsOf (s.dev.rd (.chnPop 23)) 31 16 ≠ 0 ∧ s.dev.rankState 23 0 ≠ 0 ∧ s.dev.rankState 23 0 ≠ 5) := by decide +kernel

theorem wit_ChannelStates :
    (∀ b ∈ [false, true], let s := onCh 23 2 fun ch => { ch with storedPath := b }
      s.up = true ∧ 23 < s.dev.chan.length ∧ s.dev.chState 23 = 2 ∧ (s.dev.chn 23).storedPath = b) ∧
    (∀ n ∈ [0, 2], let s := on fun d => (chan 23 2 d).setFld (.chnStat 23) F.chnStat_FALLBACK n
      (s.dev.fld (.chnStat 23) F.chnStat_FALLBACK < 2 ∧
        (if s.dev.fld (.chnStat 23) F.chnStat_RATE ≤ 5 then 1 else 6) < s.dev.fld (.chnStat 23) F.chnStat_RATE) ↔ n = 0) ∧
    ((onCh 23 3 fun ch => { ch with recordDue := true }).dev.chn 23).recordDue = true ∧ (onCh 23 3 id).dev.mgt.restarting = false ∧
    (kvGet (fun _ => []) (on id).dev.logs.recs 81).length < 256 ∧
    (let s (v : Nat) := on fun d => ((((chan 23 3 d).setFlag (.chnSpare 23) F.chnSpare_EN true).setFld (.chnSpare 23) F.chnSpare_RANK 3).setFld
       (.chnSpare 23) F.chnSpare_SRC 0).wr (.chnRankstat 23) v
     (s 0o2111).reaches (.chnSpare 23) ∧ (s 0o2111).dev.spareRefusal 23 0 = none ∧ (s 0o2111).dev.fld (.chnSpare 23) F.chnSpare_RANK ≠ 0 ∧
      (s 0o2116).dev.spareRefusal 23 0 = some 3 ∧ (s 0o2111).dev.rankState 23 0 = 1 ∧ (s 0o2116).reaches (.chnSpare 23) ∧
      (s 0o2116).dev.rankState 23 0 ≠ 1) ∧
    (let s := on fun d => (((chan 23 3 d).wr (.chnRankstat 23) 0o43111).setFld (.chnSpare 23) F.chnSpare_STATE 1).setFld (.chnSpareCp 23)
       F.chnSpareCp_CP (2 ^ 32)
     s.dev.rankIn 23 3 = some 3 ∧ s.dev.rankIn 23 4 = some 4 ∧ s.dev.spareState 23 = 1 ∧ s.dev.rankLines 23 ≤ s.dev.copyPtr 23 ∧
      ((List.range 8).find? fun k => s.dev.physRank 23 k == some 3) = some 3 ∧ 4 ∉ (s.dev.chn 23).failing) ∧
    (let s := on fun d => ((chan 23 3 d).setFld (.chnTim0 23 1) F.chnTim0_RATE 4).setFld (.chnTrain 23) F.chnTrain_TRATE 4
     s.reaches (.chnFchg 23) ∧ s.dev.fchgRefusal 23 = 0) ∧
    ((on id).reaches (.chnFchg 23) ∧ (on id).dev.fchgRefusal 23 ≠ 0) ∧
    (∀ p ∈ [FchgPhase.idle, .changing, .returning], ((onCh 23 7 fun ch => { ch with fchg := p }).dev.chn 23).fchg = p) ∧
    (onCh 23 7 id).dev.chState 23 = 7 := by
  refine ⟨by decide, by decide, by decide, by decide, by decide, ⟨reaches_of _ _ (by decide), by decide +kernel, by decide, by decide +kernel, by decide +kernel, reaches_of _ _ (by decide), by decide +kernel⟩,
    by decide +kernel, ⟨reaches_of _ _ (by decide), by decide +kernel⟩, ⟨reaches_of _ _ (by decide), by decide +kernel⟩, by decide, by decide⟩
/-- Ring 7 of set 15, whose LD head 7 serves; `f` then changes the die. -/
def ringed (f : Dev → Dev) : State := on fun d => f (hosted 3 d)

theorem wit_RingRegisters_rings :
    let cr (d : Dev) := (d.setFlag (.rngCrCtrl 15 7) F.rngCrCtrl_EN true).setFld (.rngCrCtrl 15 7) F.rngCrCtrl_SIZE 16
    let cq (d : Dev) := (d.setFlag (.rngCqCtrl 15 7) F.rngCqCtrl_EN true).setFld (.rngCqCtrl 15 7) F.rngCqCtrl_SIZE 16
    let fits (s : State) := 4 ≤ s.dev.fld (.rngCrCtrl 15 7) F.rngCrCtrl_SIZE ∧ s.dev.fld (.rngCrCtrl 15 7) F.rngCrCtrl_SIZE ≤ 16 ∧
      s.dev.cqEn 15 (s.dev.fld (.rngCrCtrl 15 7) F.rngCrCtrl_CQ) = true ∧ s.dev.bound 15 = true
    let wanted (s : State) := (∃ k < 8, s.dev.crEn 15 k = true ∧ s.dev.fld (.rngCrCtrl 15 k) F.rngCrCtrl_CQ = 7) ∨
      (∃ c ∈ s.dev.rng.run, c.set = 15 ∧ c.cq = 7) ∨ (∃ f ∈ s.dev.rng.fin, f.set = 15 ∧ f.cq = 7) ∨
      ∃ k < 8, s.dev.fld (.rngCrCtrl 15 k) F.rngCrCtrl_CQ = 7 ∧ s.dev.prefetched 15 k ≠ []
    ((ringed id).reaches (.rngCrCtrl 15 7) ∧ (ringed id).dev.crEn 15 7 = false ∧ ¬ fits (ringed id)) ∧
    (let s := ringed fun d => (cq d).setFld (.rngCrCtrl 15 7) F.rngCrCtrl_CQ 7
     s.reaches (.rngCrCtrl 15 7) ∧ s.dev.crEn 15 7 = false ∧ fits s) ∧
    ((ringed cr).reaches (.rngCrCtrl 15 7) ∧ (ringed cr).dev.crEn 15 7 = true) ∧
    (∀ z ∈ [4, 16], let s := ringed fun d => d.setFld (.rngCqCtrl 15 7) F.rngCqCtrl_SIZE z
      s.dev.cqEn 15 7 = false ∧ s.dev.fld (.rngCqCtrl 15 7) F.rngCqCtrl_SIZE = z) ∧
    (ringed id).reaches (.rngCqCtrl 15 7) ∧
    (let s := ringed fun d => d.setFld (.rngCqCtrl 15 7) F.rngCqCtrl_SIZE 17
     s.reaches (.rngCqCtrl 15 7) ∧ s.dev.cqEn 15 7 = false ∧ 16 < s.dev.fld (.rngCqCtrl 15 7) F.rngCqCtrl_SIZE) ∧
    ((ringed cq).reaches (.rngCqCtrl 15 7) ∧ (ringed cq).dev.cqEn 15 7 = true ∧ ¬ wanted (ringed cq)) ∧
    (let s := ringed fun d => (cr (cq d)).setFld (.rngCrCtrl 15 7) F.rngCrCtrl_CQ 7
     s.reaches (.rngCqCtrl 15 7) ∧ s.dev.cqEn 15 7 = true ∧ wanted s) :=
  ⟨⟨reaches_of _ _ (by decide +kernel), by decide +kernel, by decide +kernel⟩, ⟨reaches_of _ _ (by decide +kernel), by decide +kernel, by decide +kernel⟩,
   ⟨reaches_of _ _ (by decide +kernel), by decide +kernel⟩, by decide +kernel, reaches_of _ _ (by decide +kernel), ⟨reaches_of _ _ (by decide +kernel), by decide +kernel, by decide +kernel⟩,
   ⟨reaches_of _ _ (by decide +kernel), by decide +kernel, by decide +kernel⟩, reaches_of _ _ (by decide +kernel), by decide +kernel, by decide +kernel⟩

theorem wit_RingRegisters_queues :
    let cr (d : Dev) := (d.setFlag (.rngCrCtrl 15 7) F.rngCrCtrl_EN true).setFld (.rngCrCtrl 15 7) F.rngCrCtrl_SIZE 4
    let cq (d : Dev) := d.setFlag (.rngCqCtrl 15 7) F.rngCqCtrl_EN true
    let f : RingFin := { id := 1, set := 15, ring := 7, chead := 1, cq := 7, ld := 15, tag := 0, irq := true, status := 0 }
    let fin (l : List RingFin) (d : Dev) := { cq d with rng := { d.rng with fin := l } }
    ((ringed cr).dev.crEn 15 7 = true ∧ (ringed cr).dev.crSlots 15 7 ≤ 16 ∧ (ringed cr).reaches (.rngCrTail 15 7) ∧ 15 < (ringed cr).dev.crSlots 15 7 ∧
      (ringed cr).dev.crAhead 15 7 ((ringed cr).dev.crTail 15 7) ≤ (ringed cr).dev.crAhead 15 7 15) ∧
    (let s := ringed fun d => { cr d with rng := { d.rng with fetched := [(15 * 8 + 7, 15, [0])] } }
     (s.dev.rng.fetched.find? fun f => f.1 == ringKey 15 7) = some (127, 15, [0]) ∧ s.dev.crSlots 15 7 ≤ 2 ^ 16) ∧
    (∀ full ∈ [false, true], let s := ringed fun d => (fin [f] d).setFld (.rngCqStat 15 7) F.rngCqStat_TAIL (if full then 15 else 0)
      (s.dev.rng.fin.find? fun f => !f.held) = some f ∧ s.dev.cqEn 15 7 = true ∧ s.dev.cqSlots 15 7 ≤ 2 ^ 16 ∧ s.dev.cqFull 15 7 = full) ∧
    (ringed cq).dev.cqHeadError 15 7 1 = true ∧
    ((ringed cq).reaches (.rngCqHead 15 7) ∧ (ringed cq).dev.cqEn 15 7 = true ∧ (ringed cq).dev.cqHeadError 15 7 0 = false ∧
      ∀ f ∈ (ringed cq).dev.rng.fin, f.set = 15 → f.cq = 7 → f.held = false) ∧
    (∀ t ∈ [false, true], ((ringed fun d => (cq d).setCoalesce 15 7 { count := 1, timer := t }).dev.coalesce 15 7).timer = t) :=
  ⟨⟨by decide +kernel, by decide +kernel, reaches_of _ _ (by decide +kernel), by decide +kernel, by decide +kernel⟩, by decide +kernel, by decide +kernel, by decide +kernel,
   ⟨reaches_of _ _ (by decide +kernel), by decide +kernel, by decide +kernel, by decide +kernel⟩, by decide +kernel⟩

/-- A descriptor of opcode `code` with its operands. -/
def descriptor (code a b n x : Nat) : Line := BitVec.ofNat 512 (code + a * 2 ^ 64 + b * 2 ^ 128 + n * 2 ^ 192 + x * 2 ^ 256)

def withDescriptor (x : Line) : State := ringed fun d => { d with rng := { d.rng with pre := [(127, [(15, x)])] } }

theorem wit_RingCommands :
    ∀ y ∈ [(RingOp.nop, descriptor 0 0 0 0 0, 0), (.setHint, descriptor 1 0 0 4096 0x100, 0), (.setHint, descriptor 1 0 0 0 0, 0),
      (.tierPolicy, descriptor 2 (127 * 2 ^ 21) 0 1 0x321, 0), (.compPolicy, descriptor 3 0 0 128 0x7000000, 0),
      (.promote, descriptor 4 0 0 1 0, 0), (.demote, descriptor 5 0 0 65536 0, 0), (.fill, descriptor 8 0 0 64 0, 0),
      (.zero, descriptor 9 (2 ^ 28 - 64) 0 64 0, 0), (.copy, descriptor 10 0 64 64 0, 0), (.sanitize, descriptor 11 0 0 4096 0, 0),
      (.capQuery, descriptor 16 0 0 0 0, 0), (.releaseAck, descriptor 17 0 0 1 0, 0), (.snapshot, descriptor 24 0 0 1 (2 ^ 63), 0),
      (.sampleCfg, descriptor 25 0 0 4096 (2 ^ 31 + 4), 0), (.fill, descriptor 8 1 0 64 0, 2), (.zero, descriptor 9 (2 ^ 28) 0 64 0, 3)],
      let s := withDescriptor y.2.1
      s.up = true ∧ s.dev.ringTurn = some (15, 7) ∧ s.dev.prefetched 15 7 = (15, y.2.1) :: [] ∧
      RingOp.ofCode (descField y.2.1 0 1) = some y.1 ∧ s.dev.samp.length = 16 ∧
      (match s.dev.takeCmd 15 7 y.1 with
       | some (c, e) => e.ringCheck y.1 c.ld c.a c.b c.n c.x == y.2.2
       | none => false) = true := by decide +kernel
theorem wit_RingRegisters_others :
    let f : RingFin := { id := 1, set := 15, ring := 7, chead := 1, cq := 7, ld := 15, tag := 0, irq := true, status := 0 }
    let done (en : Bool) (d : Dev) := { d.setFlag (.rngCqCtrl 15 7) F.rngCqCtrl_EN en with rng := { d.rng with fin := [f] } }
    ((ringed id).reaches (.rngCrTail 15 7) ∧ (ringed id).dev.crEn 15 7 = false) ∧
    ((ringed id).dev.rng.fetched = [] ∧ (ringed id).dev.rng.fin = []) ∧
    ((ringed (done false)).dev.rng.fin = [f] ∧ (ringed (done false)).dev.cqEn 15 7 = false) ∧
    (let s := ringed fun d => let d := done true d; { d with hp := { d.hp with wild := [15] } }
     s.dev.cqFull 15 7 = false ∧ s.dev.isWild 15 = true ∧ s.dev.cqEn 15 7 = true ∧ s.dev.cqSlots 15 7 ≤ 2 ^ 16) ∧
    ((ringed (done true)).dev.isWild 15 = false ∧ (ringed id).dev.isWild 16 = false) :=
  ⟨⟨reaches_of _ _ (by decide +kernel), by decide +kernel⟩, by decide +kernel, by decide +kernel, by decide +kernel, by decide +kernel⟩

theorem wit_RingCommands_not :
    (ringed id).dev.ringTurn = none ∧
    (let s := withDescriptor (descriptor 9 0 0 64 0)
     s.dev.ringTurn = some (15, 7) ∧ RingOp.ofCode (descField (descriptor 9 0 0 64 0) 0 1) ≠ some .nop) := by decide +kernel

/-- Ley port 3 in STATE `st` on all lanes, with `f` of its bookkeeping and `g` of the die. -/
def leyed (st : Nat) (f : LeyPort → LeyPort) (g : Dev → Dev) : State :=
  on fun d => g (((d.setFld (.leyStat 3) F.leyStat_STATE st).setFld (.leyStat 3) F.leyStat_LANES 0xFF).modLp 3 f)

theorem wit_LeyPortEvents_states :
    (∀ st < 8, let s := leyed st (fun x => { x with phase := if st = 3 then .ident else .none }) id
      s.up = true ∧ 3 < s.dev.ley.length ∧ s.dev.leyState 3 = st ∧ (s.dev.lp 3).phase = if st = 3 then .ident else .none) ∧
    ((leyed 4 (fun x => { x with phase := .asked }) id).dev.lp 3).phase ≠ .none ∧
    (widestSet 0xC0 = some 0xC0 ∧ widestSet 1 = none ∧ setOfWidth 2 0xC0 = some 0xC0 ∧ setOfWidth 0 0x7F = none) ∧
    (leyed 4 id id).reaches (.leyCtrl 3) ∧ (leyed 4 id id).reaches (.leyCred 3 3) :=
  ⟨by decide +kernel, by decide +kernel, by decide, reaches_of _ _ (by decide +kernel), reaches_of _ _ (by decide +kernel)⟩

theorem wit_LeyPortEvents_transmit :
    let e : LeyEnt := { vc := 3, op := 0x21, dlen := 2, data := [0, 0] }
    let b : LeyBuf := { seq := 1023, slots := [], took := [] }
    (let s := leyed 4 (fun x => { x with replay := List.replicate 512 b }) id
     (s.dev.lp 3).ctlOut = [] ∧ (s.dev.lp 3).cursor = none ∧ 512 ≤ (s.dev.lp 3).replay.length) ∧
    (let s := leyed 4 (fun x => { x with txq := [e] })
       fun d => (d.setFld (.leyCred 3 3) F.leyCred_HWIN 1).setFld (.leyCred 3 3) F.leyCred_DWIN 2
     (s.dev.lp 3).replay.length < 512 ∧ (s.dev.lp 3).part = [] ∧ (s.dev.lp 3).txq = [e] ∧ e.vc < 4 ∧ e.dlen ≤ 2 ∧ e.data.length = e.dlen ∧
      0 < s.dev.hwin 3 e.vc ∧ e.dlen ≤ s.dev.dwin 3 e.vc) ∧
    (∀ n ∈ [0, 4], let s := leyed 4 (fun x => { x with replay := [b], resent := n }) id
      (s.dev.lp 3).replay = b :: [] ∧ ((s.dev.lp 3).resent < max 1 (s.dev.fld (.leyCtrl 3) F.leyCtrl_REPLAY_NUM) ↔ n = 0) ∧
      (s.dev.lp 3).phase = .none) ∧
    ((leyed 4 id id).dev.lp 3).replay = [] ∧
    (∀ on ∈ [false, true], (leyed 4 id fun d => (d.setFlag (.leyRtcfg 3) F.leyRtcfg_AUTO on).setFld (.leyRtcfg 3) F.leyRtcfg_THRESH 50).dev.winLow 3 3 = on) := by
  decide +kernel

theorem wit_LeyPortEvents_requests :
    let m (c : Nat) (dist : Nat) : LeyCtl := { ctl := c, arg := 1, slot0 := 7, sdev := 7, sdist := dist }
    let asked (w : LeyWant) (l : List LeyCtl) (x : LeyPort) : LeyPort := { x with want := some w, mine := true, phase := .asked, ctlIn := l }
    (∀ dist ∈ [0, 2], let s := leyed 5 (asked (.retrain 1) [m 1 dist]) (·.setFld .casId F.casId_DIST 1)
      (s.dev.lp 3).ctlIn = m 1 dist :: [] ∧ (s.dev.lp 3).mine = true ∧ (s.dev.lp 3).phase = .asked ∧ (s.dev.proceeds (m 1 dist) = true ↔ dist = 2)) ∧
    (let s := leyed 4 (fun x => { x with ctlIn := [m 1 0] }) id
     ¬ ((s.dev.lp 3).mine = true ∧ (s.dev.lp 3).phase = .asked)) ∧
    (leyed 5 (asked (.retrain 1) [m 2 0]) id).dev.leyState 3 = 5 ∧
    ((leyed 4 (fun x => { x with ctlIn := [m 3 0] }) id).dev.lp 3).ctlIn = m 3 0 :: [] ∧
    ((leyed 4 (asked (.resize 1) [m 4 0]) id).dev.lp 3).want = some (.resize 1) ∧
    (let s (st : Nat) (i : Nat × Nat) := leyed st (fun x => { x with phase := .ident, ident := some i, ctlIn := [m 7 0] }) id
     (∀ st ∈ [3, 5], ((s st (7, 0)).dev.lp 3).phase = .ident) ∧ ((s 5 (7, 0)).dev.lp 3).ident = some (bitsOf (m 7 0).slot0 63 0, bitsOf (m 7 0).slot0 66 64) ∧
      ((s 5 (8, 0)).dev.lp 3).ident ≠ some (bitsOf (m 7 0).slot0 63 0, bitsOf (m 7 0).slot0 66 64)) ∧
    (let s := leyed 3 (fun x => { x with phase := .resync, ctlIn := [m 5 0] }) id
     (s.dev.lp 3).phase = .resync ∧ (s.dev.lp 3).again = none) ∧
    ((leyed 6 (fun x => { x with ctlIn := [m 6 0] }) id).dev.lp 3).ctlIn = m 6 0 :: [] ∧
    (let s := leyed 6 (fun x => { x with want := some (.resize 1), trained := 0xFF }) id
     (s.dev.lp 3).want = some (.resize 1) ∧ setOfWidth 1 (s.dev.lp 3).trained = some 0x0F ∧ (s.dev.lp 3).again = none) ∧
    (∀ n ∈ [1, 3], let s := leyed 5 (fun x => { x with tries := n }) id
      ((s.dev.lp 3).tries < max 1 (s.dev.fld (.leyCtrl 3) F.leyCtrl_RT_TRIES) ↔ n = 1)) := by
  decide +kernel

/-! Flits. Two equal bytes of one codeword cannot be corrected. A header of zeros is an in-order payload flit with SEQ 0 and no
entry; eight bytes after the header bring the CRC register to zero, so that the CRC of the flit is all ones. -/

theorem wit_LeyPortEvents_discarded : leyDecode (toBytes 256 (1 + 2 ^ 32)) = none := by decide +kernel

/-- The 256 bytes of a flit whose header is `h` with nothing else but what the checks need. -/
def flitBytes (h fill check0 check1 : List Nat) : List Nat :=
  h ++ fill ++ List.replicate 216 0 ++ List.replicate 8 255 ++ check0 ++ check1

theorem crc_of_zeros (h : List Nat) (hz : h.foldl (fun c b => crc64Bits 8 (Nat.xor c (b % 256 * 2 ^ 56))) (2 ^ 64 - 1) = 0) (n : Nat) :
    leyCrc (h ++ List.replicate n 0) = 2 ^ 64 - 1 := by
  have z : (List.replicate n 0).foldl (fun c b => crc64Bits 8 (Nat.xor c (b % 256 * 2 ^ 56))) 0 = 0 := by
    induction n with
    | zero => rfl
    | succ n ih => rw [List.replicate_succ, List.foldl_cons]; exact ih
  unfold leyCrc; rw [List.foldl_append, hz, z]; rfl

theorem decodes (h fill check0 check1 : List Nat) (hl : (h ++ fill).length = 24)
    (hz : (h ++ fill).foldl (fun c b => crc64Bits 8 (Nat.xor c (b % 256 * 2 ^ 56))) (2 ^ 64 - 1) = 0)
    (hf : ∀ k < 4, leyFix (leyLane (flitBytes h fill check0 check1) k) = some (leyLane (flitBytes h fill check0 check1) k, false))
    (hm : ((List.range 64).flatMap fun i => (List.range 4).map fun k => (leyLane (flitBytes h fill check0 check1) k).getD i 0) =
      flitBytes h fill check0 check1) :
    leyDecode (flitBytes h fill check0 check1) = some (flitBytes h fill check0 check1, false) := by
  have t : (flitBytes h fill check0 check1).take 240 = (h ++ fill) ++ List.replicate 216 0 := by
    have l : ((h ++ fill) ++ List.replicate 216 0).length = 240 := by rw [List.length_append, hl, List.length_replicate]
    unfold flitBytes; rw [List.append_assoc _ check0, List.append_assoc _ (List.replicate 8 255), ← l, List.take_left]
  have u : ((flitBytes h fill check0 check1).drop 240).take 8 = List.replicate 8 255 := by
    have l : ((h ++ fill) ++ List.replicate 216 0).length = 240 := by rw [List.length_append, hl, List.length_replicate]
    unfold flitBytes; rw [List.append_assoc _ check0, List.append_assoc _ (List.replicate 8 255), ← l, List.drop_left]; rfl
  unfold leyDecode
  rw [hf 0 (by decide), hf 1 (by decide), hf 2 (by decide), hf 3 (by decide)]
  have m : ((List.range 64).flatMap fun i => [(leyLane (flitBytes h fill check0 check1) 0).getD i 0,
      (leyLane (flitBytes h fill check0 check1) 1).getD i 0, (leyLane (flitBytes h fill check0 check1) 2).getD i 0,
      (leyLane (flitBytes h fill check0 check1) 3).getD i 0]) = flitBytes h fill check0 check1 := hm
  simp only [m, t, u, crc_of_zeros (h ++ fill) hz]
  rfl

/-- A payload flit with SEQ 0 and no entry. -/
def payloadFlit : List Nat :=
  flitBytes (List.replicate 16 0) [57, 59, 169, 32, 23, 3, 122, 104] [219, 104, 4, 82] [245, 80, 215, 26]
/-- DOWN with CTLID 255. -/
def downFlit : List Nat :=
  flitBytes [0, 0, 0x80, 0, 0, 0, 0, 0, 0, 0, 0, 6, 255, 0, 0, 0] [96, 107, 148, 159, 145, 145, 142, 19] [43, 77, 148, 86] [37, 183, 14, 220]

theorem ofBytes_lt : ∀ bs : List Nat, ofBytes bs < 256 ^ bs.length
  | [] => by decide
  | b :: bs => by
    have h := ofBytes_lt bs
    rw [ofBytes, List.length_cons, Nat.pow_succ]; omega

theorem pow_bytes : (256 : Nat) ^ 256 = 2 ^ 2048 :=
  (congrArg (fun x : Nat => x ^ 256) (show (256 : Nat) = 2 ^ 8 from rfl)).trans (Nat.pow_mul 2 8 256).symm

theorem flit_bytes (l : List Nat) (hl : l.length = 256) (h : toBytes 256 (ofBytes l) = l) :
    toBytes 256 (BitVec.ofNat 2048 (ofBytes l)).toNat = l := by
  have k := ofBytes_lt l
  rw [hl, pow_bytes] at k
  rw [BitVec.toNat_ofNat, Nat.mod_eq_of_lt k, h]

theorem wit_LeyPortEvents_payload :
    leyDecode (toBytes 256 (BitVec.ofNat 2048 (ofBytes payloadFlit)).toNat) = some (payloadFlit, false) ∧
    (let h := ofBytes (payloadFlit.take 16)
     h.testBit 21 = false ∧ bitsOf h 23 22 = 0 ∧ bitsOf h 9 0 = 0 ∧ min 14 (bitsOf h 27 24) = 0) ∧
    (∀ n ∈ [0, 1, 512], let x := (leyed 4 (fun x => { x with expect := n }) id).dev.lp 3
      x.expect = n ∧ (n = 0 ∨ (n ≠ 0 ∧ (n + 1024 - 0) % 1024 ≤ 512)) ∧ (parseSlots 16 (x.rxPart ++ [])).1 = [] ∧
      overrunVc x.rxq (parseSlots 16 (x.rxPart ++ [])).2 = none) ∧
    (let x := (leyed 4 (fun x => { x with rxq := List.replicate 33 (0, { vc := 3, op := 0x20 }) }) id).dev.lp 3
     overrunVc (x.rxq ++ []) (parseSlots 16 (x.rxPart ++ [])).2 = some 3) := by
  refine ⟨?_, by decide +kernel, by decide +kernel, by decide +kernel⟩
  rw [flit_bytes _ (by decide +kernel) (by decide +kernel)]
  exact decodes _ _ _ _ (by decide) (by decide +kernel) (by decide +kernel) (by decide +kernel)

theorem wit_LeyPortEvents_control :
    leyDecode (toBytes 256 (BitVec.ofNat 2048 (ofBytes downFlit)).toNat) = some (downFlit, false) ∧
    (let h := ofBytes (downFlit.take 16)
     h.testBit 21 = false ∧ bitsOf h 23 22 = 2 ∧ bitsOf h 103 96 = 255) ∧
    (∀ c ∈ [none, some 255], ((leyed 4 (fun x => { x with ctlId := c }) id).dev.lp 3).ctlId = c) := by
  refine ⟨?_, by decide +kernel, by decide +kernel⟩
  rw [flit_bytes _ (by decide +kernel) (by decide +kernel)]
  exact decodes _ _ _ _ (by decide) (by decide +kernel) (by decide +kernel) (by decide +kernel)
/-- An entry of the receive queues of port 3. -/
def recv (e : LeyEnt) (x : LeyPort) : LeyPort := { x with rxq := [(0, e)] }
/-- This device as member 7 at distance 1, port 0 its upstream port and member 6 behind port 2. -/
def member7 (d : Dev) : Dev :=
  let d := ((d.setFld .casId F.casId_ROLE 7).setFld .casId F.casId_DIST 1).setFld .casId F.casId_UPPORT 0
  let d := (d.setFld (.leyStat 0) F.leyStat_STATE 4).setFld (.leyStat 2) F.leyStat_STATE 4
  (d.setFld (.leyStat 2) F.leyStat_PDEV 6).setFld (.leyStat 2) F.leyStat_PDIST 2
/-- What the dealer has of member 7, joined or not, reached over port 3. -/
def dealer (st : Nat) (f : MemView → MemView) (d : Dev) : Dev :=
  ((d.setFld (.casMember 7) F.casMember_STATE st).setFld (.casMember 7) F.casMember_PORT 3).modMem 7 fun m => f { m with up := true, port := 3 }

theorem wit_CascadeEvents_folds :
    (let s := leyed 7 (fun x => { x with down := some 2 }) (dealer 1 id)
     s.up = true ∧ 3 < s.dev.ley.length ∧ s.dev.role = 0 ∧ (s.dev.lp 3).down = some 2 ∧ (∀ y ∈ (s.dev.lp 3).rxq, y.2.vc ≠ 2) ∧
      (s.dev.mem 7).up = true ∧ (s.dev.mem 7).port = 3 ∧ s.dev.upstream ≠ some 3 ∧ s.dev.downHeard 3 = true) ∧
    (leyed 7 (fun x => { x with down := some 2 }) (·.setXevt (.leyEvt 3) { flight := 1, wait := 1 })).dev.downHeard 3 = false ∧
    (∀ st ∈ [0, 1, 3], ∀ la ∈ [7, 0x107], let e : LeyEnt := { vc := 3, op := 0x26, dev := 6, la := la }
      let s := leyed 4 (recv e) (dealer st id)
      (s.dev.lp 3).front 3 0x26 = some (0, e) ∧ (∀ y ∈ (s.dev.lp 3).rxq, y.2.vc ≠ 2) ∧ e.la % 8 ≠ 0 ∧ e.la % 8 < s.dev.cas.mem.length ∧
      (s.dev.mem 7).up = true ∧ s.dev.memState 7 = st) := by decide +kernel

theorem wit_CascadeEvents_lines :
    (∀ p ∈ [(0, 1), (1, 8)], ∀ b ∈ [false, true], ∀ k ∈ [6, 7],
      let e : LeyEnt := { vc := p.1, op := p.2, dev := k, chan := 23 }
      let s := leyed 4 (recv e) fun d => { member7 d with cas := { d.cas with takes := b } }
      s.dev.role ≠ 0 ∧ s.dev.leyFirst 3 p.1 p.2 = some (0, e) ∧ s.dev.cas.takes = b ∧ (s.dev.lp 3).era = 0 ∧ e.chan < s.dev.chan.length ∧
      (k = 7 → e.dev = s.dev.role ∧ s.dev.cmdRoom e.chan = true) ∧ (k = 6 → s.dev.downTo e.dev = some 2)) ∧
    (∀ w ∈ [false, true], let e : LeyEnt := { vc := 2, op := if w then 0x11 else 0x10, dev := 7, tag := 1023 }
      let r : MemReq := { id := 1, dev := 7, chan := 23, ca := 0, write := w, data := { data := 0, md := 0 }, use := .acc 5, src := .host,
                          dpa := 0, sa := 0, ld := 0, tag := some 1023 }
      let s := leyed 4 (recv e) fun d => { d with cas := { d.cas with reqs := [r] } }
      s.dev.role = 0 ∧ (s.dev.lp 3).front 2 e.op = some (0, e) ∧ s.dev.reqOf e w = some r ∧ e.out < 3 ∧ s.dev.beyondMember r = true ∧ (leyed 4 (recv e) id).dev.reqOf e w = none) ∧
    (∀ op ∈ [0x10, 0x11], let e : LeyEnt := { vc := 2, op := op, dev := 6, tag := 5 }
      let s := leyed 4 (recv e) fun d => { member7 d with cas := { d.cas with fwd := [(6, 5, 0)] } }
      (s.dev.lp 3).front 2 op = some (0, e) ∧ (s.dev.cas.fwd.find? fun y => y.1 == e.dev && y.2.1 == e.tag) = some (6, 5, 0) ∧
      s.dev.upstream = some 0 ∧ 0 < s.dev.ley.length ∧ (s.dev.lp 0).era = 0 ∧ s.dev.leyUp 0 = true) := by
  refine ⟨by decide +kernel, by decide +kernel, by decide +kernel⟩

theorem wit_CascadeEvents_member :
    (∀ op ∈ [0x20, 0x21, 0x22, 0x23, 0x24, 0x25, 0x26, 0x27], ∀ k ∈ [6, 7],
      let e : LeyEnt := { vc := 3, op := op, dev := k }
      let s := leyed 4 (recv e) member7
      (s.dev.lp 3).front 3 op = some (0, e) ∧ s.dev.role ≠ 0 ∧ s.dev.upstream = some 0 ∧ 0 ≠ 3 ∧ s.dev.leyUp 0 = true ∧
      s.dev.txRoom 0 = true ∧ s.dev.cas.takes = false ∧
      (k = 7 → e.dev = s.dev.role)) ∧
    (let e : LeyEnt := { vc := 3, op := 0x20, dev := 6 }
     let s := leyed 4 (recv e) fun d => (member7 d).setFld .casId F.casId_UPPORT 3
     e.dev ≠ s.dev.role ∧ s.dev.upstream = some 3 ∧ s.dev.downTo e.dev = some 2) ∧
    (∀ la ∈ [Reg.offset .gblIntEn, 0x1FFFFFC], let e : LeyEnt := { vc := 3, op := 0x24, dev := 7, la := la }
      let s := leyed 4 (recv e) fun d => { member7 d with cas := { d.cas with takes := true } }
      s.dev.cas.takes = true ∧ (s.dev.accessCause .mgmt e.la 4 = none ↔ la ≠ 0x1FFFFFC) ∧
      (la ≠ 0x1FFFFFC → let w := Dev.writeAccess s.nv (s.dev.popRx 3 (0, e), s.stile) .mgmt 0 e.la 4 e.md
        w.1.upstream = some 0 ∧ w.1.role = s.dev.role ∧ 0 < w.1.ley.length ∧ w.1.leyUp 0 = true)) ∧
    (let s := on fun d => { member7 d with cas := { d.cas with joinDue := some 5 } }
     s.dev.cas.joinDue = some 5 ∧ s.dev.role ≠ 0 ∧ s.dev.allTrained = true ∧ s.dev.upstream = some 0) ∧
    (on id).dev.cas.joinDue = none := by decide +kernel

theorem wit_CascadeEvents_dealer :
    (∀ dist ∈ [2, 3], ∀ step ∈ [MemStep.joining 9, .reopening],
      let e : LeyEnt := { vc := 3, op := 0x21, dev := 7, data := [BitVec.ofNat 512 (7 * 2 ^ 64 + dist * 2 ^ 72 + 9 * 2 ^ 96), 0] }
      let s := leyed 4 (recv e) (dealer 3 fun m => { m with step := step })
      let v := (e.data.getD 0 0).toNat + (e.data.getD 1 0).toNat * 2 ^ 512
      (s.dev.lp 3).front 3 0x21 = some (0, e) ∧ (s.dev.mem (bitsOf v 71 64 % 8)).step = step ∧ bitsOf v 79 72 = dist ∧ bitsOf v 127 96 = 9 ∧
      bitsOf v 63 0 = s.dev.fld (.casMser 7) F.casMser_SERIAL ∧ s.dev.memberServes 7 = true) ∧
    (∀ la ∈ [0, 1], ∀ f ∈ [false, true], let e : LeyEnt := { vc := 3, op := 0x23, dev := 7, la := la }
      let s := leyed 4 (recv e) fun d => (d.setFlag .casMacc F.casMacc_DONE f).setFld .casMacc F.casMacc_DEV 7
      (s.dev.lp 3).front 3 0x23 = some (0, e) ∧ s.dev.flag .casMacc F.casMacc_DONE = f ∧ s.dev.fld .casMacc F.casMacc_DEV = e.dev) ∧
    (let e : LeyEnt := { vc := 3, op := 0x25, dev := 7, data := [0, 0] }
     ((leyed 4 (recv e) id).dev.lp 3).front 3 0x25 = some (0, e) ∧ (Instr.record 3).wf = true) := by decide +kernel

theorem wit_CascadeEvents_registers :
    let s (k st : Nat) (f : MemView → MemView) := on fun d => (dealer st f d).setFld .casCtrl F.casCtrl_RDEV k
    (s 7 3 id).reaches .casCtrl ∧ (s 7 3 id).reaches .casMacc ∧ (s 7 3 id).reaches .casFoldmap ∧
    (let x := s 7 3 fun m => { m with step := .waiting }
     x.dev.fld .casCtrl F.casCtrl_RDEV = 7 ∧ x.dev.memState 7 = 3 ∧ (x.dev.mem 7).step = .waiting ∧ (x.dev.mem 7).port < x.dev.ley.length) ∧
    ((s 7 2 id).dev.memState 7 = 2 ∧ 7 < (s 7 2 id).dev.cas.mem.length) ∧ (s 7 4 id).dev.memState 7 = 4 ∧
    (s 0 4 id).dev.fld .casCtrl F.casCtrl_RDEV = 0 ∧
    (∀ f ∈ [false, true], ∀ st ∈ [0, 1],
      let x := on fun d => ((dealer st id d).setFlag .casMacc F.casMacc_DONE f).setFld .casMacc F.casMacc_DEV 7
      x.dev.flag .casMacc F.casMacc_DONE = f ∧ x.dev.fld .casMacc F.casMacc_DEV = 7 ∧ x.dev.memState 7 = st ∧ x.dev.memPort 7 < x.dev.ley.length) :=
  ⟨reaches_of _ _ (by decide +kernel), reaches_of _ _ (by decide +kernel), reaches_of _ _ (by decide +kernel), by decide +kernel⟩

theorem wit_CascadeEvents_foldmap :
    let refused (s : State) :=
      let a := s.dev.fld .casFoldmap F.casFoldmap_BASE * 2 ^ 27
      let hit (y : Nat × Nat) := overlaps a (2 ^ 27) y.1 y.2 = true
      s.dev.covered a (2 ^ 27) = false ∨ s.dev.homeOnly a (2 ^ 27) = false ∨ s.dev.hitsCounters a (2 ^ 27) = true ∨
        (∃ k < 16, s.dev.poolEn k = true ∧ hit (s.dev.poolSpan k)) ∨ (∃ k < 16, s.dev.winEn k = true ∧ hit (s.dev.flatRange k)) ∨
        hit (s.dev.ftab, 2 ^ 30)
    ((on (dealer 2 id)).dev.anyJoined = true) ∧
    ((on id).dev.anyJoined = false ∧ (on id).dev.flag .casFoldmap F.casFoldmap_V = false ∧ refused (on id)) ∧
    (let s := on fun d => (dealer 0 id (setUp 1024 d)).setFld .casFoldmap F.casFoldmap_BASE 8
     s.dev.anyJoined = false ∧ s.dev.flag .casFoldmap F.casFoldmap_V = false ∧ ¬ refused s ∧ (s.dev.mem 7).up = true ∧ s.dev.memState 7 = 0) := by
  decide +kernel

theorem wit_CascadeEvents_recovery :
    (let s := on fun d => dealer 3 (fun m => { m with step := .poisoning }) { d with cas := { d.cas with foldList := [(2 ^ 36, 7, false)] } }
     s.dev.memState 7 = 3 ∧ (s.dev.mem 7).step = .poisoning ∧ (∀ b ∈ s.dev.cas.foldMap, b / 2 ^ 27 ≠ 7) ∧
      ∀ y ∈ s.dev.cas.foldList, y.2.1 = 7 → s.dev.ctrFrameAt (y.1 * 64) = none) ∧
    (on (dealer 3 id)).dev.memState 7 = 3 ∧ ((on (dealer 3 id)).dev.mem 7).step ≠ .poisoning ∧
    (let s := leyed 7 (fun x => { x with down := some 0 }) fun d => ((member7 d).setFld .casId F.casId_UPPORT 3).setXevt (.leyEvt 3) { flight := 1 }
     (s.dev.lp 3).down = some 0 ∧ s.dev.upstream = some 3 ∧ s.dev.role ≠ 0 ∧ (s.dev.lp 3).rxq = [] ∧ s.dev.downHeard 3 = true ∧
      (s.dev.eventTransfer (.leyEvt 3)).1 = [0]) ∧
    (let s := leyed 7 (fun x => { x with down := some 0 }) fun d =>
       { (member7 d).setFld (.leyStat 3) F.leyStat_PDIST 2 with cas := { d.cas with takes := true } }
     (s.dev.lp 3).down = some 0 ∧ s.dev.upstream = some 0 ∧ s.dev.role ≠ 0 ∧ s.dev.isDown 3 = true ∧ s.dev.cas.takes = true ∧
      s.dev.downHeard 3 = true) := by decide +kernel

/-- Control messages that the port is in no state to act on, and none. -/
theorem wit_LeyPortEvents_taken :
    let m (c dist : Nat) : LeyCtl := { ctl := c, arg := 1, slot0 := 7, sdev := 7, sdist := dist }
    let with_ (st c : Nat) := (leyed st (fun x => { x with ctlIn := [m c 0] }) id).dev
    let asked (st c dist : Nat) := (leyed st (fun x => { x with want := some (.retrain 1), mine := true, phase := .asked, ctlIn := [m c dist] })
      (·.setFld .casId F.casId_DIST 1)).dev
    let isAsked (d : Dev) := (d.lp 3).mine = true ∧ (d.lp 3).phase = .asked
    (∀ c ∈ [1, 2, 3, 4, 5, 6, 7], ((with_ 3 c).lp 3).ctlIn = m c 0 :: []) ∧
    ((with_ 3 1).leyState 3 < 4 ∧ ¬ isAsked (with_ 5 2) ∧ (¬ isAsked (with_ 5 3) ∧ (with_ 5 3).leyState 3 ≠ 4) ∧
      ((with_ 5 5).lp 3).phase ≠ .resync ∧ ((with_ 5 7).lp 3).phase ≠ .ident ∧ (with_ 2 6).leyState 3 < 3) ∧
    (isAsked (asked 4 3 2) ∧ (asked 4 3 2).proceeds (m 3 2) = true) ∧
    ((asked 4 4 0).leyState 3 = 4 ∧ ((asked 4 4 0).lp 3).want = some (.retrain 1)) ∧
    ((leyed 4 id id).dev.lp 3).ctlIn = [] ∧ ((leyed 6 id id).dev.lp 3).want = none ∧
    (widestSet 0 = none ∧ (leyed 6 (fun x => { x with ctlOut := [(m 3 0, 0, 4)] }) id).dev.leyState 3 = 6) := by decide +kernel


theorem wit_CascadeEvents_others :
    let rd (k chan : Nat) : LeyEnt := { vc := 0, op := 1, dev := k, chan := chan }
    let role0 (f : LeyPort → LeyPort) := (leyed 4 f id).dev
    let mem (f : LeyPort → LeyPort) (g : Dev → Dev) := (leyed 4 f fun d => g { member7 d with cas := { d.cas with takes := true } }).dev
    (role0 id).leyFirst 3 0 1 = none ∧ (role0 (recv (rd 7 0))).leyFirst 3 0 1 = some (0, rd 7 0) ∧
    (let d := mem (recv (rd 7 23)) (·.modChn 23 fun ch => { ch with cmds := List.replicate 128 { write := false, ca := 0, use := .fire } })
     d.leyFirst 3 0 1 = some (0, rd 7 23) ∧ (rd 7 23).dev = d.role ∧ d.cmdRoom 23 = false) ∧
    (let d := mem (recv (rd 7 24)) (fun d => d.setFld (.leyStat 3) F.leyStat_STATE 4)
     d.cmdRoom 24 = true ∧ d.cas.takes = true ∧ d.leyUp 3 = true) ∧
    (mem (recv (rd 5 0)) id).downTo 5 = none ∧
    (let full (q : Nat) (d : Dev) : Dev := d.modLp q fun x => { x with txq := List.replicate 128 (rd 6 0) }
     (mem (recv (rd 6 0)) (full 2)).downTo 6 = some 2 ∧ (mem (recv (rd 6 0)) (full 2)).txRoom 2 = false ∧
     (mem (recv { vc := 3, op := 0x25, dev := 6 }) (full 0)).upstream = some 0 ∧
     (mem (recv { vc := 3, op := 0x25, dev := 6 }) (full 0)).txRoom 0 = false ∧ (mem (recv (rd 6 0)) id).txRoom 2 = true) ∧
    (let e : LeyEnt := { vc := 2, op := 0x11, dev := 7, tag := 1 }
     let r : MemReq := { id := 1, dev := 7, chan := 23, ca := 2 ^ 30 - 64, write := true, data := { data := 0, md := 0 }, use := .acc 5,
                         src := .host, dpa := 0, sa := 0, ld := 0, tag := some 1 }
     let d := (leyed 4 (recv e) fun d => { d with cas := { d.cas with reqs := [r], chans := [(7 * 24 + 23, (3, 1))] } }).dev
     d.reqOf e true = some r ∧ d.beyondMember r = false) ∧
    (mem (recv { vc := 2, op := 0x10, dev := 6 }) id).cas.fwd = [] ∧
    (let d := mem (recv { vc := 2, op := 0x10, dev := 6, tag := 5 }) fun d =>
       { d.setFld (.leyStat 0) F.leyStat_STATE 7 with cas := { d.cas with fwd := [(6, 5, 0)] } }
     d.upstream = some 0 ∧ d.leyUp 0 = false) := by decide +kernel

theorem wit_CascadeEvents_on_a_member :
    (on member7).reaches .casCtrl ∧ (on member7).reaches .casMacc ∧ (on member7).reaches .casFoldmap ∧ (on member7).dev.role ≠ 0 :=
  ⟨reaches_of _ _ (by decide +kernel), reaches_of _ _ (by decide +kernel), reaches_of _ _ (by decide +kernel), by decide +kernel⟩

/-- A running Stile whose feed B is `f`. -/
def feedB (f : Feed) : State := onS fun x => { x with feedB := f }

/-- For FastTrips, FeedFaults and FetsAndLimits. -/
theorem wit_FeedFaults :
    (∀ st ∈ [FeedState.ramp, .on], ((feedB { state := st, ftRun := true }).stile.feed 1).driven = true) ∧
    (∀ n ∈ [0, 15], ∀ rty ∈ [0, 3], let s := onS fun x =>
        { x with feedB := { state := .ramp, retries := n }, regs := x.regs.setFld (.stlFeedCtrl 1) F.stlFeedCtrl_RTY rty, count := if n = 0 then 0 else 16 }
      s.stile.running = true ∧ (s.stile.feed 1).state = .ramp ∧ (s.stile.feed 1).driven = true ∧
      (rtyLimit (s.stile.f (.stlFeedCtrl 1) F.stlFeedCtrl_RTY) = if rty = 0 then some 0 else none) ∧ (s.stile.count < 16 ↔ n = 0)) ∧
    (∀ st ∈ [FeedState.off, .qual, .cool, .latched], let f := (feedB { state := st }).stile.feed 1
      f.gps = false ∧ f.gor = false ∧ f.state = st) ∧
    (let f := (feedB { state := .on, ftRun := true, gps := true }).stile.feed 1
     f.ftRun = true ∧ f.state = .on) ∧
    (feedB {}).stile.slot = 0 ∧ (feedB { state := .qual }).stile.feedA.state = .off ∧
    (onS fun x => { x with feedA := { state := .ramp }, feedB := { state := .qual } }).stile.slot ≠ 0 ∧
    (onS fun x => { x with withdraw := true }).stile.withdraw = true ∧
    (let s := feedB { state := .on, orderly := some 9 }
     s.stile.pg = false ∧ (s.stile.feed 1).orderly.isSome = true) := by decide +kernel

theorem wit_StileDie :
    (State.reset.stile.running = false ∧ State.reset.stile.armed = true) ∧ (onS id).stile.running = true ∧
    (onS fun x => { x with running := false, armed := false }).stile.armed = false ∧
    (let x : StlSample := { vinA := 1799, vinB := 1799, midA := 0, midB := 0, vout := 0, isnsA := 0, isnsB := 0, fullA := false, fullB := false, offLow := false }
     x.vinA < 1800 ∧ x.vinB < 1800) ∧
    (∀ st ∈ [FeedState.qual, .wait, .ramp, .on, .cool], ((feedB { state := st }).stile.feed 1).state ∉ [FeedState.off, .latched, .fetBad]) := by decide

theorem wit_FeedTransitions :
    let two (a b : FeedState) := onS fun x => { x with feedA := { state := a }, feedB := { state := b, gps := true } }
    ((two .off .qual).stile.running = true ∧ ((two .off .qual).stile.feed 1).state = .qual ∧ (two .off .qual).stile.slot = 0 ∧
      ((two .off .qual).stile.feed (1 - 1)).state ≠ .wait ∧ (two .ramp .qual).stile.slot ≠ 0) ∧
    (((two .ramp .cool).stile.feed 1).state = .cool ∧ ((two .ramp .cool).stile.feed (1 - 1)).state = .ramp) ∧
    ((two .on .cool).stile.feed (1 - 1)).state ≠ .ramp ∧ ((two .off .latched).stile.feed 1).state = .latched ∧
    (onS fun x => { x with withdraw := true }).stile.withdraw = true ∧ (onS id).stile.withdraw = false ∧
    (onS fun x => { x with pg := true }).stile.pg = true ∧
    (let s := onS fun x => { x with pg := false, feedB := { state := .on, orderly := some 10 } }
     s.stile.pg = false ∧ (s.stile.feed 1).orderly.isSome = true) ∧
    (∀ st ∈ [FeedState.off, .qual, .wait, .ramp, .cool], ((two .on st).stile.feed 1).state = st) := by decide

theorem wit_StileWrites :
    (onS id).reachesStile (.stlFeedCtrl 1) ∧ (onS id).reachesStile .stlVthr ∧ (onS id).reachesStile .stlLogstat ∧
    (∀ st ∈ [FeedState.off, .qual, .wait, .ramp, .cool, .latched, .fetBad], ((feedB { state := st }).stile.feed 1).state = st) ∧
    (∀ (pg : Bool) (a : FeedState), let s := onS fun x => { x with pg := pg, feedA := { state := a }, feedB := { state := .on } }
      s.stile.feed 1 = { state := .on } ∧ s.stile.pg = pg ∧ (s.stile.otherOn 1 = true ↔ a = .on)) ∧
    (State.reachesStile (onS fun x => { x with count := 16 }) .stlLogstat ∧ (onS fun x => { x with count := 16 }).stile.count = 16 ∧
      (onS id).stile.count = 0) ∧
    (let s (st : FeedState) := feedB { state := st }
     (s .latched).reachesStile (.stlFeedCtrl 1) ∧ (s .fetBad).reachesStile (.stlFeedCtrl 1)) ∧
    (let s := on (·.modMgt fun m => { m with stlLost := true })
     s.reaches (.stlFeedCtrl 1) ∧ s.reaches .stlLogstat ∧ s.reaches .stlVthr ∧ s.dev.mgt.stlLost = true ∧ s.up = true) ∧
    ((onS id).up = true ∧ (onS id).dev.mgt.stlLost = false ∧ (onS id).dev.mgt.restarting = false) := by
  refine ⟨⟨reaches_of _ _ (by decide), by decide, by decide⟩, ⟨reaches_of _ _ (by decide), by decide, by decide⟩,
    ⟨reaches_of _ _ (by decide), by decide, by decide⟩, by decide, ?_, ⟨⟨reaches_of _ _ (by decide), by decide, by decide⟩, by decide, by decide⟩,
    ⟨⟨reaches_of _ _ (by decide), by decide, by decide⟩, ⟨reaches_of _ _ (by decide), by decide, by decide⟩⟩,
    ⟨reaches_of _ _ (by decide), reaches_of _ _ (by decide), reaches_of _ _ (by decide), by decide, by decide⟩, by decide⟩
  intro pg a; cases pg <;> cases a <;> decide

theorem wit_SweepsAndWatches :
    (∀ b ∈ [false, true], (on (·.setFlag .talCtrl F.talCtrl_EN b)).dev.flag .talCtrl F.talCtrl_EN = b) ∧
    (let s := on fun d =>
      let d := ((d.setFlag .talCtrl F.talCtrl_EN true).setFlag (.talWatch 15) F.talWatch_EN true).setFld (.talWatch 15) F.talWatch_ID 3607
      { d with tal := { d.tal with prev := [(15, 2 ^ 48 - 1)] } }
     s.dev.flag .talCtrl F.talCtrl_EN = true ∧ s.dev.flag (.talWatch 15) F.talWatch_EN = true ∧ s.dev.fld (.talWatch 15) F.talWatch_ID ≤ 3607 ∧
      kvFind? s.dev.tal.prev 15 = some (2 ^ 48 - 1) ∧ s.dev.flag (.talWatch 14) F.talWatch_EN = false ∧
      (∃ par : List Nat, s.dev.fld (.talWatch 15) F.talWatch_ID ∈ par) ∧
      ∃ par ue : List Nat, s.dev.fld (.talWatch 15) F.talWatch_ID ∉ par ∧ s.dev.fld (.talWatch 15) F.talWatch_ID ∈ ue ∧ (383 : Nat) ∈ par) :=
  ⟨by decide +kernel, by decide +kernel, by decide +kernel, by decide +kernel, by decide +kernel, by decide +kernel,
   ⟨[3607], by decide +kernel⟩, [383], [3607], by decide +kernel⟩

theorem wit_SnapshotPasses :
    let c : RingCmd := { id := 1, set := 16, ring := 7, chead := 0, cq := 0, ld := 15, tag := 2 ^ 32 - 1, irq := false, hint := 0, op := .snapshot,
                         a := 0, b := 0, n := 32, x := 0x2000000 }
    ((on fun d => { d with rng := { d.rng with run := [c] } }).dev.rng.run.find? fun c => c.op == .snapshot) = some c ∧
    c.set < 17 ∧ c.ring < 8 ∧ c.tag < 2 ^ 32 ∧ ((on id).dev.rng.run.find? fun c => c.op == .snapshot) = none := by decide

theorem wit_SampleRecords :
    let r : SampleRec := { ld := 15, tld := 15, head := 7, poison := false, opc := 0, seq := 0, lat := 0, time := 0, source := 0, dev := 0,
                           chan := 31, slice := 15, dpa := 0, hpa := 0 }
    let s (en : Bool) (n : Nat) := on fun d =>
      { d with samp := d.samp.set 15 { en := en, slots := 128, slot := 127, thresh := 1, staged := List.replicate n r },
               home := { d.home with sampleDone := [r] } }
    (∀ n ∈ [0, 63, 64], (s true n).dev.home.sampleDone = r :: [] ∧ ((s true n).dev.sampler 15).en = true ∧
      ((s true n).dev.sampler 15).staged.length = n) ∧ ((s false 0).dev.sampler 15).en = false ∧
    ((s true 1).dev.sampler 15).staged = r :: [] ∧ (s true 1).dev.samp.length = 16 ∧
    (on id).dev.home.sampleDone = [] ∧ ((on id).dev.sampler 15).staged = [] := by decide +kernel

theorem wit_PowerOnAndOff :
    (State.reset.dev.mgt.power = .held ∧ State.reset.dev.mgt.tripped = false) ∧ (on id).dev.mgt.power ≠ .held ∧
    (on (·.modMgt fun m => { m with power := .held, tripped := true })).dev.mgt.tripped = true ∧
    (let s := on fun d => d.modMgt fun m => { m with burn := some { slot := 7, body := [] } }
     s.dev.mgt.burn = some { slot := 7, body := [] } ∧ s.dev.mgt.power ≠ .held) ∧ (on id).dev.mgt.burn = none ∧
    (on (·.modMgt fun m => { m with power := .rising })).dev.mgt.power = .rising ∧ State.reset.nv.fwRun ≠ none ∧
    ({ State.reset.nv with fwA := {} } : Nv).fwRun = none ∧ (onS id).stile.running = true := by decide

theorem wit_DeviceResetsAndWatchdog :
    let m (f : Mgt → Mgt) := on (·.modMgt f)
    ((on id).dev.mgt.burn = none ∧ (on id).powered = true) ∧
    (let s := m fun x => { x with burn := some { slot := 0, body := [] }, holdReset := true }
     s.dev.mgt.burn.isSome = true ∧ s.dev.mgt.resetDue = none ∧ s.dev.mgt.holdReset = true) ∧
    (let s := m fun x => { x with holdReset := true }
     s.dev.mgt.holdReset = true ∧ s.dev.mgt.burn = none) ∧ (on id).dev.mgt.holdReset = false ∧ (on id).dev.mgt.expiry = none ∧
    (let s := m fun x => { x with expiry := some 0 }
     s.dev.mgt.burn = none ∧ s.dev.mgt.expiry = some 0 ∧ s.dev.clk < 0 + 8000000000) ∧
    (let s := on fun d => { d.modMgt fun m => { m with expiry := some 0 } with clk := 8000000000 }
     s.dev.mgt.expiry = some 0 ∧ 0 + 8000000000 ≤ s.dev.clk) ∧
    (let s := on fun d => ((d.setFld .casId F.casId_ROLE 7).wr (.chnPop 23) 1).setFlag (.chnTrain 23) F.chnTrain_DONE true
     s.dev.inHold = false ∧ s.dev.flag .gblBoot F.gblBoot_DRAM_READY = false ∧ s.dev.role ≠ 0 ∧
      ∀ c < 24, s.dev.rd (.chnPop c) ≠ 0 → s.dev.flag (.chnTrain c) F.chnTrain_DONE = true) ∧
    (on (·.setFlag .gblBoot F.gblBoot_HOLD true)).dev.inHold = true := by decide +kernel

theorem wit_FirmwareUpdate :
    ((on id).powered = true ∧ (on id).up = true ∧ (on id).dev.mgt.restarting = false ∧ b2n ((on id).dev.flag .gblBoot F.gblBoot_FWSLOT) ≠ 1 ∧
      b2n ((on id).dev.flag .gblBoot F.gblBoot_FWSLOT) = 0 ∧ (on id).nv.fwA.valid = true ∧ (on id).nv.fwB.valid = false ∧
      (on id).dev.mgt.fw = none) ∧
    (let s := on (·.modMgt fun m => { m with power := .recovery })
     s.powered = true ∧ s.up ≠ true ∧ s.dev.mgt.restarting = false) ∧
    ({ on id with nv := { State.reset.nv with fwB := { valid := true, size := 1 } } } : State).nv.fwB.valid = true ∧
    (on (·.modMgt fun m => { m with restarting := true })).dev.mgt.restarting = true ∧
    (on (·.modMgt fun m => { m with fw := some (1, 5) })).dev.mgt.fw = some (1, 5) := by decide

theorem wit_PliuthCommits :
    ((on id).dev.mgt.burn = none ∧ (on id).dev.mgt.restarting = false ∧ (on id).dev.commitStatus (on id).nv ≠ 0) ∧
    (let s (r : Option Nat) := on fun d => d.modMgt fun m => { m with burn := some { slot := 7, body := List.replicate 2036 0 }, resetDue := r }
     (s none).dev.mgt.burn = some { slot := 7, body := List.replicate 2036 0 } ∧ (s none).dev.mgt.burn.isSome = true ∧
      (s none).dev.mgt.resetDue = none ∧ (List.replicate 2036 (0 : Nat)).length = 2036 ∧ (s (some 1)).dev.mgt.resetDue = some 1) ∧
    (on (·.modMgt fun m => { m with restarting := true })).dev.mgt.restarting = true ∧
    (0 < (List.replicate 512 (255 : Nat)).length ∧ (List.replicate 512 (255 : Nat)).length ≤ 512 ∧ 1588 + (List.replicate 512 (255 : Nat)).length ≤ 2100 ∧
      2100 < 1589 + (List.replicate 512 (255 : Nat)).length ∧ ∀ b ∈ List.replicate 512 (255 : Nat), b < 256) := by decide +kernel

theorem wit_RefusedAccesses :
    let s (seen : Bool) (busy : Bool) := on fun d => (hosted 3 (d.setFlag .gblAccerr F.gblAccerr_SEEN seen)).modMgt fun m => { m with restarting := busy }
    ((RegView.mgmt).ok = true ∧ (s false false).powered = true ∧ (s false false).dev.reaches 8 16 = true ∧
      (s false false).dev.accessCause .mgmt 0x1FFFFFC 4 ≠ none ∧ (s false false).dev.accessCause .mgmt 4 4 = none ∧
      (s false false).dev.accessCause .mgmt 0x100020 8 = none ∧ (RegView.mgmt).hole 0x100020 8 = some 0x100024) ∧
    ((RegView.tenant 15).ok = true ∧ (s true false).dev.reaches 7 15 = true ∧ (s true false).dev.reaches 6 15 = false ∧
      (s true false).dev.accessCause (.tenant 15) 0x1FFFFF8 8 ≠ none) ∧
    (s true true).dev.accessCause .mgmt 0x1000004 4 = some 3 ∧
    (s true false).dev.flag .gblAccerr F.gblAccerr_SEEN = true ∧ (s false false).dev.flag .gblAccerr F.gblAccerr_SEEN = false := by decide +kernel

theorem wit_RegisterWrites :
    ((on id).powered = true ∧ (on id).dev.reaches 8 16 = true ∧
      ∀ r ∈ [Reg.gblIntEn, .crossIntEn0, .talCtrl, .gblAvsCtrl, .gblLock], (on id).dev.accessCause .mgmt r.offset 4 = none) ∧
    ((on (hosted 3)).dev.reaches 7 15 = true ∧ (on (hosted 3)).dev.accessCause (.tenant 15) 0x20008 4 = none ∧
      RegView.slot (.tenant 15) 0x20008 = some (.whole (.rngCrCtrl 15 0)) ∧ (Reg.rngCrCtrl 15 0).ringLd = some 15 ∧
      (Reg.rngCrCtrl 15 0).rsvError (2 ^ 32 - 1) = true) ∧
    ((RegView.config 15).ok = true ∧ (0x78 : Nat) < 4096 ∧ (0x78 : Nat) % 4 = 0 ∧ (2 ^ 32 - 1) % 16 ∉ [0, 1, 2, 5, 6, 9, 10, 13, 14] ∧
      ¬ ((0x78 : Nat) = 0x44 ∧ ((2 ^ 32 - 1) % 4 = 1 ∨ (2 ^ 32 - 1) % 4 = 2)) ∧ ((2 ^ 32 - 2) % 4 = 1 ∨ (2 ^ 32 - 2) % 4 = 2) ∧
      ¬ ((4096 : Nat) < 4096 ∧ 4096 % 4 = 0 ∧ 4 = 4)) := by decide +kernel

theorem wit_LockAndInterruptAck : (on id).reaches .gblLock ∧ (on id).reaches .gblIntCtrl :=
  ⟨reaches_of _ _ (by decide), reaches_of _ _ (by decide)⟩

theorem wit_LogsCreditsAndScan :
    let r : Rec := vendorRec 0x0507 .warning 0x100 0
    let s (busy : Bool) := on fun d =>
      { (hosted 3 d).modMgt fun m => { m with restarting := busy } with logs := { d.logs with recs := [(15 * 5 + 4, [r, r]), (16 * 5 + 4, [r])] } }
    (s false).up = true ∧ ((s false).dev.mgt.restarting = false ∧ (s false).dev.inHold = false ∧ (s true).dev.mgt.restarting = true) ∧
      ((s false).dev.fnUp 15 = true ∧ (s false).dev.fnUp 14 = false) ∧
      (kvGet (fun _ => []) (s false).dev.logs.recs (15 * 5 + 4)).length = 2 ∧ (kvGet (fun _ => []) (s false).dev.logs.recs (16 * 5 + 4)).length = 1 ∧
      (s false).dev.headUp 7 = true ∧ (s false).dev.headUp 6 = false ∧ (s false).dev.flag .gblBoot F.gblBoot_DRAM_READY = false ∧
      (on (·.setFlag .gblBoot F.gblBoot_DRAM_READY true)).dev.flag .gblBoot F.gblBoot_DRAM_READY = true := by decide +kernel
/-! A generation of the OTP and an image: of the bytes that their CRC-32 covers only the format and four more are not zero; those
four bring the CRC register to zero, so that the CRC is all ones. -/

theorem crc32_of_zeros (f : Nat → Nat) (n : Nat) (h : ((List.range 8).map f).foldl crc32Byte 0xFFFFFFFF = 0)
    (hz : ∀ i < n, f (8 + i) = 0) : crc32 ((List.range (8 + n)).map f) = 2 ^ 32 - 1 := by
  have z : ∀ l : List Nat, (∀ b ∈ l, b = 0) → l.foldl crc32Byte 0 = 0 := by
    intro l; induction l with
    | nil => intro _; rfl
    | cons b l ih =>
      intro hb; rw [List.foldl_cons, hb b (by simp)]
      exact ih fun x hx => hb x (List.mem_cons_of_mem _ hx)
  unfold crc32
  rw [List.range_add, List.map_append, List.foldl_append, h, z]
  · rfl
  · intro b hb
    simp only [List.map_map, List.mem_map, List.mem_range, Function.comp_apply] at hb
    obtain ⟨i, hi, rfl⟩ := hb
    exact hz i hi

/-- The flash of a device whose generation 0 is sealed. -/
def sealedNv : Nv :=
  { State.reset.nv with otp := [(0, 255), (1, 255), (4, 1), (8, 134), (9, 71), (10, 7), (11, 102), (0x7F8, 255), (0x7F9, 255), (0x7FA, 255),
      (0x7FB, 255), (0x7FC, 1), (0x7FD, 254), (0x7FE, 255), (0x7FF, 255)] }

theorem wit_PowerOnAndOff_hold : State.reset.nv.holdCause ≠ 0 := by decide +kernel

theorem wit_PowerOnAndOff_sealed : sealedNv.fwRun ≠ none ∧ sealedNv.holdCause = 0 := by
  refine ⟨by decide, ?_⟩
  have b : ∀ i < 2028, sealedNv.byte 0 (4 + (8 + i)) = 0 := by
    intro i hi
    unfold Nv.byte kvGet sealedNv
    simp only [kvFind?]
    repeat rw [if_neg (by omega)]
    rfl
  have c := crc32_of_zeros (fun j => sealedNv.byte 0 (4 + j)) 2028 (by decide +kernel) b
  have v : sealedNv.sealValid 0 = true := by
    unfold Nv.sealValid
    have e : crc32 (sealedNv.bytes 0 4 0x7F4) = 2 ^ 32 - 1 := c
    rw [e]; decide +kernel
  have k : sealedNv.chosen = some 0 := by decide +kernel
  unfold Nv.holdCause
  rw [k]; simp only [v, if_true]
  decide +kernel

/-- Byte `i` of an image for any device and role. -/
def imageByte (i : Nat) : Nat :=
  if 72 ≤ i then 0
  else ([0x50, 0x4C, 0x54, 0x48, 1, 0, 0xF4, 7, 0, 0, 0, 0, 0, 0, 0, 0, 255] ++ List.replicate 11 0 ++ List.replicate 4 255 ++
    List.replicate 32 0 ++ [1, 0, 0, 0, 134, 71, 7, 102]).getD i 0

def imageStage : List (Nat × Nat) := (List.range 2100).map fun i => (i, imageByte i)

theorem imageStage_get (i : Nat) : kvGet (fun _ => 0) imageStage i = imageByte i := by
  have f : ∀ n k, kvFind? ((List.range' k n).map fun i => (i, imageByte i)) i = if k ≤ i ∧ i < k + n then some (imageByte i) else none := by
    intro n
    induction n with
    | zero => intro k; rw [if_neg (by omega)]; rfl
    | succ n ih =>
      intro k
      rw [List.range'_succ, List.map_cons, kvFind?]
      by_cases h : k = i
      · subst h; rw [if_pos rfl, if_pos (by omega)]
      · rw [if_neg h, ih]
        by_cases g : k + 1 ≤ i ∧ i < k + 1 + n
        · rw [if_pos g, if_pos (by omega)]
        · rw [if_neg g, if_neg (by omega)]
  unfold kvGet imageStage
  rw [List.range_eq_range', f]
  by_cases h : 0 ≤ i ∧ i < 0 + 2100
  · rw [if_pos h]; rfl
  · rw [if_neg h]
    unfold imageByte
    rw [if_pos (by omega)]; rfl

theorem staged (l : List (Nat × Nat)) : (on (·.modMgt fun m => { m with stage := l })).dev.mgt.stage = l := rfl

theorem wit_PliuthCommits_image :
    let s := on (·.modMgt fun m => { m with stage := imageStage })
    s.dev.mgt.burn = none ∧ s.dev.mgt.restarting = false ∧ s.dev.commitStatus s.nv = 0 := by
  refine ⟨rfl, rfl, ?_⟩
  have c := crc32_of_zeros (fun j => imageByte (64 + j)) 2028 (by decide +kernel) fun i _ => if_pos (by omega)
  have g := staged imageStage
  have l : imageStage.length = 2100 := by
    unfold imageStage; rw [List.length_map, List.length_range]
  have r : (on (·.modMgt fun m => { m with stage := imageStage })).dev.role = 0 := by decide
  have k : (on (·.modMgt fun m => { m with stage := imageStage })).dev.flag .gblLock F.gblLock_LOCK = false := by decide
  have n : (on (·.modMgt fun m => { m with stage := imageStage })).nv.burned 7 = false := rfl
  have z : (zeroFields.any fun z => (List.range z.2.1).any fun j => imageByte (60 + (z.1 + j)) &&& z.2.2 != 0) = false := by decide +kernel
  unfold Dev.commitStatus
  simp only [g, l, imageStage_get, r, k, n, z]
  have c' : crc32 ((List.range 2036).map fun j => imageByte (64 + j)) = 2 ^ 32 - 1 := c
  rw [c']
  decide +kernel

theorem wit_TenantCounters :
    RegView.slot (.tenant 15) 0x30078 = some (.counter 3591 false) ∧ RegView.slot (.tenant 15) 0x3003C = some (.counter 383 true) := by
  decide +kernel

theorem wit_FieldRules : (Reg.gblLock).fieldDefs ≠ [] := by decide +kernel

/-! ### The Deck's tables (Table 4.8, Table 17.7) -/

theorem test_deckBlocks : deckBlocks.length = 88 := by decide +kernel
theorem test_deckEvents : deckEvents.length = 68 := by decide +kernel

end Sys2Proof.Machine.Test
end

section
/-! SUPPORT. Every command goes on (00_scope.md, R7): one next state, the same queue, and no change where the operands name nothing
that the device has. -/

namespace Sys2Proof.Machine

open Sys2Proof

/-- The answer is a next state in which the commands that wait are those of `s`. -/
def GoesOn (s : State) (r : Res) : Prop := ∃ t, r = .next t ∧ t.pending = s.pending

theorem goesOn_next {s t : State} (h : t.pending = s.pending) : GoesOn s (.next t) := ⟨t, rfl, h⟩

theorem goesOn_ifWf {s : State} {i : Instr} {r : Res} (h : GoesOn s r) : GoesOn s (ifWf i s r) := by
  unfold ifWf; split
  · exact h
  · exact goesOn_next rfl

theorem Plain.goesOn {s : State} {r : Res} (h : Plain s r) : GoesOn s r := by
  obtain ⟨t, ht, hq, -⟩ := h.keeps
  exact ⟨t, ht, hq⟩

/-! ### The ways of ending a command that `Plain` leaves out -/

@[simp] theorem State.keepFailed_pending (s : State) : s.keepFailed.pending = s.pending := by
  unfold State.keepFailed; split <;> rfl

@[simp] theorem State.stiled_pending (s : State) (p : Stile × List StlNote) : (s.stiled p).pending = s.pending := by
  unfold State.stiled; dsimp only; split <;> rfl

@[simp] theorem State.onStile_pending (s : State) (f : Stile → Stile × List StlNote) : (s.onStile f).pending = s.pending := by
  unfold State.onStile; split
  · exact s.stiled_pending _
  · rfl

@[simp] theorem State.dropPower_pending (s : State) (p : BurnPoint) (tripped : Bool) :
    (s.dropPower p tripped).pending = s.pending := rfl

@[simp] theorem State.registerWrite_pending (s : State) (view : RegView) (h off size v : Nat) :
    (s.registerWrite view h off size v).pending = s.pending := by
  unfold State.registerWrite
  split
  · rfl
  · split
    · rfl
    · split
      · rfl
      · split
        · rfl
        · exact State.keepFailed_pending _

/-- Every command goes on: those that act on the main die alone by `exec_plain`, the others by the way in which they end. -/
theorem exec_goesOn (i : Instr) (s : State) : GoesOn s (exec i s) := by
  cases i with
  | crossingDelivery _ => exact goesOn_next ((State.keepFailed_pending _).trans (s.bothWork_pending _))
  | trainingRecordWrite _ _ => exact goesOn_ifWf (goesOn_next (s.flash_pending _))
  | spareCopyComplete _ => exact goesOn_ifWf (goesOn_next ((State.keepFailed_pending _).trans (s.event_pending _)))
  | regwr _ => exact goesOn_ifWf (goesOn_next ((State.keepFailed_pending _).trans (s.bothWork_pending _)))
  | memberLinkDown _ => exact goesOn_ifWf (goesOn_next ((State.keepFailed_pending _).trans (s.bothWork_pending _)))
  | stilePor _ _ _ =>
    refine goesOn_next ?_
    split
    · exact s.stiled_pending _
    · rfl
  | stileEvaluationStep _ => exact goesOn_next (s.stiled_pending _)
  | qualificationComplete _ => exact goesOn_ifWf (goesOn_next (s.onStile_pending _))
  | rampTimeout _ _ => exact goesOn_ifWf (goesOn_next (s.onStile_pending _))
  | currentLimit _ => exact goesOn_ifWf (goesOn_next (s.onStile_pending _))
  | faultTimerExpiry _ _ => exact goesOn_ifWf (goesOn_next (s.onStile_pending _))
  | faultTimerClear _ => exact goesOn_ifWf (goesOn_next (s.onStile_pending _))
  | fastTrip _ _ => exact goesOn_ifWf (goesOn_next (s.onStile_pending _))
  | coolExpiry _ => exact goesOn_ifWf (goesOn_next (s.onStile_pending _))
  | retryCountReset _ => exact goesOn_ifWf (goesOn_next (s.onStile_pending _))
  | passFetDamaged _ _ => exact goesOn_ifWf (goesOn_next (s.onStile_pending _))
  | oringFetDamaged _ _ => exact goesOn_ifWf (goesOn_next (s.onStile_pending _))
  | reverseTurnOff _ => exact goesOn_ifWf (goesOn_next (s.onStile_pending _))
  | pgHoldExpiry => exact goesOn_next (s.onStile_pending _)
  | orderlyGateOff => exact goesOn_next (s.onStile_pending _)
  | latchInputLowExpiry _ => exact goesOn_ifWf (goesOn_next (s.onStile_pending _))
  | stlOffNAssert => exact goesOn_next (s.onStile_pending _)
  | stlOffNRelease => exact goesOn_next (s.onStile_pending _)
  | feedEnable _ => exact goesOn_ifWf (goesOn_next (s.both_pending _))
  | feedDisable _ => exact goesOn_ifWf (goesOn_next (s.both_pending _))
  | restart _ => exact goesOn_ifWf (goesOn_next (s.both_pending _))
  | clrFet _ => exact goesOn_ifWf (goesOn_next (s.both_pending _))
  | stlVthrWrite _ => exact goesOn_ifWf (goesOn_next (s.both_pending _))
  | pop => exact goesOn_next (s.both_pending _)
  | stileLogDrain => exact goesOn_next (s.both_pending _)
  | stileMeasurement _ => exact goesOn_next (s.onStile_pending _)
  | stileThermalShutdown _ _ => exact goesOn_ifWf (goesOn_next (s.onStile_pending _))
  | pwrOkRise => exact goesOn_next rfl
  | pwrOkFall _ => exact goesOn_next (s.dropPower_pending _ _)
  | powerOnResetRelease _ _ _ _ _ _ => exact goesOn_ifWf (goesOn_next rfl)
  | watchdogExpiry => exact goesOn_next (s.both_pending _)
  | transferFw _ _ _ _ _ => exact goesOn_ifWf (goesOn_next (s.flash_pending _))
  | activateFw _ _ => exact goesOn_ifWf (goesOn_next (s.flash_pending _))
  | holdCommitReset => exact goesOn_next (s.both_pending _)
  | gblReset => exact goesOn_next (s.bothPowered_pending _)
  | registerWrite _ _ _ _ _ => exact goesOn_ifWf (goesOn_next (s.registerWrite_pending _ _ _ _ _))
  | invalidRegisterAccess _ _ _ _ _ => exact goesOn_ifWf (goesOn_next (s.bothPowered_pending _))
  | thermtrip _ =>
    refine goesOn_next ?_
    split
    · rfl
    · exact s.dropPower_pending _ _
  | commitBurnComplete _ =>
    change GoesOn s (if s.up then _ else _)
    split
    · exact goesOn_next rfl
    · exact goesOn_next rfl
  | stileStandbyLoss _ => exact goesOn_next (s.onStile_pending _)
  | _ => exact (exec_plain _ s rfl).goesOn

/-- A command whose operands name nothing that the device has changes nothing (log entry 62): each arm of `exec` stands behind
`ifWf`, but for commands whose operands, if any, are always in range. -/
theorem exec_of_not_wf {i : Instr} (h : i.wf = false) (s : State) : exec i s = .next s := by
  cases i <;> exact ifWf_not h s _

/-- Settles O8. -/
theorem everyCommandGoesOn : Obligations.EveryCommandGoesOn := by
  intro c s
  obtain ⟨t, ht, hq⟩ := exec_goesOn c s
  refine ⟨t, ht, hq, fun hwf => ?_⟩
  rw [exec_of_not_wf hwf] at ht
  exact (Host.Outcome.next.inj ht).symm

end Sys2Proof.Machine
end

section
/-! SUPPORT. The field rules of Table 0.3 (R5). The field tables list disjoint fields in descending order, so that a pass over a table
that puts a value into some of its fields leaves each field with its own value, or as it was. -/

namespace Sys2Proof.Machine

/-- The fields lie in descending order below bit `top`, each with at least one bit. -/
def fieldsBelow : Nat → List FieldDef → Bool
  | _, [] => true
  | top, f :: l => decide (f.lo ≤ f.hi) && decide (f.hi < top) && fieldsBelow f.lo l

/-- Every field table of the catalogue is in descending order within 64 bits. -/
theorem Reg.fieldDefs_below (r : Reg) : fieldsBelow 64 r.fieldDefs = true := by cases r <;> rfl

theorem fieldsBelow_cons {top : Nat} {f : FieldDef} {l : List FieldDef} :
    fieldsBelow top (f :: l) = true ↔ f.lo ≤ f.hi ∧ f.hi < top ∧ fieldsBelow f.lo l = true := by
  simp [fieldsBelow, and_assoc]

theorem fieldsBelow_mem {l : List FieldDef} {f : FieldDef} (hf : f ∈ l) :
    ∀ {top : Nat}, fieldsBelow top l = true → f.hi < top := by
  induction l with
  | nil => cases hf
  | cons g l ih =>
    intro top h
    obtain ⟨hlo, hhi, hl⟩ := fieldsBelow_cons.mp h
    rcases List.mem_cons.mp hf with rfl | hf
    · exact hhi
    · have := ih hf hl
      omega

/-- A pass over a field table: each field for which `g` gives a value takes it. -/
def putFields (g : FieldDef → Option Nat) (l : List FieldDef) (v : Nat) : Nat :=
  l.foldl (fun acc f => (g f).elim acc (putBits acc f.hi f.lo)) v

theorem bitsOf_elim_put_self {hi lo : Nat} (x : Option Nat) (v : Nat) (h : lo ≤ hi) :
    bitsOf (x.elim v (putBits v hi lo)) hi lo = x.elim (bitsOf v hi lo) (· % 2 ^ (hi + 1 - lo)) := by
  cases x with
  | none => rfl
  | some x => exact bitsOf_put_self h

/-- Putting one field leaves the bits beside it. -/
theorem bitsOf_elim_put_other {f : FieldDef} {hi lo : Nat} (x : Option Nat) (v : Nat) (hf : f.lo ≤ f.hi) (h : hi < f.lo ∨ f.hi < lo) :
    bitsOf (x.elim v (putBits v f.hi f.lo)) hi lo = bitsOf v hi lo := by
  cases x with
  | none => rfl
  | some x => exact bitsOf_put_other hf h

/-- A pass leaves the bits above its fields. -/
theorem bitsOf_putFields_above (g : FieldDef → Option Nat) (hi lo : Nat) (l : List FieldDef) :
    ∀ (top v : Nat), fieldsBelow top l = true → top ≤ lo → bitsOf (putFields g l v) hi lo = bitsOf v hi lo := by
  induction l with
  | nil => exact fun _ _ _ _ => rfl
  | cons f l ih =>
    intro top v h htop
    obtain ⟨hlo, hhi, hl⟩ := fieldsBelow_cons.mp h
    exact (ih f.lo _ hl (by omega)).trans (bitsOf_elim_put_other _ v hlo (.inr (by omega)))

/-- A pass leaves each field with the value that it puts there, or as it was. -/
theorem bitsOf_putFields (g : FieldDef → Option Nat) {f : FieldDef} (l : List FieldDef) (hf : f ∈ l) :
    ∀ (top v : Nat), fieldsBelow top l = true →
      bitsOf (putFields g l v) f.hi f.lo = (g f).elim (bitsOf v f.hi f.lo) (· % 2 ^ (f.hi + 1 - f.lo)) := by
  induction l with
  | nil => cases hf
  | cons e l ih =>
    intro top v h
    obtain ⟨hlo, hhi, hl⟩ := fieldsBelow_cons.mp h
    rcases List.mem_cons.mp hf with rfl | hf
    · exact (bitsOf_putFields_above g _ _ l f.lo _ hl le_rfl).trans (bitsOf_elim_put_self _ v hlo)
    · refine (ih hf e.lo _ hl).trans ?_
      rw [bitsOf_elim_put_other _ v hlo (.inl (fieldsBelow_mem hf hl))]

/-- What a write of `w` puts into a field of a register that holds `v`; none where the field does not follow writes. -/
def FieldDef.written (locked : Bool) (v w : Nat) (f : FieldDef) : Option Nat :=
  match f.acc with
  | .rw | .rws => some (bitsOf w f.hi f.lo)
  | .rwl => if locked then none else some (bitsOf w f.hi f.lo)
  | .rw1c => some (bitsOf v f.hi f.lo - (bitsOf v f.hi f.lo &&& bitsOf w f.hi f.lo))
  | .ro | .wo | .rsv => none

/-- What a read puts in place of a field that it does not show. -/
def FieldDef.blank (f : FieldDef) : Option Nat :=
  match f.acc with
  | .wo | .rsv => some 0
  | _ => none

theorem Reg.applyWrite_eq (r : Reg) (locked : Bool) (v w : Nat) :
    r.applyWrite locked v w = putFields (FieldDef.written locked v w) r.fieldDefs v := by
  unfold Reg.applyWrite putFields
  congr 1
  funext acc f
  unfold FieldDef.written
  cases f.acc <;> cases locked <;> rfl

theorem Reg.readMask_eq (r : Reg) (v : Nat) : r.readMask v = putFields FieldDef.blank r.fieldDefs v := by
  unfold Reg.readMask putFields
  congr 1
  funext acc f
  unfold FieldDef.blank
  cases f.acc <;> rfl

theorem FieldDef.written_lt {locked : Bool} {v w x : Nat} {f : FieldDef} (h : f.written locked v w = some x) :
    x < 2 ^ (f.hi + 1 - f.lo) := by
  have hv := bitsOf_lt v f.hi f.lo
  have hw := bitsOf_lt w f.hi f.lo
  unfold FieldDef.written at h
  cases ha : f.acc <;> cases locked <;> simp [ha] at h <;> omega

/-- A write leaves each field of a register with what its access type puts there, or as it was. -/
theorem Reg.bitsOf_applyWrite {r : Reg} {f : FieldDef} (hf : f ∈ r.fieldDefs) (locked : Bool) (v w : Nat) :
    bitsOf (r.applyWrite locked v w) f.hi f.lo = (f.written locked v w).getD (bitsOf v f.hi f.lo) := by
  rw [r.applyWrite_eq, bitsOf_putFields _ _ hf 64 v r.fieldDefs_below]
  cases h : f.written locked v w with
  | none => rfl
  | some x => exact Nat.mod_eq_of_lt (FieldDef.written_lt h)

/-- A read shows each field, or zeros where its access type hides it. -/
theorem Reg.bitsOf_readMask {r : Reg} {f : FieldDef} (hf : f ∈ r.fieldDefs) (v : Nat) :
    bitsOf (r.readMask v) f.hi f.lo = if f.acc = .wo ∨ f.acc = .rsv then 0 else bitsOf v f.hi f.lo := by
  rw [r.readMask_eq, bitsOf_putFields _ _ hf 64 v r.fieldDefs_below]
  unfold FieldDef.blank
  cases f.acc <;> simp

/-- Settles O56. -/
theorem fieldRules : Obligations.FieldRules := by
  intro r locked v w f hf
  have hnow := Reg.bitsOf_applyWrite hf locked v w
  have hshown := Reg.bitsOf_readMask hf v
  unfold FieldDef.written at hnow
  simp only [hnow, hshown]
  cases f.acc with
  | rw => exact ⟨rfl, rfl⟩
  | rws => exact ⟨rfl, rfl⟩
  | rwl => cases locked <;> exact ⟨rfl, rfl⟩
  | rw1c => exact ⟨rfl, rfl⟩
  | ro => exact ⟨rfl, rfl⟩
  | wo => exact ⟨rfl, rfl⟩
  | rsv => exact ⟨rfl, rfl⟩

end Sys2Proof.Machine
end

section
/-! SUPPORT. Registers of the main die: what a change of some fields leaves, and a command that stands for an access to a register
which the access reaches. -/

namespace Sys2Proof.Machine

/-! ### Registers that stay -/

theorem Dev.keepsRegs_of_regs_eq {d e : Dev} {but : List Reg} (h : e.regs = d.regs) : d.keepsRegs e but := fun q _ => by
  simp only [Dev.rd, h]

theorem Dev.keepsRegs.setFld {d e : Dev} {but : List Reg} {r : Reg} (h : d.keepsRegs e but) (hr : r ∈ but) (f : Fld) (x : Nat) :
    d.keepsRegs (e.setFld r f x) but := fun q hq => (Dev.rd_setFld_other e x (hq r hr)).trans (h q hq)

theorem Dev.keepsRegs.setFlag {d e : Dev} {but : List Reg} {r : Reg} (h : d.keepsRegs e but) (hr : r ∈ but) (f : Fld) (b : Bool) :
    d.keepsRegs (e.setFlag r f b) but := h.setFld hr f (b2n b)

theorem Dev.keepsRegs.regs_eq {d e c : Dev} {but : List Reg} (h : d.keepsRegs e but) (hc : c.regs = e.regs) : d.keepsRegs c but :=
  fun q hq => (Dev.keepsRegs_of_regs_eq hc q hq).trans (h q hq)

theorem Dev.keepsRegs.fld {d e : Dev} {but : List Reg} (h : d.keepsRegs e but) {q : Reg} (hq : ∀ r ∈ but, r.offset ≠ q.offset)
    (g : Fld) : e.fld q g = d.fld q g := by
  have hrd : e.regs.get q = d.regs.get q := h q hq
  simp only [Dev.fld, RegFile.fld, hrd]

theorem Dev.fld_of_regs_eq {d e : Dev} (h : e.regs = d.regs) (q : Reg) (g : Fld) : e.fld q g = d.fld q g := by
  simp only [Dev.fld, h]

/-! ### Flags -/

theorem Dev.flag_setFld_other (d : Dev) {r q : Reg} {f g : Fld} (x : Nat) (h : r.offset ≠ q.offset) :
    (d.setFld r f x).flag q g = d.flag q g := congrArg (· != 0) (Dev.fld_setFld_other d x h)

theorem Dev.flag_setFlag_other (d : Dev) {r q : Reg} {f g : Fld} (b : Bool) (h : r.offset ≠ q.offset) :
    (d.setFlag r f b).flag q g = d.flag q g := d.flag_setFld_other (b2n b) h

theorem Dev.fld_setFlag_other (d : Dev) {r q : Reg} {f g : Fld} (b : Bool) (h : r.offset ≠ q.offset) :
    (d.setFlag r f b).fld q g = d.fld q g := d.fld_setFld_other (b2n b) h

theorem Dev.fld_setFlag_field (d : Dev) (r : Reg) {f g : Fld} (b : Bool) (h : f.lo ≤ f.hi) (h64 : g.hi < 64)
    (hd : g.hi < f.lo ∨ f.hi < g.lo) : (d.setFlag r f b).fld r g = d.fld r g := d.fld_setFld_field r (b2n b) h h64 hd

theorem Dev.flag_setFlag_field (d : Dev) (r : Reg) {f g : Fld} (b : Bool) (h : f.lo ≤ f.hi) (h64 : g.hi < 64)
    (hd : g.hi < f.lo ∨ f.hi < g.lo) : (d.setFlag r f b).flag r g = d.flag r g :=
  congrArg (· != 0) (d.fld_setFlag_field r b h h64 hd)

/-! ### Commands that stand for an access -/

/-- Registers outside the block of the cascade are hidden on no member (R374). -/
theorem Dev.casHidden_outside (d : Dev) {r : Reg} (h : r.offset < 0xD00000 ∨ 0xE00000 ≤ r.offset) : d.casHidden r = false := by
  unfold Dev.casHidden
  rcases h with h | h
  · rw [decide_eq_false (by omega : ¬ 0xD00000 ≤ r.offset)]; simp
  · rw [decide_eq_false (by omega : ¬ r.offset < 0xE00000)]; simp

theorem Dev.viaReg_of_reaches {s : State} {r : Reg} (h : s.reaches r) (hr : r.offset < 0xD00000 ∨ 0xE00000 ≤ r.offset)
    (f : Dev → Dev) : s.dev.viaReg r f = f s.dev := by
  obtain ⟨-, hat, hcause⟩ := h
  simp only [Dev.viaReg, hat, hcause, Dev.casHidden_outside _ hr, ne_eq, not_true_eq_false, if_false, Bool.false_eq_true]

end Sys2Proof.Machine
end

section
/-! SUPPORT. HDM decoders (R58 to R64) and host errors (R7): each decoder is held under a key of its own, a host error marks its LD and
no other, and the four commands of a decoder by what they find. -/

namespace Sys2Proof.Machine

variable (d : Dev)

/-! ### A host error stays with its LD -/

theorem Dev.isWild_goWild_self {n : Nat} (hn : n < 16) : (d.goWild n).isWild n = true := by
  unfold Dev.goWild Dev.isWild
  rw [if_neg (by omega)]
  simp

theorem Dev.isWild_goWild_other {n m : Nat} (h : m ≠ n) : (d.goWild n).isWild m = d.isWild m := by
  unfold Dev.goWild Dev.isWild
  split
  · rfl
  · simp [List.mem_filter, h, List.contains_eq_mem]

@[simp] theorem Dev.goWild_regs (n : Nat) : (d.goWild n).regs = d.regs := by unfold Dev.goWild; split <;> rfl
@[simp] theorem Dev.goWild_home (n : Nat) : (d.goWild n).home = d.home := by unfold Dev.goWild; split <;> rfl
@[simp] theorem Dev.goWild_hdm (n : Nat) : (d.goWild n).hp.hdm = d.hp.hdm := by unfold Dev.goWild; split <;> rfl
@[simp] theorem Dev.goWild_cip (n : Nat) : (d.goWild n).cip = d.cip := by unfold Dev.goWild; split <;> rfl
@[simp] theorem Dev.goWild_out (n : Nat) : (d.goWild n).out = d.out := by unfold Dev.goWild; split <;> rfl

/-! ### Reading and writing a decoder -/

@[simp] theorem Dev.hdm_setHdm_self (n i : Nat) (z : HdmDec) : (d.setHdm n i z).hdm n i = z := kvGet_set_self _ _ _ _

theorem Dev.hdm_setHdm_other {n i m k : Nat} (z : HdmDec) (h : m ≠ n ∨ k ≠ i) (hi : i < 8) (hk : k < 8) :
    (d.setHdm n i z).hdm m k = d.hdm m k := kvGet_set_other _ _ (by omega) _

/-! ### What the commands of a decoder do -/

theorem Dev.hdmOverlap_iff (n i : Nat) : d.hdmOverlap n i = true ↔ ∃ k < 8, k ≠ i ∧ (d.hdm n k).committed = true ∧
    overlaps (d.hdm n i).base (d.hdm n i).size (d.hdm n k).base (d.hdm n k).size = true := by
  simp [Dev.hdmOverlap, and_assoc]

variable {d} {n i ig iw : Nat} {lock : Bool}

section
variable (hn : n < 16) (hi : i < 8) (hig : ig < 16) (hiw : iw < 16)
include hn hi hig hiw

/-- A commit of a decoder without Commit, or refused before, is checked (R58, R60) ... -/
theorem Dev.hdmCommit_accepted {b : Nat} (h : (d.hdm n i).commit = false ∨ (d.hdm n i).err = true)
    (hb : d.hdmCheck n i { d.hdm n i with ig := ig, iw := iw, lock := lock, err := false } = some b) :
    d.hdmCommit n i ig iw lock =
      d.setHdm n i { d.hdm n i with ig := ig, iw := iw, lock := lock, err := false, commit := true, dpaBase := b } := by
  have hopen : ((d.hdm n i).commit && !(d.hdm n i).err) = false := by rcases h with h | h <;> simp [h]
  have hrange : ¬ (16 ≤ n ∨ 8 ≤ i) := by omega
  simp only [Dev.hdmCommit, hrange, hopen, Nat.mod_eq_of_lt hig, Nat.mod_eq_of_lt hiw, if_false, Bool.false_eq_true, hb]

/-- ... and shows Error Not Committed where a check fails. -/
theorem Dev.hdmCommit_refused (h : (d.hdm n i).commit = false ∨ (d.hdm n i).err = true)
    (hb : d.hdmCheck n i { d.hdm n i with ig := ig, iw := iw, lock := lock, err := false } = none) :
    d.hdmCommit n i ig iw lock =
      d.setHdm n i { d.hdm n i with ig := ig, iw := iw, lock := lock, err := true, commit := true } := by
  have hopen : ((d.hdm n i).commit && !(d.hdm n i).err) = false := by rcases h with h | h <;> simp [h]
  have hrange : ¬ (16 ≤ n ∨ 8 ≤ i) := by omega
  simp only [Dev.hdmCommit, hrange, hopen, Nat.mod_eq_of_lt hig, Nat.mod_eq_of_lt hiw, if_false, Bool.false_eq_true, hb]

/-- A commit of a decoder with Commit does nothing, unless it rewrites a committed decoder that is not locked (R64). -/
theorem Dev.hdmCommit_held (hc : (d.hdm n i).commit = true) (he : (d.hdm n i).err = false) :
    d.hdmCommit n i ig iw lock =
      if (d.hdm n i).committed = true ∧ (d.hdm n i).lock = false ∧ ((d.hdm n i).ig ≠ ig ∨ (d.hdm n i).iw ≠ iw) then d.goWild n
      else d := by
  have hrange : ¬ (16 ≤ n ∨ 8 ≤ i) := by omega
  simp [Dev.hdmCommit, hrange, hc, he, Nat.mod_eq_of_lt hig, Nat.mod_eq_of_lt hiw, and_assoc]

end

/-- A decoder that waits to take effect is checked again (R62); one that then overlaps a committed one is a host error (R64). -/
theorem Dev.hdmTakes_accepted {b : Nat} (hc : (d.hdm n i).commit = true) (ht : (d.hdm n i).committed = false)
    (he : (d.hdm n i).err = false) (hb : d.hdmCheck n i (d.hdm n i) = some b) :
    d.hdmTakes n i =
      let e := d.setHdm n i { d.hdm n i with committed := true, dpaBase := b }
      if d.hdmOverlap n i then e.goWild n else e := by
  simp only [Dev.hdmTakes, hc, ht, he, Bool.not_false, Bool.and_self, if_true, hb]

theorem Dev.hdmTakes_refused (hc : (d.hdm n i).commit = true) (ht : (d.hdm n i).committed = false) (he : (d.hdm n i).err = false)
    (hb : d.hdmCheck n i (d.hdm n i) = none) : d.hdmTakes n i = d.setHdm n i { d.hdm n i with err := true } := by
  simp only [Dev.hdmTakes, hc, ht, he, Bool.not_false, Bool.and_self, if_true, hb]

theorem Dev.hdmTakes_idle (h : (d.hdm n i).commit = false ∨ (d.hdm n i).committed = true ∨ (d.hdm n i).err = true) :
    d.hdmTakes n i = d := by
  rcases h with h | h | h <;> simp [Dev.hdmTakes, h]

theorem Dev.hdmUncommit_open (hc : (d.hdm n i).commit = true) (h : (d.hdm n i).lock = false ∨ (d.hdm n i).err = true) :
    d.hdmUncommit n i = d.setHdm n i { d.hdm n i with commit := false } := by
  rcases h with h | h <;> simp [Dev.hdmUncommit, hc, h]

theorem Dev.hdmUncommit_idle (h : (d.hdm n i).commit = false ∨ (d.hdm n i).lock = true ∧ (d.hdm n i).err = false) :
    d.hdmUncommit n i = d := by
  rcases h with h | ⟨hl, he⟩
  · simp [Dev.hdmUncommit, h]
  · simp [Dev.hdmUncommit, hl, he]

theorem Dev.hdmUntakes_due (hc : (d.hdm n i).commit = false) (ht : (d.hdm n i).committed = true) :
    d.hdmUntakes n i = d.setHdm n i { d.hdm n i with committed := false, dpaBase := 0 } := by
  simp [Dev.hdmUntakes, hc, ht]

theorem Dev.hdmUntakes_idle (h : (d.hdm n i).commit = true ∨ (d.hdm n i).committed = false) : d.hdmUntakes n i = d := by
  rcases h with h | h <;> simp [Dev.hdmUntakes, h]

/-- Settles O27. -/
theorem hdmDecoders : Obligations.HdmDecoders := by
  intro s n i ig iw lock hu hn hi hig hiw x y overlap rewrite
  have hcommit := exec_hdmCommit (n := n) (i := i) (ig := ig) (iw := iw) (lock := lock)
    (by simp [Instr.wf, hn, hi, hig, hiw]) hu
  have htakes := exec_hdmCommitTakesEffect (n := n) (i := i) (by simp [Instr.wf, hn, hi]) hu
  have huncommit := exec_hdmUncommit (n := n) (i := i) (by simp [Instr.wf, hn, hi]) hu
  have huntakes := exec_hdmUncommitTakesEffect (n := n) (i := i) (by simp [Instr.wf, hn, hi]) hu
  refine ⟨fun h => ?_, fun hc he => ?_, fun hc ht he => ?_, fun h => ?_, fun hc h => ?_, fun h => ?_, fun hc ht => ?_, fun h => ?_,
    fun z => ⟨Dev.hdm_setHdm_self _ n i z, fun m k h _ hk => Dev.hdm_setHdm_other _ z h hi hk⟩,
    Dev.isWild_goWild_self _ hn, fun m h => Dev.isWild_goWild_other _ h, Dev.goWild_regs _ n, Dev.goWild_home _ n,
    Dev.goWild_hdm _ n, Dev.goWild_cip _ n, Dev.goWild_out _ n⟩
  · exact ⟨fun b hb => by rw [hcommit, Dev.hdmCommit_accepted hn hi hig hiw h hb],
      fun hb => by rw [hcommit, Dev.hdmCommit_refused hn hi hig hiw h hb]⟩
  · rw [hcommit, Dev.hdmCommit_held hn hi hig hiw hc he]
    exact ⟨fun h => by rw [if_neg h], fun h => by rw [if_pos h]⟩
  · refine ⟨fun b hb => ?_, fun hb => by rw [htakes, Dev.hdmTakes_refused hc ht he hb]⟩
    rw [htakes, Dev.hdmTakes_accepted hc ht he hb]
    exact ⟨fun h => by simp only [if_neg (mt (Dev.hdmOverlap_iff s.dev n i).mp h), x],
      fun h => by simp only [if_pos ((Dev.hdmOverlap_iff s.dev n i).mpr h), x]⟩
  · rw [htakes, Dev.hdmTakes_idle h]
  · rw [huncommit, Dev.hdmUncommit_open hc h]
  · rw [huncommit, Dev.hdmUncommit_idle h]
  · rw [huntakes, Dev.hdmUntakes_due hc ht]
  · rw [huntakes, Dev.hdmUntakes_idle h]

end Sys2Proof.Machine
end

section
/-! SUPPORT. The command and completion rings (chapter 12), operation by operation: what each leaves in the registers of its ring,
in the ring engine and in what is sent, and when it does nothing. -/

namespace Sys2Proof.Machine

variable (d : Dev) (n r : Nat)

/-! ### The registers of a ring -/

theorem rngCrCtrl_offset_ge : 0xE00000 ≤ (Reg.rngCrCtrl n r).offset := by simp only [Reg.offset]; omega
theorem rngCrTail_offset_ge : 0xE00000 ≤ (Reg.rngCrTail n r).offset := by simp only [Reg.offset]; omega
theorem rngCqCtrl_offset_ge : 0xE00000 ≤ (Reg.rngCqCtrl n r).offset := by simp only [Reg.offset]; omega
theorem rngCqHead_offset_ge : 0xE00000 ≤ (Reg.rngCqHead n r).offset := by simp only [Reg.offset]; omega

theorem rngCrCtrl_ne_stat : (Reg.rngCrCtrl n r).offset ≠ (Reg.rngCrStat n r).offset := by simp only [Reg.offset]; omega
theorem rngCrCtrl_ne_tail : (Reg.rngCrCtrl n r).offset ≠ (Reg.rngCrTail n r).offset := by simp only [Reg.offset]; omega
theorem rngCrTail_ne_stat : (Reg.rngCrTail n r).offset ≠ (Reg.rngCrStat n r).offset := by simp only [Reg.offset]; omega
theorem rngCqCtrl_ne_stat : (Reg.rngCqCtrl n r).offset ≠ (Reg.rngCqStat n r).offset := by simp only [Reg.offset]; omega
theorem rngCqCtrl_ne_head : (Reg.rngCqCtrl n r).offset ≠ (Reg.rngCqHead n r).offset := by simp only [Reg.offset]; omega
theorem rngCqStat_ne_head : (Reg.rngCqStat n r).offset ≠ (Reg.rngCqHead n r).offset := by simp only [Reg.offset]; omega

/-! ### Command rings: enabling and disabling (R312) -/

/-- A command ring may be enabled: its SIZE, its completion ring and, in an LD's set, the binding allow it. -/
def Dev.crFits : Prop :=
  4 ≤ d.fld (.rngCrCtrl n r) F.rngCrCtrl_SIZE ∧ d.fld (.rngCrCtrl n r) F.rngCrCtrl_SIZE ≤ 16 ∧
  d.cqEn n (d.fld (.rngCrCtrl n r) F.rngCrCtrl_CQ) = true ∧ (n < 16 → d.bound n = true)

/-- The ring as CR_ENABLE leaves it: enabled, empty, with an idle doorbell crossing. -/
def Dev.crStart : Dev :=
  ((((d.setTailRecv n r 0).setFlag (.rngCrCtrl n r) F.rngCrCtrl_EN true).setFld (.rngCrStat n r) F.rngCrStat_HEAD 0).setFld
    (.rngCrTail n r) F.rngCrTail_TAIL 0).setFlag (.rngCrStat n r) F.rngCrStat_ERRSTOP false

variable {d n r}

theorem Dev.crEnable_of_enabled (h : d.crEn n r = true) : d.crEnable n r = d := by simp [Dev.crEnable, h]

theorem Dev.crEnable_of_fits (h : d.crEn n r = false) (hf : d.crFits n r) : d.crEnable n r = d.crStart n r := by
  obtain ⟨h4, h16, hcq, hb⟩ := hf
  simp only [Dev.crEnable, h, hcq, Bool.false_eq_true, if_false]
  rw [if_neg]
  · rfl
  · rintro (h | h | h | ⟨hn, h⟩)
    · omega
    · omega
    · exact absurd h (by decide)
    · simp [hb hn] at h

theorem Dev.crEnable_of_not_fits (h : d.crEn n r = false) (hf : ¬ d.crFits n r) :
    d.crEnable n r = d.setFlag (.rngCrCtrl n r) F.rngCrCtrl_ERR true := by
  simp only [Dev.crEnable, h, Bool.false_eq_true, if_false]
  rw [if_pos]
  by_contra hcon
  simp only [not_or, not_lt, Bool.not_eq_true', Bool.not_eq_false, not_and] at hcon
  exact hf hcon

theorem Dev.crDisable_of_disabled (h : d.crEn n r = false) : d.crDisable n r = d := by simp [Dev.crDisable, h]

theorem Dev.crDisable_of_enabled (h : d.crEn n r = true) : d.crDisable n r =
    ((d.setFld (.rngCrTail n r) F.rngCrTail_TAIL (d.tailRecv n r)).setFlag (.rngCrCtrl n r) F.rngCrCtrl_EN false).dropFetches n r := by
  simp [Dev.crDisable, h]

variable (d n r)

theorem Dev.crEn_crStart : (d.crStart n r).crEn n r = true := by
  unfold Dev.crStart Dev.crEn
  rw [Dev.flag_setFlag_other _ _ (rngCrCtrl_ne_stat n r).symm, Dev.flag_setFld_other _ _ (rngCrCtrl_ne_tail n r).symm,
    Dev.flag_setFld_other _ _ (rngCrCtrl_ne_stat n r).symm, Dev.flag_setFlag_self _ _ _ (by decide) (by decide)]

theorem Dev.crHead_crStart : (d.crStart n r).crHead n r = 0 := by
  unfold Dev.crStart Dev.crHead
  rw [Dev.fld_setFlag_field _ _ _ (by decide) (by decide) (by decide), Dev.fld_setFld_other _ _ (rngCrTail_ne_stat n r),
    Dev.fld_setFld_self _ _ _ (by decide) (by decide), Nat.zero_mod]

theorem Dev.crTail_crStart : (d.crStart n r).crTail n r = 0 := by
  unfold Dev.crStart Dev.crTail
  rw [Dev.fld_setFlag_other _ _ (rngCrTail_ne_stat n r).symm, Dev.fld_setFld_self _ _ _ (by decide) (by decide), Nat.zero_mod]

theorem Dev.keepsRegs_crStart : d.keepsRegs (d.crStart n r) [.rngCrCtrl n r, .rngCrStat n r, .rngCrTail n r] := by
  have h : d.keepsRegs (d.setTailRecv n r 0) [.rngCrCtrl n r, .rngCrStat n r, .rngCrTail n r] := Dev.keepsRegs_of_regs_eq rfl
  exact (((h.setFlag (by simp) _ _).setFld (by simp) _ _).setFld (by simp) _ _).setFlag (by simp) _ _

theorem Dev.crStart_rng : (d.crStart n r).rng = d.rng := by
  unfold Dev.crStart
  rw [Dev.setFlag_rng, Dev.setFld_rng, Dev.setFld_rng, Dev.setFlag_rng]
  rfl

theorem Dev.crStart_out : (d.crStart n r).out = d.out := by
  unfold Dev.crStart
  rw [Dev.setFlag_out, Dev.setFld_out, Dev.setFld_out, Dev.setFlag_out]
  rfl

variable {d n r}

/-- CR_ENABLE of a ring that fits enables it, empty. -/
theorem Dev.crEnable_starts (h : d.crEn n r = false) (hf : d.crFits n r) :
    (d.crEnable n r).crEn n r = true ∧ (d.crEnable n r).crHead n r = 0 ∧ (d.crEnable n r).crTail n r = 0 ∧
      d.keepsRegs (d.crEnable n r) [.rngCrCtrl n r, .rngCrStat n r, .rngCrTail n r] ∧ (d.crEnable n r).rng = d.rng ∧
      (d.crEnable n r).out = d.out := by
  rw [Dev.crEnable_of_fits h hf]
  exact ⟨d.crEn_crStart n r, d.crHead_crStart n r, d.crTail_crStart n r, d.keepsRegs_crStart n r, d.crStart_rng n r, d.crStart_out n r⟩

/-- CR_ENABLE of a ring that does not fit sets ERR. -/
theorem Dev.crEnable_refused (h : d.crEn n r = false) (hf : ¬ d.crFits n r) :
    (d.crEnable n r).crEn n r = false ∧ (d.crEnable n r).flag (.rngCrCtrl n r) F.rngCrCtrl_ERR = true ∧
      d.keepsRegs (d.crEnable n r) [.rngCrCtrl n r] ∧ (d.crEnable n r).rng = d.rng := by
  rw [Dev.crEnable_of_not_fits h hf]
  exact ⟨(Dev.flag_setFlag_field _ _ _ (by decide) (by decide) (by decide)).trans h, Dev.flag_setFlag_self _ _ _ (by decide) (by decide),
    (Dev.keepsRegs_of_regs_eq rfl).setFlag (by simp) _ _, Dev.setFlag_rng _ _ _ _⟩

/-- CR_DISABLE clears EN, leaves TAIL where the ring engine has it, and lets fetched commands be. -/
theorem Dev.crDisable_stops (h : d.crEn n r = true) :
    (d.crDisable n r).crEn n r = false ∧ (d.crDisable n r).crTail n r = d.tailRecv n r % 2 ^ 16 ∧
      d.keepsRegs (d.crDisable n r) [.rngCrCtrl n r, .rngCrTail n r] ∧ (d.crDisable n r).rng.run = d.rng.run ∧
      (d.crDisable n r).rng.fin = d.rng.fin ∧ (d.crDisable n r).rng.pre = d.rng.pre := by
  rw [Dev.crDisable_of_enabled h]
  have hregs (e : Dev) : (e.dropFetches n r).regs = e.regs := rfl
  have hset : d.keepsRegs (d.setFld (.rngCrTail n r) F.rngCrTail_TAIL (d.tailRecv n r)) [.rngCrCtrl n r, .rngCrTail n r] :=
    (Dev.keepsRegs_of_regs_eq rfl).setFld (by simp) _ _
  refine ⟨?_, ?_, (hset.setFlag (by simp) _ _).regs_eq (hregs _), ?_⟩
  · exact (congrArg (· != 0) (Dev.fld_of_regs_eq (hregs _) _ _)).trans (Dev.flag_setFlag_self _ _ _ (by decide) (by decide))
  · rw [Dev.crTail, Dev.fld_of_regs_eq (hregs _), Dev.fld_setFlag_other _ _ (rngCrCtrl_ne_tail n r),
      Dev.fld_setFld_self _ _ _ (by decide) (by decide)]
    rfl
  · simp [Dev.dropFetches, Dev.modRng, Dev.abandonReads]

variable (d n r)

/-! ### Completion rings: enabling and disabling (R313) -/

/-- A completion ring is wanted: a ring that is enabled names it, or a command or a record that is under way is to be posted there. -/
def Dev.cqWanted : Prop :=
  (∃ k < 8, d.crEn n k = true ∧ d.fld (.rngCrCtrl n k) F.rngCrCtrl_CQ = r) ∨ (∃ c ∈ d.rng.run, c.set = n ∧ c.cq = r) ∨
  (∃ f ∈ d.rng.fin, f.set = n ∧ f.cq = r) ∨ ∃ k < 8, d.fld (.rngCrCtrl n k) F.rngCrCtrl_CQ = r ∧ d.prefetched n k ≠ []

/-- The ring as CQ_ENABLE leaves it. -/
def Dev.cqStart : Dev :=
  ((((d.setFlag (.rngCqCtrl n r) F.rngCqCtrl_EN true).setFld (.rngCqStat n r) F.rngCqStat_TAIL 0).setFlag (.rngCqStat n r)
    F.rngCqStat_PHASE true).setFld (.rngCqHead n r) F.rngCqHead_HEAD 0).modRng fun g => { g with irq := kvDel g.irq (ringKey n r) }

variable {d n r}

theorem Dev.cqEnable_of_enabled (h : d.cqEn n r = true) : d.cqEnable n r = d := by simp [Dev.cqEnable, h]

theorem Dev.cqEnable_of_size (h : d.cqEn n r = false) (h4 : 4 ≤ d.fld (.rngCqCtrl n r) F.rngCqCtrl_SIZE)
    (h16 : d.fld (.rngCqCtrl n r) F.rngCqCtrl_SIZE ≤ 16) : d.cqEnable n r = d.cqStart n r := by
  simp only [Dev.cqEnable, h, Bool.false_eq_true, if_false]
  rw [if_neg (by omega)]
  rfl

theorem Dev.cqEnable_of_bad_size (h : d.cqEn n r = false)
    (hz : d.fld (.rngCqCtrl n r) F.rngCqCtrl_SIZE < 4 ∨ 16 < d.fld (.rngCqCtrl n r) F.rngCqCtrl_SIZE) :
    d.cqEnable n r = d.setFlag (.rngCqCtrl n r) F.rngCqCtrl_ERR true := by
  simp only [Dev.cqEnable, h, Bool.false_eq_true, if_false, if_pos hz]

theorem Dev.cqDisable_of_disabled (h : d.cqEn n r = false) : d.cqDisable n r = d := by simp [Dev.cqDisable, h]

theorem Dev.cqDisable_of_wanted (h : d.cqEn n r = true) (hw : d.cqWanted n r) :
    d.cqDisable n r = d.setFlag (.rngCqCtrl n r) F.rngCqCtrl_ERR true := by
  simp only [Dev.cqDisable, h, Bool.not_true, Bool.false_eq_true, if_false]
  rw [if_pos (by simpa [Dev.cqWanted, or_assoc] using hw)]

theorem Dev.cqDisable_of_not_wanted (h : d.cqEn n r = true) (hw : ¬ d.cqWanted n r) :
    d.cqDisable n r = (d.setFlag (.rngCqCtrl n r) F.rngCqCtrl_EN false).modRng fun g => { g with irq := kvDel g.irq (ringKey n r) } := by
  simp only [Dev.cqDisable, h, Bool.not_true, Bool.false_eq_true, if_false]
  rw [if_neg (mt (fun h => by simpa [Dev.cqWanted, or_assoc] using h) hw)]

variable (d n r)

theorem Dev.cqEn_cqStart : (d.cqStart n r).cqEn n r = true := by
  unfold Dev.cqStart Dev.cqEn
  rw [Dev.modRng_flag, Dev.flag_setFld_other _ _ (rngCqCtrl_ne_head n r).symm, Dev.flag_setFlag_other _ _ (rngCqCtrl_ne_stat n r).symm,
    Dev.flag_setFld_other _ _ (rngCqCtrl_ne_stat n r).symm, Dev.flag_setFlag_self _ _ _ (by decide) (by decide)]

theorem Dev.cqTail_cqStart : (d.cqStart n r).cqTail n r = 0 := by
  unfold Dev.cqStart Dev.cqTail
  rw [Dev.modRng_fld, Dev.fld_setFld_other _ _ (rngCqStat_ne_head n r).symm, Dev.fld_setFlag_field _ _ _ (by decide) (by decide) (by decide),
    Dev.fld_setFld_self _ _ _ (by decide) (by decide), Nat.zero_mod]

theorem Dev.cqHead_cqStart : (d.cqStart n r).cqHead n r = 0 := by
  unfold Dev.cqStart Dev.cqHead
  rw [Dev.modRng_fld, Dev.fld_setFld_self _ _ _ (by decide) (by decide), Nat.zero_mod]

theorem Dev.phase_cqStart : (d.cqStart n r).flag (.rngCqStat n r) F.rngCqStat_PHASE = true := by
  unfold Dev.cqStart
  rw [Dev.modRng_flag, Dev.flag_setFld_other _ _ (rngCqStat_ne_head n r).symm, Dev.flag_setFlag_self _ _ _ (by decide) (by decide)]

theorem Dev.keepsRegs_cqStart : d.keepsRegs (d.cqStart n r) [.rngCqCtrl n r, .rngCqStat n r, .rngCqHead n r] := by
  have h : d.keepsRegs d [.rngCqCtrl n r, .rngCqStat n r, .rngCqHead n r] := Dev.keepsRegs_of_regs_eq rfl
  exact ((((h.setFlag (by simp) _ _).setFld (by simp) _ _).setFlag (by simp) _ _).setFld (by simp) _ _).regs_eq
    (Dev.modRng_regs _ _)

theorem Dev.cqStart_out : (d.cqStart n r).out = d.out := by
  unfold Dev.cqStart
  rw [Dev.modRng_out, Dev.setFld_out, Dev.setFlag_out, Dev.setFld_out, Dev.setFlag_out]

variable {d n r}

/-- CQ_ENABLE of a ring with a SIZE that exists enables it, empty, with PHASE 1. -/
theorem Dev.cqEnable_starts (h : d.cqEn n r = false) (h4 : 4 ≤ d.fld (.rngCqCtrl n r) F.rngCqCtrl_SIZE)
    (h16 : d.fld (.rngCqCtrl n r) F.rngCqCtrl_SIZE ≤ 16) :
    (d.cqEnable n r).cqEn n r = true ∧ (d.cqEnable n r).cqTail n r = 0 ∧ (d.cqEnable n r).cqHead n r = 0 ∧
      (d.cqEnable n r).flag (.rngCqStat n r) F.rngCqStat_PHASE = true ∧
      d.keepsRegs (d.cqEnable n r) [.rngCqCtrl n r, .rngCqStat n r, .rngCqHead n r] ∧ (d.cqEnable n r).out = d.out := by
  rw [Dev.cqEnable_of_size h h4 h16]
  exact ⟨d.cqEn_cqStart n r, d.cqTail_cqStart n r, d.cqHead_cqStart n r, d.phase_cqStart n r, d.keepsRegs_cqStart n r, d.cqStart_out n r⟩

/-- ERR sets in the control register of a completion ring, and EN stays. -/
theorem Dev.cqErr_sets (b : Bool) (h : d.cqEn n r = b) :
    (d.setFlag (.rngCqCtrl n r) F.rngCqCtrl_ERR true).cqEn n r = b ∧
      (d.setFlag (.rngCqCtrl n r) F.rngCqCtrl_ERR true).flag (.rngCqCtrl n r) F.rngCqCtrl_ERR = true ∧
      d.keepsRegs (d.setFlag (.rngCqCtrl n r) F.rngCqCtrl_ERR true) [.rngCqCtrl n r] :=
  ⟨(Dev.flag_setFlag_field _ _ _ (by decide) (by decide) (by decide)).trans h, Dev.flag_setFlag_self _ _ _ (by decide) (by decide),
    (Dev.keepsRegs_of_regs_eq rfl).setFlag (by simp) _ _⟩

/-- CQ_DISABLE of a ring that is not wanted clears EN. -/
theorem Dev.cqDisable_stops (h : d.cqEn n r = true) (hw : ¬ d.cqWanted n r) :
    (d.cqDisable n r).cqEn n r = false ∧ d.keepsRegs (d.cqDisable n r) [.rngCqCtrl n r] ∧ (d.cqDisable n r).rng.fin = d.rng.fin := by
  rw [Dev.cqDisable_of_not_wanted h hw]
  have hset : d.keepsRegs (d.setFlag (.rngCqCtrl n r) F.rngCqCtrl_EN false) [.rngCqCtrl n r] :=
    (Dev.keepsRegs_of_regs_eq rfl).setFlag (by simp) _ _
  refine ⟨?_, hset.regs_eq (Dev.modRng_regs _ _), rfl⟩
  rw [Dev.cqEn, Dev.modRng_flag, Dev.flag_setFlag_self _ _ _ (by decide) (by decide)]

variable (d n r)

/-! ### Doorbells (R314, R315) -/

variable {d n r} {v : Nat}

theorem Dev.doorbell_of_disabled (h : d.crEn n r = false) : d.doorbell n r v = d := by
  simp [Dev.doorbell, Dev.doorbellError, h]

theorem Dev.doorbell_of_error (h : d.crEn n r = true) (hv : d.crSlots n r ≤ v ∨ d.crAhead n r v < d.crAhead n r (d.crTail n r)) :
    d.doorbell n r v = d.goWild n := by
  simp [Dev.doorbell, Dev.doorbellError, h, hv]

theorem Dev.doorbell_of_inside (h : d.crEn n r = true) (hv : v < d.crSlots n r) (ha : d.crAhead n r (d.crTail n r) ≤ d.crAhead n r v) :
    d.doorbell n r v = (d.setFld (.rngCrTail n r) F.rngCrTail_TAIL v).offerValue (d.tailX n r) v := by
  simp [Dev.doorbell, Dev.doorbellError, h, hv, ha]

/-! ### Descriptor fetch (R314) -/

theorem Dev.crSlots_pos (d : Dev) (n r : Nat) : 0 < d.crSlots n r := Nat.two_pow_pos _
theorem Dev.cqSlots_pos (d : Dev) (n r : Nat) : 0 < d.cqSlots n r := Nat.two_pow_pos _

theorem Dev.descriptorFetch_of_none (h : d.rng.fetched.find? (fun f => f.1 == ringKey n r) = none) : d.descriptorFetch n r = d := by
  simp [Dev.descriptorFetch, h]

section
variable {f : Nat × Nat × List Line} (h : d.rng.fetched.find? (fun f => f.1 == ringKey n r) = some f)
include h

/-- HEAD moves past the descriptors read. -/
theorem Dev.crHead_descriptorFetch (hs : d.crSlots n r ≤ 2 ^ 16) :
    (d.descriptorFetch n r).crHead n r = (f.2.1 + f.2.2.length) % d.crSlots n r := by
  simp only [Dev.descriptorFetch, h, Dev.crHead]
  rw [Dev.fld_setFld_self _ _ _ (by decide) (by decide)]
  exact Nat.mod_eq_of_lt ((Nat.mod_lt _ (d.crSlots_pos n r)).trans_le hs)

/-- The descriptors read stand behind those in prefetch memory. -/
theorem Dev.prefetched_descriptorFetch :
    ((d.descriptorFetch n r).prefetched n r).map (·.2) = (d.prefetched n r).map (·.2) ++ f.2.2 := by
  simp only [Dev.descriptorFetch, h, Dev.prefetched, Dev.setFld_rng, Dev.count_rng, Dev.modRng, kvGet_mod_self, List.map_append]
  congr 1
  exact List.ext_getElem (by simp) fun i h1 h2 => by simp [List.getElem?_eq_getElem h2]

theorem Dev.fetched_descriptorFetch : (d.descriptorFetch n r).rng.fetched = d.rng.fetched.erase f := by
  simp only [Dev.descriptorFetch, h]; rfl

theorem Dev.keepsRegs_descriptorFetch : d.keepsRegs (d.descriptorFetch n r) [.rngCrStat n r] := by
  simp only [Dev.descriptorFetch, h]
  exact (Dev.keepsRegs_of_regs_eq rfl).setFld (by simp) _ _

theorem Dev.out_descriptorFetch : (d.descriptorFetch n r).out = d.out := by
  simp only [Dev.descriptorFetch, h]; rfl

end

/-! ### Completion records and messages (R319 to R321, R334) -/

variable (d n r) (f : RingFin)

/-- The host address of a completion ring's slot. -/
def Dev.recordAddr : Nat := d.fld (.rngCqBase n r) F.rngCqBase_BASE * 32 + 32 * d.cqTail n r

/-- The bytes of a record as they are written: free ones after a host error of the LD (R7). -/
def Dev.recordBytes : List Nat :=
  if d.isWild f.set then toBytes 32 (Config.wildLine d.fresh).toNat else f.bytes (d.flag (.rngCqStat f.set f.cq) F.rngCqStat_PHASE)

/-- The record is counted and written. -/
def Dev.emitRecord : Dev :=
  let e := d.count .cmdStatus f.set f.status
  (if d.isWild f.set then e.draw.1 else e).emit
    (.hostWrite (d.setHead f.set) (d.recordAddr f.set f.cq) (d.recordBytes f) false)

/-- TAIL moves on, the phase inverts when it wraps, and a ring that is full then shows FULL_SEEN. -/
def Dev.moveTail : Dev :=
  let st : Reg := .rngCqStat n r
  let next := (d.cqTail n r + 1) % d.cqSlots n r
  let e := d.setFld st F.rngCqStat_TAIL next
  let e := if next = 0 then e.setFlag st F.rngCqStat_PHASE (!d.flag st F.rngCqStat_PHASE) else e
  if e.cqFull n r then e.setFlag st F.rngCqStat_FULL_SEEN true else e

theorem Dev.postRecord_eq :
    d.postRecord f = ((d.emitRecord f).moveTail f.set f.cq).ringEligible f.set f.cq f.irq f.status := by
  cases h : d.isWild f.set with
  | true =>
    have hw : (d.count .cmdStatus f.set f.status).isWild f.set = true := h
    simp only [Dev.postRecord, Dev.emitRecord, Dev.recordBytes, h, hw, if_true]
    rfl
  | false =>
    have hw : (d.count .cmdStatus f.set f.status).isWild f.set = false := h
    simp only [Dev.postRecord, Dev.emitRecord, Dev.recordBytes, h, hw, if_false, Bool.false_eq_true]
    rfl

theorem Dev.emitRecord_regs : (d.emitRecord f).regs = d.regs := by unfold Dev.emitRecord; dsimp only; split <;> rfl
theorem Dev.emitRecord_rng : (d.emitRecord f).rng = d.rng := by unfold Dev.emitRecord; dsimp only; split <;> rfl
theorem Dev.emitRecord_out : (d.emitRecord f).out =
    d.out ++ [.hostWrite (d.setHead f.set) (d.recordAddr f.set f.cq) (d.recordBytes f) false] := by
  unfold Dev.emitRecord; dsimp only; split <;> rfl

theorem Dev.fld_ite_setFlag_field (c : Prop) [Decidable c] (q : Reg) {g k : Fld} (b : Bool) (h : g.lo ≤ g.hi) (h64 : k.hi < 64)
    (hd : k.hi < g.lo ∨ g.hi < k.lo) : (if c then d.setFlag q g b else d).fld q k = d.fld q k := by
  split
  · exact d.fld_setFlag_field q b h h64 hd
  · rfl

theorem Dev.cqTail_moveTail (hs : d.cqSlots n r ≤ 2 ^ 16) :
    (d.moveTail n r).cqTail n r = (d.cqTail n r + 1) % d.cqSlots n r := by
  have hlt : (d.cqTail n r + 1) % d.cqSlots n r < 2 ^ 16 := (Nat.mod_lt _ (d.cqSlots_pos n r)).trans_le hs
  unfold Dev.moveTail
  dsimp only
  rw [Dev.cqTail, Dev.fld_ite_setFlag_field _ _ _ _ (by decide) (by decide) (by decide),
    Dev.fld_ite_setFlag_field _ _ _ _ (by decide) (by decide) (by decide), Dev.fld_setFld_self _ _ _ (by decide) (by decide)]
  exact Nat.mod_eq_of_lt hlt

theorem Dev.keepsRegs_moveTail : d.keepsRegs (d.moveTail n r) [.rngCqStat n r] := by
  have h : d.keepsRegs (d.setFld (.rngCqStat n r) F.rngCqStat_TAIL ((d.cqTail n r + 1) % d.cqSlots n r)) [.rngCqStat n r] :=
    (Dev.keepsRegs_of_regs_eq rfl).setFld (by simp) _ _
  unfold Dev.moveTail
  dsimp only
  split <;> split
  · exact (h.setFlag (by simp) _ _).setFlag (by simp) _ _
  · exact h.setFlag (by simp) _ _
  · exact h.setFlag (by simp) _ _
  · exact h

theorem Dev.ite_setFlag_rng (c : Prop) [Decidable c] (q : Reg) (g : Fld) (b : Bool) :
    (if c then d.setFlag q g b else d).rng = d.rng := by split <;> rfl

theorem Dev.ite_setFlag_out (c : Prop) [Decidable c] (q : Reg) (g : Fld) (b : Bool) :
    (if c then d.setFlag q g b else d).out = d.out := by split <;> rfl

theorem Dev.moveTail_rng : (d.moveTail n r).rng = d.rng := by
  unfold Dev.moveTail
  dsimp only
  rw [Dev.ite_setFlag_rng, Dev.ite_setFlag_rng, Dev.setFld_rng]

theorem Dev.moveTail_out : (d.moveTail n r).out = d.out := by
  unfold Dev.moveTail
  dsimp only
  rw [Dev.ite_setFlag_out, Dev.ite_setFlag_out, Dev.setFld_out]

/-- A record that has been posted changes the coalescing of its ring at most, and may send the ring's message. -/
theorem Dev.ringEligible_cases (irq : Bool) (status : Nat) : d.ringEligible n r irq status = d ∨
    d.ringEligible n r irq status = d.ringMessage n r ∨ ∃ c, d.ringEligible n r irq status = d.setCoalesce n r c := by
  unfold Dev.ringEligible
  dsimp only
  split
  · exact .inl rfl
  · split
    · exact .inr (.inl rfl)
    · exact .inr (.inr ⟨_, rfl⟩)

theorem Dev.ringEligible_regs (irq : Bool) (status : Nat) : (d.ringEligible n r irq status).regs = d.regs := by
  rcases d.ringEligible_cases n r irq status with h | h | ⟨c, h⟩ <;> rw [h] <;> rfl

theorem Dev.ringEligible_fin (irq : Bool) (status : Nat) : (d.ringEligible n r irq status).rng.fin = d.rng.fin := by
  rcases d.ringEligible_cases n r irq status with h | h | ⟨c, h⟩ <;> rw [h] <;> rfl

theorem Dev.ringEligible_out (irq : Bool) (status : Nat) : ∃ msgs, (d.ringEligible n r irq status).out = d.out ++ msgs ∧
    ∀ m ∈ msgs, m = .msix n (d.fld (.rngCqCtrl n r) F.rngCqCtrl_VECTOR) := by
  rcases d.ringEligible_cases n r irq status with h | h | ⟨c, h⟩ <;> rw [h]
  · exact ⟨[], by simp, by simp⟩
  · exact ⟨[.msix n (d.fld (.rngCqCtrl n r) F.rngCqCtrl_VECTOR)], rfl, by simp⟩
  · exact ⟨[], (List.append_nil _).symm, by simp⟩

/-! The whole of posting a record. -/

theorem Dev.keepsRegs_postRecord : d.keepsRegs (d.postRecord f) [.rngCqStat f.set f.cq] := by
  have h : (d.emitRecord f).keepsRegs (d.postRecord f) [.rngCqStat f.set f.cq] := by
    rw [d.postRecord_eq f]
    exact (Dev.keepsRegs_moveTail _ _ _).regs_eq (Dev.ringEligible_regs _ _ _ _ _)
  exact fun q hq => (h q hq).trans (Dev.keepsRegs_of_regs_eq (but := [.rngCqStat f.set f.cq]) (d.emitRecord_regs f) q hq)

theorem Dev.fin_postRecord : (d.postRecord f).rng.fin = d.rng.fin := by
  rw [d.postRecord_eq f, Dev.ringEligible_fin, Dev.moveTail_rng, d.emitRecord_rng f]

theorem Dev.cqTail_postRecord (hs : d.cqSlots f.set f.cq ≤ 2 ^ 16) :
    (d.postRecord f).cqTail f.set f.cq = (d.cqTail f.set f.cq + 1) % d.cqSlots f.set f.cq := by
  have hslots : (d.emitRecord f).cqSlots f.set f.cq = d.cqSlots f.set f.cq :=
    congrArg slotsOf (Dev.fld_of_regs_eq (d.emitRecord_regs f) _ _)
  have htail : (d.emitRecord f).cqTail f.set f.cq = d.cqTail f.set f.cq := Dev.fld_of_regs_eq (d.emitRecord_regs f) _ _
  rw [d.postRecord_eq f, Dev.cqTail, Dev.fld_of_regs_eq (Dev.ringEligible_regs _ _ _ _ _)]
  have := (d.emitRecord f).cqTail_moveTail f.set f.cq (hslots.trans_le hs)
  rwa [hslots, htail] at this

/-- The record is written where TAIL points, and then at most the message of its ring is sent. -/
theorem Dev.out_postRecord : ∃ msgs, (d.postRecord f).out =
    d.out ++ .hostWrite (d.setHead f.set) (d.recordAddr f.set f.cq) (d.recordBytes f) false :: msgs ∧
      ∀ m ∈ msgs, m = .msix f.set (d.fld (.rngCqCtrl f.set f.cq) F.rngCqCtrl_VECTOR) := by
  obtain ⟨msgs, hout, hmsgs⟩ := ((d.emitRecord f).moveTail f.set f.cq).ringEligible_out f.set f.cq f.irq f.status
  refine ⟨msgs, ?_, fun m hm => ?_⟩
  · rw [d.postRecord_eq f, hout, Dev.moveTail_out, d.emitRecord_out f, List.append_assoc, List.singleton_append]
  · rw [hmsgs m hm, ((d.emitRecord f).keepsRegs_moveTail f.set f.cq).fld (by simpa using (rngCqCtrl_ne_stat f.set f.cq).symm),
      Dev.fld_of_regs_eq (d.emitRecord_regs f)]

variable {d n r f}

theorem Dev.recordBytes_length_of_wild (h : d.isWild f.set = true) : (d.recordBytes f).length = 32 := by
  simp [Dev.recordBytes, h, toBytes]

theorem Dev.recordBytes_of_not_wild (h : d.isWild f.set = false) :
    d.recordBytes f = f.bytes (d.flag (.rngCqStat f.set f.cq) F.rngCqStat_PHASE) := by
  simp [Dev.recordBytes, h]

theorem Dev.commandComplete_of_none (h : d.rng.fin.find? (fun f => !f.held) = none) : d.commandComplete = d := by
  simp [Dev.commandComplete, h]

section
variable (h : d.rng.fin.find? (fun f => !f.held) = some f)
include h

theorem Dev.commandComplete_of_disabled (hen : d.cqEn f.set f.cq = false) :
    d.commandComplete = d.modRng fun g => { g with fin := g.fin.erase f } := by
  have hen' : (d.modRng fun g => { g with fin := g.fin.erase f }).cqEn f.set f.cq = false := hen
  simp [Dev.commandComplete, h, Dev.post, hen']

theorem Dev.commandComplete_of_full (hen : d.cqEn f.set f.cq = true) (hfull : d.cqFull f.set f.cq = true) :
    d.commandComplete = (((d.modRng fun g => { g with fin := g.fin.erase f }).count .cqStall f.set).modRng fun g =>
      { g with fin := g.fin ++ [{ f with held := true }] }) := by
  have hen' : (d.modRng fun g => { g with fin := g.fin.erase f }).cqEn f.set f.cq = true := hen
  have hfull' : (d.modRng fun g => { g with fin := g.fin.erase f }).cqFull f.set f.cq = true := hfull
  simp [Dev.commandComplete, h, Dev.post, hen', hfull']

theorem Dev.commandComplete_of_room (hen : d.cqEn f.set f.cq = true) (hfull : d.cqFull f.set f.cq = false) :
    d.commandComplete = (d.modRng fun g => { g with fin := g.fin.erase f }).postRecord f := by
  have hen' : (d.modRng fun g => { g with fin := g.fin.erase f }).cqEn f.set f.cq = true := hen
  have hfull' : (d.modRng fun g => { g with fin := g.fin.erase f }).cqFull f.set f.cq = false := hfull
  simp [Dev.commandComplete, h, Dev.post, hen', hfull']

end

/-- COMMAND_COMPLETE with room in the completion ring writes the record at TAIL and moves TAIL. -/
theorem Dev.commandComplete_posts (h : d.rng.fin.find? (fun f => !f.held) = some f) (hen : d.cqEn f.set f.cq = true)
    (hfull : d.cqFull f.set f.cq = false) :
    d.keepsRegs d.commandComplete [.rngCqStat f.set f.cq] ∧ d.commandComplete.rng.fin = d.rng.fin.erase f ∧
      (d.cqSlots f.set f.cq ≤ 2 ^ 16 → d.commandComplete.cqTail f.set f.cq = (d.cqTail f.set f.cq + 1) % d.cqSlots f.set f.cq) ∧
      ∃ msgs, d.commandComplete.out =
        d.out ++ .hostWrite (d.setHead f.set) (d.recordAddr f.set f.cq) (d.recordBytes f) false :: msgs ∧
          ∀ m ∈ msgs, m = .msix f.set (d.fld (.rngCqCtrl f.set f.cq) F.rngCqCtrl_VECTOR) := by
  rw [Dev.commandComplete_of_room h hen hfull]
  have hp := Dev.keepsRegs_postRecord (d.modRng fun g => { g with fin := g.fin.erase f }) f
  exact ⟨hp, Dev.fin_postRecord _ f, Dev.cqTail_postRecord (d.modRng fun g => { g with fin := g.fin.erase f }) f,
    Dev.out_postRecord (d.modRng fun g => { g with fin := g.fin.erase f }) f⟩

/-! ### HEAD of a completion ring, and the coalescing timer -/

theorem Dev.cqHeadWrite_of_error (h : d.cqHeadError n r v = true) : d.cqHeadWrite n r v = d.goWild n := by
  simp [Dev.cqHeadWrite, h]

theorem Dev.cqHeadWrite_of_disabled (h : d.cqEn n r = false) : d.cqHeadWrite n r v = d := by
  simp [Dev.cqHeadWrite, Dev.cqHeadError, h]

theorem Dev.cqHeadWrite_of_inside (hen : d.cqEn n r = true) (h : d.cqHeadError n r v = false) :
    d.cqHeadWrite n r v = (d.setFld (.rngCqHead n r) F.rngCqHead_HEAD v).postHeld n r := by
  simp [Dev.cqHeadWrite, h, hen]

/-- A ring without held records posts none. -/
theorem Dev.postHeld_of_none_held (h : ∀ f ∈ d.rng.fin, f.set = n → f.cq = r → f.held = false) : d.postHeld n r = d := by
  have hnil : (d.rng.fin.filter fun f => f.held && f.set == n && f.cq == r) = [] := by
    simp only [List.filter_eq_nil_iff, Bool.and_eq_true, beq_iff_eq, not_and]
    exact fun f hf ⟨hheld, hset⟩ hcq => by simp [h f hf hset hcq] at hheld
  rw [Dev.postHeld, hnil, List.foldl_nil]

theorem Dev.coalesceTimeout_of_running (ht : (d.coalesce n r).timer = true) (hen : d.cqEn n r = true) :
    d.coalesceTimeout n r = d.ringMessage n r := by
  simp [Dev.coalesceTimeout, ht, hen]

theorem Dev.coalesceTimeout_of_idle (h : (d.coalesce n r).timer = false ∨ d.cqEn n r = false) : d.coalesceTimeout n r = d := by
  rcases h with h | h <;> simp [Dev.coalesceTimeout, h]

theorem Dev.coalesce_ringMessage : (d.ringMessage n r).coalesce n r = {} := by
  simp [Dev.ringMessage, Dev.setCoalesce, Dev.coalesce, Dev.modRng]

end Sys2Proof.Machine
end

section
/-! SUPPORT. The commands of the rings on a running die whose access reaches the ring's register, and the statement of the rings'
registers from the operations of the rings. -/

namespace Sys2Proof.Machine

section
variable {s : State} {n r : Nat} (hn : n < 17) (hr : r < 8)
include hn hr

theorem exec_crEnable_reached (h : s.reaches (.rngCrCtrl n r)) :
    exec (.crEnable n r) s = .next (s.finish (s.dev.crEnable n r)) := by
  rw [exec_crEnable (by simp [Instr.wf, hn, hr]) h.1, Dev.viaReg_of_reaches h (.inr (rngCrCtrl_offset_ge n r))]

theorem exec_crDisable_reached (h : s.reaches (.rngCrCtrl n r)) :
    exec (.crDisable n r) s = .next (s.finish (s.dev.crDisable n r)) := by
  rw [exec_crDisable (by simp [Instr.wf, hn, hr]) h.1, Dev.viaReg_of_reaches h (.inr (rngCrCtrl_offset_ge n r))]

theorem exec_doorbell_reached {v : Nat} (hv : v < 2 ^ 16) (h : s.reaches (.rngCrTail n r)) :
    exec (.doorbell n r v) s = .next (s.finish (s.dev.doorbell n r v)) := by
  rw [exec_doorbell (by simpa [Instr.wf, hn, hr] using hv) h.1, Dev.viaReg_of_reaches h (.inr (rngCrTail_offset_ge n r))]

theorem exec_cqEnable_reached (h : s.reaches (.rngCqCtrl n r)) :
    exec (.cqEnable n r) s = .next (s.finish (s.dev.cqEnable n r)) := by
  rw [exec_cqEnable (by simp [Instr.wf, hn, hr]) h.1, Dev.viaReg_of_reaches h (.inr (rngCqCtrl_offset_ge n r))]

theorem exec_cqDisable_reached (h : s.reaches (.rngCqCtrl n r)) :
    exec (.cqDisable n r) s = .next (s.finish (s.dev.cqDisable n r)) := by
  rw [exec_cqDisable (by simp [Instr.wf, hn, hr]) h.1, Dev.viaReg_of_reaches h (.inr (rngCqCtrl_offset_ge n r))]

theorem exec_cqHeadWrite_reached {v : Nat} (hv : v < 2 ^ 16) (h : s.reaches (.rngCqHead n r)) :
    exec (.cqHeadWrite n r v) s = .next (s.finish (s.dev.cqHeadWrite n r v)) := by
  rw [exec_cqHeadWrite (by simpa [Instr.wf, hn, hr] using hv) h.1, Dev.viaReg_of_reaches h (.inr (rngCqHead_offset_ge n r))]

end

/-- Settles O37. -/
theorem ringRegisters : Obligations.RingRegisters := by
  intro s n r v hu hn hr hv ctrl size cqsize fits wanted alone
  have hfetch := exec_descriptorFetch (s_ := n) (r := r) (by simp [Instr.wf, hn, hr]) hu
  have hcomplete := exec_commandComplete hu
  have htimeout := exec_interruptCoalescingTimeout (s_ := n) (q := r) (by simp [Instr.wf, hn, hr]) hu
  refine ⟨fun h => ?crIdle, fun h => ?cqIdle, fun h hen => ?crEnable, fun h hen => ?crDisable, fun h hen => ?cqEnable,
    fun h hen => ?cqDisable, fun h => ?doorbell, fun h => ?noFetch, fun f hf hs => ?fetch, fun h => ?noRecord,
    fun f hf hset hcq hen => ?recordDropped, fun f hf hset hcq hen hs => ?record, fun h => ?head, fun ht hen => ?timeout,
    fun h => ?noTimeout⟩
  case crIdle =>
    refine ⟨fun hen => ?_, fun hen => ?_⟩
    · exact (exec_crEnable_reached hn hr h).trans (by rw [Dev.crEnable_of_enabled hen])
    · exact (exec_crDisable_reached hn hr h).trans (by rw [Dev.crDisable_of_disabled hen])
  case cqIdle =>
    refine ⟨fun hen => ?_, fun hen => ?_⟩
    · exact (exec_cqEnable_reached hn hr h).trans (by rw [Dev.cqEnable_of_enabled hen])
    · exact (exec_cqDisable_reached hn hr h).trans (by rw [Dev.cqDisable_of_disabled hen])
  case crEnable =>
    exact ⟨fun hf => ⟨_, exec_crEnable_reached hn hr h, Dev.crEnable_starts hen hf⟩,
      fun hf => ⟨_, exec_crEnable_reached hn hr h, Dev.crEnable_refused hen hf⟩⟩
  case crDisable => exact ⟨_, exec_crDisable_reached hn hr h, Dev.crDisable_stops hen⟩
  case cqEnable =>
    refine ⟨fun h4 h16 => ⟨_, exec_cqEnable_reached hn hr h, Dev.cqEnable_starts hen h4 h16⟩, fun hz => ⟨_, ?_, Dev.cqErr_sets _ hen⟩⟩
    rw [exec_cqEnable_reached hn hr h, Dev.cqEnable_of_bad_size hen hz]
  case cqDisable =>
    refine ⟨fun hw => ⟨_, exec_cqDisable_reached hn hr h, Dev.cqDisable_stops hen hw⟩, fun hw => ?_⟩
    obtain ⟨hon, herr, hregs⟩ := Dev.cqErr_sets _ hen
    refine ⟨_, ?_, hon, herr, hregs, Dev.setFlag_rng _ _ _ _⟩
    rw [exec_cqDisable_reached hn hr h, Dev.cqDisable_of_wanted hen hw]
  case doorbell =>
    have hexec := exec_doorbell_reached hn hr hv h
    refine ⟨fun hen => hexec.trans (by rw [Dev.doorbell_of_disabled hen]), fun hen he => by rw [hexec, Dev.doorbell_of_error hen he],
      fun hen hin ha => ⟨s.dev.setFld (.rngCrTail n r) F.rngCrTail_TAIL v, by rw [hexec, Dev.doorbell_of_inside hen hin ha], ?_,
        (Dev.keepsRegs_of_regs_eq rfl).setFld (by simp) _ _, Dev.setFld_rng _ _ _ _, Dev.setFld_out _ _ _ _, ?_⟩⟩
    · exact (Dev.fld_setFld_self _ _ _ (by decide) (by decide)).trans (Nat.mod_eq_of_lt hv)
    · rw [Dev.xval, Dev.setFld_xs, Dev.xval]
  case noFetch => exact hfetch.trans (by rw [Dev.descriptorFetch_of_none h])
  case fetch =>
    exact ⟨_, hfetch, Dev.crHead_descriptorFetch hf hs, Dev.prefetched_descriptorFetch hf, Dev.fetched_descriptorFetch hf,
      Dev.keepsRegs_descriptorFetch hf, Dev.out_descriptorFetch hf⟩
  case noRecord => exact hcomplete.trans (by rw [Dev.commandComplete_of_none h])
  case recordDropped =>
    subst hset hcq
    rw [hcomplete, Dev.commandComplete_of_disabled hf hen]
  case record =>
    subst hset hcq
    refine ⟨fun hroom hwild => ?_, fun hroom hwild => ?_, fun hfull => ?_⟩
    · obtain ⟨hregs, hfin, -, msgs, hout, -⟩ := Dev.commandComplete_posts hf hen hroom
      exact ⟨_, _, msgs, hcomplete, Dev.recordBytes_length_of_wild hwild, hout, hfin, hregs⟩
    · obtain ⟨hregs, hfin, htail, msgs, hout, hmsgs⟩ := Dev.commandComplete_posts hf hen hroom
      rw [Dev.recordBytes_of_not_wild hwild] at hout
      exact ⟨_, msgs, hcomplete, hout, hmsgs, htail hs, hfin, hregs⟩
    · rw [hcomplete, Dev.commandComplete_of_full hf hen hfull]
      exact ⟨_, rfl, rfl, rfl, rfl⟩
  case head =>
    have hexec := exec_cqHeadWrite_reached hn hr hv h
    refine ⟨fun he => by rw [hexec, Dev.cqHeadWrite_of_error he], fun hen => hexec.trans (by rw [Dev.cqHeadWrite_of_disabled hen]),
      fun hen he => ⟨_, by rw [hexec, Dev.cqHeadWrite_of_inside hen he], ?_, (Dev.keepsRegs_of_regs_eq rfl).setFld (by simp) _ _,
        Dev.setFld_rng _ _ _ _, Dev.setFld_out _ _ _ _⟩, fun hheld d hd => Dev.postHeld_of_none_held (hd ▸ hheld)⟩
    exact (Dev.fld_setFld_self _ _ _ (by decide) (by decide)).trans (Nat.mod_eq_of_lt hv)
  case timeout =>
    rw [htimeout, Dev.coalesceTimeout_of_running ht hen]
    exact ⟨_, rfl, Dev.coalesce_ringMessage, rfl, rfl⟩
  case noTimeout => rw [htimeout, Dev.coalesceTimeout_of_idle h]

end Sys2Proof.Machine
end

section
/-! SUPPORT. Crossings (R41 to R53), operation by operation: what each leaves on its own crossing, on the others and in the registers,
and an overrun flag that sets. -/

namespace Sys2Proof.Machine

/-! ### Lists by a key of any type -/

section
variable {κ α : Type} [DecidableEq κ] (z : α) (m : List (κ × α))

@[simp] theorem asGet_asSet_self (a : κ) (x : α) : asGet z (asSet m a x) a = x := by
  induction m with
  | nil => simp [asSet, asGet]
  | cons p m ih =>
    obtain ⟨k, v⟩ := p
    by_cases h : k = a
    · simp [asSet, asGet, h]
    · simp [asSet, asGet, h, ih]

theorem asGet_asSet_other {a b : κ} (hab : a ≠ b) (x : α) : asGet z (asSet m a x) b = asGet z m b := by
  induction m with
  | nil => simp [asSet, asGet, hab]
  | cons p m ih =>
    obtain ⟨k, v⟩ := p
    by_cases h : k = a
    · subst h; simp [asSet, asGet, hab]
    · simp [asSet, asGet, h, ih]

/-- Of a list that keeps the keys of `f`, a key that `f` drops reads as unlisted. -/
theorem asGet_filter (f : κ → Bool) (a : κ) : asGet z (m.filter fun p => f p.1) a = if f a then asGet z m a else z := by
  induction m with
  | nil => simp [asGet]
  | cons p m ih =>
    obtain ⟨k, v⟩ := p
    by_cases hk : k = a
    · subst hk
      by_cases hf : f k
      · simp [asGet, hf]
      · simpa [asGet, hf] using ih
    · by_cases hf : f k
      · simpa [asGet, hf, hk] using ih
      · simpa [asGet, hf, hk] using ih

end

/-! ### The three stores of crossings -/

section
variable (d : Dev) (x : XId)

@[simp] theorem Dev.setXval_regs (v : XVal) : (d.setXval x v).regs = d.regs := rfl
@[simp] theorem Dev.setXevt_regs (v : XEvt) : (d.setXevt x v).regs = d.regs := rfl
@[simp] theorem Dev.setXque_regs (v : XQue) : (d.setXque x v).regs = d.regs := rfl

@[simp] theorem Dev.xval_setXval_self (v : XVal) : (d.setXval x v).xval x = v := asGet_asSet_self _ _ _ _
@[simp] theorem Dev.xevt_setXevt_self (v : XEvt) : (d.setXevt x v).xevt x = v := asGet_asSet_self _ _ _ _
@[simp] theorem Dev.xque_setXque_self (v : XQue) : (d.setXque x v).xque x = v := asGet_asSet_self _ _ _ _
@[simp] theorem Dev.xque_setXevt (v : XEvt) (y : XId) : (d.setXevt x v).xque y = d.xque y := rfl

theorem Dev.xval_setXval_other {x y : XId} (h : y ≠ x) (v : XVal) : (d.setXval x v).xval y = d.xval y :=
  asGet_asSet_other _ _ h.symm _

/-! ### Overrun flags (R51, R52) -/

/-- A flag of a crossing sets its bit, and may raise the record of R52. -/
theorem Dev.setCross_cases (r : Reg) (bit : Nat) :
    d.setCross r bit = d.setBit r bit true ∨ ∃ c, d.setCross r bit = (d.setBit r bit true).raise c := by
  unfold Dev.setCross
  dsimp only
  split
  · exact .inr ⟨_, rfl⟩
  · exact .inl rfl

theorem Dev.setCross_regs (r : Reg) (bit : Nat) : (d.setCross r bit).regs = (d.setBit r bit true).regs := by
  rcases d.setCross_cases r bit with h | ⟨c, h⟩
  · rw [h]
  · rw [h, Dev.raise_regs]

theorem Dev.setCross_xs (r : Reg) (bit : Nat) : (d.setCross r bit).xs = d.xs := by
  rcases d.setCross_cases r bit with h | ⟨c, h⟩
  · rw [h]; rfl
  · rw [h, Dev.raise_xs]; rfl

theorem Dev.bitOf_setBit_self (r : Reg) {i : Nat} (h : i < 64) (b : Bool) : bitOf ((d.setBit r i b).rd r) i = b := by
  rw [Dev.setBit, Dev.rd_wr_self, bitOf, Nat.testBit_mod_two_pow, putBit, putBits_testBit]
  cases b <;> simp [h, b2n]

theorem Dev.keepsRegs_wr (r : Reg) (v : Nat) : d.keepsRegs (d.wr r v) [r] := fun _ hq => Dev.rd_wr_other d (hq r (by simp)) v

theorem XId.bit_lt : x.bit < 64 := by
  have hb : b2n x.intoIsland ≤ 1 := by cases x.intoIsland <;> simp [b2n]
  unfold XId.bit
  cases x.kind <;> simp only [] <;> omega

@[simp] theorem Dev.overrun_xval (y : XId) : (d.overrun x).xval y = d.xval y := by rw [Dev.xval, Dev.overrun, Dev.setCross_xs, Dev.xval]
@[simp] theorem Dev.overrun_xevt (y : XId) : (d.overrun x).xevt y = d.xevt y := by rw [Dev.xevt, Dev.overrun, Dev.setCross_xs, Dev.xevt]
@[simp] theorem Dev.overrun_xque (y : XId) : (d.overrun x).xque y = d.xque y := by rw [Dev.xque, Dev.overrun, Dev.setCross_xs, Dev.xque]

/-- The overrun flag of the crossing sets, and no other register changes. -/
theorem Dev.overrun_sets : bitOf ((d.overrun x).rd (islandReg x.island)) x.bit = true ∧
    d.keepsRegs (d.overrun x) [islandReg x.island] := by
  have hregs := d.setCross_regs (islandReg x.island) x.bit
  refine ⟨?_, (d.keepsRegs_wr _ _).regs_eq hregs⟩
  have hbit := d.bitOf_setBit_self (islandReg x.island) x.bit_lt true
  rwa [Dev.rd, ← hregs, ← Dev.rd] at hbit

/-! ### Value crossings (R42) -/

variable {d x} {v : Nat}

section
variable (hk : x.kind = .value) (hx : x.exists = true)
include hk hx

theorem Dev.offerValue_of_idle (h : (d.xval x).flight = none) :
    d.offerValue x v = d.setXval x { d.xval x with flight := some v, delivered := false } := by
  simp [Dev.offerValue, hk, hx, h]

theorem Dev.offerValue_of_unheld {u : Nat} (h : (d.xval x).flight = some u) (hh : (d.xval x).hold = none) :
    d.offerValue x v = d.setXval x { d.xval x with hold := some v } := by
  simp [Dev.offerValue, hk, hx, h, hh]

theorem Dev.offerValue_of_held {u : Nat} (h : (d.xval x).flight = some u) (hh : (d.xval x).hold.isSome = true) :
    d.offerValue x v = (d.setXval x { d.xval x with hold := some v }).overrun x := by
  simp [Dev.offerValue, hk, hx, h, hh]

end

theorem Dev.ackValue_of_delivered (h : (d.xval x).delivered = true) :
    d.ackValue x = d.setXval x { d.xval x with flight := (d.xval x).hold, delivered := false, hold := none } := by
  simp [Dev.ackValue, h]

theorem Dev.arrive_value (hk : x.kind = .value) {u : Nat} (h : (d.xval x).flight = some u) (hd : (d.xval x).delivered = false) :
    d.arrive x = d.setXval x { d.xval x with delivered := true, recv := some u } := by
  simp [Dev.arrive, hk, h, hd]

/-! ### Event crossings (R44) -/

section
variable {k : Nat} (hk : k < x.kinds) (hx : x.exists = true)
include hk hx

theorem Dev.offerEvent_of_idle (h : (d.xevt x).flight = 0) :
    d.offerEvent x k = d.setXevt x { d.xevt x with flight := 2 ^ k, delivered := false, wait := d.before x } := by
  simp [Dev.offerEvent, hk, hx, h]

theorem Dev.offerEvent_of_new (h : (d.xevt x).flight ≠ 0) (hp : (d.xevt x).pending.testBit k = false) :
    d.offerEvent x k = d.setXevt x { d.xevt x with pending := (d.xevt x).pending + 2 ^ k, pendWait := d.before x } := by
  simp [Dev.offerEvent, hk, hx, h, hp]

theorem Dev.offerEvent_of_pending (h : (d.xevt x).flight ≠ 0) (hp : (d.xevt x).pending.testBit k = true) :
    d.offerEvent x k = (d.setXevt x { d.xevt x with pendWait := d.before x }).overrun x := by
  simp [Dev.offerEvent, hk, hx, h, hp]

end

theorem Dev.ackEvent_of_delivered (h : (d.xevt x).delivered = true) : d.ackEvent x = d.setXevt x
    { d.xevt x with flight := (d.xevt x).pending, delivered := false, pending := 0, wait := (d.xevt x).pendWait, pendWait := 0 } := by
  simp [Dev.ackEvent, h]

theorem Dev.arrive_event (hk : x.kind = .event) (h : (d.xevt x).flight ≠ 0) (hd : (d.xevt x).delivered = false)
    (hw : (d.xevt x).wait = 0) :
    d.arrive x = d.setXevt x { d.xevt x with delivered := true, recv := (d.xevt x).recv ++ kindsIn x.kinds (d.xevt x).flight } := by
  simp [Dev.arrive, hk, h, hd, hw]

/-! ### Queue crossings (R46) -/

section
variable (hs : 0 < x.slots) (hx : x.exists = true)
include hs hx

theorem Dev.offerEntry_of_credit (h : (d.xque x).used < x.slots ∧ (d.xque x).stalled = []) : d.offerEntry x v =
    d.setXque x { d.xque x with used := (d.xque x).used + 1, entries := (d.xque x).entries ++ [v] } := by
  simp [Dev.offerEntry, hs.ne', hx, h.1, h.2]

theorem Dev.offerEntry_of_stall (h : ¬ ((d.xque x).used < x.slots ∧ (d.xque x).stalled = [])) :
    d.offerEntry x v = (d.setXque x { d.xque x with stalled := (d.xque x).stalled ++ [v] }).overrun x := by
  simp [Dev.offerEntry, hs.ne', hx, h]

end

theorem Dev.slotCredit_of_quiet {u : Nat} {rest : List Nat} (h : (d.xque x).recv = u :: rest) (hst : (d.xque x).stalled = []) :
    d.slotCredit x = d.setXque x { d.xque x with used := (d.xque x).used - 1, recv := rest } := by
  simp [Dev.slotCredit, h, hst]

theorem Dev.slotCredit_of_stalled {u w : Nat} {rest more : List Nat} (h : (d.xque x).recv = u :: rest)
    (hst : (d.xque x).stalled = w :: more) : d.slotCredit x =
      d.setXque x { d.xque x with entries := (d.xque x).entries ++ [w], stalled := more, recv := rest } := by
  simp [Dev.slotCredit, h, hst]

theorem XId.kind_of_slots (h : 0 < x.slots) : x.kind = .queue x.slots := by
  unfold XId.slots at *
  cases hk : x.kind <;> simp [hk] at h ⊢

/-- What waits for an entry to pass is on event crossings. -/
theorem Dev.letPass_cases (d : Dev) (x : XId) : d.letPass x = d ∨ ∃ e v, d.letPass x = d.setXevt e v := by
  unfold Dev.letPass
  split
  · dsimp only
    split
    · exact .inl rfl
    · exact .inr ⟨_, _, rfl⟩
  · exact .inl rfl

@[simp] theorem Dev.letPass_regs (d : Dev) (x : XId) : (d.letPass x).regs = d.regs := by
  rcases d.letPass_cases x with h | ⟨e, v, h⟩ <;> rw [h]; rfl

@[simp] theorem Dev.letPass_xque (d : Dev) (x y : XId) : (d.letPass x).xque y = d.xque y := by
  rcases d.letPass_cases x with h | ⟨e, v, h⟩ <;> rw [h]; rfl

theorem Dev.arrive_queue (hs : 0 < x.slots) {u : Nat} {rest : List Nat} (h : (d.xque x).entries = u :: rest) :
    d.arrive x = (d.setXque x { d.xque x with entries := rest, recv := (d.xque x).recv ++ [u] }).letPass x := by
  simp [Dev.arrive, XId.kind_of_slots hs, h]

end

/-! ### A delivery (R47) -/

/-- A Stile that has not changed raises no power-fail warning. -/
@[simp] theorem Dev.stileNote_same (d : Dev) (st : Stile) : d.stileNote st st = d := by simp [Dev.stileNote]

theorem crossingDelivery_leyEvt {nv : Nv} {p : Nat} (hx : (XId.leyEvt p).exists = true) (s : Dev × Stile) :
    crossingDelivery nv (.leyEvt p) s = leyEvents nv p s := by simp only [crossingDelivery, hx, Bool.not_true, Bool.false_eq_true, if_false]

theorem leyEvents_of_wait {nv : Nv} {p : Nat} {s : Dev × Stile} (h : 0 < (s.1.xevt (.leyEvt p)).wait) : leyEvents nv p s = s :=
  if_pos h

theorem leyEvents_of_no_wait {nv : Nv} {p : Nat} {s : Dev × Stile} (h : (s.1.xevt (.leyEvt p)).wait = 0) : leyEvents nv p s =
    (s.1.eventTransfer (.leyEvt p)).1.foldl (leyKind nv p) ((s.1.eventTransfer (.leyEvt p)).2, s.2) :=
  if_neg h.not_gt

section
variable {s : State} {x : XId} (hu : s.up = true)
include hu

theorem exec_crossingDelivery_up : exec (.crossingDelivery x) s =
    .next ({ s with stile := (crossingDelivery s.nv x (s.dev, s.stile)).2 }.finish
      ((crossingDelivery s.nv x (s.dev, s.stile)).1.stileNote s.stile (crossingDelivery s.nv x (s.dev, s.stile)).2)).keepFailed := by
  rw [exec_crossingDelivery (x := x) rfl, State.bothWork]
  simp only [hu, if_true]

/-- A delivery that the main die alone acts on. -/
theorem exec_crossingDelivery_dev {d : Dev} (h : crossingDelivery s.nv x (s.dev, s.stile) = (d, s.stile)) :
    exec (.crossingDelivery x) s = .next (s.finish d).keepFailed := by
  rw [exec_crossingDelivery_up hu, h, Dev.stileNote_same]

/-- Values, entries and management events are kept as received. -/
theorem exec_crossingDelivery_arrives (hx : x.exists = true) (hk : x.kind ≠ .event ∨ x = .mgtEvt) :
    exec (.crossingDelivery x) s = .next (s.finish (s.dev.arrive x)).keepFailed := by
  refine exec_crossingDelivery_dev hu ?_
  cases x <;> simp_all [crossingDelivery, XId.kind]

end

/-- Settles O12, by the cases of an offer: nothing in flight, nothing held, a held value. -/
theorem valueCrossings : Obligations.ValueCrossings := by
  intro s x v hu hv hk hx old
  have hoffer := exec_valueCrossingOffer (x := x) (v := v) (by simpa [Instr.wf] using hv) hu
  refine ⟨fun hidle => ?idle, fun u hbusy => ?busy, fun u hbusy hnew => ?delivery, fun hdel => ?ack⟩
  case idle =>
    rw [Dev.offerValue_of_idle hk hx hidle] at hoffer
    exact ⟨_, hoffer, Dev.xval_setXval_self _ _ _, fun y hy => Dev.xval_setXval_other _ hy _, rfl⟩
  case busy =>
    cases hh : old.hold with
    | none =>
      rw [Dev.offerValue_of_unheld hk hx hbusy hh] at hoffer
      exact ⟨_, hoffer, Dev.xval_setXval_self _ _ _, fun y hy => Dev.xval_setXval_other _ hy _, fun _ => rfl,
        fun hsome => absurd hsome (by simp)⟩
    | some w =>
      rw [Dev.offerValue_of_held hk hx hbusy (Option.isSome_of_eq_some hh)] at hoffer
      exact ⟨_, hoffer, (Dev.overrun_xval _ _ _).trans (Dev.xval_setXval_self _ _ _),
        fun y hy => (Dev.overrun_xval _ _ _).trans (Dev.xval_setXval_other _ hy _), fun hnone => absurd hnone (by simp),
        fun _ => Dev.overrun_sets _ x⟩
  case delivery =>
    have hexec := exec_crossingDelivery_arrives hu hx (.inl (by simp [hk]))
    rw [Dev.arrive_value hk hbusy hnew] at hexec
    exact ⟨_, hexec, Dev.xval_setXval_self _ _ _, fun y hy => Dev.xval_setXval_other _ hy _, rfl⟩
  case ack =>
    have hexec := exec_valueCrossingAck (x := x) rfl hu
    rw [Dev.ackValue_of_delivered hdel] at hexec
    exact ⟨_, hexec, Dev.xval_setXval_self _ _ _, fun y hy => Dev.xval_setXval_other _ hy _, rfl⟩

/-- Settles O13, by the cases of an offer and the kind of crossing that delivers. -/
theorem eventCrossings : Obligations.EventCrossings := by
  intro s x k hu hk hx old
  have hoffer := exec_eventCrossingOffer (x := x) (k := k) rfl hu
  refine ⟨fun hidle => ?idle, fun hbusy hp => ?joins, fun hbusy hp => ?merged, fun hdel => ?ack, fun hm hbusy hnew hw => ?mgt,
    fun h he => ?head, fun c he => ?chan, fun p he hw => ?leyWaits, fun p he hw => ?ley⟩
  case idle =>
    rw [Dev.offerEvent_of_idle hk hx hidle] at hoffer
    exact ⟨_, hoffer, Dev.xevt_setXevt_self _ _ _, rfl⟩
  case joins =>
    rw [Dev.offerEvent_of_new hk hx hbusy hp] at hoffer
    exact ⟨_, hoffer, Dev.xevt_setXevt_self _ _ _, rfl⟩
  case merged =>
    rw [Dev.offerEvent_of_pending hk hx hbusy hp] at hoffer
    exact ⟨_, hoffer, (Dev.overrun_xevt _ _ _).trans (Dev.xevt_setXevt_self _ _ _), Dev.overrun_sets _ x⟩
  case ack =>
    have hexec := exec_eventCrossingAck (x := x) rfl hu
    rw [Dev.ackEvent_of_delivered hdel] at hexec
    exact ⟨_, hexec, Dev.xevt_setXevt_self _ _ _, rfl⟩
  case mgt =>
    have hexec := exec_crossingDelivery_arrives hu hx (.inr hm)
    rw [Dev.arrive_event (hm ▸ rfl) hbusy hnew hw] at hexec
    exact ⟨_, hexec, Dev.xevt_setXevt_self _ _ _, rfl⟩
  case head =>
    subst he
    exact exec_crossingDelivery_dev hu (by simp [crossingDelivery, hx])
  case chan =>
    subst he
    exact exec_crossingDelivery_dev hu (by simp [crossingDelivery, hx])
  case leyWaits =>
    subst he
    exact exec_crossingDelivery_dev hu (by rw [crossingDelivery_leyEvt hx, leyEvents_of_wait hw])
  case ley =>
    subst he
    rw [exec_crossingDelivery_up hu, crossingDelivery_leyEvt hx, leyEvents_of_no_wait hw]

/-- Settles O14, by whether the sender holds a credit and whether one is stalled. -/
theorem queueCrossings : Obligations.QueueCrossings := by
  intro s x v hu hv hs hx old all
  have hoffer := exec_queueEntryOffer (x := x) (v := v) rfl hu
  refine ⟨?offer, fun u rest he => ?delivery, fun u rest hr => ?credit⟩
  case offer =>
    by_cases h : old.used < x.slots ∧ old.stalled = []
    · rw [Dev.offerEntry_of_credit hs hx h] at hoffer
      refine ⟨_, hoffer, ?_⟩
      rw [Dev.xque_setXque_self]
      exact ⟨by simp [all, old, h.2], rfl, fun _ => ⟨rfl, rfl, rfl⟩, fun hn => absurd h hn⟩
    · rw [Dev.offerEntry_of_stall hs hx h] at hoffer
      refine ⟨_, hoffer, ?_⟩
      rw [Dev.overrun_xque, Dev.xque_setXque_self]
      exact ⟨by simp [all, old], rfl, fun hc => absurd hc h, fun _ => ⟨rfl, rfl, rfl, Dev.overrun_sets _ x⟩⟩
  case delivery =>
    have hexec := exec_crossingDelivery_arrives hu hx (.inl (by simp [XId.kind_of_slots hs]))
    rw [Dev.arrive_queue hs he] at hexec
    refine ⟨_, hexec, ?_⟩
    rw [Dev.letPass_xque, Dev.xque_setXque_self]
    exact ⟨by simp [all, old, he], rfl, Dev.letPass_regs _ _⟩
  case credit =>
    have hexec := exec_queueSlotCredit (x := x) rfl hu
    cases hst : old.stalled with
    | nil =>
      rw [Dev.slotCredit_of_quiet hr hst] at hexec
      refine ⟨_, hexec, ?_⟩
      rw [Dev.xque_setXque_self]
      exact ⟨by simp [all, old, hr], rfl, hst, rfl⟩
    | cons w more =>
      rw [Dev.slotCredit_of_stalled hr hst] at hexec
      refine ⟨_, hexec, ?_⟩
      rw [Dev.xque_setXque_self]
      exact ⟨by simp [all, old, hr, hst], rfl, rfl, rfl⟩

end Sys2Proof.Machine
end

section
/-! SUPPORT. Resets of islands (R49), and the lags of the periodic units (R54 to R57). -/

namespace Sys2Proof.Machine

/-! ### Crossings of an island that is reset (R49) -/

/-- What an island's reset leaves of a value crossing. -/
theorem asGet_keptVals (k : Nat) (l : List (XId × XVal)) (x : XId) : asGet {} (keptVals k l) x =
    if x.island = k then { recv := if x.intoIsland then none else (asGet {} l x).recv } else asGet {} l x := by
  induction l with
  | nil => simp [keptVals, asGet]
  | cons p l ih =>
    obtain ⟨y, v⟩ := p
    rw [keptVals] at ih
    by_cases hy : y = x
    · subst hy
      by_cases hk : y.island = k
      · simp [keptVals, asGet, hk]
      · simp [keptVals, asGet, hk]
    · by_cases hk : y.island = k
      · simpa [keptVals, asGet, hk, hy] using ih
      · simpa [keptVals, asGet, hk, hy] using ih

section
variable (d : Dev) {k : Nat} (hk : k < 37) (x : XId)
include hk

theorem Dev.xval_islandReset : (d.islandReset k).xval x =
    if x.island = k then { recv := if x.intoIsland then none else (d.xval x).recv } else d.xval x := by
  rw [Dev.islandReset, if_neg hk.not_ge]
  exact asGet_keptVals k _ x

theorem Dev.xevt_islandReset : (d.islandReset k).xevt x = if x.island = k then {} else d.xevt x := by
  rw [Dev.islandReset, if_neg hk.not_ge]
  refine (asGet_filter {} d.xs.evts (fun y => y.island != k) x).trans ?_
  by_cases h : x.island = k <;> simp [h, Dev.xevt]

theorem Dev.xque_islandReset : (d.islandReset k).xque x = if x.island = k then {} else d.xque x := by
  rw [Dev.islandReset, if_neg hk.not_ge]
  refine (asGet_filter {} d.xs.ques (fun y => y.island != k) x).trans ?_
  by_cases h : x.island = k <;> simp [h, Dev.xque]

end

@[simp] theorem Dev.islandReset_regs (d : Dev) (k : Nat) : (d.islandReset k).regs = d.regs := by
  unfold Dev.islandReset; split <;> rfl

@[simp] theorem Dev.islandReset_home (d : Dev) (k : Nat) : (d.islandReset k).home = d.home := by
  unfold Dev.islandReset; split <;> rfl

/-- Only a channel has more to reset than its crossings. -/
theorem Dev.islandRow_of_not_channel (d : Dev) {k : Nat} (h : k < 8 ∨ 32 ≤ k) : d.islandRow k = d.islandReset k := by
  simp only [Dev.islandRow]
  exact if_neg (by omega)

theorem Dev.islandRow_of_channel (d : Dev) {c : Nat} (h : c < 24) : d.islandRow (8 + c) = (d.islandReset (8 + c)).chanIslandReset c := by
  simp only [Dev.islandRow]
  rw [if_pos (by omega), Nat.add_sub_cancel_left]

/-! ### The periods of the units (R57) -/

variable (d : Dev) (u : LagUnit)

@[simp] theorem Dev.setPeriodic_regs (p : Periodic) : (d.setPeriodic p u).regs = d.regs := by cases u <;> rfl

theorem Dev.chn_modChn_self {c : Nat} (hc : c < d.chan.length) (f : Chan → Chan) : (d.modChn c f).chn c = f (d.chn c) := by
  simp [Dev.chn, Dev.modChn, List.getD_eq_getElem?_getD, hc]

/-- A channel whose record is not idle is one that the device has. -/
theorem Dev.chan_of_ne {c : Nat} (h : d.chn c ≠ {}) : c < d.chan.length := by
  by_contra hc
  exact h (List.getD_eq_default _ _ (by omega))

/-- A unit that runs is one that the device has: its period is where it was put. -/
theorem Dev.periodic_setPeriodic {u : LagUnit} (h : (d.periodic u).running = true) (p : Periodic) :
    (d.setPeriodic p u).periodic u = p := by
  cases u with
  | refresh c =>
    have hc : c < d.chan.length := d.chan_of_ne fun e => by simp [Dev.periodic, e] at h
    simp only [Dev.periodic, Dev.setPeriodic, d.chn_modChn_self hc]
  | scrub c =>
    have hc : c < d.chan.length := d.chan_of_ne fun e => by simp [Dev.periodic, e] at h
    simp only [Dev.periodic, Dev.setPeriodic, d.chn_modChn_self hc]
  | epoch t =>
    have ht : t < d.ted.epoch.length := by
      by_contra ht
      rw [Dev.periodic, List.getD_eq_default _ _ (by omega)] at h
      exact absurd h (by decide)
    simp [Dev.periodic, Dev.setPeriodic, Dev.modTed, List.getD_eq_getElem?_getD, ht]
  | sweep => rfl

@[simp] theorem Dev.periodic_raise (r : Rec) : (d.raise r).periodic u = d.periodic u := by
  cases u with
  | refresh c => simp [Dev.periodic, Dev.chn]
  | scrub c => simp [Dev.periodic, Dev.chn]
  | epoch t => simp [Dev.periodic]
  | sweep => simp [Dev.periodic]

@[simp] theorem Dev.periodic_wr (r : Reg) (v : Nat) : (d.wr r v).periodic u = d.periodic u := by cases u <;> rfl

variable {d u}

theorem Dev.lagBeyond_of_late (hr : (d.periodic u).running = true) (hl : (d.periodic u).grid + (d.periodic u).p < d.nowNs)
    (hn : (d.periodic u).raised = false) : d.lagBeyond u =
      (d.setPeriodic { d.periodic u with raised := true } u).lagRecord u (d.nowNs - (d.periodic u).grid) := by
  simp [Dev.lagBeyond, hr, hl, hn]

theorem Dev.lagBeyond_of_not_late (h : ¬ ((d.periodic u).running = true ∧ (d.periodic u).grid + (d.periodic u).p < d.nowNs ∧
    (d.periodic u).raised = false)) : d.lagBeyond u = d := by
  simp only [Dev.lagBeyond, Bool.not_eq_true', if_neg h]

/-- No register of a largest lag lies in the block of the cascade. -/
theorem LagUnit.maxReg_offset (h : u.ok = true) : u.maxReg.offset < 0xD00000 ∨ 0xE00000 ≤ u.maxReg.offset := by
  cases u with
  | refresh c =>
    have hc : c < 24 := by simpa [LagUnit.ok] using h
    simp only [LagUnit.maxReg, Reg.offset]; omega
  | scrub c =>
    have hc : c < 24 := by simpa [LagUnit.ok] using h
    simp only [LagUnit.maxReg, Reg.offset]; omega
  | epoch t =>
    have ht : t < 4 := by simpa [LagUnit.ok] using h
    simp only [LagUnit.maxReg, Reg.offset]; omega
  | sweep => simp [LagUnit.maxReg, Reg.offset]

/-- Settles O15, from what a reset leaves of each crossing and where each unit's period is kept. -/
theorem islandsAndLags : Obligations.IslandsAndLags := by
  intro s hu
  refine ⟨fun k hk hkind => ?island, fun c hc => ?channel, fun u hok => ?lag⟩
  case island =>
    have hexec := exec_islandReset (k := k) (by simpa [Instr.wf] using hk) hu
    rw [Dev.islandRow_of_not_channel _ hkind] at hexec
    refine ⟨_, hexec, Dev.islandReset_regs _ _, Dev.islandReset_home _ _, fun x hx => ?_⟩
    rw [Dev.xval_islandReset _ hk, Dev.xevt_islandReset _ hk, Dev.xque_islandReset _ hk]
    exact ⟨fun h => by simp [h], fun h => by simp [h]⟩
  case channel =>
    rw [exec_islandReset (by simpa [Instr.wf] using (by omega : 8 + c < 37)) hu, Dev.islandRow_of_channel _ hc]
  case lag =>
    have hlag := exec_lagBeyondPeriod (u := u) hok hu
    refine ⟨fun hr hl hn => ?late, fun h => ?inTime, fun hreach => ?clear⟩
    case late =>
      rw [Dev.lagBeyond_of_late hr hl hn] at hlag
      refine ⟨_, hlag, ?_, ?_⟩
      · rw [Dev.lagRecord, Dev.periodic_raise, Dev.periodic_setPeriodic _ hr]
      · rw [Dev.lagRecord, Dev.raise_regs, Dev.setPeriodic_regs]
    case inTime => exact hlag.trans (by rw [Dev.lagBeyond_of_not_late h])
    case clear =>
      have hclr := exec_maxlagClr (u := u) hok hu
      rw [Dev.viaReg_of_reaches hreach (LagUnit.maxReg_offset hok)] at hclr
      exact ⟨_, hclr, Dev.rd_wr_self _ _ _, Dev.keepsRegs_wr _ _ _, rfl, Dev.periodic_wr _ _ _ _⟩

end Sys2Proof.Machine
end

section
/-! SUPPORT. The quarter supplies (R36 to R40): what the procedure of R37 makes of one quarter, apart from what it does to it; and that
a decision moves each quarter by the registers of that quarter alone. -/

namespace Sys2Proof.Machine

/-! ### One quarter -/

/-- What the procedure of R37 comes to for a quarter: a set point that is sent, AT_CEIL, or nothing. -/
inductive AvsMove where
  | send (code : Nat) | atCeil | stay

/-- The procedure of R37 on the numbers of one quarter. -/
def AvsMove.choose (own sum margin step set floor ceil : Nat) : AvsMove :=
  if set < floor then .send floor
  else if ceil < set then .send ceil
  else if 3 * (own + margin) < sum ∨ own < 1024 + margin then
    if set < ceil then .send (min (set + step) ceil) else .atCeil
  else if sum + 6 * margin < 3 * own ∧ 1024 + 2 * margin < own ∧ floor < set then .send (max (set - step) floor)
  else .stay

section
variable {own sum margin step set floor ceil : Nat}

theorem AvsMove.choose_below (h : set < floor) : AvsMove.choose own sum margin step set floor ceil = .send floor := if_pos h

theorem AvsMove.choose_above (h : ceil < set) (hf : floor ≤ ceil) :
    AvsMove.choose own sum margin step set floor ceil = .send ceil := by
  rw [AvsMove.choose, if_neg (by omega), if_pos h]

section
variable (hf : floor ≤ set) (hc : set ≤ ceil)
include hf hc

theorem AvsMove.choose_inside : AvsMove.choose own sum margin step set floor ceil =
    if 3 * (own + margin) < sum ∨ own < 1024 + margin then
      if set < ceil then .send (min (set + step) ceil) else .atCeil
    else if sum + 6 * margin < 3 * own ∧ 1024 + 2 * margin < own ∧ floor < set then .send (max (set - step) floor)
    else .stay := by
  rw [AvsMove.choose, if_neg (by omega), if_neg (by omega)]

theorem AvsMove.choose_raises (h : 3 * (own + margin) < sum ∨ own < 1024 + margin) (hlt : set < ceil) :
    AvsMove.choose own sum margin step set floor ceil = .send (min (set + step) ceil) := by
  rw [AvsMove.choose_inside hf hc, if_pos h, if_pos hlt]

theorem AvsMove.choose_atCeil (h : 3 * (own + margin) < sum ∨ own < 1024 + margin) (he : set = ceil) :
    AvsMove.choose own sum margin step set floor ceil = .atCeil := by
  rw [AvsMove.choose_inside hf hc, if_pos h, if_neg (by omega)]

theorem AvsMove.choose_lowers (h : ¬ (3 * (own + margin) < sum ∨ own < 1024 + margin))
    (hfast : sum + 6 * margin < 3 * own ∧ 1024 + 2 * margin < own) (hlt : floor < set) :
    AvsMove.choose own sum margin step set floor ceil = .send (max (set - step) floor) := by
  rw [AvsMove.choose_inside hf hc, if_neg h, if_pos ⟨hfast.1, hfast.2, hlt⟩]

theorem AvsMove.choose_stays (h : ¬ (3 * (own + margin) < sum ∨ own < 1024 + margin))
    (hfast : ¬ ((sum + 6 * margin < 3 * own ∧ 1024 + 2 * margin < own) ∧ floor < set)) :
    AvsMove.choose own sum margin step set floor ceil = .stay := by
  rw [AvsMove.choose_inside hf hc, if_neg h, if_neg fun hn => hfast ⟨⟨hn.1, hn.2.1⟩, hn.2.2⟩]

end
end

/-- The move of a quarter, from its registers and the indices of one window. -/
def Dev.avsMove (speed : List Nat) (d : Dev) (q : Nat) : AvsMove :=
  if d.flag (.gblAvsQ q) F.gblAvsQ_BUS_ERR then .stay
  else
    .choose (speed.getD q 0) (speed.sum - speed.getD q 0) (d.fld .gblAvsCtrl F.gblAvsCtrl_MARGIN)
      (min 8 (max 1 (d.fld .gblAvsCtrl F.gblAvsCtrl_STEP))) (avsCode (d.fld (.gblAvsQ q) F.gblAvsQ_SETPOINT))
      (avsCode (d.fld (.gblAvsQ q) F.gblAvsQ_FLOOR))
      (max (avsCode (d.fld (.gblAvsQ q) F.gblAvsQ_FLOOR)) (avsCode (d.fld (.gblAvsQ q) F.gblAvsQ_CEIL)))

/-- A move is made. -/
def Dev.avsMake (d : Dev) (q : Nat) : AvsMove → Dev
  | .send code => d.avsSend q code
  | .atCeil => d.setFlag (.gblAvsQ q) F.gblAvsQ_AT_CEIL true
  | .stay => d

theorem Dev.avsQuarter_eq (speed : List Nat) (d : Dev) (q : Nat) : Dev.avsQuarter speed d q = d.avsMake q (d.avsMove speed q) := by
  unfold Dev.avsQuarter Dev.avsMove AvsMove.choose
  dsimp only
  split_ifs <;> rfl

theorem avsCode_of_range {v : Nat} (h : 19 ≤ v) (h' : v ≤ 41) : avsCode v = v := by unfold avsCode; omega

/-! ### What a move leaves -/

theorem gblAvsQ_offset_ne {p q : Nat} (h : p ≠ q) : (Reg.gblAvsQ p).offset ≠ (Reg.gblAvsQ q).offset := by
  simp only [Reg.offset]; omega

theorem gblAvsQ_offset_ne_ctrl (q : Nat) : (Reg.gblAvsQ q).offset ≠ Reg.gblAvsCtrl.offset := by simp only [Reg.offset]; omega

section
variable (d : Dev) (q : Nat)

theorem Dev.avsSend_regs (code : Nat) : (d.avsSend q code).regs = (d.setFld (.gblAvsQ q) F.gblAvsQ_SETPOINT code).regs := by
  simp only [Dev.avsSend, Dev.emit_regs]

theorem Dev.avsSend_out (code : Nat) : (d.avsSend q code).out = d.out ++ [.avs q (avsCode code)] := by
  simp only [Dev.avsSend, Dev.emit, Dev.setFld_out]

theorem Dev.setpoint_avsSend (code : Nat) : (d.avsSend q code).fld (.gblAvsQ q) F.gblAvsQ_SETPOINT = code % 256 := by
  rw [Dev.fld_of_regs_eq (d.avsSend_regs q code)]
  exact Dev.fld_setFld_self _ _ _ (by decide) (by decide)

theorem Dev.keepsRegs_avsSend (code : Nat) : d.keepsRegs (d.avsSend q code) [.gblAvsQ q] :=
  ((Dev.keepsRegs_of_regs_eq rfl).setFld (by simp) _ _).regs_eq (d.avsSend_regs q code)

theorem Dev.keepsRegs_avsQuarter (speed : List Nat) : d.keepsRegs (Dev.avsQuarter speed d q) [.gblAvsQ q] := by
  rw [Dev.avsQuarter_eq]
  cases d.avsMove speed q with
  | send code => exact d.keepsRegs_avsSend q code
  | atCeil => exact (Dev.keepsRegs_of_regs_eq rfl).setFlag (by simp) _ _
  | stay => exact Dev.keepsRegs_of_regs_eq rfl

theorem Dev.out_avsQuarter_le (speed : List Nat) : d.out.length ≤ (Dev.avsQuarter speed d q).out.length := by
  rw [Dev.avsQuarter_eq]
  cases d.avsMove speed q with
  | send code => rw [Dev.avsMake, Dev.avsSend_out, List.length_append]; omega
  | atCeil => rw [Dev.avsMake, Dev.setFlag_out]
  | stay => exact le_rfl

end

/-! ### The four quarters -/

/-- The quarters of a list decide in turn. -/
def Dev.avsQuarters (speed : List Nat) (d : Dev) (l : List Nat) : Dev := l.foldl (Dev.avsQuarter speed) d

section
variable {speed : List Nat} {d : Dev} {q : Nat} {l : List Nat}

theorem Dev.keepsRegs.trans_cons {d e f : Dev} {r : Reg} {but : List Reg} (h : d.keepsRegs e [r]) (h' : e.keepsRegs f but) :
    d.keepsRegs f (r :: but) := fun q hq =>
  (h' q fun p hp => hq p (List.mem_cons_of_mem _ hp)).trans (h q fun p hp => hq p (List.mem_singleton.mp hp ▸ List.mem_cons_self))

theorem Dev.keepsRegs_avsQuarters (speed : List Nat) (d : Dev) (l : List Nat) :
    d.keepsRegs (d.avsQuarters speed l) (l.map .gblAvsQ) := by
  induction l generalizing d with
  | nil => exact Dev.keepsRegs_of_regs_eq rfl
  | cons p l ih => exact (d.keepsRegs_avsQuarter p speed).trans_cons (ih _)

theorem Dev.out_avsQuarters_le (speed : List Nat) (d : Dev) (l : List Nat) :
    d.out.length ≤ (d.avsQuarters speed l).out.length := by
  induction l generalizing d with
  | nil => exact le_rfl
  | cons p l ih => exact (d.out_avsQuarter_le p speed).trans (ih _)

theorem Dev.fld_avsQuarters_other (hq : q ∉ l) (g : Fld) : (d.avsQuarters speed l).fld (.gblAvsQ q) g = d.fld (.gblAvsQ q) g := by
  refine (Dev.keepsRegs_avsQuarters speed d l).fld ?_ g
  simp only [List.mem_map, forall_exists_index, and_imp]
  rintro _ p hp rfl
  exact gblAvsQ_offset_ne fun e => hq (e ▸ hp)

theorem Dev.fld_avsQuarters_ctrl (g : Fld) : (d.avsQuarters speed l).fld .gblAvsCtrl g = d.fld .gblAvsCtrl g := by
  refine (Dev.keepsRegs_avsQuarters speed d l).fld ?_ g
  simp only [List.mem_map, forall_exists_index, and_imp]
  rintro _ p - rfl
  exact gblAvsQ_offset_ne_ctrl p

/-- The decisions of other quarters leave the move of a quarter as it is. -/
theorem Dev.avsMove_avsQuarters (hq : q ∉ l) : (d.avsQuarters speed l).avsMove speed q = d.avsMove speed q := by
  have hflag : (d.avsQuarters speed l).flag (.gblAvsQ q) F.gblAvsQ_BUS_ERR = d.flag (.gblAvsQ q) F.gblAvsQ_BUS_ERR :=
    congrArg (· != 0) (Dev.fld_avsQuarters_other hq _)
  simp only [Dev.avsMove, hflag, Dev.fld_avsQuarters_other hq, Dev.fld_avsQuarters_ctrl]

/-- Of quarters that decide in turn, each reads as its own move leaves it; `e` is the die when its turn comes. -/
theorem Dev.fld_avsQuarters (speed : List Nat) (d : Dev) (hl : l.Nodup) (hq : q ∈ l) : ∃ e : Dev,
    (∀ g, e.fld (.gblAvsQ q) g = d.fld (.gblAvsQ q) g) ∧
    (∀ g, (d.avsQuarters speed l).fld (.gblAvsQ q) g = (e.avsMake q (d.avsMove speed q)).fld (.gblAvsQ q) g) ∧
    d.out.length ≤ e.out.length ∧ (e.avsMake q (d.avsMove speed q)).out.length ≤ (d.avsQuarters speed l).out.length := by
  obtain ⟨l₁, l₂, rfl⟩ := List.append_of_mem hq
  have h₁ : q ∉ l₁ := fun h => (List.disjoint_of_nodup_append hl) h (by simp)
  have h₂ : q ∉ l₂ := (List.nodup_cons.mp (List.Nodup.of_append_right hl)).1
  have hfold : d.avsQuarters speed (l₁ ++ q :: l₂) =
      ((d.avsQuarters speed l₁).avsMake q (d.avsMove speed q)).avsQuarters speed l₂ := by
    rw [← Dev.avsMove_avsQuarters h₁, ← Dev.avsQuarter_eq]
    exact List.foldl_append
  rw [hfold]
  exact ⟨d.avsQuarters speed l₁, Dev.fld_avsQuarters_other h₁, Dev.fld_avsQuarters_other h₂, Dev.out_avsQuarters_le _ _ _,
    Dev.out_avsQuarters_le _ _ _⟩

end

/-! ### A decision -/

theorem Dev.oneWindow_iff (d : Dev) : d.oneWindow = true ↔
    ∀ k < 4, d.fld (.gblAvsSpd k) F.gblAvsSpd_SEQ = d.fld (.gblAvsSpd 0) F.gblAvsSpd_SEQ := by
  simp [Dev.oneWindow]

/-- Nothing holds a decision back (R37, R38). -/
def Dev.avsReady (d : Dev) : Prop :=
  d.avsAuto = true ∧ d.oneWindow = true ∧ d.mgt.settling = false ∧ d.mgt.restarting = false

/-- The indices of the four quarters. -/
def Dev.avsSpeeds (d : Dev) : List Nat := (List.range 4).map fun q => d.fld (.gblAvsSpd q) F.gblAvsSpd_SPEED

section
variable {d : Dev} {q : Nat}

theorem Dev.avsDecision_of_blocked (h : d.avsAuto = false ∨ d.mgt.settling = true ∨ d.mgt.restarting = true ∨
    ∃ k < 4, d.fld (.gblAvsSpd k) F.gblAvsSpd_SEQ ≠ d.fld (.gblAvsSpd 0) F.gblAvsSpd_SEQ) : d.avsDecision = d := by
  refine if_pos ?_
  rcases h with h | h | h | ⟨k, hk, hne⟩
  · simp [h]
  · simp [h]
  · simp [h]
  · have hw : d.oneWindow = false := Bool.eq_false_iff.mpr fun hw => hne (d.oneWindow_iff.mp hw k hk)
    simp [hw]

section
variable (hd : d.avsReady)
include hd

theorem Dev.avsDecision_of_ready : d.avsDecision =
    if (d.avsQuarters d.avsSpeeds (List.range 4)).out.length = d.out.length then d.avsQuarters d.avsSpeeds (List.range 4)
    else { d.avsQuarters d.avsSpeeds (List.range 4) with
      mgt := { (d.avsQuarters d.avsSpeeds (List.range 4)).mgt with settling := true } } := by
  obtain ⟨hauto, hw, hs, hr⟩ := hd
  rw [Dev.avsDecision, if_neg (by simp [hauto, hw, hs, hr])]
  rfl

theorem Dev.avsDecision_regs : d.avsDecision.regs = (d.avsQuarters d.avsSpeeds (List.range 4)).regs := by
  rw [Dev.avsDecision_of_ready hd]
  split <;> rfl

theorem Dev.keepsRegs_avsDecision : d.keepsRegs d.avsDecision [.gblAvsQ 0, .gblAvsQ 1, .gblAvsQ 2, .gblAvsQ 3] :=
  (Dev.keepsRegs_avsQuarters d.avsSpeeds d (List.range 4)).regs_eq (Dev.avsDecision_regs hd)

variable (hq : q < 4)
include hq

theorem Dev.fld_avsDecision : ∃ e : Dev, (∀ g, e.fld (.gblAvsQ q) g = d.fld (.gblAvsQ q) g) ∧
    (∀ g, d.avsDecision.fld (.gblAvsQ q) g = (e.avsMake q (d.avsMove d.avsSpeeds q)).fld (.gblAvsQ q) g) := by
  obtain ⟨e, he, hfld, -, -⟩ := Dev.fld_avsQuarters d.avsSpeeds d List.nodup_range (List.mem_range.mpr hq)
  exact ⟨e, he, fun g => (Dev.fld_of_regs_eq (Dev.avsDecision_regs hd) _ _).trans (hfld g)⟩

/-- A set point that is sent makes the set points settle. -/
theorem Dev.avsDecision_settling {code : Nat} (hm : d.avsMove d.avsSpeeds q = .send code) : d.avsDecision.mgt.settling = true := by
  obtain ⟨e, -, -, hout, hout'⟩ := Dev.fld_avsQuarters d.avsSpeeds d List.nodup_range (List.mem_range.mpr hq)
  rw [hm, Dev.avsMake, Dev.avsSend_out, List.length_append, List.length_singleton] at hout'
  rw [Dev.avsDecision_of_ready hd, if_neg (by omega)]

theorem Dev.avsDecision_sends {code : Nat} (hm : d.avsMove d.avsSpeeds q = .send code) (hcode : code < 256) :
    d.avsDecision.fld (.gblAvsQ q) F.gblAvsQ_SETPOINT = code ∧ d.avsDecision.mgt.settling = true := by
  obtain ⟨e, -, hfld⟩ := Dev.fld_avsDecision hd hq
  rw [hfld, hm, Dev.avsMake, Dev.setpoint_avsSend, Nat.mod_eq_of_lt hcode]
  exact ⟨rfl, Dev.avsDecision_settling hd hq hm⟩

theorem Dev.avsDecision_atCeil (hm : d.avsMove d.avsSpeeds q = .atCeil) :
    d.avsDecision.fld (.gblAvsQ q) F.gblAvsQ_SETPOINT = d.fld (.gblAvsQ q) F.gblAvsQ_SETPOINT ∧
      d.avsDecision.flag (.gblAvsQ q) F.gblAvsQ_AT_CEIL = true := by
  obtain ⟨e, he, hfld⟩ := Dev.fld_avsDecision hd hq
  rw [hm, Dev.avsMake] at hfld
  refine ⟨?_, (congrArg (· != 0) (hfld _)).trans (e.flag_setFlag_self _ _ (by decide) (by decide))⟩
  rw [hfld, Dev.fld_setFlag_field _ _ _ (by decide) (by decide) (by decide), he]

theorem Dev.avsDecision_stays (hm : d.avsMove d.avsSpeeds q = .stay) :
    d.avsDecision.fld (.gblAvsQ q) F.gblAvsQ_SETPOINT = d.fld (.gblAvsQ q) F.gblAvsQ_SETPOINT := by
  obtain ⟨e, he, hfld⟩ := Dev.fld_avsDecision hd hq
  rw [hfld, hm, Dev.avsMake, he]

end

/-- The index of a quarter, and the sum of the others' (R37). -/
theorem Dev.avsSpeeds_getD (hq : q < 4) : d.avsSpeeds.getD q 0 = d.fld (.gblAvsSpd q) F.gblAvsSpd_SPEED := by
  simp [Dev.avsSpeeds, List.getD_eq_getElem?_getD, hq]

theorem Dev.avsSpeeds_sum : d.avsSpeeds.sum = d.fld (.gblAvsSpd 0) F.gblAvsSpd_SPEED + d.fld (.gblAvsSpd 1) F.gblAvsSpd_SPEED +
    d.fld (.gblAvsSpd 2) F.gblAvsSpd_SPEED + d.fld (.gblAvsSpd 3) F.gblAvsSpd_SPEED := by
  simp [Dev.avsSpeeds, List.range_succ, Nat.add_assoc]

end

/-! ### The other commands of a quarter's supply -/

section
variable (d : Dev) {q : Nat} (hq : q < 4)
include hq

theorem Dev.speedWindow_stores {w : Nat} (hw : w < 2 ^ 16) :
    (d.speedWindow q w).fld (.gblAvsSpd q) F.gblAvsSpd_SPEED = w ∧
    (d.speedWindow q w).fld (.gblAvsSpd q) F.gblAvsSpd_SEQ = (d.fld (.gblAvsSpd q) F.gblAvsSpd_SEQ + 1) % 65536 ∧
    d.keepsRegs (d.speedWindow q w) [.gblAvsSpd q] ∧ (d.speedWindow q w).out = d.out := by
  rw [Dev.speedWindow, if_pos hq, Nat.min_eq_left (by omega)]
  refine ⟨?_, ?_, ((Dev.keepsRegs_of_regs_eq rfl).setFld (by simp) _ _).setFld (by simp) _ _, by simp only [Dev.setFld_out]⟩
  · rw [Dev.fld_setFld_field _ _ _ (by decide) (by decide) (by decide)]
    exact (Dev.fld_setFld_self _ _ _ (by decide) (by decide)).trans (Nat.mod_eq_of_lt hw)
  · exact (Dev.fld_setFld_self _ _ _ (by decide) (by decide)).trans (Nat.mod_mod _ _)

/-- The last confirmed set point comes back, where one is known. -/
def Dev.avsBack (d : Dev) (q : Nat) : Dev :=
  match d.mgt.avsOld.getD q none with
  | some v => d.setFld (.gblAvsQ q) F.gblAvsQ_SETPOINT v
  | none => d

theorem Dev.avsFail_regs : (d.avsFail q).regs = ((d.avsBack q).setFlag (.gblAvsQ q) F.gblAvsQ_BUS_ERR true).regs := by
  rw [Dev.avsFail, if_pos hq, Dev.raise_regs]
  rfl

theorem Dev.avsFail_fails : (d.avsFail q).flag (.gblAvsQ q) F.gblAvsQ_BUS_ERR = true ∧ d.keepsRegs (d.avsFail q) [.gblAvsQ q] ∧
    ∀ c, d.mgt.avsOld.getD q none = some c → (d.avsFail q).fld (.gblAvsQ q) F.gblAvsQ_SETPOINT = c % 256 := by
  have hfld := Dev.fld_of_regs_eq (d.avsFail_regs hq) (.gblAvsQ q)
  refine ⟨?_, ?_, fun c hc => ?_⟩
  · exact (congrArg (· != 0) (hfld _)).trans (Dev.flag_setFlag_self _ _ _ (by decide) (by decide))
  · have hback : d.keepsRegs (d.avsBack q) [.gblAvsQ q] := by
      unfold Dev.avsBack
      split
      · exact (Dev.keepsRegs_of_regs_eq rfl).setFld (by simp) _ _
      · exact Dev.keepsRegs_of_regs_eq rfl
    exact (hback.setFlag (by simp) _ _).regs_eq (d.avsFail_regs hq)
  · rw [hfld, Dev.fld_setFlag_field _ _ _ (by decide) (by decide) (by decide), Dev.avsBack, hc]
    exact Dev.fld_setFld_self _ _ _ (by decide) (by decide)

theorem Dev.busErrClear_clears : (d.busErrClear q).flag (.gblAvsQ q) F.gblAvsQ_BUS_ERR = false ∧
    (d.busErrClear q).fld (.gblAvsQ q) F.gblAvsQ_SETPOINT = d.fld (.gblAvsQ q) F.gblAvsQ_SETPOINT ∧
    d.keepsRegs (d.busErrClear q) [.gblAvsQ q] := by
  rw [Dev.busErrClear, if_pos hq]
  exact ⟨Dev.flag_setFlag_self _ _ _ (by decide) (by decide), Dev.fld_setFlag_field _ _ _ (by decide) (by decide) (by decide),
    (Dev.keepsRegs_of_regs_eq rfl).setFlag (by simp) _ _⟩

theorem Dev.avsWrite_of_manual (h : d.avsAuto = false) {v : Nat} (hv : v < 256) : d.avsWrite q v = d.avsSend q v := by
  rw [Dev.avsWrite, if_pos ⟨hq, by simp [h]⟩, Nat.mod_eq_of_lt hv]

end

theorem Dev.avsWrite_of_auto {d : Dev} (h : d.avsAuto = true) (q v : Nat) : d.avsWrite q v = d := if_neg (by simp [h])

theorem gblAvsQ_offset_low {q : Nat} (hq : q < 4) : (Reg.gblAvsQ q).offset < 0xD00000 ∨ 0xE00000 ≤ (Reg.gblAvsQ q).offset := by
  simp only [Reg.offset]; omega

/-- Settles O16, the decision by the move of the quarter. -/
theorem quarterSupplies : Obligations.QuarterSupplies := by
  intro s q v hu hq hv r seq auto
  refine ⟨fun w hw => ?window, fun h => ?blocked, ?decision, ?settled, ?failure, fun hreach => ?writes⟩
  case window => exact ⟨_, exec_speedWindowEnd (by simpa [Instr.wf, hq] using hw) hu, Dev.speedWindow_stores _ hq hw⟩
  case blocked => rw [exec_avsDecision hu, Dev.avsDecision_of_blocked h]
  case decision =>
    intro hauto hseq hsettling hrestarting hbus set floor ceil hf hfc hc hs hs' speed sum margin step slow fast
    have hd : s.dev.avsReady := ⟨hauto, s.dev.oneWindow_iff.mpr hseq, hsettling, hrestarting⟩
    have hmove : s.dev.avsMove s.dev.avsSpeeds q = .choose (speed q) sum margin step set floor ceil := by
      rw [Dev.avsMove, if_neg (by simpa using hbus), Dev.avsSpeeds_getD hq, Dev.avsSpeeds_sum, avsCode_of_range hf (by omega),
        avsCode_of_range hs hs', avsCode_of_range (by omega) hc, Nat.max_eq_right hfc]
    have hsends {code : Nat} (hm : AvsMove.choose (speed q) sum margin step set floor ceil = .send code) (hcode : code ≤ 41) :=
      Dev.avsDecision_sends hd hq (hmove.trans hm) (by omega)
    refine ⟨_, exec_avsDecision hu, fun h => ?below, fun h => ?above, fun hlo hhi => ⟨fun h hlt => ?raises, fun h he => ?atCeil,
      fun h hfast hlt => ?lowers, fun h hfast => ?stays⟩, Dev.keepsRegs_avsDecision hd⟩
    case below => exact hsends (AvsMove.choose_below h) (by omega)
    case above => exact hsends (AvsMove.choose_above h hfc) hc
    case raises => exact hsends (AvsMove.choose_raises hlo hhi h hlt) (by omega)
    case atCeil => exact Dev.avsDecision_atCeil hd hq (hmove.trans (AvsMove.choose_atCeil hlo hhi h he))
    case lowers => exact hsends (AvsMove.choose_lowers hlo hhi h hfast hlt) (by omega)
    case stays => exact Dev.avsDecision_stays hd hq (hmove.trans (AvsMove.choose_stays hlo hhi h hfast))
  case settled => exact ⟨_, exec_avsSettleEnd hu, rfl, rfl, rfl⟩
  case failure => exact ⟨_, exec_avsbusFailure (by simpa [Instr.wf] using hq) hu, Dev.avsFail_fails _ hq⟩
  case writes =>
    have hclear := exec_busErrClear (q := q) (by simpa [Instr.wf] using hq) hu
    have hwrite := exec_avsSetpointWrite (q := q) (code := v) (by simpa [Instr.wf, hq] using hv) hu
    rw [Dev.viaReg_of_reaches hreach (gblAvsQ_offset_low hq)] at hclear hwrite
    refine ⟨⟨_, hclear, Dev.busErrClear_clears _ hq⟩, fun hauto => ?manual, fun hauto => ?auto⟩
    case manual =>
      rw [Dev.avsWrite_of_manual _ hq hauto hv] at hwrite
      exact ⟨_, hwrite, (Dev.setpoint_avsSend _ _ _).trans (Nat.mod_eq_of_lt hv), Dev.avsSend_out _ _ _, Dev.keepsRegs_avsSend _ _ _⟩
    case auto => exact hwrite.trans (by rw [Dev.avsWrite_of_auto hauto])

end Sys2Proof.Machine
end

section
/-! SUPPORT. Registers of the main die written bit by bit (R467): the bit that is written, and what stays. -/

namespace Sys2Proof.Machine

variable (d : Dev)

theorem Dev.keepsRegs.wr {d e : Dev} {but : List Reg} {r : Reg} (h : d.keepsRegs e but) (hr : r ∈ but) (v : Nat) :
    d.keepsRegs (e.wr r v) but := fun q hq => (Dev.rd_wr_other e (hq r hr) v).trans (h q hq)

theorem Dev.keepsRegs.setBit {d e : Dev} {but : List Reg} {r : Reg} (h : d.keepsRegs e but) (hr : r ∈ but) (i : Nat) (b : Bool) :
    d.keepsRegs (e.setBit r i b) but := h.wr hr _

theorem Dev.keepsRegs_refl (but : List Reg) : d.keepsRegs d but := fun _ _ => rfl

theorem Dev.rd_setBit_other {r q : Reg} (h : r.offset ≠ q.offset) (i : Nat) (b : Bool) : (d.setBit r i b).rd q = d.rd q :=
  d.rd_wr_other h _

theorem Dev.flag_setBit_other {r q : Reg} (h : r.offset ≠ q.offset) (i : Nat) (b : Bool) (g : Fld) :
    (d.setBit r i b).flag q g = d.flag q g := congrArg (· != 0) (d.fld_wr_other h _)

theorem Dev.flag_wr_other {r q : Reg} (h : r.offset ≠ q.offset) (v : Nat) (g : Fld) : (d.wr r v).flag q g = d.flag q g :=
  congrArg (· != 0) (d.fld_wr_other h v)

theorem Dev.bitOf_setBit_bit (r : Reg) {i j : Nat} (hij : i ≠ j) (hj : j < 64) (b : Bool) :
    bitOf ((d.setBit r i b).rd r) j = bitOf (d.rd r) j := by
  rw [Dev.setBit, Dev.rd_wr_self, bitOf, Nat.testBit_mod_two_pow, putBit, putBits_testBit, if_neg (by omega)]
  simp [hj, bitOf]

end Sys2Proof.Machine
end

section
/-! SUPPORT. Storage sets (R70 to R72, R212, R213): the four commands of a set by what they find. -/

namespace Sys2Proof.Machine

variable {d : Dev} {n : Nat}

/-! ### The registers of a set, which a member does not have (R386) -/

theorem Dev.casHidden_casSetCtrl (d : Dev) (hn : n < 16) : d.casHidden (.casSetCtrl n) = (d.role != 0) := by
  have hlo : 0xD00000 ≤ (Reg.casSetCtrl n).offset := by simp only [Reg.offset]; omega
  have hhi : (Reg.casSetCtrl n).offset < 0xE00000 := by simp only [Reg.offset]; omega
  simp [Dev.casHidden, hlo, hhi]

theorem Dev.viaReg_of_reaches_casSetCtrl {s : State} (hn : n < 16) (h : s.reaches (.casSetCtrl n)) (f : Dev → Dev) :
    s.dev.viaReg (.casSetCtrl n) f = if s.dev.role = 0 then f s.dev else s.dev := by
  obtain ⟨-, hat, hcause⟩ := h
  simp only [Dev.viaReg, hat, hcause, Dev.casHidden_casSetCtrl s.dev hn, bne_iff_ne, ne_eq, ite_not, not_true_eq_false, if_false]

theorem casSetCtrl_ne_cipSetstat : (Reg.casSetCtrl n).offset ≠ Reg.cipSetstat.offset := by simp only [Reg.offset]; omega
theorem casSetCtrl_ne_cipMajhw : (Reg.casSetCtrl n).offset ≠ Reg.cipMajhw.offset := by simp only [Reg.offset]; omega
theorem cipSetstat_ne_cipMajhw : Reg.cipSetstat.offset ≠ Reg.cipMajhw.offset := by decide

/-- Changing a flag of a set other than COMMITTED leaves the set committed or not. -/
theorem Dev.setCommitted_setFlag (d : Dev) {f : Fld} (b : Bool) (h : f.lo ≤ f.hi) (hd : 30 < f.lo ∨ f.hi < 30) :
    (d.setFlag (.casSetCtrl n) f b).setCommitted n = d.setCommitted n :=
  d.flag_setFlag_field _ b h (by decide) hd

theorem Dev.setPending_setFlag (d : Dev) (r : Reg) (f : Fld) (b : Bool) : (d.setFlag r f b).setPending n = d.setPending n := by
  rw [Dev.setPending, Dev.setFlag_cas, Dev.setPending]

@[simp] theorem Dev.setPending_setPend (d : Dev) (b : Bool) : (d.setPend n b).setPending n = b := by
  cases b <;> simp [Dev.setPend, Dev.setPending, List.contains_eq_mem]

theorem Dev.setPend_regs (d : Dev) (b : Bool) : (d.setPend n b).regs = d.regs := rfl
theorem Dev.setPend_cip (d : Dev) (b : Bool) : (d.setPend n b).cip = d.cip := rfl
theorem Dev.setPend_bulk (d : Dev) (b : Bool) : (d.setPend n b).bulk = d.bulk := rfl

theorem Dev.flag_setPend (d : Dev) (b : Bool) (r : Reg) (f : Fld) : (d.setPend n b).flag r f = d.flag r f := by
  rw [Dev.flag, Dev.setPend_regs, Dev.flag]

/-! ### SET_COMMIT (R70) -/

theorem Dev.setCommit_of_kept (hr : d.role = 0) (h : d.setKept n = true) :
    d.setCommit n = d.setFlag (.casSetCtrl n) F.casSetCtrl_COMMIT true := by
  simp [Dev.setCommit, hr, h]

theorem Dev.setCommit_of_refused (hr : d.role = 0) (h : d.setKept n = false) (href : d.setRefused n = true) :
    d.setCommit n = (d.setFlag (.casSetCtrl n) F.casSetCtrl_COMMIT true).setFlag (.casSetCtrl n) F.casSetCtrl_ERR true := by
  simp [Dev.setCommit, hr, h, href]

theorem Dev.setCommit_of_sound (hr : d.role = 0) (h : d.setKept n = false) (href : d.setRefused n = false) :
    d.setCommit n = (d.setFlag (.casSetCtrl n) F.casSetCtrl_COMMIT true).setPend n true := by
  simp [Dev.setCommit, hr, h, href]

/-- COMMIT sets whatever becomes of the commit (R466): it is accepted where the set is neither committed nor accepted and R70 does not
refuse it, and a refused one shows ERR. -/
theorem Dev.setCommit_sets (hr : d.role = 0) : d.keepsRegs (d.setCommit n) [.casSetCtrl n] ∧
    (d.setCommit n).setCommitted n = d.setCommitted n ∧ (d.setCommit n).flag (.casSetCtrl n) F.casSetCtrl_COMMIT = true ∧
    (d.setCommit n).setPending n = (d.setPending n || (!d.setCommitted n && !d.setRefused n)) ∧
    (d.setCommitted n = false → d.setPending n = false → d.setRefused n = true →
      (d.setCommit n).flag (.casSetCtrl n) F.casSetCtrl_ERR = true) := by
  have hkeep : d.keepsRegs (d.setFlag (.casSetCtrl n) F.casSetCtrl_COMMIT true) [.casSetCtrl n] :=
    (d.keepsRegs_refl _).setFlag (by simp) _ _
  have hcommitted := d.setCommitted_setFlag (n := n) (f := F.casSetCtrl_COMMIT) true (by decide) (by decide)
  have hcommit := d.flag_setFlag_self (.casSetCtrl n) (f := F.casSetCtrl_COMMIT) true (by decide) (by decide)
  have hpending := d.setPending_setFlag (n := n) (.casSetCtrl n) F.casSetCtrl_COMMIT true
  cases hk : d.setKept n with
  | true =>
    rw [Dev.setCommit_of_kept hr hk]
    refine ⟨hkeep, hcommitted, hcommit, hpending.trans ?_, fun hc hp => ?_⟩
    · rcases Bool.or_eq_true_iff.mp hk with h | h <;> simp [h]
    · simp [Dev.setKept, hc, hp] at hk
  | false =>
    obtain ⟨hc, hp⟩ : d.setCommitted n = false ∧ d.setPending n = false := Bool.or_eq_false_iff.mp hk
    cases href : d.setRefused n with
    | true =>
      rw [Dev.setCommit_of_refused hr hk href]
      generalize d.setFlag (.casSetCtrl n) F.casSetCtrl_COMMIT true = e at hkeep hcommitted hcommit hpending ⊢
      refine ⟨hkeep.setFlag (by simp) _ _, (e.setCommitted_setFlag true (by decide) (by decide)).trans hcommitted,
        (e.flag_setFlag_field _ true (by decide) (by decide) (by decide)).trans hcommit, ?_, fun _ _ _ =>
        e.flag_setFlag_self _ true (by decide) (by decide)⟩
      rw [Dev.setPending_setFlag, hpending, hp, hc]; rfl
    | false =>
      rw [Dev.setCommit_of_sound hr hk href]
      generalize d.setFlag (.casSetCtrl n) F.casSetCtrl_COMMIT true = e at hkeep hcommitted hcommit hpending ⊢
      refine ⟨hkeep.regs_eq (e.setPend_regs _), (e.flag_setPend _ _ _).trans hcommitted, (e.flag_setPend _ _ _).trans hcommit, ?_,
        fun _ _ h => absurd h (by simp)⟩
      rw [Dev.setPending_setPend, hp, hc]; rfl

/-! ### SET_COMMITTED (R70, R212, R213) -/

theorem Dev.setTakes_idle (h : d.setCommitted n = true ∨ d.setPending n = false) : d.setTakes n = d := by
  rcases h with h | h <;> simp [Dev.setTakes, h]

/-- A rebuild of CDAT changes the host ports alone (R93). -/
theorem Dev.foldl_cdatRebuild (l : List Nat) (d : Dev) : ∃ p, l.foldl Dev.cdatRebuild d = { d with hp := p } := by
  induction l generalizing d with
  | nil => exact ⟨d.hp, rfl⟩
  | cons k l ih =>
    obtain ⟨p, h⟩ := ih (d.cdatRebuild k)
    exact ⟨p, h⟩

/-- The set takes effect in the registers: COMMITTED, INIT, and a new high-water mark of the majors (R70, R212, R213). -/
def Dev.setOpened (d : Dev) (n : Nat) : Dev :=
  (((d.setPend n false).setFlag (.casSetCtrl n) F.casSetCtrl_COMMITTED true).setBit .cipSetstat (16 + n) true).wr .cipMajhw
    (d.rd .cipMajhw + 1)

/-- The counter lines of a set on this device's own channels, as one fill (R212). -/
def Dev.counterFill (d : Dev) (g : SetGeo) (major : Nat) : Fill :=
  { geo := g, major := major, devKey := d.cip.devKey,
    legs := ((d.setTargets g).filter fun t => t.1 == 0).map fun t =>
      { k := t.2.2, dev := t.1, chan := t.2.1, amap := d.rd (.chnAmap t.2.1), rankmap := d.rd (.chnRankmap t.2.1),
        geo := (d.chn t.2.1).geo } }

/-- The counter lines of a set are written: a fill for its own channels, and an entry for those of members (R212). -/
def Dev.startCounters (d : Dev) (n : Nat) (g : SetGeo) (major : Nat) : Dev :=
  let e := { d with bulk := d.bulk ++ [.fill (d.counterFill g major)] }
  if (d.setTargets g).any fun t => t.1 != 0 then
    { e with cas := { d.cas with inits := d.cas.inits ++ [{ set := n, major := major, next := g.base * 2 ^ 18 }] } }
  else e

theorem Dev.keepsRegs_setOpened (d : Dev) (n : Nat) : d.keepsRegs (d.setOpened n) [.casSetCtrl n, .cipSetstat, .cipMajhw] :=
  (((d.keepsRegs_of_regs_eq (d.setPend_regs false)).setFlag (by simp) _ _).setBit (by simp) _ _).wr (by simp) _

@[simp] theorem Dev.startCounters_regs (d : Dev) (n : Nat) (g : SetGeo) (major : Nat) : (d.startCounters n g major).regs = d.regs := by
  unfold Dev.startCounters; dsimp only; split <;> rfl

@[simp] theorem Dev.startCounters_bulk (d : Dev) (n : Nat) (g : SetGeo) (major : Nat) :
    (d.startCounters n g major).bulk = d.bulk ++ [.fill (d.counterFill g major)] := by
  unfold Dev.startCounters; dsimp only; split <;> rfl

/-- The counter lines of members are under way as soon as the set has a target on one. -/
theorem Dev.startCounters_inits {g : SetGeo} (n major : Nat) (h : ∃ t ∈ d.setTargets g, t.1 ≠ 0) :
    (d.startCounters n g major).cas.inits = d.cas.inits ++ [{ set := n, major := major, next := g.base * 2 ^ 18 }] := by
  rw [Dev.startCounters, if_pos (by simpa using h)]

/-- The targets of a set stand in registers that its taking effect leaves alone. -/
theorem Dev.setTargets_setOpened (d : Dev) (hn : n < 16) (g : SetGeo) : (d.setOpened n).setTargets g = d.setTargets g := by
  have hfld (k : Nat) (f : Fld) : (d.setOpened n).fld (.casTgt k) f = d.fld (.casTgt k) f :=
    (d.keepsRegs_setOpened n).fld (by simp [Reg.offset]; omega) f
  simp only [Dev.setTargets, hfld]

/-- A pending set takes effect in its registers and starts its counter lines; beside that, only what the device knew of its range and the
CDAT change. -/
theorem Dev.setTakes_takes {g : SetGeo} (hc : d.setCommitted n = false) (hp : d.setPending n = true) (hg : d.setGeo n = some g) :
    let e := (d.setOpened n).startCounters n g (d.rd .cipMajhw + 1)
    (d.setTakes n).regs = e.regs ∧ (d.setTakes n).cas = e.cas ∧ (d.setTakes n).bulk = e.bulk := by
  have hmajor : (((d.setPend n false).setFlag (.casSetCtrl n) F.casSetCtrl_COMMITTED true).setBit .cipSetstat (16 + n) true).rd
      .cipMajhw = d.rd .cipMajhw := by
    rw [Dev.rd_setBit_other _ cipSetstat_ne_cipMajhw]
    exact Dev.rd_setFld_other _ _ casSetCtrl_ne_cipMajhw
  have htakes : ∃ f g', d.setTakes n = (List.range 16).foldl Dev.cdatRebuild
      ((((d.setOpened n).startCounters n g (d.rd .cipMajhw + 1)).modCip f).modTed g') := by
    rw [Dev.setTakes, if_neg (by simp [hc, hp]), hg]
    dsimp only
    rw [hmajor, Dev.setOpened]
    generalize (((d.setPend n false).setFlag (.casSetCtrl n) F.casSetCtrl_COMMITTED true).setBit .cipSetstat (16 + n) true).wr .cipMajhw
      (d.rd .cipMajhw + 1) = e
    exact ⟨_, _, rfl⟩
  obtain ⟨f, g', h⟩ := htakes
  obtain ⟨p, h'⟩ := Dev.foldl_cdatRebuild (List.range 16) ((((d.setOpened n).startCounters n g (d.rd .cipMajhw + 1)).modCip f).modTed g')
  rw [h, h']
  exact ⟨rfl, rfl, rfl⟩

theorem Dev.setCommitted_setOpened (d : Dev) : (d.setOpened n).setCommitted n = true :=
  (Dev.flag_wr_other _ casSetCtrl_ne_cipMajhw.symm _ _).trans <|
    (Dev.flag_setBit_other _ casSetCtrl_ne_cipSetstat.symm _ _ _).trans <| Dev.flag_setFlag_self _ _ true (by decide) (by decide)

theorem Dev.init_setOpened (d : Dev) (hn : n < 16) : bitOf ((d.setOpened n).rd .cipSetstat) (16 + n) = true := by
  rw [Dev.setOpened, Dev.rd_wr_other _ cipSetstat_ne_cipMajhw.symm]
  exact Dev.bitOf_setBit_self _ _ (by omega) true

theorem Dev.setOpened_cip (d : Dev) (n : Nat) : (d.setOpened n).cip = d.cip := by
  rw [Dev.setOpened, Dev.wr_cip, Dev.setBit, Dev.wr_cip, Dev.setFlag_cip, Dev.setPend_cip]

theorem Dev.setOpened_bulk (d : Dev) (n : Nat) : (d.setOpened n).bulk = d.bulk := by
  rw [Dev.setOpened, Dev.wr_bulk, Dev.setBit, Dev.wr_bulk, Dev.setFlag_bulk, Dev.setPend_bulk]

theorem Dev.majhw_setOpened (d : Dev) (n : Nat) : (d.setOpened n).rd .cipMajhw = (d.rd .cipMajhw + 1) % 2 ^ 64 := Dev.rd_wr_self _ _ _

/-- The fill of a set names its targets on this device, in their order. -/
theorem Dev.counterFill_legs (d : Dev) (g : SetGeo) (major : Nat) :
    (d.counterFill g major).legs.map (fun l => (l.dev, l.chan, l.k)) = (d.setTargets g).filter fun t => t.1 == 0 := by
  simp [Dev.counterFill, Function.comp_def]

/-! ### COUNTER_REGION_READY (R212) -/

/-- The set is committed, its counter lines are due, and none is on its way to a member. -/
def Dev.countersDue (d : Dev) (n : Nat) : Bool := d.setCommitted n && bitOf (d.rd .cipSetstat) (16 + n) && !d.initOut n

/-- READY sets in place of INIT. -/
def Dev.countersReady (d : Dev) (n : Nat) : Dev := (d.setBit .cipSetstat (16 + n) false).setBit .cipSetstat n true

theorem Dev.counterReady_of_not_due (m : Dram) (h : d.countersDue n = false) : d.counterReady m n = d := by
  rw [Dev.countersDue] at h
  simp [Dev.counterReady, h]

/-- The set becomes READY with a record, and then the erases that waited are made. -/
theorem Dev.counterReady_of_due (m : Dram) (h : d.countersDue n = true) :
    ∃ r : Rec, d.counterReady m n = ((d.countersReady n).raise r).erasesDue m := by
  rw [Dev.countersDue] at h
  rw [Dev.counterReady, if_pos h]
  exact ⟨_, rfl⟩

theorem Dev.ready_countersReady (d : Dev) (hn : n < 16) : bitOf ((d.countersReady n).rd .cipSetstat) n = true :=
  Dev.bitOf_setBit_self _ _ (by omega) true

theorem Dev.init_countersReady (d : Dev) (hn : n < 16) : bitOf ((d.countersReady n).rd .cipSetstat) (16 + n) = false :=
  (Dev.bitOf_setBit_bit _ _ (by omega) (by omega) true).trans (Dev.bitOf_setBit_self _ _ (by omega) false)

theorem Dev.keepsRegs_countersReady (d : Dev) (n : Nat) : d.keepsRegs (d.countersReady n) [.cipSetstat] :=
  ((d.keepsRegs_refl _).setBit (by simp) _ _).setBit (by simp) _ _

/-- Without erases that wait, there are none to make. -/
theorem Dev.erasesDue_of_none (m : Dram) (h : d.ted.erases = []) : (d.erasesDue m).regs = d.regs ∧ (d.erasesDue m).bulk = d.bulk := by
  simp [Dev.erasesDue, h]

/-! ### SET_UNCOMMIT (R71, R212) -/

theorem Dev.setUncommit_of_idle (hc : d.setCommitted n = false) (hp : d.setPending n = false) :
    d.setUncommit n = d.setFlag (.casSetCtrl n) F.casSetCtrl_COMMIT false := by
  simp [Dev.setUncommit, hc, hp]

theorem Dev.setUncommit_of_pending (hc : d.setCommitted n = false) (hp : d.setPending n = true) :
    d.setUncommit n = (d.setFlag (.casSetCtrl n) F.casSetCtrl_COMMIT false).setFlag (.casSetCtrl n) F.casSetCtrl_ERR true := by
  simp [Dev.setUncommit, hc, hp]

theorem Dev.setUncommit_of_used (hc : d.setCommitted n = true) (hu : d.setInUse n = true) :
    d.setUncommit n = (d.setFlag (.casSetCtrl n) F.casSetCtrl_COMMIT false).setFlag (.casSetCtrl n) F.casSetCtrl_ERR true := by
  simp [Dev.setUncommit, hc, hu]

/-- The set is closed in the registers. -/
def Dev.setClosed (d : Dev) (n : Nat) : Dev :=
  (((d.setFlag (.casSetCtrl n) F.casSetCtrl_COMMIT false).setFlag (.casSetCtrl n) F.casSetCtrl_COMMITTED false).setBit .cipSetstat n
    false).setBit .cipSetstat (16 + n) false

theorem Dev.setUncommit_of_unused (hc : d.setCommitted n = true) (hu : d.setInUse n = false) :
    (d.setUncommit n).regs = (d.setClosed n).regs ∧ (d.setUncommit n).ted = d.ted ∧ (d.setUncommit n).cip = d.cip := by
  rw [Dev.setUncommit, if_neg (by simp [hc]), if_neg (by simp [hu]), Dev.setClosed]
  have hted : ((d.setFlag (.casSetCtrl n) F.casSetCtrl_COMMIT false).setFlag (.casSetCtrl n) F.casSetCtrl_COMMITTED false).ted = d.ted := by
    rw [Dev.setFlag_ted, Dev.setFlag_ted]
  have hcip : ((d.setFlag (.casSetCtrl n) F.casSetCtrl_COMMIT false).setFlag (.casSetCtrl n) F.casSetCtrl_COMMITTED false).cip = d.cip := by
    rw [Dev.setFlag_cip, Dev.setFlag_cip]
  rw [← hted, ← hcip]
  generalize (d.setFlag (.casSetCtrl n) F.casSetCtrl_COMMIT false).setFlag (.casSetCtrl n) F.casSetCtrl_COMMITTED false = e
  exact ⟨rfl, rfl, rfl⟩

/-- A refused uncommit clears COMMIT and shows ERR, and a committed set stays committed. -/
theorem Dev.uncommit_refused (d : Dev) (n : Nat) :
    let e := (d.setFlag (.casSetCtrl n) F.casSetCtrl_COMMIT false).setFlag (.casSetCtrl n) F.casSetCtrl_ERR true
    e.flag (.casSetCtrl n) F.casSetCtrl_COMMIT = false ∧ e.setCommitted n = d.setCommitted n ∧
      e.flag (.casSetCtrl n) F.casSetCtrl_ERR = true ∧ d.keepsRegs e [.casSetCtrl n] := by
  refine ⟨(Dev.flag_setFlag_field _ _ _ (by decide) (by decide) (by decide)).trans
    (Dev.flag_setFlag_self _ _ _ (by decide) (by decide)), ?_, Dev.flag_setFlag_self _ _ _ (by decide) (by decide),
    ((d.keepsRegs_refl _).setFlag (by simp) _ _).setFlag (by simp) _ _⟩
  exact (Dev.setCommitted_setFlag _ _ (by decide) (by decide)).trans (Dev.setCommitted_setFlag _ _ (by decide) (by decide))

theorem Dev.setClosed_closes (d : Dev) (hn : n < 16) : (d.setClosed n).setCommitted n = false ∧
    (d.setClosed n).flag (.casSetCtrl n) F.casSetCtrl_COMMIT = false ∧ bitOf ((d.setClosed n).rd .cipSetstat) n = false ∧
    bitOf ((d.setClosed n).rd .cipSetstat) (16 + n) = false ∧ d.keepsRegs (d.setClosed n) [.casSetCtrl n, .cipSetstat] := by
  have hctrl (f : Fld) : (d.setClosed n).flag (.casSetCtrl n) f = ((d.setFlag (.casSetCtrl n) F.casSetCtrl_COMMIT false).setFlag
      (.casSetCtrl n) F.casSetCtrl_COMMITTED false).flag (.casSetCtrl n) f :=
    (Dev.flag_setBit_other _ casSetCtrl_ne_cipSetstat.symm _ _ _).trans (Dev.flag_setBit_other _ casSetCtrl_ne_cipSetstat.symm _ _ _)
  refine ⟨(hctrl _).trans (Dev.flag_setFlag_self _ _ _ (by decide) (by decide)), (hctrl _).trans ?_,
    (Dev.bitOf_setBit_bit _ _ (by omega) (by omega) _).trans (Dev.bitOf_setBit_self _ _ (by omega) _),
    Dev.bitOf_setBit_self _ _ (by omega) _, ?_⟩
  · exact (Dev.flag_setFlag_field _ _ _ (by decide) (by decide) (by decide)).trans
      (Dev.flag_setFlag_self _ _ _ (by decide) (by decide))
  · exact ((((d.keepsRegs_refl _).setFlag (by simp) _ _).setFlag (by simp) _ _).setBit (by simp) _ _).setBit (by simp) _ _

end Sys2Proof.Machine
end

section
/-! SUPPORT. The commands of a storage set on a running die whose access reaches its register, and the statement of the storage sets. -/

namespace Sys2Proof.Machine

section
variable {s : State} {n : Nat} (hn : n < 16) (h : s.reaches (.casSetCtrl n))
include hn h

theorem exec_setCommit_reached : exec (.setCommit n) s =
    .next (s.settle (if s.dev.role = 0 then s.dev.setCommit n else s.dev)) := by
  rw [exec_setCommit (by simpa [Instr.wf] using hn) h.1, Dev.viaReg_of_reaches_casSetCtrl hn h]

theorem exec_setUncommit_reached : exec (.setUncommit n) s =
    .next (s.settle (if s.dev.role = 0 then s.dev.setUncommit n else s.dev)) := by
  rw [exec_setUncommit (by simpa [Instr.wf] using hn) h.1, Dev.viaReg_of_reaches_casSetCtrl hn h]

end

/-- Settles O30. -/
theorem storageSets : Obligations.StorageSets := by
  intro s n hu hn r commit err
  have htakes := exec_setCommitted (n := n) (s := s) (by simpa [Instr.wf] using hn) hu
  have hready := exec_counterRegionReady (n := n) (s := s) (by simpa [Instr.wf] using hn) hu
  refine ⟨fun h hr => ?member, fun h hr => ?commit, fun h => ?takesIdle, fun g hc hp hg => ?takes,
    ⟨fun h => ?notDue, fun h he => ?ready, fun h => ?readyErases⟩,
    fun h hr => ⟨fun hc => ?uncommitOpen, fun hc hin => ?uncommit, fun hc hin => ?uncommitUsed⟩⟩
  case member =>
    rw [exec_setCommit_reached hn h, exec_setUncommit_reached hn h, if_neg hr, if_neg hr]
    exact ⟨rfl, rfl⟩
  case commit => exact ⟨_, (exec_setCommit_reached hn h).trans (by rw [if_pos hr]), Dev.setCommit_sets hr⟩
  case takesIdle => rw [htakes, Dev.setTakes_idle h]
  case takes =>
    obtain ⟨hregs, hcas, hbulk⟩ := Dev.setTakes_takes hc hp hg
    rw [Dev.startCounters_regs] at hregs
    rw [Dev.startCounters_bulk, Dev.setOpened_bulk] at hbulk
    have htargets := s.dev.setTargets_setOpened hn g
    have hrd (q : Reg) : (s.dev.setTakes n).rd q = (s.dev.setOpened n).rd q := Dev.keepsRegs_of_regs_eq (but := []) hregs q (by simp)
    refine ⟨_, htakes, ?_, ?_, (hrd _).trans (s.dev.majhw_setOpened n), (s.dev.keepsRegs_setOpened n).regs_eq hregs, fun hfar => ?_,
      _, hbulk, rfl, rfl, congrArg Cipher.devKey (s.dev.setOpened_cip n), ?_⟩
    · exact (congrArg (· != 0) (Dev.fld_of_regs_eq hregs _ _)).trans s.dev.setCommitted_setOpened
    · rw [hrd]; exact s.dev.init_setOpened hn
    · rw [hcas, Dev.startCounters_inits _ _ (htargets ▸ hfar)]
      exact ⟨_, List.mem_append_right _ (List.mem_singleton_self _), rfl, rfl, rfl⟩
    · rw [Dev.counterFill_legs, htargets]
  case notDue => rw [hready, Dev.counterReady_of_not_due _ h]
  case ready =>
    obtain ⟨x, hx⟩ := Dev.counterReady_of_due s.dram h
    obtain ⟨hregs, hbulk⟩ := Dev.erasesDue_of_none (d := (s.dev.countersReady n).raise x) s.dram (by rw [Dev.raise_ted]; exact he)
    rw [Dev.raise_regs] at hregs
    rw [Dev.raise_bulk] at hbulk
    have hrd := Dev.keepsRegs_of_regs_eq (but := []) hregs .cipSetstat (by simp)
    refine ⟨_, hready.trans (by rw [hx]), ?_, ?_, (s.dev.keepsRegs_countersReady n).regs_eq hregs, hbulk⟩
    · rw [hrd]; exact s.dev.ready_countersReady hn
    · rw [hrd]; exact s.dev.init_countersReady hn
  case readyErases =>
    obtain ⟨x, hx⟩ := Dev.counterReady_of_due s.dram h
    exact ⟨s.dev.countersReady n, _, hready.trans (by rw [hx]), rfl, Dev.keepsRegs_of_regs_eq (Dev.raise_regs _ _)⟩
  case uncommitOpen =>
    have hexec := (exec_setUncommit_reached hn h).trans (by rw [if_pos hr])
    cases hp : s.dev.setPending n with
    | false =>
      rw [Dev.setUncommit_of_idle hc hp] at hexec
      exact ⟨_, hexec, Dev.flag_setFlag_self _ _ _ (by decide) (by decide),
        (Dev.setCommitted_setFlag _ _ (by decide) (by decide)).trans hc, (Dev.setPending_setFlag _ _ _ _).trans hp, nofun,
        (Dev.keepsRegs_refl _ _).setFlag (by simp [r]) _ _⟩
    | true =>
      rw [Dev.setUncommit_of_pending hc hp] at hexec
      obtain ⟨hcommit, hcommitted, herr, hkeep⟩ := s.dev.uncommit_refused n
      exact ⟨_, hexec, hcommit, hcommitted.trans hc, by rw [Dev.setPending_setFlag, Dev.setPending_setFlag, hp], fun _ => herr, hkeep⟩
  case uncommit =>
    obtain ⟨hregs, hted, hcip⟩ := Dev.setUncommit_of_unused hc hin
    obtain ⟨hcommitted, hcommit, hreadyBit, hinit, hkeep⟩ := s.dev.setClosed_closes hn
    have hflag (f : Fld) : (s.dev.setUncommit n).flag (.casSetCtrl n) f = (s.dev.setClosed n).flag (.casSetCtrl n) f :=
      congrArg (· != 0) (Dev.fld_of_regs_eq hregs _ _)
    have hrd := Dev.keepsRegs_of_regs_eq (but := []) hregs .cipSetstat (by simp)
    exact ⟨_, (exec_setUncommit_reached hn h).trans (by rw [if_pos hr]), (hflag _).trans hcommitted, (hflag _).trans hcommit,
      hrd ▸ hreadyBit, hrd ▸ hinit, hkeep.regs_eq hregs, hted, hcip⟩
  case uncommitUsed =>
    obtain ⟨hcommit, hcommitted, herr, hkeep⟩ := s.dev.uncommit_refused n
    exact ⟨_, (exec_setUncommit_reached hn h).trans (by rw [if_pos hr, Dev.setUncommit_of_used hc hin]), hcommitted.trans hc, hcommit,
      herr, hkeep⟩

end Sys2Proof.Machine
end

section
/-! SUPPORT. Operations of the storage side that leave the host ports alone, with the decoders, regions and extents of every LD: the
channels, the cipher units, the map and the pool, and the directory. One lemma per operation, in the order of their definitions. -/

namespace Sys2Proof.Machine

/-- A fold keeps what each of its steps keeps. -/
theorem foldl_keeps {α β γ : Type} (p : β → γ) {f : β → α → β} (h : ∀ b a, p (f b a) = p b) (l : List α) (b : β) :
    p (l.foldl f b) = p b := by
  induction l generalizing b with
  | nil => rfl
  | cons a l ih => exact (ih (f b a)).trans (h b a)

variable (d : Dev)

theorem Dev.ite_hp {c : Prop} [Decidable c] {a b : Dev} (h : a.hp = b.hp) : (if c then a else b).hp = b.hp := by
  split
  · exact h
  · rfl

/-! ### Channels -/

@[simp] theorem Dev.setBit_hp (r : Reg) (i : Nat) (b : Bool) : (d.setBit r i b).hp = d.hp := rfl
@[simp] theorem Dev.bumpFld_hp (r : Reg) (f : Fld) : (d.bumpFld r f).hp = d.hp := rfl

@[simp] theorem Dev.overrun_hp (x : XId) : (d.overrun x).hp = d.hp := by
  rcases d.setCross_cases (islandReg x.island) x.bit with h | ⟨c, h⟩
  · rw [Dev.overrun, h, Dev.setBit_hp]
  · rw [Dev.overrun, h, Dev.raise_hp, Dev.setBit_hp]

@[simp] theorem Dev.sendCmd_hp (c : Nat) (e : ChEnt) : (d.sendCmd c e).hp = d.hp := by
  rw [Dev.sendCmd, Dev.modChn_hp]; split <;> simp

@[simp] theorem Dev.countRestore_hp (c : Nat) (e : ChEnt) (b : Bool) : (d.countRestore c e b).hp = d.hp := by
  unfold Dev.countRestore
  split
  · split <;> rfl
  · split_ifs <;> rfl
  · rfl

@[simp] theorem Dev.modQ_hp (c : Nat) (f : Chan → Chan) : (d.modQ c f).hp = d.hp := by
  unfold Dev.modQ
  refine foldl_keeps Dev.hp (fun e i => ?_) _ _
  dsimp only
  split_ifs <;> rfl

@[simp] theorem Dev.enter_hp (c : Nat) (e : ChEnt) : (d.enter c e).hp = d.hp := by
  rw [Dev.enter, Dev.modQ_hp]
  exact foldl_keeps Dev.hp (fun e x => e.countRestore_hp c x true) _ _

@[simp] theorem Dev.pullGo_hp (c i k : Nat) : (d.pullGo c i k).hp = d.hp := by
  induction k generalizing d with
  | zero => rfl
  | succ k ih =>
    unfold Dev.pullGo
    split
    · split <;> simp [ih]
    · rfl

@[simp] theorem Dev.pullRestore_hp (c i : Nat) : (d.pullRestore c i).hp = d.hp := d.pullGo_hp c i _

@[simp] theorem Dev.restoreWrite_hp (c i : Nat) (e : ChEnt) : (d.restoreWrite c i e).hp = d.hp := by
  rw [Dev.restoreWrite, Dev.pullRestore_hp, Dev.modChn_hp]

@[simp] theorem Dev.setRankState_hp (c r st : Nat) : (d.setRankState c r st).hp = d.hp := rfl

@[simp] theorem Dev.spareEvent_hp (c ty detail : Nat) (sev : Sev) : (d.spareEvent c ty detail sev).hp = d.hp := d.raise_hp _

@[simp] theorem Dev.spareBegin_hp (c r cause : Nat) : (d.spareBegin c r cause).hp = d.hp := by
  rw [Dev.spareBegin, Dev.spareEvent_hp, Dev.modChn_hp, Dev.setFld_hp, Dev.setFld_hp, Dev.setRankState_hp, Dev.setRankState_hp]

@[simp] theorem Dev.spareThreshold_hp (c r cause : Nat) (auto : Bool) : (d.spareThreshold c r cause auto).hp = d.hp := by
  unfold Dev.spareThreshold
  split <;> split <;> simp

@[simp] theorem Dev.countCe_hp (c : Nat) (e : ChEnt) (dev : Nat) : (d.countCe c e dev).hp = d.hp := by
  unfold Dev.countCe
  dsimp only
  split <;> simp

@[simp] theorem Dev.countUe_hp (c : Nat) (e : ChEnt) : (d.countUe c e).hp = d.hp := by
  unfold Dev.countUe
  dsimp only
  split_ifs <;> simp

@[simp] theorem Dev.burstNoted_hp (c i : Nat) (e : ChEnt) (o : CwOut) : (d.burstNoted c i e o).hp = d.hp := by
  cases o with
  | clean p => rfl
  | corrected p dev =>
    simp only [Dev.burstNoted]
    split
    · simp
    · split <;> simp
  | uncorrectable p =>
    simp only [Dev.burstNoted]
    split
    · simp
    · split <;> simp

/-! ### Cipher units -/

@[simp] theorem Dev.mapFaultRecord_hp (sa dpa ld : Nat) : (d.mapFaultRecord sa dpa ld).hp = d.hp := d.raise_hp _

@[simp] theorem Dev.foldEnter_hp (sa dev : Nat) (b : Bool) : (d.foldEnter sa dev b).hp = d.hp := by
  unfold Dev.foldEnter
  dsimp only
  split_ifs
  case neg => rw [Dev.raise_hp, Dev.setFlag_hp]
  all_goals rfl

@[simp] theorem Dev.hand_hp (p : Place) (e : ChEnt) : (d.hand p e).1.hp = d.hp := by
  cases p with
  | here c ca => exact d.sendCmd_hp c _
  | member dev c ca =>
    simp only [Dev.hand]
    split_ifs <;> simp
  | fault => exact d.mapFaultRecord_hp _ _ _
  | wait => rfl

@[simp] theorem Dev.foldWrite_hp (sa dpa ld : Nat) (b : Bool) : (d.foldWrite sa dpa ld b).hp = d.hp := by
  unfold Dev.foldWrite
  split
  · exact Dev.ite_hp (d.foldEnter_hp _ _ _)
  · exact d.mapFaultRecord_hp _ _ _
  · rfl

@[simp] theorem Dev.foldCtr_hp (frame : Nat) : (d.foldCtr frame).hp = d.hp := by
  unfold Dev.foldCtr
  split
  · exact d.foldWrite_hp _ _ _ _
  · rfl

@[simp] theorem Dev.fireWrite_hp (sa : Nat) (x : Payload) : (d.fireWrite sa x).hp = d.hp := d.hand_hp _ _

@[simp] theorem Dev.raiseMajor_hp (m : Nat) : (d.raiseMajor m).hp = d.hp := d.wr_hp _ _

@[simp] theorem Dev.writeCtr_hp (frame : Nat) (c : Ctr) : (d.writeCtr frame c).hp = d.hp := by
  unfold Dev.writeCtr
  split <;> simp

@[simp] theorem Dev.noteRead_hp (m : Dram) (sa dpa ld : Nat) (src : RdSource) (bad : Bool) :
    (d.noteRead m sa dpa ld src bad).hp = d.hp := by
  unfold Dev.noteRead
  split
  · split
    · rfl
    · split
      · exact d.burstNoted_hp _ _ _ _
      · rfl
  · exact d.mapFaultRecord_hp _ _ _
  · rfl

@[simp] theorem Dev.noteCtr_hp (m : Dram) (frame : Nat) : (d.noteCtr m frame).hp = d.hp := by
  unfold Dev.noteCtr
  split <;> simp

@[simp] theorem Dev.mismatchRecord_hp (unit sa dpa ld : Nat) (dom : Dom) (partialWr mark : Bool) :
    (d.mismatchRecord unit sa dpa ld dom partialWr mark).hp = d.hp := by
  simp [Dev.mismatchRecord]

@[simp] theorem Dev.ctrMismatch_hp (frame row : Nat) : (d.ctrMismatch frame row).hp = d.hp := by
  unfold Dev.ctrMismatch
  split
  · exact Dev.ite_hp (d.mismatchRecord_hp _ _ _ _ _ _ _)
  · rfl

@[simp] theorem Dev.putCopy_hp (x : CtrCopy) : (d.putCopy x).hp = d.hp := rfl

@[simp] theorem Dev.installCopy_hp (x : CtrCopy) : (d.installCopy x).hp = d.hp := by
  unfold Dev.installCopy
  dsimp only
  split_ifs
  · rfl
  · split <;> simp
  · simp

@[simp] theorem Dev.counterLost_hp (frame row : Nat) : (d.counterLost frame row).hp = d.hp := by
  unfold Dev.counterLost
  dsimp only
  rw [Dev.modCip_hp]
  split <;> simp [foldl_keeps Dev.hp]

@[simp] theorem Dev.unhold_hp (frame : Nat) : (d.unhold frame).hp = d.hp := by
  unfold Dev.unhold
  split
  · rfl
  · dsimp only
    split_ifs
    · rfl
    · split
      · rfl
      · split <;> simp

/-- A hold that begins leaves the host ports as they are. -/
theorem Dev.hold_hp {m : Dram} {d e : Dev} {frame q : Nat} (h : d.hold m frame q = some e) : e.hp = d.hp := by
  unfold Dev.hold at h
  split at h
  · cases h; rfl
  · dsimp only at h
    split at h
    · cases h
    · split at h
      · cases h
      · cases h; simp
      · cases h
        rw [Dev.modCip_hp, Dev.installCopy_hp, Dev.modCip_hp, foldl_keeps Dev.hp fun e x => e.count_hp _ _ _ _, Dev.noteCtr_hp,
          Dev.count_hp]

@[simp] theorem Dev.setHeld_hp (frame : Nat) (c : Ctr) (ch : BitVec 64) : (d.setHeld frame c ch).hp = d.hp := by
  unfold Dev.setHeld
  split <;> rfl

@[simp] theorem Dev.reencEnd_hp (frame : Nat) : (d.reencEnd frame).hp = d.hp := by
  rw [Dev.reencEnd, Dev.unhold_hp, Dev.modCip_hp]

@[simp] theorem Dev.eraseFrame_hp (m : Dram) (frame : Nat) : (d.eraseFrame m frame).hp = d.hp := by
  unfold Dev.eraseFrame
  have hended : (if (d.reencOf frame).isSome then d.reencEnd frame else d).hp = d.hp := by split <;> simp
  generalize (if (d.reencOf frame).isSome then d.reencEnd frame else d) = e at hended ⊢
  dsimp only
  split
  · rw [Dev.foldCtr_hp, hended]
  · rename_i c hc
    have hhold : c.hp = d.hp := (Dev.hold_hp hc).trans hended
    split <;> simp [hhold]

@[simp] theorem Dev.eraseFlatField_hp (m : Dram) (base : Nat) : (d.eraseFlatField m base).hp = d.hp :=
  foldl_keeps Dev.hp (fun e _ => e.eraseFrame_hp m _) _ _

/-! ### The map and the pool -/

@[simp] theorem Dev.putMapLine_hp (ted sa : Nat) (x : Line) (tell : Bool) : (d.putMapLine ted sa x tell).hp = d.hp := by
  unfold Dev.putMapLine
  dsimp only
  split_ifs <;> rfl

@[simp] theorem Dev.putMapWord_hp (ted sa v : Nat) (tell : Bool) : (d.putMapWord ted sa v tell).hp = d.hp := d.putMapLine_hp _ _ _ _

@[simp] theorem Dev.putDesc_hp (field : Nat) (x : Desc) : (d.putDesc field x).hp = d.hp := d.putMapWord_hp _ _ _ _

@[simp] theorem Dev.forgetMap_hp (frame : Nat) : (d.forgetMap frame).hp = d.hp := rfl

@[simp] theorem Dev.requestRelease_hp (n : Nat) (l : List Extent) (foot : Nat) : (d.requestRelease n l foot).hp = d.hp := by
  unfold Dev.requestRelease
  split
  · rfl
  · rw [Dev.raise_hp]
    exact foldl_keeps Dev.hp (fun e x => e.raise_hp _) _ _

/-- What a fold over the device and a number makes of the device keeps the host ports when every step does. -/
theorem Dev.fst_foldl_hp {f : Dev × Nat → Nat → Dev × Nat} (h : ∀ p n, (f p n).1.hp = p.1.hp) (l : List Nat) (k : Nat) :
    (l.foldl f (d, k)).1.hp = d.hp := foldl_keeps (fun p : Dev × Nat => p.1.hp) h l (d, k)

/-- The round is unfolded as a function and outside `Dev.hp`: below a projection the kernel would run its fold. -/
@[simp] theorem Dev.releaseRound_hp : d.releaseRound.hp = d.hp := by
  suffices h : ∀ f e, f = Dev.releaseRound → e = f d → e.hp = d.hp from h _ _ rfl rfl
  intro f e hf he
  delta Dev.releaseRound at hf
  subst hf
  change e = Prod.fst (List.foldl _ (d, _) _) at he
  rw [he]
  refine d.fst_foldl_hp (fun p n => ?_) _ _
  split
  · rfl
  · exact p.1.requestRelease_hp _ _ _

@[simp] theorem Dev.poolEval_hp : d.poolEval.hp = d.hp := by
  rw [Dev.poolEval, Dev.ite_hp (Dev.releaseRound_hp _), Dev.ite_hp (Dev.raise_hp _ _), Dev.ite_hp (Dev.raise_hp _ _),
    Dev.modTed_hp, Dev.ite_hp (Dev.setFlag_hp _ _ _ _), Dev.setFlag_hp, Dev.setFlag_hp, Dev.setFlag_hp]

@[simp] theorem Dev.setPool_hp (f rc : Nat) : (d.setPool f rc).hp = d.hp := by
  unfold Dev.setPool
  split
  · rfl
  · rw [Dev.poolEval_hp, Dev.wr_hp, Dev.wr_hp]

@[simp] theorem Dev.freeFrame_hp (f : Nat) : (d.freeFrame f).hp = d.hp := by
  unfold Dev.freeFrame
  dsimp only
  split <;> simp

@[simp] theorem Dev.setSheafOcc_hp (ted frame occ : Nat) : (d.setSheafOcc ted frame occ).hp = d.hp := by
  unfold Dev.setSheafOcc
  split <;> simp

@[simp] theorem Dev.freeSheaves_hp (f s n : Nat) : (d.freeSheaves f s n).hp = d.hp := by
  unfold Dev.freeSheaves
  split
  · dsimp only
    split_ifs
    · split
      · split <;> simp
      · simp
    · simp
    · simp [Dev.addLost]
  · rfl

@[simp] theorem Dev.freePage_hp (x : Pme) : (d.freePage x).hp = d.hp := by
  unfold Dev.freePage
  split_ifs <;> simp

/-- A frame that is taken from the pool leaves the host ports as they are. -/
theorem Dev.takeFrame_hp {m : Dram} {d e : Dev} {use : FrameUse} {f : Nat} (h : d.takeFrame m use = some (f, e)) : e.hp = d.hp := by
  unfold Dev.takeFrame at h
  split at h
  · cases h
  · simp only [Option.some.injEq, Prod.mk.injEq] at h
    obtain ⟨-, rfl⟩ := h
    split <;> simp

/-! ### Fields of a window -/

@[simp] theorem Dev.newTiered_hp (m : Dram) (field n : Nat) (elastic : Bool) : (d.newTiered m field n elastic).hp = d.hp := by
  unfold Dev.newTiered
  split
  · rfl
  · rename_i f e he
    have htaken := Dev.takeFrame_hp he
    dsimp only
    split <;> simp [htaken]

@[simp] theorem Dev.dropLost_hp (m : Dram) (x : LostField) : (d.dropLost m x).hp = d.hp := by
  rw [Dev.dropLost, Dev.setPool_hp, Dev.wr_hp]
  split
  · rw [Dev.eraseFlatField_hp, Dev.modTed_hp]
  · rfl

@[simp] theorem Dev.dropField_hp (m : Dram) (field : Nat) : (d.dropField m field).hp = d.hp := by
  have hfreed (e : Dev) (l : List Pme) (base : Nat) : ((l.foldl Dev.freePage e).freeFrame base).hp = e.hp := by
    rw [Dev.freeFrame_hp, foldl_keeps Dev.hp fun e x => e.freePage_hp x]
  unfold Dev.dropField
  dsimp only
  split_ifs
  · exact d.putDesc_hp _ _
  · split
    · rw [Dev.dropLost_hp, Dev.putDesc_hp]
    · exact d.putDesc_hp _ _
  · rw [Dev.eraseFlatField_hp, Dev.putDesc_hp]
  · rw [Dev.wr_hp, hfreed, Dev.putDesc_hp]
  · rw [Dev.setPool_hp, hfreed, Dev.putDesc_hp]

/-! ### The directory -/

@[simp] theorem Dev.bisnp_hp (line ld : Nat) (op : S2M) (why : SnoopFor) : (d.bisnp line ld op why).hp = d.hp := by
  simp [Dev.bisnp]

@[simp] theorem Dev.modEnt_hp (line : Nat) (f : DirEnt → DirEnt) : (d.modEnt line f).hp = d.hp := rfl

@[simp] theorem Dev.dropSw_hp (line : Nat) : (d.dropSw line).hp = d.hp := rfl

@[simp] theorem Dev.settleEnt_hp (line : Nat) : (d.settleEnt line).hp = d.hp := by
  unfold Dev.settleEnt
  split
  · split <;> rfl
  · rfl

@[simp] theorem Dev.dropLines_hp (inside : Nat → Bool) : (d.dropLines inside).hp = d.hp := by
  unfold Dev.dropLines
  refine foldl_keeps Dev.hp (fun e line => ?_) _ _
  split
  · rfl
  · rw [Dev.settleEnt_hp, Dev.modEnt_hp, Dev.dropSw_hp]
    refine foldl_keeps Dev.hp (fun e m => ?_) _ _
    split <;> simp

end Sys2Proof.Machine
end

section
/-! SUPPORT. Field descriptors in the map (R66, Table 6.1): a descriptor reads as it was last written, and a write of another field's
leaves it alone. -/

namespace Sys2Proof.Machine

/-! ### Words of a map line -/

/-- A field of a number that is cut to a width stays where it lies inside the width. -/
theorem bitsOf_toNat_ofNat (v : Nat) {hi lo w : Nat} (h : hi < w) : bitsOf (BitVec.ofNat w v).toNat hi lo = bitsOf v hi lo := by
  apply Nat.eq_of_testBit_eq
  intro i
  rw [bitsOf_testBit, bitsOf_testBit, BitVec.toNat_ofNat, Nat.testBit_mod_two_pow]
  by_cases hi' : i < hi + 1 - lo
  · simp [hi', show lo + i < w by omega]
  · simp [hi']

theorem wordOfLine_setWord_self (x : Line) {i : Nat} (hi : i < 8) (v : Nat) : wordOfLine (setWord x i v) i = v % 2 ^ 64 := by
  rw [wordOfLine, setWord, bitsOf_toNat_ofNat _ (by omega), bitsOf_put_self (by omega)]
  congr 2
  omega

theorem wordOfLine_setWord_other (x : Line) {i j : Nat} (hj : j < 8) (h : i ≠ j) (v : Nat) :
    wordOfLine (setWord x i v) j = wordOfLine x j := by
  rw [wordOfLine, setWord, bitsOf_toNat_ofNat _ (by omega), bitsOf_put_other (by omega) (by omega), wordOfLine]

/-! ### Descriptors as numbers -/

/-- The fields of a descriptor fit their bits (Table 6.1). -/
def Desc.fits (x : Desc) : Prop :=
  x.cpol < 4 ∧ x.ld < 16 ∧ x.thresh < 16 ∧ x.budget < 16 ∧ x.base < 2 ^ 36 ∧ x.tpol < 4 ∧ x.rpromo < 4

theorem Desc.num_lt (x : Desc) : x.num < 2 ^ 64 := by
  have hb (b : Bool) : b2n b ≤ 1 := by cases b <;> simp [b2n]
  have := hb x.v; have := hb x.tiered; have := hb x.elastic; have := hb x.fpois
  unfold Desc.num
  omega

theorem descOf_num {x : Desc} (h : x.fits) : descOf x.num = x := by
  obtain ⟨hcpol, hld, hthresh, hbudget, hbase, htpol, hrpromo⟩ := h
  have hb (b : Bool) : b2n b < 2 := by cases b <;> simp [b2n]
  have hv := hb x.v; have ht := hb x.tiered; have he := hb x.elastic; have hf := hb x.fpois
  have hbit {k : Nat} {b : Bool} (hk : x.num / 2 ^ k % 2 = b2n b) : bitOf x.num k = b := by
    rw [bitOf, Nat.testBit_eq_decide_div_mod_eq, hk]
    cases b <;> rfl
  have hbits {hi lo y : Nat} (hy : x.num / 2 ^ lo % 2 ^ (hi + 1 - lo) = y) : bitsOf x.num hi lo = y := by
    rw [bitsOf, Nat.shiftRight_eq_div_pow, hy]
  rw [descOf, hbit (b := x.v), hbit (b := x.tiered), hbit (b := x.elastic), hbit (b := x.fpois), hbits (y := x.cpol), hbits (y := x.ld),
    hbits (y := x.thresh), hbits (y := x.budget), hbits (y := x.base), hbits (y := x.tpol), hbits (y := x.rpromo)]
  all_goals
    unfold Desc.num
    omega

/-! ### Descriptors in the map -/

variable (d : Dev)

@[simp] theorem Dev.putMapLine_regs (ted sa : Nat) (x : Line) (tell : Bool) : (d.putMapLine ted sa x tell).regs = d.regs := by
  unfold Dev.putMapLine
  dsimp only
  split_ifs <;> rfl

/-- A map line reads as it was last written, whether its write to storage is under way or waits (R150). -/
theorem Dev.putMapLine_map (ted sa : Nat) (x : Line) (tell : Bool) :
    (d.putMapLine ted sa x tell).ted.map = kvSet (fun _ => 0) d.ted.map (sa / 64) x := by
  have hline : sa / 64 * 64 / 64 = sa / 64 := Nat.mul_div_cancel _ (by norm_num)
  unfold Dev.putMapLine
  dsimp only
  split_ifs <;> exact congrArg (kvSet (fun _ => 0) d.ted.map · x) hline

@[simp] theorem Dev.putDesc_regs (field : Nat) (x : Desc) : (d.putDesc field x).regs = d.regs := d.putMapLine_regs _ _ _ _

theorem Dev.desc_of_map_eq {d e : Dev} (hm : e.ted.map = d.ted.map) (hf : e.ftab = d.ftab) (field : Nat) : e.desc field = d.desc field := by
  simp only [Dev.desc, Dev.descSa, Dev.mapLine, hm, hf]

@[simp] theorem Dev.ftab_putDesc (field : Nat) (x : Desc) : (d.putDesc field x).ftab = d.ftab := by
  rw [Dev.ftab, Dev.fld_of_regs_eq (d.putDesc_regs field x), Dev.ftab]

theorem Dev.mapLine_putDesc (field : Nat) (x : Desc) (sa : Nat) : (d.putDesc field x).mapLine sa =
    kvGet (fun _ => 0) (kvSet (fun _ => 0) d.ted.map (d.descSa field / 64)
      (setWord (d.mapLine (d.descSa field)) (d.descSa field / 8 % 8) x.num)) (sa / 64) := by
  rw [Dev.mapLine, Dev.putDesc, Dev.putMapWord, Dev.putMapLine_map]

theorem Dev.desc_putDesc_self {x : Desc} (h : x.fits) (field : Nat) : (d.putDesc field x).desc field = x := by
  simp only [Dev.desc, Dev.descSa, Dev.ftab_putDesc]
  rw [← Dev.descSa, Dev.mapLine_putDesc, kvGet_set_self, wordOfLine_setWord_self _ (Nat.mod_lt _ (by norm_num)),
    Nat.mod_eq_of_lt x.num_lt, descOf_num h]

theorem Dev.desc_putDesc_other {f g : Nat} (h : f ≠ g) (x : Desc) : (d.putDesc f x).desc g = d.desc g := by
  simp only [Dev.desc, Dev.descSa, Dev.ftab_putDesc]
  rw [← Dev.descSa, Dev.mapLine_putDesc]
  by_cases hline : d.descSa f / 64 = d.descSa g / 64
  · have hword : d.descSa f / 8 % 8 ≠ d.descSa g / 8 % 8 := by
      simp only [Dev.descSa, Dev.ftab] at hline ⊢
      omega
    rw [hline, kvGet_set_self, wordOfLine_setWord_other _ (Nat.mod_lt _ (by norm_num)) hword, Dev.mapLine, hline, Dev.mapLine]
  · rw [kvGet_set_other _ _ hline, Dev.mapLine]

/-- Descriptors written one after another, each in its place: all read as written. -/
theorem Dev.desc_foldl_putDesc {x : Nat → Desc} (base k : Nat) (h : ∀ i < k, (x i).fits) {i : Nat} (hi : i < k) :
    ((List.range k).foldl (fun d i => d.putDesc (base + i) (x i)) d).desc (base + i) = x i := by
  induction k with
  | zero => omega
  | succ k ih =>
    rw [List.range_succ, List.foldl_append, List.foldl_cons, List.foldl_nil]
    by_cases hik : i = k
    · subst hik
      exact Dev.desc_putDesc_self _ (h i hi) _
    · rw [Dev.desc_putDesc_other _ (by omega)]
      exact ih (fun j hj => h j (by omega)) (by omega)

end Sys2Proof.Machine
end

section
/-! SUPPORT. LD windows (R59, R168, R170, R171): the four commands of a window by what they find. -/

namespace Sys2Proof.Machine

variable {d : Dev} {n : Nat}

theorem gblLdwin_ne_tedLdcap (hn : n < 16) : (Reg.gblLdwin n).offset ≠ (Reg.tedLdcap n).offset := by simp only [Reg.offset]; omega

theorem Dev.setWin_regs (d : Dev) (p : WinPhase) : (d.setWin n p).regs = d.regs := rfl
theorem Dev.setWin_hp (d : Dev) (p : WinPhase) : (d.setWin n p).hp = d.hp := rfl
theorem Dev.setWin_map (d : Dev) (p : WinPhase) : (d.setWin n p).ted.map = d.ted.map := rfl
theorem Dev.setWin_out (d : Dev) (p : WinPhase) : (d.setWin n p).out = d.out := rfl

theorem Dev.setWin_ted (d : Dev) (p : WinPhase) : (d.setWin n p).ted = { d.ted with win := d.ted.win.set n p } := rfl

theorem Dev.flag_setWin (d : Dev) (p : WinPhase) (r : Reg) (f : Fld) : (d.setWin n p).flag r f = d.flag r f := rfl

@[simp] theorem Dev.winPhase_setWin_none (d : Dev) : (d.setWin n .none).winPhase n = .none := by
  by_cases h : n < d.ted.win.length <;> simp [Dev.winPhase, Dev.setWin, Dev.modTed, List.getD_eq_getElem?_getD, h]

/-- ERR of a window leaves EN as it is. -/
theorem Dev.winEn_setErr (d : Dev) : (d.setFlag (.gblLdwin n) F.gblLdwin_ERR true).winEn n = d.winEn n :=
  d.flag_setFlag_field _ true (by decide) (by decide) (by decide)

/-- What ERR of a window comes to: the flag sets, EN stays, and nothing else changes. -/
theorem Dev.winErr_sets (d : Dev) (n : Nat) :
    (d.setFlag (.gblLdwin n) F.gblLdwin_ERR true).winEn n = d.winEn n ∧
    (d.setFlag (.gblLdwin n) F.gblLdwin_ERR true).flag (.gblLdwin n) F.gblLdwin_ERR = true ∧
    d.keepsRegs (d.setFlag (.gblLdwin n) F.gblLdwin_ERR true) [.gblLdwin n] ∧
    (d.setFlag (.gblLdwin n) F.gblLdwin_ERR true).ted = d.ted :=
  ⟨d.winEn_setErr, d.flag_setFlag_self _ true (by decide) (by decide), (d.keepsRegs_refl _).setFlag (by simp) _ _, d.setFlag_ted _ _ _⟩

/-! ### LDWIN_ENABLE -/

theorem Dev.winRefused59_iff (d : Dev) (n : Nat) : d.winRefused59 n = false ↔ d.winFields n ≠ 0 ∧ d.winBase n + d.winFields n ≤ 2 ^ 27 ∧
    ∀ k < 16, k ≠ n → d.winEn k = true → overlaps (d.winBase n) (d.winFields n) (d.winBase k) (d.winFields k) = false := by
  simp [Dev.winRefused59, and_assoc]

theorem Dev.winEnable_of_enabled (h : d.winEn n = true) : d.winEnable n = d := by simp [Dev.winEnable, h]

section
variable (h : d.winEn n = false)
include h

theorem Dev.winEnable_of_refused59 (h59 : d.winRefused59 n = true) :
    d.winEnable n = d.setFlag (.gblLdwin n) F.gblLdwin_ERR true := by
  simp [Dev.winEnable, h, h59]

variable (h59 : d.winRefused59 n = false)
include h59

theorem Dev.winEnable_of_refused170 (h170 : d.winRefused170 n = true) : d.winEnable n =
    (d.setFlag (.gblLdwin n) F.gblLdwin_ERR true).setFlag (.tedLdcap n) F.tedLdcap_ERR true := by
  simp [Dev.winEnable, h, h59, h170]

variable (h170 : d.winRefused170 n = false)
include h170

theorem Dev.winEnable_of_refused211 (h211 : d.winRefused211 n = true) :
    d.winEnable n = d.setFlag (.gblLdwin n) F.gblLdwin_ERR true := by
  simp [Dev.winEnable, h, h59, h170, h211]

theorem Dev.winEnable_of_sound (h211 : d.winRefused211 n = false) :
    d.winEnable n = (d.setFlag (.gblLdwin n) F.gblLdwin_EN true).setWin n .building := by
  simp [Dev.winEnable, h, h59, h170, h211]

end

/-! ### LDWIN_DISABLE -/

/-- The window may not be torn down: a decoder of its LD is committed, the LD holds an extent, or a teardown is under way (R59). -/
def Dev.winBusy (d : Dev) (n : Nat) : Prop :=
  (∃ i < 8, (d.hdm n i).committed = true) ∨ d.extents n ≠ [] ∨ d.winPhase n = .tearing

theorem Dev.winDisable_of_disabled (h : d.winEn n = false) : d.winDisable n = d := by simp [Dev.winDisable, h]

theorem Dev.winBusy_iff (d : Dev) (n : Nat) : (((List.range 8).any fun i => (d.hdm n i).committed) || !(d.extents n).isEmpty ||
    d.winPhase n == .tearing) = true ↔ d.winBusy n := by
  simp [Dev.winBusy, or_assoc]

theorem Dev.winDisable_of_busy (h : d.winEn n = true) (hb : d.winBusy n) :
    d.winDisable n = d.setFlag (.gblLdwin n) F.gblLdwin_ERR true := by
  rw [Dev.winDisable, if_neg (by simp [h]), if_pos ((d.winBusy_iff n).mpr hb)]

theorem Dev.winDisable_of_not_busy (h : d.winEn n = true) (hb : ¬ d.winBusy n) : d.winDisable n = d.setWin n .tearing := by
  rw [Dev.winDisable, if_neg (by simp [h]), if_neg (mt (d.winBusy_iff n).mp hb)]

/-! ### WINDOW_BUILD_COMPLETE (R168) -/

/-- The descriptor of field `i` of a window whose committed fields are flat (R168). -/
def Dev.flatDesc (d : Dev) (n i : Nat) : Desc :=
  if i < d.fld (.tedLdcap n) F.tedLdcap_COMMIT then { v := true, ld := n, base := (d.fld (.tedLdflat n) F.tedLdflat_BASE + i) * 512 }
  else {}

theorem Dev.flatDesc_fits (hn : n < 16) (i : Nat)
    (h : d.fld (.tedLdflat n) F.tedLdflat_BASE + d.fld (.tedLdcap n) F.tedLdcap_COMMIT ≤ 2 ^ 27) : (d.flatDesc n i).fits := by
  unfold Dev.flatDesc Desc.fits
  split
  · exact ⟨Nat.zero_lt_succ _, hn, Nat.zero_lt_succ _, Nat.zero_lt_succ _, by dsimp only; omega, Nat.zero_lt_succ _, Nat.zero_lt_succ _⟩
  · decide

/-- The build of field `i` of LD `n`'s window, as the registers of `d` give it. -/
def Dev.buildField (m : Dram) (d : Dev) (n : Nat) (e : Dev) (i : Nat) : Dev :=
  if i < d.fld (.tedLdcap n) F.tedLdcap_COMMIT then
    if d.flag (.tedLdcap n) F.tedLdcap_TIERED then e.newTiered m (d.winBase n + i) n false
    else e.putDesc (d.winBase n + i) { v := true, ld := n, base := (d.fld (.tedLdflat n) F.tedLdflat_BASE + i) * 512 }
  else e.putDesc (d.winBase n + i) {}

theorem Dev.buildField_flat (m : Dram) (h : d.flag (.tedLdcap n) F.tedLdcap_TIERED = false) (e : Dev) (i : Nat) :
    Dev.buildField m d n e i = e.putDesc (d.winBase n + i) (d.flatDesc n i) := by
  rw [Dev.buildField, Dev.flatDesc, h]
  split <;> rfl

@[simp] theorem Dev.buildField_hp (m : Dram) (d : Dev) (n : Nat) (e : Dev) (i : Nat) : (Dev.buildField m d n e i).hp = e.hp := by
  unfold Dev.buildField
  split_ifs <;> simp

/-- The fields of the window, built in order. -/
def Dev.builtFields (m : Dram) (d : Dev) (n : Nat) : Dev := (List.range (d.winFields n)).foldl (Dev.buildField m d n) d

theorem Dev.windowBuilt_of_not_due (m : Dram) (h : d.winPhase n ≠ .building ∨ d.mapsReady n = false) : d.windowBuilt m n = d := by
  rcases h with h | h <;> simp [Dev.windowBuilt, h]

theorem Dev.windowBuilt_of_due (m : Dram) (hp : d.winPhase n = .building) (hm : d.mapsReady n = true) :
    d.windowBuilt m n = ((d.builtFields m n).setFlag (.tedLdcap n) F.tedLdcap_BUILT true).setWin n .none := by
  rw [Dev.windowBuilt, if_neg (by simp [hp, hm])]
  rfl

theorem Dev.builtFields_hp (m : Dram) (d : Dev) (n : Nat) : (d.builtFields m n).hp = d.hp :=
  foldl_keeps Dev.hp (fun e i => Dev.buildField_hp m d n e i) _ _

theorem Dev.builtFields_flat (m : Dram) (h : d.flag (.tedLdcap n) F.tedLdcap_TIERED = false) : d.builtFields m n =
    (List.range (d.winFields n)).foldl (fun e i => e.putDesc (d.winBase n + i) (d.flatDesc n i)) d :=
  List.foldl_ext _ _ _ fun e i _ => Dev.buildField_flat m h e i

/-- Every field of a flat window has its descriptor when the build is complete. -/
theorem Dev.desc_windowBuilt (m : Dram) (hn : n < 16) (hp : d.winPhase n = .building) (hm : d.mapsReady n = true)
    (ht : d.flag (.tedLdcap n) F.tedLdcap_TIERED = false)
    (hflat : d.fld (.tedLdflat n) F.tedLdflat_BASE + d.fld (.tedLdcap n) F.tedLdcap_COMMIT ≤ 2 ^ 27) {i : Nat} (hi : i < d.winFields n) :
    (d.windowBuilt m n).desc (d.winBase n + i) = d.flatDesc n i := by
  have hftab (e : Dev) : ((e.setFlag (.tedLdcap n) F.tedLdcap_BUILT true).setWin n .none).ftab = e.ftab :=
    (congrArg (· * 4096) (Dev.fld_of_regs_eq (Dev.setWin_regs _ _) _ _)).trans
      (congrArg (· * 4096) (e.fld_setFlag_other true (by simp only [Reg.offset]; omega)))
  have hmap (e : Dev) : ((e.setFlag (.tedLdcap n) F.tedLdcap_BUILT true).setWin n .none).ted.map = e.ted.map := by
    rw [Dev.setWin_map, Dev.setFlag_ted]
  rw [Dev.windowBuilt_of_due m hp hm, Dev.desc_of_map_eq (hmap _) (hftab _), Dev.builtFields_flat m ht]
  exact Dev.desc_foldl_putDesc _ _ _ (fun j _ => Dev.flatDesc_fits hn j hflat) hi

theorem Dev.windowBuilt_builds (m : Dram) (hp : d.winPhase n = .building) (hm : d.mapsReady n = true) :
    (d.windowBuilt m n).winBuilt n = true ∧ (d.windowBuilt m n).winPhase n = .none ∧ (d.windowBuilt m n).hp = d.hp := by
  rw [Dev.windowBuilt_of_due m hp hm]
  exact ⟨(Dev.flag_setWin _ _ _ _).trans (Dev.flag_setFlag_self _ _ true (by decide) (by decide)), Dev.winPhase_setWin_none _,
    (Dev.setWin_hp _ _).trans ((Dev.setFlag_hp _ _ _ _).trans (d.builtFields_hp m n))⟩

/-! ### WINDOW_TEARDOWN_COMPLETE (R171) -/

/-- A re-encryption runs in the window: its teardown waits. -/
def Dev.winReencrypts (d : Dev) (n : Nat) : Bool := d.jobIn (List.range' (d.winBase n) (d.winFields n)).contains

/-- The fields of the window, dropped in order. -/
def Dev.droppedFields (m : Dram) (d : Dev) (n : Nat) : Dev :=
  (List.range' (d.winBase n) (d.winFields n)).foldl (fun e f => e.dropField m f) d

/-- The window is closed: EN and BUILT clear, and its teardown is over. -/
def Dev.closeWin (d : Dev) (n : Nat) : Dev :=
  (((d.setFlag (.tedLdcap n) F.tedLdcap_BUILT false).setFlag (.gblLdwin n) F.gblLdwin_EN false).setWin n .none).unspoil n

theorem Dev.flag_unspoil (d : Dev) (n : Nat) (r : Reg) (f : Fld) : (d.unspoil n).flag r f = d.flag r f := rfl
theorem Dev.winPhase_unspoil (d : Dev) (n : Nat) : (d.unspoil n).winPhase n = d.winPhase n := rfl
theorem Dev.unspoil_hdm (d : Dev) (n : Nat) : (d.unspoil n).hp.hdm = d.hp.hdm := rfl
theorem Dev.unspoil_extents (d : Dev) (n : Nat) : (d.unspoil n).hp.extents = d.hp.extents := rfl

theorem Dev.closeWin_closes (d : Dev) (hn : n < 16) : (d.closeWin n).winEn n = false ∧ (d.closeWin n).winBuilt n = false ∧
    (d.closeWin n).winPhase n = .none ∧ (d.closeWin n).hp.hdm = d.hp.hdm ∧ (d.closeWin n).hp.extents = d.hp.extents := by
  have hflag (r : Reg) (f : Fld) : (d.closeWin n).flag r f =
      ((d.setFlag (.tedLdcap n) F.tedLdcap_BUILT false).setFlag (.gblLdwin n) F.gblLdwin_EN false).flag r f :=
    (Dev.flag_unspoil _ _ _ _).trans (Dev.flag_setWin _ _ _ _)
  refine ⟨(hflag _ _).trans (Dev.flag_setFlag_self _ _ false (by decide) (by decide)), (hflag _ _).trans ?_, ?_, ?_, ?_⟩
  · exact (Dev.flag_setFlag_other _ false (gblLdwin_ne_tedLdcap hn)).trans (Dev.flag_setFlag_self _ _ false (by decide) (by decide))
  · rw [Dev.closeWin, Dev.winPhase_unspoil, Dev.winPhase_setWin_none]
  · rw [Dev.closeWin, Dev.unspoil_hdm, Dev.setWin_hp, Dev.setFlag_hp, Dev.setFlag_hp]
  · rw [Dev.closeWin, Dev.unspoil_extents, Dev.setWin_hp, Dev.setFlag_hp, Dev.setFlag_hp]

theorem Dev.windowTorn_of_not_due (m : Dram) (h : d.winPhase n ≠ .tearing ∨ d.winReencrypts n = true) : d.windowTorn m n = d := by
  rw [Dev.winReencrypts] at h
  rcases h with h | h <;> simp [Dev.windowTorn, h]

theorem Dev.windowTorn_of_due (m : Dram) (hp : d.winPhase n = .tearing) (hj : d.winReencrypts n = false) : d.windowTorn m n =
    ((d.droppedFields m n).dropLines ((d.droppedFields m n).inWindow n)).closeWin n := by
  rw [Dev.winReencrypts] at hj
  rw [Dev.windowTorn, if_neg (by simp [hp, hj])]
  rfl

theorem Dev.droppedFields_hp (m : Dram) (d : Dev) (n : Nat) : (d.droppedFields m n).hp = d.hp :=
  foldl_keeps Dev.hp (fun e f => e.dropField_hp m f) _ _

theorem Dev.windowTorn_tears (m : Dram) (hn : n < 16) (hp : d.winPhase n = .tearing) (hj : d.winReencrypts n = false) :
    (d.windowTorn m n).winEn n = false ∧ (d.windowTorn m n).winBuilt n = false ∧ (d.windowTorn m n).winPhase n = .none ∧
    (d.windowTorn m n).hp.hdm = d.hp.hdm ∧ (d.windowTorn m n).hp.extents = d.hp.extents := by
  rw [Dev.windowTorn_of_due m hp hj]
  obtain ⟨hen, hbuilt, hphase, hhdm, hextents⟩ :=
    Dev.closeWin_closes ((d.droppedFields m n).dropLines ((d.droppedFields m n).inWindow n)) hn
  rw [Dev.dropLines_hp, Dev.droppedFields_hp] at hhdm hextents
  exact ⟨hen, hbuilt, hphase, hhdm, hextents⟩

end Sys2Proof.Machine
end

section
/-! SUPPORT. The commands of a window on a running die whose access reaches its register, and the statement of the windows. -/

namespace Sys2Proof.Machine

section
variable {s : State} {n : Nat} (hn : n < 16) (h : s.reaches (.gblLdwin n))
include hn h

theorem exec_ldwinEnable_reached : exec (.ldwinEnable n) s = .next (s.finish (s.dev.winEnable n)) := by
  rw [exec_ldwinEnable (by simpa [Instr.wf] using hn) h.1, Dev.viaReg_of_reaches h (.inl (by simp only [Reg.offset]; omega))]

theorem exec_ldwinDisable_reached : exec (.ldwinDisable n) s = .next (s.finish (s.dev.winDisable n)) := by
  rw [exec_ldwinDisable (by simpa [Instr.wf] using hn) h.1, Dev.viaReg_of_reaches h (.inl (by simp only [Reg.offset]; omega))]

end

/-- Settles O29. -/
theorem windows : Obligations.Windows := by
  intro s n hu hn base fields placed
  have hbuild := exec_windowBuildComplete (n := n) (s := s) (by simpa [Instr.wf] using hn) hu
  have htear := exec_windowTeardownComplete (n := n) (s := s) (by simpa [Instr.wf] using hn) hu
  have hplaced : placed ↔ s.dev.winRefused59 n = false := (s.dev.winRefused59_iff n).symm
  refine ⟨fun h => ⟨fun hen => ?enabled, fun hen => ?disabled⟩, fun h hen => ?enable, fun h hen => ?disable, fun h => ?notBuilding,
    fun hp hm => ?build, fun h => ?notTearing, fun hp hj => ?teardown⟩
  case enabled => rw [exec_ldwinEnable_reached hn h, Dev.winEnable_of_enabled hen]
  case disabled => rw [exec_ldwinDisable_reached hn h, Dev.winDisable_of_disabled hen]
  case enable =>
    have hexec := exec_ldwinEnable_reached hn h
    obtain ⟨herrEn, herr, hkeep, hted⟩ := s.dev.winErr_sets n
    refine ⟨fun hpl h170 h211 => ?starts, fun hpl => ?misplaced, fun hpl h170 => ?refused170, fun hpl h170 h211 => ?refused211⟩
    case starts =>
      rw [Dev.winEnable_of_sound hen (hplaced.mp hpl) h170 h211] at hexec
      exact ⟨_, hexec, (Dev.flag_setWin _ _ _ _).trans (Dev.flag_setFlag_self _ _ true (by decide) (by decide)),
        by rw [Dev.setWin_ted, Dev.setFlag_ted], ((s.dev.keepsRegs_refl _).setFlag (by simp) _ _).regs_eq (Dev.setWin_regs _ _),
        by rw [Dev.setWin_out, Dev.setFlag_out]⟩
    case misplaced =>
      rw [Dev.winEnable_of_refused59 hen (by simpa [hplaced] using hpl)] at hexec
      exact ⟨_, hexec, herrEn.trans hen, herr, hkeep, hted⟩
    case refused170 =>
      rw [Dev.winEnable_of_refused170 hen (hplaced.mp hpl) h170] at hexec
      have hne := gblLdwin_ne_tedLdcap hn
      exact ⟨_, hexec, (Dev.flag_setFlag_other _ true hne.symm).trans (herrEn.trans hen),
        (Dev.flag_setFlag_other _ true hne.symm).trans herr,
        Dev.flag_setFlag_self _ _ true (by decide) (by decide),
        ((s.dev.keepsRegs_refl _).setFlag (by simp) _ _).setFlag (by simp) _ _, (Dev.setFlag_ted _ _ _ _).trans hted⟩
    case refused211 =>
      rw [Dev.winEnable_of_refused211 hen (hplaced.mp hpl) h170 h211] at hexec
      exact ⟨_, hexec, herrEn.trans hen, herr, hkeep, hted⟩
  case disable =>
    obtain ⟨herrEn, herr, hkeep, hted⟩ := s.dev.winErr_sets n
    refine ⟨fun hb => ?_, fun hb => ?_⟩
    · rw [exec_ldwinDisable_reached hn h, Dev.winDisable_of_not_busy hen hb]
    · exact ⟨_, (exec_ldwinDisable_reached hn h).trans (by rw [Dev.winDisable_of_busy hen hb]), herrEn.trans hen, herr, hkeep, hted⟩
  case notBuilding => rw [hbuild, Dev.windowBuilt_of_not_due _ h]
  case build =>
    obtain ⟨hbuilt, hphase, hhp⟩ := Dev.windowBuilt_builds s.dram hp hm
    exact ⟨_, hbuild, hbuilt, hphase, congrArg HostPorts.hdm hhp, fun ht _ hflat i hi => Dev.desc_windowBuilt s.dram hn hp hm ht hflat hi⟩
  case notTearing => rw [htear, Dev.windowTorn_of_not_due _ h]
  case teardown => exact ⟨_, htear, Dev.windowTorn_tears s.dram hn hp hj⟩

end Sys2Proof.Machine
end

section
/-! SUPPORT. Event logs (R106), response credits (R22) and the boundary scan (R490). -/

namespace Sys2Proof.Machine

variable {d : Dev}

/-- The controller serves the management mailbox: it does not restart, and the device is not in Hold (R420, R425). -/
def Dev.mgmtServes (d : Dev) : Prop := d.mgt.restarting = false ∧ d.inHold = false

theorem Dev.viaMgmt_of_serves (h : d.mgmtServes) (op : MboxOp) (f : Dev → Dev) : d.viaMgmt op f = f d := by
  obtain ⟨hrestart, hhold⟩ := h
  simp [Dev.viaMgmt, Dev.mgmtRefusal, hrestart, hhold]

theorem Dev.viaMgmt_of_refuses (h : ¬ d.mgmtServes) (op : MboxOp) (f : Dev → Dev) :
    d.viaMgmt op f = d.emit (.mailbox 16 op (if d.mgt.restarting then .busy else .unsupported) []) := by
  unfold Dev.viaMgmt Dev.mgmtRefusal
  cases hrestart : d.mgt.restarting with
  | true => rfl
  | false =>
    have hhold : d.inHold = true := by simpa [Dev.mgmtServes, hrestart] using h
    simp [hhold]

/-! ### Event logs -/

section
variable {o log n : Nat}

/-- The function's mailbox takes the command: the management view's by the controller, an LD's where a head reaches it. -/
def Dev.logAnswers (d : Dev) (o : Nat) : Prop := if o = 16 then d.mgmtServes else d.fnUp o = true

theorem Dev.clearRow_of_answers (h : d.logAnswers o) : d.clearRow o log n = d.clearRecords o log n := by
  unfold Dev.clearRow
  by_cases ho : o = 16
  · subst ho
    rw [if_pos rfl, Dev.viaMgmt_of_serves (by simpa [Dev.logAnswers] using h)]
  · rw [if_neg ho]

theorem Dev.clearRow_of_refuses (h : ¬ d.mgmtServes) :
    d.clearRow 16 log n = d.emit (.mailbox 16 .clearEventRecords (if d.mgt.restarting then .busy else .unsupported) []) :=
  Dev.viaMgmt_of_refuses h .clearEventRecords fun d => d.clearRecords 16 log n

theorem Dev.clearRow_of_unreached (ho : o < 16) (h : d.fnUp o = false) : d.clearRow o log n = d := by
  simp [Dev.clearRow, Dev.clearRecords, ho.ne, h]

/-- The records of a log. -/
def Dev.logRecs (d : Dev) (o log : Nat) : List Rec := kvGet (fun _ => []) d.logs.recs (o * 5 + log)

/-- The log without its `n` oldest records, and without its overflow note. -/
def Dev.dropRecs (d : Dev) (o log n : Nat) : Dev :=
  { d with logs := { d.logs with recs := kvSet (fun _ => []) d.logs.recs (o * 5 + log) ((d.logRecs o log).drop n),
                                 ovf := kvDel d.logs.ovf (o * 5 + log) } }

theorem Dev.logAnswers.reached (h : d.logAnswers o) : (o == 16 || d.fnUp o) = true := by
  by_cases ho : o = 16
  · simp [ho]
  · simpa [Dev.logAnswers, ho] using h

theorem Dev.clearRecords_of_short (h : d.logAnswers o) (hn : (d.logRecs o log).length < n) :
    d.clearRecords o log n = d.emit (.mailbox o .clearEventRecords .invalidHandle []) := by
  have hn' : (kvGet (fun _ => []) d.logs.recs (o * 5 + log)).length < n := hn
  simp [Dev.clearRecords, h.reached, hn']

theorem Dev.clearRecords_of_held (h : d.logAnswers o) (hlog : log < 5) (hn : n ≤ (d.logRecs o log).length) :
    d.clearRecords o log n = (d.dropRecs o log n).emit (.mailbox o .clearEventRecords .success []) := by
  have hn' : ¬ (5 ≤ log ∨ (kvGet (fun _ => []) d.logs.recs (o * 5 + log)).length < n) := by
    have : n ≤ (kvGet (fun _ => []) d.logs.recs (o * 5 + log)).length := hn
    omega
  simp only [Dev.clearRecords, h.reached, Bool.not_true, Bool.false_eq_true, if_false, hn']
  rfl

end

/-! ### The boundary scan -/

theorem TapInstr.drives_iff (t : TapInstr) :
    t.drives = true ↔ t ∈ [TapInstr.extest, .extestPulse, .extestTrain, .intest, .clamp] := by
  cases t <;> simp [TapInstr.drives]

/-- A load of the TAP changes the two instructions and nothing else. -/
theorem Dev.tapLoad_eq (d : Dev) (low : Bool) (t : TapInstr) : d.tapLoad low t = d.modMgt fun m => { m with
    ir := if low = true then .bypass else t,
    tap := if low = true ∨ t ∈ [TapInstr.extest, .extestPulse, .extestTrain, .intest, .clamp] ∧
      d.flag .gblBoot F.gblBoot_DRAM_READY = true then .bypass else t } := by
  cases low with
  | true => rfl
  | false => simp only [Dev.tapLoad, Bool.and_eq_true, TapInstr.drives_iff, Bool.false_eq_true, if_false, false_or]

theorem exec_boundaryScan {low : Bool} {t : TapInstr} {s : State} : exec (.boundaryScanInstruction low t) s =
    .next (if s.up then s.settle (s.dev.tapLoad low t) else { s with dev := s.dev.tapLoad low t }) :=
  ifWf_ok (i := .boundaryScanInstruction low t) rfl s (.next (s.pin fun d => d.tapLoad low t))

/-- Settles O59. -/
theorem logsCreditsAndScan : Obligations.LogsCreditsAndScan := by
  intro s o log n h
  refine ⟨fun hu ho hlog => ?logs, fun hu hh => ?credits, fun low t => ?scan⟩
  case logs =>
    intro run old say answers
    have hrun : run = .next (s.settle (s.dev.clearRow o log n)) := exec_clearEventRecords (by simp [Instr.wf, ho, hlog]) hu
    refine ⟨fun h16 hno => ?_, fun hld hno => ?_, fun hyes hn => ?_, fun hyes hn => ?_⟩
    · subst h16
      exact hrun.trans (by rw [Dev.clearRow_of_refuses hno])
    · have hdown : s.dev.fnUp o = false := by simpa [answers, hld.ne] using hno
      exact hrun.trans (by rw [Dev.clearRow_of_unreached hld hdown])
    · rw [Dev.clearRow_of_answers hyes, Dev.clearRecords_of_held hyes hlog hn] at hrun
      exact ⟨_, hrun, kvGet_set_self _ _ _ _, fun k hk => kvGet_set_other _ _ hk.symm _, rfl, rfl⟩
    · exact hrun.trans (by rw [Dev.clearRow_of_answers hyes, Dev.clearRecords_of_short hyes hn])
  case credits => exact exec_responseCreditReturn (by simp [Instr.wf, hh]) hu
  case scan =>
    refine ⟨s.dev.tapLoad low t, exec_boundaryScan, ?_⟩
    rw [Dev.tapLoad_eq]
    exact ⟨rfl, rfl, rfl, rfl, rfl, rfl⟩

end Sys2Proof.Machine
end

section
/-! SUPPORT. Discovery (R92 to R95, R421): what a function answers to each request, and that one which no head reaches answers nothing. -/

namespace Sys2Proof.Machine

variable {d : Dev} {fn k : Nat}

theorem Dev.doeDiscovery_of_up (h : d.fnUp fn = true) :
    d.doeDiscovery fn k = d.emit (.doeFound fn doeObjects[k]? (if k < 4 then k + 1 else 0)) := by simp [Dev.doeDiscovery, h]

theorem Dev.doeDiscovery_of_down (h : d.fnUp fn = false) : d.doeDiscovery fn k = d := by simp [Dev.doeDiscovery, h]

theorem Dev.cdatAccess_of_entry (h : d.fnUp fn = true) {e : CdatEntry} (he : (d.cdatOf fn)[k]? = some e) :
    d.cdatAccess fn k = d.emit (.cdat fn (d.hp.cdatSeq.getD fn 0) e (if k + 1 < (d.cdatOf fn).length then k + 1 else 0xFFFF)) := by
  simp [Dev.cdatAccess, h, he]

theorem Dev.cdatAccess_of_past (h : d.fnUp fn = true) (hk : (d.cdatOf fn).length ≤ k) :
    d.cdatAccess fn k = d.emit (.doeError fn) := by
  simp [Dev.cdatAccess, h, List.getElem?_eq_none hk]

theorem Dev.cdatAccess_of_down (h : d.fnUp fn = false) : d.cdatAccess fn k = d := by simp [Dev.cdatAccess, h]

/-! ### The Deck table -/

/-- The handles of the Deck table run from 0 to 3,779. -/
theorem deckCounts_sum : deckCounts.sum = 3780 := by decide

theorem deckEntry_zero : deckEntry 0 = some deckSummary := rfl

/-- No type of entries is left for a handle past the last one. -/
theorem deckEntry_go_of_past (ns : List Nat) : ∀ ty h : Nat, ns.sum ≤ h → deckEntry.go ty h ns = none := by
  induction ns with
  | nil => exact fun _ _ _ => rfl
  | cons n ns ih =>
    intro ty h hsum
    rw [List.sum_cons] at hsum
    rw [deckEntry.go, if_neg (by omega)]
    exact ih _ _ (by omega)

theorem deckEntry_of_past {h : Nat} (hh : 3780 ≤ h) : deckEntry h = none :=
  deckEntry_go_of_past deckCounts 1 h (deckCounts_sum.trans_le hh)

theorem deckResponse_eq (rev h : Nat) : deckResponse rev h =
    [Config.vendorId.toNat + 2 ^ 16, 3 + (dwordsOf ((deckEntry h).getD [])).length,
      (if h + 1 < 3780 then h + 1 else 0xFFFF) + rev * 2 ^ 16] ++ dwordsOf ((deckEntry h).getD []) := by
  rw [← deckCounts_sum]; rfl

theorem Dev.deckRequest_of_up (h : d.fnUp fn = true) (hk : k < 2 ^ 16) :
    d.deckRequest fn k = d.emit (.doe fn (deckResponse (d.fld .gblId F.gblId_DECK) k)) := by
  simp only [Dev.deckRequest, h, if_true, Nat.mod_eq_of_lt hk]

theorem Dev.deckRequest_of_down (h : d.fnUp fn = false) : d.deckRequest fn k = d := by simp [Dev.deckRequest, h]

/-! ### SPDM -/

/-- One answer of at most 4 KiB is sent; block 4 holds what OTP_STAT shows. -/
theorem Dev.spdm_answers (nv : Nv) (h : fn = 16 ∨ d.fnUp fn = true) :
    ∃ bytes, d.spdm nv fn k = d.emit (.spdm fn k bytes) ∧ bytes.length ≤ 4096 ∧
      (k = 4 → bytes = [b2n (d.flag .otpStat F.otpStat_HOLD), d.fld .otpStat F.otpStat_CAUSE]) := by
  have hup : (!(fn == 16 || d.fnUp fn)) = false := by rcases h with h | h <;> simp [h]
  unfold Dev.spdm
  rw [hup]
  exact ⟨_, rfl, by simp [List.length_take], fun hk => by subst hk; rfl⟩

theorem Dev.spdm_of_down (nv : Nv) (h : d.fnUp fn = false) (h16 : fn ≠ 16) : d.spdm nv fn k = d := by simp [Dev.spdm, h, h16]

/-- Settles O25. -/
theorem discovery : Obligations.Discovery := by
  intro s fn k hu hfn hk
  have hdoe (hb : k < 256) := exec_doeDiscovery (fn := fn) (index := k) (by simp [Instr.wf, hfn, hb]) hu
  have hspdm (hb : k < 256) := exec_spdm (fn := fn) (block := k) (by simp [Instr.wf, hfn, hb]) hu
  have hcdat := exec_cdatTableAccess (fn := fn) (handle := k) (by simpa [Instr.wf, hfn] using hk) hu
  have hdeck := exec_deckRequest (fn := fn) (handle := k) (by simpa [Instr.wf, hfn] using hk) hu
  refine ⟨fun hup => ?answers, fun hreach hb => ?spdm, fun hdown => ?silent⟩
  case answers =>
    refine ⟨fun hb => ?_, fun e he => ?_, fun hpast => ?_, dwordsOf ((deckEntry k).getD []), ?_, fun h0 => ?_, fun hpast => ?_⟩
    · rw [hdoe hb, Dev.doeDiscovery_of_up hup]
    · rw [hcdat, Dev.cdatAccess_of_entry hup he]
    · rw [hcdat, Dev.cdatAccess_of_past hup hpast]
    · rw [hdeck, Dev.deckRequest_of_up hup hk, deckResponse_eq]
    · rw [h0, deckEntry_zero, Option.getD_some]
    · rw [deckEntry_of_past hpast]; rfl
  case spdm =>
    obtain ⟨bytes, hsent, hlen, hblock⟩ := Dev.spdm_answers s.nv hreach
    exact ⟨bytes, by rw [hspdm hb, hsent], hlen, hblock⟩
  case silent =>
    refine ⟨fun hb => ⟨?_, fun h16 => ?_⟩, ?_, ?_⟩
    · rw [hdoe hb, Dev.doeDiscovery_of_down hdown]
    · rw [hspdm hb, Dev.spdm_of_down _ hdown h16]
    · rw [hcdat, Dev.cdatAccess_of_down hdown]
    · rw [hdeck, Dev.deckRequest_of_down hdown]

end Sys2Proof.Machine
end

section
/-! SUPPORT. Host reads (R98 to R101, R333): a head's tags and outstanding reads, and what a completion, a timeout and the end of a
quarantine do by what they find. -/

namespace Sys2Proof.Machine

variable {d : Dev} {h tag count lower : Nat} {idOk : Bool} {st : CplStatus} {data : List Nat} {x : BmRead}

/-! ### A head among the heads -/

theorem Dev.head_modHead_self (hlt : h < d.hp.heads.length) (f : Head → Head) : (d.modHead h f).head h = f (d.head h) := by
  simp [Dev.head, Dev.modHead, List.getD_eq_getElem?_getD, List.getElem?_eq_getElem hlt]

/-- A head that the device does not have holds no tag. -/
theorem Dev.head_of_ge (hge : d.hp.heads.length ≤ h) : d.head h = {} := by
  simp [Dev.head, List.getD_eq_getElem?_getD, List.getElem?_eq_none hge]

/-! ### READ_COMPLETION -/

/-- The completion agrees with the read that its tag names (R101). -/
def BmRead.agrees (x : BmRead) (idOk : Bool) (count lower : Nat) (st : CplStatus) (data : List Nat) : Prop :=
  idOk = true ∧ count = x.len - x.got.length ∧ lower = (x.addr + x.got.length) % 128 ∧
    (st = .ok → 0 < data.length ∧ data.length ≤ x.len - x.got.length)

/-- The read is over and its tag free. -/
def Dev.endRead (d : Dev) (h tag : Nat) : Dev := (d.dropRead h tag).freeTag h tag

/-- What a completion that agrees does, by its status. -/
def Dev.acceptCompletion (d : Dev) (h tag : Nat) (x : BmRead) (st : CplStatus) (data : List Nat) : Dev :=
  match st with
  | .ok =>
    if (x.got ++ data).length < x.len then
      d.modHead h fun y => { y with reads := y.reads.map fun z => if z.tag = tag then { z with got := x.got ++ data } else z }
    else (d.endRead h tag).readDone x (x.got ++ data)
  | .poisoned => ((d.endRead h tag).aer h ((d.endRead h tag).useLd x.use) .poisonedTlp).readFailed x
  | _ => (d.endRead h tag).readFailed x

theorem BmRead.agrees_iff : x.agrees idOk count lower st data ↔
    (!idOk || count != x.len - x.got.length || lower != (x.addr + x.got.length) % 128 ||
      (st == .ok && (data.isEmpty || decide (x.len - x.got.length < data.length)))) = false := by
  simp [BmRead.agrees, and_assoc, List.length_pos_iff]

section
variable (hx : (d.head h).reads.find? (·.tag == tag) = some x)
include hx

theorem Dev.readCompletion_of_agrees (ha : x.agrees idOk count lower st data) :
    d.readCompletion h tag idOk count lower st data = d.acceptCompletion h tag x st data := by
  have hc := BmRead.agrees_iff.mp ha
  simp only [Dev.readCompletion, hx, hc]
  cases st <;> rfl

theorem Dev.readCompletion_of_not_agrees (ha : ¬ x.agrees idOk count lower st data) :
    d.readCompletion h tag idOk count lower st data = d.lateCompletion h tag x.addr := by
  have hc := Bool.eq_true_of_not_eq_false (mt BmRead.agrees_iff.mpr ha)
  simp only [Dev.readCompletion, hx, hc, if_true]

theorem Dev.completionTimeout_of_read : d.completionTimeout h tag = ((((d.count .readTimeout h).dropRead h tag).modHead h fun y =>
    { y with quar := y.quar ++ [(tag, x.addr)] }).aer h (d.useLd x.use) .completionTimeout).readFailed x := by
  simp only [Dev.completionTimeout, hx]

end

section
variable (hx : (d.head h).reads.find? (·.tag == tag) = none)
include hx

theorem Dev.readCompletion_of_quarantine {q : Nat × Nat} (hq : (d.head h).quar.find? (·.1 == tag) = some q) :
    d.readCompletion h tag idOk count lower st data = d.lateCompletion h tag q.2 := by
  simp only [Dev.readCompletion, hx, hq]

theorem Dev.readCompletion_of_free (hq : (d.head h).quar.find? (·.1 == tag) = none) :
    d.readCompletion h tag idOk count lower st data = d.aer h 0xFF .unexpectedCompletion := by
  simp only [Dev.readCompletion, hx, hq]

theorem Dev.completionTimeout_of_none : d.completionTimeout h tag = d := by
  simp only [Dev.completionTimeout, hx]

end

/-! ### TAG_QUARANTINE_END -/

theorem quar_any_iff {l : List (Nat × Nat)} : l.any (·.1 == tag) = true ↔ ∃ a, (tag, a) ∈ l := by
  simp [List.any_eq_true]

theorem Dev.quarantineEnd_of_held (hq : ∃ a, (tag, a) ∈ (d.head h).quar) :
    d.quarantineEnd h tag = (d.modHead h fun y => { y with quar := y.quar.filter (·.1 != tag) }).freeTag h tag :=
  if_pos (quar_any_iff.mpr hq)

theorem Dev.quarantineEnd_of_not_held (hq : ∀ a, (tag, a) ∉ (d.head h).quar) : d.quarantineEnd h tag = d :=
  if_neg (mt quar_any_iff.mp (not_exists.mpr hq))

/-- The tag leaves quarantine for the tail of the free pool; the reads stay. -/
theorem Dev.quarantineEnd_frees (hq : ∃ a, (tag, a) ∈ (d.head h).quar) :
    (∀ a, (tag, a) ∉ ((d.quarantineEnd h tag).head h).quar) ∧
      ((d.quarantineEnd h tag).head h).free = (d.head h).free ++ [tag] ∧
      ((d.quarantineEnd h tag).head h).reads = (d.head h).reads ∧ (d.quarantineEnd h tag).regs = d.regs := by
  have hlt : h < d.hp.heads.length := by
    by_contra hge
    obtain ⟨a, ha⟩ := hq
    rw [Dev.head_of_ge (not_lt.mp hge)] at ha
    exact List.not_mem_nil ha
  rw [Dev.quarantineEnd_of_held hq, Dev.freeTag, Dev.head_modHead_self (by simpa [Dev.modHead] using hlt), Dev.head_modHead_self hlt]
  exact ⟨fun a => by simp, rfl, rfl, rfl⟩

/-- Settles O26. -/
theorem hostReadsOfTheDevice : Obligations.HostReadsOfTheDevice := by
  intro s h tag count lower idOk st data hu hh htag hdata
  have hcompletion := exec_readCompletion (h := h) (tag := tag) (idOk := idOk) (count := count) (lower := lower) (st := st)
    (data := data) (by simpa [Instr.wf, hh, htag] using hdata) hu
  have htimeout := exec_completionTimeout (h := h) (tag := tag) (by simp [Instr.wf, hh, htag]) hu
  have hend := exec_tagQuarantineEnd (h := h) (tag := tag) (by simp [Instr.wf, hh, htag]) hu
  refine ⟨fun x hx => ?outstanding, fun hx => ?noRead, fun hq => ?release, fun hq => ?notHeld⟩
  case outstanding =>
    intro left agrees ended
    have haccept (ha : agrees) : exec (.readCompletion h tag idOk count lower st data) s =
        .next (s.finish (s.dev.acceptCompletion h tag x st data)) := by rw [hcompletion, Dev.readCompletion_of_agrees hx ha]
    have hgot (hok : st = .ok) (ha : agrees) : 0 < left := by
      obtain ⟨-, -, -, hbytes⟩ := ha
      exact (hbytes hok).1.trans_le (hbytes hok).2
    refine ⟨fun ha hok hlen => ?some, fun ha hok hlen => ?all, fun ha hp => ?poisoned, fun ha hok hp => ?failed,
      fun ha => ?late, ?timeout⟩
    case some =>
      rw [haccept ha, hok, Dev.acceptCompletion, if_pos (by rw [List.length_append]; omega)]
    case all =>
      have := hgot hok ha
      rw [haccept ha, hok, Dev.acceptCompletion, if_neg (by rw [List.length_append]; omega)]
      rfl
    case poisoned => rw [haccept ha, hp]; rfl
    case failed =>
      rw [haccept ha]
      cases st with
      | ok => exact absurd rfl hok
      | poisoned => exact absurd rfl hp
      | unsupported => rfl
      | abort => rfl
    case late => rw [hcompletion, Dev.readCompletion_of_not_agrees hx ha]
    case timeout => rw [htimeout, Dev.completionTimeout_of_read hx]
  case noRead =>
    refine ⟨fun q hq => ?_, fun hq => ?_, ?_⟩
    · rw [hcompletion, Dev.readCompletion_of_quarantine hx hq]
    · rw [hcompletion, Dev.readCompletion_of_free hx hq]
    · rw [htimeout, Dev.completionTimeout_of_none hx]
  case release => exact ⟨_, hend, Dev.quarantineEnd_frees hq⟩
  case notHeld => rw [hend, Dev.quarantineEnd_of_not_held hq]

end Sys2Proof.Machine
end

section
/-! SUPPORT. HP_STAT of a head: the fields that `headView` forms, and those that it leaves. -/

namespace Sys2Proof.Machine

variable (d : Dev) (h : Nat)

theorem headReg_offset_ge : 0x200100 ≤ (headReg h).offset := by simp only [headReg, Reg.offset]; omega

/-- `headView` writes MLD and MEMOPEN of HP_STAT, where the link is up. -/
theorem Dev.headView_cases : d.headView h = d ∨ ∃ mld mem, d.headView h =
    (d.setFlag (headReg h) F.hpStat_MLD mld).setFlag (headReg h) F.hpStat_MEMOPEN mem := by
  unfold Dev.headView
  split
  · exact .inl rfl
  · exact .inr ⟨_, _, rfl⟩

theorem Dev.keepsRegs_headView : d.keepsRegs (d.headView h) [headReg h] := by
  rcases d.headView_cases h with e | ⟨mld, mem, e⟩ <;> rw [e]
  · exact d.keepsRegs_refl _
  · exact ((d.keepsRegs_refl _).setFlag (by simp) _ _).setFlag (by simp) _ _

/-- The other fields of HP_STAT stay. -/
theorem Dev.fld_headView {g : Fld} (h64 : g.hi < 64) (hg : g.hi < 25 ∨ 26 < g.lo) :
    (d.headView h).fld (headReg h) g = d.fld (headReg h) g := by
  rcases d.headView_cases h with e | ⟨mld, mem, e⟩
  · rw [e]
  · rw [e, Dev.fld_setFlag_field _ _ _ (by decide) h64 (by simp only [F.hpStat_MEMOPEN]; omega),
      Dev.fld_setFlag_field _ _ _ (by decide) h64 (by simp only [F.hpStat_MLD]; omega)]

@[simp] theorem Dev.headView_hp : (d.headView h).hp = d.hp := by
  rcases d.headView_cases h with e | ⟨mld, mem, e⟩
  · rw [e]
  · rw [e, Dev.setFlag_hp, Dev.setFlag_hp]

end Sys2Proof.Machine
end

section
/-! SUPPORT. Bindings of logical devices (R84) and media ready (R88). -/

namespace Sys2Proof.Machine

variable {d : Dev} {n : Nat}

/-- Another LD is bound to the head of LD `n` with its LD-ID. -/
def Dev.ldIdTaken (d : Dev) (n : Nat) : Prop :=
  ∃ k < 16, k ≠ n ∧ d.bound k = true ∧ d.ldHead k = d.ldHead n ∧ d.ldId k = d.ldId n

/-- LD `n` has a committed decoder or an enabled ring. -/
def Dev.ldInUse (d : Dev) (n : Nat) : Prop :=
  ∃ i < 8, (d.hdm n i).committed = true ∨ d.crEn n i = true ∨ d.cqEn n i = true

theorem Dev.ldIdTaken_iff :
    ((List.range 16).any fun k => k != n && d.bound k && d.ldHead k == d.ldHead n && d.ldId k == d.ldId n) = true ↔
      d.ldIdTaken n := by
  simp [Dev.ldIdTaken, and_assoc]

theorem Dev.ldInUse_iff :
    (((List.range 8).any fun i => (d.hdm n i).committed) || ((List.range 8).any fun r => d.crEn n r || d.cqEn n r)) = true ↔
      d.ldInUse n := by
  simp [Dev.ldInUse, and_or_left, exists_or]

/-- EN is written, and HP_STAT of the LD's head is formed anew. -/
def Dev.setBound (d : Dev) (n : Nat) (b : Bool) : Dev := (d.setFlag (.gblLdbind n) F.gblLdbind_EN b).headView (d.ldHead n)

theorem Dev.bound_setBound (hn : n < 16) (b : Bool) : (d.setBound n b).bound n = b := by
  have hne : ∀ r ∈ [headReg (d.ldHead n)], r.offset ≠ (Reg.gblLdbind n).offset := by
    have := headReg_offset_ge (d.ldHead n)
    simp only [List.mem_singleton, forall_eq, Reg.offset] at this ⊢
    omega
  exact (congrArg (· != 0) ((Dev.keepsRegs_headView _ _).fld hne _)).trans (Dev.flag_setFlag_self _ _ b (by decide) (by decide))

theorem Dev.keepsRegs_setBound (b : Bool) : d.keepsRegs (d.setBound n b) [.gblLdbind n, headReg (d.ldHead n)] :=
  Dev.keepsRegs.trans_cons ((d.keepsRegs_refl _).setFlag (by simp) _ _) (Dev.keepsRegs_headView _ _)

/-- A refusal sets ERR and leaves EN. -/
theorem Dev.bindErr_sets : (d.setFlag (.gblLdbind n) F.gblLdbind_ERR true).bound n = d.bound n ∧
    (d.setFlag (.gblLdbind n) F.gblLdbind_ERR true).flag (.gblLdbind n) F.gblLdbind_ERR = true ∧
    d.keepsRegs (d.setFlag (.gblLdbind n) F.gblLdbind_ERR true) [.gblLdbind n] :=
  ⟨Dev.flag_setFlag_field _ _ _ (by decide) (by decide) (by decide), Dev.flag_setFlag_self _ _ _ (by decide) (by decide),
    (d.keepsRegs_refl _).setFlag (by simp) _ _⟩

theorem Dev.bindEnable_of_bound (h : d.bound n = true) : d.bindEnable n = d := by simp [Dev.bindEnable, h]

theorem Dev.bindEnable_of_taken (h : d.bound n = false) (ht : d.ldIdTaken n) :
    d.bindEnable n = d.setFlag (.gblLdbind n) F.gblLdbind_ERR true := by
  simp only [Dev.bindEnable, h, Bool.false_eq_true, if_false, if_pos (Dev.ldIdTaken_iff.mpr ht)]

theorem Dev.bindEnable_of_not_taken (h : d.bound n = false) (ht : ¬ d.ldIdTaken n) : d.bindEnable n = d.setBound n true := by
  simp only [Dev.bindEnable, h, Bool.false_eq_true, if_false, if_neg (mt Dev.ldIdTaken_iff.mp ht), Dev.setBound]

theorem Dev.bindDisable_of_unbound (h : d.bound n = false) : d.bindDisable n = d := by simp [Dev.bindDisable, h]

theorem Dev.bindDisable_of_inUse (h : d.bound n = true) (hu : d.ldInUse n) :
    d.bindDisable n = d.setFlag (.gblLdbind n) F.gblLdbind_ERR true := by
  simp only [Dev.bindDisable, h, Bool.not_true, Bool.false_eq_true, if_false, if_pos (Dev.ldInUse_iff.mpr hu)]

theorem Dev.bindDisable_of_not_inUse (h : d.bound n = true) (hu : ¬ d.ldInUse n) : d.bindDisable n = d.setBound n false := by
  simp only [Dev.bindDisable, h, Bool.not_true, Bool.false_eq_true, if_false, if_neg (mt Dev.ldInUse_iff.mp hu), Dev.setBound]

theorem Dev.mediaReady_eq (hn : n < 16) : d.mediaReady n =
    if (d.flag .gblBoot F.gblBoot_DRAM_READY && d.storageReady n) = true then
      d.modHp fun x => { x with memActive := x.memActive.set n true }
    else d := by
  simp only [Dev.mediaReady, hn, true_and, Bool.and_eq_true]

section
variable {s : State} (hn : n < 16) (h : s.reaches (.gblLdbind n))
include hn h

theorem exec_ldbindEnable_reached : exec (.ldbindEnable n) s = .next (s.settle (s.dev.bindEnable n)) := by
  rw [exec_ldbindEnable (by simpa [Instr.wf] using hn) h.1, Dev.viaReg_of_reaches h (.inl (by simp only [Reg.offset]; omega))]

theorem exec_ldbindDisable_reached : exec (.ldbindDisable n) s = .next (s.settle (s.dev.bindDisable n)) := by
  rw [exec_ldbindDisable (by simpa [Instr.wf] using hn) h.1, Dev.viaReg_of_reaches h (.inl (by simp only [Reg.offset]; omega))]

end

/-- Settles O24. -/
theorem bindingsAndMedia : Obligations.BindingsAndMedia := by
  intro s n hn
  refine ⟨fun h => ?bindings, fun hu => ?media⟩
  case bindings =>
    have henable := exec_ldbindEnable_reached hn h
    have hdisable := exec_ldbindDisable_reached hn h
    obtain ⟨hen, herr, hkeep⟩ := s.dev.bindErr_sets (n := n)
    refine ⟨fun hb ht => ?binds, fun hb ht => ?taken, fun hb => ?isBound, fun hb hd hr => ?unbinds, fun hb hu => ?inUse,
      fun hb => ?isUnbound⟩
    case binds =>
      have hfree : ¬ s.dev.ldIdTaken n := fun ⟨k, hk, hne, hsame⟩ => ht k hk hne hsame
      exact ⟨_, henable.trans (by rw [Dev.bindEnable_of_not_taken hb hfree]), Dev.bound_setBound hn true, Dev.keepsRegs_setBound true⟩
    case taken => exact ⟨_, henable.trans (by rw [Dev.bindEnable_of_taken hb ht]), hen.trans hb, herr, hkeep⟩
    case isBound => rw [henable, Dev.bindEnable_of_bound hb]
    case unbinds =>
      have hidle : ¬ s.dev.ldInUse n := by
        rintro ⟨i, hi, hc | hc | hc⟩
        · simp [hd i hi] at hc
        · simp [(hr i hi).1] at hc
        · simp [(hr i hi).2] at hc
      exact ⟨_, hdisable.trans (by rw [Dev.bindDisable_of_not_inUse hb hidle]), Dev.bound_setBound hn false,
        Dev.keepsRegs_setBound false⟩
    case inUse => exact ⟨_, hdisable.trans (by rw [Dev.bindDisable_of_inUse hb hu]), hen.trans hb, herr, hkeep⟩
    case isUnbound => rw [hdisable, Dev.bindDisable_of_unbound hb]
  case media =>
    have hexec := exec_mediaReady (n := n) (by simpa [Instr.wf] using hn) hu
    rw [Dev.mediaReady_eq hn] at hexec
    intro ready
    exact ⟨fun hready => ⟨_, hexec.trans (by rw [if_pos hready]), rfl⟩,
      fun hready => hexec.trans (by rw [if_neg (Bool.eq_false_iff.mp hready)])⟩

end Sys2Proof.Machine
end

section
/-! SUPPORT. An event offered to a crossing (R44): it changes the crossings, and where it finds its kind pending, the overrun flag. -/

namespace Sys2Proof.Machine

variable (d : Dev) (x : XId)

@[simp] theorem Dev.overrun_home : (d.overrun x).home = d.home := by
  rcases d.setCross_cases (islandReg x.island) x.bit with e | ⟨c, e⟩ <;> rw [Dev.overrun, e]
  · rfl
  · rw [Dev.raise_home]; rfl

@[simp] theorem Dev.overrun_cip : (d.overrun x).cip = d.cip := by
  rcases d.setCross_cases (islandReg x.island) x.bit with e | ⟨c, e⟩ <;> rw [Dev.overrun, e]
  · rfl
  · rw [Dev.raise_cip]; rfl

theorem Dev.offerEvent_cases (k : Nat) : d.offerEvent x k = d ∨ ∃ v, d.offerEvent x k = d.setXevt x v ∨
    d.offerEvent x k = (d.setXevt x v).overrun x := by
  unfold Dev.offerEvent
  dsimp only
  split
  · exact .inl rfl
  · split
    · exact .inr ⟨_, .inl rfl⟩
    · split
      · exact .inr ⟨_, .inr rfl⟩
      · exact .inr ⟨_, .inl rfl⟩

@[simp] theorem Dev.offerEvent_hp (k : Nat) : (d.offerEvent x k).hp = d.hp := by
  rcases d.offerEvent_cases x k with e | ⟨v, e | e⟩ <;> rw [e]
  · rfl
  · rw [Dev.overrun_hp]; rfl

@[simp] theorem Dev.offerEvent_home (k : Nat) : (d.offerEvent x k).home = d.home := by
  rcases d.offerEvent_cases x k with e | ⟨v, e | e⟩ <;> rw [e]
  · rfl
  · rw [Dev.overrun_home]; rfl

@[simp] theorem Dev.offerEvent_cip (k : Nat) : (d.offerEvent x k).cip = d.cip := by
  rcases d.offerEvent_cases x k with e | ⟨v, e | e⟩ <;> rw [e]
  · rfl
  · rw [Dev.overrun_cip]; rfl

theorem Dev.hdm_of_hdm_eq {d e : Dev} (h : e.hp.hdm = d.hp.hdm) (n i : Nat) : e.hdm n i = d.hdm n i := by
  simp only [Dev.hdm, h]

theorem Dev.keepsRegs_offerEvent (k : Nat) : d.keepsRegs (d.offerEvent x k) [islandReg x.island] := by
  rcases d.offerEvent_cases x k with e | ⟨v, e | e⟩ <;> rw [e]
  · exact d.keepsRegs_refl _
  · exact Dev.keepsRegs_of_regs_eq rfl
  · exact ((d.setXevt x v).overrun_sets x).2

end Sys2Proof.Machine
end

section
/-! SUPPORT. Resets of logical devices (R103 to R105, Table 4.15): the decoders that a reset uncommits, and the LD that is in reset. -/

namespace Sys2Proof.Machine

/-- A decoder that a reset has uncommitted. -/
def HdmDec.uncommitted (x : HdmDec) : HdmDec := { x with commit := false, committed := false, err := false }

variable (d : Dev) {n m i k : Nat}

/-- One decoder is uncommitted. -/
def Dev.uncommitHdm (n : Nat) (d : Dev) (i : Nat) : Dev := d.setHdm n i (d.hdm n i).uncommitted

theorem Dev.hdm_uncommitHdm (hi : i < 8) (hk : k < 8) :
    (d.uncommitHdm n i).hdm m k = if m = n ∧ k = i then (d.hdm m k).uncommitted else d.hdm m k := by
  by_cases h : m = n ∧ k = i
  · obtain ⟨rfl, rfl⟩ := h
    rw [if_pos ⟨rfl, rfl⟩, Dev.uncommitHdm, Dev.hdm_setHdm_self]
  · rw [if_neg h, Dev.uncommitHdm, Dev.hdm_setHdm_other _ _ (by omega) hi hk]

/-- Of the decoders of a list, those of LD `n` are uncommitted. -/
theorem Dev.hdm_foldl_uncommitHdm (hk : k < 8) {l : List Nat} (hl : ∀ i ∈ l, i < 8) :
    (l.foldl (Dev.uncommitHdm n) d).hdm m k = if m = n ∧ k ∈ l then (d.hdm m k).uncommitted else d.hdm m k := by
  induction l generalizing d with
  | nil => simp
  | cons i l ih =>
    rw [List.foldl_cons, ih _ fun j hj => hl j (List.mem_cons_of_mem _ hj), d.hdm_uncommitHdm (hl i List.mem_cons_self) hk]
    by_cases hm : m = n <;> by_cases hki : k = i <;> by_cases hkl : k ∈ l <;> simp [hm, hki, hkl, HdmDec.uncommitted]

theorem Dev.uncommitAll_eq : d.uncommitAll n = (List.range 8).foldl (Dev.uncommitHdm n) d := rfl

theorem Dev.hdm_uncommitAll_self (hi : i < 8) : (d.uncommitAll n).hdm n i = (d.hdm n i).uncommitted := by
  rw [d.uncommitAll_eq, d.hdm_foldl_uncommitHdm hi fun _ => List.mem_range.mp, if_pos ⟨rfl, List.mem_range.mpr hi⟩]

theorem Dev.hdm_uncommitAll_other (h : m ≠ n) (hi : i < 8) : (d.uncommitAll n).hdm m i = d.hdm m i := by
  rw [d.uncommitAll_eq, d.hdm_foldl_uncommitHdm hi fun _ => List.mem_range.mp, if_neg fun hm => h hm.1]

@[simp] theorem Dev.uncommitAll_regs : (d.uncommitAll n).regs = d.regs := 
  foldl_keeps Dev.regs (f := Dev.uncommitHdm n) (fun _ _ => rfl) _ _

@[simp] theorem Dev.uncommitAll_heads : (d.uncommitAll n).hp.heads = d.hp.heads :=
  foldl_keeps (fun e : Dev => e.hp.heads) (f := Dev.uncommitHdm n) (fun _ _ => rfl) _ _

/-- LD `n` is in reset from now on. -/
def Dev.startReset (n : Nat) : Dev :=
  d.modHp fun x => { x with resetting := if x.resetting.contains n then x.resetting else x.resetting ++ [n] }

theorem Dev.startReset_hdm : (d.startReset n).hp.hdm = d.hp.hdm := rfl
theorem Dev.startReset_home : (d.startReset n).home = d.home := rfl
theorem Dev.startReset_cip : (d.startReset n).cip = d.cip := rfl

theorem Dev.mem_resetting_startReset : n ∈ (d.startReset n).hp.resetting := by
  simp only [Dev.startReset, Dev.modHp]
  split
  · rename_i h; exact List.contains_iff_mem.mp h
  · exact List.mem_append_right _ (List.mem_singleton.mpr rfl)

variable {d}

theorem Dev.flr_of_reached (hn : n < 16) (h : d.reaches (d.ldHead n) n = true) :
    d.flr n = (d.startReset n).offerEvent (.headEvt (d.ldHead n)) (3 + 2 * n) := if_pos ⟨hn, h⟩

theorem Dev.cxlReset_of_reached (hn : n < 16) (h : d.reaches (d.ldHead n) n = true) : d.cxlReset n =
    ((d.uncommitAll n).startReset n).offerEvent (.headEvt ((d.uncommitAll n).ldHead n)) (4 + 2 * n) := if_pos ⟨hn, h⟩

theorem Dev.flr_of_unreached (h : d.reaches (d.ldHead n) n = false) : d.flr n = d := if_neg (by simp [h])
theorem Dev.cxlReset_of_unreached (h : d.reaches (d.ldHead n) n = false) : d.cxlReset n = d := if_neg (by simp [h])

/-- Settles O22. -/
theorem deviceResets : Obligations.DeviceResets := by
  intro s h n hu hh hn
  have hflr := exec_flr (n := n) (by simpa [Instr.wf] using hn) hu
  have hcxl := exec_cxlReset (n := n) (by simpa [Instr.wf] using hn) hu
  refine ⟨fun hreach => ⟨?flr, ?cxl⟩, fun hdown => ?unreached, ?delivery, ?complete⟩
  case flr =>
    rw [Dev.flr_of_reached hn hreach] at hflr
    refine ⟨_, hflr, ?_, ?_, ?_, ?_⟩
    · rw [Dev.offerEvent_hp]; exact s.dev.mem_resetting_startReset
    · rw [Dev.offerEvent_hp, Dev.startReset_hdm]
    · rw [Dev.offerEvent_home, Dev.startReset_home]
    · rw [Dev.offerEvent_cip, Dev.startReset_cip]
  case cxl =>
    rw [Dev.cxlReset_of_reached hn hreach] at hcxl
    have hhdm (m i : Nat) : (((s.dev.uncommitAll n).startReset n).offerEvent (.headEvt ((s.dev.uncommitAll n).ldHead n))
        (4 + 2 * n)).hdm m i = (s.dev.uncommitAll n).hdm m i :=
      Dev.hdm_of_hdm_eq (by rw [Dev.offerEvent_hp, Dev.startReset_hdm]) m i
    refine ⟨_, hcxl, ?_, fun i hi => ?_, fun m i _ hi hm => ?_⟩
    · rw [Dev.offerEvent_hp]; exact (s.dev.uncommitAll n).mem_resetting_startReset
    · rw [hhdm, Dev.hdm_uncommitAll_self _ hi]; exact ⟨rfl, rfl⟩
    · rw [hhdm, Dev.hdm_uncommitAll_other _ hm hi]
  case unreached => exact ⟨hflr.trans (by rw [Dev.flr_of_unreached hdown]), hcxl.trans (by rw [Dev.cxlReset_of_unreached hdown])⟩
  case delivery => exact exec_headResetDelivery (by simpa [Instr.wf] using hh) hu
  case complete =>
    exact ⟨_, exec_flrComplete (n := n) (by simpa [Instr.wf] using hn) hu, by simp [Dev.flrComplete, Dev.modHp], rfl, rfl⟩

end Sys2Proof.Machine
end

section
/-! SUPPORT. Links of heads (R79 to R82, R103, Table 4.1): what the end of training leaves in HP_STAT and in the head, and what a reset
or a link-down takes away. -/

namespace Sys2Proof.Machine

/-! ### The end of training -/

/-- The head is there and may train, on a single device whose links are open. -/
def Dev.mayTrain (d : Dev) (h : Nat) : Prop :=
  d.headThere h = true ∧ (d.head h).perst = false ∧ d.mgt.linksOn = true ∧ d.role = 0

/-- The protocol that both ends offer; a retrain keeps the one negotiated (log entry 53). -/
def Dev.linkProto (d : Dev) (h : Nat) (nego : Bool) (proto : Nat) : Nat :=
  if d.headUp h then (d.head h).negotiated else if nego && !d.inHold then min proto (d.offers h).2 else 0

/-- The rate that both ends offer and protocol `p` carries. -/
def Dev.linkRate (d : Dev) (h p rate : Nat) : Nat :=
  if p = 1 ∨ p = 2 then min (min rate (d.offers h).1) 4 else min rate (d.offers h).1

def Dev.linkLanes (d : Dev) (h width : Nat) : Nat := min width (if d.hp.split.getD (h / 2) false then 8 else 16)

/-- HP_STAT of a link that is up. -/
def Dev.showLink (d : Dev) (h proto rate lanes : Nat) (flit256 : Bool) : Dev :=
  ((((d.setFlag (headReg h) F.hpStat_UP true).setFld (headReg h) F.hpStat_PROTO proto).setFld (headReg h) F.hpStat_RATE rate).setFld
    (headReg h) F.hpStat_WIDTH lanes).setFlag (headReg h) F.hpStat_FLIT256 flit256

/-- What the head takes over from negotiation and the host; a retrain keeps what it has (log entry 53). -/
def Dev.takeLink (d : Dev) (h : Nat) (again : Bool) (p credits : Nat) : Dev :=
  if again then d else d.modHead h fun y => { y with negotiated := p, credits := credits }

/-- The CDAT of every LD of the head follows its link. -/
def Dev.cdatFollows (d : Dev) (h : Nat) : Dev := (d.ldsOf h).foldl Dev.cdatRebuild d

/-- HP_STAT of a link trained to rate `r` with protocol `p`, which 2.5 and 5 GT/s do not carry. -/
def Dev.showTrained (d : Dev) (h p r lanes : Nat) (flit256 : Bool) : Dev :=
  d.showLink h (if r < 2 then 0 else p) r lanes (decide (5 ≤ r) || ((if r < 2 then 0 else p) == 3 && flit256))

/-- A head whose training has ended with protocol `p` and rate `r`. -/
def Dev.linkTrained (d : Dev) (h p r lanes : Nat) (flit256 : Bool) (credits : Nat) : Dev :=
  (((d.showTrained h p r lanes flit256).takeLink h (d.headUp h) p credits).headView h).cdatFollows h

section
variable {nego flit256 : Bool} {h proto rate width credits p r lanes : Nat} {d : Dev}

theorem Dev.headLinkUp_of_mayTrain (ht : d.mayTrain h) (hp : d.linkProto h nego proto = p) (hr : d.linkRate h p rate = r) :
    d.headLinkUp h nego proto rate width flit256 credits = d.linkTrained h p r (d.linkLanes h width) flit256 credits := by
  obtain ⟨hthere, hperst, hlinks, hrole⟩ := ht
  have hopen : (!d.headThere h || (d.head h).perst || !d.mgt.linksOn || d.role != 0) = false := by simp [hthere, hperst, hlinks, hrole]
  subst hp hr
  unfold Dev.headLinkUp
  rw [hopen]
  rfl

theorem Dev.headLinkUp_of_not_mayTrain (ht : d.headThere h = false ∨ (d.head h).perst = true ∨ d.mgt.linksOn = false ∨ d.role ≠ 0) :
    d.headLinkUp h nego proto rate width flit256 credits = d :=
  if_pos (by simpa [or_assoc] using ht)

end

/-! What training leaves, field by field. -/

theorem Dev.flag_setFld_field (d : Dev) (r : Reg) {f g : Fld} (x : Nat) (h : f.lo ≤ f.hi) (h64 : g.hi < 64)
    (hd : g.hi < f.lo ∨ f.hi < g.lo) : (d.setFld r f x).flag r g = d.flag r g :=
  congrArg (· != 0) (d.fld_setFld_field r x h h64 hd)

section
variable (d : Dev) (h p r lanes : Nat) (flit256 again : Bool) (credits : Nat)

theorem Dev.keepsRegs_showLink : d.keepsRegs (d.showLink h p r lanes flit256) [headReg h] := by
  have hmem : headReg h ∈ [headReg h] := by simp
  exact (((((d.keepsRegs_refl _).setFlag hmem _ _).setFld hmem _ _).setFld hmem _ _).setFld hmem _ _).setFlag hmem _ _

theorem Dev.showLink_hp : (d.showLink h p r lanes flit256).hp = d.hp := by
  rw [Dev.showLink, Dev.setFlag_hp, Dev.setFld_hp, Dev.setFld_hp, Dev.setFld_hp, Dev.setFlag_hp]

theorem Dev.up_showLink : (d.showLink h p r lanes flit256).flag (headReg h) F.hpStat_UP = true := by
  rw [Dev.showLink, Dev.flag_setFlag_field _ _ _ (by decide) (by decide) (by decide),
    Dev.flag_setFld_field _ _ _ (by decide) (by decide) (by decide), Dev.flag_setFld_field _ _ _ (by decide) (by decide) (by decide),
    Dev.flag_setFld_field _ _ _ (by decide) (by decide) (by decide), Dev.flag_setFlag_self _ _ _ (by decide) (by decide)]

theorem Dev.proto_showLink : (d.showLink h p r lanes flit256).fld (headReg h) F.hpStat_PROTO = p % 2 ^ 3 := by
  rw [Dev.showLink, Dev.fld_setFlag_field _ _ _ (by decide) (by decide) (by decide),
    Dev.fld_setFld_field _ _ _ (by decide) (by decide) (by decide),
    Dev.fld_setFld_field _ _ _ (by decide) (by decide) (by decide), Dev.fld_setFld_self _ _ _ (by decide) (by decide)]
  rfl

theorem Dev.rate_showLink : (d.showLink h p r lanes flit256).fld (headReg h) F.hpStat_RATE = r % 2 ^ 4 := by
  rw [Dev.showLink, Dev.fld_setFlag_field _ _ _ (by decide) (by decide) (by decide),
    Dev.fld_setFld_field _ _ _ (by decide) (by decide) (by decide), Dev.fld_setFld_self _ _ _ (by decide) (by decide)]
  rfl

theorem Dev.width_showLink : (d.showLink h p r lanes flit256).fld (headReg h) F.hpStat_WIDTH = lanes % 2 ^ 5 := by
  rw [Dev.showLink, Dev.fld_setFlag_field _ _ _ (by decide) (by decide) (by decide),
    Dev.fld_setFld_self _ _ _ (by decide) (by decide)]
  rfl

theorem Dev.flit256_showLink : (d.showLink h p r lanes flit256).flag (headReg h) F.hpStat_FLIT256 = flit256 :=
  Dev.flag_setFlag_self _ _ _ (by decide) (by decide)

theorem Dev.takeLink_regs : (d.takeLink h again p credits).regs = d.regs := by unfold Dev.takeLink; split <;> rfl

theorem Dev.cdatFollows_regs : (d.cdatFollows h).regs = d.regs := foldl_keeps Dev.regs (f := Dev.cdatRebuild) (fun _ _ => rfl) _ _

theorem Dev.cdatFollows_heads : (d.cdatFollows h).hp.heads = d.hp.heads :=
  foldl_keeps (fun e : Dev => e.hp.heads) (f := Dev.cdatRebuild) (fun _ _ => rfl) _ _

/-- HP_STAT shows the link; MLD and MEMOPEN follow from the rest. -/
theorem Dev.fld_linkTrained {g : Fld} (h64 : g.hi < 64) (hg : g.hi < 25 ∨ 26 < g.lo) :
    (d.linkTrained h p r lanes flit256 credits).fld (headReg h) g =
      (d.showTrained h p r lanes flit256).fld (headReg h) g := by
  rw [Dev.linkTrained, Dev.fld_of_regs_eq (Dev.cdatFollows_regs _ _), Dev.fld_headView _ _ h64 hg,
    Dev.fld_of_regs_eq (Dev.takeLink_regs _ _ _ _ _)]

theorem Dev.flag_linkTrained {g : Fld} (h64 : g.hi < 64) (hg : g.hi < 25 ∨ 26 < g.lo) :
    (d.linkTrained h p r lanes flit256 credits).flag (headReg h) g =
      (d.showTrained h p r lanes flit256).flag (headReg h) g :=
  congrArg (· != 0) (d.fld_linkTrained h p r lanes flit256 credits h64 hg)

theorem Dev.keepsRegs_linkTrained : d.keepsRegs (d.linkTrained h p r lanes flit256 credits) [headReg h] := by
  have hshow : d.keepsRegs ((d.showTrained h p r lanes flit256).takeLink h (d.headUp h) p credits) [headReg h] :=
    (d.keepsRegs_showLink h _ r lanes _).regs_eq (Dev.takeLink_regs _ h p _ credits)
  exact fun q hq => ((Dev.keepsRegs_headView _ h).regs_eq (Dev.cdatFollows_regs _ h) q hq).trans (hshow q hq)

theorem Dev.heads_linkTrained : (d.linkTrained h p r lanes flit256 credits).hp.heads = if d.headUp h then d.hp.heads
    else (d.modHead h fun y => { y with negotiated := p, credits := credits }).hp.heads := by
  rw [Dev.linkTrained, Dev.cdatFollows_heads, Dev.headView_hp, Dev.takeLink]
  cases d.headUp h <;> simp [Dev.modHead, Dev.showTrained, Dev.showLink_hp]

end

/-! ### Resets and link-downs -/

section
variable (d : Dev) (h kind : Nat)

theorem islandReg_headEvt (hh : h < 8) : islandReg (XId.headEvt h).island = .crossHead h := if_pos hh

theorem crossHead_ne_headReg : (Reg.crossHead h).offset ≠ (headReg h).offset := by
  simp only [headReg, Reg.offset]; omega

theorem Dev.headDown_down : (d.headDown h).headUp h = false ∧ (d.headDown h).memOpen h = false ∧
    (d.headDown h).flag (headReg h) F.hpStat_IDE = false := by
  refine ⟨?_, ?_, ?_⟩
  · rw [Dev.headUp, Dev.headDown, Dev.modHead_flag, Dev.flag_setFlag_field _ _ _ (by decide) (by decide) (by decide),
      Dev.flag_setFlag_field _ _ _ (by decide) (by decide) (by decide), Dev.flag_setFlag_self _ _ _ (by decide) (by decide)]
  · rw [Dev.memOpen, Dev.headDown, Dev.modHead_flag, Dev.flag_setFlag_field _ _ _ (by decide) (by decide) (by decide),
      Dev.flag_setFlag_self _ _ _ (by decide) (by decide)]
  · rw [Dev.headDown, Dev.modHead_flag, Dev.flag_setFlag_self _ _ _ (by decide) (by decide)]

@[simp] theorem Dev.splitTakes_regs : (d.splitTakes h).regs = d.regs := by unfold Dev.splitTakes; split <;> rfl
@[simp] theorem Dev.splitTakes_heads : (d.splitTakes h).hp.heads = d.hp.heads := by unfold Dev.splitTakes; split <;> rfl

/-- Behind the link, a reset reaches the decoders, the event crossing with its overrun flag, and a port's split alone. -/
theorem Dev.keepsRegs_headReset : (d.headDown h).keepsRegs (d.headReset h kind) [islandReg (XId.headEvt h).island] := by
  have hldsOf := foldl_keeps Dev.regs (f := Dev.uncommitAll) (fun e _ => e.uncommitAll_regs) ((d.headDown h).ldsOf h) (d.headDown h)
  exact fun q hq => ((Dev.keepsRegs_offerEvent _ _ kind).regs_eq (Dev.splitTakes_regs _ _) q hq).trans
    (Dev.keepsRegs_of_regs_eq hldsOf q hq)

theorem Dev.heads_headReset : (d.headReset h kind).hp.heads = (d.headDown h).hp.heads := by
  rw [Dev.headReset, Dev.splitTakes_heads, Dev.offerEvent_hp]
  exact foldl_keeps (fun e : Dev => e.hp.heads) (f := Dev.uncommitAll) (fun e _ => e.uncommitAll_heads) _ _

theorem Dev.flag_headReset (hh : h < 8) (g : Fld) : (d.headReset h kind).flag (headReg h) g = (d.headDown h).flag (headReg h) g :=
  congrArg (· != 0) ((d.keepsRegs_headReset h kind).fld (by simpa [islandReg_headEvt h hh] using crossHead_ne_headReg h) g)

/-- A reset or a link-down takes the link down, closes CXL.mem and ends IDE. -/
theorem Dev.headReset_down (hh : h < 8) : (d.headReset h kind).headUp h = false ∧ (d.headReset h kind).memOpen h = false ∧
    (d.headReset h kind).flag (headReg h) F.hpStat_IDE = false := by
  simpa only [Dev.headUp, Dev.memOpen, d.flag_headReset h kind hh] using d.headDown_down h

end

section
variable {d : Dev} {h : Nat}

theorem Dev.perstAssert_of_asserted (hp : (d.head h).perst = true) : d.perstAssert h = d := if_pos (by simp [hp])

theorem Dev.perstAssert_of_closed (hh : h < 8) (hp : (d.head h).perst = false) (hl : d.mgt.linksOn = false) :
    d.perstAssert h = d.modHead h fun y => { y with perst := true } := by
  simp [Dev.perstAssert, hp, hh, hl]

/-- PERST_N of a head that may train resets it. -/
theorem Dev.perstAssert_of_mayTrain (hh : h < 8) (ht : d.mayTrain h) :
    d.perstAssert h = (d.modHead h fun y => { y with perst := true }).headReset h 0 := by
  obtain ⟨hthere, hperst, hlinks, hrole⟩ := ht
  have hrole' : (d.modHead h fun y => { y with perst := true }).role = 0 := hrole
  have hthere' : (d.modHead h fun y => { y with perst := true }).headThere h = true := hthere
  simp [Dev.perstAssert, hperst, hh, hlinks, hrole', hthere']

theorem Dev.heads_perst_headReset : ((d.modHead h fun y => { y with perst := true }).headReset h 0).hp.heads =
    (d.modHead h fun y => { y with perst := true, ide := y.ide.map fun x => { x with secure := false } }).hp.heads := by
  rw [Dev.heads_headReset]
  exact List.modify_modify_eq _ _ _ _

theorem Dev.hotReset_of_up (hu : d.headUp h = true) : d.hotReset h = d.headReset h 1 := if_pos hu
theorem Dev.hotReset_of_down (hu : d.headUp h = false) : d.hotReset h = d := if_neg (by simp [hu])
theorem Dev.hostLinkDown_of_up (hu : d.headUp h = true) : d.hostLinkDown h = d.headReset h 2 := if_pos hu
theorem Dev.hostLinkDown_of_down (hu : d.headUp h = false) : d.hostLinkDown h = d := if_neg (by simp [hu])

end

/-- Settles O21. -/
theorem headLinks : Obligations.HeadLinks := by
  intro s h hu hh
  have hassert := exec_perstNAssert (h := h) (by simpa [Instr.wf] using hh) hu
  have hreset := exec_hotReset (h := h) (by simpa [Instr.wf] using hh) hu
  have hdown := exec_linkDown (h := h) (by simpa [Instr.wf] using hh) hu
  refine ⟨fun nego proto rate width flit256 credits hproto hrate hwidth hthere hperst hlinks hrole => ?train,
    fun nego proto rate width flit256 credits hproto hrate hwidth hno => ?noTrain, fun p hp => ?down,
    fun hlinks hrole hthere hperst => ?perst, fun hlinks hperst => ?level, fun hperst => ?asserted, ?release⟩
  case train =>
    intro again p both r hp
    have hexec := exec_headLinkUp (h := h) (nego := nego) (proto := proto) (rate := rate) (width := width) (flit256 := flit256)
      (credits := credits) (by simpa [Instr.wf, hh, hproto, hrate] using hwidth) hu
    rw [Dev.headLinkUp_of_mayTrain (p := p) (r := r) ⟨hthere, hperst, hlinks, hrole⟩ rfl rfl] at hexec
    have hr : r < 7 := by
      have : r ≤ rate := by simp only [r, both]; split <;> omega
      omega
    refine ⟨_, hexec, ?_, ?_, ?_, ?_, ?_, Dev.heads_linkTrained _ _ _ _ _ _ _, Dev.keepsRegs_linkTrained _ _ _ _ _ _ _⟩
    · rw [Dev.headUp, Dev.flag_linkTrained _ _ _ _ _ _ _ (by decide) (by decide), Dev.showTrained, Dev.up_showLink]
    · rw [Dev.fld_linkTrained _ _ _ _ _ _ _ (by decide) (by decide), Dev.showTrained, Dev.rate_showLink]
      omega
    · rw [Dev.proto, Dev.fld_linkTrained _ _ _ _ _ _ _ (by decide) (by decide), Dev.showTrained, Dev.proto_showLink]
      split <;> omega
    · rw [Dev.fld_linkTrained _ _ _ _ _ _ _ (by decide) (by decide), Dev.showTrained, Dev.width_showLink, Dev.linkLanes]
      split <;> omega
    · rw [Dev.flag_linkTrained _ _ _ _ _ _ _ (by decide) (by decide), Dev.showTrained, Dev.flit256_showLink]
      by_cases h2 : r < 2
      · simp [h2]
      · simp [h2, not_lt.mp h2]
  case noTrain =>
    rw [exec_headLinkUp (by simpa [Instr.wf, hh, hproto, hrate] using hwidth) hu, Dev.headLinkUp_of_not_mayTrain hno]
  case down =>
    rcases List.mem_pair.mp hp with rfl | rfl
    · exact ⟨fun hup => ⟨_, hreset.trans (by rw [Dev.hotReset_of_up hup]), rfl, s.dev.headReset_down h 1 hh⟩,
        fun hup => hreset.trans (by rw [Dev.hotReset_of_down hup])⟩
    · exact ⟨fun hup => ⟨_, hdown.trans (by rw [Dev.hostLinkDown_of_up hup]), rfl, s.dev.headReset_down h 2 hh⟩,
        fun hup => hdown.trans (by rw [Dev.hostLinkDown_of_down hup])⟩
  case perst =>
    obtain ⟨hup, hmem, -⟩ := (s.dev.modHead h fun y => { y with perst := true }).headReset_down h 0 hh
    rw [Dev.perstAssert_of_mayTrain hh ⟨hthere, hperst, hlinks, hrole⟩] at hassert
    exact ⟨_, hassert, hup, hmem, Dev.heads_perst_headReset⟩
  case level => rw [hassert, Dev.perstAssert_of_closed hh hperst hlinks]
  case asserted => rw [hassert, Dev.perstAssert_of_asserted hperst]
  case release => exact exec_perstNRelease (by simpa [Instr.wf] using hh) hu

end Sys2Proof.Machine
end

section
/-! SUPPORT. Link encryption (R97): a key for a stream, a check that fails, and the head loss of R140 that follows, which leaves every
register but HOME_LDSTAT, the heads and what has been sent. -/

namespace Sys2Proof.Machine

/-! ### What holders that do not answer leave alone -/

/-- The main die but its homes and cipher units. -/
def Dev.beside (d : Dev) : Dev := { d with home := {}, cip := {} }

section
variable (d : Dev) (line ld : Nat)

theorem Dev.hp_of_beside {d e : Dev} (h : e.beside = d.beside) : e.hp = d.hp := (congrArg Dev.hp h :)
theorem Dev.regs_of_beside {d e : Dev} (h : e.beside = d.beside) : e.regs = d.regs := (congrArg Dev.regs h :)
theorem Dev.out_of_beside {d e : Dev} (h : e.beside = d.beside) : e.out = d.out := (congrArg Dev.out h :)

@[simp] theorem Dev.modHome_beside (f : Home → Home) : (d.modHome f).beside = d.beside := rfl
@[simp] theorem Dev.modEnt_beside (f : DirEnt → DirEnt) : (d.modEnt line f).beside = d.beside := rfl
@[simp] theorem Dev.dropSw_beside : (d.dropSw line).beside = d.beside := rfl

@[simp] theorem Dev.settleEnt_beside : (d.settleEnt line).beside = d.beside := by
  unfold Dev.settleEnt
  split
  · split <;> rfl
  · rfl

@[simp] theorem Dev.lineOut_beside (own : AccOwner) (x : Line) (poison : Bool) : (d.lineOut own line x poison).beside = d.beside := by
  unfold Dev.lineOut
  split
  · rfl
  · split <;> rfl

@[simp] theorem Dev.poisonLine_beside : (d.poisonLine line).beside = d.beside := by
  rw [Dev.poisonLine, Dev.modHome_beside, Dev.lineOut_beside, Dev.dropSw_beside]

@[simp] theorem Dev.deadHolder_beside : (d.deadHolder line ld).beside = d.beside := by
  unfold Dev.deadHolder
  split
  · rfl
  · split
    · rfl
    · rw [Dev.settleEnt_beside, Dev.modEnt_beside]
      split
      · exact d.poisonLine_beside line
      · rfl

@[simp] theorem Dev.answerDead_beside : (d.answerDead ld).beside = d.beside := by
  rw [Dev.answerDead, Dev.modHome_beside]
  exact foldl_keeps Dev.beside (f := fun (e : Dev) (x : Snoop) => e.deadHolder x.line ld) (fun e x => e.deadHolder_beside x.line ld) _ _

/-- Beside homes and cipher units a head loss marks the LD in HOME_LDSTAT. -/
theorem Dev.headLoss_beside : (d.headLoss ld).beside =
    ((d.setBit .homeLdstat ld true).setBit .homeLdstat (16 + ld) true).beside := Dev.answerDead_beside _ ld

theorem Dev.keepsRegs_headLoss : d.keepsRegs (d.headLoss ld) [.homeLdstat] :=
  (((d.keepsRegs_refl _).setBit (by simp) _ _).setBit (by simp) _ _).regs_eq (Dev.regs_of_beside (d.headLoss_beside ld))

theorem Dev.headLoss_hp : (d.headLoss ld).hp = d.hp := by
  rw [Dev.hp_of_beside (d.headLoss_beside ld), Dev.setBit_hp, Dev.setBit_hp]

theorem Dev.headLoss_out : (d.headLoss ld).out = d.out := by
  rw [Dev.out_of_beside (d.headLoss_beside ld), Dev.setBit, Dev.wr_out, Dev.setBit, Dev.wr_out]

end

/-! ### AER changes configuration space and sends its message -/

section
variable (d : Dev)

/-- `e` differs from `d` in configuration space at most. -/
def Dev.onlyCfg (d e : Dev) : Prop := ∃ c, e = { d with hp := { d.hp with cfg := c } }

theorem Dev.onlyCfg.trans {d e f : Dev} (h : d.onlyCfg e) (h' : e.onlyCfg f) : d.onlyCfg f := by
  obtain ⟨c, rfl⟩ := h
  obtain ⟨c', rfl⟩ := h'
  exact ⟨c', rfl⟩

theorem Dev.onlyCfg_refl : d.onlyCfg d := ⟨d.hp.cfg, rfl⟩

theorem Dev.onlyCfg_aerNote (e : Aer) (fn : Nat) : d.onlyCfg (d.aerNote e fn) := by
  unfold Dev.aerNote
  dsimp only
  split <;> exact ⟨_, rfl⟩

theorem Dev.aer_cases (h ld : Nat) (e : Aer) : ∃ f sev, d.onlyCfg f ∧ d.aer h ld e = f.emit (.aer h ld e sev) := by
  unfold Dev.aer
  cases d.fn0 h with
  | none =>
    dsimp only
    split
    · exact ⟨_, _, d.onlyCfg_aerNote e ld, rfl⟩
    · exact ⟨_, _, d.onlyCfg_refl, rfl⟩
  | some n =>
    dsimp only
    split
    · exact ⟨_, _, (d.onlyCfg_aerNote e n).trans (Dev.onlyCfg_aerNote _ e ld), rfl⟩
    · exact ⟨_, _, d.onlyCfg_aerNote e n, rfl⟩

end

/-! ### Keys and failed checks -/

section
variable (d : Dev) (h : Nat) (st : IdeStream)

/-- IDE of HP_STAT follows the CXL stream. -/
def Dev.showIde (d : Dev) (h : Nat) (st : IdeStream) (b : Bool) : Dev :=
  if st = .cxl then d.setFlag (headReg h) F.hpStat_IDE b else d

theorem Dev.showIde_hp (b : Bool) : (d.showIde h st b).hp = d.hp :=
  Dev.ite_hp (d.setFlag_hp _ _ b)

theorem Dev.showIde_home (b : Bool) : (d.showIde h st b).home = d.home := by
  unfold Dev.showIde
  split
  · rw [Dev.setFlag_home]
  · rfl

theorem Dev.showIde_other (b : Bool) (hst : st ≠ .cxl) : d.showIde h st b = d := if_neg hst

theorem Dev.showIde_cxl (b : Bool) (hst : st = .cxl) : (d.showIde h st b).flag (headReg h) F.hpStat_IDE = b := by
  rw [Dev.showIde, if_pos hst, Dev.flag_setFlag_self _ _ _ (by decide) (by decide)]

theorem Dev.keepsRegs_showIde (b : Bool) : d.keepsRegs (d.showIde h st b) [headReg h] := by
  unfold Dev.showIde
  split
  · exact (d.keepsRegs_refl _).setFlag (by simp) _ _
  · exact d.keepsRegs_refl _

/-- The stream has a new key and is secure. -/
def Head.rekey (st : IdeStream) (key : Nat) (containment : Bool) (y : Head) : Head :=
  Head.ideSettle { y with ide := y.ide.modify st.idx fun x =>
    { keys := x.keys + 1, key := key, secure := true, containment := containment, failed := false } }

/-- A check of the stream has failed. -/
def Head.ideFails (st : IdeStream) (y : Head) : Head :=
  { y with ide := y.ide.modify st.idx fun x => { x with secure := false, failed := true }, ideFailed := true, ideReset := false }

/-- The head and its HP_STAT after a check of a stream has failed. -/
def Dev.streamFails (d : Dev) (h : Nat) (st : IdeStream) : Dev := (d.showIde h st false).modHead h (Head.ideFails st)

/-- The failure is reported: by AER, and in a record of type 0x0021 (Table 4.17). -/
def Dev.reportIde (d : Dev) (h : Nat) : Dev :=
  (d.aer h 0xFF .ideCheckFailed).raise { vendorRec 0x0021 .failure (0x200 + h) 0 with head := h }

/-- The LDs of a CXL 3.1 head are lost with it (R140). -/
def Dev.headLost (d : Dev) (h : Nat) : Dev := if d.proto h = 3 then (d.ldsOf h).foldl Dev.headLoss d else d

theorem Dev.reportIde_cases : ∃ hp l x o sev, d.reportIde h =
    { d with hp := hp, logs := l, cas := x, out := d.out ++ .aer h 0xFF .ideCheckFailed sev :: o } ∧ hp.heads = d.hp.heads := by
  obtain ⟨f, sev, ⟨c, rfl⟩, haer⟩ := d.aer_cases h 0xFF .ideCheckFailed
  obtain ⟨l, x, o, hraise⟩ := (d.aer h 0xFF .ideCheckFailed).raise_cases { vendorRec 0x0021 .failure (0x200 + h) 0 with head := h }
  refine ⟨{ d.hp with cfg := c }, l, x, o, sev, ?_, rfl⟩
  rw [Dev.reportIde, hraise, haer]
  simp only [Dev.emit, List.append_assoc, List.singleton_append]

theorem Dev.keepsRegs_headLost : d.keepsRegs (d.headLost h) [.homeLdstat] := by
  unfold Dev.headLost
  split
  · exact fun q hq => foldl_keeps (fun e : Dev => e.rd q) (fun e n => e.keepsRegs_headLoss n q hq) _ _
  · exact d.keepsRegs_refl _

theorem Dev.headLost_hp : (d.headLost h).hp = d.hp := Dev.ite_hp (foldl_keeps Dev.hp Dev.headLoss_hp _ _)

theorem Dev.headLost_out : (d.headLost h).out = d.out := by
  unfold Dev.headLost
  split
  · exact foldl_keeps Dev.out Dev.headLoss_out _ _
  · rfl

theorem homeLdstat_ne_headReg (hh : h < 8) : Reg.homeLdstat.offset ≠ (headReg h).offset := by
  simp only [headReg, Reg.offset]; omega

end

section
variable {d : Dev} {h key : Nat} {st : IdeStream} {containment : Bool}

/-- A key may be programmed: the link is up, its function 0 is there, and a CXL stream has a protocol of CXL. -/
def Dev.takesKey (d : Dev) (h : Nat) (st : IdeStream) : Prop :=
  d.headUp h = true ∧ (d.fn0 h).isSome = true ∧ (st = .cxl → 1 ≤ d.proto h)

theorem Dev.ideKm_of_takesKey (ht : d.takesKey h st) :
    d.ideKm h st key containment = (d.showIde h st true).modHead h (Head.rekey st key containment) := if_pos ht

theorem Dev.ideKm_of_not_takesKey (ht : ¬ d.takesKey h st) : d.ideKm h st key containment = d := if_neg ht

theorem Dev.ideFail_of_secure (hu : d.headUp h = true) (hs : ((d.head h).ide.getD st.idx {}).secure = true) :
    d.ideFail h st = ((d.streamFails h st).reportIde h).headLost h := if_pos ⟨hu, hs⟩

theorem Dev.ideFail_of_not_secure (hs : d.headUp h = false ∨ ((d.head h).ide.getD st.idx {}).secure = false) : d.ideFail h st = d :=
  if_neg fun ⟨hup, hsec⟩ => hs.elim (fun hdown => Bool.false_ne_true (hdown.symm.trans hup))
    fun hopen => Bool.false_ne_true (hopen.symm.trans hsec)

/-- A check that fails on a secure stream: IDE clears for the CXL stream, the head is marked, AER reports it, and the registers but HP_STAT
of the head and HOME_LDSTAT stay. -/
theorem Dev.ideFail_fails (hh : h < 8) (hu : d.headUp h = true) (hs : ((d.head h).ide.getD st.idx {}).secure = true) : ∃ sev,
    (st = .cxl → (d.ideFail h st).flag (headReg h) F.hpStat_IDE = false) ∧
      (d.ideFail h st).hp.heads = (d.modHead h (Head.ideFails st)).hp.heads ∧
      .aer h 0xFF .ideCheckFailed sev ∈ (d.ideFail h st).out ∧ d.keepsRegs (d.ideFail h st) [headReg h, .homeLdstat] := by
  obtain ⟨hp, l, x, o, sev, hreport, hheads⟩ := (d.streamFails h st).reportIde_cases h
  have hregs : ((d.streamFails h st).reportIde h).regs = (d.showIde h st false).regs := by rw [hreport]; rfl
  have hlost := ((d.streamFails h st).reportIde h).keepsRegs_headLost h
  have hshown : d.keepsRegs ((d.streamFails h st).reportIde h) [headReg h] := (d.keepsRegs_showIde h st false).regs_eq hregs
  rw [Dev.ideFail_of_secure hu hs]
  refine ⟨sev, fun hst => ?_, ?_, ?_, hshown.trans_cons hlost⟩
  · have hkept := hlost.fld (by simpa using homeLdstat_ne_headReg h hh) F.hpStat_IDE
    exact (congrArg (· != 0) (hkept.trans (Dev.fld_of_regs_eq hregs _ _))).trans (d.showIde_cxl h st false hst)
  · rw [Dev.headLost_hp, hreport, hheads, Dev.streamFails]
    simp only [Dev.modHead, Dev.showIde_hp]
  · rw [Dev.headLost_out, hreport]
    simp

end

/-- Settles O23. -/
theorem linkEncryption : Obligations.LinkEncryption := by
  intro s h key st containment hu hh hkey
  have hkm := exec_ideKm (h := h) (st := st) (key := key) (containment := containment) (by simpa [Instr.wf, hh] using hkey) hu
  have hfail := exec_ideCheckFailure (h := h) (st := st) (by simpa [Instr.wf] using hh) hu
  refine ⟨fun hup hfn hcxl => ?key, fun hno => ?noKey, fun hup hsec => ?fails, fun hno => ?insecure⟩
  case key =>
    rw [Dev.ideKm_of_takesKey ⟨hup, hfn, hcxl⟩] at hkm
    refine ⟨_, hkm, ?_, fun hst => s.dev.showIde_cxl h st true hst, fun hst => ?_, s.dev.keepsRegs_showIde h st true,
      s.dev.showIde_home h st true⟩
    · simp only [Dev.modHead, Dev.showIde_hp]; rfl
    · rw [Dev.modHead_regs, Dev.showIde_other _ _ _ _ hst]
  case noKey => rw [hkm, Dev.ideKm_of_not_takesKey hno]
  case fails =>
    obtain ⟨sev, hfails⟩ := Dev.ideFail_fails hh hup hsec
    exact ⟨_, sev, hfail, hfails⟩
  case insecure => rw [hfail, Dev.ideFail_of_not_secure hno]

end Sys2Proof.Machine
end

section
/-! SUPPORT. The directory entry of a line (R114 to R116): the entry after a change of it, after its removal, and after the removal of one
that nothing needs. -/

namespace Sys2Proof.Machine

variable {d : Dev} {line ld : Nat}

@[simp] theorem DirEnt.make_line (e : DirEnt) (holders : BitVec 16) (swd : Swd) (excl : Bool) :
    (e.make holders swd excl).line = e.line := rfl

@[simp] theorem DirEnt.without_line (e : DirEnt) : (e.without ld).line = e.line := rfl

/-- An LD that is taken out of an entry's holders is none of them. -/
theorem DirEnt.has_without (e : DirEnt) : (e.without ld).has ld = false := by
  have hbit (h : ld < 16) : (ldBit ld).getLsbD ld = true := by simp only [ldBit, BitVec.getLsbD_ofNat, h, Nat.testBit_two_pow_self]; rfl
  simpa [DirEnt.has, DirEnt.without, DirEnt.make] using fun _ => hbit

/-- An entry that is made without exclusivity is not in E. -/
theorem DirEnt.make_shared_ne_e (e : DirEnt) (holders : BitVec 16) (swd : Swd) : (e.make holders swd false).st ≠ .e := by
  simp only [DirEnt.make, Bool.false_eq_true, if_false]
  split_ifs <;> simp

@[simp] theorem Dev.dirSet_modDirSet_self (key : Nat) (f : DirSet → DirSet) : (d.modDirSet key f).dirSet key = f (d.dirSet key) :=
  kvGet_mod_self _ _ _ _

theorem Dev.ent_line {e : DirEnt} (h : d.ent line = some e) : e.line = line := by
  simpa using List.find?_some h

/-- A change of a line's entry that leaves the entry with its line. -/
theorem Dev.ent_modEnt {f : DirEnt → DirEnt} (hf : ∀ e, (f e).line = e.line) : (d.modEnt line f).ent line = (d.ent line).map f := by
  have hline : ((fun e => e.line == line) ∘ fun e => if e.line = line then f e else e) = fun e => e.line == line := by
    funext e
    simp only [Function.comp]
    split <;> simp [hf]
  rw [Dev.ent, Dev.modEnt, Dev.dirSet_modDirSet_self, List.find?_map, hline]
  exact Option.map_congr fun e he => if_pos (Dev.ent_line he)

theorem Dev.ent_dropEnt : (d.dropEnt line).ent line = none := by
  simp [Dev.ent, Dev.dropEnt]

/-- An entry that is left where nothing needs it would have gone is the one that was there. -/
theorem Dev.ent_of_settleEnt {e : DirEnt} (h : (d.settleEnt line).ent line = some e) : d.ent line = some e := by
  unfold Dev.settleEnt at h
  split at h
  · split at h
    · simp [Dev.ent_dropEnt] at h
    · exact h
  · exact h

end Sys2Proof.Machine
end

section
/-! SUPPORT. Answers to back-invalidates (R127, R128): the state that an answer leaves the holder in, and what BIRSP and BICONFLICT do
by what they find. -/

namespace Sys2Proof.Machine

variable {d : Dev} {ld line : Nat} {x : Snoop}

/-- The state that an answer counts as: the one that its back-invalidate asked for, where it names one that this does not allow. -/
def BiAnswer.taken (op : S2M) (a : BiAnswer) : BiAnswer :=
  match op, a with
  | .bisnpInv, _ => .i
  | .bisnpData, .e => .s
  | _, a => a

theorem BiAnswer.taken_i {op : S2M} {a : BiAnswer} (h : a = .i ∨ op = .bisnpInv) : a.taken op = .i := by
  rcases h with rfl | rfl
  · cases op <;> rfl
  · rfl

theorem BiAnswer.taken_s {a : BiAnswer} (h : a ≠ .i) : a.taken .bisnpData = .s := by
  cases a with
  | i => exact absurd rfl h
  | s => rfl
  | e => rfl

/-- The line's entry once a holder is left in a state. -/
def Dev.holderLeft (d : Dev) (ld line : Nat) : BiAnswer → Dev
  | .i => d.modEnt line fun e => e.without ld
  | .s => d.modEnt line fun e => e.make e.holders e.swd false
  | .e => d

/-- The back-invalidate no longer waits. -/
def Dev.dropSnoop (d : Dev) (x : Snoop) : Dev := d.modHome fun h => { h with snoops := h.snoops.erase x }

section
variable (hs : d.biStray ld = false)
include hs

theorem Dev.birsp_of_waiting (hu : d.unresp ld = false) (hx : d.home.snoops.find? (fun x => x.line == line && x.ld == ld) = some x)
    (a : BiAnswer) : d.birsp ld line a = ((d.dropSnoop x).holderLeft ld line (a.taken x.op)).settleEnt line := by
  simp only [Dev.birsp, hs, hu, hx, Bool.false_eq_true, if_false]
  rfl

theorem Dev.birsp_of_not_waiting (hx : d.home.snoops.find? (fun x => x.line == line && x.ld == ld) = none) (a : BiAnswer) :
    d.birsp ld line a = d := by
  simp [Dev.birsp, hs, hx]

theorem Dev.birsp_of_unresp (hu : d.unresp ld = true) (a : BiAnswer) : d.birsp ld line a = d := by
  simp [Dev.birsp, hs, hu]

theorem Dev.biconflict_of_waiting (hu : d.unresp ld = false)
    (hx : d.home.snoops.find? (fun x => x.line == line && x.ld == ld) = some x) :
    d.biconflict ld line = d.emit (.s2m (d.ldHead ld) (d.ldId ld) .biConflictAck (line * 64) 0) := by
  simp [Dev.biconflict, hs, hu, ← List.isSome_find?, hx]

theorem Dev.biconflict_of_not_waiting (hx : d.home.snoops.find? (fun x => x.line == line && x.ld == ld) = none) :
    d.biconflict ld line = d := by
  simp [Dev.biconflict, hs, ← List.isSome_find?, hx]

theorem Dev.biconflict_of_unresp (hu : d.unresp ld = true) : d.biconflict ld line = d := by
  simp [Dev.biconflict, hs, hu]

end
end Sys2Proof.Machine
end

section
/-! SUPPORT. Holders that do not answer (R137 to R139, R141): what taking them out of the directory leaves, the state after a response
timer expires, and the end of a sweep. -/

namespace Sys2Proof.Machine

/-! ### What stands while holders are taken out -/

/-- The registers, the back-invalidates that wait, the head losses, and each sweep's LD, cause and line. -/
def Dev.standing (d : Dev) : RegFile × List Snoop × List Nat × List (Nat × Nat × Nat) :=
  (d.regs, d.home.snoops, d.home.lost, d.home.sweeps.map fun w => (w.ld, w.cause, w.dpa))

section
variable (d : Dev) (line ld : Nat)

theorem Dev.regs_of_standing {d e : Dev} (h : e.standing = d.standing) : e.regs = d.regs := congrArg (·.1) h
theorem Dev.snoops_of_standing {d e : Dev} (h : e.standing = d.standing) : e.home.snoops = d.home.snoops := congrArg (·.2.1) h
theorem Dev.lost_of_standing {d e : Dev} (h : e.standing = d.standing) : e.home.lost = d.home.lost := congrArg (·.2.2.1) h
theorem Dev.sweeps_of_standing {d e : Dev} (h : e.standing = d.standing) :
    (e.home.sweeps.map fun w => (w.ld, w.cause, w.dpa)) = d.home.sweeps.map fun w => (w.ld, w.cause, w.dpa) := congrArg (·.2.2.2) h

@[simp] theorem Dev.modEnt_standing (f : DirEnt → DirEnt) : (d.modEnt line f).standing = d.standing := rfl
@[simp] theorem Dev.dropSw_standing : (d.dropSw line).standing = d.standing := rfl
@[simp] theorem Dev.emit_standing (o : Out) : (d.emit o).standing = d.standing := rfl
@[simp] theorem Dev.noteSource_standing (id s : Nat) : (d.noteSource id s).standing = d.standing := rfl
@[simp] theorem Dev.dropTxn_standing (id : Nat) : (d.dropTxn id).standing = d.standing := rfl
@[simp] theorem Dev.sampled_standing (r : SampleRec) :
    (d.modHome fun h => { h with sampleDone := h.sampleDone ++ [r] }).standing = d.standing := rfl
@[simp] theorem Dev.countLd_standing (c : Nat) : (d.countLd ld c).standing = d.standing := by simp [Dev.standing]
@[simp] theorem Dev.raiseLimited_standing (scope : Nat) (r : Rec) : (d.raiseLimited scope r).standing = d.standing := by
  simp [Dev.standing]

@[simp] theorem Dev.settleEnt_standing : (d.settleEnt line).standing = d.standing := by
  unfold Dev.settleEnt
  split
  · split <;> rfl
  · rfl

@[simp] theorem Dev.lineOut_standing (own : AccOwner) (x : Line) (poison : Bool) :
    (d.lineOut own line x poison).standing = d.standing := by
  unfold Dev.lineOut
  split
  · rfl
  · split <;> rfl

@[simp] theorem Dev.poisonLine_standing : (d.poisonLine line).standing = d.standing :=
  (Dev.lineOut_standing _ line .none 0 true).trans (d.dropSw_standing line)

@[simp] theorem Dev.countPoisoned_standing : (d.countPoisoned ld).standing = d.standing := by
  simp only [Dev.standing, Dev.countPoisoned, Dev.modHome, List.map_map, Prod.mk.injEq, true_and]
  refine List.map_congr_left fun w _ => ?_
  simp only [Function.comp]
  split <;> rfl

@[simp] theorem Dev.deadHolder_standing : (d.deadHolder line ld).standing = d.standing := by
  unfold Dev.deadHolder
  split
  · rfl
  · split
    · rfl
    · rw [Dev.settleEnt_standing, Dev.modEnt_standing]
      split <;> simp

theorem Dev.sweepSets_standing (lo hi : Nat) : (d.sweepSets ld lo hi).standing = d.standing :=
  foldl_keeps Dev.standing (fun e line => e.deadHolder_standing line ld) _ d

theorem Dev.readData_standing (own : Nat) (x : Line) : (d.readData own x).1.standing = d.standing := by
  unfold Dev.readData
  split <;> rfl

@[simp] theorem Dev.respond_standing (t : Txn) (x : Line) (poison : Bool) : (d.respond t x poison).standing = d.standing := by
  have hread : (if t.op.reads && !t.noData then d.readData t.own x else (d, x)).1.standing = d.standing := by
    split
    · exact d.readData_standing t.own x
    · rfl
  unfold Dev.respond
  generalize (if t.op.reads && !t.noData then d.readData t.own x else (d, x)) = p at hread
  obtain ⟨e, y⟩ := p
  cases t.src with
  | dir => exact hread
  | ring cmd idx n => exact hread
  | host head n tag => cases t.sample <;> simp [apply_ite Dev.standing, hread]

@[simp] theorem Dev.shunWaiting_standing : (d.shunWaiting ld).standing = d.standing := by
  unfold Dev.shunWaiting
  refine foldl_keeps Dev.standing (fun e t => ?_) _ d
  cases t.src <;> simp

end

/-! ### A holder becomes unresponsive -/

section
variable {d : Dev} {ld cause dpa : Nat}

/-- The LD is marked in HOME_LDSTAT, its sweep starts, and no back-invalidate to it waits. -/
def Dev.startSweep (d : Dev) (ld cause dpa : Nat) : Dev :=
  ((d.setBit .homeLdstat ld true).setBit .homeLdstat (16 + ld) true).modHome fun h =>
    { h with snoops := h.snoops.filter (·.ld != ld),
             sweeps := h.sweeps.filter (·.ld != ld) ++ [{ ld := ld, cause := cause, dpa := dpa, poisoned := 0, since := d.clk }] }

theorem Dev.answerDead_standing (d : Dev) (ld : Nat) :
    (d.answerDead ld).standing = (d.modHome fun h => { h with snoops := h.snoops.filter (·.ld != ld) }).standing := by
  have hfold := foldl_keeps Dev.standing (fun e (x : Snoop) => e.deadHolder_standing x.line ld) (d.home.snoops.filter (·.ld == ld)) d
  simp only [Dev.standing, Prod.mk.injEq] at hfold
  obtain ⟨hregs, hsnoops, hlost, hsweeps⟩ := hfold
  simp only [Dev.standing, Dev.answerDead, Dev.modHome, hregs, hsnoops, hlost, hsweeps]

theorem Dev.makeUnresp_standing : (d.makeUnresp ld cause dpa).standing = (d.startSweep ld cause dpa).standing :=
  Dev.answerDead_standing _ ld

theorem Dev.bisnpTimeout_standing {line : Nat} {x : Snoop}
    (hx : d.home.snoops.find? (fun x => x.line == line && x.ld == ld) = some x) :
    (d.bisnpTimeout ld line).standing = (d.startSweep ld 0 (line * 64)).standing := by
  rw [Dev.bisnpTimeout, if_pos (by simp [← List.isSome_find?, hx]), Dev.shunWaiting_standing, Dev.makeUnresp_standing]

theorem Dev.bisnpTimeout_of_not_waiting {line : Nat} (hx : d.home.snoops.find? (fun x => x.line == line && x.ld == ld) = none) :
    d.bisnpTimeout ld line = d := if_neg (by simp [← List.isSome_find?, hx])

theorem Dev.unresp_startSweep (hld : ld < 16) : (d.startSweep ld cause dpa).unresp ld = true :=
  (Dev.bitOf_setBit_bit _ .homeLdstat (by omega) (by omega) true).trans (d.bitOf_setBit_self .homeLdstat (by omega) true)

theorem Dev.unresp_of_regs_eq {e : Dev} (h : e.regs = d.regs) : e.unresp ld = d.unresp ld := by
  simp only [Dev.unresp, Dev.rd, h]

/-- A response timer that expires makes the LD unresponsive, answers its back-invalidates and starts its sweep (R137, R139). -/
theorem Dev.bisnpTimeout_expires {line : Nat} {x : Snoop} (hld : ld < 16)
    (hx : d.home.snoops.find? (fun x => x.line == line && x.ld == ld) = some x) :
    (d.bisnpTimeout ld line).unresp ld = true ∧ (∀ x ∈ (d.bisnpTimeout ld line).home.snoops, x.ld ≠ ld) ∧
      ∃ w ∈ (d.bisnpTimeout ld line).home.sweeps, w.ld = ld ∧ w.cause = 0 ∧ w.dpa = line * 64 := by
  have hstand := Dev.bisnpTimeout_standing hx
  refine ⟨?unresp, ?snoops, ?sweep⟩
  case unresp => rw [Dev.unresp_of_regs_eq (Dev.regs_of_standing hstand), Dev.unresp_startSweep hld]
  case snoops => rw [Dev.snoops_of_standing hstand]; simp [Dev.startSweep, Dev.modHome]
  case sweep =>
    have hmem : (ld, 0, line * 64) ∈ (d.bisnpTimeout ld line).home.sweeps.map fun w => (w.ld, w.cause, w.dpa) := by
      rw [Dev.sweeps_of_standing hstand]; simp [Dev.startSweep, Dev.modHome]
    simpa using hmem

end

/-! ### A sweep ends -/

section
variable {d : Dev} {ld : Nat}

/-- The sweep of an LD is over, and HOME_LDSTAT no longer shows it. -/
def Dev.dropSweep (d : Dev) (ld : Nat) : Dev :=
  (d.modHome fun h => { h with sweeps := h.sweeps.filter (·.ld != ld) }).setBit .homeLdstat (16 + ld) false

/-- The sweep of an LD is over; after a head loss the LD is responsive again. -/
def Dev.endSweep (d : Dev) (ld : Nat) : Dev :=
  if d.home.lost.contains ld then
    ((d.dropSweep ld).setBit .homeLdstat ld false).modHome fun h => { h with lost := h.lost.filter (· != ld) }
  else d.dropSweep ld

theorem Dev.sweepDone_of_running {w : DeadSweep} (hw : d.home.sweeps.find? (fun w => w.ld == ld) = some w) :
    ∃ poisoned, d.sweepDone ld = ((d.sweepSets ld w.pos (2 ^ 14)).endSweep ld).raise
      { vendorRec 0x0101 .failure 0x300 (ld + w.cause * 2 ^ 8 + poisoned * 2 ^ 32) with ld := ld, addr0 := w.dpa } :=
  ⟨_, by simp only [Dev.sweepDone, hw]; rfl⟩

theorem Dev.sweepDone_of_none (hw : d.home.sweeps.find? (fun w => w.ld == ld) = none) : d.sweepDone ld = d := by
  simp only [Dev.sweepDone, hw]

theorem Dev.sweeps_endSweep : (d.endSweep ld).home.sweeps = d.home.sweeps.filter (·.ld != ld) := by
  unfold Dev.endSweep
  split <;> rfl

theorem Dev.sweep_endSweep (hld : ld < 16) : bitOf ((d.endSweep ld).rd .homeLdstat) (16 + ld) = false := by
  have hsweep : bitOf ((d.dropSweep ld).rd .homeLdstat) (16 + ld) = false := Dev.bitOf_setBit_self _ .homeLdstat (by omega) false
  unfold Dev.endSweep
  split
  · exact (Dev.bitOf_setBit_bit _ .homeLdstat (by omega) (by omega) false).trans hsweep
  · exact hsweep

theorem Dev.unresp_endSweep (hld : ld < 16) (hlost : d.home.lost.contains ld = true) : (d.endSweep ld).unresp ld = false := by
  rw [Dev.endSweep, if_pos hlost]
  exact Dev.bitOf_setBit_self _ .homeLdstat (by omega) false

/-- What the end of a sweep leaves: no sweep of the LD, and after a head loss a responsive LD (R139, R141). -/
theorem Dev.sweepDone_ends {w : DeadSweep} (hld : ld < 16) (hw : d.home.sweeps.find? (fun w => w.ld == ld) = some w) :
    (∀ x ∈ (d.sweepDone ld).home.sweeps, x.ld ≠ ld) ∧ bitOf ((d.sweepDone ld).rd .homeLdstat) (16 + ld) = false ∧
      (d.home.lost.contains ld = true → (d.sweepDone ld).unresp ld = false) := by
  obtain ⟨poisoned, hdone⟩ := Dev.sweepDone_of_running hw
  have hlost := Dev.lost_of_standing (d.sweepSets_standing ld w.pos (2 ^ 14))
  rw [hdone]
  refine ⟨?_, ?_, fun h => ?_⟩
  · rw [Dev.raise_home, Dev.sweeps_endSweep]; simp
  · rw [Dev.raise_rd]; exact Dev.sweep_endSweep hld
  · rw [Dev.unresp, Dev.raise_rd]; exact Dev.unresp_endSweep hld (hlost ▸ h)

end
end Sys2Proof.Machine
end

section
/-! SUPPORT. Samples (R158): what a sample makes of its Tedder's sketch. Each row has its own part of the sketch, so a word that fails
parity in one row leaves the counters of the others. -/

namespace Sys2Proof.Machine

/-! ### Keys -/

theorem kvFind?_filter_key {α : Type} (q : Nat → Bool) (m : List (Nat × α)) {a : Nat} (h : q a = true) :
    kvFind? (m.filter fun p => q p.1) a = kvFind? m a := by
  induction m with
  | nil => rfl
  | cons p m ih =>
    obtain ⟨k, v⟩ := p
    by_cases hk : k = a
    · subst hk
      simp [h, kvFind?]
    · by_cases hq : q k = true <;> simp [hq, hk, kvFind?, ih]

section
variable {α : Type} [DecidableEq α] {z : Nat → α} {g : α → α} {key : Nat → Nat}

theorem kvGet_foldl_mod_other {l : List Nat} {m : List (Nat × α)} {a : Nat} (h : ∀ r ∈ l, key r ≠ a) :
    kvGet z (l.foldl (fun m r => kvMod z m (key r) g) m) a = kvGet z m a :=
  List.foldlRecOn l _ (motive := fun m' => kvGet z m' a = kvGet z m a) rfl
    fun m' ih r hr => (kvGet_mod_other z m' (h r hr) g).trans ih

/-- A function applied once at each of several keys. -/
theorem kvGet_foldl_mod (hinj : key.Injective) {l : List Nat} (hl : l.Nodup) {r : Nat} (hr : r ∈ l) (m : List (Nat × α)) :
    kvGet z (l.foldl (fun m r => kvMod z m (key r) g) m) (key r) = g (kvGet z m (key r)) := by
  induction l generalizing m with
  | nil => simp at hr
  | cons r' l ih =>
    obtain ⟨hnot, hl⟩ := List.nodup_cons.mp hl
    rw [List.foldl_cons]
    rcases List.mem_cons.mp hr with rfl | hr
    · have hne : ∀ s ∈ l, key s ≠ key r := fun s hs he => hnot (by rwa [← hinj he])
      rw [kvGet_foldl_mod_other hne, kvGet_mod_self]
    · have hne : key r' ≠ key r := fun he => hnot (by rwa [hinj he])
      rw [ih hl hr, kvGet_mod_other z m hne]

end

theorem sketchKey_injective (ted page : Nat) : Function.Injective fun r => sketchKey ted r page := fun r s h => by
  simp only [sketchKey] at h
  omega

/-- The word of a counter lies in its own row. -/
theorem sketchKey_word_ne {ted r s page : Nat} (h : r ≠ s) (x : Nat) :
    sketchKey ted r page / 8 ≠ ted * 2 ^ 17 + (s * 2 ^ 15 + x % 2 ^ 18 / 8) := by
  simp only [sketchKey]
  omega

/-! ### The sketch -/

section
variable {d : Dev} {ted : Nat}

/-- A word of a sketch is set to zero, and counted. -/
def Dev.zeroWord (ted : Nat) (d : Dev) (w : Nat) : Dev :=
  (d.modTed fun t => { t with sketch := t.sketch.filter fun p => p.1 / 8 != ted * 2 ^ 17 + w }).count .sketchParity ted

theorem Dev.sketchParity_eq (words : List Nat) : d.sketchParity ted words = words.foldl (Dev.zeroWord ted) d := rfl

/-- Words that fail parity change their Tedder's sketch and what is counted. -/
theorem Dev.sketchParity_keeps (words : List Nat) : (d.sketchParity ted words).regs = d.regs ∧
    (d.sketchParity ted words).ted.map = d.ted.map ∧ (d.sketchParity ted words).ted.samples = d.ted.samples := by
  rw [Dev.sketchParity_eq]
  exact ⟨foldl_keeps Dev.regs (f := Dev.zeroWord ted) (fun _ _ => rfl) words d,
    foldl_keeps (·.ted.map) (f := Dev.zeroWord ted) (fun _ _ => rfl) words d,
    foldl_keeps (·.ted.samples) (f := Dev.zeroWord ted) (fun _ _ => rfl) words d⟩

theorem Dev.sketch_zeroWord {w k : Nat} (h : k / 8 ≠ ted * 2 ^ 17 + w) :
    kvGet (fun _ => 0) (d.zeroWord ted w).ted.sketch k = kvGet (fun _ => 0) d.ted.sketch k :=
  congrArg (·.getD 0) (kvFind?_filter_key (fun i => i / 8 != ted * 2 ^ 17 + w) d.ted.sketch (bne_iff_ne.mpr h))

theorem Dev.sketch_sketchParity {words : List Nat} {k : Nat} (h : ∀ w ∈ words, k / 8 ≠ ted * 2 ^ 17 + w) :
    kvGet (fun _ => 0) (d.sketchParity ted words).ted.sketch k = kvGet (fun _ => 0) d.ted.sketch k :=
  List.foldlRecOn words _ (motive := fun e : Dev => kvGet (fun _ => 0) e.ted.sketch k = kvGet (fun _ => 0) d.ted.sketch k) rfl
    fun _ ih w hw => (Dev.sketch_zeroWord (h w hw)).trans ih

theorem Dev.tedSample_of_none {par : List Nat} (hp : d.ted.samples.find? (fun p => fieldOfPage p.2 % 4 == ted) = none) :
    d.tedSample ted par = d := by
  simp only [Dev.tedSample, hp]

/-- The counter of a page rises by one in each row, up to 15. -/
def raiseSketch (ted page : Nat) (sketch : List (Nat × Nat)) : List (Nat × Nat) :=
  (List.range 4).foldl (fun l r => kvMod (fun _ => 0) l (sketchKey ted r page) fun v => min 15 (v + 1)) sketch

theorem kvGet_raiseSketch (ted page : Nat) (sketch : List (Nat × Nat)) {r : Nat} (hr : r < 4) :
    kvGet (fun _ => 0) (raiseSketch ted page sketch) (sketchKey ted r page) =
      min 15 (kvGet (fun _ => 0) sketch (sketchKey ted r page) + 1) :=
  kvGet_foldl_mod (g := fun v => min 15 (v + 1)) (sketchKey_injective ted page) List.nodup_range (List.mem_range.mpr hr) sketch

/-- The words of a page's counters in rows that fail parity. -/
def parityWords (ted page : Nat) (par : List Nat) : List Nat := par.map fun r => r * 2 ^ 15 + sketchKey ted r page % 2 ^ 18 / 8

theorem Dev.tedSample_of_waiting {par : List Nat} {p : Nat × Nat}
    (hp : d.ted.samples.find? (fun p => fieldOfPage p.2 % 4 == ted) = some p) :
    d.tedSample ted par = ((d.sketchParity ted (parityWords ted p.2 par)).count .sample ted).modTed fun t =>
      { t with samples := t.samples.erase p, sketch := raiseSketch ted p.2 t.sketch } := by
  simp only [Dev.tedSample, hp]
  rfl

theorem sketchKey_not_parityWord {ted r page : Nat} {par : List Nat} (hr : par.contains r = false) :
    ∀ w ∈ parityWords ted page par, sketchKey ted r page / 8 ≠ ted * 2 ^ 17 + w := by
  intro w hw
  obtain ⟨s, hs, rfl⟩ := List.mem_map.mp hw
  exact sketchKey_word_ne (fun he => by simp [he, hs] at hr) _

/-- A sample that is delivered raises its counters in the rows that pass parity. -/
theorem Dev.tedSample_delivers {par : List Nat} {p : Nat × Nat}
    (hp : d.ted.samples.find? (fun p => fieldOfPage p.2 % 4 == ted) = some p) :
    (d.tedSample ted par).ted.samples = d.ted.samples.erase p ∧ (d.tedSample ted par).regs = d.regs ∧
      (d.tedSample ted par).ted.map = d.ted.map ∧
      ∀ r, r < 4 → par.contains r = false → kvGet (fun _ => 0) (d.tedSample ted par).ted.sketch (sketchKey ted r p.2) =
        min 15 (kvGet (fun _ => 0) d.ted.sketch (sketchKey ted r p.2) + 1) := by
  obtain ⟨hregs, hmap, hsamples⟩ := d.sketchParity_keeps (ted := ted) (parityWords ted p.2 par)
  rw [Dev.tedSample_of_waiting hp, Dev.modTed_regs, Dev.count_regs]
  simp only [Dev.modTed, Dev.count_ted, hsamples, hmap, true_and]
  refine ⟨hregs, fun r hr hpar => ?_⟩
  rw [kvGet_raiseSketch ted p.2 _ hr, Dev.sketch_sketchParity (sketchKey_not_parityWord hpar)]

end
end Sys2Proof.Machine
end

section
/-! SUPPORT. Events at the home (R127 to R139, R158): evictions and line locks by what they find, and what an answer to a back-invalidate
leaves. -/

namespace Sys2Proof.Machine

variable {d : Dev} {line : Nat} {t : Txn}

theorem Dev.evictionComplete_of_acked (ht : d.home.txns.find? (fun t => t.phase == .acked && t.line == line) = some t) :
    d.evictionComplete line = d.evicted t := by
  simp only [Dev.evictionComplete, ht]

theorem Dev.evictionComplete_of_none (ht : d.home.txns.find? (fun t => t.phase == .acked && t.line == line) = none) :
    d.evictionComplete line = d := by
  simp only [Dev.evictionComplete, ht]

theorem Dev.lineRelease_of_complete (ht : d.home.txns.find? (fun t => t.phase == .complete && t.line == line) = some t) :
    d.lineRelease line = (d.dropTxn t.id).unlock line true := by
  simp only [Dev.lineRelease, ht]

theorem Dev.lineRelease_of_none (ht : d.home.txns.find? (fun t => t.phase == .complete && t.line == line) = none) :
    d.lineRelease line = d := by
  simp only [Dev.lineRelease, ht]

theorem Dev.id_ne_of_mem_dropTxn {id : Nat} : ∀ x ∈ (d.dropTxn id).home.txns, x.id ≠ id := by
  simp [Dev.dropTxn, Dev.modHome]

/-- Where no request waits for the way of the victim, its entry goes and nothing takes its place. -/
theorem Dev.evicted_of_unwanted (hv : ∀ x ∈ d.home.txns, x.victim ≠ some t.line) : d.evicted t = (d.dropTxn t.id).dropEnt t.line := by
  have hnone : ((d.dropTxn t.id).dropEnt t.line).home.txns.find? (fun x => x.phase == .stand && x.victim == some t.line) = none := by
    refine List.find?_eq_none.mpr fun x hx => ?_
    have hmem : x ∈ d.home.txns := List.mem_of_mem_filter hx
    simp [hv x hmem]
  simp only [Dev.evicted, hnone]

/-- What an answer to a waiting back-invalidate leaves (R127). -/
theorem Dev.birsp_answers {ld : Nat} {x : Snoop} (a : BiAnswer) (hs : d.biStray ld = false) (hu : d.unresp ld = false)
    (hx : d.home.snoops.find? (fun x => x.line == line && x.ld == ld) = some x) :
    (d.birsp ld line a).home.snoops = d.home.snoops.erase x ∧
      (a = .i ∨ x.op = .bisnpInv → ∀ e, (d.birsp ld line a).ent line = some e → e.has ld = false) ∧
      (x.op = .bisnpData → a ≠ .i → ∀ e, (d.birsp ld line a).ent line = some e → e.st ≠ .e) ∧
      (d.birsp ld line a).regs = d.regs ∧ (d.birsp ld line a).out = d.out := by
  rw [Dev.birsp_of_waiting hs hu hx]
  have hbeside : (((d.dropSnoop x).holderLeft ld line (a.taken x.op)).settleEnt line).beside = d.beside := by
    rw [Dev.settleEnt_beside]
    cases a.taken x.op <;> rfl
  have hstand : (((d.dropSnoop x).holderLeft ld line (a.taken x.op)).settleEnt line).standing = (d.dropSnoop x).standing := by
    rw [Dev.settleEnt_standing]
    cases a.taken x.op <;> rfl
  refine ⟨Dev.snoops_of_standing hstand, fun h e he => ?gone, fun hop ha e he => ?shared, Dev.regs_of_beside hbeside,
    Dev.out_of_beside hbeside⟩
  case gone =>
    have he := Dev.ent_of_settleEnt he
    rw [BiAnswer.taken_i h, Dev.holderLeft, Dev.ent_modEnt fun e => e.without_line] at he
    obtain ⟨e', -, rfl⟩ := Option.map_eq_some_iff.mp he
    exact e'.has_without
  case shared =>
    have he := Dev.ent_of_settleEnt he
    rw [hop, BiAnswer.taken_s ha, Dev.holderLeft, Dev.ent_modEnt fun e => e.make_line _ _ _] at he
    obtain ⟨e', -, rfl⟩ := Option.map_eq_some_iff.mp he
    exact e'.make_shared_ne_e _ _

/-- Settles O19, each event by what it finds to act on. -/
theorem homeEvents : Obligations.HomeEvents := by
  intro s ld line a hu hld hline hs
  have hbirsp := exec_birsp (a := a) (show Instr.wf (.birsp ld line a) = true by simpa [Instr.wf, hld] using hline) hu
  have hconflict := exec_biconflict (show Instr.wf (.biconflict ld line) = true by simpa [Instr.wf, hld] using hline) hu
  have htimeout := exec_bisnpTimeout (show Instr.wf (.bisnpTimeout ld line) = true by simpa [Instr.wf, hld] using hline) hu
  have hevict := exec_directoryEvictionComplete (show Instr.wf (.directoryEvictionComplete line) = true by simpa [Instr.wf] using hline) hu
  have hrelease := exec_lineLockRelease (show Instr.wf (.lineLockRelease line) = true by simpa [Instr.wf] using hline) hu
  have hsweep := exec_unresponsiveSweepComplete (show Instr.wf (.unresponsiveSweepComplete ld) = true by simp [Instr.wf, hld]) hu
  refine ⟨fun x hx => ⟨fun hresp => ?answer, fun hresp => ?conflict, ?timeout⟩, fun hx => ?noSnoop, fun hunresp => ?unresponsive,
    fun t ht => ?evicted, fun ht => ?noVictim, fun t ht => ?released, fun ht => ?noLock, fun w hw => ?swept, fun hw => ?noSweep,
    fun t par ht hpar => ?sample⟩
  case answer => exact ⟨_, hbirsp, Dev.birsp_answers a hs hresp hx⟩
  case conflict =>
    rw [Dev.biconflict_of_waiting hs hresp hx] at hconflict
    exact ⟨_, hconflict, rfl, rfl, rfl⟩
  case timeout => exact ⟨_, htimeout, Dev.bisnpTimeout_expires hld hx⟩
  case noSnoop =>
    rw [hbirsp, hconflict, htimeout, Dev.birsp_of_not_waiting hs hx, Dev.biconflict_of_not_waiting hs hx,
      Dev.bisnpTimeout_of_not_waiting hx]
    exact ⟨rfl, rfl, rfl⟩
  case unresponsive =>
    rw [hbirsp, hconflict, Dev.birsp_of_unresp hs hunresp, Dev.biconflict_of_unresp hs hunresp]
    exact ⟨rfl, rfl⟩
  case evicted =>
    obtain ⟨-, rfl⟩ : t.phase = .acked ∧ t.line = line := by simpa using List.find?_some ht
    rw [hevict, Dev.evictionComplete_of_acked ht]
    refine ⟨rfl, fun hv => ?_⟩
    rw [Dev.evicted_of_unwanted hv]
    exact ⟨Dev.ent_dropEnt, Dev.id_ne_of_mem_dropTxn⟩
  case noVictim => rw [hevict, Dev.evictionComplete_of_none ht]
  case released => rw [hrelease, Dev.lineRelease_of_complete ht]; exact ⟨rfl, Dev.id_ne_of_mem_dropTxn⟩
  case noLock => rw [hrelease, Dev.lineRelease_of_none ht]
  case swept => exact ⟨_, hsweep, Dev.sweepDone_ends hld hw⟩
  case noSweep => rw [hsweep, Dev.sweepDone_of_none hw]
  case sample =>
    have hsample := exec_tedderSample (show Instr.wf (.tedderSample t par) = true by simpa [Instr.wf, ht] using hpar) hu
    refine ⟨fun p hp => ⟨_, hsample, Dev.tedSample_delivers hp⟩, fun hp => ?_⟩
    rw [hsample, Dev.tedSample_of_none hp]

end Sys2Proof.Machine
end

section
/-! SUPPORT. Grants (R113): the rights that a write takes away, the sweep that recalls their holders, and the end of a revocation. -/

namespace Sys2Proof.Machine

/-! ### What back-invalidates leave -/

section
variable (d : Dev) (line ld : Nat) (op : S2M) (why : SnoopFor)

theorem Dev.bulk_of_beside {d e : Dev} (h : e.beside = d.beside) : e.bulk = d.bulk := (congrArg Dev.bulk h :)

@[simp] theorem Dev.bisnp_regs : (d.bisnp line ld op why).regs = d.regs := by simp [Dev.bisnp]
@[simp] theorem Dev.bisnp_bulk : (d.bisnp line ld op why).bulk = d.bulk := by simp [Dev.bisnp]

/-- A back-invalidate that can be sent to no holder changes nothing beside the homes and the cipher units. -/
theorem Dev.snoop_cases : (d.snoop line ld op why).beside = d.beside ∨ d.snoop line ld op why = d.bisnp line ld op why := by
  unfold Dev.snoop
  split_ifs
  · exact .inl (d.deadHolder_beside line ld)
  · exact .inl ((Dev.settleEnt_beside _ line).trans (d.modEnt_beside line _))
  · exact .inr rfl

@[simp] theorem Dev.snoop_regs : (d.snoop line ld op why).regs = d.regs := by
  rcases d.snoop_cases line ld op why with h | h
  · exact Dev.regs_of_beside h
  · rw [h, Dev.bisnp_regs]

@[simp] theorem Dev.snoop_bulk : (d.snoop line ld op why).bulk = d.bulk := by
  rcases d.snoop_cases line ld op why with h | h
  · exact Dev.bulk_of_beside h
  · rw [h, Dev.bisnp_bulk]

end

/-! ### HOME_GRANT_WRITE -/

section
variable {d : Dev} {n v : Nat}

/-- A write of `v` to HOME_GRANT*n* that held `old` clears bit `i`. -/
def grantCleared (old v i : Nat) : Bool := bitOf old i && !bitOf v i

/-- A holder of a line of the window is recalled where the write takes its right away. -/
def Dev.revokeHolder (n : Nat) (cleared : Nat → Bool) (line : Nat) (e : DirEnt) (d : Dev) (m : Nat) : Dev :=
  if cleared m then d.snoop line m .bisnpInv (.grant n)
  else if cleared (16 + m) && e.st == .e then d.snoop line m .bisnpData (.grant n)
  else d

/-- The holders of a line of the window, but its own LD, lose the rights that the write takes away. -/
def Dev.revokeLine (n : Nat) (cleared : Nat → Bool) (d : Dev) (line : Nat) : Dev :=
  match d.ent line with
  | none => d
  | some e => (e.holderList.filter (· != n)).foldl (Dev.revokeHolder n cleared line e) d

/-- The sweep of the lines of an LD's window that follows a write of its grants. -/
def Dev.revoke (d : Dev) (n : Nat) (cleared : Nat → Bool) : Dev :=
  (d.dirLines.filter fun l => d.ldOfField (fieldOfLine l) == some n).foldl (Dev.revokeLine n cleared) d

/-- What each recall of a holder keeps, the sweep keeps. -/
theorem Dev.revoke_keeps {γ : Type} (p : Dev → γ) (h : ∀ (d : Dev) line m op why, p (d.snoop line m op why) = p d)
    (cleared : Nat → Bool) : p (d.revoke n cleared) = p d := by
  refine foldl_keeps p (fun e line => ?_) _ d
  unfold Dev.revokeLine
  split
  · rfl
  · refine foldl_keeps p (fun f m => ?_) _ e
    unfold Dev.revokeHolder
    split_ifs
    · exact h _ _ _ _ _
    · exact h _ _ _ _ _
    · rfl

theorem Dev.grantWrite_of_kept (hp : bitOf (d.fld .homeGrantstat F.homeGrantstat_PEND) n = false)
    (hc : (List.range 32).any (grantCleared (d.rd (.homeGrant n)) v) = false) :
    d.grantWrite n v = d.wr (.homeGrant n) (v % 2 ^ 32) :=
  (if_neg (by simp [hp])).trans (if_neg (by simpa [grantCleared] using hc))

theorem Dev.grantWrite_of_cleared (hp : bitOf (d.fld .homeGrantstat F.homeGrantstat_PEND) n = false)
    (hc : (List.range 32).any (grantCleared (d.rd (.homeGrant n)) v) = true) : d.grantWrite n v =
      ((d.wr (.homeGrant n) (v % 2 ^ 32)).setBit .homeGrantstat n true).revoke n (grantCleared (d.rd (.homeGrant n)) v) :=
  (if_neg (by simp [hp])).trans (if_pos hc)

theorem homeGrant_ne_grantstat (hn : n < 16) : (Reg.homeGrant n).offset ≠ Reg.homeGrantstat.offset := by
  simp only [Reg.offset]; omega

theorem bitOf_pend (hn : n < 16) : bitOf (d.fld .homeGrantstat F.homeGrantstat_PEND) n = bitOf (d.rd .homeGrantstat) n := by
  simp [bitOf, Dev.fld, RegFile.fld, bitsOf_testBit, F.homeGrantstat_PEND, hn, Dev.rd]

theorem grantCleared_any : (List.range 32).any (grantCleared (d.rd (.homeGrant n)) v) = true ↔
    ∃ i < 32, bitOf (d.rd (.homeGrant n)) i = true ∧ bitOf v i = false := by
  simp [grantCleared]

/-- A write stores the grants, and PEND sets exactly where it takes a right away (R113). -/
theorem Dev.grantWrite_stores (hn : n < 16) (hv : v < 2 ^ 32)
    (hp : bitOf (d.fld .homeGrantstat F.homeGrantstat_PEND) n = false) :
    (d.grantWrite n v).rd (.homeGrant n) = v ∧
      (bitOf ((d.grantWrite n v).fld .homeGrantstat F.homeGrantstat_PEND) n = true ↔
        ∃ i < 32, bitOf (d.rd (.homeGrant n)) i = true ∧ bitOf v i = false) ∧
      d.keepsRegs (d.grantWrite n v) [.homeGrant n, .homeGrantstat] ∧ (d.grantWrite n v).bulk = d.bulk := by
  have hne := homeGrant_ne_grantstat hn
  have hstored : (d.wr (.homeGrant n) (v % 2 ^ 32)).rd (.homeGrant n) = v := by rw [Dev.rd_wr_self]; omega
  have hkept : d.keepsRegs (d.wr (.homeGrant n) (v % 2 ^ 32)) [.homeGrant n, .homeGrantstat] := (d.keepsRegs_refl _).wr (by simp) _
  rw [← grantCleared_any]
  cases hc : (List.range 32).any (grantCleared (d.rd (.homeGrant n)) v) with
  | false =>
    rw [Dev.grantWrite_of_kept hp hc]
    refine ⟨hstored, ?_, hkept, rfl⟩
    rw [Dev.fld_wr_other _ hne, hp]
  | true =>
    rw [Dev.grantWrite_of_cleared hp hc]
    have hregs := (d.wr (.homeGrant n) (v % 2 ^ 32) |>.setBit .homeGrantstat n true).revoke_keeps (n := n) Dev.regs Dev.snoop_regs
      (grantCleared (d.rd (.homeGrant n)) v)
    refine ⟨?_, ?_, (hkept.setBit (by simp) n true).regs_eq hregs, Dev.revoke_keeps Dev.bulk Dev.snoop_bulk _⟩
    · rw [Dev.rd, hregs]
      exact (Dev.rd_setBit_other _ hne.symm n true).trans hstored
    · rw [Dev.fld_of_regs_eq hregs, bitOf_pend hn, Dev.bitOf_setBit_self _ _ (by omega)]

/-! ### GRANT_REVOCATION_COMPLETE -/

theorem Dev.grantDone_of_quiet (hp : bitOf (d.fld .homeGrantstat F.homeGrantstat_PEND) n = true)
    (hq : ∀ x ∈ d.home.snoops, x.why ≠ .grant n) : d.grantDone n = d.setBit .homeGrantstat n false :=
  if_pos (by simpa [hp] using hq)

end
end Sys2Proof.Machine
end

section
/-! SUPPORT. The default hint (R120): a new one unpins the ways that the old one pinned, and their copies stay. -/

namespace Sys2Proof.Machine

variable {d : Dev} {v : Nat}

/-- A way that is pinned under DEFHINT is unpinned. -/
def Dev.unpinDefhint (d : Dev) (line : Nat) : Dev :=
  if ((d.sw line).map (·.pin == .defhint)).getD false then d.unpin line else d

theorem Dev.unpinDefhint_regs (line : Nat) : (d.unpinDefhint line).regs = d.regs := by
  unfold Dev.unpinDefhint
  split <;> rfl

theorem Dev.unpinDefhint_dir (line : Nat) : (d.unpinDefhint line).home.dir = d.home.dir := by
  unfold Dev.unpinDefhint
  split <;> rfl

theorem Dev.defhintWrite_of_same (h : v % 4 = d.fld .homeCtrl F.homeCtrl_DEFHINT) : d.defhintWrite v = d := if_pos h

theorem Dev.defhintWrite_of_new (h : v % 4 ≠ d.fld .homeCtrl F.homeCtrl_DEFHINT) :
    d.defhintWrite v = d.swLines.foldl Dev.unpinDefhint (d.setFld .homeCtrl F.homeCtrl_DEFHINT v) := if_neg h

/-- DEFHINT reads as it was written, and beside it the write changes pins alone. -/
theorem Dev.defhintWrite_stores (hv : v < 4) : (d.defhintWrite v).fld .homeCtrl F.homeCtrl_DEFHINT = v ∧
    (d.defhintWrite v).fld .homeCtrl F.homeCtrl_PIN_WAYS = d.fld .homeCtrl F.homeCtrl_PIN_WAYS ∧
    d.keepsRegs (d.defhintWrite v) [.homeCtrl] ∧ (d.defhintWrite v).home.dir = d.home.dir := by
  by_cases h : v % 4 = d.fld .homeCtrl F.homeCtrl_DEFHINT
  · rw [Dev.defhintWrite_of_same h]
    exact ⟨by omega, rfl, d.keepsRegs_refl _, rfl⟩
  · rw [Dev.defhintWrite_of_new h]
    have hregs := foldl_keeps Dev.regs (fun e => e.unpinDefhint_regs) d.swLines (d.setFld .homeCtrl F.homeCtrl_DEFHINT v)
    have hdir := foldl_keeps (·.home.dir) (fun e => e.unpinDefhint_dir) d.swLines (d.setFld .homeCtrl F.homeCtrl_DEFHINT v)
    refine ⟨?_, ?_, ((d.keepsRegs_refl _).setFld (by simp) _ v).regs_eq hregs, hdir⟩
    · rw [Dev.fld_of_regs_eq hregs, Dev.fld_setFld_self _ _ _ (by decide) (by decide)]
      exact Nat.mod_eq_of_lt hv
    · rw [Dev.fld_of_regs_eq hregs, Dev.fld_setFld_field _ _ _ (by decide) (by decide) (by decide)]

/-- Settles O20, each write by the register that it reaches. -/
theorem grantsAndHints : Obligations.GrantsAndHints := by
  intro s n v hn
  refine ⟨fun hv hr hp => ?write, fun hu hp hq => ?done, fun hv hr => ?hint⟩
  case write =>
    have hexec := exec_homeGrantWrite (show Instr.wf (.homeGrantWrite n v) = true by simpa [Instr.wf, hn] using hv) hr.1
    rw [Dev.viaReg_of_reaches hr (by simp only [Reg.offset]; omega)] at hexec
    exact ⟨_, hexec, Dev.grantWrite_stores hn hv hp⟩
  case done =>
    have hexec := exec_grantRevocationComplete (show Instr.wf (.grantRevocationComplete n) = true by simpa [Instr.wf] using hn) hu
    rw [Dev.grantDone_of_quiet hp hq] at hexec
    refine ⟨_, hexec, ?_, (s.dev.keepsRegs_refl _).setBit (by simp) n false, rfl, rfl⟩
    rw [bitOf_pend hn, Dev.bitOf_setBit_self _ _ (by omega)]
  case hint =>
    have hexec := exec_defhintWrite (show Instr.wf (.defhintWrite v) = true by simpa [Instr.wf] using hv) hr.1
    rw [Dev.viaReg_of_reaches hr (by decide)] at hexec
    exact ⟨_, hexec, Dev.defhintWrite_stores hv⟩

end Sys2Proof.Machine
end

section
/-! SUPPORT. The watermarks and release requests (R175, R176): what an evaluation of the modes and a round of requests leave alone, the
extents that a round names, and the records that it leaves in the log of the LD. -/

namespace Sys2Proof.Machine

/-! ### A round of release requests -/

section
variable (d : Dev) (n : Nat)

/-- An LD's footprint beyond its quota, in sheaves (R176). -/
def Dev.excess : Int := (d.foot n : Int) - 16 * d.quotaFrames n

/-- The LDs over their quota, in the order in which a round asks them. -/
def Dev.overQuota : List Nat :=
  ((List.range 16).filter fun n => decide (0 < d.excess n)).mergeSort fun a b => decide (d.excess b ≤ d.excess a)

/-- Sheaves that a round is to free: what elastic free lacks to the LOW watermark. -/
def Dev.roundNeed : Nat := (wmFrames (d.fld .tedWm F.tedWm_LOW) - d.elasticFree).toNat * 16

/-- The footprint of an extent of an LD. -/
def Dev.extentFoot (e : Extent) : Nat := ((List.range e.fields).map fun i => d.fieldFoot (d.winBase n + e.first + i)).sum

/-- A round's request to one LD; the sheaves that are still to be freed are carried along. -/
def Dev.releaseStep (p : Dev × Nat) (n : Nat) : Dev × Nat :=
  if p.2 = 0 then p
  else
    let (named, f) := coverExtents (d.extentFoot n) p.2 (d.extents n).reverse
    (p.1.requestRelease n named f, p.2 - min f p.2)

theorem Dev.releaseRound_eq : d.releaseRound = (d.overQuota.foldl d.releaseStep (d, d.roundNeed)).1 := rfl

/-- A release request keeps what every record keeps. -/
theorem Dev.requestRelease_keeps {γ : Type} (p : Dev → γ) (h : ∀ (d : Dev) r, p (d.raise r) = p d) (l : List Extent) (foot : Nat) :
    p (d.requestRelease n l foot) = p d := by
  unfold Dev.requestRelease
  split
  · rfl
  · exact (h _ _).trans (foldl_keeps p (fun e _ => h e _) _ d)

theorem Dev.releaseRound_keeps {γ : Type} (p : Dev → γ) (h : ∀ (d : Dev) r, p (d.raise r) = p d) : p d.releaseRound = p d := by
  rw [Dev.releaseRound_eq]
  refine foldl_keeps (fun q : Dev × Nat => p q.1) (fun q n => ?_) d.overQuota (d, d.roundNeed)
  unfold Dev.releaseStep
  split
  · rfl
  · exact q.1.requestRelease_keeps n p h _ _

/-- Of one LD alone over its quota. -/
theorem Dev.overQuota_single {k : Nat} (hk : k < 16) (h : ∀ n < 16, n ≠ k → d.foot n ≤ 16 * d.quotaFrames n)
    (hover : 16 * d.quotaFrames k < d.foot k) : d.overQuota = [k] := by
  have hfilter : ((List.range 16).filter fun n => decide (0 < d.excess n)) = [k] := by
    have hcongr : ((List.range 16).filter fun n => decide (0 < d.excess n)) = (List.range 16).filter (· == k) := by
      refine List.filter_congr fun n hn => ?_
      by_cases hnk : n = k
      · subst hnk
        rw [beq_self_eq_true, decide_eq_true]
        unfold Dev.excess
        omega
      · have := h n (by simpa using hn) hnk
        rw [beq_eq_false_iff_ne.mpr hnk, decide_eq_false]
        unfold Dev.excess
        omega
    rw [hcongr, List.filter_beq, List.count_eq_one_of_mem List.nodup_range (by simpa using hk)]
    rfl
  rw [Dev.overQuota, hfilter, List.mergeSort_singleton]

end

/-- The most recent extent is the first that is named. -/
theorem coverExtents_cons (foot : Extent → Nat) (need : Nat) (x : Extent) (rest : List Extent) :
    ∃ l, (coverExtents foot need (x :: rest)).1 = x :: l := by
  rw [coverExtents]
  split
  · exact ⟨[], rfl⟩
  · exact ⟨_, rfl⟩

/-! ### Records in a log -/

section
variable {y : Rec} {k : Nat}

/-- A record stays in its log when another is put into a log (R106). -/
theorem Logs.mem_put {l : Logs} (now owner : Nat) (r : Rec) (h : y ∈ kvGet (fun _ => []) l.recs k) :
    y ∈ kvGet (fun _ => []) (l.put now owner r).recs k := by
  unfold Logs.put
  dsimp only
  split
  · by_cases hk : owner * 5 + r.sev.code = k
    · subst hk
      rw [kvGet_set_self]
      exact List.mem_append_left _ h
    · rwa [kvGet_set_other _ _ hk]
  · exact h

@[simp] theorem Dev.logIrq_logs (d : Dev) (owner was : Nat) (sev : Sev) : (d.logIrq owner was sev).logs = d.logs := by
  obtain ⟨o, h, -⟩ := d.logIrq_cases owner was sev
  rw [h]

/-- A record goes into the log of the LD that it names, and into the management view's (R106). -/
theorem Dev.raise_logs (d : Dev) (r : Rec) : (d.raise r).logs =
    (if r.ld < 16 then d.logs.put d.nowNs r.ld { r with time := d.nowNs } else d.logs).put d.nowNs 16 { r with time := d.nowNs } := by
  unfold Dev.raise
  by_cases h : r.ld < 16
  · simp [h]
  · simp [h]

theorem Dev.mem_raise {d : Dev} (r : Rec) (h : y ∈ kvGet (fun _ => []) d.logs.recs k) :
    y ∈ kvGet (fun _ => []) (d.raise r).logs.recs k := by
  rw [Dev.raise_logs]
  refine Logs.mem_put _ _ _ ?_
  split
  · exact Logs.mem_put _ _ _ h
  · exact h

end

/-- A record that finds room in its LD's log stands there as it was raised, but for its handle and its time. -/
theorem Dev.raise_enters {d : Dev} {r : Rec} (hld : r.ld < 16)
    (hroom : (kvGet (fun _ => []) d.logs.recs (r.ld * 5 + r.sev.code)).length < 256) :
    ∃ handle, { r with time := d.nowNs, handle := handle } ∈ kvGet (fun _ => []) (d.raise r).logs.recs (r.ld * 5 + r.sev.code) := by
  rw [Dev.raise_logs, if_pos hld]
  refine ⟨kvGet (fun _ => 0) d.logs.made (r.ld * 5 + r.sev.code) % 65535 + 1, Logs.mem_put _ _ _ ?_⟩
  rw [Logs.put]
  dsimp only
  rw [if_pos hroom, kvGet_set_self]
  exact List.mem_append_right _ (List.mem_singleton.mpr rfl)

/-- The release request of an extent of an LD (R176 step 3). -/
def releaseRec (n : Nat) (x : Extent) : Rec :=
  { kind := .releaseCapacity, ty := 0, sev := .dcd, ld := n, addr0 := x.first * 2 ^ 21, addr1 := x.fields * 2 ^ 21, detail := x.tag }

/-- The first extent that a request names stands in the log of its LD. -/
theorem Dev.requestRelease_records (d : Dev) {n foot : Nat} {x : Extent} {l : List Extent} (hn : n < 16)
    (hroom : (kvGet (fun _ => []) d.logs.recs (n * 5 + 4)).length < 256) :
    ∃ y ∈ kvGet (fun _ => []) (d.requestRelease n (x :: l) foot).logs.recs (n * 5 + 4), y.kind = .releaseCapacity ∧
      y.addr0 = x.first * 2 ^ 21 ∧ y.addr1 = x.fields * 2 ^ 21 ∧ y.detail = x.tag := by
  obtain ⟨handle, hy⟩ := Dev.raise_enters (d := d) (r := releaseRec n x) hn hroom
  refine ⟨{ releaseRec n x with time := d.nowNs, handle := handle }, Dev.mem_raise _ ?_, rfl, rfl, rfl, rfl⟩
  exact List.foldlRecOn l _ (motive := fun e : Dev => _ ∈ kvGet (fun _ => []) e.logs.recs (n * 5 + 4)) hy
    fun e he r _ => Dev.mem_raise _ he

/-- A round in which one LD alone is over its quota names that LD's most recent extent. -/
theorem Dev.releaseRound_records {d : Dev} {k : Nat} (hk : k < 16) (hlow : d.elasticFree < wmFrames (d.fld .tedWm F.tedWm_LOW))
    (h : ∀ n < 16, n ≠ k → d.foot n ≤ 16 * d.quotaFrames n) (hover : 16 * d.quotaFrames k < d.foot k) {x : Extent}
    (hx : (d.extents k).getLast? = some x) (hroom : (kvGet (fun _ => []) d.logs.recs (k * 5 + 4)).length < 256) :
    ∃ y ∈ kvGet (fun _ => []) d.releaseRound.logs.recs (k * 5 + 4), y.kind = .releaseCapacity ∧
      y.addr0 = x.first * 2 ^ 21 ∧ y.addr1 = x.fields * 2 ^ 21 ∧ y.detail = x.tag := by
  have hneed : d.roundNeed ≠ 0 := by
    unfold Dev.roundNeed
    omega
  obtain ⟨rest, hrest⟩ : ∃ rest, (d.extents k).reverse = x :: rest := by
    rw [← List.head?_reverse] at hx
    exact List.head?_eq_some_iff.mp hx
  obtain ⟨l, hl⟩ := coverExtents_cons (d.extentFoot k) d.roundNeed x rest
  have hround : d.releaseRound = d.requestRelease k (x :: l) (coverExtents (d.extentFoot k) d.roundNeed (x :: rest)).2 := by
    rw [Dev.releaseRound_eq, d.overQuota_single hk h hover, List.foldl_cons, List.foldl_nil, Dev.releaseStep, if_neg hneed, hrest, ← hl]
  rw [hround]
  exact d.requestRelease_records hk hroom

/-! ### The modes (R175) -/

section
variable (d : Dev)

@[simp] theorem Dev.releaseRound_regs : d.releaseRound.regs = d.regs := d.releaseRound_keeps Dev.regs Dev.raise_regs
@[simp] theorem Dev.releaseRound_ted : d.releaseRound.ted = d.ted := d.releaseRound_keeps Dev.ted Dev.raise_ted
@[simp] theorem Dev.releaseRound_bal : d.releaseRound.bal = d.bal := d.releaseRound_keeps Dev.bal Dev.raise_bal

/-- The mode flags as an evaluation sets them. -/
def Dev.modesSet (isLow isRel isFloor : Bool) : Dev :=
  let d := ((d.setFlag .tedPoolStat F.tedPoolStat_LOW isLow).setFlag .tedPoolStat F.tedPoolStat_REL isRel).setFlag
    .tedPoolStat F.tedPoolStat_FLOOR isFloor
  if isFloor then d.setFlag .tedPoolStat F.tedPoolStat_FLOOR_SEEN true else d

theorem Dev.keepsRegs_modesSet (isLow isRel isFloor : Bool) : d.keepsRegs (d.modesSet isLow isRel isFloor) [.tedPoolStat] := by
  have hin : Reg.tedPoolStat ∈ [Reg.tedPoolStat] := List.mem_singleton_self _
  have h := (((d.keepsRegs_refl [.tedPoolStat]).setFlag hin F.tedPoolStat_LOW isLow).setFlag hin F.tedPoolStat_REL isRel).setFlag
    hin F.tedPoolStat_FLOOR isFloor
  cases isFloor
  · exact h
  · exact h.setFlag hin _ _

/-- An evaluation keeps what its parts keep: the flags, the note that the modes have been evaluated, and the records. -/
theorem Dev.poolEval_keeps {γ : Type} (p : Dev → γ) (h : ∀ (d : Dev) r, p (d.raise r) = p d) :
    ∃ isLow isRel isFloor, p d.poolEval = p ((d.modesSet isLow isRel isFloor).modTed fun t => { t with evaluated := true }) := by
  have hround (c : Prop) [Decidable c] (e : Dev) : p (if c then e.releaseRound else e) = p e := by
    split
    · exact e.releaseRound_keeps p h
    · rfl
  have hrec (c : Prop) [Decidable c] (e : Dev) (r : Rec) : p (if c then e.raise r else e) = p e := by
    split
    · exact h e r
    · rfl
  unfold Dev.poolEval
  dsimp only
  exact ⟨_, _, _, (hround _ _).trans ((hrec _ _ _).trans (hrec _ _ _))⟩

theorem Dev.modesSet_ted (isLow isRel isFloor : Bool) : (d.modesSet isLow isRel isFloor).ted = d.ted := by
  have h : (((d.setFlag .tedPoolStat F.tedPoolStat_LOW isLow).setFlag .tedPoolStat F.tedPoolStat_REL isRel).setFlag
      .tedPoolStat F.tedPoolStat_FLOOR isFloor).ted = d.ted := by
    rw [Dev.setFlag_ted, Dev.setFlag_ted, Dev.setFlag_ted]
  rw [Dev.modesSet, apply_ite Dev.ted, Dev.setFlag_ted, h, ite_self]

theorem Dev.poolEval_ted : d.poolEval.ted = { d.ted with evaluated := true } := by
  obtain ⟨isLow, isRel, isFloor, h⟩ := d.poolEval_keeps Dev.ted Dev.raise_ted
  exact h.trans (congrArg (fun t : Tiers => { t with evaluated := true }) (d.modesSet_ted isLow isRel isFloor))

theorem Dev.keepsRegs_poolEval : d.keepsRegs d.poolEval [.tedPoolStat] := by
  obtain ⟨isLow, isRel, isFloor, h⟩ := d.poolEval_keeps Dev.regs Dev.raise_regs
  exact (d.keepsRegs_modesSet isLow isRel isFloor).regs_eq h

end

end Sys2Proof.Machine
end

section
/-! SUPPORT. The frame pool (R166, R167): the pool's accounts, and each command of a pool range by what it finds. -/

namespace Sys2Proof.Machine

/-! ### Registers that stay -/

section
variable {d e f : Dev} {l but : List Reg}

theorem Dev.keepsRegs.mono (h : d.keepsRegs e l) (hl : ∀ r ∈ l, r ∈ but) : d.keepsRegs e but :=
  fun q hq => h q fun r hr => hq r (hl r hr)

theorem Dev.keepsRegs.trans (h : d.keepsRegs e but) (h' : e.keepsRegs f but) : d.keepsRegs f but :=
  fun q hq => (h' q hq).trans (h q hq)

theorem Dev.keepsRegs.flag (h : d.keepsRegs e but) {q : Reg} (hq : ∀ r ∈ but, r.offset ≠ q.offset) (g : Fld) :
    e.flag q g = d.flag q g := congrArg (· != 0) (h.fld hq g)

end

/-! ### The pool's accounts -/

section
variable (d : Dev) {f : Nat} (rc : Nat)

/-- Registers of the pool's accounts and modes. -/
def poolRegs : List Reg := [.tedPoolFree, .tedPoolResv, .tedPoolStat]

theorem Dev.keepsRegs_setPool (f : Nat) : d.keepsRegs (d.setPool f rc) poolRegs := by
  unfold Dev.setPool
  split
  · exact d.keepsRegs_refl _
  · refine (((d.keepsRegs_refl poolRegs).wr ?_ f).wr ?_ rc).trans ((Dev.keepsRegs_poolEval _).mono ?_)
    all_goals simp [poolRegs]

/-- Of the Tedders' storage, the accounts concern the note alone that the modes have been evaluated. -/
theorem Dev.setPool_ted (f : Nat) : ∃ b, (d.setPool f rc).ted = { d.ted with evaluated := b } := by
  unfold Dev.setPool
  split
  · exact ⟨d.ted.evaluated, rfl⟩
  · exact ⟨true, (Dev.poolEval_ted _).trans rfl⟩

theorem Dev.setPool_ted_free (f : Nat) : (d.setPool f rc).ted.free = d.ted.free := by
  obtain ⟨b, h⟩ := d.setPool_ted rc f
  rw [h]

theorem Dev.setPool_freeFrames (hf : f < 2 ^ 64) : (d.setPool f rc).freeFrames = f := by
  unfold Dev.setPool
  split
  · next h => exact h.1.symm
  · refine (Dev.keepsRegs_poolEval _ .tedPoolFree ?_).trans ?_
    · simp [Reg.offset]
    · rw [Dev.rd_wr_other _ (by decide), Dev.rd_wr_self, Nat.mod_eq_of_lt hf]

end

/-! ### Pool ranges -/

section
variable {d : Dev} {k : Nat}

theorem tedPool_apart_poolRegs (hk : k < 16) : ∀ r ∈ poolRegs, r.offset ≠ (Reg.tedPool k).offset := by
  simp only [poolRegs, List.mem_cons, List.not_mem_nil, or_false, forall_eq_or_imp, forall_eq, Reg.offset]
  omega

theorem Dev.keepsRegs_setPoolFlag (f : Fld) (b : Bool) : d.keepsRegs (d.setFlag (.tedPool k) f b) [.tedPool k] :=
  (d.keepsRegs_refl _).setFlag (List.mem_singleton_self _) f b

/-- The tests of R167 for a range that is to be enabled. -/
def Dev.poolFits (d : Dev) (k : Nat) : Prop :=
  0 < (d.poolSpan k).2 ∧ d.covered (d.poolSpan k).1 (d.poolSpan k).2 = true ∧
    (∀ j < 16, j ≠ k → d.poolEn j = true →
      overlaps (d.poolSpan k).1 (d.poolSpan k).2 (d.poolSpan j).1 (d.poolSpan j).2 = false) ∧
    overlaps (d.poolSpan k).1 (d.poolSpan k).2 d.ftab (2 ^ 30) = false ∧
    (∀ n < 16, d.winEn n = true → overlaps (d.poolSpan k).1 (d.poolSpan k).2 (d.flatRange n).1 (d.flatRange n).2 = false) ∧
    d.hitsCounters (d.poolSpan k).1 (d.poolSpan k).2 = false

/-- The refusal of POOL_ENABLE, as the command finds it. -/
def Dev.poolRefused (d : Dev) (k : Nat) : Bool :=
  let (a, len) := d.poolSpan k
  len = 0 || !d.covered a len || ((List.range 16).any fun j => j != k && d.poolEn j && overlaps a len (d.poolSpan j).1 (d.poolSpan j).2)
    || overlaps a len d.ftab (2 ^ 30) || ((List.range 16).any fun n => d.winEn n && overlaps a len (d.flatRange n).1 (d.flatRange n).2)
    || d.hitsCounters a len

theorem Dev.poolRefused_iff : d.poolRefused k = true ↔ ¬ d.poolFits k := by
  rw [← Bool.not_eq_false, not_iff_not]
  simp only [Dev.poolRefused, Dev.poolFits, Bool.or_eq_false_iff, decide_eq_false_iff_not, Bool.not_eq_false', List.any_eq_false,
    List.mem_range, Bool.and_eq_true, bne_iff_ne, ne_eq, and_assoc, not_and, Bool.not_eq_true, Nat.pos_iff_ne_zero]

/-- The flags of a range that is enabled. -/
def Dev.poolOpened (d : Dev) (k : Nat) : Dev :=
  (d.setFlag (.tedPool k) F.tedPool_EN true).setFlag (.tedPool k) F.tedPool_DRAINED false

/-- A range's frames at the end of the free list. -/
def Dev.poolListed (d : Dev) (k : Nat) : Dev :=
  d.modTed fun t => { t with free := t.free ++ [((d.poolSpan k).1 / 4096, (d.poolSpan k).2 / 4096)] }

theorem Dev.poolSpan_setFlag (f : Fld) (b : Bool) (hlo : f.lo ≤ f.hi) (h : 50 < f.lo) :
    (d.setFlag (.tedPool k) f b).poolSpan k = d.poolSpan k := by
  rw [Dev.poolSpan, Dev.fld_setFlag_field _ _ _ hlo (by decide) (.inl (by simp only [F.tedPool_BASE]; omega)),
    Dev.fld_setFlag_field _ _ _ hlo (by decide) (.inl (by simp only [F.tedPool_SIZE]; omega)), ← Dev.poolSpan]

theorem Dev.poolSpan_poolOpened : (d.poolOpened k).poolSpan k = d.poolSpan k := by
  rw [Dev.poolOpened, Dev.poolSpan_setFlag _ _ (by decide) (by decide), Dev.poolSpan_setFlag _ _ (by decide) (by decide)]

theorem Dev.keepsRegs_poolOpened : d.keepsRegs (d.poolOpened k) [.tedPool k] :=
  (Dev.keepsRegs_setPoolFlag _ _).setFlag (List.mem_singleton_self _) _ _

theorem Dev.poolOpened_ted : (d.poolOpened k).ted = d.ted := by
  rw [Dev.poolOpened, Dev.setFlag_ted, Dev.setFlag_ted]

theorem Dev.poolEnable_eq : d.poolEnable k =
    if d.poolEn k then d
    else if d.poolRefused k then d.setFlag (.tedPool k) F.tedPool_ERR true
    else
      let e := (d.poolOpened k).modTed fun t => { t with free := t.free ++ [((d.poolSpan k).1 / 4096, (d.poolSpan k).2 / 4096)] }
      e.setPool (e.freeFrames + (d.poolSpan k).2 / 4096) e.resv := rfl

theorem Dev.poolEnable_of_enabled (h : d.poolEn k = true) : d.poolEnable k = d := by
  rw [Dev.poolEnable_eq, if_pos h]

theorem Dev.poolEnable_of_not_fits (h : d.poolEn k = false) (hfits : ¬ d.poolFits k) :
    d.poolEnable k = d.setFlag (.tedPool k) F.tedPool_ERR true := by
  rw [Dev.poolEnable_eq, if_neg (by simp [h]), if_pos (Dev.poolRefused_iff.mpr hfits)]

theorem Dev.poolEnable_of_fits (h : d.poolEn k = false) (hfits : d.poolFits k) :
    d.poolEnable k = ((d.poolOpened k).poolListed k).setPool
      (((d.poolOpened k).poolListed k).freeFrames + (d.poolSpan k).2 / 4096) ((d.poolOpened k).poolListed k).resv := by
  rw [Dev.poolEnable_eq, if_neg (by simp [h]), if_neg (by simpa using Dev.poolRefused_iff.not.mpr (not_not.mpr hfits)),
    Dev.poolListed, Dev.poolSpan_poolOpened]

/-- A range that is enabled is used from then on, and its frames count as free. -/
theorem Dev.poolEnable_enables (hk : k < 16) (h : d.poolEn k = false) (hfits : d.poolFits k)
    (hroom : d.freeFrames + (d.poolSpan k).2 / 4096 < 2 ^ 64) :
    (d.poolEnable k).poolEn k = true ∧ (d.poolEnable k).flag (.tedPool k) F.tedPool_DRAINED = false ∧
      (d.poolEnable k).ted.free = d.ted.free ++ [((d.poolSpan k).1 / 4096, (d.poolSpan k).2 / 4096)] ∧
      (d.poolEnable k).freeFrames = d.freeFrames + (d.poolSpan k).2 / 4096 ∧
      d.keepsRegs (d.poolEnable k) [.tedPool k, .tedPoolFree, .tedPoolResv, .tedPoolStat] := by
  have hopen : d.keepsRegs ((d.poolOpened k).poolListed k) [.tedPool k] := Dev.keepsRegs_poolOpened.regs_eq (Dev.modTed_regs _ _)
  have hfree : ((d.poolOpened k).poolListed k).freeFrames = d.freeFrames :=
    hopen .tedPoolFree (by simp only [List.mem_singleton, forall_eq, Reg.offset]; omega)
  rw [Dev.poolEnable_of_fits h hfits, hfree]
  have hkeep := ((d.poolOpened k).poolListed k).keepsRegs_setPool ((d.poolOpened k).poolListed k).resv
    (d.freeFrames + (d.poolSpan k).2 / 4096)
  refine ⟨?_, ?_, ?_, Dev.setPool_freeFrames _ _ hroom, hopen.trans_cons hkeep⟩
  · refine (hkeep.flag (tedPool_apart_poolRegs hk) _).trans ?_
    rw [Dev.poolListed, Dev.modTed_flag, Dev.poolOpened, Dev.flag_setFlag_field _ _ _ (by decide) (by decide) (by decide),
      Dev.flag_setFlag_self _ _ _ (by decide) (by decide)]
  · refine (hkeep.flag (tedPool_apart_poolRegs hk) _).trans ?_
    rw [Dev.poolListed, Dev.modTed_flag, Dev.poolOpened, Dev.flag_setFlag_self _ _ _ (by decide) (by decide)]
  · rw [Dev.setPool_ted_free, Dev.poolListed, Dev.modTed, Dev.poolSpan_poolOpened, Dev.poolOpened_ted]

/-- Frames that the windows ask for of the ranges that are not being withdrawn (R170). -/
def Dev.poolNeed (d : Dev) : Nat :=
  (((List.range 16).filter d.winEn).map fun n =>
    (if d.flag (.tedLdcap n) F.tedLdcap_TIERED then 513 * d.fld (.tedLdcap n) F.tedLdcap_COMMIT else 0) + d.quotaFrames n).sum

/-- Frames of the ranges but `k` that are not being withdrawn. -/
def Dev.poolRest (d : Dev) (k : Nat) : Nat :=
  d.poolFrames ((List.range 16).filter fun j => j != k && !d.flag (.tedPool j) F.tedPool_DRAIN)

theorem Dev.poolDrain_eq : d.poolDrain k =
    if d.flag (.tedPool k) F.tedPool_DRAIN || !d.poolEn k then d
    else if d.poolRest k < d.poolNeed then d.setFlag (.tedPool k) F.tedPool_ERR true
    else d.setFlag (.tedPool k) F.tedPool_DRAIN true := rfl

theorem Dev.poolDrain_of_idle (h : d.poolEn k = false ∨ d.flag (.tedPool k) F.tedPool_DRAIN = true) : d.poolDrain k = d := by
  rw [Dev.poolDrain_eq, if_pos]
  rcases h with h | h <;> simp [h]

/-- An enabled range is withdrawn where the others hold what is asked for, and else its ERR sets. -/
theorem Dev.poolDrain_drains (hen : d.poolEn k = true) (hdrain : d.flag (.tedPool k) F.tedPool_DRAIN = false) :
    d.keepsRegs (d.poolDrain k) [.tedPool k] ∧ (d.poolDrain k).ted = d.ted ∧
      (d.poolDrain k).flag (.tedPool k) F.tedPool_DRAIN = decide (d.poolNeed ≤ d.poolRest k) ∧
      (d.poolRest k < d.poolNeed → (d.poolDrain k).flag (.tedPool k) F.tedPool_ERR = true) := by
  rw [Dev.poolDrain_eq, if_neg (by simp [hen, hdrain])]
  by_cases h : d.poolRest k < d.poolNeed
  · rw [if_pos h]
    refine ⟨Dev.keepsRegs_setPoolFlag _ _, d.setFlag_ted _ _ _, ?_, fun _ => Dev.flag_setFlag_self _ _ _ (by decide) (by decide)⟩
    rw [Dev.flag_setFlag_field _ _ _ (by decide) (by decide) (by decide), hdrain, decide_eq_false (by omega)]
  · rw [if_neg h]
    refine ⟨Dev.keepsRegs_setPoolFlag _ _, d.setFlag_ted _ _ _, ?_, fun h' => absurd h' h⟩
    rw [Dev.flag_setFlag_self _ _ _ (by decide) (by decide), decide_eq_true (by omega)]

/-- A frame of a range is in use. -/
def Dev.poolUsed (d : Dev) (k : Nat) : Prop :=
  ∃ p ∈ d.ted.uses, (d.poolSpan k).1 / 4096 ≤ p.1 ∧ p.1 < (d.poolSpan k).1 / 4096 + (d.poolSpan k).2 / 4096

/-- A range that is being withdrawn has no frame in use any more. -/
def Dev.drainDue (d : Dev) (k : Nat) : Prop :=
  d.poolEn k = true ∧ d.flag (.tedPool k) F.tedPool_DRAIN = true ∧ d.flag (.tedPool k) F.tedPool_DRAINED = false ∧ ¬ d.poolUsed k

/-- A GiB is 262,144 frames. -/
theorem gib_frames (x : Nat) : x * 2 ^ 30 / 4096 = x * 262144 := by omega

theorem Dev.drainCheck_of_due (h : d.drainDue k) : ∃ r,
    d.drainCheck k = (d.setFlag (.tedPool k) F.tedPool_DRAINED true).raise r := by
  obtain ⟨hen, hdrain, hdrained, hused⟩ := h
  simp only [Dev.poolUsed, Dev.poolSpan, gib_frames, not_exists, not_and] at hused
  refine ⟨_, if_pos ?_⟩
  simp only [Bool.and_eq_true, Bool.not_eq_true', List.any_eq_false, decide_eq_true_eq]
  exact ⟨⟨⟨hen, hdrain⟩, hdrained⟩, fun p hp hin => hused p hp hin.1 hin.2⟩

theorem Dev.drainCheck_of_not_due (h : ¬ d.drainDue k) : d.drainCheck k = d := by
  refine if_neg fun hc => h ?_
  simp only [Bool.and_eq_true, Bool.not_eq_true', List.any_eq_false, decide_eq_true_eq] at hc
  obtain ⟨⟨⟨hen, hdrain⟩, hdrained⟩, hused⟩ := hc
  refine ⟨hen, hdrain, hdrained, ?_⟩
  rintro ⟨p, hp, hin⟩
  simp only [Dev.poolSpan, gib_frames] at hin
  exact hused p hp hin

/-- The range's frames leave the free list and the list of the lost ones. -/
def Dev.poolCleared (d : Dev) (k : Nat) : Dev :=
  let inside (f : Nat) : Bool := decide ((d.poolSpan k).1 / 4096 ≤ f) && decide (f < ((d.poolSpan k).1 + (d.poolSpan k).2) / 4096)
  d.modTed fun t => { t with free := t.free.filter fun r => !inside r.1, leaked := t.leaked.filter fun f => !inside f }

/-- The flags of a range that is disabled. -/
def Dev.poolClosed (d : Dev) (k : Nat) : Dev :=
  ((d.setFlag (.tedPool k) F.tedPool_EN false).setFlag (.tedPool k) F.tedPool_DRAIN false).setFlag (.tedPool k) F.tedPool_DRAINED false

theorem Dev.keepsRegs_poolClosed : d.keepsRegs (d.poolClosed k) [.tedPool k] :=
  ((Dev.keepsRegs_setPoolFlag _ _).setFlag (List.mem_singleton_self _) _ _).setFlag (List.mem_singleton_self _) _ _

theorem Dev.poolClosed_ted : (d.poolClosed k).ted = d.ted := by
  rw [Dev.poolClosed, Dev.setFlag_ted, Dev.setFlag_ted, Dev.setFlag_ted]

theorem Dev.poolDisable_eq : ∃ gone, d.poolDisable k =
    if !d.poolEn k then d
    else if !d.flag (.tedPool k) F.tedPool_DRAINED then d.setFlag (.tedPool k) F.tedPool_ERR true
    else ((d.poolCleared k).poolClosed k).setPool (((d.poolCleared k).poolClosed k).freeFrames - gone)
      ((d.poolCleared k).poolClosed k).resv := ⟨_, rfl⟩

theorem Dev.poolDisable_of_disabled (h : d.poolEn k = false) : d.poolDisable k = d := by
  obtain ⟨gone, heq⟩ := d.poolDisable_eq (k := k)
  rw [heq, if_pos (by simp [h])]

theorem Dev.poolDisable_of_not_drained (h : d.poolEn k = true) (hd : d.flag (.tedPool k) F.tedPool_DRAINED = false) :
    d.poolDisable k = d.setFlag (.tedPool k) F.tedPool_ERR true := by
  obtain ⟨gone, heq⟩ := d.poolDisable_eq (k := k)
  rw [heq, if_neg (by simp [h]), if_pos (by simp [hd])]

/-- A drained range leaves the pool, with its frames. -/
theorem Dev.poolDisable_disables (hk : k < 16) (h : d.poolEn k = true) (hd : d.flag (.tedPool k) F.tedPool_DRAINED = true) :
    (d.poolDisable k).poolEn k = false ∧ (d.poolDisable k).flag (.tedPool k) F.tedPool_DRAIN = false ∧
      (d.poolDisable k).flag (.tedPool k) F.tedPool_DRAINED = false ∧
      (d.poolDisable k).ted.free = d.ted.free.filter (fun f => !(decide ((d.poolSpan k).1 / 4096 ≤ f.1) &&
        decide (f.1 < ((d.poolSpan k).1 + (d.poolSpan k).2) / 4096))) ∧
      d.keepsRegs (d.poolDisable k) [.tedPool k, .tedPoolFree, .tedPoolResv, .tedPoolStat] := by
  obtain ⟨gone, heq⟩ := d.poolDisable_eq (k := k)
  rw [heq, if_neg (by simp [h]), if_neg (by simp [hd])]
  have hkeep := ((d.poolCleared k).poolClosed k).keepsRegs_setPool ((d.poolCleared k).poolClosed k).resv
    (((d.poolCleared k).poolClosed k).freeFrames - gone)
  have hclosed : d.keepsRegs ((d.poolCleared k).poolClosed k) [.tedPool k] :=
    (Dev.keepsRegs_of_regs_eq (d.modTed_regs _)).trans Dev.keepsRegs_poolClosed
  have hflag {f : Fld} (hf : ((d.poolCleared k).poolClosed k).flag (.tedPool k) f = false) :
      (((d.poolCleared k).poolClosed k).setPool (((d.poolCleared k).poolClosed k).freeFrames - gone)
        ((d.poolCleared k).poolClosed k).resv).flag (.tedPool k) f = false :=
    (hkeep.flag (tedPool_apart_poolRegs hk) _).trans hf
  refine ⟨hflag ?_, hflag ?_, hflag ?_, ?_, hclosed.trans_cons hkeep⟩
  · rw [Dev.poolClosed, Dev.flag_setFlag_field _ _ _ (by decide) (by decide) (by decide),
      Dev.flag_setFlag_field _ _ _ (by decide) (by decide) (by decide), Dev.flag_setFlag_self _ _ _ (by decide) (by decide)]
  · rw [Dev.poolClosed, Dev.flag_setFlag_field _ _ _ (by decide) (by decide) (by decide),
      Dev.flag_setFlag_self _ _ _ (by decide) (by decide)]
  · rw [Dev.poolClosed, Dev.flag_setFlag_self _ _ _ (by decide) (by decide)]
  · rw [Dev.setPool_ted_free, Dev.poolClosed_ted, Dev.poolCleared, Dev.modTed]

end

/-! ### The watermarks (R175) -/

section
variable {d : Dev} {v : Nat}

/-- FLOOR below REL below LOW. -/
abbrev wmOrdered (v : Nat) : Prop := bitsOf v 15 0 < bitsOf v 31 16 ∧ bitsOf v 31 16 < bitsOf v 47 32

/-- TED_WM as a write that is not refused leaves it. -/
def Dev.wmStored (d : Dev) (v : Nat) : Dev :=
  d.wr .tedWm (v % 2 ^ 56 + b2n (d.flag .tedWm F.tedWm_ERR && !bitOf v 63) * 2 ^ 63)

theorem Dev.wmWrite_eq : d.wmWrite v =
    if wmOrdered v then if d.rd .tedWm % 2 ^ 56 = v % 2 ^ 56 then d.wmStored v else (d.wmStored v).poolEval
    else d.setFlag .tedWm F.tedWm_ERR true := rfl

/-- The fields of TED_WM that hold watermarks. -/
def wmFields : List Fld := [F.tedWm_FLOOR, F.tedWm_REL, F.tedWm_LOW, F.tedWm_HYST]

theorem wmFields_low : ∀ f ∈ wmFields, f.lo ≤ f.hi ∧ f.hi < 56 := by decide

/-- A field in the low bits of a register does not show what stands above them. -/
theorem bitsOf_low_add {n hi lo : Nat} (hhi : hi < n) (hlo : lo ≤ hi) (x : Nat) : bitsOf (v % 2 ^ n + 2 ^ n * x) hi lo = bitsOf v hi lo := by
  apply Nat.eq_of_testBit_eq
  intro i
  rw [bitsOf_testBit, bitsOf_testBit]
  by_cases hi' : i < hi + 1 - lo
  · have hlt : lo + i < n := by omega
    rw [Nat.add_comm (v % 2 ^ n), Nat.testBit_two_pow_mul_add _ (Nat.mod_lt _ (by positivity)), if_pos hlt, Nat.testBit_mod_two_pow]
    simp [hlt]
  · simp [hi']

theorem Dev.wmWrite_of_not_ordered (h : ¬ wmOrdered v) : d.wmWrite v = d.setFlag .tedWm F.tedWm_ERR true := by
  rw [Dev.wmWrite_eq, if_neg h]

theorem Dev.fld_wmStored {f : Fld} (hf : f ∈ wmFields) : (d.wmStored v).fld .tedWm f = bitsOf v f.hi f.lo := by
  obtain ⟨hlo, hhi⟩ := wmFields_low f hf
  have hval (b : Bool) : (v % 2 ^ 56 + b2n b * 2 ^ 63) % 2 ^ 64 = v % 2 ^ 56 + 2 ^ 56 * (b2n b * 2 ^ 7) := by
    have hb : b2n b ≤ 1 := by cases b <;> decide
    omega
  show bitsOf ((d.wr .tedWm _).rd .tedWm) f.hi f.lo = _
  rw [Dev.rd_wr_self, hval, bitsOf_low_add hhi hlo]

/-- Watermarks in order are all set. -/
theorem Dev.wmWrite_sets (h : wmOrdered v) : d.keepsRegs (d.wmWrite v) [.tedWm, .tedPoolStat] ∧
    ∀ f ∈ wmFields, (d.wmWrite v).fld .tedWm f = bitsOf v f.hi f.lo := by
  have hstored : d.keepsRegs (d.wmStored v) [.tedWm] := d.keepsRegs_wr _ _
  rw [Dev.wmWrite_eq, if_pos h]
  split
  · exact ⟨hstored.mono (by simp), fun f hf => Dev.fld_wmStored hf⟩
  · have hkeep := (d.wmStored v).keepsRegs_poolEval
    exact ⟨hstored.trans_cons hkeep, fun f hf => (hkeep.fld (by simp [Reg.offset]) f).trans (Dev.fld_wmStored hf)⟩

/-- Watermarks out of order set ERR alone. -/
theorem Dev.wmWrite_refuses (h : ¬ wmOrdered v) : d.keepsRegs (d.wmWrite v) [.tedWm, .tedPoolStat] ∧
    (d.wmWrite v).flag .tedWm F.tedWm_ERR = true ∧ ∀ f ∈ wmFields, (d.wmWrite v).fld .tedWm f = d.fld .tedWm f := by
  rw [Dev.wmWrite_of_not_ordered h]
  refine ⟨(d.keepsRegs_refl _).setFlag (by simp) _ _, Dev.flag_setFlag_self _ _ _ (by decide) (by decide), fun f hf => ?_⟩
  obtain ⟨-, hhi⟩ := wmFields_low f hf
  exact Dev.fld_setFlag_field _ _ _ (by decide) (by omega) (.inl (by simp only [F.tedWm_ERR]; omega))

end

/-! ### The commands -/

section
variable {s : State} {k v : Nat}

theorem tedPool_offset_low (hk : k < 16) : (Reg.tedPool k).offset < 0xD00000 ∨ 0xE00000 ≤ (Reg.tedPool k).offset := by
  simp only [Reg.offset]
  omega

theorem exec_poolEnable_of_reaches (hk : k < 16) (h : s.reaches (.tedPool k)) :
    exec (.poolEnable k) s = .next (s.settle (s.dev.poolEnable k)) := by
  rw [exec_poolEnable (by simpa [Instr.wf] using hk) h.1, Dev.viaReg_of_reaches h (tedPool_offset_low hk)]

theorem exec_poolDrain_of_reaches (hk : k < 16) (h : s.reaches (.tedPool k)) :
    exec (.poolDrain k) s = .next (s.settle (s.dev.poolDrain k)) := by
  rw [exec_poolDrain (by simpa [Instr.wf] using hk) h.1, Dev.viaReg_of_reaches h (tedPool_offset_low hk)]

theorem exec_poolDisable_of_reaches (hk : k < 16) (h : s.reaches (.tedPool k)) :
    exec (.poolDisable k) s = .next (s.settle (s.dev.poolDisable k)) := by
  rw [exec_poolDisable (by simpa [Instr.wf] using hk) h.1, Dev.viaReg_of_reaches h (tedPool_offset_low hk)]

theorem exec_watermarkWrite_of_reaches (hv : v < 2 ^ 64) (h : s.reaches .tedWm) :
    exec (.watermarkWrite v) s = .next (s.settle (s.dev.wmWrite v)) := by
  rw [exec_watermarkWrite (by simpa [Instr.wf] using hv) h.1, Dev.viaReg_of_reaches h (by decide)]

end

/-- Settles O33: each command of a pool range, of the watermarks and of the release requests by what it finds. -/
theorem poolAndWatermarks : Obligations.PoolAndWatermarks := by
  intro s k hup hk
  refine ⟨fun hr => ⟨fun hen => ?_, fun hen => ?_, fun hidle => ?_⟩, fun hr hen => ⟨fun hfits hroom => ?_, fun hfits => ?_⟩,
    fun hr hen hdrain => ?_, ⟨fun hdue => ?_, fun hdue => ?_⟩, fun hr hen => ⟨fun hd => ?_, fun hd => ?_⟩, fun v hv hr => ?_,
    fun hrel => ?_, fun hrel hlow hothers hover x hx hroom => ?_⟩
  · rw [exec_poolEnable_of_reaches hk hr, Dev.poolEnable_of_enabled hen]
  · rw [exec_poolDisable_of_reaches hk hr, Dev.poolDisable_of_disabled hen]
  · rw [exec_poolDrain_of_reaches hk hr, Dev.poolDrain_of_idle hidle]
  · exact ⟨_, exec_poolEnable_of_reaches hk hr, Dev.poolEnable_enables hk hen hfits hroom⟩
  · refine ⟨_, exec_poolEnable_of_reaches hk hr, ?_⟩
    rw [Dev.poolEnable_of_not_fits hen hfits]
    refine ⟨?_, Dev.flag_setFlag_self _ _ _ (by decide) (by decide), Dev.keepsRegs_setPoolFlag _ _, Dev.setFlag_ted _ _ _ _⟩
    exact (Dev.flag_setFlag_field _ _ _ (by decide) (by decide) (by decide)).trans hen
  · exact ⟨_, exec_poolDrain_of_reaches hk hr, Dev.poolDrain_drains hen hdrain⟩
  · obtain ⟨r, heq⟩ := Dev.drainCheck_of_due (d := s.dev) (k := k) hdue
    refine ⟨_, exec_poolDrained (by simpa [Instr.wf] using hk) hup, ?_⟩
    rw [heq, Dev.raise_ted, Dev.setFlag_ted]
    exact ⟨(congrArg (fun m => m.flag (.tedPool k) F.tedPool_DRAINED) (Dev.raise_regs _ _)).trans (Dev.flag_setFlag_self _ _ _ (by decide) (by decide)),
      (Dev.keepsRegs_setPoolFlag _ _).regs_eq (Dev.raise_regs _ _), rfl⟩
  · rw [exec_poolDrained (by simpa [Instr.wf] using hk) hup, Dev.drainCheck_of_not_due hdue]
  · exact ⟨_, exec_poolDisable_of_reaches hk hr, Dev.poolDisable_disables hk hen hd⟩
  · refine ⟨_, exec_poolDisable_of_reaches hk hr, ?_⟩
    rw [Dev.poolDisable_of_not_drained hen hd]
    refine ⟨?_, Dev.flag_setFlag_self _ _ _ (by decide) (by decide), Dev.keepsRegs_setPoolFlag _ _, Dev.setFlag_ted _ _ _ _⟩
    exact (Dev.flag_setFlag_field _ _ _ (by decide) (by decide) (by decide)).trans hen
  · refine ⟨_, exec_watermarkWrite_of_reaches hv hr, ?_⟩
    by_cases hord : wmOrdered v
    · obtain ⟨hkeep, hset⟩ := Dev.wmWrite_sets (d := s.dev) hord
      exact ⟨hkeep, fun _ => hset, fun h => absurd hord h⟩
    · obtain ⟨hkeep, herr⟩ := Dev.wmWrite_refuses (d := s.dev) hord
      exact ⟨hkeep, fun h => absurd h hord, fun _ => herr⟩
  · rw [exec_releaseRequestInterval hup, Dev.releaseAgain, if_neg (by simp [hrel])]
  · refine ⟨s.dev.releaseRound, ?_, Dev.releaseRound_regs _, Dev.releaseRound_hp _,
      Dev.releaseRound_records hk hlow hothers hover hx hroom⟩
    rw [exec_releaseRequestInterval hup, Dev.releaseAgain, if_pos hrel]

end Sys2Proof.Machine
end

section
/-! SUPPORT. Dynamic capacity (R96, R174, R177, R331): an LD's list of extents, and each command by what it finds. -/

namespace Sys2Proof.Machine

/-! ### An LD's extents -/

section
variable (d : Dev) (n : Nat) (l : List Extent)

/-- The list of extents, with its generation (R96). -/
def Dev.listExtents (d : Dev) (n : Nat) (l : List Extent) : Dev :=
  { d with hp := { d.hp with extents := kvSet (fun _ => []) d.hp.extents n l, extGen := d.hp.extGen.modify n (· + 1) } }

theorem Dev.setExtents_eq : d.setExtents n l =
    ((d.listExtents n l).setFld (.tedLdgrant n) F.tedLdgrant_EXTENTS l.length).setFld
      (.tedLdgrant n) F.tedLdgrant_FIELDS ((l.map (·.fields)).sum) := rfl

theorem Dev.setExtents_hp : (d.setExtents n l).hp = (d.listExtents n l).hp := by
  rw [Dev.setExtents_eq, Dev.setFld_hp, Dev.setFld_hp]

theorem Dev.setExtents_ted : (d.setExtents n l).ted = d.ted := by
  rw [Dev.setExtents_eq, Dev.setFld_ted, Dev.setFld_ted]
  rfl

theorem Dev.setExtents_out : (d.setExtents n l).out = d.out := by
  rw [Dev.setExtents_eq, Dev.setFld_out, Dev.setFld_out]
  rfl

theorem Dev.setExtents_extents : (d.setExtents n l).extents n = l := by
  rw [Dev.extents, Dev.setExtents_hp]
  exact kvGet_set_self _ _ _ _

theorem Dev.setExtents_extents_other {k : Nat} (h : k ≠ n) : (d.setExtents n l).extents k = d.extents k := by
  rw [Dev.extents, Dev.setExtents_hp]
  exact kvGet_set_other _ _ h.symm _

theorem Dev.keepsRegs_setExtents : d.keepsRegs (d.setExtents n l) [.tedLdgrant n] := by
  rw [Dev.setExtents_eq]
  have hin : Reg.tedLdgrant n ∈ [Reg.tedLdgrant n] := List.mem_singleton_self _
  exact ((Dev.keepsRegs_of_regs_eq (d := d) (e := d.listExtents n l) rfl).setFld hin _ _).setFld hin _ _

theorem Dev.setExtents_count (h : l.length < 2 ^ 11) : (d.setExtents n l).fld (.tedLdgrant n) F.tedLdgrant_EXTENTS = l.length := by
  rw [Dev.setExtents_eq, Dev.fld_setFld_field _ _ _ (by decide) (by decide) (by decide),
    Dev.fld_setFld_self _ _ _ (by decide) (by decide)]
  exact Nat.mod_eq_of_lt h

end

theorem Dev.emit_getLast (d : Dev) (o : Out) : (d.emit o).out.getLast? = some o := List.getLast?_concat

/-! ### ADD_CAPACITY (R174) -/

section
variable {d : Dev} {m : Dram} {n first fields tag : Nat}

/-- An extent that an LD can take: a built window of a CXL 3.1 head, inside one region, clear of the LD's extents. -/
def Dev.extentSound (d : Dev) (n first fields : Nat) : Prop :=
  d.on31 n = true ∧ d.winBuilt n = true ∧ 0 < fields ∧ (d.regionOf n first fields).isSome = true ∧
    (∀ e ∈ d.extents n, overlaps first fields e.first e.fields = false) ∧ (d.extents n).length < 1024

/-- The quota or overcommit test, or the watermarks, leave no room for more fields. -/
def Dev.extentFull (d : Dev) (n fields : Nat) : Prop :=
  (d.fld (.tedLdcap n) F.tedLdcap_OVC + 1) * d.quotaFrames n < d.extentPages n + 512 * fields ∨
    d.quotaFrames n * d.extentPages n * 16 < d.foot n * (d.extentPages n + 512 * fields) ∨ d.relMode = true ∨
    d.elasticFree - (fields : Int) < wmFrames (d.fld .tedWm F.tedWm_FLOOR)

/-- The fields of an extent become elastic fields of its LD. -/
def Dev.populateExtent (d : Dev) (m : Dram) (n first fields : Nat) : Dev :=
  (List.range fields).foldl (fun d i => d.newTiered m (d.winBase n + first + i) n true) d

@[simp] theorem Dev.populateExtent_hp : (d.populateExtent m n first fields).hp = d.hp :=
  foldl_keeps Dev.hp (fun e i => e.newTiered_hp m (e.winBase n + first + i) n true) _ d

theorem Dev.addCapacity_of_not_sound (h : ¬ d.extentSound n first fields) :
    d.addCapacity m n first fields tag = d.emit (.mailbox 16 .addCapacity .invalidInput []) := by
  refine if_pos ?_
  contrapose! h
  simp only [Bool.not_eq_true, Bool.or_eq_false_iff, Bool.not_eq_false', beq_eq_false_iff_ne, Option.isNone_eq_false_iff,
    List.any_eq_false, decide_eq_false_iff_not, not_le] at h
  obtain ⟨⟨⟨⟨⟨h31, hbuilt⟩, hpos⟩, hregion⟩, hclear⟩, hlen⟩ := h
  exact ⟨h31, hbuilt, Nat.pos_of_ne_zero hpos, hregion, fun e he => hclear e he, hlen⟩

/-- The answer to a sound extent turns on the room alone. -/
theorem Dev.addCapacity_of_sound (h : d.extentSound n first fields) : ∃ r,
    (d.extentFull n fields → d.addCapacity m n first fields tag = d.emit (.mailbox 16 .addCapacity .resourcesExhausted [])) ∧
    (¬ d.extentFull n fields → d.addCapacity m n first fields tag =
      (((d.populateExtent m n first fields).setExtents n ((d.populateExtent m n first fields).extents n ++
        [{ first := first, fields := fields, tag := tag }])).raise r).emit (.mailbox 16 .addCapacity .success [])) := by
  obtain ⟨h31, hbuilt, hpos, hregion, hclear, hlen⟩ := h
  have hclash : ((d.extents n).any fun e => overlaps first fields e.first e.fields) = false := by
    simpa only [List.any_eq_false, Bool.not_eq_true] using hclear
  have hpass : ¬ (!d.on31 n || !d.winBuilt n || fields == 0 || (d.regionOf n first fields).isNone ||
      ((d.extents n).any fun e => overlaps first fields e.first e.fields) || decide (1024 ≤ (d.extents n).length)) = true := by
    simp [h31, hbuilt, hpos.ne', Option.isSome_iff_ne_none.mp hregion, hclash, hlen]
  refine ⟨_, fun hfull => (if_neg hpass).trans (if_pos ?_), fun hfull => (if_neg hpass).trans (if_neg ?_)⟩
  · simpa only [Dev.extentFull, Bool.or_eq_true, decide_eq_true_eq, or_assoc] using hfull
  · simpa only [Dev.extentFull, Bool.or_eq_true, decide_eq_true_eq, or_assoc] using hfull

end

/-! ### RELEASE_DYNAMIC_CAPACITY, FORCED_REMOVAL and the removals (R177) -/

section
variable {d : Dev} {m : Dram} {n first fields : Nat} {e : Extent}

/-- The extent that a command names, where the LD holds it. -/
def Dev.heldExtent (d : Dev) (n first fields : Nat) : Option Extent :=
  (d.extents n).find? fun e => e.first == first && e.fields == fields

/-- A removal goes to the end of the list of removals. -/
def Dev.listRemoval (d : Dev) (r : Removal) : Dev := { d with hp := { d.hp with removals := d.hp.removals ++ [r] } }

theorem Dev.listRemoval_extents (r : Removal) (k : Nat) : (d.listRemoval r).extents k = d.extents k := rfl
theorem Dev.listRemoval_regs (r : Removal) : (d.listRemoval r).regs = d.regs := rfl
theorem Dev.listRemoval_out (r : Removal) : (d.listRemoval r).out = d.out := rfl
theorem Dev.listRemoval_ted (r : Removal) : (d.listRemoval r).ted = d.ted := rfl
theorem Dev.listRemoval_removals (r : Removal) : (d.listRemoval r).hp.removals = d.hp.removals ++ [r] := rfl

theorem Dev.beginRemoval_eq (origin : Nat) : d.beginRemoval n e origin =
    (d.setExtents n ((d.extents n).filter (· != e))).listRemoval { ld := n, ext := e, origin := origin } := rfl

/-- The start of a removal takes the extent off the LD's list, and changes no other LD's. -/
theorem Dev.beginRemoval_starts (origin : Nat) :
    (d.beginRemoval n e origin).extents n = (d.extents n).filter (· != e) ∧
      (∀ k, k ≠ n → (d.beginRemoval n e origin).extents k = d.extents k) ∧
      (d.beginRemoval n e origin).hp.removals = d.hp.removals ++ [{ ld := n, ext := e, origin := origin }] ∧
      d.keepsRegs (d.beginRemoval n e origin) [.tedLdgrant n] ∧ (d.beginRemoval n e origin).out = d.out ∧
      (d.beginRemoval n e origin).ted = d.ted := by
  rw [Dev.beginRemoval_eq]
  refine ⟨?_, fun k hk => ?_, ?_, (d.keepsRegs_setExtents n _).regs_eq (Dev.listRemoval_regs _), ?_, ?_⟩
  · rw [Dev.listRemoval_extents, Dev.setExtents_extents]
  · rw [Dev.listRemoval_extents, Dev.setExtents_extents_other d n _ hk]
  · rw [Dev.listRemoval_removals, Dev.setExtents_hp]
    rfl
  · rw [Dev.listRemoval_out, Dev.setExtents_out]
  · rw [Dev.listRemoval_ted, Dev.setExtents_ted]

theorem Dev.releaseCapacity_of_held (h : d.heldExtent n first fields = some e) :
    d.releaseCapacity n first fields = d.beginRemoval n e 1 := by
  unfold Dev.heldExtent at h
  rw [Dev.releaseCapacity, h]

theorem Dev.releaseCapacity_of_not_held (h : d.heldExtent n first fields = none) :
    d.releaseCapacity n first fields = d.emit (.mailbox n .releaseCapacity .invalidInput []) := by
  unfold Dev.heldExtent at h
  rw [Dev.releaseCapacity, h]

theorem Dev.forcedRemoval_of_held (h : d.heldExtent n first fields = some e) :
    ∃ r, d.forcedRemoval n first fields = (d.beginRemoval n e 0).raise r := by
  unfold Dev.heldExtent at h
  rw [Dev.forcedRemoval, h]
  exact ⟨_, rfl⟩

theorem Dev.forcedRemoval_of_not_held (h : d.heldExtent n first fields = none) :
    d.forcedRemoval n first fields = d.emit (.mailbox 16 .forcedRemoval .invalidInput []) := by
  unfold Dev.heldExtent at h
  rw [Dev.forcedRemoval, h]

/-- A re-encryption runs in an extent that is being removed. -/
def Dev.removalBusy (d : Dev) (n : Nat) (r : Removal) : Bool :=
  d.jobIn fun f => decide (d.winBase n + r.ext.first ≤ f) && decide (f < d.winBase n + r.ext.first + r.ext.fields)

/-- The fields and lines of an extent that is removed are dropped. -/
def Dev.dropExtent (d : Dev) (m : Dram) (n : Nat) (r : Removal) : Dev :=
  let a := d.winBase n + r.ext.first
  ((List.range r.ext.fields).foldl (fun d i => d.dropField m (a + i)) d).dropLines
    fun line => decide (a ≤ fieldOfLine line) && decide (fieldOfLine line < a + r.ext.fields)

/-- The removal is over. -/
def Dev.endRemoval (d : Dev) (r : Removal) : Dev := { d with hp := { d.hp with removals := d.hp.removals.erase r } }

theorem Dev.dropExtent_hp (r : Removal) : (d.dropExtent m n r).hp = d.hp :=
  (Dev.dropLines_hp _ _).trans (foldl_keeps Dev.hp (fun e _ => e.dropField_hp m _) _ d)

theorem Dev.removalDone_of_none (h : d.hp.removals.find? (·.ld == n) = none) : d.removalDone m n = d := by
  rw [Dev.removalDone, h]

theorem Dev.removalDone_of_busy {r : Removal} (h : d.hp.removals.find? (·.ld == n) = some r) (hb : d.removalBusy n r = true) :
    d.removalDone m n = d := by
  rw [Dev.removalDone, h]
  exact if_pos hb

theorem Dev.removalDone_of_free {r : Removal} (h : d.hp.removals.find? (·.ld == n) = some r) (hb : d.removalBusy n r = false) :
    d.removalDone m n =
      if r.origin = 0 then ((d.dropExtent m n r).endRemoval r).emit (.mailbox 16 .forcedRemoval .success [])
      else if r.origin = 1 then ((d.dropExtent m n r).endRemoval r).emit (.mailbox n .releaseCapacity .success [])
      else (d.dropExtent m n r).endRemoval r := by
  rw [Dev.removalDone, h]
  exact if_neg (by simpa [Dev.removalBusy] using hb)

/-- The oldest removal ends, and who asked hears of it. -/
theorem Dev.removalDone_ends {r : Removal} (h : d.hp.removals.find? (·.ld == n) = some r) (hb : d.removalBusy n r = false) :
    (d.removalDone m n).hp.removals = d.hp.removals.erase r ∧ (d.removalDone m n).hp.extents = d.hp.extents ∧
      (r.origin = 0 → (d.removalDone m n).out.getLast? = some (.mailbox 16 .forcedRemoval .success [])) ∧
      (r.origin = 1 → (d.removalDone m n).out.getLast? = some (.mailbox n .releaseCapacity .success [])) := by
  have hhp : (d.removalDone m n).hp = { d.hp with removals := d.hp.removals.erase r } := by
    rw [Dev.removalDone_of_free h hb, apply_ite Dev.hp, apply_ite Dev.hp, Dev.emit_hp, Dev.emit_hp, ite_self, ite_self, Dev.endRemoval,
      Dev.dropExtent_hp]
  refine ⟨by rw [hhp], by rw [hhp], fun h0 => ?_, fun h1 => ?_⟩
  · rw [Dev.removalDone_of_free h hb, if_pos h0, Dev.emit_getLast]
  · rw [Dev.removalDone_of_free h hb, if_neg (by omega), if_pos h1, Dev.emit_getLast]

end

/-! ### DC_REGION_CONFIGURE (R96) -/

section
variable {d : Dev} {n i base len k : Nat}

/-- The tests of R96 for a region of an LD. -/
def Dev.regionFits (d : Dev) (n i base len k : Nat) : Prop :=
  k ≤ 9 ∧ d.fld (.tedLdcap n) F.tedLdcap_COMMIT ≤ base ∧ base + len ≤ d.winFields n ∧ 0 < len ∧ base % 2 ^ k = 0 ∧ len % 2 ^ k = 0 ∧
    (∀ r ∈ (d.regions n).eraseIdx i, overlaps base len r.base r.len = false) ∧ d.extents n = [] ∧ i ≤ (d.regions n).length ∧
    d.on31 n = true

/-- The refusal of DC_REGION_CONFIGURE, as the command finds it. -/
def Dev.regionRefused (d : Dev) (n i base len k : Nat) : Bool :=
  decide (7 < i) || decide (9 < k) || decide (base < d.fld (.tedLdcap n) F.tedLdcap_COMMIT) || decide (d.winFields n < base + len) ||
    len == 0 || base % 2 ^ k != 0 || len % 2 ^ k != 0 ||
    (((d.regions n).eraseIdx i).any fun r => overlaps base len r.base r.len) ||
    !(d.extents n).isEmpty || decide ((d.regions n).length < i) || !d.on31 n

/-- A region at its place in an LD's list: instead of the one that stands there, or at the end. -/
def placeRegion (l : List DcRegion) (i : Nat) (r : DcRegion) : List DcRegion := if i < l.length then l.set i r else l ++ [r]

/-- An LD's list of regions. -/
def Dev.listRegions (d : Dev) (n : Nat) (l : List DcRegion) : Dev :=
  { d with hp := { d.hp with regions := kvSet (fun _ => []) d.hp.regions n l } }

theorem Dev.regionSet_eq : d.regionSet n i base len k =
    if d.regionRefused n i base len k then d.emit (.mailbox 16 .configureRegion .invalidInput [])
    else ((d.listRegions n (placeRegion (d.regions n) i { base := base, len := len, k := k })).cdatRebuild n).emit
      (.mailbox 16 .configureRegion .success []) := rfl

theorem Dev.regionRefused_iff (hi : i < 8) : d.regionRefused n i base len k = false ↔ d.regionFits n i base len k := by
  simp only [Dev.regionRefused, Dev.regionFits, Bool.or_eq_false_iff, decide_eq_false_iff_not, not_lt, beq_eq_false_iff_ne, ne_eq,
    bne_eq_false_iff_eq, List.any_eq_false, Bool.not_eq_true, Bool.not_eq_false', List.isEmpty_iff, and_assoc, Nat.pos_iff_ne_zero]
  exact and_iff_right (by omega)

theorem placeRegion_self {l : List DcRegion} (h : i ≤ l.length) (r : DcRegion) : (placeRegion l i r)[i]? = some r := by
  unfold placeRegion
  split
  · next hi => simp [hi]
  · next hi =>
    obtain rfl : i = l.length := by omega
    simp

theorem placeRegion_other {l : List DcRegion} {j : Nat} (h : i ≤ l.length) (hj : j ≠ i) (r : DcRegion) :
    (placeRegion l i r)[j]? = l[j]? := by
  unfold placeRegion
  split
  · exact List.getElem?_set_ne hj.symm
  · next hi =>
    obtain rfl : i = l.length := by omega
    rcases Nat.lt_or_gt_of_ne hj with hlt | hgt
    · exact List.getElem?_append_left hlt
    · rw [List.getElem?_eq_none (by simp; omega), List.getElem?_eq_none (by omega)]

/-- A region that passes the tests stands at its place; no other region, and no other LD's, changes. -/
theorem Dev.regionSet_sets (hi : i < 8) (h : d.regionFits n i base len k) :
    ((d.regionSet n i base len k).regions n)[i]? = some { base := base, len := len, k := k } ∧
      (∀ j, j ≠ i → ((d.regionSet n i base len k).regions n)[j]? = (d.regions n)[j]?) ∧
      (∀ m, m ≠ n → (d.regionSet n i base len k).regions m = d.regions m) ∧ (d.regionSet n i base len k).regs = d.regs ∧
      (d.regionSet n i base len k).out = d.out ++ [.mailbox 16 .configureRegion .success []] := by
  have hlen : i ≤ (d.regions n).length := by
    obtain ⟨-, -, -, -, -, -, -, -, hlen, -⟩ := h
    exact hlen
  rw [Dev.regionSet_eq, if_neg (by simpa using (Dev.regionRefused_iff hi).mpr h)]
  have hself : (((d.listRegions n (placeRegion (d.regions n) i { base := base, len := len, k := k })).cdatRebuild n).emit
      (.mailbox 16 .configureRegion .success [])).regions n = placeRegion (d.regions n) i { base := base, len := len, k := k } :=
    kvGet_set_self _ _ _ _
  rw [hself]
  exact ⟨placeRegion_self hlen _, fun j hj => placeRegion_other hlen hj _, fun m hm => kvGet_set_other _ _ hm.symm _, rfl, rfl⟩

end

/-! ### The commands -/

section
variable {s : State} {n first fields label i k : Nat}

theorem exec_addCapacity_eq (hup : s.up = true) (hn : n < 16) (hfirst : first < 2 ^ 27) (hfields : fields < 2 ^ 27) :
    exec (.addCapacity n first fields label) s =
      .next (s.finish (s.dev.viaMgmt .addCapacity (·.addCapacity s.dram n first fields label))) :=
  exec_addCapacity (by simpa [Instr.wf, hn] using And.intro hfirst hfields) hup

theorem exec_forcedRemoval_eq (hup : s.up = true) (hn : n < 16) (hfirst : first < 2 ^ 27) (hfields : fields < 2 ^ 27) :
    exec (.forcedRemoval n first fields) s = .next (s.finish (s.dev.viaMgmt .forcedRemoval (·.forcedRemoval n first fields))) :=
  exec_forcedRemoval (by simpa [Instr.wf, hn] using And.intro hfirst hfields) hup

theorem exec_dcRegionConfigure_eq (hup : s.up = true) (hn : n < 16) (hi : i < 8) (hfirst : first < 2 ^ 27) (hfields : fields < 2 ^ 27)
    (hk : k < 16) : exec (.dcRegionConfigure n i first fields k) s =
      .next (s.settle (s.dev.viaMgmt .configureRegion (·.regionSet n i first fields k))) :=
  exec_dcRegionConfigure (by simpa [Instr.wf, hn, hi, hk] using And.intro hfirst hfields) hup

theorem exec_releaseDynamicCapacity_eq (hup : s.up = true) (hn : n < 16) (hfirst : first < 2 ^ 27) (hfields : fields < 2 ^ 27) :
    exec (.releaseDynamicCapacity n first fields) s = .next (s.finish (s.dev.releaseCapacity n first fields)) :=
  exec_releaseDynamicCapacity (by simpa [Instr.wf, hn] using And.intro hfirst hfields) hup

theorem exec_extentRemovalComplete_eq (hup : s.up = true) (hn : n < 16) :
    exec (.extentRemovalComplete n) s = .next (s.finish (s.dev.removalDone s.dram n)) :=
  exec_extentRemovalComplete (by simpa [Instr.wf] using hn) hup

/-- An extent that finds room stands at the end of its LD's list. -/
theorem Dev.addCapacity_adds {d : Dev} {m : Dram} (hsound : d.extentSound n first fields) (hfull : ¬ d.extentFull n fields) :
    (d.addCapacity m n first fields label).extents n = d.extents n ++ [{ first := first, fields := fields, tag := label }] ∧
      (∀ k, k ≠ n → (d.addCapacity m n first fields label).extents k = d.extents k) ∧
      (d.addCapacity m n first fields label).fld (.tedLdgrant n) F.tedLdgrant_EXTENTS = (d.extents n).length + 1 ∧
      (d.addCapacity m n first fields label).hp.regions = d.hp.regions ∧
      (d.addCapacity m n first fields label).out.getLast? = some (.mailbox 16 .addCapacity .success []) := by
  obtain ⟨r, -, heq⟩ := Dev.addCapacity_of_sound (m := m) (tag := label) hsound
  obtain ⟨-, -, -, -, -, hlen⟩ := hsound
  set c := d.populateExtent m n first fields with hc
  have hext (k : Nat) : c.extents k = d.extents k := by rw [Dev.extents, hc, Dev.populateExtent_hp, ← Dev.extents]
  rw [heq hfull, hext n]
  set l := d.extents n ++ [{ first := first, fields := fields, tag := label }] with hl
  have hhp : (((c.setExtents n l).raise r).emit (.mailbox 16 .addCapacity .success [])).hp = (c.setExtents n l).hp := by
    rw [Dev.emit_hp, Dev.raise_hp]
  have hextents (k : Nat) :
      (((c.setExtents n l).raise r).emit (.mailbox 16 .addCapacity .success [])).extents k = (c.setExtents n l).extents k := by
    rw [Dev.extents, hhp, ← Dev.extents]
  refine ⟨(hextents n).trans (c.setExtents_extents n l), fun k hk => ?_, ?_, ?_, Dev.emit_getLast _ _⟩
  · exact (hextents k).trans ((c.setExtents_extents_other n l hk).trans (hext k))
  · rw [Dev.emit_fld, Dev.fld_of_regs_eq (Dev.raise_regs _ _), c.setExtents_count n l (by simp [hl]; omega), hl, List.length_append,
      List.length_singleton]
  · rw [hhp, Dev.setExtents_hp, ← d.populateExtent_hp (m := m) (n := n) (first := first) (fields := fields), ← hc]
    rfl

end

/-- Settles O28: each command of dynamic capacity by what it finds. -/
theorem dynamicCapacity : Obligations.DynamicCapacity := by
  intro s n first fields hup hn hfirst hfields
  refine ⟨fun c hc hserves label i k hi hk => ?_, fun label hserves hsound => ?_,
    fun label hserves hsound => ⟨fun hfull => ?_, fun hfull => ?_⟩, fun e he => ?_, fun hnone => ?_,
    fun hserves => ⟨fun e he => ?_, fun hnone => ?_⟩, fun hnone => ?_, fun r hr => ⟨fun hbusy => ?_, fun hfree => ?_⟩,
    fun i k hi hk hserves => ⟨fun hfits => ?_, fun hfits => ?_⟩⟩
  · rw [exec_addCapacity_eq hup hn hfirst hfields, exec_forcedRemoval_eq hup hn hfirst hfields,
      exec_dcRegionConfigure_eq hup hn hi hfirst hfields hk, Dev.viaMgmt_of_refuses hserves, Dev.viaMgmt_of_refuses hserves,
      Dev.viaMgmt_of_refuses hserves, ← hc]
    exact ⟨rfl, rfl, rfl⟩
  · rw [exec_addCapacity_eq hup hn hfirst hfields, Dev.viaMgmt_of_serves hserves, Dev.addCapacity_of_not_sound hsound]
  · obtain ⟨r, heq, -⟩ := Dev.addCapacity_of_sound (m := s.dram) (tag := label) hsound
    rw [exec_addCapacity_eq hup hn hfirst hfields, Dev.viaMgmt_of_serves hserves, heq hfull]
  · refine ⟨_, ?_, Dev.addCapacity_adds (m := s.dram) hsound hfull⟩
    rw [exec_addCapacity_eq hup hn hfirst hfields, Dev.viaMgmt_of_serves hserves]
  · refine ⟨_, ?_, Dev.beginRemoval_starts 1⟩
    rw [exec_releaseDynamicCapacity_eq hup hn hfirst hfields, Dev.releaseCapacity_of_held he]
  · rw [exec_releaseDynamicCapacity_eq hup hn hfirst hfields, Dev.releaseCapacity_of_not_held hnone]
  · obtain ⟨r, heq⟩ := Dev.forcedRemoval_of_held he
    obtain ⟨hself, hothers, hremovals, hregs, -, hted⟩ := Dev.beginRemoval_starts (d := s.dev) (n := n) (e := e) 0
    have hhp := (s.dev.beginRemoval n e 0).raise_hp r
    refine ⟨(s.dev.beginRemoval n e 0).raise r, ?_, ?_, fun k hk => ?_, ?_, hregs.regs_eq (Dev.raise_regs _ _), ?_⟩
    · rw [exec_forcedRemoval_eq hup hn hfirst hfields, Dev.viaMgmt_of_serves hserves, heq]
    · rw [Dev.extents, hhp]
      exact hself
    · rw [Dev.extents, hhp]
      exact hothers k hk
    · rw [hhp, hremovals]
    · rw [Dev.raise_ted, hted]
  · rw [exec_forcedRemoval_eq hup hn hfirst hfields, Dev.viaMgmt_of_serves hserves, Dev.forcedRemoval_of_not_held hnone]
  · rw [exec_extentRemovalComplete_eq hup hn, Dev.removalDone_of_none hnone]
  · rw [exec_extentRemovalComplete_eq hup hn, Dev.removalDone_of_busy hr hbusy]
  · exact ⟨_, exec_extentRemovalComplete_eq hup hn, Dev.removalDone_ends hr hfree⟩
  · refine ⟨_, ?_, Dev.regionSet_sets hi hfits⟩
    rw [exec_dcRegionConfigure_eq hup hn hi hfirst hfields hk, Dev.viaMgmt_of_serves hserves]
  · rw [exec_dcRegionConfigure_eq hup hn hi hfirst hfields hk, Dev.viaMgmt_of_serves hserves, Dev.regionSet_eq, if_pos]
    simpa using (Dev.regionRefused_iff hi).not.mpr hfits

end Sys2Proof.Machine
end

section
/-! SUPPORT. The Tedders' side of the die: their storage, the balers' jobs, and the registers of the tier map and of the pool. The storage
side (the channels, the cipher units) leaves it as it is. One lemma per operation, in the order of their definitions. -/

namespace Sys2Proof.Machine

/-- Registers that say where the tier map lies and what the pool holds: GBL_FTAB, TED_POOLk, TED_POOL_FREE and TED_POOL_RESV. -/
def Reg.tier (r : Reg) : Bool := decide (r.offset = 0x100580) || (decide (0x600200 ≤ r.offset) && decide (r.offset < 0x600310))

/-- The Tedders' side. -/
def Dev.tierSide (d : Dev) : Tiers × Balers × (Reg → Nat) := (d.ted, d.bal, fun r => if r.tier then d.rd r else 0)

/-- A step of a read of several lines. -/
def readGo (m : Dram) (dom : Dom) (page sa : Nat) (slot : Option (Nat × Nat × Nat)) (bad : List Nat)
    (acc : Option (Dev × List (Line × Nat))) (i : Nat) : Option (Dev × List (Line × Nat)) :=
  match acc with
  | none => none
  | some (e, l) => (e.readLine m dom (page * 4096 + if slot.isSome then 0 else 64 * i) (sa + 64 * i) slot (bad.contains i)).map
      fun (e, x, k) => (e, l ++ [(x, k)])

section
variable (d : Dev)

theorem Dev.tierSide_iff {d e : Dev} : e.tierSide = d.tierSide ↔ e.ted = d.ted ∧ e.bal = d.bal ∧ ∀ r : Reg, r.tier = true → e.rd r = d.rd r := by
  simp only [Dev.tierSide, Prod.mk.injEq, funext_iff]
  refine and_congr_right fun _ => and_congr_right fun _ => forall_congr' fun r => ?_
  cases r.tier <;> simp

section
variable {d e : Dev} (h : e.tierSide = d.tierSide)
include h

theorem Dev.ted_of_tierSide : e.ted = d.ted := congrArg (·.1) h
theorem Dev.bal_of_tierSide : e.bal = d.bal := congrArg (·.2.1) h

theorem Dev.rd_of_tierSide {r : Reg} (hr : r.tier = true) : e.rd r = d.rd r := by
  obtain ⟨-, -, hrd⟩ := Dev.tierSide_iff.mp h
  exact hrd r hr

theorem Dev.fld_of_tierSide {r : Reg} (hr : r.tier = true) (f : Fld) : e.fld r f = d.fld r f :=
  congrArg (fun v => bitsOf v f.hi f.lo) (Dev.rd_of_tierSide h hr)

theorem Dev.ftab_of_tierSide : e.ftab = d.ftab := congrArg (· * 4096) (Dev.fld_of_tierSide h (by decide) _)
theorem Dev.freeFrames_of_tierSide : e.freeFrames = d.freeFrames := Dev.rd_of_tierSide h (by decide)
theorem Dev.resv_of_tierSide : e.resv = d.resv := Dev.rd_of_tierSide h (by decide)

end

/-- Other registers are not of the Tedders' side. -/
theorem Dev.wr_tierSide {r : Reg} (hr : r.tier = false) (v : Nat) : (d.wr r v).tierSide = d.tierSide := by
  refine Dev.tierSide_iff.mpr ⟨rfl, rfl, fun q hq => Dev.rd_wr_other _ (fun heq => ?_) _⟩
  rw [Reg.tier, heq] at hr
  exact absurd (hq.symm.trans hr) (by decide)

theorem Dev.setFld_tierSide {r : Reg} (hr : r.tier = false) (f : Fld) (x : Nat) : (d.setFld r f x).tierSide = d.tierSide :=
  d.wr_tierSide hr _

theorem Dev.setFlag_tierSide {r : Reg} (hr : r.tier = false) (f : Fld) (b : Bool) : (d.setFlag r f b).tierSide = d.tierSide :=
  d.setFld_tierSide hr _ _

theorem Dev.setBit_tierSide {r : Reg} (hr : r.tier = false) (i : Nat) (b : Bool) : (d.setBit r i b).tierSide = d.tierSide :=
  d.wr_tierSide hr _

theorem Dev.bumpFld_tierSide {r : Reg} (hr : r.tier = false) (f : Fld) : (d.bumpFld r f).tierSide = d.tierSide :=
  d.setFld_tierSide hr _ _

theorem Reg.tier_of_offset {r : Reg} (h : r.offset ≠ 0x100580) (h' : r.offset < 0x600200 ∨ 0x600310 ≤ r.offset) : r.tier = false := by
  simp only [Reg.tier, Bool.or_eq_false_iff, Bool.and_eq_false_iff, decide_eq_false_iff_not]
  omega

/-- Registers of the cipher units, the channels, the cascade and the crossings are not of the Tedders' side. -/
theorem Reg.tier_of_ge {r : Reg} (h : 0x800000 ≤ r.offset) : r.tier = false := Reg.tier_of_offset (by omega) (by omega)

theorem Reg.tier_chnRankstat (c : Nat) : (Reg.chnRankstat c).tier = false := Reg.tier_of_ge (by simp only [Reg.offset]; omega)
theorem Reg.tier_chnSpare (c : Nat) : (Reg.chnSpare c).tier = false := Reg.tier_of_ge (by simp only [Reg.offset]; omega)
theorem Reg.tier_chnSpareCp (c : Nat) : (Reg.chnSpareCp c).tier = false := Reg.tier_of_ge (by simp only [Reg.offset]; omega)
theorem Reg.tier_chnEccRank (c r : Nat) : (Reg.chnEccRank c r).tier = false := Reg.tier_of_ge (by simp only [Reg.offset]; omega)

theorem islandReg_tier (k : Nat) : (islandReg k).tier = false := by
  refine Reg.tier_of_ge ?_
  unfold islandReg
  split_ifs <;> simp only [Reg.offset] <;> omega

@[simp] theorem Dev.modCip_tierSide (f : Cipher → Cipher) : (d.modCip f).tierSide = d.tierSide := rfl
@[simp] theorem Dev.modHome_tierSide (f : Home → Home) : (d.modHome f).tierSide = d.tierSide := rfl
@[simp] theorem Dev.modChn_tierSide (c : Nat) (f : Chan → Chan) : (d.modChn c f).tierSide = d.tierSide := rfl
@[simp] theorem Dev.count_tierSide (k : EvKind) (u p n : Nat) : (d.count k u p n).tierSide = d.tierSide := rfl
@[simp] theorem Dev.emit_tierSide (o : Out) : (d.emit o).tierSide = d.tierSide := rfl

@[simp] theorem Dev.raise_tierSide (r : Rec) : (d.raise r).tierSide = d.tierSide :=
  Dev.tierSide_iff.mpr ⟨d.raise_ted r, d.raise_bal r, fun q _ => congrArg (fun m : RegFile => m.get q) (d.raise_regs r)⟩

@[simp] theorem Dev.raiseLimited_tierSide (k : Nat) (r : Rec) : (d.raiseLimited k r).tierSide = d.tierSide :=
  Dev.tierSide_iff.mpr ⟨d.raiseLimited_ted k r, d.raiseLimited_bal k r, fun _ _ => d.raiseLimited_rd k r _⟩

@[simp] theorem Dev.countLd_tierSide (n c : Nat) : (d.countLd n c).tierSide = d.tierSide :=
  Dev.tierSide_iff.mpr ⟨d.countLd_ted n c, d.countLd_bal n c, fun _ _ => d.countLd_rd n c _⟩

/-! ### Channels -/

@[simp] theorem Dev.overrun_tierSide (x : XId) : (d.overrun x).tierSide = d.tierSide := by
  rcases d.setCross_cases (islandReg x.island) x.bit with h | ⟨c, h⟩
  · rw [Dev.overrun, h, Dev.setBit_tierSide _ (islandReg_tier _)]
  · rw [Dev.overrun, h, Dev.raise_tierSide, Dev.setBit_tierSide _ (islandReg_tier _)]

@[simp] theorem Dev.sendCmd_tierSide (c : Nat) (e : ChEnt) : (d.sendCmd c e).tierSide = d.tierSide := by
  rw [Dev.sendCmd, Dev.modChn_tierSide]
  split
  · rfl
  · exact d.overrun_tierSide _

@[simp] theorem Dev.countRestore_tierSide (c : Nat) (e : ChEnt) (b : Bool) : (d.countRestore c e b).tierSide = d.tierSide := by
  unfold Dev.countRestore
  split
  · split <;> rfl
  · split_ifs <;> rfl
  · rfl

@[simp] theorem Dev.modQ_tierSide (c : Nat) (f : Chan → Chan) : (d.modQ c f).tierSide = d.tierSide := by
  unfold Dev.modQ
  refine foldl_keeps Dev.tierSide (fun e i => ?_) _ _
  dsimp only
  split_ifs <;> rfl

@[simp] theorem Dev.enter_tierSide (c : Nat) (e : ChEnt) : (d.enter c e).tierSide = d.tierSide := by
  rw [Dev.enter, Dev.modQ_tierSide]
  exact foldl_keeps Dev.tierSide (fun e x => e.countRestore_tierSide c x true) _ _

@[simp] theorem Dev.pullGo_tierSide (c i k : Nat) : (d.pullGo c i k).tierSide = d.tierSide := by
  induction k generalizing d with
  | zero => rfl
  | succ k ih =>
    unfold Dev.pullGo
    split
    · split <;> simp [ih]
    · rfl

@[simp] theorem Dev.copyAdvance_tierSide (c : Nat) : (d.copyAdvance c).tierSide = d.tierSide := by
  rw [Dev.copyAdvance, Dev.setFld_tierSide _ (Reg.tier_chnSpareCp c), Dev.modChn_tierSide]

@[simp] theorem Dev.pullRestore_tierSide (c i : Nat) : (d.pullRestore c i).tierSide = d.tierSide := by
  rw [Dev.pullRestore, Dev.copyAdvance_tierSide, Dev.pullGo_tierSide]

@[simp] theorem Dev.restoreWrite_tierSide (c i : Nat) (e : ChEnt) : (d.restoreWrite c i e).tierSide = d.tierSide := by
  rw [Dev.restoreWrite, Dev.pullRestore_tierSide, Dev.modChn_tierSide]

@[simp] theorem Dev.setRankState_tierSide (c r st : Nat) : (d.setRankState c r st).tierSide = d.tierSide :=
  d.wr_tierSide (Reg.tier_chnRankstat c) _

@[simp] theorem Dev.spareEvent_tierSide (c ty detail : Nat) (sev : Sev) : (d.spareEvent c ty detail sev).tierSide = d.tierSide :=
  d.raise_tierSide _

@[simp] theorem Dev.spareBegin_tierSide (c r cause : Nat) : (d.spareBegin c r cause).tierSide = d.tierSide := by
  rw [Dev.spareBegin, Dev.spareEvent_tierSide, Dev.modChn_tierSide, Dev.setFld_tierSide _ (Reg.tier_chnSpareCp c),
    Dev.setFld_tierSide _ (Reg.tier_chnSpare c), Dev.setRankState_tierSide, Dev.setRankState_tierSide]

@[simp] theorem Dev.spareThreshold_tierSide (c r cause : Nat) (auto : Bool) :
    (d.spareThreshold c r cause auto).tierSide = d.tierSide := by
  unfold Dev.spareThreshold
  split <;> split <;> simp

@[simp] theorem Dev.countCe_tierSide (c : Nat) (e : ChEnt) (dev : Nat) : (d.countCe c e dev).tierSide = d.tierSide := by
  have hecc := Reg.tier_chnEccRank c e.rank
  unfold Dev.countCe
  dsimp only
  split <;> simp [Dev.setFlag_tierSide _ hecc, Dev.setFld_tierSide _ hecc, Dev.bumpFld_tierSide _ hecc]

/-- The time of the last record of a kind is in no part of the Tedders' side. -/
theorem Dev.tierSide_logs (l : Logs) : ({ d with logs := l } : Dev).tierSide = d.tierSide := rfl

@[simp] theorem Dev.countUe_tierSide (c : Nat) (e : ChEnt) : (d.countUe c e).tierSide = d.tierSide := by
  have hecc := Reg.tier_chnEccRank c e.rank
  unfold Dev.countUe
  dsimp only
  split_ifs <;> simp [-Dev.bumpFld_hp, Dev.setFlag_tierSide _ hecc, Dev.bumpFld_tierSide _ hecc, Dev.tierSide_logs]

@[simp] theorem Dev.burstNoted_tierSide (c i : Nat) (e : ChEnt) (o : CwOut) : (d.burstNoted c i e o).tierSide = d.tierSide := by
  cases o with
  | clean p => rfl
  | corrected p dev =>
    simp only [Dev.burstNoted]
    split
    · simp
    · split <;> simp
  | uncorrectable p =>
    simp only [Dev.burstNoted]
    split
    · simp
    · split <;> simp

/-! ### Cipher units -/

@[simp] theorem Dev.mapFaultRecord_tierSide (sa dpa ld : Nat) : (d.mapFaultRecord sa dpa ld).tierSide = d.tierSide := d.raise_tierSide _

@[simp] theorem Dev.foldEnter_tierSide (sa dev : Nat) (b : Bool) : (d.foldEnter sa dev b).tierSide = d.tierSide := by
  unfold Dev.foldEnter
  dsimp only
  split_ifs
  case neg =>
    rw [Dev.raise_tierSide, Dev.setFlag_tierSide _ (by decide)]
    rfl
  all_goals rfl

@[simp] theorem Dev.hand_tierSide (p : Place) (e : ChEnt) : (d.hand p e).1.tierSide = d.tierSide := by
  cases p with
  | here c ca => exact d.sendCmd_tierSide c _
  | member dev c ca =>
    simp only [Dev.hand]
    split_ifs
    · rfl
    · exact d.foldEnter_tierSide _ _ _
    all_goals rfl
  | fault => exact d.mapFaultRecord_tierSide _ _ _
  | wait => rfl

@[simp] theorem Dev.foldWrite_tierSide (sa dpa ld : Nat) (b : Bool) : (d.foldWrite sa dpa ld b).tierSide = d.tierSide := by
  unfold Dev.foldWrite
  split
  · split
    · exact d.foldEnter_tierSide _ _ _
    · rfl
  · exact d.mapFaultRecord_tierSide _ _ _
  · rfl

@[simp] theorem Dev.foldCtr_tierSide (frame : Nat) : (d.foldCtr frame).tierSide = d.tierSide := by
  unfold Dev.foldCtr
  split
  · exact d.foldWrite_tierSide _ _ _ _
  · rfl

@[simp] theorem Dev.fireWrite_tierSide (sa : Nat) (x : Payload) : (d.fireWrite sa x).tierSide = d.tierSide := d.hand_tierSide _ _

@[simp] theorem Dev.raiseMajor_tierSide (m : Nat) : (d.raiseMajor m).tierSide = d.tierSide := d.wr_tierSide (by decide) _

@[simp] theorem Dev.writeCtr_tierSide (frame : Nat) (c : Ctr) : (d.writeCtr frame c).tierSide = d.tierSide := by
  unfold Dev.writeCtr
  split <;> simp

@[simp] theorem Dev.noteRead_tierSide (m : Dram) (sa dpa ld : Nat) (src : RdSource) (bad : Bool) :
    (d.noteRead m sa dpa ld src bad).tierSide = d.tierSide := by
  unfold Dev.noteRead
  split
  · split
    · rfl
    · split
      · exact d.burstNoted_tierSide _ _ _ _
      · rfl
  · exact d.mapFaultRecord_tierSide _ _ _
  · rfl

@[simp] theorem Dev.noteCtr_tierSide (m : Dram) (frame : Nat) : (d.noteCtr m frame).tierSide = d.tierSide := by
  unfold Dev.noteCtr
  split <;> simp

@[simp] theorem Dev.mismatchRecord_tierSide (unit sa dpa ld : Nat) (dom : Dom) (partialWr mark : Bool) :
    (d.mismatchRecord unit sa dpa ld dom partialWr mark).tierSide = d.tierSide := by
  simp [Dev.mismatchRecord]

@[simp] theorem Dev.ctrMismatch_tierSide (frame row : Nat) : (d.ctrMismatch frame row).tierSide = d.tierSide := by
  unfold Dev.ctrMismatch
  split
  · split
    · exact d.mismatchRecord_tierSide _ _ _ _ _ _ _
    · rfl
  · rfl

@[simp] theorem Dev.putCopy_tierSide (x : CtrCopy) : (d.putCopy x).tierSide = d.tierSide := rfl

@[simp] theorem Dev.installCopy_tierSide (x : CtrCopy) : (d.installCopy x).tierSide = d.tierSide := by
  unfold Dev.installCopy
  dsimp only
  split_ifs
  · rfl
  · split <;> simp
  · simp

@[simp] theorem Dev.counterLost_tierSide (frame row : Nat) : (d.counterLost frame row).tierSide = d.tierSide := by
  unfold Dev.counterLost
  dsimp only
  rw [Dev.modCip_tierSide]
  split <;> simp [foldl_keeps Dev.tierSide]

@[simp] theorem Dev.unhold_tierSide (frame : Nat) : (d.unhold frame).tierSide = d.tierSide := by
  unfold Dev.unhold
  split
  · rfl
  · dsimp only
    split_ifs
    · rfl
    · split
      · rfl
      · split <;> simp

/-- A hold that begins leaves the Tedders' side as it is. -/
theorem Dev.hold_tierSide {m : Dram} {d e : Dev} {frame q : Nat} (h : d.hold m frame q = some e) : e.tierSide = d.tierSide := by
  unfold Dev.hold at h
  split at h
  · cases h; rfl
  · dsimp only at h
    split at h
    · cases h
    · split at h
      · cases h
      · cases h; simp
      · cases h
        rw [Dev.modCip_tierSide, Dev.installCopy_tierSide, Dev.modCip_tierSide,
          foldl_keeps Dev.tierSide fun e x => e.count_tierSide _ _ _ _, Dev.noteCtr_tierSide, Dev.count_tierSide]

@[simp] theorem Dev.setHeld_tierSide (frame : Nat) (c : Ctr) (ch : BitVec 64) : (d.setHeld frame c ch).tierSide = d.tierSide := by
  unfold Dev.setHeld
  split <;> rfl

@[simp] theorem Dev.reencEnd_tierSide (frame : Nat) : (d.reencEnd frame).tierSide = d.tierSide := by
  rw [Dev.reencEnd, Dev.unhold_tierSide, Dev.modCip_tierSide]

@[simp] theorem Dev.eraseFrame_tierSide (m : Dram) (frame : Nat) : (d.eraseFrame m frame).tierSide = d.tierSide := by
  unfold Dev.eraseFrame
  have hended : (if (d.reencOf frame).isSome then d.reencEnd frame else d).tierSide = d.tierSide := by split <;> simp
  generalize (if (d.reencOf frame).isSome then d.reencEnd frame else d) = e at hended ⊢
  dsimp only
  split
  · rw [Dev.foldCtr_tierSide, hended]
  · rename_i c hc
    have hhold : c.tierSide = d.tierSide := (Dev.hold_tierSide hc).trans hended
    split <;> simp [hhold]

@[simp] theorem Dev.mendCtr_tierSide (m : Dram) (frame : Nat) : (d.mendCtr m frame).tierSide = d.tierSide := by
  unfold Dev.mendCtr
  split
  · split <;> simp
  · rfl

/-! ### Pages read and written by a Tedder -/

@[simp] theorem Dev.countZero_tierSide (unit row : Nat) : (d.countZero unit row).tierSide = d.tierSide := by
  unfold Dev.countZero
  split <;> rfl

/-- A line that is read leaves the Tedders' side as it is. -/
theorem Dev.readLine_tierSide {m : Dram} {d e : Dev} {dom : Dom} {dpa sa : Nat} {slot : Option (Nat × Nat × Nat)} {bad : Bool}
    {x : Line} {k : Nat} (h : d.readLine m dom dpa sa slot bad = some (e, x, k)) : e.tierSide = d.tierSide := by
  unfold Dev.readLine at h
  split at h
  · cases h; simp
  · split at h
    · cases h
    · dsimp only at h
      split at h
      · cases h; simp
      · split at h
        · cases h
        · cases h
          rw [Dev.countZero_tierSide, apply_ite Dev.tierSide, Dev.mismatchRecord_tierSide, ite_self, Dev.noteRead_tierSide]

theorem Dev.readLines_eq (m : Dram) (dom : Dom) (page sa n : Nat) (slot : Option (Nat × Nat × Nat)) (bad : List Nat) :
    d.readLines m dom page sa n slot bad = (List.range n).foldl (readGo m dom page sa slot bad) (some (d, [])) := rfl

/-- Lines that are read leave the Tedders' side as it is. -/
theorem Dev.readLines_tierSide {m : Dram} {d e : Dev} {dom : Dom} {page sa n : Nat} {slot : Option (Nat × Nat × Nat)} {bad : List Nat}
    {ls : List (Line × Nat)} (h : d.readLines m dom page sa n slot bad = some (e, ls)) : e.tierSide = d.tierSide := by
  rw [Dev.readLines_eq] at h
  suffices hfold : ∀ acc, (∀ p ∈ acc, p.1.tierSide = d.tierSide) →
      ∀ p ∈ (List.range n).foldl (readGo m dom page sa slot bad) acc, p.1.tierSide = d.tierSide from
    hfold (some (d, [])) (by simp) (e, ls) h
  intro acc hacc
  refine List.foldlRecOn (List.range n) (readGo m dom page sa slot bad)
    (motive := fun acc : Option (Dev × List (Line × Nat)) => ∀ p ∈ acc, p.1.tierSide = d.tierSide) hacc fun acc hacc i _ p hp => ?_
  unfold readGo at hp
  split at hp
  · cases hp
  · rename_i c l
    obtain ⟨⟨e, x, k⟩, hread, rfl⟩ := Option.map_eq_some_iff.mp hp
    exact (Dev.readLine_tierSide hread).trans (hacc (c, l) rfl)

@[simp] theorem Dev.foldLines_tierSide (frame first n : Nat) : (d.foldLines frame first n).tierSide = d.tierSide :=
  (foldl_keeps Dev.tierSide (fun e _ => e.foldWrite_tierSide _ _ _ _) _ _).trans (d.foldCtr_tierSide frame)

@[simp] theorem Dev.writeFrame_tierSide (m : Dram) (frame : Nat) (dom : Dom) (lines : List (Line × Bool)) :
    (d.writeFrame m frame dom lines).tierSide = d.tierSide := by
  unfold Dev.writeFrame
  split
  · exact d.foldLines_tierSide _ _ _
  · rename_i e he
    rw [Dev.unhold_tierSide]
    refine (foldl_keeps Dev.tierSide (fun e i => ?_) _ _).trans (Dev.hold_tierSide he)
    dsimp only
    split
    · rfl
    · rw [Dev.fireWrite_tierSide, Dev.setHeld_tierSide]

@[simp] theorem Dev.writeSlot_tierSide (m : Dram) (frame soff fctr : Nat) (dom : Dom) (lines : List (Line × Bool)) :
    (d.writeSlot m frame soff fctr dom lines).tierSide = d.tierSide := by
  unfold Dev.writeSlot
  dsimp only
  split
  · exact d.foldLines_tierSide _ _ _
  · rename_i e he
    split
    · rw [Dev.unhold_tierSide, Dev.hold_tierSide he]
    · rw [Dev.unhold_tierSide]
      exact (foldl_keeps Dev.tierSide (fun e i => e.fireWrite_tierSide _ _) _ _).trans
        ((Dev.setHeld_tierSide _ _ _ _).trans (Dev.hold_tierSide he))

end

end Sys2Proof.Machine
end

section
/-! SUPPORT. The tier map and the frame pool (R66, R146, R150, R164, R167): what their operations leave of the Tedders' storage, of the
registers and of the map, and a page's entry as it reads after it was written. -/

namespace Sys2Proof.Machine

/-! ### Parts of the Tedders' storage -/

/-- The Tedders' storage but for the map, what waits for it, its copies in the slices, and the note of the modes. -/
def Tiers.offMap (t : Tiers) : Tiers := { t with map := [], mapQ := [], tcache := [], evaluated := false }

/-- The Tedders' work: their storage but for the map and for what the pool's frames and sheaves hold. -/
def Tiers.work (t : Tiers) : Tiers :=
  { t.offMap with free := [], uses := [], slots := [], erases := [], lostFrames := [], leaked := [], lostFields := [] }

section
variable {t u : Tiers}

section
variable (h : t.offMap = u.offMap)
include h

theorem Tiers.free_of_offMap : t.free = u.free := (congrArg Tiers.free h :)
theorem Tiers.uses_of_offMap : t.uses = u.uses := (congrArg Tiers.uses h :)
theorem Tiers.slots_of_offMap : t.slots = u.slots := (congrArg Tiers.slots h :)
theorem Tiers.erases_of_offMap : t.erases = u.erases := (congrArg Tiers.erases h :)
theorem Tiers.work_of_offMap : t.work = u.work := (congrArg Tiers.work h :)

end

section
variable (h : t.work = u.work)
include h

theorem Tiers.promos_of_work : t.promos = u.promos := (congrArg Tiers.promos h :)
theorem Tiers.moves_of_work : t.moves = u.moves := (congrArg Tiers.moves h :)
theorem Tiers.epoch_of_work : t.epoch = u.epoch := (congrArg Tiers.epoch h :)

end

end

section
variable (d : Dev)

/-! ### The map -/

@[simp] theorem Dev.putMapLine_offMap (ted sa : Nat) (x : Line) (tell : Bool) : (d.putMapLine ted sa x tell).ted.offMap = d.ted.offMap := by
  unfold Dev.putMapLine
  dsimp only
  split_ifs <;> rfl

@[simp] theorem Dev.putMapWord_offMap (ted sa v : Nat) (tell : Bool) : (d.putMapWord ted sa v tell).ted.offMap = d.ted.offMap :=
  d.putMapLine_offMap _ _ _ _

theorem Dev.mapLine_of_map_eq {e : Dev} (h : e.ted.map = d.ted.map) (sa : Nat) : e.mapLine sa = d.mapLine sa := by
  rw [Dev.mapLine, h, Dev.mapLine]

theorem Dev.mapLine_putMapLine_self (ted : Nat) {sa sb : Nat} (h : sa / 64 = sb / 64) (x : Line) (tell : Bool) :
    (d.putMapLine ted sa x tell).mapLine sb = x := by
  rw [Dev.mapLine, Dev.putMapLine_map, h, kvGet_set_self]

theorem Dev.mapLine_putMapLine_other (ted : Nat) {sa sb : Nat} (h : sa / 64 ≠ sb / 64) (x : Line) (tell : Bool) :
    (d.putMapLine ted sa x tell).mapLine sb = d.mapLine sb := by
  rw [Dev.mapLine, Dev.putMapLine_map, kvGet_set_other _ _ h, Dev.mapLine]

@[simp] theorem Dev.forgetMap_offMap (f : Nat) : (d.forgetMap f).ted.offMap = d.ted.offMap := rfl
@[simp] theorem Dev.forgetMap_regs (f : Nat) : (d.forgetMap f).regs = d.regs := rfl

/-- The lines of other frames stay. -/
theorem Dev.mapLine_forgetMap {f sa : Nat} (h : sa / 4096 ≠ f) : (d.forgetMap f).mapLine sa = d.mapLine sa := by
  have hkeep : (sa / 64 / 64 != f) = true := by
    rw [bne_iff_ne, Nat.div_div_eq_div_mul]
    exact h
  exact congrArg (·.getD 0) (kvFind?_filter_key (fun k => k / 64 != f) d.ted.map hkeep)

/-! ### The pool's accounts -/

@[simp] theorem Dev.setPool_offMap (f rc : Nat) : (d.setPool f rc).ted.offMap = d.ted.offMap := by
  obtain ⟨b, h⟩ := d.setPool_ted rc f
  rw [h]
  rfl

theorem Dev.setPool_map (f rc : Nat) : (d.setPool f rc).ted.map = d.ted.map := by
  obtain ⟨b, h⟩ := d.setPool_ted rc f
  rw [h]

@[simp] theorem Dev.setPool_chan (f rc : Nat) : (d.setPool f rc).chan = d.chan := by
  unfold Dev.setPool
  split
  · rfl
  · obtain ⟨isLow, isRel, isFloor, h⟩ := ((d.wr .tedPoolFree f).wr .tedPoolResv rc).poolEval_keeps Dev.chan Dev.raise_chan
    refine h.trans ?_
    rw [Dev.modTed_chan, Dev.modesSet, apply_ite Dev.chan, Dev.setFlag_chan, ite_self, Dev.setFlag_chan, Dev.setFlag_chan, Dev.setFlag_chan,
      Dev.wr_chan, Dev.wr_chan]

/-- No register beyond those of the pool is one of its accounts. -/
theorem poolRegs_lt {q : Reg} (h : 0x600400 ≤ q.offset) : ∀ r ∈ poolRegs, r.offset ≠ q.offset := by
  have hlt : ∀ r ∈ poolRegs, r.offset < 0x600400 := by decide
  exact fun r hr => ((hlt r hr).trans_le h).ne

theorem Dev.keepsRegs.ftab {d e : Dev} {l : List Reg} (h : d.keepsRegs e l) (hl : ∀ r ∈ l, r.offset ≠ Reg.gblFtab.offset) :
    e.ftab = d.ftab := congrArg (· * 4096) (h.fld hl _)

theorem poolRegs_apart_gblFtab : ∀ r ∈ poolRegs, r.offset ≠ Reg.gblFtab.offset := by decide

/-! ### Frames -/

/-- A frame goes back to the pool: what names it goes. -/
def Dev.frameDropped (d : Dev) (f : Nat) : Dev :=
  (d.modTed fun t => { t with uses := kvDel t.uses f, erases := t.erases.filter (· != f) }).forgetMap f

theorem Dev.frameDropped_regs (f : Nat) : (d.frameDropped f).regs = d.regs := rfl

theorem Dev.frameDropped_offMap (f : Nat) : (d.frameDropped f).ted.offMap =
    ({ d.ted with uses := kvDel d.ted.uses f, erases := d.ted.erases.filter (· != f) } : Tiers).offMap := rfl

/-- A frame at the end of the free list. -/
def Dev.frameListed (d : Dev) (f : Nat) : Dev := d.modTed fun t => { t with free := putFrame t.free f }

theorem Dev.frameListed_regs (f : Nat) : (d.frameListed f).regs = d.regs := rfl
theorem Dev.frameListed_map (f : Nat) : (d.frameListed f).ted.map = d.ted.map := rfl

theorem Dev.freeFrame_eq (f : Nat) : d.freeFrame f =
    if (d.frameDropped f).draining f then d.frameDropped f
    else ((d.frameDropped f).frameListed f).setPool (((d.frameDropped f).frameListed f).freeFrames + 1)
      ((d.frameDropped f).frameListed f).resv := rfl

theorem Dev.draining_of_regs_eq {d e : Dev} (h : e.regs = d.regs) (f : Nat) : e.draining f = d.draining f := by
  have hflag (r : Reg) (g : Fld) : e.flag r g = d.flag r g := congrArg (fun m : RegFile => m.flag r g) h
  have hrange : e.poolRange f = d.poolRange f := by simp only [Dev.poolRange, hflag, Dev.fld_of_regs_eq h]
  simp only [Dev.draining, hrange, hflag]

theorem Dev.draining_frameDropped (f g : Nat) : (d.frameDropped f).draining g = d.draining g :=
  Dev.draining_of_regs_eq (d.frameDropped_regs f) g

/-- A frame goes to the end of the list, but one of a draining range. -/
theorem Dev.freeFrame_offMap (f : Nat) : (d.freeFrame f).ted.offMap = ({ d.ted with
      free := if d.draining f then d.ted.free else putFrame d.ted.free f
      uses := kvDel d.ted.uses f
      erases := d.ted.erases.filter (· != f) } : Tiers).offMap := by
  rw [Dev.freeFrame_eq, Dev.draining_frameDropped]
  cases d.draining f
  · exact (Dev.setPool_offMap _ _ _).trans rfl
  · exact d.frameDropped_offMap f

theorem Dev.freeFrame_work (f : Nat) : (d.freeFrame f).ted.work = d.ted.work :=
  (Tiers.work_of_offMap (d.freeFrame_offMap f)).trans rfl

theorem Dev.freeFrame_uses (f : Nat) : (d.freeFrame f).ted.uses = kvDel d.ted.uses f := Tiers.uses_of_offMap (d.freeFrame_offMap f)

theorem Dev.freeFrame_free (f : Nat) :
    (d.freeFrame f).ted.free = if d.draining f then d.ted.free else putFrame d.ted.free f :=
  Tiers.free_of_offMap (d.freeFrame_offMap f)

theorem Dev.keepsRegs_freeFrame (f : Nat) : d.keepsRegs (d.freeFrame f) poolRegs := by
  rw [Dev.freeFrame_eq]
  have hdropped : d.keepsRegs (d.frameDropped f) poolRegs := Dev.keepsRegs_of_regs_eq (d.frameDropped_regs f)
  split
  · exact hdropped
  · exact (hdropped.regs_eq (Dev.frameListed_regs _ f)).trans (Dev.keepsRegs_setPool _ _ _)

theorem Dev.mapLine_freeFrame {f sa : Nat} (h : sa / 4096 ≠ f) : (d.freeFrame f).mapLine sa = d.mapLine sa := by
  have hdropped : (d.frameDropped f).mapLine sa = d.mapLine sa := Dev.mapLine_forgetMap _ h
  rw [Dev.freeFrame_eq]
  split
  · exact hdropped
  · exact (Dev.mapLine_of_map_eq _ ((Dev.setPool_map _ _ _).trans (Dev.frameListed_map _ f)) sa).trans hdropped

@[simp] theorem Dev.ftab_freeFrame (f : Nat) : (d.freeFrame f).ftab = d.ftab := (d.keepsRegs_freeFrame f).ftab poolRegs_apart_gblFtab

/-- Where an SA lies turns on the registers of the cascade, the cipher units and the channels. -/
theorem Dev.place_of_rd {d e : Dev} (h : ∀ q : Reg, 0x800000 ≤ q.offset → e.rd q = d.rd q) (sa : Nat) : e.place sa = d.place sa := by
  have hfld (q : Reg) (hq : 0x800000 ≤ q.offset) (f : Fld) : e.fld q f = d.fld q f := congrArg (fun v => bitsOf v f.hi f.lo) (h q hq)
  have hgeo (n : Nat) : e.setGeo n = d.setGeo n := by
    simp only [Dev.setGeo, h (.casSetCtrl n) (by simp only [Reg.offset]; omega), h (.casSetMap n) (by simp only [Reg.offset]; omega)]
  have hcommitted (n : Nat) : e.setCommitted n = d.setCommitted n :=
    congrArg (· != 0) (hfld (.casSetCtrl n) (by simp only [Reg.offset]; omega) F.casSetCtrl_COMMITTED)
  have hof : e.setOf sa = d.setOf sa := by simp only [Dev.setOf, hgeo, hcommitted]
  have hready (n : Nat) : e.setReady n = d.setReady n := by rw [Dev.setReady, hfld _ (by decide), Dev.setReady]
  have husable (c : Nat) : e.usable c = d.usable c := by
    simp only [Dev.usable, Dev.amap, h (.chnRankmap c) (by simp only [Reg.offset]; omega),
      h (.chnAmap c) (by simp only [Reg.offset]; omega)]
  have htgt (k : Nat) (f : Fld) : e.fld (.casTgt k) f = d.fld (.casTgt k) f := hfld _ (by simp only [Reg.offset]; omega) f
  simp only [Dev.place, hof, hready, hgeo, htgt, husable]

/-- A frame is off the list and in use. -/
def Dev.frameUsed (d : Dev) (use : FrameUse) (f : Nat) (l : List (Nat × Nat)) : Dev :=
  d.modTed fun t => { t with free := l, uses := kvIns t.uses f use }

/-- The frame that was at the head of the list is taken for a use; it has not been erased yet. -/
def Dev.frameTaken (d : Dev) (use : FrameUse) (f : Nat) (l : List (Nat × Nat)) : Dev :=
  ((d.frameUsed use f l).setPool ((d.frameUsed use f l).freeFrames - 1) (d.frameUsed use f l).resv).forgetMap f

section
variable {d} {use : FrameUse} {f : Nat} {l : List (Nat × Nat)}

theorem Dev.frameUsed_regs : (d.frameUsed use f l).regs = d.regs := rfl
theorem Dev.frameUsed_map : (d.frameUsed use f l).ted.map = d.ted.map := rfl
theorem Dev.frameUsed_freeFrames : (d.frameUsed use f l).freeFrames = d.freeFrames := rfl

theorem Dev.keepsRegs_frameTaken : d.keepsRegs (d.frameTaken use f l) poolRegs := by
  have hused : d.keepsRegs (d.frameUsed use f l) poolRegs := Dev.keepsRegs_of_regs_eq Dev.frameUsed_regs
  exact (hused.trans (Dev.keepsRegs_setPool _ _ _)).regs_eq (Dev.forgetMap_regs _ _)

theorem Dev.frameTaken_offMap :
    (d.frameTaken use f l).ted.offMap = ({ d.ted with free := l, uses := kvIns d.ted.uses f use } : Tiers).offMap := by
  rw [Dev.frameTaken, Dev.forgetMap_offMap, Dev.setPool_offMap]
  rfl

theorem Dev.frameTaken_freeFrames : (d.frameTaken use f l).freeFrames = d.freeFrames - 1 := by
  have hlt : d.freeFrames < 2 ^ 64 := d.regs.get_lt _
  have hset : ((d.frameUsed use f l).setPool ((d.frameUsed use f l).freeFrames - 1) (d.frameUsed use f l).resv).freeFrames =
      d.freeFrames - 1 := by
    rw [Dev.setPool_freeFrames _ _ (by rw [Dev.frameUsed_freeFrames]; omega), Dev.frameUsed_freeFrames]
  exact hset

theorem Dev.mapLine_frameTaken {sa : Nat} (h : sa / 4096 ≠ f) : (d.frameTaken use f l).mapLine sa = d.mapLine sa := by
  rw [Dev.frameTaken, Dev.mapLine_forgetMap _ h]
  exact Dev.mapLine_of_map_eq d ((Dev.setPool_map _ _ _).trans Dev.frameUsed_map) sa

theorem Dev.ftab_frameTaken : (d.frameTaken use f l).ftab = d.ftab := Dev.keepsRegs_frameTaken.ftab poolRegs_apart_gblFtab

theorem Dev.place_frameTaken (sa : Nat) : (d.frameTaken use f l).place sa = d.place sa :=
  Dev.place_of_rd (fun q hq => Dev.keepsRegs_frameTaken q (poolRegs_lt (by omega))) _

/-- The frame is erased at once, or once its set is READY (R212, R226). -/
theorem Dev.takeFrame_eq (m : Dram) (h : Sys2Proof.Machine.takeFrame d.draining d.ted.free = some (f, l)) : d.takeFrame m use =
    some (f, if d.place (f * 4096) == .wait then (d.frameTaken use f l).modTed fun t => { t with erases := t.erases ++ [f] }
      else (d.frameTaken use f l).eraseFrame m f) := by
  have heq : d.takeFrame m use = some (f, if (d.frameTaken use f l).place (f * 4096) == .wait then
      (d.frameTaken use f l).modTed fun t => { t with erases := t.erases ++ [f] } else (d.frameTaken use f l).eraseFrame m f) := by
    rw [Dev.takeFrame, h]
    dsimp only
    rw [Dev.frameTaken, Dev.frameUsed]
  rw [heq, Dev.place_frameTaken]

theorem Dev.takeFrame_none (m : Dram) (h : Sys2Proof.Machine.takeFrame d.draining d.ted.free = none) : d.takeFrame m use = none := by
  rw [Dev.takeFrame, h]

/-- What a frame that is taken leaves of the Tedders' work. -/
theorem Dev.takeFrame_takes {m : Dram} {e : Dev} (h : d.takeFrame m use = some (f, e)) :
    ∃ l, Sys2Proof.Machine.takeFrame d.draining d.ted.free = some (f, l) ∧ e.ted.uses = kvIns d.ted.uses f use ∧
      e.ted.work = d.ted.work ∧ e.ftab = d.ftab := by
  cases htake : Sys2Proof.Machine.takeFrame d.draining d.ted.free with
  | none => rw [Dev.takeFrame_none m htake] at h; cases h
  | some p =>
    obtain ⟨g, l⟩ := p
    rw [Dev.takeFrame_eq m htake, Option.some.injEq, Prod.mk.injEq] at h
    obtain ⟨rfl, rfl⟩ := h
    refine ⟨l, rfl, ?_⟩
    have huses := Tiers.uses_of_offMap (Dev.frameTaken_offMap (d := d) (use := use) (f := g) (l := l))
    have hwork := Tiers.work_of_offMap (Dev.frameTaken_offMap (d := d) (use := use) (f := g) (l := l))
    split
    · exact ⟨huses, hwork, Dev.ftab_frameTaken⟩
    · have hside := (d.frameTaken use g l).eraseFrame_tierSide m g
      rw [Dev.ted_of_tierSide hside, Dev.ftab_of_tierSide hside]
      exact ⟨huses, hwork, Dev.ftab_frameTaken⟩

end

/-! ### Sheaf frames -/

@[simp] theorem Dev.setSheafOcc_offMap (ted frame occ : Nat) : (d.setSheafOcc ted frame occ).ted.offMap = d.ted.offMap := by
  unfold Dev.setSheafOcc
  split
  · rfl
  · exact d.putMapLine_offMap _ _ _ _

@[simp] theorem Dev.setSheafOcc_regs (ted frame occ : Nat) : (d.setSheafOcc ted frame occ).regs = d.regs := by
  unfold Dev.setSheafOcc
  split
  · rfl
  · exact d.putMapLine_regs _ _ _ _

theorem Dev.sheafMapOf_of_uses_eq {d e : Dev} (h : e.ted.uses = d.ted.uses) (ted run : Nat) : e.sheafMapOf ted run = d.sheafMapOf ted run := by
  rw [Dev.sheafMapOf, h, Dev.sheafMapOf]

/-- The frame of a sheaf map is in use as one. -/
theorem Dev.sheafMapOf_mem {d : Dev} {ted run g : Nat} (h : d.sheafMapOf ted run = some g) : (g, FrameUse.sheafMap ted run) ∈ d.ted.uses := by
  rw [Dev.sheafMapOf, Option.map_eq_some_iff] at h
  obtain ⟨p, hp, rfl⟩ := h
  have huse := List.find?_some hp
  rw [beq_iff_eq] at huse
  rw [← huse]
  exact List.mem_of_find?_eq_some hp

theorem sheafEntrySa_frame (g frame : Nat) : sheafEntrySa g frame / 4096 = g := by
  unfold sheafEntrySa
  omega

/-- An entry of a sheaf map reads as it was last written. -/
theorem Dev.sheafOcc_setSheafOcc {d : Dev} {ted frame g occ : Nat} (hg : d.sheafMapOf ted (frame / 2048) = some g) (hocc : occ < 2 ^ 16) :
    (d.setSheafOcc ted frame occ).sheafOcc ted frame = occ := by
  have huses : (d.setSheafOcc ted frame occ).ted.uses = d.ted.uses := Tiers.uses_of_offMap (d.setSheafOcc_offMap ted frame occ)
  rw [Dev.sheafOcc, Dev.sheafMapOf_of_uses_eq huses, hg]
  dsimp only
  simp only [Dev.setSheafOcc, hg]
  have heven : sheafEntrySa g frame % 2 = 0 := by
    unfold sheafEntrySa
    omega
  rw [Dev.mapLine_putMapLine_self _ _ rfl, bitsOf_toNat_ofNat _ (by omega), bitsOf_put_self (by omega)]
  exact Nat.mod_eq_of_lt (hocc.trans_le (Nat.pow_le_pow_right (by decide) (by omega)))

/-- An entry of a sheaf map is 16 bits wide. -/
theorem Dev.sheafOcc_lt (ted frame : Nat) : d.sheafOcc ted frame < 2 ^ 16 := by
  unfold Dev.sheafOcc
  split
  · norm_num
  · refine (bitsOf_lt _ _ _).trans_le (Nat.pow_le_pow_right (by decide) (by omega))

theorem Dev.mapLine_setSheafOcc {ted frame occ sa : Nat} (h : ∀ p ∈ d.ted.uses, (∃ t r, p.2 = .sheafMap t r) → sa / 4096 ≠ p.1) :
    (d.setSheafOcc ted frame occ).mapLine sa = d.mapLine sa := by
  unfold Dev.setSheafOcc
  split
  · rfl
  · rename_i g hg
    refine Dev.mapLine_putMapLine_other _ _ (fun heq => ?_) _ _
    refine h _ (Dev.sheafMapOf_mem hg) ⟨_, _, rfl⟩ ?_
    rw [← sheafEntrySa_frame g frame, ← Nat.div_div_eq_div_mul _ 64 64, ← heq, Nat.div_div_eq_div_mul]

/-- Sheaves of a page that are free again. -/
def Dev.sheavesDropped (d : Dev) (ted f s n : Nat) : Dev :=
  (d.setSheafOcc ted f (d.sheafOcc ted f - (d.sheafOcc ted f &&& ((2 ^ n - 1) <<< s)))).modTed fun t =>
    { t with slots := (List.range n).foldl (fun l i => kvDel l (f * 16 + s + i)) t.slots }

/-- A sheaf map without entries goes back to the pool. -/
def Dev.freeSheafMap (d : Dev) (ted run : Nat) : Dev :=
  match d.sheafMapOf ted run with
  | some g => if d.sheafMapEmpty g then d.freeFrame g else d
  | none => d

theorem Dev.freeSheaves_eq (f s n : Nat) : d.freeSheaves f s n =
    match d.ted.useOf f with
    | some (.sheaves ted) =>
      if d.sheafOcc ted f - (d.sheafOcc ted f &&& ((2 ^ n - 1) <<< s)) = 0 then
        ((d.sheavesDropped ted f s n).freeFrame f).freeSheafMap ted (f / 2048)
      else if (d.sheavesDropped ted f s n).ted.slots.any fun p => p.1 / 16 == f then d.sheavesDropped ted f s n
      else (d.sheavesDropped ted f s n).addLost [f]
    | _ => d := rfl

theorem Dev.sheavesDropped_uses (ted f s n : Nat) : (d.sheavesDropped ted f s n).ted.uses = d.ted.uses :=
  (Tiers.uses_of_offMap (d.setSheafOcc_offMap ted f _) :)

theorem Dev.sheavesDropped_work (ted f s n : Nat) : (d.sheavesDropped ted f s n).ted.work = d.ted.work :=
  (Tiers.work_of_offMap (d.setSheafOcc_offMap ted f _) :)

theorem Dev.freeSheafMap_work (ted run : Nat) : (d.freeSheafMap ted run).ted.work = d.ted.work := by
  unfold Dev.freeSheafMap
  split
  · split
    · exact d.freeFrame_work _
    · rfl
  · rfl

@[simp] theorem Dev.freeSheaves_work (f s n : Nat) : (d.freeSheaves f s n).ted.work = d.ted.work := by
  rw [Dev.freeSheaves_eq]
  split
  · rename_i ted _
    have hdropped := d.sheavesDropped_work ted f s n
    split
    · rw [Dev.freeSheafMap_work, Dev.freeFrame_work, hdropped]
    · split
      · exact hdropped
      · exact hdropped
  · rfl

theorem Dev.keepsRegs_freeSheafMap (ted run : Nat) : d.keepsRegs (d.freeSheafMap ted run) poolRegs := by
  unfold Dev.freeSheafMap
  split
  · split
    · exact d.keepsRegs_freeFrame _
    · exact d.keepsRegs_refl _
  · exact d.keepsRegs_refl _

theorem Dev.keepsRegs_freeSheaves (f s n : Nat) : d.keepsRegs (d.freeSheaves f s n) poolRegs := by
  rw [Dev.freeSheaves_eq]
  split
  · rename_i ted _
    have hdropped : d.keepsRegs (d.sheavesDropped ted f s n) poolRegs := Dev.keepsRegs_of_regs_eq (d.setSheafOcc_regs ted f _)
    split
    · exact (hdropped.trans (Dev.keepsRegs_freeFrame _ _)).trans (Dev.keepsRegs_freeSheafMap _ _ _)
    · split
      · exact hdropped
      · exact hdropped.regs_eq rfl
  · exact d.keepsRegs_refl _

/-- Lines that lie in no frame of a sheaf map stay, but for those of a frame that is given back. -/
theorem Dev.mapLine_freeSheaves {f s n sa : Nat} (hf : sa / 4096 ≠ f)
    (h : ∀ p ∈ d.ted.uses, (∃ t r, p.2 = .sheafMap t r) → sa / 4096 ≠ p.1) : (d.freeSheaves f s n).mapLine sa = d.mapLine sa := by
  rw [Dev.freeSheaves_eq]
  split
  · rename_i ted _
    have hdropped : (d.sheavesDropped ted f s n).mapLine sa = d.mapLine sa := Dev.mapLine_setSheafOcc _ h
    have huses := d.sheavesDropped_uses ted f s n
    split
    · refine Eq.trans ?_ ((Dev.mapLine_freeFrame _ hf).trans hdropped)
      unfold Dev.freeSheafMap
      split
      · rename_i g hg
        split
        · have hmem := Dev.sheafMapOf_mem hg
          rw [Dev.freeFrame_uses, huses] at hmem
          exact Dev.mapLine_freeFrame _ (h _ (List.mem_of_mem_filter hmem) ⟨_, _, rfl⟩)
        · rfl
      · rfl
    · split
      · exact hdropped
      · exact hdropped
  · rfl

end

end Sys2Proof.Machine
end

section
/-! SUPPORT. Page-map entries (R146, Table 6.2): a page's entry reads as it was last written, and stays while lines of other frames
change; and what the homes do with requests leaves the Tedders' side as it is. -/

namespace Sys2Proof.Machine

/-! ### Entries as numbers -/

/-- The fields of an entry, but for the write counter, fit their bits (Table 6.2). -/
def Pme.fits (x : Pme) : Prop :=
  x.state < 4 ∧ x.frame < 2 ^ 36 ∧ x.soff < 16 ∧ x.scnt < 16 ∧ x.tsel < 8 ∧ x.pgc < 32 ∧ x.hot < 16

theorem Pme.num_lt (x : Pme) : x.num < 2 ^ 64 := by
  unfold Pme.num
  omega

/-- The write counter counts to 64 (R146). -/
theorem pmeOf_num {x : Pme} (h : x.fits) : pmeOf x.num = { x with fctr := x.fctr % 64 } := by
  obtain ⟨hstate, hframe, hsoff, hscnt, htsel, hpgc, hhot⟩ := h
  have hbits {hi lo y : Nat} (hy : x.num / 2 ^ lo % 2 ^ (hi + 1 - lo) = y) : bitsOf x.num hi lo = y := by
    rw [bitsOf, Nat.shiftRight_eq_div_pow, hy]
  rw [pmeOf, hbits (y := x.state), hbits (y := x.frame), hbits (y := x.soff), hbits (y := x.scnt), hbits (y := x.tsel),
    hbits (y := x.pgc), hbits (y := x.hot), hbits (y := x.fctr % 64)]
  all_goals
    unfold Pme.num
    omega

theorem pmeOf_fits (v : Nat) : (pmeOf v).fits :=
  ⟨bitsOf_lt v 63 62, bitsOf_lt v 61 26, bitsOf_lt v 25 22, bitsOf_lt v 21 18, bitsOf_lt v 17 15, bitsOf_lt v 14 10, bitsOf_lt v 9 6⟩

theorem pmeOf_fctr_lt (v : Nat) : (pmeOf v).fctr < 64 := bitsOf_lt v 5 0

theorem Pme.fits_toState {x : Pme} (h : x.fits) {st : Nat} (hst : st < 4) : (x.toState st).fits := by
  obtain ⟨-, -, -, -, -, hpgc, hhot⟩ := h
  exact ⟨hst, by simp [Pme.toState], by simp [Pme.toState], by simp [Pme.toState], by simp [Pme.toState], hpgc, hhot⟩

/-! ### A page's lines of the map -/

/-- What a page's entry is read from: the place of the descriptors, and the lines of its field's descriptor and of its entry. -/
def Dev.pageLines (d : Dev) (page : Nat) : Nat × Line × Line :=
  (d.ftab, d.mapLine (d.descSa (fieldOfPage page)), d.mapLine (d.pmeSa (fieldOfPage page) (page % 512)))

section
variable {d e : Dev} {page f : Nat}

theorem Dev.desc_of_mapLine_eq {field : Nat} (hf : e.ftab = d.ftab) (hd : e.mapLine (d.descSa field) = d.mapLine (d.descSa field)) :
    e.desc field = d.desc field := by
  have hsa : e.descSa field = d.descSa field := by rw [Dev.descSa, hf, Dev.descSa]
  rw [Dev.desc, hsa, hd, Dev.desc]

theorem Dev.pmeSa_of_desc_eq {field page : Nat} (h : e.desc field = d.desc field) : e.pmeSa field page = d.pmeSa field page := by
  rw [Dev.pmeSa, h, Dev.pmeSa]

theorem Dev.pageLines_of_mapLine_eq (hf : e.ftab = d.ftab)
    (hd : e.mapLine (d.descSa (fieldOfPage page)) = d.mapLine (d.descSa (fieldOfPage page)))
    (hp : e.mapLine (d.pmeSa (fieldOfPage page) (page % 512)) = d.mapLine (d.pmeSa (fieldOfPage page) (page % 512))) :
    e.pageLines page = d.pageLines page := by
  have hsa : e.descSa (fieldOfPage page) = d.descSa (fieldOfPage page) := by rw [Dev.descSa, hf, Dev.descSa]
  rw [Dev.pageLines, Dev.pmeSa_of_desc_eq (Dev.desc_of_mapLine_eq hf hd), hsa, hf, hd, hp, Dev.pageLines]

theorem Dev.pageLines_of_map_eq (hm : e.ted.map = d.ted.map) (hf : e.ftab = d.ftab) : e.pageLines page = d.pageLines page :=
  Dev.pageLines_of_mapLine_eq hf (Dev.mapLine_of_map_eq d hm _) (Dev.mapLine_of_map_eq d hm _)

theorem Dev.pageLines_of_tierSide (h : e.tierSide = d.tierSide) : e.pageLines page = d.pageLines page :=
  Dev.pageLines_of_map_eq (by rw [Dev.ted_of_tierSide h]) (Dev.ftab_of_tierSide h)

section
variable (h : e.pageLines page = d.pageLines page)
include h

theorem Dev.ftab_of_pageLines : e.ftab = d.ftab := congrArg (·.1) h

theorem Dev.desc_of_pageLines : e.desc (fieldOfPage page) = d.desc (fieldOfPage page) := by
  have hf := Dev.ftab_of_pageLines h
  have hsa : e.descSa (fieldOfPage page) = d.descSa (fieldOfPage page) := by rw [Dev.descSa, hf, Dev.descSa]
  have hline : e.mapLine (e.descSa (fieldOfPage page)) = d.mapLine (d.descSa (fieldOfPage page)) := congrArg (·.2.1) h
  rw [hsa] at hline
  exact Dev.desc_of_mapLine_eq hf hline

theorem Dev.pmeSa_of_pageLines : e.pmeSa (fieldOfPage page) (page % 512) = d.pmeSa (fieldOfPage page) (page % 512) :=
  Dev.pmeSa_of_desc_eq (Dev.desc_of_pageLines h)

theorem Dev.pageEntry_of_pageLines : e.pageEntry page = d.pageEntry page := by
  have hline : e.mapLine (e.pmeSa (fieldOfPage page) (page % 512)) = d.mapLine (d.pmeSa (fieldOfPage page) (page % 512)) :=
    congrArg (·.2.2) h
  rw [Dev.pageEntry, Dev.pme, hline, Dev.pmeSa_of_pageLines h, Dev.pageEntry, Dev.pme]

theorem Dev.tableApart_of_pageLines (hf : d.tableApart page f) : e.tableApart page f := by
  have hftab := Dev.ftab_of_pageLines h
  rw [Dev.tableApart, Dev.pmeSa_of_pageLines h, Dev.descSa, Dev.inFtab, hftab]
  exact hf

end

theorem Dev.pageLines_freeFrame (h : d.tableApart page f) : (d.freeFrame f).pageLines page = d.pageLines page := by
  obtain ⟨-, hpme, hdesc⟩ := h
  exact Dev.pageLines_of_mapLine_eq (d.ftab_freeFrame f) (Dev.mapLine_freeFrame d hdesc) (Dev.mapLine_freeFrame d hpme)

theorem Dev.pageLines_frameTaken {use : FrameUse} {l : List (Nat × Nat)} (h : d.tableApart page f) :
    (d.frameTaken use f l).pageLines page = d.pageLines page := by
  obtain ⟨-, hpme, hdesc⟩ := h
  exact Dev.pageLines_of_mapLine_eq Dev.ftab_frameTaken (Dev.mapLine_frameTaken hdesc) (Dev.mapLine_frameTaken hpme)

theorem Dev.pageLines_freeSheaves {s n : Nat} (h : d.tableApart page f)
    (hmaps : ∀ p ∈ d.ted.uses, (∃ t r, p.2 = .sheafMap t r) → d.tableApart page p.1) :
    (d.freeSheaves f s n).pageLines page = d.pageLines page := by
  obtain ⟨-, hpme, hdesc⟩ := h
  refine Dev.pageLines_of_mapLine_eq ((d.keepsRegs_freeSheaves f s n).ftab poolRegs_apart_gblFtab)
    (Dev.mapLine_freeSheaves d hdesc fun p hp hmap => ?_) (Dev.mapLine_freeSheaves d hpme fun p hp hmap => ?_)
  · obtain ⟨-, -, hapart⟩ := hmaps p hp hmap
    exact hapart
  · obtain ⟨-, hapart, -⟩ := hmaps p hp hmap
    exact hapart

end

/-! ### Writing an entry -/

section
variable (d : Dev) (field page : Nat) (x : Pme)

/-- The entry is in the map; the accounts have not followed yet. -/
def Dev.pmeWritten (d : Dev) (field page : Nat) (x : Pme) : Dev :=
  d.putMapWord (field % 4) (d.pmeSa field page) x.num ({ d.pme field page with hot := 0 } != { x with hot := 0 })

/-- The accounts follow an entry: the footprint of the LD, or the frames held back (R146, R167). -/
def Dev.accountPme (d : Dev) (ds : Desc) (old x : Pme) : Dev :=
  if ds.elastic then d.wr (.tedLduse ds.ld) (d.foot ds.ld + x.weight - old.weight)
  else d.setPool d.freeFrames (d.resv + b2n (x.state != 1) - b2n (old.state != 1))

theorem Dev.putPme_eq : d.putPme field page x = (d.pmeWritten field page x).accountPme (d.desc field) (d.pme field page) x := rfl

theorem Dev.accountPme_offMap (ds : Desc) (old : Pme) : (d.accountPme ds old x).ted.offMap = d.ted.offMap := by
  unfold Dev.accountPme
  split
  · rfl
  · exact d.setPool_offMap _ _

theorem Dev.accountPme_map (ds : Desc) (old : Pme) : (d.accountPme ds old x).ted.map = d.ted.map := by
  unfold Dev.accountPme
  split
  · rfl
  · exact d.setPool_map _ _

theorem Dev.keepsRegs_accountPme (ds : Desc) (old : Pme) : d.keepsRegs (d.accountPme ds old x) (.tedLduse ds.ld :: poolRegs) := by
  unfold Dev.accountPme
  split
  · exact (d.keepsRegs_wr _ _).mono (by simp)
  · exact (d.keepsRegs_setPool _ _).mono fun r hr => List.mem_cons_of_mem _ hr

theorem Dev.pmeWritten_regs : (d.pmeWritten field page x).regs = d.regs := d.putMapLine_regs _ _ _ _

@[simp] theorem Dev.putPme_offMap : (d.putPme field page x).ted.offMap = d.ted.offMap := by
  rw [Dev.putPme_eq, Dev.accountPme_offMap]
  exact d.putMapWord_offMap _ _ _ _

theorem Dev.keepsRegs_putPme : d.keepsRegs (d.putPme field page x) (.tedLduse (d.desc field).ld :: poolRegs) := by
  rw [Dev.putPme_eq]
  exact (Dev.keepsRegs_of_regs_eq (d.pmeWritten_regs field page x)).trans (Dev.keepsRegs_accountPme _ _ _ _)

theorem Dev.ftab_putPme : (d.putPme field page x).ftab = d.ftab := by
  refine (d.keepsRegs_putPme field page x).ftab fun r hr => ?_
  rcases List.mem_cons.mp hr with rfl | hr
  · simp only [Reg.offset]
    omega
  · exact poolRegs_apart_gblFtab r hr

theorem Dev.mapLine_putPme (sa : Nat) : (d.putPme field page x).mapLine sa = (d.pmeWritten field page x).mapLine sa := by
  rw [Dev.putPme_eq]
  exact Dev.mapLine_of_map_eq _ (Dev.accountPme_map _ _ _ _) sa

variable {d field page x}

/-- A line outside the table of the descriptors is none of its lines. -/
theorem Dev.descSa_apart {sa : Nat} (hfield : field < 2 ^ 27) (h : d.inFtab sa = false) : sa / 64 ≠ d.descSa field / 64 := by
  simp only [Dev.inFtab, decide_eq_false_iff_not, Dev.descSa] at h ⊢
  have halign : d.ftab % 64 = 0 := by
    unfold Dev.ftab
    omega
  omega

theorem Dev.desc_putPme (hfield : field < 2 ^ 27) (h : d.inFtab (d.pmeSa field page) = false) :
    (d.putPme field page x).desc field = d.desc field := by
  refine Dev.desc_of_mapLine_eq (d.ftab_putPme field page x) ((d.mapLine_putPme field page x _).trans ?_)
  exact Dev.mapLine_putMapLine_other _ _ (Dev.descSa_apart hfield h) _ _

/-- An entry reads as it was last written. -/
theorem Dev.pme_putPme (hfield : field < 2 ^ 27) (h : d.inFtab (d.pmeSa field page) = false) (hx : x.fits) :
    (d.putPme field page x).pme field page = { x with fctr := x.fctr % 64 } := by
  have hline : (d.putPme field page x).mapLine (d.pmeSa field page) =
      setWord (d.mapLine (d.pmeSa field page)) (d.pmeSa field page / 8 % 8) x.num :=
    (d.mapLine_putPme field page x _).trans (Dev.mapLine_putMapLine_self _ _ rfl _ _)
  rw [Dev.pme, Dev.pmeSa_of_desc_eq (Dev.desc_putPme hfield h), hline, wordOfLine_setWord_self _ (Nat.mod_lt _ (by norm_num)),
    Nat.mod_eq_of_lt x.num_lt, pmeOf_num hx]

end

section
variable {d : Dev} {page f : Nat} {x : Pme} (hpage : page < 2 ^ 36)
include hpage

theorem fieldOfPage_lt : fieldOfPage page < 2 ^ 27 := by
  unfold fieldOfPage
  omega

theorem Dev.pageEntry_putPme (h : d.inFtab (d.pmeSa (fieldOfPage page) (page % 512)) = false) (hx : x.fits) :
    (d.putPme (fieldOfPage page) (page % 512) x).pageEntry page = { x with fctr := x.fctr % 64 } :=
  Dev.pme_putPme (fieldOfPage_lt hpage) h hx

theorem Dev.tableApart_putPme (h : d.tableApart page f) : (d.putPme (fieldOfPage page) (page % 512) x).tableApart page f := by
  have hdesc := Dev.desc_putPme (x := x) (fieldOfPage_lt hpage) h.1
  rw [Dev.tableApart, Dev.pmeSa_of_desc_eq hdesc, Dev.descSa, Dev.inFtab, Dev.ftab_putPme]
  exact h

end

/-! ### Requests at their homes -/

section
variable (d : Dev)

theorem Reg.tier_homeQstat (s : Nat) : (Reg.homeQstat s).tier = false :=
  Reg.tier_of_offset (by simp only [Reg.offset]; omega) (by simp only [Reg.offset]; omega)

@[simp] theorem Dev.modTxn_tierSide (id : Nat) (f : Txn → Txn) : (d.modTxn id f).tierSide = d.tierSide := rfl
@[simp] theorem Dev.dropTxn_tierSide (id : Nat) : (d.dropTxn id).tierSide = d.tierSide := rfl
@[simp] theorem Dev.addTxn_tierSide (t : Txn) : (d.addTxn t).tierSide = d.tierSide := rfl
@[simp] theorem Dev.noteSource_tierSide (id s : Nat) : (d.noteSource id s).tierSide = d.tierSide := rfl
@[simp] theorem Dev.modDirSet_tierSide (k : Nat) (f : DirSet → DirSet) : (d.modDirSet k f).tierSide = d.tierSide := rfl
@[simp] theorem Dev.modEnt_tierSide (line : Nat) (f : DirEnt → DirEnt) : (d.modEnt line f).tierSide = d.tierSide := rfl

@[simp] theorem Dev.touchEnt_tierSide (line : Nat) : (d.touchEnt line).tierSide = d.tierSide := by
  unfold Dev.touchEnt
  split <;> rfl

theorem Dev.allocEnt_tierSide {d e : Dev} {line : Nat} (h : d.allocEnt line = some e) : e.tierSide = d.tierSide := by
  obtain ⟨w, -, rfl⟩ := Option.map_eq_some_iff.mp h
  rw [Dev.touchEnt_tierSide, Dev.modDirSet_tierSide]

@[simp] theorem Dev.startEvict_tierSide (t : Txn) : (d.startEvict t).tierSide = d.tierSide := by
  unfold Dev.startEvict
  split
  · rfl
  · rw [Dev.addTxn_tierSide, Dev.modTxn_tierSide, Dev.modEnt_tierSide]

@[simp] theorem Dev.enterLine_tierSide (t : Txn) : (d.enterLine t).tierSide = d.tierSide := by
  have hq := Reg.tier_homeQstat (homeOf t.line)
  have hflag (e : Dev) (c : Bool) (f : Fld) : (if c then e.setFlag (.homeQstat (homeOf t.line)) f true else e).tierSide = e.tierSide := by
    split
    · exact e.setFlag_tierSide hq _ _
    · rfl
  unfold Dev.enterLine
  dsimp only
  split
  · split
    · rw [hflag, Dev.modTxn_tierSide]
    · rw [Dev.touchEnt_tierSide, Dev.modTxn_tierSide, Dev.modEnt_tierSide]
  · split
    · rename_i e he
      rw [Dev.modTxn_tierSide, Dev.allocEnt_tierSide he]
    · rw [Dev.startEvict_tierSide, hflag, Dev.modTxn_tierSide]

@[simp] theorem Dev.readmit_tierSide (page : Nat) : (d.readmit page).tierSide = d.tierSide := by
  unfold Dev.readmit
  refine foldl_keeps Dev.tierSide (fun e t => ?_) _ _
  split
  · exact e.enterLine_tierSide t
  · rfl

theorem Dev.readData_tierSide (own : Nat) (x : Line) : (d.readData own x).1.tierSide = d.tierSide := by
  unfold Dev.readData
  split <;> rfl

@[simp] theorem Dev.respond_tierSide (t : Txn) (x : Line) (poison : Bool) : (d.respond t x poison).tierSide = d.tierSide := by
  have hread : (if t.op.reads && !t.noData then d.readData t.own x else (d, x)).1.tierSide = d.tierSide := by
    split
    · exact d.readData_tierSide t.own x
    · rfl
  unfold Dev.respond
  generalize (if t.op.reads && !t.noData then d.readData t.own x else (d, x)) = p at hread
  obtain ⟨e, y⟩ := p
  cases t.src with
  | dir => exact hread
  | ring cmd idx n => exact hread
  | host head n tag => cases t.sample <;> simp [apply_ite Dev.tierSide, hread]

end

end Sys2Proof.Machine
end

section
/-! SUPPORT. Promotions (R154 to R156, R175): the promotions that a Tedder has in hand, and each command of a promotion by what it
finds. -/

namespace Sys2Proof.Machine

/-! ### The promotions in hand -/

section
variable {d e : Dev} {page : Nat} {p : Promo}

theorem Dev.promo_page (h : d.promo page = some p) : p.page = page := by
  rw [Dev.promo] at h
  exact beq_iff_eq.mp (List.find?_some h :)

theorem Dev.promo_of_promos_eq (h : e.ted.promos = d.ted.promos) : e.promo page = d.promo page := by rw [Dev.promo, h, Dev.promo]

theorem Dev.promo_of_tierSide (h : e.tierSide = d.tierSide) : e.promo page = d.promo page :=
  Dev.promo_of_promos_eq (by rw [Dev.ted_of_tierSide h])

/-- A change of a page's promotion that leaves it the page's. -/
theorem Dev.promo_modPromo {g : Promo → Promo} (hg : ∀ p, p.page = page → (g p).page = page) (h : d.promo page = some p) :
    (d.modPromo page g).promo page = some (g p) := by
  have hsame : (fun x : Promo => x.page == page) ∘ (fun x => if x.page = page then g x else x) = fun x => x.page == page := by
    funext x
    by_cases hx : x.page = page
    · simp [hx, hg x hx]
    · simp [hx]
  have hmap : (d.modPromo page g).promo page = (d.promo page).map fun x => if x.page = page then g x else x := by
    rw [Dev.promo, Dev.modPromo, Dev.modTed, List.find?_map, hsame, Dev.promo]
  rw [hmap, h, Option.map_some, if_pos (Dev.promo_page h)]

theorem Dev.promo_dropPromo : (d.dropPromo page).promo page = none := by
  rw [Dev.promo, Dev.dropPromo, Dev.modTed, List.find?_filter, List.find?_eq_none]
  intro x _
  by_cases hx : x.page = page <;> simp [hx]

theorem Dev.promoNote_ted (p : Promo) (n : RingNote) : ∃ l, (d.promoNote p n).ted = { d.ted with notes := l } := by
  unfold Dev.promoNote
  refine List.foldlRecOn p.cmds _ (motive := fun e : Dev => ∃ l, e.ted = { d.ted with notes := l }) ⟨d.ted.notes, rfl⟩ ?_
  rintro e ⟨l, hl⟩ c -
  exact ⟨e.ted.notes ++ [(c, n)], by rw [Dev.note, Dev.modTed, hl]⟩

theorem Dev.promoNote_regs (p : Promo) (n : RingNote) : (d.promoNote p n).regs = d.regs :=
  foldl_keeps Dev.regs (f := fun e c => e.note c n) (fun e _ => e.modTed_regs _) p.cmds d

theorem Dev.ftab_of_regs_eq (h : e.regs = d.regs) : e.ftab = d.ftab := by rw [Dev.ftab, Dev.fld_of_regs_eq h, Dev.ftab]

/-- A promotion leaves the Tedder's hands, and the ring commands that asked for it hear of it. -/
def Dev.promoOver (d : Dev) (p : Promo) (n : RingNote) : Dev := (d.dropPromo p.page).promoNote p n

theorem Dev.promoEnd_eq (n : RingNote) : d.promoEnd p n = (d.promoOver p n).readmit p.page := rfl

theorem Dev.promo_promoOver (n : RingNote) : (d.promoOver p n).promo p.page = none := by
  obtain ⟨l, hl⟩ := Dev.promoNote_ted (d := d.dropPromo p.page) p n
  exact (Dev.promo_of_promos_eq (by rw [Dev.promoOver, hl])).trans Dev.promo_dropPromo

theorem Dev.promoOver_free (n : RingNote) : (d.promoOver p n).ted.free = d.ted.free := by
  obtain ⟨l, hl⟩ := Dev.promoNote_ted (d := d.dropPromo p.page) p n
  rw [Dev.promoOver, hl, Dev.dropPromo, Dev.modTed]

theorem Dev.promoOver_pageLines (n : RingNote) : (d.promoOver p n).pageLines page = d.pageLines page := by
  obtain ⟨l, hl⟩ := Dev.promoNote_ted (d := d.dropPromo p.page) p n
  refine Dev.pageLines_of_map_eq ?_ (Dev.ftab_of_regs_eq ((Dev.promoNote_regs p n).trans (d.modTed_regs _)))
  rw [Dev.promoOver, hl, Dev.dropPromo, Dev.modTed]

theorem Dev.promo_promoEnd (n : RingNote) : (d.promoEnd p n).promo p.page = none :=
  (Dev.promo_of_tierSide (Dev.readmit_tierSide _ _)).trans (Dev.promo_promoOver n)

theorem Dev.promoEnd_free (n : RingNote) : (d.promoEnd p n).ted.free = d.ted.free := by
  rw [Dev.promoEnd_eq, Dev.ted_of_tierSide (Dev.readmit_tierSide _ _), Dev.promoOver_free]

theorem Dev.promoEnd_pageLines (n : RingNote) : (d.promoEnd p n).pageLines page = d.pageLines page :=
  (Dev.pageLines_of_tierSide (Dev.readmit_tierSide _ _)).trans (Dev.promoOver_pageLines n)

end

/-! ### Live pages -/

section
variable {d : Dev} {page : Nat}

/-- The field is not populated, is not tiered, or its descriptor was lost, as the commands of a page test it. -/
def Desc.gone (x : Desc) : Bool := !x.v || !x.tiered || x.fpois

theorem Dev.gone_of_not_livePage (h : ¬ d.livePage page) : (d.desc (fieldOfPage page)).gone = true := by
  contrapose! h
  simpa [Desc.gone, Dev.livePage, and_assoc] using h

theorem Dev.not_gone_of_livePage (h : d.livePage page) : (d.desc (fieldOfPage page)).gone = false := by
  simpa [Desc.gone, Dev.livePage, and_assoc] using h

end

/-! ### PROMOTION_START (Table 6.4 steps 1 to 3) -/

section
variable {d : Dev} {m : Dram} {page : Nat} {bad : List Nat} {p : Promo}

/-- Promotions under way at a promotion's Tedder. -/
def Dev.promosRunning (d : Dev) (p : Promo) : Nat := (d.ted.promos.filter fun x => x.ted == p.ted && x.runs).length

/-- A promotion goes on with a frame. -/
def Dev.promoTakes (m : Dram) (d : Dev) (page : Nat) (p : Promo) (frame : Nat) (bad : List Nat) : Dev :=
  let p := { p with phase := .taken, frame := frame, ld := (d.ldOfField (fieldOfPage page)).getD 0,
                    elastic := (d.desc (fieldOfPage page)).elastic }
  let d := d.modPromo page fun _ => p
  if d.ted.erases.contains frame then d else d.promoForm m p bad

theorem Dev.promoStart_of_none (h : d.promo page = none) : d.promoStart m page bad = d := by
  rw [Dev.promoStart, h]

theorem Dev.promoStart_of_under_way (h : d.promo page = some p) (hp : p.phase = .reading ∨ p.phase = .decoded ∨ p.phase = .written) :
    d.promoStart m page bad = d := by
  rw [Dev.promoStart, h]
  rcases hp with hp | hp | hp <;> simp only [hp]

section
variable (h : d.promo page = some p) (hp : p.phase = .queued)
include h hp

theorem Dev.promoStart_of_gone (hlive : ¬ d.livePage page) : d.promoStart m page bad = d.promoEnd p .promoSkipped := by
  rw [Dev.promoStart, h]
  simp only [hp]
  exact if_pos (Dev.gone_of_not_livePage hlive)

section
variable (hlive : d.livePage page)
include hlive

theorem Dev.promoStart_of_sward (hs : (d.pageEntry page).state = 1) : d.promoStart m page bad = d.promoEnd p .alreadySward := by
  rw [Dev.promoStart, h]
  simp only [hp]
  exact (if_neg (by simpa [Desc.gone] using Dev.not_gone_of_livePage hlive)).trans (if_pos hs)

section
variable (hs : (d.pageEntry page).state ≠ 1)
include hs

theorem Dev.promoStart_of_full (hfull : 64 ≤ d.promosRunning p) : d.promoStart m page bad = d := by
  rw [Dev.promoStart, h]
  simp only [hp]
  exact (if_neg (by simpa [Desc.gone] using Dev.not_gone_of_livePage hlive)).trans ((if_neg hs).trans (if_pos hfull))

theorem Dev.promoStart_of_no_frame (hfull : ¬ 64 ≤ d.promosRunning p) (hel : (d.desc (fieldOfPage page)).elastic = false)
    (hfree : d.freeFrames = 0) : d.promoStart m page bad = d := by
  rw [Dev.promoStart, h]
  simp only [hp]
  refine (if_neg (by simpa [Desc.gone] using Dev.not_gone_of_livePage hlive)).trans ((if_neg hs).trans ((if_neg hfull).trans ?_))
  simp [hel, Dev.mayTake, hfree]

theorem Dev.promoStart_of_floor (hfull : ¬ 64 ≤ d.promosRunning p) (hel : (d.desc (fieldOfPage page)).elastic = true)
    (hfloor : d.mayTake .elasticPromotion = false) : d.promoStart m page bad = d.promoHold p := by
  rw [Dev.promoStart, h]
  simp only [hp]
  refine (if_neg (by simpa [Desc.gone] using Dev.not_gone_of_livePage hlive)).trans ((if_neg hs).trans ((if_neg hfull).trans ?_))
  simp [hel, hfloor]

theorem Dev.promoStart_of_frame (hfull : ¬ 64 ≤ d.promosRunning p) (hel : (d.desc (fieldOfPage page)).elastic = false)
    (hfree : 0 < d.freeFrames) {f : Nat} {e : Dev} (htake : d.takeFrame m (.page (fieldOfPage page) (page % 512)) = some (f, e)) :
    d.promoStart m page bad =
      let p := { p with phase := .taken, frame := f, ld := (e.ldOfField (fieldOfPage page)).getD 0, elastic := false }
      let e := e.modPromo page fun _ => p
      if e.ted.erases.contains f then e else e.promoForm m p bad := by
  rw [Dev.promoStart, h]
  simp only [hp]
  refine (if_neg (by simpa [Desc.gone] using Dev.not_gone_of_livePage hlive)).trans ((if_neg hs).trans ((if_neg hfull).trans ?_))
  simp [hel, Dev.mayTake, hfree, htake]

end

end

end

/-- A promotion as the reading of its page leaves it: with the entry that was found, and the key. -/
def Promo.stamped (p : Promo) (d : Dev) : Promo :=
  { p with phase := .reading, entry := (d.pageEntry p.page).num, key := d.ldKeyId p.ld, kgen := d.ldKgen p.ld }

/-- The lines of a page that is not fallow are formed and written at once. -/
theorem Dev.promoForm_of_not_fallow (hs : (d.pageEntry p.page).state ≠ 2) : ∃ lines,
    d.promoForm m p bad = (d.modPromo p.page fun _ => p.stamped d).promoWrite m (p.stamped d) lines := by
  unfold Dev.promoForm
  dsimp only
  split
  · rename_i h
    exact absurd h hs
  · exact ⟨_, rfl⟩
  · exact ⟨_, rfl⟩

/-- A promotion whose lines are written keeps its frame and the entry that it found. -/
def Promo.wrote (p : Promo) : Promo := { p with phase := .written, lines := [] }

theorem Dev.promoWrite_eq (lines : List (Line × Bool)) :
    d.promoWrite m p lines = (d.writeFrame m p.frame (.ld p.ld p.key p.kgen) lines).modPromo p.page Promo.wrote := rfl

theorem Dev.modPromo_pageLines (g : Promo → Promo) : (d.modPromo page g).pageLines page = d.pageLines page :=
  Dev.pageLines_of_map_eq rfl (Dev.ftab_of_regs_eq (d.modTed_regs _))

theorem Dev.modPromo_free (g : Promo → Promo) : (d.modPromo page g).ted.free = d.ted.free := rfl
theorem Dev.modPromo_freeFrames (g : Promo → Promo) : (d.modPromo page g).freeFrames = d.freeFrames := rfl

/-- What the forming of a page's lines leaves of a promotion of a page that is not fallow. -/
theorem Dev.promoForm_writes {q : Promo} (hpage : p.page = page) (h : d.promo page = some q) (hs : (d.pageEntry page).state ≠ 2) :
    (d.promoForm m p bad).promo page = some (p.stamped d).wrote ∧ (d.promoForm m p bad).ted.free = d.ted.free ∧
      (d.promoForm m p bad).freeFrames = d.freeFrames := by
  subst hpage
  obtain ⟨lines, heq⟩ := Dev.promoForm_of_not_fallow (m := m) (bad := bad) hs
  rw [heq, Dev.promoWrite_eq]
  have hside := (d.modPromo p.page fun _ => p.stamped d).writeFrame_tierSide m (p.stamped d).frame
    (.ld (p.stamped d).ld (p.stamped d).key (p.stamped d).kgen) lines
  refine ⟨?_, ?_, ?_⟩
  · refine Dev.promo_modPromo (fun q hq => hq) ((Dev.promo_of_tierSide hside).trans ?_)
    exact Dev.promo_modPromo (fun _ _ => rfl) h
  · rw [Dev.modPromo_free, Dev.ted_of_tierSide hside, Dev.modPromo_free]
  · rw [Dev.modPromo_freeFrames, Dev.freeFrames_of_tierSide hside, Dev.modPromo_freeFrames]

/-- A promotion of a bare or poisoned page of a committed field takes the first frame, and is ready to commit. -/
theorem Dev.promoStart_takes {f : Nat} {l : List (Nat × Nat)} (h : d.promo page = some p) (hp : p.phase = .queued)
    (hlive : d.livePage page) (hs : (d.pageEntry page).state ≠ 1) (hfull : ¬ 64 ≤ d.promosRunning p)
    (hel : (d.desc (fieldOfPage page)).elastic = false) (hs2 : (d.pageEntry page).state ≠ 2) (hfree : 0 < d.freeFrames)
    (htake : Sys2Proof.Machine.takeFrame d.draining d.ted.free = some (f, l)) (hapart : d.tableApart page f) (hplace : d.place (f * 4096) ≠ .wait)
    (herases : f ∉ d.ted.erases) :
    (d.promoStart m page bad).ted.free = l ∧ (d.promoStart m page bad).freeFrames = d.freeFrames - 1 ∧
      ∃ q, (d.promoStart m page bad).promo page = some q ∧ q.phase = .written ∧ q.frame = f ∧ q.entry = (d.pageEntry page).num ∧
        q.cmds = p.cmds := by
  set use : FrameUse := .page (fieldOfPage page) (page % 512)
  set c := (d.frameTaken use f l).eraseFrame m f with hc
  have htaken : d.takeFrame m use = some (f, c) := by
    rw [Dev.takeFrame_eq m htake, if_neg (by simpa using hplace)]
  have hside : c.tierSide = (d.frameTaken use f l).tierSide := Dev.eraseFrame_tierSide _ m f
  have hoff := Dev.frameTaken_offMap (d := d) (use := use) (f := f) (l := l)
  have hpromo : c.promo page = some p := by
    rw [Dev.promo_of_tierSide hside, Dev.promo_of_promos_eq (Tiers.promos_of_work ((Tiers.work_of_offMap hoff).trans rfl)), h]
  have herased : c.ted.erases = d.ted.erases := by rw [Dev.ted_of_tierSide hside, Tiers.erases_of_offMap hoff]
  have hlines : c.pageLines page = d.pageLines page := (Dev.pageLines_of_tierSide hside).trans (Dev.pageLines_frameTaken hapart)
  rw [Dev.promoStart_of_frame h hp hlive hs hfull hel hfree htaken]
  dsimp only
  set p1 : Promo := { p with phase := .taken, frame := f, ld := (c.ldOfField (fieldOfPage page)).getD 0, elastic := false } with hp1
  rw [if_neg (by
    show ¬ c.ted.erases.contains f = true
    rw [herased]
    simpa using herases)]
  have hp1page : p1.page = page := (Dev.promo_page h :)
  have hentry : (c.modPromo page fun _ => p1).pageEntry page = d.pageEntry page :=
    Dev.pageEntry_of_pageLines ((Dev.modPromo_pageLines _).trans hlines)
  obtain ⟨hwritten, hfreed, hframes⟩ := Dev.promoForm_writes (m := m) (bad := bad) (d := c.modPromo page fun _ => p1) hp1page
    (Dev.promo_modPromo (fun _ _ => hp1page) hpromo) (by rwa [hentry])
  refine ⟨?_, ?_, _, hwritten, rfl, rfl, ?_, rfl⟩
  · rw [hfreed, Dev.modPromo_free, Dev.ted_of_tierSide hside, Tiers.free_of_offMap hoff]
  · rw [hframes, Dev.modPromo_freeFrames, Dev.freeFrames_of_tierSide hside, Dev.frameTaken_freeFrames]
  · show ((c.modPromo page fun _ => p1).pageEntry p1.page).num = _
    rw [hp1page, hentry]

end

/-! ### PROMOTION_COMMIT (Table 6.4 steps 4 and 5) -/

section
variable {d : Dev} {page : Nat} {p : Promo}

/-- The page still holds what the promotion found, under the key that it was read with. -/
def Dev.promoHolds (d : Dev) (page : Nat) (p : Promo) : Prop :=
  d.livePage page ∧ (d.pageEntry page).sameStorage (pmeOf p.entry) = true ∧ d.ldKeyId p.ld = p.key

/-- The entry of a page that is made sward on a frame. -/
def Pme.madeSward (x : Pme) (frame : Nat) : Pme := { x with state := 1, frame := frame, soff := 0, scnt := 0, tsel := 0, hot := 15 }

theorem Dev.promoCommit_of_none (h : d.promo page = none) : d.promoCommit page = d := by
  rw [Dev.promoCommit, h]

theorem Dev.promoCommit_of_not_written (h : d.promo page = some p) (hp : p.phase ≠ .written) : d.promoCommit page = d := by
  rw [Dev.promoCommit, h]
  dsimp only
  split
  · rename_i hw
    exact absurd hw hp
  · rfl

section
variable (h : d.promo page = some p) (hp : p.phase = .written)
include h hp

theorem Dev.promoCommit_of_no_room (hroom : d.mapRoom p.ted (d.pmeSa (fieldOfPage page) (page % 512)) = false) :
    d.promoCommit page = d := by
  rw [Dev.promoCommit, h]
  simp [hp, hroom]

section
variable (hroom : d.mapRoom p.ted (d.pmeSa (fieldOfPage page) (page % 512)) = true)
include hroom

theorem Dev.promoCommit_of_holds (hok : d.promoHolds page p) : ∃ old, d.promoCommit page =
    (((d.putPme (fieldOfPage page) (page % 512) ((d.pageEntry page).madeSward p.frame)).count .promoted p.ted (pmeOf p.entry).state).modTed
      fun t => { t with old := old }).promoEnd p .promoted := by
  obtain ⟨⟨hv, htiered, hfpois⟩, hsame, hkey⟩ := hok
  have hpage := Dev.promo_page h
  rw [Dev.promoCommit, h]
  simp only [hp, hroom, hv, htiered, hfpois, hsame, Dev.sameKey, hkey, Bool.not_true, Bool.false_eq_true, if_false, Bool.not_false,
    Bool.and_true, beq_self_eq_true, if_true, Dev.promoEnd, hpage]
  split
  · exact ⟨_, rfl⟩
  · exact ⟨_, rfl⟩

theorem Dev.promoCommit_of_not_holds (hok : ¬ d.promoHolds page p) :
    d.promoCommit page = ((d.count .commitAbort p.ted).freeFrame p.frame).promoEnd p .promoSkipped := by
  have hpage := Dev.promo_page h
  rw [Dev.promoCommit, h]
  simp only [hp, hroom, Bool.not_true, Bool.false_eq_true, if_false, Dev.promoEnd, hpage]
  refine if_neg fun hc => hok ?_
  simp only [Bool.and_eq_true, Bool.not_eq_true', Dev.sameKey, beq_iff_eq] at hc
  obtain ⟨⟨⟨⟨hv, htiered⟩, hfpois⟩, hsame⟩, hkey⟩ := hc
  exact ⟨⟨hv, htiered, hfpois⟩, hsame, hkey⟩

end

end

theorem Pme.fits_madeSward {x : Pme} (h : x.fits) {frame : Nat} (hframe : frame < 2 ^ 36) : (x.madeSward frame).fits := by
  obtain ⟨-, -, -, -, -, hpgc, -⟩ := h
  exact ⟨Nat.one_lt_ofNat, hframe, Nat.ofNat_pos, Nat.ofNat_pos, Nat.ofNat_pos, hpgc, Nat.lt_succ_self 15⟩

theorem Dev.pageEntry_fits (d : Dev) (page : Nat) : (d.pageEntry page).fits := pmeOf_fits _
theorem Dev.pageEntry_fctr_lt (d : Dev) (page : Nat) : (d.pageEntry page).fctr < 64 := pmeOf_fctr_lt _

/-- A promotion that commits makes its page sward on its frame. -/
theorem Dev.promoCommit_makes_sward (hpage : page < 2 ^ 36) (h : d.promo page = some p) (hp : p.phase = .written)
    (hroom : d.mapRoom p.ted (d.pmeSa (fieldOfPage page) (page % 512)) = true) (hok : d.promoHolds page p) (hframe : p.frame < 2 ^ 36)
    (hsa : d.inFtab (d.pmeSa (fieldOfPage page) (page % 512)) = false) :
    (d.promoCommit page).promo page = none ∧ (d.promoCommit page).pageEntry page = (d.pageEntry page).madeSward p.frame ∧
      (d.promoCommit page).ted.free = d.ted.free := by
  obtain ⟨old, heq⟩ := Dev.promoCommit_of_holds h hp hroom hok
  set x := (d.pageEntry page).madeSward p.frame with hx
  have hlines : (d.promoCommit page).pageLines page = (d.putPme (fieldOfPage page) (page % 512) x).pageLines page := by
    rw [heq, Dev.promoEnd_pageLines]
    exact Dev.pageLines_of_map_eq rfl (Dev.ftab_of_regs_eq rfl)
  refine ⟨?_, ?_, ?_⟩
  · rw [heq, ← Dev.promo_page h]
    exact Dev.promo_promoEnd _
  · rw [Dev.pageEntry_of_pageLines hlines, Dev.pageEntry_putPme hpage hsa (Pme.fits_madeSward (d.pageEntry_fits page) hframe)]
    have hfctr : x.fctr % 64 = x.fctr := Nat.mod_eq_of_lt (d.pageEntry_fctr_lt page)
    rw [hfctr]
  · rw [heq, Dev.promoEnd_free]
    exact (Tiers.free_of_offMap (d.putPme_offMap _ _ x) :)

/-- A promotion that does not commit gives its frame back. -/
theorem Dev.promoCommit_gives_back (h : d.promo page = some p) (hp : p.phase = .written)
    (hroom : d.mapRoom p.ted (d.pmeSa (fieldOfPage page) (page % 512)) = true) (hok : ¬ d.promoHolds page p) :
    (d.promoCommit page).promo page = none ∧
      (d.promoCommit page).ted.free = if d.draining p.frame then d.ted.free else putFrame d.ted.free p.frame := by
  rw [Dev.promoCommit_of_not_holds h hp hroom hok]
  refine ⟨?_, ?_⟩
  · rw [← Dev.promo_page h]
    exact Dev.promo_promoEnd _
  · rw [Dev.promoEnd_free, Dev.freeFrame_free, Dev.draining_of_regs_eq (d.count_regs _ _ _ _), Dev.count_ted]

end

/-! ### PROMOTION_HOLD_EXPIRY (R175) -/

section
variable {d : Dev} {page t : Nat} {p : Promo}

theorem Dev.holdExpiry_of_none (h : d.promo page = none) : d.holdExpiry page = d := by
  rw [Dev.holdExpiry, h]

theorem Dev.holdExpiry_of_not_held (h : d.promo page = some p) (hp : ∀ t, p.phase ≠ .held t) : d.holdExpiry page = d := by
  rw [Dev.holdExpiry, h]
  dsimp only
  split
  · rename_i t ht
    exact absurd ht (hp t)
  · rfl

/-- The page is poisoned, and its sheaves are free. -/
def Dev.poisonHeld (d : Dev) (page : Nat) : Dev :=
  let e := d.pageEntry page
  let d := d.putPme (fieldOfPage page) (page % 512) (e.toState 3)
  if e.state = 2 then d.freeSheaves e.frame e.soff e.scnt else d

section
variable (h : d.promo page = some p) (hp : p.phase = .held t)
include h hp

theorem Dev.holdExpiry_of_gone (hlive : ¬ d.livePage page) : d.holdExpiry page = d.promoEnd p .promoSkipped := by
  rw [Dev.holdExpiry, h]
  simp only [hp]
  exact if_pos (Dev.gone_of_not_livePage hlive)

section
variable (hlive : d.livePage page)
include hlive

theorem Dev.holdExpiry_of_sward (hs : (d.pageEntry page).state = 1) : d.holdExpiry page = d.promoEnd p .alreadySward := by
  rw [Dev.holdExpiry, h]
  simp only [hp]
  exact (if_neg (by simpa [Desc.gone] using Dev.not_gone_of_livePage hlive)).trans (if_pos hs)

section
variable (hs : (d.pageEntry page).state ≠ 1)
include hs

theorem Dev.holdExpiry_of_no_room (hroom : d.mapRoom p.ted (d.pmeSa (fieldOfPage page) (page % 512)) = false) :
    d.holdExpiry page = d := by
  rw [Dev.holdExpiry, h]
  simp only [hp]
  exact (if_neg (by simpa [Desc.gone] using Dev.not_gone_of_livePage hlive)).trans
    ((if_neg hs).trans (if_pos (by simp [hroom])))

theorem Dev.holdExpiry_of_room (hroom : d.mapRoom p.ted (d.pmeSa (fieldOfPage page) (page % 512)) = true) : ∃ (c : Dev) (r : Rec),
    d.holdExpiry page = (c.promoOver p .poisonedAtFloor).raise r ∧ c.tierSide = (d.poisonHeld page).tierSide := by
  have hpage := Dev.promo_page h
  have hanswer (e : Dev) (x : Txn) :
      (((e.noteSource x.id 6).respond (((e.noteSource x.id 6).txn x.id).getD x) 0 x.op.reads).dropTxn x.id).tierSide = e.tierSide := by
    rw [Dev.dropTxn_tierSide, Dev.respond_tierSide, Dev.noteSource_tierSide]
  rw [Dev.holdExpiry, h]
  simp only [hp]
  rw [if_neg (by simpa [Desc.gone] using Dev.not_gone_of_livePage hlive), if_neg hs, if_neg (by simp [hroom])]
  simp only [Dev.promoOver, hpage]
  exact ⟨_, _, rfl, foldl_keeps Dev.tierSide hanswer _ _⟩

/-- A held page that is bare or poisoned is poisoned, and its promotion ends. -/
theorem Dev.holdExpiry_poisons (hpage : page < 2 ^ 36)
    (hroom : d.mapRoom p.ted (d.pmeSa (fieldOfPage page) (page % 512)) = true) :
    (d.holdExpiry page).promo page = none ∧
      ((d.pageEntry page).state ≠ 2 → d.inFtab (d.pmeSa (fieldOfPage page) (page % 512)) = false →
        (d.holdExpiry page).pageEntry page = (d.pageEntry page).toState 3 ∧ (d.holdExpiry page).ted.free = d.ted.free) := by
  obtain ⟨c, r, heq, hside⟩ := Dev.holdExpiry_of_room h hp hlive hs hroom
  refine ⟨?_, fun hs2 hsa => ?_⟩
  · rw [heq, Dev.promo_of_tierSide (Dev.raise_tierSide _ _), ← Dev.promo_page h]
    exact Dev.promo_promoOver _
  · set x := (d.pageEntry page).toState 3 with hx
    have hheld : d.poisonHeld page = d.putPme (fieldOfPage page) (page % 512) x := if_neg hs2
    rw [hheld] at hside
    have hlines : (d.holdExpiry page).pageLines page = (d.putPme (fieldOfPage page) (page % 512) x).pageLines page := by
      rw [heq, Dev.pageLines_of_tierSide (Dev.raise_tierSide _ _), Dev.promoOver_pageLines, Dev.pageLines_of_tierSide hside]
    have hfctr : x.fctr % 64 = x.fctr := Nat.mod_eq_of_lt (d.pageEntry_fctr_lt page)
    refine ⟨?_, ?_⟩
    · rw [Dev.pageEntry_of_pageLines hlines, Dev.pageEntry_putPme hpage hsa (Pme.fits_toState (d.pageEntry_fits page) (by decide)), hfctr]
    · rw [heq, Dev.raise_ted, Dev.promoOver_free, Dev.ted_of_tierSide hside]
      exact Tiers.free_of_offMap (d.putPme_offMap _ _ x)

end

end

end

end

/-! ### SHEAF_RELEASE (Table 6.4 step 6) -/

section
variable {d : Dev} {page : Nat}

/-- The old sheaves of a page that no request is bound to any more. -/
def Dev.sheavesDue (d : Dev) (page : Nat) : Option OldSheaves :=
  d.ted.old.find? fun o => o.page == page && !(o.txns.any fun i => (d.txn i).isSome)

theorem Dev.sheafRelease_of_none (h : d.sheavesDue page = none) : d.sheafRelease page = d := by
  unfold Dev.sheavesDue at h
  rw [Dev.sheafRelease, h]

theorem Dev.sheafRelease_of_due {o : OldSheaves} (h : d.sheavesDue page = some o) :
    d.sheafRelease page = (d.modTed fun t => { t with old := t.old.filter (· != o) }).freeSheaves o.frame o.soff o.scnt := by
  unfold Dev.sheavesDue at h
  rw [Dev.sheafRelease, h]

/-- An entry outlives the deletion of other keys. -/
theorem mem_foldl_kvDel {α : Type} {p : Nat × α} (k : Nat → Nat) : ∀ (l : List Nat) {m : List (Nat × α)}, p ∈ m → (∀ i ∈ l, p.1 ≠ k i) →
    p ∈ l.foldl (fun m i => kvDel m (k i)) m
  | [], _, hp, _ => hp
  | i :: l, _, hp, h => mem_foldl_kvDel k l (List.mem_filter.mpr ⟨hp, bne_iff_ne.mpr (h i List.mem_cons_self)⟩)
      fun j hj => h j (List.mem_cons_of_mem _ hj)

/-- Sheaves of a frame that keeps others are free, and the frame stays in use. -/
theorem Dev.freeSheaves_of_left {f first n ted g : Nat} (huse : d.ted.useOf f = some (.sheaves ted))
    (hmap : d.sheafMapOf ted (f / 2048) = some g)
    (hleft : d.sheafOcc ted f - (d.sheafOcc ted f &&& ((2 ^ n - 1) <<< first)) ≠ 0)
    (hslot : ∃ p ∈ d.ted.slots, p.1 / 16 = f ∧ (p.1 < f * 16 + first ∨ f * 16 + first + n ≤ p.1)) :
    (d.freeSheaves f first n).sheafOcc ted f = d.sheafOcc ted f - (d.sheafOcc ted f &&& ((2 ^ n - 1) <<< first)) ∧
      (d.freeSheaves f first n).ted.free = d.ted.free := by
  obtain ⟨p, hp, hframe, hout⟩ := hslot
  set left := d.sheafOcc ted f - (d.sheafOcc ted f &&& ((2 ^ n - 1) <<< first)) with hl
  have hslots : (d.sheavesDropped ted f first n).ted.slots =
      (List.range n).foldl (fun l i => kvDel l (f * 16 + first + i)) (d.setSheafOcc ted f left).ted.slots := rfl
  have hstays : p ∈ (d.sheavesDropped ted f first n).ted.slots := by
    rw [hslots, Tiers.slots_of_offMap (d.setSheafOcc_offMap ted f left)]
    refine mem_foldl_kvDel _ _ hp fun i hi => ?_
    have := List.mem_range.mp hi
    omega
  have hused : ((d.sheavesDropped ted f first n).ted.slots.any fun p => p.1 / 16 == f) = true :=
    List.any_eq_true.mpr ⟨p, hstays, beq_iff_eq.mpr hframe⟩
  have heq : d.freeSheaves f first n = d.sheavesDropped ted f first n := by
    rw [Dev.freeSheaves_eq, huse]
    exact (if_neg hleft).trans (if_pos hused)
  rw [heq]
  refine ⟨?_, ?_⟩
  · exact Dev.sheafOcc_setSheafOcc hmap ((Nat.sub_le _ _).trans_lt (d.sheafOcc_lt ted f))
  · exact (Tiers.free_of_offMap (d.setSheafOcc_offMap ted f left) :)

end

end Sys2Proof.Machine
end

section
/-! SUPPORT. The epoch of a Tedder (R54, R55, R158, R159): what a scan leaves of the running period and of the host ports, and the epoch by
what it finds. -/

namespace Sys2Proof.Machine

/-! ### What a scan leaves -/

/-- The host ports, the periods of the epochs, and TED_CTRL of a Tedder. -/
def Dev.epochSide (t : Nat) (d : Dev) : HostPorts × List Periodic × Nat := (d.hp, d.ted.epoch, d.rd (.tedCtrl t))

section
variable {t : Nat} {d e : Dev}

theorem Dev.epochSide_of (hhp : e.hp = d.hp) (hepoch : e.ted.epoch = d.ted.epoch) (hrd : e.rd (.tedCtrl t) = d.rd (.tedCtrl t)) :
    e.epochSide t = d.epochSide t := by
  rw [Dev.epochSide, hhp, hepoch, hrd, Dev.epochSide]

theorem Dev.epochSide_of_regs (hhp : e.hp = d.hp) (hoff : e.ted.offMap = d.ted.offMap) (hregs : e.regs = d.regs) :
    e.epochSide t = d.epochSide t :=
  Dev.epochSide_of hhp (Tiers.epoch_of_work (Tiers.work_of_offMap hoff)) (congrArg (fun m : RegFile => m.get (.tedCtrl t)) hregs)

theorem Dev.hp_of_epochSide (h : e.epochSide t = d.epochSide t) : e.hp = d.hp := congrArg (·.1) h
theorem Dev.epoch_of_epochSide (h : e.epochSide t = d.epochSide t) : e.ted.epoch = d.ted.epoch := congrArg (·.2.1) h

theorem Dev.flag_of_epochSide (h : e.epochSide t = d.epochSide t) (f : Fld) : e.flag (.tedCtrl t) f = d.flag (.tedCtrl t) f :=
  congrArg (fun v => bitsOf v f.hi f.lo != 0) (congrArg (·.2.2) h : e.rd (.tedCtrl t) = d.rd (.tedCtrl t))

end

section
variable {t : Nat} (d : Dev)

theorem Dev.raise_epochSide (r : Rec) : (d.raise r).epochSide t = d.epochSide t :=
  Dev.epochSide_of (d.raise_hp r) (by rw [Dev.raise_ted]) (congrArg (fun m : RegFile => m.get _) (d.raise_regs r))

theorem Dev.modTed_epochSide {f : Tiers → Tiers} (h : ∀ x, (f x).epoch = x.epoch) : (d.modTed f).epochSide t = d.epochSide t :=
  Dev.epochSide_of rfl (h d.ted) rfl

theorem Dev.setFld_epochSide {r : Reg} (h : r.offset ≠ (Reg.tedCtrl t).offset) (f : Fld) (x : Nat) :
    (d.setFld r f x).epochSide t = d.epochSide t := Dev.epochSide_of rfl rfl (Dev.rd_setFld_other d x h)

theorem Dev.putMapLine_epochSide (ted sa : Nat) (x : Line) (tell : Bool) : (d.putMapLine ted sa x tell).epochSide t = d.epochSide t :=
  Dev.epochSide_of_regs (d.putMapLine_hp _ _ _ _) (d.putMapLine_offMap _ _ _ _) (d.putMapLine_regs _ _ _ _)

theorem Dev.accountPme_hp (ds : Desc) (old x : Pme) : (d.accountPme ds old x).hp = d.hp := by
  unfold Dev.accountPme
  split
  · rfl
  · exact d.setPool_hp _ _

theorem Dev.putPme_hp (field page : Nat) (x : Pme) : (d.putPme field page x).hp = d.hp := by
  rw [Dev.putPme_eq, Dev.accountPme_hp]
  exact d.putMapLine_hp _ _ _ _

theorem Dev.desc_ld_lt (field : Nat) : (d.desc field).ld < 16 := bitsOf_lt _ 59 56

theorem Dev.orphan_epochSide (x : Pme) : (d.orphan x).1.epochSide t = d.epochSide t := by
  unfold Dev.orphan
  split
  · rfl
  · split <;> rfl

theorem Dev.orphanPages_epochSide (field : Nat) (l : List Nat) : (d.orphanPages field l).epochSide t = d.epochSide t :=
  foldl_keeps (Dev.epochSide t) (f := fun e p => ((e.orphan (e.pme field p)).1).addLost (e.orphan (e.pme field p)).2)
    (fun e p => (Dev.modTed_epochSide (t := t) (e.orphan (e.pme field p)).1 fun _ => rfl).trans (e.orphan_epochSide _)) l d

theorem Dev.addLost_epochSide (l : List Nat) : (d.addLost l).epochSide t = d.epochSide t := d.modTed_epochSide fun _ => rfl

theorem Dev.loseField_epochSide (field : Nat) : (d.loseField field).epochSide t = d.epochSide t := by
  unfold Dev.loseField
  dsimp only
  split
  · rfl
  · split
    · rw [Dev.addLost_epochSide, Dev.orphanPages_epochSide]
      exact d.modTed_epochSide fun _ => rfl
    · exact d.modTed_epochSide fun _ => rfl

theorem Dev.setCursor_epochSide (k field page : Nat) : (d.setCursor k field page).epochSide t = d.epochSide t := by
  have hoff : (Reg.tedCursor k).offset ≠ (Reg.tedCtrl t).offset := by
    simp only [Reg.offset]
    omega
  rw [Dev.setCursor, Dev.setFld_epochSide _ hoff, Dev.setFld_epochSide _ hoff]

theorem Dev.leakReconcile_epochSide (k : Nat) : (d.leakReconcile k).epochSide t = d.epochSide t := by
  have hoff : Reg.tedPoolStat.offset ≠ (Reg.tedCtrl t).offset := by
    simp only [Reg.offset]
    omega
  rw [Dev.leakReconcile, Dev.setFld_epochSide _ hoff]
  exact d.modTed_epochSide fun _ => rfl

theorem Dev.nextField_epochSide (k field : Nat) : (d.nextField k field).epochSide t = d.epochSide t := by
  unfold Dev.nextField
  split
  · exact d.setCursor_epochSide _ _ _
  · rw [Dev.leakReconcile_epochSide, Dev.setCursor_epochSide]

theorem Dev.queueMove_epochSide (page : Nat) (k : MoveKind) (cmd : Option Nat) (budget : Nat) (b : Bool) :
    (d.queueMove page k cmd budget b).epochSide t = d.epochSide t := by
  unfold Dev.queueMove
  split
  · rfl
  · split <;> rfl
  · rfl

theorem Dev.askPromo_epochSide (page : Nat) (why : PromoWhy) (cmds : List Nat) : (d.askPromo page why cmds).epochSide t = d.epochSide t := by
  unfold Dev.askPromo
  split <;> rfl

theorem Dev.sketchParity_epochSide (k : Nat) (words : List Nat) : (d.sketchParity k words).epochSide t = d.epochSide t := by
  rw [Dev.sketchParity_eq]
  exact foldl_keeps (Dev.epochSide t) (f := Dev.zeroWord k) (fun _ _ => rfl) words d

theorem Dev.queueRepack_epochSide (k room : Nat) : (d.queueRepack k room).epochSide t = d.epochSide t :=
  foldl_keeps (Dev.epochSide t) (fun e page => e.queueMove_epochSide page .fallowMove none 0 true) _ d

theorem Dev.putPme_epochSide (field page : Nat) (x : Pme) : (d.putPme field page x).epochSide t = d.epochSide t := by
  refine Dev.epochSide_of (d.putPme_hp _ _ _) (Tiers.epoch_of_work (Tiers.work_of_offMap (d.putPme_offMap _ _ _)))
    (d.keepsRegs_putPme field page x _ fun r hr => ?_)
  rcases List.mem_cons.mp hr with rfl | hr
  · have := d.desc_ld_lt field
    simp only [Reg.offset]
    omega
  · have hlt : ∀ r ∈ poolRegs, 0x600300 ≤ r.offset ∧ r.offset < 0x640000 := by decide
    have hr' := hlt r hr
    show r.offset ≠ 0x600000 + 0x40000 * t
    omega

theorem Dev.mapLost_epochSide (sa : Nat) : (d.mapLost sa).epochSide t = d.epochSide t := by
  unfold Dev.mapLost
  split
  · dsimp only
    rw [Dev.raise_epochSide, Dev.putMapLine_epochSide]
    exact foldl_keeps (Dev.epochSide t) (fun e i => e.loseField_epochSide _) _ d
  · split
    · dsimp only
      rw [Dev.raise_epochSide, foldl_keeps (Dev.epochSide t) (fun e p => e.putPme_epochSide _ _ _), Dev.orphanPages_epochSide]
    · rfl

theorem Dev.epochScan_epochSide (k quota cold n : Nat) : ∀ (queued : Nat) (d : Dev),
    (Dev.epochScan k quota cold n queued d).epochSide t = d.epochSide t := by
  induction n with
  | zero => exact fun _ _ => rfl
  | succ n ih =>
    intro queued d
    have hput (c : Prop) [Decidable c] (e : Dev) (field p : Nat) (x : Pme) :
        (if c then e.putPme field p x else e).epochSide t = e.epochSide t := by
      split
      · exact e.putPme_epochSide _ _ _
      · rfl
    have hnext (c : Prop) [Decidable c] (e : Dev) (field f p : Nat) :
        (if c then e.nextField k field else e.setCursor k f p).epochSide t = e.epochSide t := by
      split
      · exact e.nextField_epochSide _ _
      · exact e.setCursor_epochSide _ _ _
    have hask (b : Bool) (c : Prop) [Decidable c] (e : Dev) (page : Nat) :
        (if b then e.queueMove page .demote none 0 true else if c then e.askPromo page .hot [] else e).epochSide t = e.epochSide t := by
      split
      · exact e.queueMove_epochSide _ _ _ _ _
      · split
        · exact e.askPromo_epochSide _ _ _
        · rfl
    rw [Dev.epochScan]
    dsimp only
    split
    · rw [ih, Dev.nextField_epochSide]
    · rw [ih, hnext, hput, hask]

end

/-! ### The end of an epoch's work (R55) -/

section
variable (d : Dev) (t : Nat)

/-- A Tedder's work of an epoch is over, and its sketch is halved. -/
def Dev.workOver (d : Dev) (t : Nat) : Dev :=
  d.modTed fun y => { y with working := y.working.filter (· != t), sketch := halveSketch t y.sketch }

/-- The period that a Tedder's epoch completes. -/
def Dev.periodDone (d : Dev) (t : Nat) : Dev × Periodic :=
  (d.workOver t).lagDone (.epoch t) ((d.workOver t).ted.epoch.getD t {}) (d.workOver t).nowNs
    ((d.workOver t).nowNs - ((d.workOver t).ted.epoch.getD t {}).grid) ((d.workOver t).epochNs t)

/-- An epoch still has work: its scan, or a demotion that it queued. -/
def Dev.epochBusy (d : Dev) (t : Nat) : Bool := !d.ted.working.contains t || d.ted.moves.any fun x => x.ted == t && x.epoch

theorem Dev.epochSettle_eq : d.epochSettle t =
    if d.epochBusy t then d
    else (d.periodDone t).1.modTed fun y =>
      { y with epoch := y.epoch.set t { (d.periodDone t).2 with running := (d.periodDone t).1.flag (.tedCtrl t) F.tedCtrl_EN } } := rfl

/-- A completed period is in the registers of its lag, and maybe in the logs. -/
theorem Dev.lagDone_keeps {γ : Type} (p : Dev → γ) (h : ∀ (d : Dev) r, p (d.raise r) = p d) (u : LagUnit) (x : Periodic) (now lag n : Nat) :
    ∃ v w, p (d.lagDone u x now lag n).1 = p ((d.wr u.lagReg v).wr u.maxReg w) := by
  unfold Dev.lagDone
  dsimp only
  split
  · exact ⟨_, _, h _ _⟩
  · exact ⟨_, _, rfl⟩

theorem Dev.periodDone_ted : (d.periodDone t).1.ted = (d.workOver t).ted := by
  obtain ⟨v, w, h⟩ := (d.workOver t).lagDone_keeps Dev.ted Dev.raise_ted (.epoch t) ((d.workOver t).ted.epoch.getD t {})
    (d.workOver t).nowNs ((d.workOver t).nowNs - ((d.workOver t).ted.epoch.getD t {}).grid) ((d.workOver t).epochNs t)
  exact h.trans ((Dev.wr_ted _ _ _).trans (Dev.wr_ted _ _ _))

theorem Dev.periodDone_bal : (d.periodDone t).1.bal = d.bal := by
  obtain ⟨v, w, h⟩ := (d.workOver t).lagDone_keeps Dev.bal Dev.raise_bal (.epoch t) ((d.workOver t).ted.epoch.getD t {})
    (d.workOver t).nowNs ((d.workOver t).nowNs - ((d.workOver t).ted.epoch.getD t {}).grid) ((d.workOver t).epochNs t)
  exact h.trans ((Dev.wr_bal _ _ _).trans ((Dev.wr_bal _ _ _).trans (Dev.modTed_bal _ _)))

theorem Dev.periodDone_hp : (d.periodDone t).1.hp = d.hp := by
  obtain ⟨v, w, h⟩ := (d.workOver t).lagDone_keeps Dev.hp Dev.raise_hp (.epoch t) ((d.workOver t).ted.epoch.getD t {})
    (d.workOver t).nowNs ((d.workOver t).nowNs - ((d.workOver t).ted.epoch.getD t {}).grid) ((d.workOver t).epochNs t)
  exact h.trans ((Dev.wr_hp _ _ _).trans ((Dev.wr_hp _ _ _).trans (Dev.modTed_hp _ _)))

theorem Dev.keepsRegs_periodDone : d.keepsRegs (d.periodDone t).1 [.tedEpochLag t, .tedEpochMaxlag t] := by
  obtain ⟨v, w, h⟩ := (d.workOver t).lagDone_keeps Dev.regs Dev.raise_regs (.epoch t) ((d.workOver t).ted.epoch.getD t {})
    (d.workOver t).nowNs ((d.workOver t).nowNs - ((d.workOver t).ted.epoch.getD t {}).grid) ((d.workOver t).epochNs t)
  have hover : d.keepsRegs (d.workOver t) [.tedEpochLag t, .tedEpochMaxlag t] := Dev.keepsRegs_of_regs_eq (d.modTed_regs _)
  exact ((hover.wr (by simp [LagUnit.lagReg]) v).wr (by simp [LagUnit.maxReg]) w).regs_eq h

variable {d t}

/-- The end of an epoch's work leaves the host ports, and the next period runs while EN is set. -/
theorem Dev.epochSettle_runs (ht : t < 4) (hlen : d.ted.epoch.length = 4) (hrun : (d.ted.epoch.getD t {}).running = true)
    (hen : d.flag (.tedCtrl t) F.tedCtrl_EN = true) :
    ((d.epochSettle t).ted.epoch.getD t {}).running = true ∧ (d.epochSettle t).hp = d.hp := by
  rw [Dev.epochSettle_eq]
  split
  · exact ⟨hrun, rfl⟩
  · have hoff : ∀ r ∈ [Reg.tedEpochLag t, Reg.tedEpochMaxlag t], r.offset ≠ (Reg.tedCtrl t).offset := by
      simp only [List.mem_cons, List.not_mem_nil, or_false, forall_eq_or_imp, forall_eq, Reg.offset]
      omega
    have hflag : (d.periodDone t).1.flag (.tedCtrl t) F.tedCtrl_EN = true := ((d.keepsRegs_periodDone t).flag hoff _).trans hen
    have hepoch : (d.periodDone t).1.ted.epoch = d.ted.epoch := by rw [Dev.periodDone_ted, Dev.workOver, Dev.modTed]
    refine ⟨?_, (Dev.modTed_hp _ _).trans (d.periodDone_hp t)⟩
    rw [hflag, Dev.modTed, hepoch, List.getD_eq_getElem _ _ (by rw [List.length_set]; omega), List.getElem_set_self]

end

/-! ### TEDDER_EPOCH (R159) -/

section
variable {d : Dev} {t : Nat} {lost par : List Nat}

/-- EN is clear, the epoch before has work left, or its period has not ended. -/
def Dev.epochWaits (d : Dev) (t : Nat) : Prop :=
  d.flag (.tedCtrl t) F.tedCtrl_EN = false ∨ t ∈ d.ted.working ∨
    ((d.ted.epoch.getD t {}).running = true ∧ d.nowNs < (d.ted.epoch.getD t {}).start)

theorem Dev.tedEpoch_of_waits (h : d.epochWaits t) : d.tedEpoch t lost par = d := by
  refine if_pos ?_
  simp only [Bool.or_eq_true, Bool.not_eq_true', Bool.and_eq_true, decide_eq_true_eq, List.contains_iff_mem, or_assoc]
  exact h

/-- The period of the epoch that starts. -/
def Dev.epochPeriod (d : Dev) (t : Nat) : Periodic :=
  if (d.ted.epoch.getD t {}).running then d.ted.epoch.getD t {} else Periodic.begin d.nowNs (d.epochNs t)

theorem Dev.epochPeriod_running : (d.epochPeriod t).running = true := by
  unfold Dev.epochPeriod
  split
  · assumption
  · rfl

/-- An epoch that starts is among those with work. -/
def Dev.epochStarted (d : Dev) (t : Nat) : Dev :=
  d.modTed fun y => { y with epoch := y.epoch.set t (d.epochPeriod t), working := t :: y.working }

/-- An epoch that is due scans, and settles what its scan leaves. -/
theorem Dev.tedEpoch_of_due (h : ¬ d.epochWaits t) :
    ∃ e : Dev, d.tedEpoch t lost par = e.epochSettle t ∧ e.epochSide t = (d.epochStarted t).epochSide t := by
  have hgo : ¬ (!d.flag (.tedCtrl t) F.tedCtrl_EN || d.ted.working.contains t ||
      ((d.ted.epoch.getD t {}).running && decide (d.nowNs < (d.ted.epoch.getD t {}).start))) = true := by
    simp only [Bool.or_eq_true, Bool.not_eq_true', Bool.and_eq_true, decide_eq_true_eq, List.contains_iff_mem, or_assoc]
    exact h
  have hread : ((lost.foldl Dev.mapLost (d.epochStarted t)).sketchParity t par).epochSide t = (d.epochStarted t).epochSide t := by
    rw [Dev.sketchParity_epochSide]
    exact foldl_keeps (Dev.epochSide t) (fun e sa => e.mapLost_epochSide sa) lost _
  have hscan (quota cold n : Nat) (e : Dev) : ((Dev.epochScan t quota cold n 0 e).count .scan t 0 n).epochSide t = e.epochSide t :=
    Dev.epochScan_epochSide t quota cold n 0 e
  have hrepack (b : Bool) (room : Nat) (e : Dev) : (if b then e.queueRepack t room else e).epochSide t = e.epochSide t := by
    split
    · exact e.queueRepack_epochSide t room
    · rfl
  unfold Dev.tedEpoch
  dsimp only
  rw [if_neg hgo]
  exact ⟨_, rfl, (hrepack _ _ _).trans ((hscan _ _ _ _).trans hread)⟩

theorem Dev.tedEpoch_runs (ht : t < 4) (h : ¬ d.epochWaits t) (hlen : d.ted.epoch.length = 4) :
    ((d.tedEpoch t lost par).ted.epoch.getD t {}).running = true ∧ (d.tedEpoch t lost par).hp = d.hp := by
  obtain ⟨e, heq, hside⟩ := Dev.tedEpoch_of_due (lost := lost) (par := par) h
  have hepoch : e.ted.epoch = d.ted.epoch.set t (d.epochPeriod t) := Dev.epoch_of_epochSide hside
  have hflag : e.flag (.tedCtrl t) F.tedCtrl_EN = true := by
    rw [Dev.flag_of_epochSide hside]
    show d.flag (.tedCtrl t) F.tedCtrl_EN = true
    by_contra hen
    exact h (.inl (by simpa using hen))
  obtain ⟨hrun, hhp⟩ := Dev.epochSettle_runs (d := e) ht (by rw [hepoch, List.length_set, hlen]) (by
    rw [hepoch, List.getD_eq_getElem _ _ (by rw [List.length_set]; omega), List.getElem_set_self, Dev.epochPeriod_running]) hflag
  rw [heq]
  exact ⟨hrun, hhp.trans ((Dev.hp_of_epochSide hside).trans rfl)⟩

end

/-! ### The commands -/

section
variable {s : State} {page t : Nat} {bad lost par : List Nat}

/-- A command whose operation comes to the same device ends in the same state. -/
theorem exec_finish_of_eq {i : Instr} {d e : Dev} (h : exec i s = .next (s.finish e)) (he : e = d) : exec i s = .next (s.finish d) :=
  he ▸ h

theorem exec_promotionStart_eq (hup : s.up = true) (hpage : page < 2 ^ 36) :
    exec (.promotionStart page bad) s = .next (s.finish (s.dev.promoStart s.dram page bad)) :=
  exec_promotionStart (decide_eq_true hpage) hup

theorem exec_promotionCommit_eq (hup : s.up = true) (hpage : page < 2 ^ 36) :
    exec (.promotionCommit page) s = .next (s.finish (s.dev.promoCommit page)) :=
  exec_promotionCommit (decide_eq_true hpage) hup

theorem exec_promotionHoldExpiry_eq (hup : s.up = true) (hpage : page < 2 ^ 36) :
    exec (.promotionHoldExpiry page) s = .next (s.finish (s.dev.holdExpiry page)) :=
  exec_promotionHoldExpiry (decide_eq_true hpage) hup

theorem exec_sheafRelease_eq (hup : s.up = true) (hpage : page < 2 ^ 36) :
    exec (.sheafRelease page) s = .next (s.finish (s.dev.sheafRelease page)) :=
  exec_sheafRelease (decide_eq_true hpage) hup

end

/-- Settles O31: each command of a promotion, the release of its old sheaves, and the epoch, by what they find. -/
theorem promotions : Obligations.Promotions := by
  intro s page bad hup hpage
  refine ⟨fun hnone => ⟨?_, ?_, ?_⟩, fun p hp => ⟨fun hphase => ?_, fun hphase => ?_, fun hphase => ?_, fun hqueued => ⟨fun hlive => ?_,
      fun hlive hs => ?_, fun hlive hs => ⟨fun hfull => ?_, fun hfull hel hfree => ?_, fun hfull hel hfloor => ?_,
        fun f l hfull hel hs2 hfree htake hapart hplace herases => ?_⟩⟩,
      fun hwritten => ⟨fun hroom => ?_, fun hroom => ⟨fun hok hframe hsa => ?_, fun hok => ?_⟩⟩,
      fun t hheld => ⟨fun hlive => ?_, fun hlive hs => ?_, fun hlive hs hroom => ?_, fun hlive hs hroom => ?_⟩⟩,
    ⟨fun hnone => ?_, fun o ho => ?_⟩, fun f first n ted g huse hmap hleft hslot => Dev.freeSheaves_of_left huse hmap hleft hslot,
    fun t lost par ht hwf => ⟨fun hwaits => ?_, fun hwaits hlen => ?_⟩⟩
  · exact exec_finish_of_eq (exec_promotionStart_eq hup hpage) (Dev.promoStart_of_none hnone)
  · exact exec_finish_of_eq (exec_promotionCommit_eq hup hpage) (Dev.promoCommit_of_none hnone)
  · exact exec_finish_of_eq (exec_promotionHoldExpiry_eq hup hpage) (Dev.holdExpiry_of_none hnone)
  · exact exec_finish_of_eq (exec_promotionStart_eq hup hpage) (Dev.promoStart_of_under_way hp hphase)
  · exact exec_finish_of_eq (exec_promotionCommit_eq hup hpage) (Dev.promoCommit_of_not_written hp hphase)
  · exact exec_finish_of_eq (exec_promotionHoldExpiry_eq hup hpage) (Dev.holdExpiry_of_not_held hp hphase)
  · exact exec_finish_of_eq (exec_promotionStart_eq hup hpage) (Dev.promoStart_of_gone hp hqueued hlive)
  · exact exec_finish_of_eq (exec_promotionStart_eq hup hpage) (Dev.promoStart_of_sward hp hqueued hlive hs)
  · exact exec_finish_of_eq (exec_promotionStart_eq hup hpage) (Dev.promoStart_of_full hp hqueued hlive hs hfull)
  · exact exec_finish_of_eq (exec_promotionStart_eq hup hpage) (Dev.promoStart_of_no_frame hp hqueued hlive hs hfull hel hfree)
  · exact exec_finish_of_eq (exec_promotionStart_eq hup hpage) (Dev.promoStart_of_floor hp hqueued hlive hs hfull hel hfloor)
  · exact ⟨_, exec_promotionStart_eq hup hpage,
      Dev.promoStart_takes hp hqueued hlive hs hfull hel hs2 hfree htake hapart hplace herases⟩
  · exact exec_finish_of_eq (exec_promotionCommit_eq hup hpage) (Dev.promoCommit_of_no_room hp hwritten hroom)
  · exact ⟨_, exec_promotionCommit_eq hup hpage, Dev.promoCommit_makes_sward hpage hp hwritten hroom hok hframe hsa⟩
  · exact ⟨_, exec_promotionCommit_eq hup hpage, Dev.promoCommit_gives_back hp hwritten hroom hok⟩
  · exact exec_finish_of_eq (exec_promotionHoldExpiry_eq hup hpage) (Dev.holdExpiry_of_gone hp hheld hlive)
  · exact exec_finish_of_eq (exec_promotionHoldExpiry_eq hup hpage) (Dev.holdExpiry_of_sward hp hheld hlive hs)
  · exact exec_finish_of_eq (exec_promotionHoldExpiry_eq hup hpage) (Dev.holdExpiry_of_no_room hp hheld hlive hs hroom)
  · exact ⟨_, exec_promotionHoldExpiry_eq hup hpage, Dev.holdExpiry_poisons hp hheld hlive hs hpage hroom⟩
  · exact exec_finish_of_eq (exec_sheafRelease_eq hup hpage) (Dev.sheafRelease_of_none hnone)
  · exact exec_finish_of_eq (exec_sheafRelease_eq hup hpage) (Dev.sheafRelease_of_due ho)
  · exact exec_finish_of_eq (exec_tedderEpoch hwf hup) (Dev.tedEpoch_of_waits hwaits)
  · exact ⟨_, exec_tedderEpoch hwf hup, Dev.tedEpoch_runs ht hwaits hlen⟩

end Sys2Proof.Machine
end

section
/-! SUPPORT. The moves that a Tedder has in hand (R154, R162), and demotions by what they find (Table 6.6 steps 1 to 4). -/

namespace Sys2Proof.Machine

/-! ### The moves in hand -/

section
variable {d e : Dev} {page : Nat} {x : Move}

theorem Dev.move_page (h : d.move page = some x) : x.page = page := by
  rw [Dev.move] at h
  exact beq_iff_eq.mp (List.find?_some h :)

theorem Dev.move_of_moves_eq (h : e.ted.moves = d.ted.moves) : e.move page = d.move page := by rw [Dev.move, h, Dev.move]

theorem Dev.move_of_tierSide (h : e.tierSide = d.tierSide) : e.move page = d.move page :=
  Dev.move_of_moves_eq (by rw [Dev.ted_of_tierSide h])

/-- A change of a page's move that leaves it the page's. -/
theorem Dev.move_modMove {g : Move → Move} (hg : ∀ x, x.page = page → (g x).page = page) (h : d.move page = some x) :
    (d.modMove page g).move page = some (g x) := by
  have hsame : (fun y : Move => y.page == page) ∘ (fun y => if y.page = page then g y else y) = fun y => y.page == page := by
    funext y
    by_cases hy : y.page = page
    · simp [hy, hg y hy]
    · simp [hy]
  have hmap : (d.modMove page g).move page = (d.move page).map fun y => if y.page = page then g y else y := by
    rw [Dev.move, Dev.modMove, Dev.modTed, List.find?_map, hsame, Dev.move]
  rw [hmap, h, Option.map_some, if_pos (Dev.move_page h)]

theorem Dev.modMove_free (g : Move → Move) : (d.modMove page g).ted.free = d.ted.free := rfl
theorem Dev.modMove_bal (g : Move → Move) : (d.modMove page g).bal = d.bal := rfl

/-! ### The end of a move -/

/-- The end of an epoch's work leaves the rest of the Tedders' storage. -/
theorem Dev.epochSettle_ted (d : Dev) (t : Nat) : ∃ w k p, (d.epochSettle t).ted = { d.ted with working := w, sketch := k, epoch := p } := by
  rw [Dev.epochSettle_eq]
  split
  · exact ⟨d.ted.working, d.ted.sketch, d.ted.epoch, rfl⟩
  · rw [Dev.modTed, Dev.periodDone_ted, Dev.workOver, Dev.modTed]
    exact ⟨_, _, _, rfl⟩

theorem Dev.ftab_epochSettle (d : Dev) (t : Nat) : (d.epochSettle t).ftab = d.ftab := by
  rw [Dev.epochSettle_eq]
  split
  · rfl
  · have hoff : ∀ r ∈ [Reg.tedEpochLag t, Reg.tedEpochMaxlag t], r.offset ≠ Reg.gblFtab.offset := by
      simp only [List.mem_cons, List.not_mem_nil, or_false, forall_eq_or_imp, forall_eq, Reg.offset]
      omega
    exact (Dev.ftab_of_regs_eq (Dev.modTed_regs _ _)).trans ((d.keepsRegs_periodDone t).ftab hoff)

/-- A move is off the list of its Tedder. -/
def Dev.moveDropped (d : Dev) (page : Nat) : Dev := d.modTed fun t => { t with moves := t.moves.filter (·.page != page) }

theorem Dev.dropMove_eq : d.dropMove page = (d.moveDropped page).epochSettle (fieldOfPage page % 4) := rfl

theorem Dev.dropMove_moves : (d.dropMove page).ted.moves = d.ted.moves.filter (·.page != page) := by
  obtain ⟨w, k, p, h⟩ := (d.moveDropped page).epochSettle_ted (fieldOfPage page % 4)
  rw [Dev.dropMove_eq, h, Dev.moveDropped, Dev.modTed]

theorem Dev.dropMove_free : (d.dropMove page).ted.free = d.ted.free := by
  obtain ⟨w, k, p, h⟩ := (d.moveDropped page).epochSettle_ted (fieldOfPage page % 4)
  rw [Dev.dropMove_eq, h, Dev.moveDropped, Dev.modTed]

theorem Dev.dropMove_pageLines {q : Nat} : (d.dropMove page).pageLines q = d.pageLines q := by
  obtain ⟨w, k, p, h⟩ := (d.moveDropped page).epochSettle_ted (fieldOfPage page % 4)
  refine Dev.pageLines_of_map_eq ?_ ((Dev.ftab_epochSettle _ _).trans (Dev.ftab_of_regs_eq (Dev.modTed_regs _ _)))
  rw [Dev.dropMove_eq, h, Dev.moveDropped, Dev.modTed]

theorem find?_filter_ne (l : List Move) (page : Nat) : (l.filter (·.page != page)).find? (·.page == page) = none := by
  rw [List.find?_filter, List.find?_eq_none]
  intro x _
  by_cases hx : x.page = page <;> simp [hx]

theorem Dev.move_dropMove : (d.dropMove page).move page = none := by
  rw [Dev.move, Dev.dropMove_moves]
  exact find?_filter_ne _ _

theorem Dev.moveNote_ted (n : RingNote) : ∃ l, (d.moveNote x n).ted = { d.ted with notes := l } := by
  unfold Dev.moveNote
  split
  · exact ⟨_, rfl⟩
  · exact ⟨d.ted.notes, rfl⟩

theorem Dev.moveNote_regs (n : RingNote) : (d.moveNote x n).regs = d.regs := by
  unfold Dev.moveNote
  split <;> rfl

theorem Dev.moveNote_moves (n : RingNote) : (d.moveNote x n).ted.moves = d.ted.moves := by
  obtain ⟨l, h⟩ := Dev.moveNote_ted (d := d) (x := x) n
  rw [h]

theorem Dev.moveNote_free (n : RingNote) : (d.moveNote x n).ted.free = d.ted.free := by
  obtain ⟨l, h⟩ := Dev.moveNote_ted (d := d) (x := x) n
  rw [h]

theorem Dev.moveNote_pageLines (n : RingNote) : (d.moveNote x n).pageLines page = d.pageLines page := by
  obtain ⟨l, h⟩ := Dev.moveNote_ted (d := d) (x := x) n
  exact Dev.pageLines_of_map_eq (by rw [h]) (Dev.ftab_of_regs_eq (Dev.moveNote_regs n))

/-- A demotion that ends leaves its page no move, and the free list as it was. -/
theorem Dev.demoteEnd_ends (pinned : Bool) (cause : Nat) :
    (d.demoteEnd x pinned cause).move x.page = none ∧ (d.demoteEnd x pinned cause).ted.free = d.ted.free := by
  have hcount : (if cause < 4 then d.count .demoteFail x.ted cause else if cause = 4 then d.count .commitAbort x.ted else d).tierSide =
      d.tierSide := by
    split_ifs <;> rfl
  unfold Dev.demoteEnd
  dsimp only
  generalize (if cause < 4 then d.count .demoteFail x.ted cause else if cause = 4 then d.count .commitAbort x.ted else d) = e at hcount
  have hpinned : (if pinned then e.unhold (pmeOf x.entry).frame else e).tierSide = d.tierSide := by
    split
    · exact (e.unhold_tierSide _).trans hcount
    · exact hcount
  refine ⟨(Dev.move_of_moves_eq (Dev.moveNote_moves _)).trans Dev.move_dropMove, ?_⟩
  rw [Dev.moveNote_free, Dev.dropMove_free, Dev.ted_of_tierSide hpinned]

/-! ### Jobs of the balers -/

/-- A job goes to the end of the list of jobs, where a baler is in service. -/
theorem Dev.raiseJob_of_served {j : BalJob} (h : 0 < d.balCount) : ∃ k : BalJob,
    d.raiseJob j = (d.modBal fun b => { b with jobs := b.jobs ++ [k], nextJob := b.nextJob + 1 }) ∧ k.cls = j.cls ∧ k.page = j.page ∧
      k.bytes = j.bytes := ⟨_, if_neg h.ne', rfl, rfl, rfl⟩

end

/-! ### DEMOTION_START (Table 6.6 steps 1 to 4) -/

section
variable {d : Dev} {m : Dram} {page : Nat} {bad : List Nat} {x : Move}

/-- Demotions under way at a move's Tedder. -/
def Dev.demotionsRunning (d : Dev) (x : Move) : Nat :=
  (d.ted.moves.filter fun y => y.ted == x.ted && y.kind == .demote && y.phase != .queued).length

/-- A counter line as a Tedder notes it: MAJOR and the minors. -/
def Dev.ctrSnap (d : Dev) (frame q : Nat) : Nat × Nat :=
  match d.ctrCopy frame q with
  | some c => (c.ctr.major.toNat, c.ctr.minors.toNat)
  | none => (0, 0)

/-- The LD of a page's field. -/
def Dev.pageLd (d : Dev) (page : Nat) : Nat := (d.ldOfField (fieldOfPage page)).getD 0

/-- A demotion as its start leaves it, with the counter line held: what it found, and the key. -/
def Move.begun (x : Move) (d : Dev) (page : Nat) (e : Pme) : Move :=
  { x with entry := e.num, ld := d.pageLd page, key := d.ldKeyId (d.pageLd page), kgen := d.ldKgen (d.pageLd page),
           snap := d.ctrSnap e.frame x.ted, phase := .coding }

/-- The lines of a demotion's page as its Tedder reads them. -/
def Dev.demoteLines (m : Dram) (d : Dev) (page : Nat) (x : Move) (e : Pme) (bad : List Nat) : Option (Dev × List (Line × Nat)) :=
  (d.modMove page fun _ => x.begun d page e).readLines m
    (.ld (d.pageLd page) (d.ldKeyId (d.pageLd page)) (d.ldKgen (d.pageLd page))) page (e.frame * 4096) 64 none bad

/-- What the lines of a demotion's page make of it: `x` as it began, `e` the entry and `ds` the descriptor that it found. -/
def Dev.demoteJudge (d : Dev) (page : Nat) (x : Move) (e : Pme) (ds : Desc) (ls : List (Line × Nat)) : Dev :=
  let aim (t : MoveTarget) : Dev := d.modMove page fun y => { y with target := t, phase := .ready }
  let bads := (ls.filter fun l => l.2 == 1).length
  if bads = 64 then aim .poisoned
  else if bads ≠ 0 then d.demoteEnd x true 1
  else if ls.all fun l => l.1 == 0 then aim .bare
  else if ds.tpol = 1 then d.demoteEnd x true 5
  else if e.fctr = 63 then d.demoteEnd x true 2
  else
    let own := if ds.budget = 0 then 15 else ds.budget
    d.raiseJob
      { id := 0, cls := .compression, why := .move page, q := x.ted, unit := 16 + x.ted, bytes := ls.flatMap fun l => toBytes 64 l.1.toNat,
        page := page, cpol := ds.cpol, thresh := ds.thresh,
        budget := if x.budget = 0 then own else min own x.budget, pgc := e.pgc, low := d.low }

theorem Dev.demoteStart_of_idle
    (h : ∀ x, d.move page = some x → x.kind ≠ .demote ∨ x.phase ≠ .queued ∨ d.flag (.tedCtrl x.ted) F.tedCtrl_EN = false) :
    d.demoteStart m page bad = d := by
  unfold Dev.demoteStart
  split
  · rfl
  · rename_i x hx
    refine if_pos ?_
    simpa only [Bool.or_eq_true, bne_iff_ne, ne_eq, Bool.not_eq_true', or_assoc] using h x hx

section
variable (h : d.move page = some x) (hkind : x.kind = .demote) (hphase : x.phase = .queued)
  (hen : d.flag (.tedCtrl x.ted) F.tedCtrl_EN = true)
include h hkind hphase hen

theorem Dev.demoteStart_of_not_sward (hpage : ¬ (d.livePage page ∧ (d.pageEntry page).state = 1)) :
    d.demoteStart m page bad = (d.dropMove page).moveNote x .demoteSkipped := by
  have hgo : ¬ (x.kind != .demote || x.phase != .queued || !d.flag (.tedCtrl x.ted) F.tedCtrl_EN) = true := by simp [hkind, hphase, hen]
  rw [Dev.demoteStart, h]
  refine (if_neg hgo).trans ?_
  by_cases hlive : d.livePage page
  · exact (if_neg (by simpa [Desc.gone] using Dev.not_gone_of_livePage hlive)).trans (if_pos fun hs => hpage ⟨hlive, hs⟩)
  · exact if_pos (Dev.gone_of_not_livePage hlive)

section
variable (hlive : d.livePage page) (hs : (d.pageEntry page).state = 1)
include hlive hs

theorem Dev.demoteStart_of_reenc (hre : (d.reencOf (d.pageEntry page).frame).isSome = true) :
    d.demoteStart m page bad = d.demoteEnd x false 5 := by
  have hgo : ¬ (x.kind != .demote || x.phase != .queued || !d.flag (.tedCtrl x.ted) F.tedCtrl_EN) = true := by simp [hkind, hphase, hen]
  rw [Dev.demoteStart, h]
  exact (if_neg hgo).trans ((if_neg (by simpa [Desc.gone] using Dev.not_gone_of_livePage hlive)).trans
    ((if_neg (not_not.mpr hs)).trans (if_pos hre)))

section
variable (hre : d.reencOf (d.pageEntry page).frame = none)
include hre

/-- A page that is to be demoted goes on to its counter line. -/
theorem Dev.demoteStart_of_sward : d.demoteStart m page bad =
    if 32 ≤ d.demotionsRunning x || !d.ctrSpare (d.pageEntry page).frame x.ted then d
    else match d.hold m (d.pageEntry page).frame x.ted with
      | none => d.demoteEnd x false 4
      | some e => match e.demoteLines m page x (d.pageEntry page) bad with
        | none => (e.modMove page fun _ => x.begun e page (d.pageEntry page)).demoteEnd (x.begun e page (d.pageEntry page)) true 4
        | some (c, ls) => c.demoteJudge page (x.begun e page (d.pageEntry page)) (d.pageEntry page) (d.desc (fieldOfPage page)) ls := by
  have hgo : ¬ (x.kind != .demote || x.phase != .queued || !d.flag (.tedCtrl x.ted) F.tedCtrl_EN) = true := by simp [hkind, hphase, hen]
  rw [Dev.demoteStart, h]
  exact (if_neg hgo).trans ((if_neg (by simpa [Desc.gone] using Dev.not_gone_of_livePage hlive)).trans
    ((if_neg (not_not.mpr hs)).trans ((if_neg (by simp [hre])).trans rfl)))

theorem Dev.demoteStart_of_full
    (hfull : 32 ≤ d.demotionsRunning x ∨ d.ctrSpare (d.pageEntry page).frame x.ted = false) : d.demoteStart m page bad = d := by
  rw [Dev.demoteStart_of_sward h hkind hphase hen hlive hs hre]
  exact if_pos (by simpa using hfull)

section
variable (hfull : ¬ (32 ≤ d.demotionsRunning x ∨ d.ctrSpare (d.pageEntry page).frame x.ted = false))
include hfull

theorem Dev.demoteStart_of_no_hold (hhold : d.hold m (d.pageEntry page).frame x.ted = none) :
    d.demoteStart m page bad = d.demoteEnd x false 4 := by
  rw [Dev.demoteStart_of_sward h hkind hphase hen hlive hs hre, if_neg (by simpa using hfull), hhold]

theorem Dev.demoteStart_of_lines {d1 d2 : Dev} {ls : List (Line × Nat)} (hhold : d.hold m (d.pageEntry page).frame x.ted = some d1)
    (hread : d1.demoteLines m page x (d.pageEntry page) bad = some (d2, ls)) : d.demoteStart m page bad =
      d2.demoteJudge page (x.begun d1 page (d.pageEntry page)) (d.pageEntry page) (d.desc (fieldOfPage page)) ls := by
  rw [Dev.demoteStart_of_sward h hkind hphase hen hlive hs hre, if_neg (by simpa using hfull), hhold]
  dsimp only
  rw [hread]

end

end

end

end

/-- The Tedders' side once a demotion's lines are read. -/
theorem Dev.demoteLines_reads {d1 d2 : Dev} {frame q : Nat} {e : Pme} {ls : List (Line × Nat)} (h : d.move page = some x)
    (hhold : d.hold m frame q = some d1) (hread : d1.demoteLines m page x e bad = some (d2, ls)) :
    d2.move page = some (x.begun d1 page e) ∧ d2.ted.free = d.ted.free ∧ d2.bal = d.bal := by
  have hheld := Dev.hold_tierSide hhold
  have hside := Dev.readLines_tierSide hread
  have hmove : d1.move page = some x := (Dev.move_of_tierSide hheld).trans h
  refine ⟨(Dev.move_of_tierSide hside).trans (Dev.move_modMove (fun _ _ => (Dev.move_page h : x.page = page)) hmove), ?_, ?_⟩
  · rw [Dev.ted_of_tierSide hside, Dev.modMove_free, Dev.ted_of_tierSide hheld]
  · rw [Dev.bal_of_tierSide hside, Dev.modMove_bal, Dev.bal_of_tierSide hheld]

end

/-! ### What the lines of a demotion's page make of it -/

section
variable {d : Dev} {page : Nat} {x : Move} {e : Pme} {ds : Desc} {ls : List (Line × Nat)}

/-- The demotion of a page is aimed. -/
def Dev.demoteAim (d : Dev) (page : Nat) (t : MoveTarget) : Dev := d.modMove page fun y => { y with target := t, phase := .ready }

theorem Dev.demoteAim_aims (h : d.move page = some x) (t : MoveTarget) :
    (d.demoteAim page t).move page = some { x with target := t, phase := .ready } ∧ (d.demoteAim page t).ted.free = d.ted.free :=
  ⟨Dev.move_modMove (fun _ hy => hy) h, rfl⟩

theorem poisoned_count_full (hlen : ls.length = 64) (h : ∀ z ∈ ls, z.2 = 1) : (ls.filter fun l => l.2 == 1).length = 64 := by
  rw [List.filter_eq_self.mpr fun z hz => beq_iff_eq.mpr (h z hz), hlen]

theorem poisoned_count_none (h : ∀ z ∈ ls, z.2 ≠ 1) : (ls.filter fun l => l.2 == 1).length = 0 := by
  rw [List.filter_eq_nil_iff.mpr fun z hz => by simpa using h z hz, List.length_nil]

theorem poisoned_count_some (hlen : ls.length = 64) (h : ∃ z ∈ ls, z.2 = 1) (h' : ∃ z ∈ ls, z.2 ≠ 1) :
    (ls.filter fun l => l.2 == 1).length ≠ 64 ∧ (ls.filter fun l => l.2 == 1).length ≠ 0 := by
  obtain ⟨z, hz, hpoison⟩ := h
  obtain ⟨y, hy, hgood⟩ := h'
  refine ⟨fun hall => ?_, fun hnone => ?_⟩
  · rw [← hlen, List.length_filter_eq_length_iff] at hall
    exact hgood (beq_iff_eq.mp (hall y hy))
  · have hmem : z ∈ ls.filter fun l => l.2 == 1 := List.mem_filter.mpr ⟨hz, beq_iff_eq.mpr hpoison⟩
    rw [List.length_eq_zero_iff.mp hnone] at hmem
    cases hmem

theorem Dev.demoteJudge_poisoned (hlen : ls.length = 64) (h : ∀ z ∈ ls, z.2 = 1) :
    d.demoteJudge page x e ds ls = d.demoteAim page .poisoned := if_pos (poisoned_count_full hlen h)

theorem Dev.demoteJudge_mixed (hlen : ls.length = 64) (h : ∃ z ∈ ls, z.2 = 1) (h' : ∃ z ∈ ls, z.2 ≠ 1) :
    d.demoteJudge page x e ds ls = d.demoteEnd x true 1 := by
  obtain ⟨hall, hnone⟩ := poisoned_count_some hlen h h'
  exact (if_neg hall).trans (if_pos hnone)

/-- Of lines none of which is poisoned. -/
theorem Dev.demoteJudge_good (h : ∀ z ∈ ls, z.2 ≠ 1) : d.demoteJudge page x e ds ls =
    if ls.all fun l => l.1 == 0 then d.demoteAim page .bare
    else if ds.tpol = 1 then d.demoteEnd x true 5
    else if e.fctr = 63 then d.demoteEnd x true 2
    else d.raiseJob
      { id := 0, cls := .compression, why := .move page, q := x.ted, unit := 16 + x.ted, bytes := ls.flatMap fun l => toBytes 64 l.1.toNat,
        page := page, cpol := ds.cpol, thresh := ds.thresh,
        budget := if x.budget = 0 then (if ds.budget = 0 then 15 else ds.budget) else min (if ds.budget = 0 then 15 else ds.budget) x.budget,
        pgc := e.pgc, low := d.low } := by
  have hnone := poisoned_count_none h
  exact (if_neg (by rw [hnone]; decide)).trans (if_neg (not_not.mpr hnone))

theorem not_all_zero (h : ∃ z ∈ ls, z.1 ≠ 0) : ¬ (ls.all fun l => l.1 == 0) = true := by
  obtain ⟨z, hz, hne⟩ := h
  exact fun hall => hne (beq_iff_eq.mp (List.all_eq_true.mp hall z hz))

theorem Dev.demoteJudge_zero (h : ∀ z ∈ ls, z.2 ≠ 1 ∧ z.1 = 0) : d.demoteJudge page x e ds ls = d.demoteAim page .bare := by
  rw [Dev.demoteJudge_good fun z hz => (h z hz).1, if_pos]
  exact List.all_eq_true.mpr fun z hz => beq_iff_eq.mpr (h z hz).2

theorem Dev.demoteJudge_kept (h : ∀ z ∈ ls, z.2 ≠ 1) (hdata : ∃ z ∈ ls, z.1 ≠ 0) (hkept : ds.tpol = 1 ∨ e.fctr = 63) :
    ∃ c, d.demoteJudge page x e ds ls = d.demoteEnd x true c := by
  rw [Dev.demoteJudge_good h, if_neg (not_all_zero hdata)]
  by_cases hpol : ds.tpol = 1
  · exact ⟨5, if_pos hpol⟩
  · exact ⟨2, (if_neg hpol).trans (if_pos (hkept.resolve_left hpol))⟩

theorem Dev.demoteJudge_job (h : ∀ z ∈ ls, z.2 ≠ 1) (hdata : ∃ z ∈ ls, z.1 ≠ 0) (hpol : ds.tpol ≠ 1) (hfctr : e.fctr ≠ 63) : ∃ j : BalJob,
    d.demoteJudge page x e ds ls = d.raiseJob j ∧ j.cls = .compression ∧ j.page = page ∧
      j.bytes = ls.flatMap fun z => toBytes 64 z.1.toNat := by
  rw [Dev.demoteJudge_good h, if_neg (not_all_zero hdata), if_neg hpol, if_neg hfctr]
  exact ⟨_, rfl, rfl, rfl, rfl⟩

theorem Dev.unserved_ted (j : BalJob) : (d.unserved j).ted = d.ted := by
  unfold Dev.unserved
  split <;> rfl

theorem Dev.raiseJob_ted (j : BalJob) : (d.raiseJob j).ted = d.ted := by
  rw [Dev.raiseJob, apply_ite Dev.ted, Dev.unserved_ted, ite_self, Dev.modBal_ted]

/-- Whatever the lines are, the free list stays. -/
theorem Dev.demoteJudge_free : (d.demoteJudge page x e ds ls).ted.free = d.ted.free := by
  have hend (c : Nat) : (d.demoteEnd x true c).ted.free = d.ted.free := (Dev.demoteEnd_ends true c).2
  unfold Dev.demoteJudge
  dsimp only
  split_ifs
  · rfl
  · exact hend 1
  · rfl
  · exact hend 5
  · exact hend 2
  all_goals rw [Dev.raiseJob_ted]

end

end Sys2Proof.Machine
end

section
/-! SUPPORT. Relocations and fallow moves (R163, R165, R166), by what they find. -/

namespace Sys2Proof.Machine

/-! ### Sward pages of a draining range -/

section
variable {d : Dev} {m : Dram} {page : Nat} {bad : List Nat}

/-- A sward page is to be relocated: its range drains, nothing else has it in hand, and a frame and a way of the counter cache are to be
had (R166). -/
def Dev.relocDue (d : Dev) (page : Nat) : Prop :=
  d.livePage page ∧ (d.pageEntry page).state = 1 ∧ d.draining (d.pageEntry page).frame = true ∧ d.move page = none ∧
    d.reencOf (d.pageEntry page).frame = none ∧ 0 < d.elasticFree ∧ d.nextWaits = false ∧
    d.ctrSpare (d.pageEntry page).frame (fieldOfPage page % 4) = true

/-- The refusal of a relocation, as the command finds it. -/
def Dev.relocRefused (d : Dev) (page : Nat) : Bool :=
  let ds := d.desc (fieldOfPage page)
  let e := d.pageEntry page
  !ds.v || !ds.tiered || ds.fpois || e.state ≠ 1 || !d.draining e.frame || (d.move page).isSome || (d.reencOf e.frame).isSome
    || !d.mayTake .elasticMove || d.nextWaits || !d.ctrSpare e.frame (fieldOfPage page % 4)

theorem Dev.relocRefused_iff : d.relocRefused page = false ↔ d.relocDue page := by
  simp only [Dev.relocRefused, Dev.relocDue, Dev.livePage, Dev.mayTake, Bool.or_eq_false_iff, Bool.not_eq_false', decide_eq_false_iff_not,
    decide_eq_true_eq, not_not, Option.isSome_eq_false_iff, Option.isNone_iff_eq_none, and_assoc, ne_eq]

theorem Dev.relocatePage_of_idle (h : ¬ d.relocDue page) : d.relocatePage m page bad = d := by
  rw [← Dev.relocRefused_iff, Bool.not_eq_false] at h
  exact if_pos h

/-- A page that is to be relocated is copied to a frame, and its move is ready. -/
theorem Dev.relocatePage_copies {d1 d2 d3 : Dev} {ls : List (Line × Nat)} {f : Nat} (h : d.relocDue page)
    (hhold : d.hold m (d.pageEntry page).frame (fieldOfPage page % 4) = some d1)
    (hread : d1.readLines m (d1.ldDom ((d1.ldOfField (fieldOfPage page)).getD 0)) page ((d.pageEntry page).frame * 4096) 64 none bad =
      some (d2, ls))
    (htake : d2.takeFrame m (.page (fieldOfPage page) (page % 512)) = some (f, d3)) : ∃ q,
    (d.relocatePage m page bad).ted.moves = d.ted.moves ++ [q] ∧ q.page = page ∧ q.kind = .relocate ∧ q.phase = .ready ∧ q.frame = f ∧
      q.entry = (d.pageEntry page).num := by
  obtain ⟨l, -, -, hwork, -⟩ := Dev.takeFrame_takes htake
  have hmoves (dom : Dom) (lines : List (Line × Bool)) : (d3.writeFrame m f dom lines).ted.moves = d.ted.moves := by
    rw [Dev.ted_of_tierSide (d3.writeFrame_tierSide m f dom lines), Tiers.moves_of_work hwork,
      Dev.ted_of_tierSide (Dev.readLines_tierSide hread), Dev.ted_of_tierSide (Dev.hold_tierSide hhold)]
  have hgo : ¬ d.relocRefused page = true := by simpa using Dev.relocRefused_iff.mpr h
  unfold Dev.relocRefused at hgo
  dsimp only at hgo
  rw [Dev.relocatePage]
  dsimp only
  rw [if_neg hgo, hhold]
  dsimp only
  rw [hread]
  dsimp only
  rw [htake]
  dsimp only
  rw [Dev.modTed, hmoves]
  exact ⟨_, rfl, rfl, rfl, rfl, rfl, rfl⟩

end

/-! ### Frames of the map -/

section
variable {d : Dev} {m : Dram} {field ted run f g : Nat} {l : List (Nat × Nat)}

theorem Dev.copyMap_offMap (ted src dst : Nat) (tell : Bool) : (d.copyMap ted src dst tell).ted.offMap = d.ted.offMap := by
  unfold Dev.copyMap
  refine foldl_keeps (fun e : Dev => e.ted.offMap) (fun e i => ?_) _ d
  dsimp only
  split
  · rfl
  · exact e.putMapLine_offMap _ _ _ _

/-- A map frame is to be moved out of a draining range (R166). -/
def Dev.mapFrameDue (d : Dev) (g : Nat) : Prop := d.draining g = true ∧ 0 < d.elasticFree ∧ d.reencOf g = none

/-- What a move of a map frame leaves of the frames in use, whatever the map holds. -/
theorem Dev.frameMoved {c e : Dev} {use : FrameUse} (htake : d.takeFrame m use = some (f, c)) (hoff : e.ted.offMap = c.ted.offMap)
    (hne : f ≠ g) : (e.freeFrame g).ted.useOf f = some use ∧ (e.freeFrame g).ted.useOf g = none ∧
      (e.freeFrame g).ted.moves = d.ted.moves := by
  obtain ⟨l, -, huses, hwork, -⟩ := Dev.takeFrame_takes htake
  have hused : (e.freeFrame g).ted.uses = kvDel (kvIns d.ted.uses f use) g := by
    rw [Dev.freeFrame_uses, Tiers.uses_of_offMap hoff, huses]
  refine ⟨?_, ?_, ?_⟩
  · rw [Tiers.useOf, hused, kvFind?_del_other _ hne.symm, kvFind?_ins_self]
  · rw [Tiers.useOf, hused, kvFind?_del_self]
  · rw [Tiers.moves_of_work (Dev.freeFrame_work _ _), Tiers.moves_of_work (Tiers.work_of_offMap hoff), Tiers.moves_of_work hwork]

theorem Dev.takeFrame_isSome (m : Dram) (use : FrameUse) (htake : Sys2Proof.Machine.takeFrame d.draining d.ted.free = some (f, l)) :
    ∃ c, d.takeFrame m use = some (f, c) := ⟨_, Dev.takeFrame_eq m htake⟩

theorem Dev.takeFrame_isNone (m : Dram) (use : FrameUse)
    (h : ¬ (Sys2Proof.Machine.takeFrame d.draining d.ted.free).isSome = true) : d.takeFrame m use = none :=
  Dev.takeFrame_none m (by simpa using h)

/-- The refusal of a page table's move, as the command finds it. -/
def Dev.tableRefused (d : Dev) (field : Nat) : Bool :=
  let ds := d.desc field
  !ds.v || !ds.tiered || ds.fpois || !d.draining ds.base || !d.mayTake .elasticMove || (d.reencOf ds.base).isSome

theorem Dev.tableRefused_iff : d.tableRefused field = false ↔
    (d.desc field).v = true ∧ (d.desc field).tiered = true ∧ (d.desc field).fpois = false ∧ d.mapFrameDue (d.desc field).base := by
  simp only [Dev.tableRefused, Dev.mapFrameDue, Dev.mayTake, Bool.or_eq_false_iff, Bool.not_eq_false', decide_eq_true_eq,
    Option.isSome_eq_false_iff, Option.isNone_iff_eq_none, and_assoc]

theorem Dev.relocateTable_of_refused (h : d.tableRefused field = true) : d.relocateTable m field = d := if_pos h

theorem Dev.relocateTable_of_no_frame (h : ¬ (Sys2Proof.Machine.takeFrame d.draining d.ted.free).isSome = true) :
    d.relocateTable m field = d := by
  by_cases href : d.tableRefused field = true
  · exact Dev.relocateTable_of_refused href
  · rw [Dev.relocateTable]
    dsimp only
    rw [Dev.takeFrame_isNone m _ h]
    exact ite_self _

/-- A page table of a draining range moves to the first free frame. -/
theorem Dev.relocateTable_moves (h : d.tableRefused field = false)
    (htake : Sys2Proof.Machine.takeFrame d.draining d.ted.free = some (f, l)) (hne : f ≠ (d.desc field).base) :
    (d.relocateTable m field).ted.useOf f = some (.table field) ∧ (d.relocateTable m field).ted.useOf (d.desc field).base = none ∧
      (d.relocateTable m field).ted.moves = d.ted.moves := by
  obtain ⟨c, hc⟩ := Dev.takeFrame_isSome m (.table field) htake
  have hgo : ¬ d.tableRefused field = true := by simp [h]
  unfold Dev.tableRefused at hgo
  dsimp only at hgo
  rw [Dev.relocateTable]
  dsimp only
  rw [if_neg hgo, hc]
  dsimp only
  refine Dev.frameMoved hc ?_ hne
  rw [Dev.putMapWord_offMap, Dev.count_ted, Dev.copyMap_offMap]

theorem Dev.relocateSheafMap_of_idle
    (h : ¬ ∃ g, d.sheafMapOf ted run = some g ∧ d.mapFrameDue g ∧ (Sys2Proof.Machine.takeFrame d.draining d.ted.free).isSome = true) :
    d.relocateSheafMap m ted run = d := by
  unfold Dev.relocateSheafMap
  split
  · rfl
  · rename_i g hg
    by_cases hdue : d.mapFrameDue g
    · rw [Dev.takeFrame_isNone m _ fun hsome => h ⟨g, hg, hdue, hsome⟩]
      exact ite_self _
    · refine if_pos ?_
      contrapose! hdue
      simpa [Dev.mapFrameDue, Dev.mayTake, and_assoc] using hdue

/-- A sheaf map of a draining range moves to the first free frame. -/
theorem Dev.relocateSheafMap_moves (hg : d.sheafMapOf ted run = some g) (h : d.mapFrameDue g)
    (htake : Sys2Proof.Machine.takeFrame d.draining d.ted.free = some (f, l)) (hne : f ≠ g) :
    (d.relocateSheafMap m ted run).ted.useOf f = some (.sheafMap ted run) ∧ (d.relocateSheafMap m ted run).ted.useOf g = none ∧
      (d.relocateSheafMap m ted run).ted.moves = d.ted.moves := by
  obtain ⟨c, hc⟩ := Dev.takeFrame_isSome m (.sheafMap ted run) htake
  obtain ⟨hdrain, hfree, hre⟩ := h
  rw [Dev.relocateSheafMap, hg]
  dsimp only
  rw [if_neg (by simp [hdrain, Dev.mayTake, hfree, hre]), hc]
  dsimp only
  refine Dev.frameMoved hc ?_ hne
  rw [Dev.count_ted, Dev.copyMap_offMap]

end

/-! ### FALLOW_MOVE (R163, R165) -/

section
variable {d : Dev} {m : Dram} {page : Nat} {bad : List Nat}

/-- A fallow page is to be moved: its range drains, or the epoch has queued it. -/
def Dev.fallowAsked (d : Dev) (page : Nat) : Prop :=
  (d.draining (d.pageEntry page).frame = true ∧ d.move page = none) ∨
    ∃ x, d.move page = some x ∧ x.kind = .fallowMove ∧ x.phase = .queued

/-- The test of a fallow move, as the command makes it. -/
def Dev.fallowIdle (d : Dev) (page : Nat) : Bool :=
  let drain := d.draining (d.pageEntry page).frame
  let queued := match d.move page with | some x => x.kind == .fallowMove && x.phase == .queued | none => false
  (!(drain && (d.move page).isNone) && !queued) || (drain && d.nextWaits)

theorem Dev.fallowIdle_iff : d.fallowIdle page = true ↔
    ¬ d.fallowAsked page ∨ (d.draining (d.pageEntry page).frame = true ∧ d.nextWaits = true) := by
  unfold Dev.fallowIdle Dev.fallowAsked
  cases hmove : d.move page with
  | none => simp
  | some x => simp [imp_iff_not_or]

theorem Dev.fallowMove_of_idle
    (h : ¬ d.fallowAsked page ∨ (d.draining (d.pageEntry page).frame = true ∧ d.nextWaits = true)) : d.fallowMove m page bad = d :=
  if_pos (Dev.fallowIdle_iff.mpr h)

section
variable (hasked : d.fallowAsked page) (hframe : d.draining (d.pageEntry page).frame = true → d.nextWaits = false)
include hasked hframe

theorem Dev.not_fallowIdle : ¬ d.fallowIdle page = true := by
  rw [Dev.fallowIdle_iff]
  rintro (h | ⟨hdrain, hwaits⟩)
  · exact h hasked
  · rw [hframe hdrain] at hwaits
    cases hwaits

theorem Dev.fallowMove_of_not_fallow
    (h : ¬ (d.livePage page ∧ (d.pageEntry page).state = 2 ∧ (d.pageEntry page).fctr ≠ 63)) :
    d.fallowMove m page bad = d.dropMove page := by
  refine (if_neg (Dev.not_fallowIdle hasked hframe)).trans (if_pos ?_)
  contrapose! h
  simpa [Dev.livePage, and_assoc] using h

/-- A fallow page that finds a place is written there, and its move is ready. -/
theorem Dev.fallowMove_moves {d2 d3 : Dev} {ls : List (Line × Nat)} {f soff : Nat} (hlive : d.livePage page)
    (hs : (d.pageEntry page).state = 2) (hfctr : (d.pageEntry page).fctr ≠ 63)
    (hread : (d.mendCtr m (d.pageEntry page).frame).readLines m
      ((d.mendCtr m (d.pageEntry page).frame).ldDom (((d.mendCtr m (d.pageEntry page).frame).ldOfField (fieldOfPage page)).getD 0)) page
      ((d.pageEntry page).frame * 4096 + (d.pageEntry page).soff * 256) (4 * (d.pageEntry page).scnt)
      (some ((d.pageEntry page).frame * 4096 + (d.pageEntry page).soff * 256, (d.pageEntry page).soff, (d.pageEntry page).fctr)) bad =
        some (d2, ls))
    (hstale : (ls.headD (0, 0)).2 ≠ 2)
    (hfit : d.draining (d.pageEntry page).frame = false → (d2.sheafFit m (fieldOfPage page % 4) (d.pageEntry page).scnt fun g =>
      g != (d.pageEntry page).frame && (d.draining (d.pageEntry page).frame ||
        decide (usedSheaves (d2.sheafOcc (fieldOfPage page % 4) (d.pageEntry page).frame) <
          usedSheaves (d2.sheafOcc (fieldOfPage page % 4) g)))).isSome = true)
    (htake : d2.takeSheaves m (fieldOfPage page % 4) (d.pageEntry page).scnt page .elasticMove (fun g =>
      g != (d.pageEntry page).frame && (d.draining (d.pageEntry page).frame ||
        decide (usedSheaves (d2.sheafOcc (fieldOfPage page % 4) (d.pageEntry page).frame) <
          usedSheaves (d2.sheafOcc (fieldOfPage page % 4) g)))) = some (f, soff, d3)) :
    ∃ q ∈ (d.fallowMove m page bad).ted.moves, q.page = page ∧ q.kind = .fallowMove ∧ q.phase = .ready ∧ q.frame = f ∧ q.soff = soff ∧
      q.scnt = (d.pageEntry page).scnt ∧ q.entry = (d.pageEntry page).num := by
  obtain ⟨hv, htiered, hfpois⟩ := hlive
  have hgo : ¬ (!(d.desc (fieldOfPage page)).v || !(d.desc (fieldOfPage page)).tiered || (d.desc (fieldOfPage page)).fpois ||
      (d.pageEntry page).state ≠ 2 || (d.pageEntry page).fctr = 63) = true := by simp [hv, htiered, hfpois, hs, hfctr]
  have hmoved : d.fallowMove m page bad = _ := if_neg (Dev.not_fallowIdle hasked hframe)
  rw [hmoved]
  dsimp only
  rw [if_neg hgo, hread]
  dsimp only
  rw [if_neg hstale]
  cases hdrain : d.draining (d.pageEntry page).frame with
  | true =>
    rw [hdrain] at htake
    rw [if_pos rfl, htake]
    exact ⟨_, List.mem_append_right _ (List.mem_singleton_self _), rfl, rfl, rfl, rfl, rfl, rfl, rfl⟩
  | false =>
    obtain ⟨b, hb⟩ := Option.isSome_iff_exists.mp (hfit hdrain)
    rw [hdrain] at htake hb
    rw [if_neg Bool.false_ne_true, hb, Option.bind_some, htake]
    exact ⟨_, List.mem_append_right _ (List.mem_singleton_self _), rfl, rfl, rfl, rfl, rfl, rfl, rfl⟩

end

end

end Sys2Proof.Machine
end

section
/-! SUPPORT. TEDDER_MOVE_COMMIT (R154, Table 6.6), by the kind of the move and by whether its commit condition holds. -/

namespace Sys2Proof.Machine

/-! ### What a commit makes of the page, and on what condition -/

section
variable {d : Dev} {m : Dram} {page : Nat} {x : Move}

/-- The page still holds what the move found, under the key that it was read with. -/
def Dev.moveBase (d : Dev) (page : Nat) (x : Move) : Prop :=
  d.livePage page ∧ (d.pageEntry page).sameStorage (pmeOf x.entry) = true ∧ d.ldKeyId x.ld = x.key

/-- No write to the old frame is on its way, and its counters are those of the copy. -/
def Dev.moveStill (d : Dev) (m : Dram) (x : Move) : Prop :=
  d.unsentTo (pmeOf x.entry).frame = false ∧ d.sameCounters m (pmeOf x.entry).frame x.snap = true

/-- The part of the commit condition that all moves share, as the command tests it. -/
def Dev.moveTest (d : Dev) (page : Nat) (x : Move) : Bool :=
  let ds := d.desc (fieldOfPage page)
  ds.v && ds.tiered && !ds.fpois && (d.pageEntry page).sameStorage (pmeOf x.entry) && d.sameKey x.ld x.key

theorem Dev.moveTest_iff : d.moveTest page x = true ↔ d.moveBase page x := by
  simp only [Dev.moveTest, Dev.moveBase, Dev.livePage, Dev.sameKey, Bool.and_eq_true, Bool.not_eq_true', beq_iff_eq, and_assoc]

/-- The entry of a page whose demotion commits. -/
def Move.demoted (x : Move) (e : Pme) : Pme :=
  match x.target with
  | .fallow => { e with state := 2, frame := x.frame, soff := x.soff, scnt := x.scnt, tsel := x.tsel, pgc := x.pgc, fctr := e.fctr + 1 }
  | .bare => e.toState 0
  | _ => e.toState 3

/-- What the ring command that asked for a demotion hears of it. -/
def Move.demotedNote (x : Move) : RingNote :=
  match x.target with
  | .fallow => .madeFallow x.scnt
  | .bare => .madeBare
  | _ => .madeBare

/-- The entry of a fallow page that commits to other sheaves. -/
def Move.resettled (x : Move) (e : Pme) : Pme := { e with frame := x.frame, soff := x.soff, scnt := x.scnt, fctr := e.fctr + 1 }

theorem Dev.moveCommit_of_idle
    (h : ∀ x, d.move page = some x → x.phase ≠ .ready ∨ d.mapRoom x.ted (d.pmeSa (fieldOfPage page) (page % 512)) = false) :
    d.moveCommit m page = d := by
  rw [Dev.moveCommit]
  split
  · rfl
  · rename_i x hx
    exact if_pos (by simpa using h x hx)

section
variable (h : d.move page = some x) (hphase : x.phase = .ready)
  (hroom : d.mapRoom x.ted (d.pmeSa (fieldOfPage page) (page % 512)) = true)
include h hphase hroom

theorem Dev.moveCommit_of_demote (hkind : x.kind = .demote) : d.moveCommit m page =
    if d.moveTest page x && !d.pageValid page && !d.unsentTo (pmeOf x.entry).frame && d.sameCounters m (pmeOf x.entry).frame x.snap then
      ((((((d.unhold (pmeOf x.entry).frame).putPme (fieldOfPage page) (page % 512) (x.demoted (d.pageEntry page))).freeFrame
        (pmeOf x.entry).frame).count .demoted x.ted (x.demoted (d.pageEntry page)).state).dropMove page).moveNote x x.demotedNote)
    else ((if x.target = .fallow then ((d.unhold (pmeOf x.entry).frame).count .commitAbort x.ted).freeSheaves x.frame x.soff x.scnt
      else (d.unhold (pmeOf x.entry).frame).count .commitAbort x.ted).dropMove page).moveNote x .staysSward := by
  rw [Dev.moveCommit, h]
  refine (if_neg (by simp [hphase, hroom])).trans ?_
  dsimp only
  rw [hkind, Move.demoted, Move.demotedNote]
  cases x.target <;> rfl

theorem Dev.moveCommit_of_relocate (hkind : x.kind = .relocate) : d.moveCommit m page =
    if d.moveTest page x && !d.pageBusy page && !d.unsentTo (pmeOf x.entry).frame && d.sameCounters m (pmeOf x.entry).frame x.snap then
      ((((d.unhold (pmeOf x.entry).frame).putPme (fieldOfPage page) (page % 512) { d.pageEntry page with frame := x.frame }).freeFrame
        (pmeOf x.entry).frame).count .relocated x.ted).dropMove page
    else (((d.unhold (pmeOf x.entry).frame).freeFrame x.frame).count .commitAbort x.ted).dropMove page := by
  rw [Dev.moveCommit, h]
  refine (if_neg (by simp [hphase, hroom])).trans ?_
  dsimp only
  rw [hkind]
  rfl

theorem Dev.moveCommit_of_fallowMove (hkind : x.kind = .fallowMove) : d.moveCommit m page =
    if d.moveTest page x && !d.pageBusy page then
      (((d.putPme (fieldOfPage page) (page % 512) (x.resettled (d.pageEntry page))).freeSheaves (pmeOf x.entry).frame (pmeOf x.entry).soff
        (pmeOf x.entry).scnt).count .relocated x.ted).dropMove page
    else ((d.freeSheaves x.frame x.soff x.scnt).count .commitAbort x.ted).dropMove page := by
  rw [Dev.moveCommit, h]
  refine (if_neg (by simp [hphase, hroom])).trans ?_
  dsimp only
  rw [hkind]
  rfl

end

end

/-! ### A commit ends its move -/

section
variable {d : Dev} {m : Dram} {page : Nat} {x : Move}

theorem Dev.dropMove_moves_of_work {c : Dev} (h : c.ted.work = d.ted.work) :
    (c.dropMove page).ted.moves = d.ted.moves.filter (·.page != page) := by
  rw [Dev.dropMove_moves, Tiers.moves_of_work h]

theorem Dev.unhold_work (f : Nat) : (d.unhold f).ted.work = d.ted.work := by rw [Dev.ted_of_tierSide (d.unhold_tierSide f)]

theorem Dev.putPme_work (field p : Nat) (y : Pme) : (d.putPme field p y).ted.work = d.ted.work :=
  Tiers.work_of_offMap (d.putPme_offMap field p y)

/-- Whatever its condition finds, a commit takes the move out of the Tedder's hands. -/
theorem Dev.moveCommit_moves (h : d.move page = some x) (hphase : x.phase = .ready)
    (hroom : d.mapRoom x.ted (d.pmeSa (fieldOfPage page) (page % 512)) = true) :
    (d.moveCommit m page).ted.moves = d.ted.moves.filter (·.page != page) := by
  cases hkind : x.kind with
  | demote =>
    rw [Dev.moveCommit_of_demote h hphase hroom hkind]
    split
    · rw [Dev.moveNote_moves]
      refine Dev.dropMove_moves_of_work ?_
      rw [Dev.count_ted, Dev.freeFrame_work, Dev.putPme_work, Dev.unhold_work]
    · rw [Dev.moveNote_moves]
      refine Dev.dropMove_moves_of_work ?_
      split
      · rw [Dev.freeSheaves_work, Dev.count_ted, Dev.unhold_work]
      · rw [Dev.count_ted, Dev.unhold_work]
  | relocate =>
    rw [Dev.moveCommit_of_relocate h hphase hroom hkind]
    split
    · refine Dev.dropMove_moves_of_work ?_
      rw [Dev.count_ted, Dev.freeFrame_work, Dev.putPme_work, Dev.unhold_work]
    · refine Dev.dropMove_moves_of_work ?_
      rw [Dev.count_ted, Dev.freeFrame_work, Dev.unhold_work]
  | fallowMove =>
    rw [Dev.moveCommit_of_fallowMove h hphase hroom hkind]
    split
    · refine Dev.dropMove_moves_of_work ?_
      rw [Dev.count_ted, Dev.freeSheaves_work, Dev.putPme_work]
    · refine Dev.dropMove_moves_of_work ?_
      rw [Dev.count_ted, Dev.freeSheaves_work]

end

/-! ### The page's entry after a commit -/

section
variable {d : Dev} {m : Dram} {page f : Nat} {x : Move} {y : Pme}

theorem Dev.count_pageLines (k : EvKind) (u p n : Nat) : (d.count k u p n).pageLines page = d.pageLines page :=
  Dev.pageLines_of_tierSide (d.count_tierSide k u p n)

theorem Dev.unhold_pageLines : (d.unhold f).pageLines page = d.pageLines page := Dev.pageLines_of_tierSide (d.unhold_tierSide f)

theorem Dev.tableApart_unhold {g : Nat} (f : Nat) (h : d.tableApart page g) : (d.unhold f).tableApart page g :=
  Dev.tableApart_of_pageLines Dev.unhold_pageLines h

/-- An entry that is written stays while a frame apart from the page's tables is given back. -/
theorem Dev.pageEntry_freeFrame_putPme (hpage : page < 2 ^ 36) (hapart : d.tableApart page f) (hy : y.fits) :
    ((d.putPme (fieldOfPage page) (page % 512) y).freeFrame f).pageEntry page = { y with fctr := y.fctr % 64 } := by
  rw [Dev.pageEntry_of_pageLines (Dev.pageLines_freeFrame (Dev.tableApart_putPme hpage hapart)), Dev.pageEntry_putPme hpage hapart.1 hy]

/-- Likewise for sheaves. -/
theorem Dev.pageEntry_freeSheaves_putPme {s n : Nat} (hpage : page < 2 ^ 36) (hapart : d.tableApart page f) (hy : y.fits)
    (hmaps : ∀ p ∈ d.ted.uses, (∃ t r, p.2 = .sheafMap t r) → d.tableApart page p.1) :
    ((d.putPme (fieldOfPage page) (page % 512) y).freeSheaves f s n).pageEntry page = { y with fctr := y.fctr % 64 } := by
  have huses := Tiers.uses_of_offMap (d.putPme_offMap (fieldOfPage page) (page % 512) y)
  have hmaps' : ∀ p ∈ (d.putPme (fieldOfPage page) (page % 512) y).ted.uses, (∃ t r, p.2 = .sheafMap t r) →
      (d.putPme (fieldOfPage page) (page % 512) y).tableApart page p.1 := by
    rw [huses]
    exact fun p hp hmap => Dev.tableApart_putPme hpage (hmaps p hp hmap)
  rw [Dev.pageEntry_of_pageLines (Dev.pageLines_freeSheaves (Dev.tableApart_putPme hpage hapart) hmaps'),
    Dev.pageEntry_putPme hpage hapart.1 hy]

/-! The entries that commits write fit their bits. -/

theorem Pme.fits_frame {e : Pme} (h : e.fits) (hf : f < 2 ^ 36) : ({ e with frame := f } : Pme).fits := by
  obtain ⟨hstate, -, hrest⟩ := h
  exact ⟨hstate, hf, hrest⟩

theorem Move.resettled_fits {e : Pme} (h : e.fits) (hframe : x.frame < 2 ^ 36) (hsoff : x.soff < 16) (hscnt : x.scnt < 16) :
    (x.resettled e).fits := by
  obtain ⟨hstate, -, -, -, hrest⟩ := h
  exact ⟨hstate, hframe, hsoff, hscnt, hrest⟩

theorem Move.demoted_fits {e : Pme} (h : e.fits) (hframe : x.frame < 2 ^ 36) (hsoff : x.soff < 16) (hscnt : x.scnt < 16)
    (htsel : x.tsel < 8) (hpgc : x.pgc < 32) : (x.demoted e).fits := by
  obtain ⟨-, -, -, -, -, -, hhot⟩ := id h
  rw [Move.demoted]
  split
  · exact ⟨(by norm_num : 2 < 4), hframe, hsoff, hscnt, htsel, hpgc, hhot⟩
  · exact Pme.fits_toState h (by decide)
  · exact Pme.fits_toState h (by decide)

section
variable (h : d.move page = some x) (hphase : x.phase = .ready)
  (hroom : d.mapRoom x.ted (d.pmeSa (fieldOfPage page) (page % 512)) = true)
include h hphase hroom

section
variable (hpage : page < 2 ^ 36) (hbase : d.moveBase page x) (hapart : d.tableApart page (pmeOf x.entry).frame)
include hpage hbase hapart

theorem Dev.moveCommit_relocates (hkind : x.kind = .relocate) (hstill : d.moveStill m x) (hbusy : d.pageBusy page = false)
    (hframe : x.frame < 2 ^ 36) : (d.moveCommit m page).pageEntry page = { d.pageEntry page with frame := x.frame } := by
  obtain ⟨hunsent, hctrs⟩ := hstill
  have hheld := Dev.tableApart_unhold (pmeOf x.entry).frame hapart
  rw [Dev.moveCommit_of_relocate h hphase hroom hkind, if_pos (by simp [Dev.moveTest_iff.mpr hbase, hbusy, hunsent, hctrs]),
    Dev.pageEntry_of_pageLines (Dev.dropMove_pageLines.trans (Dev.count_pageLines _ _ _ _)),
    Dev.pageEntry_freeFrame_putPme hpage hheld (Pme.fits_frame (d.pageEntry_fits page) hframe), Nat.mod_eq_of_lt (d.pageEntry_fctr_lt page)]

theorem Dev.moveCommit_demotes (hkind : x.kind = .demote) (hstill : d.moveStill m x) (hvalid : d.pageValid page = false)
    (hfits : (x.demoted (d.pageEntry page)).fits) : (d.moveCommit m page).pageEntry page =
      { x.demoted (d.pageEntry page) with fctr := (x.demoted (d.pageEntry page)).fctr % 64 } := by
  obtain ⟨hunsent, hctrs⟩ := hstill
  have hheld := Dev.tableApart_unhold (pmeOf x.entry).frame hapart
  rw [Dev.moveCommit_of_demote h hphase hroom hkind, if_pos (by simp [Dev.moveTest_iff.mpr hbase, hvalid, hunsent, hctrs]),
    Dev.pageEntry_of_pageLines ((Dev.moveNote_pageLines _).trans (Dev.dropMove_pageLines.trans (Dev.count_pageLines _ _ _ _))),
    Dev.pageEntry_freeFrame_putPme hpage hheld hfits]

theorem Dev.moveCommit_resettles (hkind : x.kind = .fallowMove) (hbusy : d.pageBusy page = false)
    (hmaps : ∀ p ∈ d.ted.uses, (∃ t r, p.2 = .sheafMap t r) → d.tableApart page p.1)
    (hfits : (x.resettled (d.pageEntry page)).fits) : (d.moveCommit m page).pageEntry page =
      { x.resettled (d.pageEntry page) with fctr := (x.resettled (d.pageEntry page)).fctr % 64 } := by
  rw [Dev.moveCommit_of_fallowMove h hphase hroom hkind, if_pos (by simp [Dev.moveTest_iff.mpr hbase, hbusy]),
    Dev.pageEntry_of_pageLines (Dev.dropMove_pageLines.trans (Dev.count_pageLines _ _ _ _)),
    Dev.pageEntry_freeSheaves_putPme hpage hapart hfits hmaps]

end

section
variable (hbase : ¬ d.moveBase page x)
include hbase

theorem Dev.moveCommit_keeps_relocated (hkind : x.kind = .relocate) (hapart : d.tableApart page x.frame) :
    (d.moveCommit m page).pageEntry page = d.pageEntry page := by
  have hheld := Dev.tableApart_unhold (pmeOf x.entry).frame hapart
  rw [Dev.moveCommit_of_relocate h hphase hroom hkind, if_neg (by simp [Dev.moveTest_iff.not.mpr hbase])]
  exact Dev.pageEntry_of_pageLines
    (Dev.dropMove_pageLines.trans ((Dev.count_pageLines _ _ _ _).trans ((Dev.pageLines_freeFrame hheld).trans Dev.unhold_pageLines)))

theorem Dev.moveCommit_keeps_demoted (hkind : x.kind = .demote) (htarget : x.target ≠ .fallow) :
    (d.moveCommit m page).pageEntry page = d.pageEntry page := by
  rw [Dev.moveCommit_of_demote h hphase hroom hkind, if_neg (by simp [Dev.moveTest_iff.not.mpr hbase]), if_neg htarget]
  exact Dev.pageEntry_of_pageLines ((Dev.moveNote_pageLines _).trans
    (Dev.dropMove_pageLines.trans ((Dev.count_pageLines _ _ _ _).trans Dev.unhold_pageLines)))

end

end

end

end Sys2Proof.Machine
end

section
/-! SUPPORT. The moves settled (O32): the commands of demotions, relocations and fallow moves. -/

namespace Sys2Proof.Machine

/-! ### What the lines of a page make of its demotion (Table 6.6) -/

section
variable {d : Dev} {page : Nat} {x : Move} {e : Pme} {ds : Desc} {ls : List (Line × Nat)} (h : d.move page = some x)
include h

theorem Dev.demoteAim_outcome (t : MoveTarget) :
    ∃ q, (d.demoteAim page t).move page = some q ∧ q.phase = .ready ∧ q.target = t ∧ q.entry = x.entry :=
  ⟨_, (Dev.demoteAim_aims h t).1, rfl, rfl, rfl⟩

theorem Dev.move_demoteEnd (pinned : Bool) (cause : Nat) : (d.demoteEnd x pinned cause).move page = none := by
  rw [← Dev.move_page h]
  exact (Dev.demoteEnd_ends pinned cause).1

theorem Dev.demoteJudge_raises (hgood : ∀ z ∈ ls, z.2 ≠ 1) (hdata : ∃ z ∈ ls, z.1 ≠ 0) (hpol : ds.tpol ≠ 1) (hfctr : e.fctr ≠ 63)
    (hserved : 0 < d.balCount) : (d.demoteJudge page x e ds ls).move page = some x ∧ ∃ j,
      (d.demoteJudge page x e ds ls).bal.jobs = d.bal.jobs ++ [j] ∧ j.cls = .compression ∧ j.page = page ∧
        j.bytes = ls.flatMap fun z => toBytes 64 z.1.toNat := by
  obtain ⟨j, hjob, hcls, hjpage, hbytes⟩ := Dev.demoteJudge_job (d := d) (page := page) (x := x) hgood hdata hpol hfctr
  obtain ⟨k, hraise, hkcls, hkpage, hkbytes⟩ := Dev.raiseJob_of_served (j := j) hserved
  refine ⟨(Dev.move_of_moves_eq ?_).trans h, k, ?_, hkcls.trans hcls, hkpage.trans hjpage, hkbytes.trans hbytes⟩
  · rw [hjob, Dev.raiseJob_ted]
  · rw [hjob, hraise]
    rfl

end

/-! ### The commands -/

section
variable {s : State} {page : Nat} {bad : List Nat}

theorem exec_demotionStart_eq (hup : s.up = true) (hpage : page < 2 ^ 36) :
    exec (.demotionStart page bad) s = .next (s.finish (s.dev.demoteStart s.dram page bad)) :=
  exec_demotionStart (decide_eq_true hpage) hup

theorem exec_relocation_page (hup : s.up = true) :
    exec (.relocation (.page page) bad) s = .next (s.finish (s.dev.relocatePage s.dram page bad)) := exec_relocation rfl hup

theorem exec_relocation_table (hup : s.up = true) (field : Nat) :
    exec (.relocation (.table field) bad) s = .next (s.finish (s.dev.relocateTable s.dram field)) := exec_relocation rfl hup

theorem exec_relocation_sheafMap (hup : s.up = true) (t r : Nat) :
    exec (.relocation (.sheafMap t r) bad) s = .next (s.finish (s.dev.relocateSheafMap s.dram t r)) := exec_relocation rfl hup

theorem exec_fallowMove_eq (hup : s.up = true) (hpage : page < 2 ^ 36) :
    exec (.fallowMove page bad) s = .next (s.finish (s.dev.fallowMove s.dram page bad)) :=
  exec_fallowMove (decide_eq_true hpage) hup

theorem exec_tedderMoveCommit_eq (hup : s.up = true) (hpage : page < 2 ^ 36) :
    exec (.tedderMoveCommit page) s = .next (s.finish (s.dev.moveCommit s.dram page)) :=
  exec_tedderMoveCommit (decide_eq_true hpage) hup

end

/-- A page table that has nowhere to go, or no reason to, stays. -/
theorem Dev.relocateTable_of_idle {d : Dev} {m : Dram} {page : Nat} (h : ¬ (d.livePage page ∧
    d.draining (d.desc (fieldOfPage page)).base = true ∧ 0 < d.elasticFree ∧ d.reencOf (d.desc (fieldOfPage page)).base = none ∧
      (Sys2Proof.Machine.takeFrame d.draining d.ted.free).isSome = true)) : d.relocateTable m (fieldOfPage page) = d := by
  cases href : d.tableRefused (fieldOfPage page) with
  | true => exact Dev.relocateTable_of_refused href
  | false =>
    obtain ⟨hv, htiered, hfpois, hdrain, hfree, hre⟩ := Dev.tableRefused_iff.mp href
    exact Dev.relocateTable_of_no_frame fun hsome => h ⟨⟨hv, htiered, hfpois⟩, hdrain, hfree, hre, hsome⟩

/-- Settles O32: each command of a move by what it finds, and the commit by whether its condition holds. -/
theorem moves : Obligations.Moves := by
  intro s page bad hup hpage
  refine ⟨fun hidle => ?_,
    fun x hx hkind hphase hen => ⟨fun hgone => ?_, fun hlive hs hre => ?_, fun hlive hs hre => ⟨fun hfull => ?_, fun hfull hhold => ?_,
      fun d1 d2 ls hfull hhold hread hlen => ?_⟩⟩,
    fun hdue => ?_, fun d1 d2 ls f d3 hlive hs hdrain hnone hre hfree hwaits hspare hhold hread htake => ?_,
    fun hdue => ?_, fun f l hlive hdrain hfree hre htake hne => ?_,
    fun t r => ⟨fun hdue => ?_, fun g f l hg hdrain hfree hre htake hne => ?_⟩,
    ⟨fun hidle => ?_, fun hasked hframe hgone => ?_, fun d2 ls f soff d3 hasked hframe hlive hs hfctr hread hstale hplace => ?_⟩,
    fun hidle => ?_, fun x hx hphase hroom hframe hsoff hscnt htsel hpgc => ?_⟩
  · exact exec_finish_of_eq (exec_demotionStart_eq hup hpage) (Dev.demoteStart_of_idle hidle)
  · exact exec_finish_of_eq (exec_demotionStart_eq hup hpage) (Dev.demoteStart_of_not_sward hx hkind hphase hen hgone)
  · exact exec_finish_of_eq (exec_demotionStart_eq hup hpage) (Dev.demoteStart_of_reenc hx hkind hphase hen hlive hs hre)
  · exact exec_finish_of_eq (exec_demotionStart_eq hup hpage) (Dev.demoteStart_of_full hx hkind hphase hen hlive hs hre hfull)
  · exact exec_finish_of_eq (exec_demotionStart_eq hup hpage)
      (Dev.demoteStart_of_no_hold hx hkind hphase hen hlive hs hre hfull hhold)
  · obtain ⟨hmove, hlist, hbal⟩ := Dev.demoteLines_reads hx hhold hread
    refine ⟨_, exec_finish_of_eq (exec_demotionStart_eq hup hpage)
      (Dev.demoteStart_of_lines hx hkind hphase hen hlive hs hre hfull hhold hread), Dev.demoteJudge_free.trans hlist,
      fun hall => ?_, fun hsome hgood => ?_, fun hzero => ?_, fun hgood hdata hkept => ?_, fun hgood hdata hpol hfctr hserved => ?_⟩
    · rw [Dev.demoteJudge_poisoned hlen hall]
      exact Dev.demoteAim_outcome hmove .poisoned
    · rw [Dev.demoteJudge_mixed hlen hsome hgood]
      exact Dev.move_demoteEnd hmove true 1
    · rw [Dev.demoteJudge_zero hzero]
      exact Dev.demoteAim_outcome hmove .bare
    · obtain ⟨c, hend⟩ := Dev.demoteJudge_kept (d := d2) (page := page) (x := x.begun d1 page (s.dev.pageEntry page)) hgood hdata hkept
      rw [hend]
      exact Dev.move_demoteEnd hmove true c
    · obtain ⟨hsame, j, hjobs, hjob⟩ := Dev.demoteJudge_raises hmove hgood hdata hpol hfctr hserved
      exact ⟨_, j, hsame, rfl, rfl, hjobs.trans (by rw [hbal]), hjob⟩
  · exact exec_finish_of_eq (exec_relocation_page hup) (Dev.relocatePage_of_idle hdue)
  · exact ⟨_, exec_relocation_page hup,
      Dev.relocatePage_copies ⟨hlive, hs, hdrain, hnone, hre, hfree, hwaits, hspare⟩ hhold hread htake⟩
  · exact exec_finish_of_eq (exec_relocation_table hup _) (Dev.relocateTable_of_idle hdue)
  · obtain ⟨hv, htiered, hfpois⟩ := hlive
    exact ⟨_, exec_relocation_table hup _,
      Dev.relocateTable_moves (Dev.tableRefused_iff.mpr ⟨hv, htiered, hfpois, hdrain, hfree, hre⟩) htake hne⟩
  · exact exec_finish_of_eq (exec_relocation_sheafMap hup t r) (Dev.relocateSheafMap_of_idle fun ⟨g, hg, ⟨hdrain, hfree, hre⟩, hsome⟩ =>
      hdue ⟨g, hg, hdrain, hfree, hre, hsome⟩)
  · exact ⟨_, exec_relocation_sheafMap hup t r, Dev.relocateSheafMap_moves hg ⟨hdrain, hfree, hre⟩ htake hne⟩
  · exact exec_finish_of_eq (exec_fallowMove_eq hup hpage) (Dev.fallowMove_of_idle hidle)
  · exact exec_finish_of_eq (exec_fallowMove_eq hup hpage) (Dev.fallowMove_of_not_fallow hasked hframe hgone)
  · obtain ⟨hfit, htake⟩ := hplace
    exact ⟨_, exec_fallowMove_eq hup hpage, Dev.fallowMove_moves hasked hframe hlive hs hfctr hread hstale hfit htake⟩
  · exact exec_finish_of_eq (exec_tedderMoveCommit_eq hup hpage) (Dev.moveCommit_of_idle hidle)
  · have hfits := s.dev.pageEntry_fits page
    have hfctr := s.dev.pageEntry_fctr_lt page
    have hdemote := Move.demoted_fits hfits hframe hsoff hscnt htsel hpgc
    refine ⟨_, exec_tedderMoveCommit_eq hup hpage, Dev.moveCommit_moves hx hphase hroom,
      fun hapart => ⟨fun hkind hbase hstill hbusy => ?_, fun hkind hbase hstill hvalid => ⟨fun htarget => ?_, fun htarget => ?_,
        fun htarget => ?_⟩, fun hmaps hkind hbase hbusy => ?_⟩,
      fun hkind hbase hapart => Dev.moveCommit_keeps_relocated hx hphase hroom hbase hkind hapart,
      fun hkind hbase htarget => Dev.moveCommit_keeps_demoted hx hphase hroom hbase hkind htarget⟩
    · exact Dev.moveCommit_relocates hx hphase hroom hpage hbase hapart hkind hstill hbusy hframe
    · rw [Dev.moveCommit_demotes hx hphase hroom hpage hbase hapart hkind hstill hvalid hdemote]
      simp only [Move.demoted, htarget, Pme.toState, Nat.mod_eq_of_lt hfctr]
    · rw [Dev.moveCommit_demotes hx hphase hroom hpage hbase hapart hkind hstill hvalid hdemote]
      simp only [Move.demoted, htarget, Pme.toState, Nat.mod_eq_of_lt hfctr]
    · rw [Dev.moveCommit_demotes hx hphase hroom hpage hbase hapart hkind hstill hvalid hdemote]
      simp only [Move.demoted, htarget]
    · rw [Dev.moveCommit_resettles hx hphase hroom hpage hbase hapart hkind hbusy hmaps (Move.resettled_fits hfits hframe hsoff hscnt)]
      rfl

end Sys2Proof.Machine
end

section
/-! SUPPORT. What the storage side leaves alone: whatever is seen of the die, where no record, counter, channel, register from 0x800040 on
and no counter line shows in it, stays as it is in every operation of the channels and of the cipher units (chapters 8 to 10). -/

namespace Sys2Proof.Machine

/-- A view of the die in which the changes that storage operations are made of do not show. -/
structure StorageBlind {γ : Type} (p : Dev → γ) : Prop where
  records (d : Dev) (l : Logs) (x : Casc) (o : List Out) : p { d with logs := l, cas := x, out := o } = p d
  count (d : Dev) (k : EvKind) (u i n : Nat) : p (d.count k u i n) = p d
  modChn (d : Dev) (c : Nat) (f : Chan → Chan) : p (d.modChn c f) = p d
  wr (d : Dev) {r : Reg} (h : 0x800040 ≤ r.offset) (v : Nat) : p (d.wr r v) = p d
  modCip (d : Dev) (accs : Cipher → List Access) (next : Cipher → Nat) (done : Cipher → List (AccOwner × Nat × AccRes))
    (copies merges : Cipher → List CtrCopy) (holds : Cipher → List CtrHold) (zeroed : Cipher → List Nat) :
    p (d.modCip fun x => { x with accs := accs x, nextAcc := next x, done := done x, copies := copies x, merges := merges x,
                                  holds := holds x, zeroed := zeroed x }) = p d

theorem storageBlind_ldKey : StorageBlind fun d => d.cip.ldKey :=
  ⟨fun _ _ _ _ => rfl, fun _ _ _ _ _ => rfl, fun _ _ _ => rfl, fun _ _ _ _ => rfl, fun _ _ _ _ _ _ _ _ => rfl⟩

theorem storageBlind_reencs : StorageBlind fun d => d.cip.reencs :=
  ⟨fun _ _ _ _ => rfl, fun _ _ _ _ _ => rfl, fun _ _ _ => rfl, fun _ _ _ _ => rfl, fun _ _ _ _ _ _ _ _ => rfl⟩

/-- A register below the status of the cipher units. -/
theorem storageBlind_rd {q : Reg} (hq : q.offset < 0x800040) : StorageBlind fun d => d.rd q :=
  ⟨fun _ _ _ _ => rfl, fun _ _ _ _ _ => rfl, fun _ _ _ => rfl, fun d _ h v => d.rd_wr_other (hq.trans_le h).ne' v,
    fun _ _ _ _ _ _ _ _ => rfl⟩

theorem storageBlind_tierSide : StorageBlind Dev.tierSide :=
  ⟨fun _ _ _ _ => rfl, fun _ _ _ _ _ => rfl, fun _ _ _ => rfl, fun d _ h v => d.wr_tierSide (Reg.tier_of_ge (by omega)) v,
    fun _ _ _ _ _ _ _ _ => rfl⟩

/-- A choice between two dies that look the same looks like either. -/
theorem view_ite {γ : Type} {p : Dev → γ} {c : Prop} [Decidable c] {a b d : Dev} (ha : p a = p d) (hb : p b = p d) :
    p (if c then a else b) = p d := by
  split
  · exact ha
  · exact hb

namespace StorageBlind

variable {γ : Type} {p : Dev → γ} (h : StorageBlind p) (d : Dev)
include h

theorem raise (r : Rec) : p (d.raise r) = p d := by
  obtain ⟨l, x, o, hr⟩ := d.raise_cases r
  rw [hr, h.records]

theorem raiseLimited (k : Nat) (r : Rec) : p (d.raiseLimited k r) = p d := by
  obtain ⟨l, x, o, hr⟩ := d.raiseLimited_cases k r
  rw [hr, h.records]

theorem setFld {r : Reg} (hr : 0x800040 ≤ r.offset) (f : Fld) (x : Nat) : p (d.setFld r f x) = p d := h.wr d hr _
theorem setFlag {r : Reg} (hr : 0x800040 ≤ r.offset) (f : Fld) (b : Bool) : p (d.setFlag r f b) = p d := h.wr d hr _
theorem bumpFld {r : Reg} (hr : 0x800040 ≤ r.offset) (f : Fld) : p (d.bumpFld r f) = p d := h.wr d hr _

/-! ### Channels -/

theorem overrun (x : XId) : p (d.overrun x) = p d := by
  have hreg : 0x800040 ≤ (islandReg x.island).offset := by
    unfold islandReg
    split_ifs <;> simp only [Reg.offset] <;> omega
  rcases d.setCross_cases (islandReg x.island) x.bit with hset | ⟨c, hset⟩
  · rw [Dev.overrun, hset]
    exact h.wr d hreg _
  · rw [Dev.overrun, hset, h.raise]
    exact h.wr d hreg _

theorem sendCmd (c : Nat) (e : ChEnt) : p (d.sendCmd c e) = p d := by
  rw [Dev.sendCmd, h.modChn]
  exact view_ite rfl (h.overrun d _)

theorem countRestore (c : Nat) (e : ChEnt) (b : Bool) : p (d.countRestore c e b) = p d := by
  unfold Dev.countRestore
  split
  · exact view_ite (h.count d _ _ _ _) rfl
  · exact view_ite (h.count d _ _ _ _) (view_ite (h.count d _ _ _ _) (h.count d _ _ _ _))
  · rfl

theorem modQ (c : Nat) (f : Chan → Chan) : p (d.modQ c f) = p d := by
  unfold Dev.modQ
  refine (foldl_keeps p (fun e i => ?_) _ _).trans (h.modChn d c _)
  dsimp only
  split_ifs <;> simp only [h.count]

theorem enter (c : Nat) (e : ChEnt) : p (d.enter c e) = p d := by
  rw [Dev.enter, h.modQ]
  exact foldl_keeps p (fun e x => h.countRestore e c x true) _ _

theorem pullGo (c i k : Nat) : p (d.pullGo c i k) = p d := by
  induction k generalizing d with
  | zero => rfl
  | succ k ih =>
    unfold Dev.pullGo
    split
    · refine view_ite ?_ rfl
      rw [ih, h.modChn, h.countRestore, h.enter, h.modChn]
    · rfl

theorem restoreWrite (c i : Nat) (e : ChEnt) : p (d.restoreWrite c i e) = p d := by
  have hreg : 0x800040 ≤ (Reg.chnSpareCp c).offset := by simp only [Reg.offset]; omega
  rw [Dev.restoreWrite, Dev.pullRestore, Dev.copyAdvance, h.setFld _ hreg, h.modChn, h.pullGo, h.modChn]

theorem spareBegin (c r cause : Nat) : p (d.spareBegin c r cause) = p d := by
  have hcp : 0x800040 ≤ (Reg.chnSpareCp c).offset := by simp only [Reg.offset]; omega
  have hspare : 0x800040 ≤ (Reg.chnSpare c).offset := by simp only [Reg.offset]; omega
  have hstat : 0x800040 ≤ (Reg.chnRankstat c).offset := by simp only [Reg.offset]; omega
  rw [Dev.spareBegin, Dev.spareEvent, h.raise, h.modChn, h.setFld _ hcp, h.setFld _ hspare, Dev.setRankState, h.wr _ hstat,
    Dev.setRankState, h.wr _ hstat]

theorem spareThreshold (c r cause : Nat) (auto : Bool) : p (d.spareThreshold c r cause auto) = p d := by
  unfold Dev.spareThreshold
  split
  · exact view_ite (h.spareBegin d _ _ _) rfl
  · exact view_ite (h.raise d _) rfl

theorem countCe (c : Nat) (e : ChEnt) (dev : Nat) : p (d.countCe c e dev) = p d := by
  have hreg : 0x800040 ≤ (Reg.chnEccRank c e.rank).offset := by simp only [Reg.offset]; omega
  unfold Dev.countCe
  refine view_ite ?_ ?_
  · rw [h.spareThreshold, h.raise, h.setFlag _ hreg, h.setFld _ hreg, h.modChn, h.bumpFld _ hreg]
  · rw [h.setFld _ hreg, h.modChn, h.bumpFld _ hreg]

theorem countUe (c : Nat) (e : ChEnt) : p (d.countUe c e) = p d := by
  have hreg : 0x800040 ≤ (Reg.chnEccRank c e.rank).offset := by simp only [Reg.offset]; omega
  have hlogs (e : Dev) (l : Logs) : p { e with logs := l } = p e := h.records e l e.cas e.out
  unfold Dev.countUe
  dsimp only
  split_ifs <;> simp only [h.spareThreshold, h.setFlag _ hreg, h.raise, hlogs, h.bumpFld _ hreg]

theorem burstNoted (c i : Nat) (e : ChEnt) (o : CwOut) : p (d.burstNoted c i e o) = p d := by
  have hback (f : Dev) (w : ChEnt) (b : Bool) : p (if b then f.countRestore c w true else f.restoreWrite c i w) = p f :=
    view_ite (h.countRestore f c w true) (h.restoreWrite f c i w)
  cases o with
  | clean q => exact h.count d _ _ _ _
  | corrected q dev =>
    simp only [Dev.burstNoted]
    split <;> simp only [hback, h.countCe, h.count]
  | uncorrectable q =>
    simp only [Dev.burstNoted]
    split <;> simp only [hback, h.countUe, h.count]

/-! ### Writes and reads of the cipher units -/

theorem foldEnter (sa dev : Nat) (b : Bool) : p (d.foldEnter sa dev b) = p d := by
  have hcas (e : Dev) (x : Casc) : p { e with cas := x } = p e := h.records e e.logs x e.out
  have hreg : 0x800040 ≤ Reg.casFoldstat.offset := by decide
  unfold Dev.foldEnter
  dsimp only
  split_ifs <;> simp only [h.raise, h.setFlag _ hreg, hcas]

theorem hand (q : Place) (e : ChEnt) : p (d.hand q e).1 = p d := by
  cases q with
  | here c ca => exact h.sendCmd d c _
  | member dev c ca =>
    simp only [Dev.hand]
    split_ifs
    · exact h.records d d.logs _ d.out
    · exact h.foldEnter d _ _ _
    all_goals rfl
  | fault => exact h.raise d _
  | wait => rfl

theorem foldWrite (sa dpa ld : Nat) (b : Bool) : p (d.foldWrite sa dpa ld b) = p d := by
  unfold Dev.foldWrite
  split
  · exact view_ite (h.foldEnter d _ _ _) rfl
  · exact h.raise d _
  · rfl

theorem foldCtr (frame : Nat) : p (d.foldCtr frame) = p d := by
  unfold Dev.foldCtr
  split
  · exact h.foldWrite d _ _ _ _
  · rfl

theorem fireWrite (sa : Nat) (x : Payload) : p (d.fireWrite sa x) = p d := h.hand d _ _

theorem raiseMajor (m : Nat) : p (d.raiseMajor m) = p d := h.wr d (by decide) _

theorem writeCtr (frame : Nat) (c : Ctr) : p (d.writeCtr frame c) = p d := by
  unfold Dev.writeCtr
  split
  · rfl
  · rw [h.fireWrite, h.raiseMajor]

theorem noteRead (m : Dram) (sa dpa ld : Nat) (src : RdSource) (bad : Bool) : p (d.noteRead m sa dpa ld src bad) = p d := by
  unfold Dev.noteRead
  split
  · refine view_ite rfl ?_
    split
    · exact h.burstNoted d _ _ _ _
    · rfl
  · exact h.raise d _
  · rfl

theorem noteCtr (m : Dram) (frame : Nat) : p (d.noteCtr m frame) = p d := by
  unfold Dev.noteCtr
  split
  · exact h.noteRead d _ _ _ _ _ _
  · rfl

theorem mismatchRecord (unit sa dpa ld : Nat) (dom : Dom) (partialWr mark : Bool) :
    p (d.mismatchRecord unit sa dpa ld dom partialWr mark) = p d :=
  (h.raiseLimited _ _ _).trans (h.count d _ _ _ _)

theorem ctrMismatch (frame row : Nat) : p (d.ctrMismatch frame row) = p d := by
  unfold Dev.ctrMismatch
  split
  · exact view_ite (h.mismatchRecord d _ _ _ _ _ _ _) rfl
  · rfl

/-! ### Counter lines and their holds -/

theorem putCopy (x : CtrCopy) : p (d.putCopy x) = p d := by
  rw [Dev.putCopy, h.modCip]

theorem installCopy (x : CtrCopy) : p (d.installCopy x) = p d := by
  unfold Dev.installCopy
  dsimp only
  split_ifs
  · rfl
  · rw [h.putCopy]
    split
    · rfl
    · rw [h.modCip]
  · exact h.putCopy d x

theorem counterLost (frame row : Nat) : p (d.counterLost frame row) = p d := by
  unfold Dev.counterLost
  dsimp only
  rw [h.modCip]
  split
  · refine (foldl_keeps p (fun e i => h.fireWrite e _ _) _ _).trans ?_
    rw [h.writeCtr, h.installCopy, h.modCip]
  · refine (h.raise _ _).trans ((foldl_keeps p (fun e i => h.fireWrite e _ _) _ _).trans ?_)
    rw [h.writeCtr, h.installCopy, h.modCip]

theorem unhold (frame : Nat) : p (d.unhold frame) = p d := by
  unfold Dev.unhold
  split
  · rfl
  · have hholds (f : Cipher → List CtrHold) : p (d.modCip fun x => { x with holds := f x }) = p d := by rw [h.modCip]
    refine view_ite (hholds _) ?_
    dsimp only
    split
    · exact hholds _
    · refine view_ite (hholds _) ?_
      rw [h.putCopy, h.writeCtr, hholds]

theorem hold {m : Dram} {e : Dev} {frame q : Nat} (he : d.hold m frame q = some e) : p e = p d := by
  unfold Dev.hold at he
  split at he
  · cases he
    rw [h.modCip]
  · dsimp only at he
    split at he
    · cases he
    · split at he
      · cases he
      · cases he
        rw [h.modCip, h.installCopy, h.modCip, h.counterLost, h.ctrMismatch, h.noteCtr, h.count]
      · cases he
        rw [h.modCip, h.installCopy, h.modCip, foldl_keeps p fun e x => h.count e _ _ _ _, h.noteCtr, h.count]

theorem setHeld (frame : Nat) (c : Ctr) (ch : BitVec 64) : p (d.setHeld frame c ch) = p d := by
  unfold Dev.setHeld
  split
  · rfl
  · exact h.putCopy d _

/-- A frame that is erased: where the end of a re-encryption does not show either. -/
theorem eraseFrame (hreencs : ∀ (e : Dev) (f : Cipher → List ReEnc), p (e.modCip fun x => { x with reencs := f x }) = p e)
    (m : Dram) (frame : Nat) : p (d.eraseFrame m frame) = p d := by
  unfold Dev.eraseFrame
  have hended : p (if (d.reencOf frame).isSome then d.reencEnd frame else d) = p d :=
    view_ite ((h.unhold _ frame).trans (hreencs d _)) rfl
  generalize (if (d.reencOf frame).isSome then d.reencEnd frame else d) = e at hended ⊢
  dsimp only
  split
  · rw [h.foldCtr, hended]
  · rename_i c hc
    have hhold : p c = p d := (h.hold e hc).trans hended
    split
    · rw [h.unhold, hhold]
    · rw [h.unhold, h.raiseMajor, h.setHeld, hhold]

theorem eraseFlatField (hreencs : ∀ (e : Dev) (f : Cipher → List ReEnc), p (e.modCip fun x => { x with reencs := f x }) = p e)
    (m : Dram) (base : Nat) : p (d.eraseFlatField m base) = p d := foldl_keeps p (fun e _ => h.eraseFrame e hreencs m _) _ _

/-! ### Re-encryptions -/

theorem countZero (unit row : Nat) : p (d.countZero unit row) = p d := view_ite (h.count d _ _ _ _) rfl

theorem reencLine (m : Dram) (r : ReEnc) (i : Nat) : p (d.reencLine m r i) = p d := by
  unfold Dev.reencLine
  dsimp only
  split
  · rfl
  · split
    · rw [h.foldWrite, h.putCopy]
    · rw [h.fireWrite, h.countZero]
      refine (view_ite (h.mismatchRecord _ _ _ _ _ _ _ _) rfl).trans ?_
      rw [h.noteRead, h.putCopy]

end StorageBlind

end Sys2Proof.Machine
end

section
/-! SUPPORT. Balers (R26, R192 to R201): the dispatch, the start and the end of a job, a fault of a baler and its reset, by what they
find. -/

namespace Sys2Proof.Machine

/-! ### The choice of a job or of a baler -/

/-- What a pass over a list has chosen is one of the list, or what was chosen before. -/
theorem mem_of_foldl_choose {α : Type} {f : Option α → α → Option α} (hf : ∀ x a, f x a = some a ∨ f x a = x) {y : α} :
    ∀ (l : List α) (x : Option α), l.foldl f x = some y → y ∈ l ∨ x = some y
  | [], _, h => .inr h
  | a :: l, x, h => by
    rcases mem_of_foldl_choose hf l (f x a) h with hy | hy
    · exact .inl (List.mem_cons_of_mem a hy)
    · rcases hf x a with ha | ha
      · exact .inl (Option.some.inj (ha.symm.trans hy) ▸ List.mem_cons_self)
      · exact .inr (ha.symm.trans hy)

/-- The first of the jobs of the first class that has one (R198). -/
def firstJob (l : List BalJob) : Option BalJob :=
  l.foldl (fun (x : Option BalJob) j => match x with
    | none => some j
    | some y => if j.cls.rank < y.cls.rank then some j else x) none

theorem firstJob_cons (y : BalJob) (l : List BalJob) :
    ∃ j ∈ y :: l, firstJob (y :: l) = some j ∧ ∀ k ∈ y :: l, j.cls.rank ≤ k.cls.rank := by
  unfold firstJob
  rw [List.foldl_cons]
  induction l generalizing y with
  | nil => exact ⟨y, by simp⟩
  | cons a l ih =>
    rw [List.foldl_cons]
    dsimp only
    split
    · rename_i hlt
      obtain ⟨j, hj, hfirst, hleast⟩ := ih a
      refine ⟨j, List.mem_cons_of_mem y hj, hfirst, fun k hk => ?_⟩
      rcases List.mem_cons.mp hk with rfl | hk
      · exact (hleast a List.mem_cons_self).trans hlt.le
      · exact hleast k hk
    · rename_i hle
      obtain ⟨j, hj, hfirst, hleast⟩ := ih y
      refine ⟨j, List.cons_subset_cons y (List.subset_cons_self a l) hj, hfirst, fun k hk => ?_⟩
      rcases List.mem_cons.mp hk with rfl | hk
      · exact hleast k List.mem_cons_self
      · rcases List.mem_cons.mp hk with rfl | hk
        · exact (hleast y List.mem_cons_self).trans (not_lt.mp hle)
        · exact hleast k (List.mem_cons_of_mem y hk)

section
variable {d : Dev}

theorem Dev.leastBaler_mem {bs : List Nat} {b : Nat} (h : d.leastBaler bs = some b) : b ∈ bs := by
  refine (mem_of_foldl_choose (fun x a => ?_) bs none h).resolve_right (by simp)
  cases x with
  | none => exact .inl rfl
  | some y =>
    dsimp only
    split
    · exact .inl rfl
    · exact .inr rfl

/-- A job is dispatched only to a baler that is enabled and free of fault (R26). -/
theorem Dev.balPick_avail {q b : Nat} {cls : JobClass} (h : d.balPick q cls = some b) : d.balAvail b = true := by
  unfold Dev.balPick at h
  dsimp only at h
  split at h
  · rename_i c hc
    cases h
    have hmem := (List.mem_filter.mp (Dev.leastBaler_mem hc)).1
    split at hmem
    · exact (List.mem_filter.mp hmem).2
    · exact (List.mem_filter.mp hmem).2
  · exact (List.mem_filter.mp (List.mem_filter.mp (Dev.leastBaler_mem h)).1).2

/-! ### BALER_JOB_WAIT_DISPATCH (R198) -/

/-- The job that goes next waits, and a baler can take it. -/
theorem Dev.nextWaiting_waits {j : BalJob} {b : Nat} : ∀ {l : List BalJob} {seen : List Nat}, d.nextWaiting seen l = some (j, b) →
    j ∈ l ∧ j.baler = none ∧ d.balPick j.q j.cls = some b
  | [], _, h => nomatch h
  | k :: l, seen, h => by
    have hlater {seen : List Nat} (h : d.nextWaiting seen l = some (j, b)) :
        j ∈ k :: l ∧ j.baler = none ∧ d.balPick j.q j.cls = some b :=
      (Dev.nextWaiting_waits h).imp_left (List.mem_cons_of_mem k)
    rw [Dev.nextWaiting] at h
    split at h
    · exact hlater h
    · rename_i hwaits
      split at h
      · exact hlater h
      · split at h
        · rename_i c hpick
          cases h
          exact ⟨List.mem_cons_self, by simpa using hwaits, hpick⟩
        · exact hlater h

theorem Dev.jobDispatch_of_none (h : d.nextWaiting [] d.bal.jobs = none) : d.jobDispatch = d := by rw [Dev.jobDispatch, h]

theorem Dev.jobDispatch_of_some {j : BalJob} {b : Nat} (h : d.nextWaiting [] d.bal.jobs = some (j, b)) :
    d.jobDispatch = d.modBal fun y => { y with jobs := y.jobs.filter (·.id != j.id) ++ [{ j with baler := some b }] } := by
  rw [Dev.jobDispatch, h]

end

/-! ### BALER_JOB_START (R198) -/

section
variable {d : Dev} {b : Nat}

/-- Jobs that were dispatched to a baler. -/
def Dev.jobsOn (d : Dev) (b : Nat) : List BalJob := d.bal.jobs.filter fun j => j.baler == some b

/-- Jobs of a baler that it has started. -/
def Dev.runningOn (d : Dev) (b : Nat) : List BalJob := (d.jobsOn b).filter (·.started)

/-- Jobs that a baler may start next to those that it runs: beside a compression only decodes. -/
def Dev.readyOn (d : Dev) (b : Nat) : List BalJob :=
  (d.jobsOn b).filter fun j => !j.started && ((d.runningOn b).isEmpty || j.cls != .compression)

/-- A job has started on a baler. -/
def Dev.jobStarted (d : Dev) (b : Nat) (j : BalJob) : Dev :=
  ((d.modBal fun x => { x with jobs := x.jobs.map fun y => if y.id = j.id then { y with started := true } else y }).count
    .balJob b j.cls.rank).count .balIn b 0 (j.bytes.length / 64)

theorem Dev.jobStart_eq : d.jobStart b =
    if d.balFaulted b || (d.runningOn b).any fun j => j.cls != .compression then d
    else match firstJob (d.readyOn b) with
      | none => d
      | some j => d.jobStarted b j := rfl

/-- A baler that can start no job. -/
def Dev.startsNone (d : Dev) (b : Nat) : Prop :=
  d.balFaulted b = true ∨ (∃ j ∈ d.runningOn b, j.cls ≠ .compression) ∨ d.readyOn b = []

theorem Dev.jobStart_of_startsNone (h : d.startsNone b) : d.jobStart b = d := by
  rw [Dev.jobStart_eq]
  split
  · rfl
  · rename_i hfree
    rw [Bool.or_eq_true, List.any_eq_true] at hfree
    obtain ⟨hfault, hdecode⟩ := not_or.mp hfree
    rcases h with h | ⟨j, hj, hcls⟩ | h
    · exact absurd h hfault
    · exact absurd ⟨j, hj, bne_iff_ne.mpr hcls⟩ hdecode
    · rw [h]
      rfl

theorem Dev.jobStart_starts (h : ¬ d.startsNone b) :
    ∃ j ∈ d.readyOn b, (∀ k ∈ d.readyOn b, j.cls.rank ≤ k.cls.rank) ∧ d.jobStart b = d.jobStarted b j := by
  obtain ⟨hfault, hrest⟩ := not_or.mp h
  obtain ⟨hdecode, hready⟩ := not_or.mp hrest
  have hfree : ¬ (d.balFaulted b || (d.runningOn b).any fun j => j.cls != .compression) = true := by
    rw [Bool.or_eq_true, List.any_eq_true]
    rintro (hf | ⟨j, hj, hcls⟩)
    · exact hfault hf
    · exact hdecode ⟨j, hj, bne_iff_ne.mp hcls⟩
  obtain ⟨y, l, hcons⟩ := List.exists_cons_of_ne_nil hready
  rw [Dev.jobStart_eq, if_neg hfree, hcons]
  obtain ⟨j, hj, hfirst, hleast⟩ := firstJob_cons y l
  exact ⟨j, hj, hleast, by rw [hfirst]⟩

end

/-! ### BALER_JOB_COMPLETE (R192, R193) -/

/-- The lines that a decode of one swath comes to: poisoned where it fails (R193). -/
def BalJob.swathLines (j : BalJob) (s : Nat) : List (Line × Bool) :=
  match decodeSwath j.bytes j.poison j.scnt s with
  | .ok lines => lines.map fun x => (BitVec.ofNat 512 x, false)
  | .error _ => List.replicate 16 (0, true)

section
variable {d : Dev} {j : BalJob} {b : Nat}

theorem BalJob.swathLines_of_ok {x : List Nat} {s : Nat} (h : decodeSwath j.bytes j.poison j.scnt s = .ok x) :
    j.swathLines s = x.map fun v => (BitVec.ofNat 512 v, false) := by rw [BalJob.swathLines, h]

theorem BalJob.swathLines_of_error {e s : Nat} (h : decodeSwath j.bytes j.poison j.scnt s = .error e) :
    j.swathLines s = List.replicate 16 (0, true) := by rw [BalJob.swathLines, h]

theorem Dev.decodeOne_lines (s : Nat) : (d.decodeOne j b s).2 = j.swathLines s := by
  cases h : decodeSwath j.bytes j.poison j.scnt s with
  | ok x => rw [BalJob.swathLines_of_ok h, Dev.decodeOne, h]
  | error e => rw [BalJob.swathLines_of_error h, Dev.decodeOne, h]

/-- A decode that fails is counted and recorded; the jobs and the registers stay. -/
theorem Dev.decodeOne_bal (s : Nat) : (d.decodeOne j b s).1.bal = d.bal := by
  unfold Dev.decodeOne
  split
  · rfl
  · exact (Dev.raiseLimited_bal _ _ _).trans (d.count_bal _ _ _ _)

theorem Dev.decodeOne_regs (s : Nat) : (d.decodeOne j b s).1.regs = d.regs := by
  unfold Dev.decodeOne
  split
  · rfl
  · exact (Dev.raiseLimited_regs _ _ _).trans (d.count_regs _ _ _ _)

/-- A step of a promotion decode of which `n` swaths are decoded. -/
def decodeGo (j : BalJob) (b n : Nat) (p : Dev × List (Line × Bool)) (s : Nat) : Dev × List (Line × Bool) :=
  if s < n then ((p.1.decodeOne j b s).1, p.2 ++ (p.1.decodeOne j b s).2) else (p.1, p.2 ++ List.replicate 16 (0, true))

theorem Dev.decodeSwaths_eq (n : Nat) : d.decodeSwaths j b n = (List.range 4).foldl (decodeGo j b n) (d, []) := rfl

theorem Dev.decodeSwaths_bal (n : Nat) : (d.decodeSwaths j b n).1.bal = d.bal := by
  rw [Dev.decodeSwaths_eq]
  refine foldl_keeps (fun p : Dev × List (Line × Bool) => p.1.bal) (fun p s => ?_) _ (d, [])
  unfold decodeGo
  split
  · exact Dev.decodeOne_bal s
  · rfl

theorem Dev.decodeSwaths_regs (n : Nat) : (d.decodeSwaths j b n).1.regs = d.regs := by
  rw [Dev.decodeSwaths_eq]
  refine foldl_keeps (fun p : Dev × List (Line × Bool) => p.1.regs) (fun p s => ?_) _ (d, [])
  unfold decodeGo
  split
  · exact Dev.decodeOne_regs s
  · rfl

/-- A promotion decode of all swaths gives their lines one after another. -/
theorem Dev.decodeSwaths_lines : (d.decodeSwaths j b 4).2 = (List.range 4).flatMap j.swathLines := by
  have hgo (l : List Nat) (hl : ∀ s ∈ l, s < 4) (p : Dev × List (Line × Bool)) :
      (l.foldl (decodeGo j b 4) p).2 = p.2 ++ l.flatMap j.swathLines := by
    induction l generalizing p with
    | nil => exact (List.append_nil _).symm
    | cons s l ih =>
      rw [List.foldl_cons, ih (fun s hs => hl s (List.mem_cons_of_mem _ hs)), decodeGo, if_pos (hl s List.mem_cons_self),
        Dev.decodeOne_lines, List.flatMap_cons, List.append_assoc]
  rw [Dev.decodeSwaths_eq, hgo _ fun s hs => List.mem_range.mp hs, List.nil_append]

/-- Behind `k` swaths of 16 lines stand the lines of swath `k`. -/
theorem getElem?_flatMap_swath {α : Type} {f : Nat → List α} {n k i : Nat} (hk : k < n) (hbefore : ∀ m < k, (f m).length = 16)
    (hi : i < (f k).length) : ((List.range n).flatMap f)[16 * k + i]? = (f k)[i]? := by
  obtain ⟨r, rfl⟩ := Nat.exists_eq_add_of_le hk
  have hlen : ((List.range k).flatMap f).length = 16 * k := by
    rw [List.length_flatMap, List.map_congr_left fun m hm => hbefore m (List.mem_range.mp hm), List.map_const', List.length_range,
      List.sum_replicate, smul_eq_mul, Nat.mul_comm]
  rw [List.range_add, List.range_succ, List.flatMap_append, List.flatMap_append, List.flatMap_singleton,
    List.getElem?_append_left (by simp [hlen, hi]), List.getElem?_append_right (by omega), hlen, Nat.add_sub_cancel_left]

/-- What a compression makes of its page (R194 to R196). -/
def BalJob.formed (j : BalJob) : Option PageForm :=
  compressPage ((List.range 64).map fun i => ofBytes ((j.bytes.drop (64 * i)).take 64)) j.cpol j.thresh j.budget j.pgc j.low

/-- What a job returns: the decoded line of a read, the lines of a promotion, a compressed page or the failure of its budget. -/
def BalJob.result (j : BalJob) : JobRes :=
  match j.cls with
  | .readDecode => .lines [(j.swathLines (j.line / 16)).getD (j.line % 16) (0, true)]
  | .promoDecode => .lines ((List.range 4).flatMap j.swathLines)
  | .compression =>
    match j.formed with
    | some f => .form f.bytes f.scnt f.tsel f.pgc
    | none => .failed 0

theorem Dev.countForms_keeps (recoded : Bool) (fs : List SwathForm) :
    (d.countForms b recoded fs).bal = d.bal ∧ (d.countForms b recoded fs).regs = d.regs := by
  have hbal (e : Dev) (x : SwathForm) : (if x.stab = 7 then e.count .storedSwath b else e.count .tableSwath b x.stab).bal = e.bal := by
    split <;> rfl
  have hregs (e : Dev) (x : SwathForm) : (if x.stab = 7 then e.count .storedSwath b else e.count .tableSwath b x.stab).regs = e.regs := by
    split <;> rfl
  unfold Dev.countForms
  cases recoded
  · exact ⟨foldl_keeps Dev.bal hbal _ _, foldl_keeps Dev.regs hregs _ _⟩
  · exact ⟨foldl_keeps Dev.bal hbal _ _, foldl_keeps Dev.regs hregs _ _⟩

theorem Dev.jobComplete_of_none (h : d.jobNow b = none) : d.jobComplete b = d := by rw [Dev.jobComplete, h]

/-- The job in progress ends with its result; beside it only counters and records change. -/
theorem Dev.jobComplete_ends (h : d.jobNow b = some j) :
    ∃ e : Dev, d.jobComplete b = e.endJob j j.result ∧ e.bal = d.bal ∧ e.regs = d.regs := by
  unfold Dev.jobComplete BalJob.result
  rw [h]
  dsimp only
  cases j.cls with
  | readDecode =>
    refine ⟨(d.decodeOne j b (j.line / 16)).1.count .balOut b 0 16, ?_, Dev.decodeOne_bal _, Dev.decodeOne_regs _⟩
    rw [← Dev.decodeOne_lines (d := d) (b := b)]
  | promoDecode =>
    refine ⟨(d.decodeSwaths j b 4).1.count .balOut b 0 64, ?_, Dev.decodeSwaths_bal _, Dev.decodeSwaths_regs _⟩
    rw [← Dev.decodeSwaths_lines (d := d) (b := b)]
  | compression =>
    dsimp only
    cases hf : j.formed with
    | some f =>
      rw [BalJob.formed] at hf
      rw [hf]
      exact ⟨_, rfl, Dev.countForms_keeps _ _⟩
    | none =>
      rw [BalJob.formed] at hf
      rw [hf]
      refine ⟨_, rfl, ?_, ?_⟩
      · exact (Dev.count_bal _ _ _ _ _).trans (by split <;> rfl)
      · exact (Dev.count_regs _ _ _ _ _).trans (by split <;> rfl)

theorem BalJob.result_readDecode (hcls : j.cls = .readDecode) : ∃ l, j.result = .lines [l] ∧
    ∀ x, decodeSwath j.bytes j.poison j.scnt (j.line / 16) = .ok x → j.line % 16 < x.length →
      ∃ v, x[j.line % 16]? = some v ∧ l = (BitVec.ofNat 512 v, false) := by
  refine ⟨_, by rw [BalJob.result, hcls], fun x hx hlt => ⟨x[j.line % 16], List.getElem?_eq_getElem hlt, ?_⟩⟩
  rw [BalJob.swathLines_of_ok hx, List.getD_eq_getElem _ _ (by rwa [List.length_map]), List.getElem_map]

/-- The lines of a swath that fails are poisoned, and stand behind those of the swaths before it. -/
theorem BalJob.result_promoDecode (hcls : j.cls = .promoDecode) : ∃ ls, j.result = .lines ls ∧
    ∀ k < 4, ∀ e, decodeSwath j.bytes j.poison j.scnt k = .error e →
      (∀ m < 4, m < k → ∃ x, decodeSwath j.bytes j.poison j.scnt m = .ok x ∧ x.length = 16) →
      ∀ i < 16, ls[16 * k + i]? = some (0, true) := by
  refine ⟨_, by rw [BalJob.result, hcls], fun k hk e he hbefore i hi => ?_⟩
  have hlines := BalJob.swathLines_of_error he
  rw [getElem?_flatMap_swath hk (fun m hm => ?_) (by rw [hlines]; simpa using hi), hlines, List.getElem?_replicate, if_pos hi]
  obtain ⟨x, hx, hlen⟩ := hbefore m (hm.trans hk) hm
  rw [BalJob.swathLines_of_ok hx, List.length_map, hlen]

theorem BalJob.result_compression (hcls : j.cls = .compression) {f : PageForm} (hf : j.formed = some f) :
    j.result = .form f.bytes f.scnt f.tsel f.pgc := by
  simp only [BalJob.result, hcls, hf]

end

/-! ### BALER_FAULT (R199) -/

section
variable {d : Dev} {b : Nat}

/-- A job of a baler that has faulted after `n` swaths of the job `now`. -/
def BalJob.faulted (now : Option Nat) (n : Nat) (j : BalJob) : BalJob :=
  if now = some j.id then { j with swaths := max j.swaths n } else j

/-- The jobs of a baler when it faults. -/
def Dev.jobsFaulted (d : Dev) (b n : Nat) : List BalJob := (d.jobsOn b).map (BalJob.faulted ((d.jobNow b).map (·.id)) n)

/-- A job of a faulted baler is raised again; or it was raised again before, or is a compression. -/
def BalJob.again (j : BalJob) : Bool := !j.reissued && j.cls != .compression

/-- What becomes of a job of a faulted baler. -/
def Dev.jobFaulted (b : Nat) (d : Dev) (j : BalJob) : Dev :=
  if j.again then
    (d.modBal fun x => { x with jobs := x.jobs.filter (·.id != j.id) }).raiseJob { j with reissued := true, started := false }
  else match j.cls with
    | .readDecode => d.endJob j (.lines [(0, true)])
    | .promoDecode => (d.decodeSwaths j b j.swaths).1.endJob j (.lines (d.decodeSwaths j b j.swaths).2)
    | .compression => (d.count .balFail b 1).endJob j (.failed 1)

/-- The device after all jobs of a baler that faults have been dealt with. -/
def Dev.balerCleared (d : Dev) (b n : Nat) : Dev :=
  ((d.jobsFaulted b n).foldl (Dev.jobFaulted b) (d.setBit .balFault b true)).raise (vendorRec 0x0302 .failure (0x600 + b)
    (b + (d.jobsFaulted b n).length * 2 ^ 8 + ((d.jobsFaulted b n).filter BalJob.again).length * 2 ^ 16))

theorem Dev.balerFault_eq (n : Nat) : d.balerFault b n =
    if !(d.jobsFaulted b n).any (·.started) || d.balFaulted b then d
    else if (d.balerCleared b n).balCount = 0 then
      ((d.balerCleared b n).bal.jobs.filter fun j => j.baler.isNone).foldl Dev.unserved (d.balerCleared b n)
    else d.balerCleared b n := rfl

@[simp] theorem BalJob.faulted_id (now : Option Nat) (n : Nat) (j : BalJob) : (j.faulted now n).id = j.id := by
  unfold BalJob.faulted
  split <;> rfl

@[simp] theorem BalJob.faulted_started (now : Option Nat) (n : Nat) (j : BalJob) : (j.faulted now n).started = j.started := by
  unfold BalJob.faulted
  split <;> rfl

theorem Dev.jobsFaulted_any_started (n : Nat) :
    (d.jobsFaulted b n).any (·.started) = true ↔ ∃ j ∈ d.bal.jobs, j.baler = some b ∧ j.started = true := by
  simp [Dev.jobsFaulted, Dev.jobsOn]

/-- A job that ends leaves the list; so does one that no baler can run. -/
theorem Dev.mem_endJob {j x : BalJob} {r : JobRes} : x ∈ (d.endJob j r).bal.jobs ↔ x ∈ d.bal.jobs ∧ x.id ≠ j.id := by
  simp [Dev.endJob, Dev.modBal]

theorem Dev.mem_of_unserved {j x : BalJob} (h : x ∈ (d.unserved j).bal.jobs) : x ∈ d.bal.jobs := by
  unfold Dev.unserved at h
  split at h
  · exact (Dev.mem_endJob.mp h).1
  · exact (Dev.mem_endJob.mp h).1
  · exact h

theorem Dev.unserved_regs (j : BalJob) : (d.unserved j).regs = d.regs := by
  unfold Dev.unserved
  split <;> rfl

/-- A job as it is raised: it waits behind those of its unit, or is dispatched at once (R198). -/
def Dev.jobQueued (d : Dev) (j : BalJob) : BalJob :=
  { j with id := d.bal.nextJob,
           baler := if d.bal.jobs.any fun x => x.baler.isNone && x.unit == j.unit then none else d.balPick j.q j.cls }

/-- The job stands behind all others. -/
def Dev.jobJoined (d : Dev) (j : BalJob) : Dev :=
  d.modBal fun b => { b with jobs := b.jobs ++ [d.jobQueued j], nextJob := b.nextJob + 1 }

theorem Dev.raiseJob_eq (j : BalJob) : d.raiseJob j =
    if (d.jobJoined j).balCount = 0 then (d.jobJoined j).unserved (d.jobQueued j) else d.jobJoined j := rfl

theorem Dev.raiseJob_regs (j : BalJob) : (d.raiseJob j).regs = d.regs := by
  rw [Dev.raiseJob, apply_ite Dev.regs, Dev.unserved_regs, ite_self, Dev.modBal_regs]

/-- A job that is raised goes to no faulted baler. -/
theorem Dev.mem_of_raiseJob {j x : BalJob} (hfault : d.balFaulted b = true) (h : x ∈ (d.raiseJob j).bal.jobs) (hx : x.baler = some b) :
    x ∈ d.bal.jobs := by
  have hpick (k : BalJob) : d.balPick k.q k.cls ≠ some b := fun hk => by
    have havail := Dev.balPick_avail hk
    rw [Dev.balAvail, hfault, Bool.not_true, Bool.and_false] at havail
    exact Bool.false_ne_true havail
  have hjoined (h : x ∈ (d.jobJoined j).bal.jobs) : x ∈ d.bal.jobs := by
    rcases List.mem_append.mp h with h | h
    · exact h
    · rw [List.mem_singleton.mp h, Dev.jobQueued] at hx
      dsimp only at hx
      split at hx
      · cases hx
      · exact absurd hx (hpick j)
  rw [Dev.raiseJob_eq] at h
  split at h
  · exact hjoined (Dev.mem_of_unserved h)
  · exact hjoined h

theorem Dev.jobFaulted_regs (j : BalJob) : (d.jobFaulted b j).regs = d.regs := by
  unfold Dev.jobFaulted
  split
  · exact Dev.raiseJob_regs _
  · split
    · rfl
    · exact Dev.decodeSwaths_regs _
    · rfl

/-- Of a faulted baler's jobs, one that has been dealt with is no longer there, and none has come. -/
theorem Dev.mem_of_jobFaulted {j x : BalJob} (hfault : d.balFaulted b = true) (h : x ∈ (d.jobFaulted b j).bal.jobs)
    (hx : x.baler = some b) : x ∈ d.bal.jobs ∧ x.id ≠ j.id := by
  unfold Dev.jobFaulted at h
  split at h
  · simpa [Dev.modBal] using Dev.mem_of_raiseJob (d := d.modBal _) hfault h hx
  · split at h
    · exact Dev.mem_endJob.mp h
    · have hmem := Dev.mem_endJob.mp h
      rwa [Dev.decodeSwaths_bal] at hmem
    · exact Dev.mem_endJob.mp h

theorem Dev.foldl_jobFaulted_regs (l : List BalJob) (d : Dev) : (l.foldl (Dev.jobFaulted b) d).regs = d.regs :=
  foldl_keeps Dev.regs (fun _ _ => Dev.jobFaulted_regs _) l d

theorem Dev.balFaulted_of_regs_eq {e : Dev} (h : e.regs = d.regs) (k : Nat) : e.balFaulted k = d.balFaulted k :=
  congrArg (fun m : RegFile => bitOf (m.get .balFault) k) h

theorem Dev.mem_of_foldl_jobFaulted {x : BalJob} (hx : x.baler = some b) : ∀ (l : List BalJob) (d : Dev), d.balFaulted b = true →
    x ∈ (l.foldl (Dev.jobFaulted b) d).bal.jobs → x ∈ d.bal.jobs ∧ ∀ j ∈ l, x.id ≠ j.id
  | [], _, _, h => ⟨h, by simp⟩
  | j :: l, d, hfault, h => by
    obtain ⟨hmem, hrest⟩ := Dev.mem_of_foldl_jobFaulted hx l (d.jobFaulted b j)
      ((Dev.balFaulted_of_regs_eq (Dev.jobFaulted_regs j) b).trans hfault) h
    obtain ⟨hold, hne⟩ := Dev.mem_of_jobFaulted hfault hmem hx
    exact ⟨hold, List.forall_mem_cons.mpr ⟨hne, hrest⟩⟩

theorem Dev.balerCleared_regs (n : Nat) : (d.balerCleared b n).regs = (d.setBit .balFault b true).regs := by
  rw [Dev.balerCleared, Dev.raise_regs, Dev.foldl_jobFaulted_regs]

/-- No job is left on a baler that has faulted. -/
theorem Dev.balerCleared_jobs (hb : b < 32) (n : Nat) : ∀ j ∈ (d.balerCleared b n).bal.jobs, j.baler ≠ some b := by
  intro x hmem hx
  have hfault : (d.setBit .balFault b true).balFaulted b = true := d.bitOf_setBit_self .balFault (by omega) true
  rw [Dev.balerCleared, Dev.raise_bal] at hmem
  obtain ⟨hold, hgone⟩ := Dev.mem_of_foldl_jobFaulted hx _ _ hfault hmem
  have hon : x ∈ d.jobsOn b := List.mem_filter.mpr ⟨hold, beq_iff_eq.mpr hx⟩
  exact hgone _ (List.mem_map_of_mem hon) (BalJob.faulted_id _ _ x).symm

theorem Dev.balerFault_of_idle (n : Nat) (h : ¬ (∃ j ∈ d.bal.jobs, j.baler = some b ∧ j.started = true) ∨ d.balFaulted b = true) :
    d.balerFault b n = d := by
  rw [Dev.balerFault_eq, if_pos]
  rw [← Dev.jobsFaulted_any_started n] at h
  simpa using h

theorem Dev.balerFault_faults (hb : b < 32) (n : Nat) (hruns : ∃ j ∈ d.bal.jobs, j.baler = some b ∧ j.started = true)
    (hfault : d.balFaulted b = false) : (d.balerFault b n).balFaulted b = true ∧ d.keepsRegs (d.balerFault b n) [.balFault] ∧
      ∀ j ∈ (d.balerFault b n).bal.jobs, j.baler ≠ some b := by
  have hgo : ¬ (!(d.jobsFaulted b n).any (·.started) || d.balFaulted b) = true := by
    rw [(Dev.jobsFaulted_any_started n).mpr hruns, hfault]
    decide
  have hregs : (d.balerFault b n).regs = (d.setBit .balFault b true).regs := by
    rw [Dev.balerFault_eq, if_neg hgo, ← Dev.balerCleared_regs n]
    split
    · exact foldl_keeps Dev.regs (fun _ _ => Dev.unserved_regs _) _ _
    · rfl
  refine ⟨?_, ((d.keepsRegs_refl _).setBit (List.mem_singleton_self _) b true).regs_eq hregs, ?_⟩
  · exact (Dev.balFaulted_of_regs_eq hregs b).trans (d.bitOf_setBit_self .balFault (by omega) true)
  · rw [Dev.balerFault_eq, if_neg hgo]
    split
    · exact List.foldlRecOn (motive := fun e : Dev => ∀ j ∈ e.bal.jobs, j.baler ≠ some b) _ _ (Dev.balerCleared_jobs hb n)
        fun _ he _ _ x hx => he x (Dev.mem_of_unserved hx)
    · exact Dev.balerCleared_jobs hb n

/-! ### BALER_RESET (R199) and BAL_EN_WRITE (R201) -/

theorem Dev.balerReset_clears (hb : b < 32) : (d.balerReset b).balFaulted b = false ∧ d.keepsRegs (d.balerReset b) [.balFault] ∧
    (d.balerReset b).bal = d.bal ∧ ∀ k < 32, k ≠ b → (d.balerReset b).balFaulted k = d.balFaulted k := by
  rw [Dev.balerReset, if_pos hb]
  refine ⟨d.bitOf_setBit_self .balFault (by omega) false, (d.keepsRegs_refl _).setBit (List.mem_singleton_self _) b false, rfl, ?_⟩
  exact fun k hk hkb => d.bitOf_setBit_bit .balFault (Ne.symm hkb) (by omega) false

theorem balersLeft_iff {v : Nat} : ((List.range 32).any fun k => bitOf v k && !d.balFaulted k) = true ↔
    ∃ k < 32, bitOf v k = true ∧ d.balFaulted k = false := by
  simp

theorem Dev.balEnWrite_enables {v : Nat} (hv : v < 2 ^ 32) (h : ∃ k < 32, bitOf v k = true ∧ d.balFaulted k = false) :
    (d.balEnWrite v).rd .balEn = v ∧ d.keepsRegs (d.balEnWrite v) [.balEn] ∧ (d.balEnWrite v).bal = d.bal := by
  rw [Dev.balEnWrite, if_pos (balersLeft_iff.mpr h)]
  refine ⟨?_, d.keepsRegs_wr _ _, rfl⟩
  rw [Dev.rd_wr_self, Nat.mod_eq_of_lt hv, Nat.mod_eq_of_lt (by omega)]

theorem Dev.balEnWrite_refused {v : Nat} (h : ¬ ∃ k < 32, bitOf v k = true ∧ d.balFaulted k = false) :
    (d.balEnWrite v).flag .balStat F.balStat_ERR = true ∧ d.keepsRegs (d.balEnWrite v) [.balStat] := by
  rw [Dev.balEnWrite, if_neg (fun hany => h (balersLeft_iff.mp hany))]
  exact ⟨d.flag_setFlag_self _ true (by decide) (by decide), (d.keepsRegs_refl _).setFlag (List.mem_singleton_self _) _ true⟩

end

end Sys2Proof.Machine
end

section
/-! SUPPORT. Events of the cipher units (R215, R220, R223, R228, R257): merges of counter lines, re-encryptions, the end of an erase sweep,
and what a channel returns, by what they find. -/

namespace Sys2Proof.Machine

/-! ### COUNTER_LINE_MERGE (R215) -/

section
variable {d : Dev} {m : Dram}

theorem Dev.counterMerge_of_none (h : d.cip.merges = []) : d.counterMerge m = d := by rw [Dev.counterMerge, h]

/-- A copy that was written back has left the list of those. -/
def Dev.mergeTaken (d : Dev) (x : CtrCopy) (rest : List CtrCopy) : Dev :=
  (d.modCip fun y => { y with merges := rest }).count .ctrMerge x.q

theorem Dev.counterMerge_of_stored {x : CtrCopy} {rest : List CtrCopy} {c : Ctr} (h : d.cip.merges = x :: rest)
    (hc : (d.mergeTaken x rest).storedCtr m x.frame = .ok c) :
    d.counterMerge m = ((d.mergeTaken x rest).noteCtr m x.frame).writeCtr x.frame (x.over c) := by
  rw [Dev.mergeTaken] at hc ⊢
  simp only [Dev.counterMerge, h, hc]

/-! ### REENCRYPTION_ENTRY_FREE and REENCRYPTION_COMPLETE (R223) -/

section
variable {q : Nat}

theorem Dev.reencResume_of_idle (h : 16 ≤ d.reencUsed q ∨
    (d.cip.accs.find? fun a => a.parked && d.frameOwner (a.sa / 4096) == q) = none) : d.reencResume q = d := by
  unfold Dev.reencResume
  split
  · rfl
  · rename_i hroom
    rw [h.resolve_left hroom]

theorem Dev.reencResume_of_parked {a : Access} (hroom : d.reencUsed q < 16)
    (h : (d.cip.accs.find? fun a => a.parked && d.frameOwner (a.sa / 4096) == q) = some a) :
    d.reencResume q = d.modAcc a.id fun x => { x with parked := false } := by
  rw [Dev.reencResume, if_neg (not_le.mpr hroom), h]

end

section
variable {frame : Nat}

/-- The lines of a frame that its re-encryption has not done are rewritten. -/
def Dev.reencRewritten (m : Dram) (d : Dev) (r : ReEnc) : Dev :=
  ((List.range 64).filter fun i => !r.done.getLsbD i).foldl (fun d i => d.reencLine m r i) d

theorem StorageBlind.reencRewritten {γ : Type} {p : Dev → γ} (h : StorageBlind p) (d : Dev) (r : ReEnc) :
    p (d.reencRewritten m r) = p d := foldl_keeps p (fun e i => h.reencLine e m r i) _ d

theorem Dev.reencComplete_of_none (h : d.reencOf frame = none) : d.reencComplete m frame = d := by rw [Dev.reencComplete, h]

theorem Dev.reencComplete_of_some {r : ReEnc} (h : d.reencOf frame = some r) :
    d.reencComplete m frame = (d.reencRewritten m r).reencEnd frame := by
  rw [Dev.reencComplete, h]
  rfl

theorem Dev.reencs_reencEnd : (d.reencEnd frame).cip.reencs = d.cip.reencs.filter (·.frame != frame) :=
  storageBlind_reencs.unhold _ frame

theorem Dev.reencOf_reencEnd_self : (d.reencEnd frame).reencOf frame = none := by
  rw [Dev.reencOf, Dev.reencs_reencEnd, List.find?_filter, List.find?_eq_none]
  simp

theorem Dev.reencOf_reencEnd_other {f : Nat} (h : f ≠ frame) : (d.reencEnd frame).reencOf f = d.reencOf f := by
  rw [Dev.reencOf, Dev.reencs_reencEnd, List.find?_filter, Dev.reencOf]
  congr 1
  funext r
  by_cases hr : r.frame = f <;> simp [hr, h]

/-- A re-encryption that completes frees its entry and leaves those of other frames. -/
theorem Dev.reencComplete_frees {r : ReEnc} (h : d.reencOf frame = some r) : (d.reencComplete m frame).reencOf frame = none ∧
    (∀ f, f ≠ frame → (d.reencComplete m frame).reencOf f = d.reencOf f) ∧
    (d.reencComplete m frame).bal = d.bal ∧ (d.reencComplete m frame).ted = d.ted := by
  have htier : (d.reencComplete m frame).tierSide = d.tierSide := by
    rw [Dev.reencComplete_of_some h, Dev.reencEnd_tierSide, storageBlind_tierSide.reencRewritten]
  refine ⟨?_, fun f hf => ?_, Dev.bal_of_tierSide htier, Dev.ted_of_tierSide htier⟩
  · rw [Dev.reencComplete_of_some h, Dev.reencOf_reencEnd_self]
  · have hreencs : (d.reencRewritten m r).cip.reencs = d.cip.reencs := storageBlind_reencs.reencRewritten d r
    rw [Dev.reencComplete_of_some h, Dev.reencOf_reencEnd_other hf, Dev.reencOf, hreencs, Dev.reencOf]

end

end

/-! ### What the map's operations leave of the keys -/

section
variable (d : Dev)

theorem Dev.putMapLine_ldKey (ted sa : Nat) (x : Line) (tell : Bool) : (d.putMapLine ted sa x tell).cip.ldKey = d.cip.ldKey := by
  unfold Dev.putMapLine
  dsimp only
  split_ifs <;> rfl

theorem Dev.setPool_cip (f rc : Nat) : (d.setPool f rc).cip = d.cip := by
  unfold Dev.setPool
  split
  · rfl
  · obtain ⟨isLow, isRel, isFloor, h⟩ := ((d.wr .tedPoolFree f).wr .tedPoolResv rc).poolEval_keeps Dev.cip Dev.raise_cip
    rw [h, Dev.modTed_cip, Dev.modesSet, apply_ite Dev.cip, Dev.setFlag_cip, ite_self, Dev.setFlag_cip, Dev.setFlag_cip, Dev.setFlag_cip,
      Dev.wr_cip, Dev.wr_cip]

theorem Dev.freeFrame_ldKey (f : Nat) : (d.freeFrame f).cip.ldKey = d.cip.ldKey := by
  have hdropped : (d.frameDropped f).cip.ldKey = d.cip.ldKey := (apply_ite Cipher.ldKey _ _ _).trans (ite_self _)
  rw [Dev.freeFrame_eq]
  split
  · exact hdropped
  · rw [Dev.setPool_cip]
    exact hdropped

theorem Dev.freeSheafMap_ldKey (ted run : Nat) : (d.freeSheafMap ted run).cip.ldKey = d.cip.ldKey := by
  unfold Dev.freeSheafMap
  split
  · split
    · exact d.freeFrame_ldKey _
    · rfl
  · rfl

theorem Dev.sheavesDropped_ldKey (ted f s n : Nat) : (d.sheavesDropped ted f s n).cip.ldKey = d.cip.ldKey := by
  unfold Dev.sheavesDropped Dev.setSheafOcc
  split
  · rfl
  · exact d.putMapLine_ldKey _ _ _ _

theorem Dev.freeSheaves_ldKey (f s n : Nat) : (d.freeSheaves f s n).cip.ldKey = d.cip.ldKey := by
  rw [Dev.freeSheaves_eq]
  split
  · rename_i ted _
    have hdropped := d.sheavesDropped_ldKey ted f s n
    split
    · rw [Dev.freeSheafMap_ldKey, Dev.freeFrame_ldKey, hdropped]
    · split
      · exact hdropped
      · exact hdropped
  · rfl

theorem Dev.freePage_ldKey (x : Pme) : (d.freePage x).cip.ldKey = d.cip.ldKey := by
  unfold Dev.freePage
  split
  · exact d.freeFrame_ldKey _
  · split
    · exact d.freeSheaves_ldKey _ _ _
    · rfl

theorem Dev.putPme_ldKey (field page : Nat) (x : Pme) : (d.putPme field page x).cip.ldKey = d.cip.ldKey := by
  have haccount (e : Dev) (ds : Desc) (old : Pme) : (e.accountPme ds old x).cip = e.cip := by
    unfold Dev.accountPme
    split
    · rfl
    · exact e.setPool_cip _ _
  rw [Dev.putPme_eq, haccount]
  exact d.putMapLine_ldKey _ _ _ _

theorem Dev.keepsRegs_freePage (x : Pme) : d.keepsRegs (d.freePage x) poolRegs := by
  unfold Dev.freePage
  split
  · exact d.keepsRegs_freeFrame _
  · split
    · exact d.keepsRegs_freeSheaves _ _ _
    · exact d.keepsRegs_refl _

/-- The accounts of a page's entry are in registers below those of the cipher units. -/
theorem Dev.rd_putPme {q : Reg} (hq : 0x800000 ≤ q.offset) (field page : Nat) (x : Pme) : (d.putPme field page x).rd q = d.rd q := by
  refine d.keepsRegs_putPme field page x q fun r hr => ?_
  rcases List.mem_cons.mp hr with rfl | hr
  · have := d.desc_ld_lt field
    show 0x600600 + 0x10 * (d.desc field).ld ≠ q.offset
    omega
  · exact poolRegs_lt (by omega) r hr

theorem Dev.rd_freePage {q : Reg} (hq : 0x800000 ≤ q.offset) (x : Pme) : (d.freePage x).rd q = d.rd q :=
  d.keepsRegs_freePage x q (poolRegs_lt (by omega))

/-- A field made bare keeps what the entries of its pages and their storage keep. -/
theorem Dev.bareField_keeps {γ : Type} (p : Dev → γ) (hput : ∀ (e : Dev) field page x, p (e.putPme field page x) = p e)
    (hfree : ∀ (e : Dev) x, p (e.freePage x) = p e) (field : Nat) : p (d.bareField field) = p d := by
  unfold Dev.bareField
  dsimp only
  split
  · rfl
  · refine foldl_keeps p (fun e i => ?_) _ d
    split
    · rfl
    · rw [hfree, hput]

end

/-! ### ERASE_SWEEP_COMPLETE (R228) -/

section
variable {d : Dev} {m : Dram} {n : Nat}

/-- Fields of an enabled window. -/
def Dev.sweepFields (d : Dev) (n : Nat) : List Nat := if d.winEn n then List.range' (d.winBase n) (d.winFields n) else []

def Dev.sweepTiered (d : Dev) (n : Nat) : List Nat :=
  (d.sweepFields n).filter fun f => (d.desc f).v && (d.desc f).tiered && !(d.desc f).fpois

def Dev.sweepFlat (d : Dev) (n : Nat) : List Nat :=
  (d.sweepFields n).filter fun f => (d.desc f).v && !(d.desc f).tiered && !(d.desc f).fpois

/-- The fields of an LD's window as its erase sweep leaves them: the tiered ones bare, the frames of the flat ones erased. -/
def Dev.windowSwept (m : Dram) (d : Dev) (n : Nat) : Dev :=
  (d.sweepFlat n).foldl (fun d f => d.eraseFlatField m (d.desc f).base) ((d.sweepTiered n).foldl Dev.bareField d)

/-- A sweep is over: LD `n` has SWEEP clear and no key change that was not swept. -/
def Dev.sweepEnded (d : Dev) (n : Nat) : Dev :=
  (d.setFlag (.cipLdkey n) F.cipLdkey_SWEEP false).modCip fun c => { c with unswept := c.unswept.set n 0 }

theorem Dev.sweepEnded_hp : (d.sweepEnded n).hp = d.hp := by rw [Dev.sweepEnded, Dev.modCip_hp, Dev.setFlag_hp]
theorem Dev.sweepEnded_ted : (d.sweepEnded n).ted = d.ted := by rw [Dev.sweepEnded, Dev.modCip_ted, Dev.setFlag_ted]
theorem Dev.sweepEnded_ldKey : (d.sweepEnded n).cip.ldKey = d.cip.ldKey := rfl

theorem Dev.keepsRegs_sweepEnded : d.keepsRegs (d.sweepEnded n) [.cipLdkey n] :=
  ((d.keepsRegs_refl _).setFlag (List.mem_singleton_self _) F.cipLdkey_SWEEP false).regs_eq (Dev.modCip_regs _ _)

theorem Dev.eraseSweepDone_eq : d.eraseSweepDone m n =
    if !d.flag (.cipLdkey n) F.cipLdkey_SWEEP ||
        (d.winEn n && d.jobIn fun f => decide (d.winBase n ≤ f) && decide (f < d.winBase n + d.winFields n)) then d
    else ((d.windowSwept m n).sweepEnded n).raise { vendorRec 0x0403 .info 0x500
      (((d.windowSwept m n).sweepEnded n).ldKgen n + ((d.sweepTiered n).length % 2 ^ 32) * 2 ^ 32) with ld := n } := rfl

/-- A re-encryption runs in the enabled window of LD `n`: its sweep waits for it (log entry 132). -/
def Dev.sweepWaits (d : Dev) (n : Nat) : Prop :=
  d.winEn n = true ∧ (d.jobIn fun f => decide (d.winBase n ≤ f) && decide (f < d.winBase n + d.winFields n)) = true

theorem Dev.eraseSweepDone_of_idle (h : d.flag (.cipLdkey n) F.cipLdkey_SWEEP = false ∨ d.sweepWaits n) : d.eraseSweepDone m n = d := by
  rw [Dev.eraseSweepDone_eq, if_pos]
  rcases h with h | ⟨hwin, hjob⟩
  · rw [h]
    rfl
  · rw [hwin, hjob]
    exact Bool.or_true _

/-- A swept window keeps what the two kinds of its fields keep. -/
theorem Dev.windowSwept_keeps {γ : Type} (p : Dev → γ) (hbare : ∀ (e : Dev) f, p (e.bareField f) = p e)
    (hflat : ∀ (e : Dev) base, p (e.eraseFlatField m base) = p e) : p (d.windowSwept m n) = p d :=
  (foldl_keeps p (fun e _ => hflat e _) _ _).trans (foldl_keeps p (fun e _ => hbare e _) _ _)

theorem Dev.windowSwept_hp : (d.windowSwept m n).hp = d.hp :=
  Dev.windowSwept_keeps Dev.hp (fun e => e.bareField_keeps Dev.hp Dev.putPme_hp Dev.freePage_hp) fun e _ => e.eraseFlatField_hp m _

theorem Dev.windowSwept_ldKey : (d.windowSwept m n).cip.ldKey = d.cip.ldKey :=
  Dev.windowSwept_keeps (fun e => e.cip.ldKey) (fun e => e.bareField_keeps (fun e => e.cip.ldKey) Dev.putPme_ldKey Dev.freePage_ldKey)
    fun e _ => storageBlind_ldKey.eraseFlatField e (fun _ _ => rfl) m _

/-- The sweep of a window changes the register of no key. -/
theorem Dev.windowSwept_rd_cipLdkey {k : Nat} (hk : k < 16) : (d.windowSwept m n).rd (.cipLdkey k) = d.rd (.cipLdkey k) := by
  have hlo : 0x800000 ≤ (Reg.cipLdkey k).offset := by simp only [Reg.offset]; omega
  have hhi : (Reg.cipLdkey k).offset < 0x800040 := by simp only [Reg.offset]; omega
  exact Dev.windowSwept_keeps (fun e => e.rd (.cipLdkey k))
    (fun e => e.bareField_keeps (fun e => e.rd (.cipLdkey k)) (fun e => e.rd_putPme hlo) fun e => e.rd_freePage hlo)
    fun e _ => (storageBlind_rd hhi).eraseFlatField e (fun _ _ => rfl) m _

theorem Dev.windowSwept_of_disabled (h : d.winEn n = false) : d.windowSwept m n = d := by
  have hnone : d.sweepFields n = [] := by
    rw [Dev.sweepFields, h]
    rfl
  rw [Dev.windowSwept, Dev.sweepFlat, Dev.sweepTiered, hnone]
  rfl

/-- A sweep that ends clears SWEEP; the keys and the host ports stay, and without a window everything but that flag. -/
theorem Dev.eraseSweepDone_ends (hn : n < 16) (hsweep : d.flag (.cipLdkey n) F.cipLdkey_SWEEP = true) (hwaits : ¬ d.sweepWaits n) :
    (d.eraseSweepDone m n).flag (.cipLdkey n) F.cipLdkey_SWEEP = false ∧ (d.eraseSweepDone m n).ldKgen n = d.ldKgen n ∧
    (d.eraseSweepDone m n).hp = d.hp ∧ (d.eraseSweepDone m n).cip.ldKey = d.cip.ldKey ∧
    (d.winEn n = false → d.keepsRegs (d.eraseSweepDone m n) [.cipLdkey n] ∧ (d.eraseSweepDone m n).ted = d.ted) := by
  have hgo : ¬ (!d.flag (.cipLdkey n) F.cipLdkey_SWEEP ||
      (d.winEn n && d.jobIn fun f => decide (d.winBase n ≤ f) && decide (f < d.winBase n + d.winFields n))) = true := by
    rw [hsweep, Bool.not_true, Bool.false_or, Bool.and_eq_true]
    exact hwaits
  rw [Dev.eraseSweepDone_eq, if_neg hgo]
  refine ⟨?_, ?_, ?_, ?_, fun hwin => ⟨?_, ?_⟩⟩
  · rw [Dev.raise_flag, Dev.sweepEnded, Dev.modCip_flag, Dev.flag_setFlag_self _ _ false (by decide) (by decide)]
  · rw [Dev.ldKgen, Dev.raise_fld, Dev.sweepEnded, Dev.modCip_fld, Dev.fld_setFlag_field _ _ _ (by decide) (by decide) (by decide)]
    exact congrArg (fun v => bitsOf v F.cipLdkey_KGEN.hi F.cipLdkey_KGEN.lo) (Dev.windowSwept_rd_cipLdkey hn)
  · rw [Dev.raise_hp, Dev.sweepEnded_hp, Dev.windowSwept_hp]
  · rw [Dev.raise_cip, Dev.sweepEnded_ldKey, Dev.windowSwept_ldKey]
  · rw [Dev.windowSwept_of_disabled hwin]
    exact Dev.keepsRegs_sweepEnded.regs_eq (Dev.raise_regs _ _)
  · rw [Dev.raise_ted, Dev.sweepEnded_ted, Dev.windowSwept_of_disabled hwin]

end

/-! ### CHANNEL_READ_RETURN (R220) and WRITE_ACCEPTANCE (R257) -/

section
variable {d : Dev} {c : Nat} {rest : List ChRet}

/-- What a channel returns is a read, or the answer to one. -/
def ChRet.isRead : ChRet → Bool
  | .accepted _ => false
  | _ => true

/-- A channel's oldest return has been taken from it. -/
def Dev.retTaken (d : Dev) (c : Nat) (rest : List ChRet) : Dev := d.modChn c fun ch => { ch with rets := rest }

/-- What a return brings about: for an access of a cipher unit here, for a member's dealer there. -/
def Dev.retSettled (c : Nat) (r : ChRet) (d : Dev) : Dev :=
  match r with
  | .read (.acc id) o => d.readBack id o
  | .accepted (.acc id) => d.writeBack id
  | r => d.leyReturn c r

theorem Dev.takeRet_of_nil (h : (d.chn c).rets = []) (read : Bool) : d.takeRet c read = d := by rw [Dev.takeRet, h]

theorem Dev.takeRet_of_cons {r : ChRet} (h : (d.chn c).rets = r :: rest) (read : Bool) :
    d.takeRet c read = if r.isRead != read then d else Dev.retSettled c r (d.retTaken c rest) := by
  rw [Dev.takeRet, h]
  cases r <;> rfl

/-- A return is taken by the command for its kind. -/
theorem Dev.takeRet_same {r : ChRet} (h : (d.chn c).rets = r :: rest) :
    d.takeRet c r.isRead = Dev.retSettled c r (d.retTaken c rest) := by
  rw [Dev.takeRet_of_cons h, bne_self_eq_false]
  rfl

theorem Dev.takeRet_other {r : ChRet} (h : (d.chn c).rets = r :: rest) : d.takeRet c (!r.isRead) = d := by
  rw [Dev.takeRet_of_cons h, if_pos]
  cases r.isRead <;> rfl

/-- A return that no access of a cipher unit waits for goes to the member's dealer. -/
theorem Dev.retSettled_read {u : ChUse} (hu : ∀ id, u ≠ .acc id) (o : CwOut) :
    Dev.retSettled c (.read u o) d = d.leyReturn c (.read u o) := by
  cases u with
  | acc id => exact absurd rfl (hu id)
  | fire | scrub | copyRead | copyWrite | restore | ley => rfl

theorem Dev.retSettled_accepted {u : ChUse} (hu : ∀ id, u ≠ .acc id) :
    Dev.retSettled c (.accepted u) d = d.leyReturn c (.accepted u) := by
  cases u with
  | acc id => exact absurd rfl (hu id)
  | fire | scrub | copyRead | copyWrite | restore | ley => rfl

end

end Sys2Proof.Machine
end

section
/-! SUPPORT. The balers and the cipher units settled (O34). -/

namespace Sys2Proof.Machine

/-- Settles O34: each command of a baler, of a cipher unit and of a channel's returns by what it finds. -/
theorem balersAndCipher : Obligations.BalersAndCipher := by
  intro s b hup hb alone
  have hstart := exec_balerJobStart (b := b) (decide_eq_true hb) hup
  have hcomplete := exec_balerJobComplete (b := b) (decide_eq_true hb) hup
  refine ⟨fun hnone => ?_, fun j x hnext => ?_, ⟨fun hstuck => ?_, fun hfree => ?_⟩, fun hnone => ?_, fun j hnow => ?_, fun n hn => ?_,
    fun hreach => ?_, fun v hv hreach => ⟨fun hleft => ?_, fun hleft => ?_⟩, fun hnone => ?_, fun x rest c hmerges hstored => ?_,
    fun q hq => ⟨fun hidle => ?_, fun a hroom hparked => ?_⟩, fun frame hframe => ⟨fun hnone => ?_, fun r hr => ?_⟩,
    fun n hn => ⟨fun hidle => ?_, fun hsweep hbusy => ?_⟩, fun c hc => ?_⟩
  · exact exec_finish_of_eq (exec_balerJobWaitDispatch hup) (Dev.jobDispatch_of_none hnone)
  · obtain ⟨hmem, hwaits, hpick⟩ := Dev.nextWaiting_waits hnext
    exact ⟨hmem, hwaits, hpick, exec_finish_of_eq (exec_balerJobWaitDispatch hup) (Dev.jobDispatch_of_some hnext)⟩
  · exact exec_finish_of_eq hstart (Dev.jobStart_of_startsNone hstuck)
  · obtain ⟨j, hj, hleast, heq⟩ := Dev.jobStart_starts (d := s.dev) (b := b) hfree
    exact ⟨j, hj, hleast, _, exec_finish_of_eq hstart heq, rfl, rfl, rfl, rfl, rfl⟩
  · exact exec_finish_of_eq hcomplete (Dev.jobComplete_of_none hnone)
  · obtain ⟨e, heq, hbal, hregs⟩ := Dev.jobComplete_ends hnow
    refine ⟨_, j.result, exec_finish_of_eq hcomplete heq, ?_, ?_, hregs, BalJob.result_readDecode, BalJob.result_promoDecode,
      fun hcls f hf => BalJob.result_compression hcls hf⟩
    · exact congrArg (fun x : Balers => x.jobs.filter (·.id != j.id)) hbal
    · exact congrArg (fun x : Balers => x.done ++ [(j.why, j.result)]) hbal
  · have hfault := exec_balerFault (b := b) (n := n) (by simp [Instr.wf, hb, hn]) hup
    exact ⟨fun hidle => exec_finish_of_eq hfault (Dev.balerFault_of_idle n hidle),
      fun hruns hwell => ⟨_, hfault, Dev.balerFault_faults hb n hruns hwell⟩⟩
  · have hreset := exec_balerReset (b := b) (decide_eq_true hb) hup
    rw [Dev.viaReg_of_reaches hreach (by decide)] at hreset
    exact ⟨_, hreset, Dev.balerReset_clears hb⟩
  · have hwrite := exec_balEnWrite (v := v) (decide_eq_true hv) hup
    rw [Dev.viaReg_of_reaches hreach (by decide)] at hwrite
    exact ⟨_, hwrite, Dev.balEnWrite_enables hv hleft⟩
  · have hwrite := exec_balEnWrite (v := v) (decide_eq_true hv) hup
    rw [Dev.viaReg_of_reaches hreach (by decide)] at hwrite
    exact ⟨_, hwrite, Dev.balEnWrite_refused hleft⟩
  · exact exec_finish_of_eq (exec_counterLineMerge hup) (Dev.counterMerge_of_none hnone)
  · exact exec_finish_of_eq (exec_counterLineMerge hup) (Dev.counterMerge_of_stored hmerges hstored)
  · exact exec_finish_of_eq (exec_reencryptionEntryFree (decide_eq_true hq) hup) (Dev.reencResume_of_idle hidle)
  · exact exec_finish_of_eq (exec_reencryptionEntryFree (decide_eq_true hq) hup) (Dev.reencResume_of_parked hroom hparked)
  · exact exec_finish_of_eq (exec_reencryptionComplete (decide_eq_true hframe) hup) (Dev.reencComplete_of_none hnone)
  · exact ⟨_, exec_reencryptionComplete (decide_eq_true hframe) hup, Dev.reencComplete_frees hr⟩
  · exact exec_finish_of_eq (exec_eraseSweepComplete (decide_eq_true hn) hup) (Dev.eraseSweepDone_of_idle hidle)
  · exact ⟨_, exec_eraseSweepComplete (decide_eq_true hn) hup, Dev.eraseSweepDone_ends hn hsweep hbusy⟩
  · have hread := exec_channelReadReturn (c := c) (decide_eq_true hc) hup
    have haccept := exec_writeAcceptance (c := c) (decide_eq_true hc) hup
    refine ⟨fun id o rest h => ⟨?_, ?_⟩, fun id rest h => ⟨?_, ?_⟩, fun u o rest hu h => ⟨?_, ?_⟩, fun u rest hu h => ⟨?_, ?_⟩,
      fun u rest h => ⟨?_, ?_⟩, fun h => ⟨?_, ?_⟩⟩
    · exact exec_finish_of_eq hread (Dev.takeRet_same h)
    · exact exec_finish_of_eq haccept (Dev.takeRet_other h)
    · exact exec_finish_of_eq haccept (Dev.takeRet_same h)
    · exact exec_finish_of_eq hread (Dev.takeRet_other h)
    · exact exec_finish_of_eq hread ((Dev.takeRet_same h).trans (Dev.retSettled_read hu o))
    · exact exec_finish_of_eq haccept (Dev.takeRet_other h)
    · exact exec_finish_of_eq haccept ((Dev.takeRet_same h).trans (Dev.retSettled_accepted hu))
    · exact exec_finish_of_eq hread (Dev.takeRet_other h)
    · exact exec_finish_of_eq hread (Dev.takeRet_same h)
    · exact exec_finish_of_eq haccept (Dev.takeRet_other h)
    · exact exec_finish_of_eq hread (Dev.takeRet_of_nil h true)
    · exact exec_finish_of_eq haccept (Dev.takeRet_of_nil h false)

end Sys2Proof.Machine
end

section
/-! SUPPORT. Starts of ring commands (R318, R322, R323): the instruction of each opcode with what it does to a command that is started,
the start by what it finds, and the command that is taken out of prefetch memory. -/

namespace Sys2Proof.Machine

/-! ### One rule for the instructions of the ring commands -/

/-- The instruction that starts commands of an opcode. -/
def RingOp.instr : RingOp → Instr
  | .nop => .nop | .setHint => .setHint | .tierPolicy => .tierPolicy | .compPolicy => .compPolicy | .promote => .promote
  | .demote => .demote | .fill => .fill | .zero => .zero | .copy => .copy | .sanitize => .sanitize | .capQuery => .capQuery
  | .releaseAck => .releaseAck | .snapshot => .snapshot | .sampleCfg => .sampleCfg

/-- What becomes of a command that the checks of R318 let pass. -/
def RingOp.act : RingOp → RingCmd → Dev → Dev
  | .nop => fun c d => d.ringFinish c 0 0 0 0
  | .setHint => Dev.setHint
  | .tierPolicy => Dev.tierPolicy
  | .compPolicy => Dev.compPolicy
  | .promote => Dev.ringPromote
  | .demote => Dev.ringDemote
  | .capQuery => Dev.capQuery
  | .sampleCfg => Dev.sampleCfg
  | .fill | .zero | .copy | .sanitize | .releaseAck | .snapshot => Dev.ringRun

theorem exec_ringInstr {s : State} (hup : s.up = true) (op : RingOp) :
    exec op.instr s = .next (s.finish (s.dev.startCmd op op.act)) := by
  cases op with
  | nop => exact exec_nop hup
  | setHint => exact exec_setHint hup
  | tierPolicy => exact exec_tierPolicy hup
  | compPolicy => exact exec_compPolicy hup
  | promote => exact exec_promote hup
  | demote => exact exec_demote hup
  | fill => exact exec_fill hup
  | zero => exact exec_zero hup
  | copy => exact exec_copy hup
  | sanitize => exact exec_sanitize hup
  | capQuery => exact exec_capQuery hup
  | releaseAck => exact exec_releaseAck hup
  | snapshot => exact exec_snapshot hup
  | sampleCfg => exact exec_sampleCfg hup

theorem RingOp.act_of_runs {op : RingOp} (h : op ∈ [RingOp.fill, .zero, .copy, .sanitize, .releaseAck, .snapshot]) :
    op.act = Dev.ringRun := by
  have hall : ∀ op ∈ [RingOp.fill, .zero, .copy, .sanitize, .releaseAck, .snapshot], op.act = Dev.ringRun := by simp [RingOp.act]
  exact hall op h

/-! ### The start of a command -/

section
variable {d e : Dev} {n r slot : Nat} {x : Line} {rest : List (Nat × Line)} {op : RingOp} {go : RingCmd → Dev → Dev} {c : RingCmd}

theorem Dev.startCmd_of_no_turn (h : d.ringTurn = none) : d.startCmd op go = d := by simp only [Dev.startCmd, h]

theorem Dev.startCmd_of_other (ht : d.ringTurn = some (n, r)) (hp : d.prefetched n r = (slot, x) :: rest)
    (hop : RingOp.ofCode (descField x 0 1) ≠ some op) : d.startCmd op go = d := by
  simp only [Dev.startCmd, ht, hp, if_neg hop]

/-- A descriptor of the opcode is taken and checked; the checks refuse the command, or it is handed on. -/
theorem Dev.startCmd_of_taken (ht : d.ringTurn = some (n, r)) (hp : d.prefetched n r = (slot, x) :: rest)
    (hop : RingOp.ofCode (descField x 0 1) = some op) (hc : d.takeCmd n r op = some (c, e)) : d.startCmd op go =
      if e.ringCheck op c.ld c.a c.b c.n c.x = 0 then go c e else e.post (c.fin (e.ringCheck op c.ld c.a c.b c.n c.x) 0 0 0) := by
  simp only [Dev.startCmd, ht, hp, if_pos hop, hc]

/-- The operands of a command are those of its descriptor (Table 12.2). -/
structure RingCmd.readsFrom (c : RingCmd) (set : Nat) (line : Line) : Prop where
  a : c.a = descField line 8 8
  b : c.b = descField line 16 8
  n : c.n = descField line 24 8
  x : c.x = descField line 32 8
  ld : c.ld = actingLd set line
  tag : c.tag = descField line 4 4

/-- The registers, the Tedders, the homes and the samplers stay, as where a command is taken. -/
structure Dev.besideRings (d e : Dev) : Prop where
  regs : e.regs = d.regs
  ted : e.ted = d.ted
  home : e.home = d.home
  samp : e.samp = d.samp

theorem Dev.takeCmd_takes (hp : d.prefetched n r = (slot, x) :: rest) (hc : d.takeCmd n r op = some (c, e)) :
    c.readsFrom n x ∧ d.besideRings e ∧ e.prefetched n r = rest := by
  simp only [Dev.takeCmd, hp, Option.some.injEq, Prod.mk.injEq] at hc
  obtain ⟨rfl, rfl⟩ := hc
  exact ⟨⟨rfl, rfl, rfl, rfl, rfl, rfl⟩, ⟨rfl, rfl, rfl, rfl⟩, kvGet_set_self _ _ _ _⟩

theorem actingLd_lt (n : Nat) (x : Line) : actingLd n x < 16 := by
  unfold actingLd
  split
  · assumption
  · exact Nat.mod_lt _ (by norm_num)

section
variable (h : d.besideRings e)
include h

theorem Dev.besideRings.fld (q : Reg) (g : Fld) : e.fld q g = d.fld q g := Dev.fld_of_regs_eq h.regs q g
theorem Dev.besideRings.winBase (n : Nat) : e.winBase n = d.winBase n := h.fld _ _
theorem Dev.besideRings.ldLine (n off : Nat) : e.ldLine n off = d.ldLine n off := by rw [Dev.ldLine, h.winBase, Dev.ldLine]
theorem Dev.besideRings.desc (field : Nat) : e.desc field = d.desc field :=
  Dev.desc_of_map_eq (by rw [h.ted]) (Dev.ftab_of_regs_eq h.regs) field

end

end

end Sys2Proof.Machine
end

section
/-! SUPPORT. What posting a record (R319 to R321) leaves alone: whatever is seen of the die, where no ring, message, event counter and
no register from 0xE00000 on shows in it. -/

namespace Sys2Proof.Machine

/-- A view of the die in which the changes that posting a record is made of do not show. -/
structure PostBlind {γ : Type} (p : Dev → γ) : Prop where
  rings (d : Dev) (g : Rings) (o : List Out) (k : Nat) : p { d with rng := g, out := o, fresh := k } = p d
  count (d : Dev) (k : EvKind) (u i n : Nat) : p (d.count k u i n) = p d
  wr (d : Dev) {r : Reg} (h : 0xE00000 ≤ r.offset) (v : Nat) : p (d.wr r v) = p d

theorem postBlind_home : PostBlind Dev.home := ⟨fun _ _ _ _ => rfl, fun _ _ _ _ _ => rfl, fun _ _ _ _ => rfl⟩
theorem postBlind_samp : PostBlind Dev.samp := ⟨fun _ _ _ _ => rfl, fun _ _ _ _ _ => rfl, fun _ _ _ _ => rfl⟩
theorem postBlind_tierSide : PostBlind Dev.tierSide :=
  ⟨fun _ _ _ _ => rfl, fun _ _ _ _ _ => rfl, fun d _ h v => d.wr_tierSide (Reg.tier_of_ge (by omega)) v⟩

namespace PostBlind

variable {γ : Type} {p : Dev → γ} (h : PostBlind p) (d : Dev) (f : RingFin)
include h

theorem emitRecord : p (d.emitRecord f) = p d := by
  have hcount := h.count d .cmdStatus f.set f.status 1
  unfold Dev.emitRecord
  dsimp only
  split
  · exact (h.rings (d.count .cmdStatus f.set f.status) d.rng _ _).trans hcount
  · exact (h.rings (d.count .cmdStatus f.set f.status) d.rng _ _).trans hcount

theorem ite_setFlag {r : Reg} (hr : 0xE00000 ≤ r.offset) (b : Prop) [Decidable b] (g : Fld) (v : Bool) :
    p (if b then d.setFlag r g v else d) = p d := view_ite (h.wr d hr _) rfl

theorem moveTail (n r : Nat) : p (d.moveTail n r) = p d := by
  have hstat : 0xE00000 ≤ (Reg.rngCqStat n r).offset := by
    simp only [Reg.offset]
    omega
  unfold Dev.moveTail
  dsimp only
  rw [h.ite_setFlag _ hstat, h.ite_setFlag _ hstat]
  exact h.wr d hstat _

theorem ringEligible (n r : Nat) (irq : Bool) (status : Nat) : p (d.ringEligible n r irq status) = p d := by
  rcases d.ringEligible_cases n r irq status with heq | heq | ⟨c, heq⟩ <;> rw [heq]
  · exact (h.rings (d.count .message n) _ _ d.fresh).trans (h.count d .message n 0 1)
  · exact h.rings d _ d.out d.fresh

theorem post : p (d.post f) = p d := by
  unfold Dev.post
  split
  · rfl
  · split
    · exact (h.rings (d.count .cqStall f.set) _ d.out d.fresh).trans (h.count d .cqStall f.set 0 1)
    · rw [d.postRecord_eq f, h.ringEligible, h.moveTail, h.emitRecord]

end PostBlind

theorem Dev.post_home (d : Dev) (f : RingFin) : (d.post f).home = d.home := postBlind_home.post d f
theorem Dev.post_samp (d : Dev) (f : RingFin) : (d.post f).samp = d.samp := postBlind_samp.post d f

theorem Dev.desc_post (d : Dev) (f : RingFin) (field : Nat) : (d.post f).desc field = d.desc field :=
  have htier := postBlind_tierSide.post d f
  Dev.desc_of_map_eq (by rw [Dev.ted_of_tierSide htier]) (Dev.ftab_of_tierSide htier) field

end Sys2Proof.Machine
end

section
/-! SUPPORT. Ring commands that end at once (R329 to R331, R453): the ranges that SET_HINT leaves, the descriptors that a policy leaves,
the capacity state that CAP_QUERY reports, and the sampler that SAMPLE_CFG leaves. -/

namespace Sys2Proof.Machine

variable {d e : Dev} {c : RingCmd}

/-! ### SET_HINT (R329) -/

theorem Dev.repin_pol (d : Dev) : d.repin.home.pol = d.home.pol := by
  unfold Dev.repin
  refine foldl_keeps (fun e : Dev => e.home.pol) (fun e l => ?_) _ d
  dsimp only
  split
  · rfl
  · exact view_ite (p := fun e : Dev => e.home.pol) rfl rfl

/-- The policy ranges after a SET_HINT. -/
def Dev.hinted (c : RingCmd) (d : Dev) : List PolRange :=
  let keep := d.home.pol.filter fun p => !(p.ld == c.ld && p.id == bitsOf c.x 4 0)
  if c.n = 0 then keep else
    keep ++ [{ ld := c.ld, id := bitsOf c.x 4 0, first := d.ldLine c.ld c.a, lines := c.n / 64, hint := bitsOf c.x 9 8 }]

theorem Dev.setHint_pol : (d.setHint c).home.pol = d.hinted c := by
  rw [Dev.setHint, Dev.post_home, Dev.repin_pol]
  rfl

theorem Dev.besideRings.hinted (h : d.besideRings e) : e.hinted c = d.hinted c := by
  simp only [Dev.hinted, h.home, h.ldLine]

/-! ### TIER_POLICY and COMP_POLICY (R330) -/

/-- A descriptor after a policy command: that of a tiered field that is not poisoned changes. -/
def Desc.policed (f : Desc → Desc) (x : Desc) : Desc := if x.v && x.tiered && !x.fpois then f x else x

/-- One field of a policy command. -/
def Dev.policyStep (f : Desc → Desc) (first : Nat) (d : Dev) (i : Nat) : Dev :=
  let x := d.desc (first + i)
  if x.v && x.tiered && !x.fpois then d.putDesc (first + i) (f x) else d

/-- One field of a policy command, with the count of the fields changed. -/
def Dev.policyGo (f : Desc → Desc) (first : Nat) (p : Dev × Nat) (i : Nat) : Dev × Nat :=
  let x := p.1.desc (first + i)
  if x.v && x.tiered && !x.fpois then (p.1.putDesc (first + i) (f x), p.2 + 1) else p

theorem descOf_fits (v : Nat) : (descOf v).fits :=
  ⟨bitsOf_lt v 61 60, bitsOf_lt v 59 56, bitsOf_lt v 55 52, bitsOf_lt v 51 48, bitsOf_lt v 47 12, bitsOf_lt v 10 9, bitsOf_lt v 8 7⟩

theorem Dev.desc_fits (d : Dev) (field : Nat) : (d.desc field).fits := descOf_fits _

section
variable {f : Desc → Desc}

theorem Dev.desc_policyStep_self (hf : ∀ x : Desc, x.fits → (f x).fits) (first i : Nat) :
    (d.policyStep f first i).desc (first + i) = (d.desc (first + i)).policed f := by
  unfold Dev.policyStep Desc.policed
  dsimp only
  split
  · exact Dev.desc_putDesc_self d (hf _ (d.desc_fits _)) _
  · rfl

theorem Dev.desc_policyStep_other {first i field : Nat} (h : first + i ≠ field) : (d.policyStep f first i).desc field = d.desc field := by
  unfold Dev.policyStep
  dsimp only
  split
  · exact Dev.desc_putDesc_other d h _
  · rfl

/-- After the first `k` fields, those have changed and the others not. -/
theorem Dev.desc_foldl_policyStep (hf : ∀ x : Desc, x.fits → (f x).fits) (first k i : Nat) :
    ((List.range k).foldl (Dev.policyStep f first) d).desc (first + i) =
      if i < k then (d.desc (first + i)).policed f else d.desc (first + i) := by
  induction k with
  | zero => simp
  | succ k ih =>
    rw [List.range_succ, List.foldl_append, List.foldl_cons, List.foldl_nil]
    rcases Nat.lt_trichotomy i k with hlt | heq | hgt
    · rw [Dev.desc_policyStep_other (by omega), ih, if_pos hlt, if_pos (by omega)]
    · subst heq
      rw [Dev.desc_policyStep_self hf, ih, if_neg (lt_irrefl i), if_pos (Nat.lt_succ_self i)]
    · rw [Dev.desc_policyStep_other (by omega), ih, if_neg (by omega), if_neg (by omega)]

theorem Dev.policyGo_fst (first : Nat) (p : Dev × Nat) (i : Nat) : (Dev.policyGo f first p i).1 = p.1.policyStep f first i := by
  unfold Dev.policyGo Dev.policyStep
  dsimp only
  split <;> rfl

/-- A policy command is its fields one after another, and then its record. -/
theorem Dev.policy_eq (c : RingCmd) (f : Desc → Desc) (d : Dev) : ∃ z, d.policy c f =
    ((List.range c.n).foldl (Dev.policyStep f (d.winBase c.ld + c.a / 2 ^ 21)) d).post z := by
  have hfst : ((List.range c.n).foldl (Dev.policyGo f (d.winBase c.ld + c.a / 2 ^ 21)) (d, 0)).1 =
      (List.range c.n).foldl (Dev.policyStep f (d.winBase c.ld + c.a / 2 ^ 21)) d :=
    (List.foldl_hom Prod.fst fun p i => (Dev.policyGo_fst _ p i).symm).symm
  rw [← hfst]
  exact ⟨_, rfl⟩

theorem Dev.desc_policy (hf : ∀ x : Desc, x.fits → (f x).fits) {i : Nat} (hi : i < c.n) :
    (d.policy c f).desc (d.winBase c.ld + c.a / 2 ^ 21 + i) = (d.desc (d.winBase c.ld + c.a / 2 ^ 21 + i)).policed f := by
  obtain ⟨z, heq⟩ := Dev.policy_eq c f d
  rw [heq, Dev.desc_post, Dev.desc_foldl_policyStep hf, if_pos hi]

end

/-- The policy fields that a TIER_POLICY selects. -/
def RingCmd.tierPolicy (c : RingCmd) (x : Desc) : Desc :=
  { x with tpol := if bitOf c.x 8 then bitsOf c.x 1 0 else x.tpol, rpromo := if bitOf c.x 9 then bitsOf c.x 5 4 else x.rpromo }

/-- The policy fields that a COMP_POLICY selects. -/
def RingCmd.compPolicy (c : RingCmd) (x : Desc) : Desc :=
  { x with cpol := if bitOf c.x 24 then bitsOf c.x 1 0 else x.cpol, thresh := if bitOf c.x 25 then bitsOf c.x 11 8 else x.thresh,
           budget := if bitOf c.x 26 then bitsOf c.x 19 16 else x.budget }

theorem ite_lt {b : Bool} {x y k : Nat} (hx : x < k) (hy : y < k) : (if b then x else y) < k := by split <;> assumption

theorem RingCmd.tierPolicy_fits (c : RingCmd) {x : Desc} (h : x.fits) : (c.tierPolicy x).fits := by
  obtain ⟨hcpol, hld, hthresh, hbudget, hbase, htpol, hrpromo⟩ := h
  exact ⟨hcpol, hld, hthresh, hbudget, hbase, ite_lt (bitsOf_lt c.x 1 0) htpol, ite_lt (bitsOf_lt c.x 5 4) hrpromo⟩

theorem RingCmd.compPolicy_fits (c : RingCmd) {x : Desc} (h : x.fits) : (c.compPolicy x).fits := by
  obtain ⟨hcpol, hld, hthresh, hbudget, hbase, htpol, hrpromo⟩ := h
  exact ⟨ite_lt (bitsOf_lt c.x 1 0) hcpol, hld, ite_lt (bitsOf_lt c.x 11 8) hthresh, ite_lt (bitsOf_lt c.x 19 16) hbudget, hbase, htpol,
    hrpromo⟩

/-! ### CAP_QUERY (R331) -/

/-- RESULT0 of a CAP_QUERY (Table 12.6). -/
def Dev.capState (d : Dev) (n : Nat) : Nat :=
  d.fld (.tedLdcap n) F.tedLdcap_COMMIT + d.fld (.tedLdcap n) F.tedLdcap_QUOTA * 2 ^ 32 + d.fld (.tedLdcap n) F.tedLdcap_OVC * 2 ^ 48 +
    d.fld .tedPoolStat F.tedPoolStat_FLOOR * 2 ^ 61 + d.fld .tedPoolStat F.tedPoolStat_REL * 2 ^ 62 +
    d.fld .tedPoolStat F.tedPoolStat_LOW * 2 ^ 63

theorem Dev.capQuery_eq : d.capQuery c = d.post (c.fin 0 (d.capState c.ld) (d.foot c.ld) (d.extentPages c.ld)) := rfl

theorem Dev.besideRings.capState (h : d.besideRings e) (n : Nat) : e.capState n = d.capState n := by simp only [Dev.capState, h.fld]
theorem Dev.besideRings.foot (h : d.besideRings e) (n : Nat) : e.foot n = d.foot n := by simp only [Dev.foot, Dev.rd, h.regs]
theorem Dev.besideRings.extentPages (h : d.besideRings e) (n : Nat) : e.extentPages n = d.extentPages n := by
  rw [Dev.extentPages, h.fld, Dev.extentPages]

theorem Dev.fld_lt (d : Dev) (q : Reg) (g : Fld) : d.fld q g < 2 ^ (g.hi + 1 - g.lo) := bitsOf_lt _ _ _

theorem bitsOf_eq_of_mod {v hi lo y : Nat} (h : v / 2 ^ lo % 2 ^ (hi + 1 - lo) = y) : bitsOf v hi lo = y := by
  rw [bitsOf, Nat.shiftRight_eq_div_pow, h]

theorem bitOf_eq_of_mod {v i y : Nat} (hy : y < 2) (h : v / 2 ^ i % 2 = y) : bitOf v i = (y != 0) := by
  rw [bitOf, Nat.testBit_eq_decide_div_mod_eq, h]
  interval_cases y <;> rfl

/-- The fields of RESULT0 lie beside one another. -/
theorem Dev.capState_fields (d : Dev) (n : Nat) :
    bitsOf (d.capState n) 27 0 = d.fld (.tedLdcap n) F.tedLdcap_COMMIT ∧ bitsOf (d.capState n) 47 32 = d.fld (.tedLdcap n) F.tedLdcap_QUOTA ∧
      bitsOf (d.capState n) 50 48 = d.fld (.tedLdcap n) F.tedLdcap_OVC ∧ bitOf (d.capState n) 63 = d.low ∧
      bitOf (d.capState n) 62 = d.relMode := by
  have hcommit : d.fld (.tedLdcap n) F.tedLdcap_COMMIT < 2 ^ 28 := d.fld_lt _ _
  have hquota : d.fld (.tedLdcap n) F.tedLdcap_QUOTA < 2 ^ 16 := d.fld_lt _ _
  have hovc : d.fld (.tedLdcap n) F.tedLdcap_OVC < 2 ^ 3 := d.fld_lt _ _
  have hfloor : d.fld .tedPoolStat F.tedPoolStat_FLOOR < 2 := d.fld_lt _ _
  have hrel : d.fld .tedPoolStat F.tedPoolStat_REL < 2 := d.fld_lt _ _
  have hlow : d.fld .tedPoolStat F.tedPoolStat_LOW < 2 := d.fld_lt _ _
  refine ⟨bitsOf_eq_of_mod ?_, bitsOf_eq_of_mod ?_, bitsOf_eq_of_mod ?_,
    bitOf_eq_of_mod (y := d.fld .tedPoolStat F.tedPoolStat_LOW) hlow ?_,
    bitOf_eq_of_mod (y := d.fld .tedPoolStat F.tedPoolStat_REL) hrel ?_⟩
  all_goals
    unfold Dev.capState
    omega

/-! ### SAMPLE_CFG (R453) -/

theorem Dev.sampler_modSampler_self {n : Nat} (h : n < d.samp.length) (f : Sampler → Sampler) :
    (d.modSampler n f).sampler n = f (d.sampler n) := by
  simp [Dev.modSampler, Dev.sampler, h]

theorem Dev.samp_length_modSampler (d : Dev) (n : Nat) (f : Sampler → Sampler) : (d.modSampler n f).samp.length = d.samp.length :=
  List.length_modify ..

theorem Dev.samp_length_dropSample (d : Dev) (n : Nat) : (d.dropSample n).samp.length = d.samp.length := by
  rw [Dev.dropSample, Dev.samp_length_modSampler, Dev.countLd_samp]

theorem Dev.samp_length_sampleWrite (d : Dev) (n : Nat) : (d.sampleWrite n).samp.length = d.samp.length := by
  unfold Dev.sampleWrite
  dsimp only
  split
  · rfl
  · split
    · rw [Dev.emit_samp, Dev.samp_length_modSampler, Dev.countLd_samp, Dev.emit_samp]
    · rw [Dev.samp_length_modSampler, Dev.countLd_samp, Dev.emit_samp]

theorem Dev.samp_length_sampleFlush (d : Dev) (n : Nat) : (d.sampleFlush n).samp.length = d.samp.length := by
  unfold Dev.sampleFlush
  dsimp only
  rw [foldl_keeps (fun e : Dev => e.samp.length) (fun e _ => e.samp_length_dropSample n), Dev.modHome_samp,
    foldl_keeps (fun e : Dev => e.samp.length) (fun e _ => e.samp_length_sampleWrite n)]

/-- The sampler that a SAMPLE_CFG sets up, or an idle one. -/
def RingCmd.sampler (c : RingCmd) : Sampler :=
  if bitOf c.x 31 then
    { en := true, n := bitsOf c.x 4 0, base := c.a, slots := c.n / 32, vector := bitsOf c.x 13 8, thresh := bitsOf c.x 63 32 }
  else {}

theorem Dev.sampler_sampleCfg (h : c.ld < d.samp.length) : (d.sampleCfg c).sampler c.ld = c.sampler := by
  have heq : (d.sampleCfg c).sampler c.ld = ((d.sampleFlush c.ld).modSampler c.ld fun _ => c.sampler).sampler c.ld :=
    congrArg (·.getD c.ld {}) (Dev.post_samp _ _)
  rw [heq, Dev.sampler_modSampler_self (by rwa [Dev.samp_length_sampleFlush])]

end Sys2Proof.Machine
end

section
/-! SUPPORT. PROMOTE and DEMOTE (R160, R330): each page of the range is asked for at its Tedder. -/

namespace Sys2Proof.Machine

variable {d e : Dev} {c : RingCmd}

/-- What a step of a fold makes true of its element, and every later step keeps, holds in the end of each element. -/
theorem foldl_establishes {α β : Type} {P : α → β → Prop} {f : β → α → β} (hself : ∀ b a, P a (f b a))
    (hkeep : ∀ a b y, P a b → P a (f b y)) {a : α} : ∀ (l : List α) (b : β), a ∈ l → P a (l.foldl f b)
  | x :: l, b, ha => by
    rcases List.mem_cons.mp ha with rfl | hl
    · exact List.foldlRecOn l f (motive := P a) (hself b a) fun y hy x _ => hkeep a y x hy
    · exact foldl_establishes hself hkeep l (f b x) hl

theorem Dev.promo_isSome {page : Nat} : (d.promo page).isSome = true ↔ ∃ p ∈ d.ted.promos, p.page = page := by
  simp [Dev.promo]

theorem Dev.move_isSome {page : Nat} : (d.move page).isSome = true ↔ ∃ x ∈ d.ted.moves, x.page = page := by
  simp [Dev.move]

/-! ### Requests for promotions -/

theorem Dev.askPromo_rng (d : Dev) (page : Nat) (why : PromoWhy) (cmds : List Nat) : (d.askPromo page why cmds).rng = d.rng := by
  unfold Dev.askPromo
  split <;> rfl

/-- A page's promotion is there after a request for it: a new one, or the one that the request joins. -/
theorem Dev.askPromo_asked (d : Dev) (page : Nat) (why : PromoWhy) (cmds : List Nat) :
    ((d.askPromo page why cmds).promo page).isSome = true := by
  unfold Dev.askPromo
  split
  case isTrue h =>
    obtain ⟨p, hp, hpage⟩ := List.any_eq_true.mp h
    have heq : p.page = page := beq_iff_eq.mp hpage
    exact Dev.promo_isSome.mpr ⟨_, List.mem_map_of_mem hp, by rw [if_pos heq]; exact heq⟩
  case isFalse => exact Dev.promo_isSome.mpr ⟨_, List.mem_append_right _ (List.mem_singleton_self _), rfl⟩

theorem Dev.askPromo_keeps {page : Nat} (h : (d.promo page).isSome = true) (other : Nat) (why : PromoWhy) (cmds : List Nat) :
    ((d.askPromo other why cmds).promo page).isSome = true := by
  obtain ⟨p, hp, hpage⟩ := Dev.promo_isSome.mp h
  unfold Dev.askPromo
  split
  · exact Dev.promo_isSome.mpr ⟨_, List.mem_map_of_mem hp, by split <;> exact hpage⟩
  · exact Dev.promo_isSome.mpr ⟨p, List.mem_append_left _ hp, hpage⟩

theorem Dev.ringPromote_rng : (d.ringPromote c).rng = (d.ringRun c).rng :=
  foldl_keeps Dev.rng (fun e page => e.askPromo_rng page .ring [c.id]) _ _

theorem Dev.ringPromote_asks {page : Nat} (h : page ∈ d.ringPages c) : ((d.ringPromote c).promo page).isSome = true :=
  foldl_establishes (P := fun page e => (Dev.promo e page).isSome = true) (fun e page => e.askPromo_asked page .ring [c.id])
    (fun _ _ other hasked => Dev.askPromo_keeps hasked other .ring [c.id]) _ _ h

/-! ### Requests for demotions -/

section
variable {page : Nat} {k : MoveKind} {cmd : Option Nat} {budget : Nat} {epoch : Bool}

theorem Dev.queueMove_rng : (d.queueMove page k cmd budget epoch).rng = d.rng := by
  unfold Dev.queueMove
  split
  · rfl
  · split <;> rfl
  · rfl

theorem Dev.queueMove_keeps (h : (d.move page).isSome = true) (other : Nat) :
    ((d.queueMove other k cmd budget epoch).move page).isSome = true := by
  obtain ⟨x, hx, hpage⟩ := Dev.move_isSome.mp h
  unfold Dev.queueMove
  split
  · exact h
  · split
    · exact Dev.move_isSome.mpr ⟨_, List.mem_map_of_mem hx, by split <;> exact hpage⟩
    · exact h
  · exact Dev.move_isSome.mpr ⟨x, List.mem_append_left _ hx, hpage⟩

/-- A page's move is there after a request for it: a new one, or the one that was in hand. -/
theorem Dev.queueMove_asked : ((d.queueMove page k cmd budget epoch).move page).isSome = true := by
  cases hmove : d.move page with
  | some x => exact Dev.queueMove_keeps (by rw [hmove]; rfl) page
  | none =>
    unfold Dev.queueMove
    rw [hmove]
    exact Dev.move_isSome.mpr ⟨_, List.mem_append_right _ (List.mem_singleton_self _), rfl⟩

end

theorem Dev.ringDemote_rng : (d.ringDemote c).rng = (d.ringRun c).rng :=
  foldl_keeps Dev.rng (fun _ _ => Dev.queueMove_rng) _ _

theorem Dev.ringDemote_asks {page : Nat} (h : page ∈ d.ringPages c) : ((d.ringDemote c).move page).isSome = true :=
  foldl_establishes (P := fun page e => (Dev.move e page).isSome = true) (fun _ _ => Dev.queueMove_asked)
    (fun _ _ other hasked => Dev.queueMove_keeps hasked other) _ _ h

/-- The pages of a command's range. -/
theorem Dev.besideRings.mem_ringPages (h : d.besideRings e) {k : Nat} (hk : k < c.n) :
    (d.winBase c.ld * 2 ^ 21 + c.a) / 4096 + k ∈ e.ringPages c := by
  rw [Dev.ringPages, h.winBase]
  exact List.mem_range'_1.mpr (by omega)

end Sys2Proof.Machine
end

section
/-! SUPPORT. The ring commands settled (O38). -/

namespace Sys2Proof.Machine

/-- Settles O38: a start by what it finds, and each command that the checks let pass by its opcode. -/
theorem ringCommands : Obligations.RingCommands := by
  intro s hup op i hi
  have hinstr : ∀ p ∈ [(Instr.nop, RingOp.nop), (.setHint, .setHint), (.tierPolicy, .tierPolicy), (.compPolicy, .compPolicy),
      (.promote, .promote), (.demote, .demote), (.fill, .fill), (.zero, .zero), (.copy, .copy), (.sanitize, .sanitize),
      (.capQuery, .capQuery), (.releaseAck, .releaseAck), (.snapshot, .snapshot), (.sampleCfg, .sampleCfg)], p.1 = p.2.instr := by
    simp [RingOp.instr]
  obtain rfl : i = op.instr := hinstr _ hi
  have hexec := exec_ringInstr hup op
  refine ⟨fun hnone => exec_finish_of_eq hexec (Dev.startCmd_of_no_turn hnone), fun n r slot x rest ht hp =>
    ⟨fun hother => exec_finish_of_eq hexec (Dev.startCmd_of_other ht hp hother), fun c e hop hc => ?_⟩⟩
  obtain ⟨hfields, hbeside, hrest⟩ := Dev.takeCmd_takes hp hc
  have hstart := Dev.startCmd_of_taken (go := op.act) ht hp hop hc
  refine ⟨⟨hfields.a, hfields.b, hfields.n, hfields.x, hfields.ld, hfields.tag, hbeside.regs, hrest⟩,
    fun hrefused => exec_finish_of_eq hexec (hstart.trans (if_neg hrefused)),
    fun hpass => ⟨op.act c e, exec_finish_of_eq hexec (hstart.trans (if_pos hpass)), ?nop, ?runs, ?promote, ?demote, ?setHint, ?tierPolicy,
      ?compPolicy, ?capQuery, ?sampleCfg⟩⟩
  case nop =>
    rintro rfl
    rfl
  case runs => exact fun hruns => by rw [RingOp.act_of_runs hruns]
  case promote =>
    rintro rfl
    exact ⟨congrArg Rings.run Dev.ringPromote_rng, fun k hk => Dev.ringPromote_asks (hbeside.mem_ringPages hk)⟩
  case demote =>
    rintro rfl
    exact ⟨congrArg Rings.run Dev.ringDemote_rng, fun k hk => Dev.ringDemote_asks (hbeside.mem_ringPages hk)⟩
  case setHint =>
    rintro rfl
    exact Dev.setHint_pol.trans hbeside.hinted
  case tierPolicy =>
    rintro rfl k hk
    have hdesc := Dev.desc_policy (d := e) (c := c) (fun _ => c.tierPolicy_fits) hk
    rw [hbeside.winBase, hbeside.desc] at hdesc
    exact hdesc
  case compPolicy =>
    rintro rfl k hk
    have hdesc := Dev.desc_policy (d := e) (c := c) (fun _ => c.compPolicy_fits) hk
    rw [hbeside.winBase, hbeside.desc] at hdesc
    exact hdesc
  case capQuery =>
    rintro rfl
    refine ⟨s.dev.capState c.ld, ?_, s.dev.capState_fields c.ld⟩
    rw [← hbeside.capState, ← hbeside.foot, ← hbeside.extentPages]
    exact Dev.capQuery_eq
  case sampleCfg =>
    rintro rfl hlen
    have hld : c.ld < e.samp.length := by
      rw [hbeside.samp, hlen, hfields.ld]
      exact actingLd_lt n x
    exact Dev.sampler_sampleCfg hld

end Sys2Proof.Machine
end

section
/-! SUPPORT. LEY_DISABLE while the port's event crossing holds a link-down in flight and one pending behind it (R44): a third one sets
the overrun flag, and the messages that follow (R52, R106, R476) leave with the four copies of DOWN. -/

namespace Sys2Proof.Machine

/-- The global interrupt adds at most its one message. -/
theorem State.settle_out_length_le (s : State) (d : Dev) : (s.settle d).dev.out.length ≤ d.out.length + 1 := by
  rcases Dev.globalInterrupt_cases d s.stile with h | h <;> simp [State.settle, h, Dev.emit]

/-- A running die whose software takes overruns of Ley ports as interrupts, and informational records of the management view by vector 1.
Ley port 3 is ACTIVE; of its earlier link-downs one is in flight to the core and one is pending. -/
def thirdLinkDown : State :=
  let s := State.reset
  let d := (((s.dev.wr .gblIntEn 1).wr .crossIntEn1 8).setLeyState 3 4).setXevt (.leyEvt 3) { flight := 1, pending := 1 }
  { s with dev := { d with mgt := { d.mgt with power := .on }, logs := { d.logs with policy := [(16 * 5 + Sev.info.code, 1)] } } }

theorem thirdLinkDown_reaches : thirdLinkDown.reaches (.leyCtrl 3) := ⟨by decide +kernel, by decide +kernel, by decide +kernel⟩

/-- Behind the four copies of DOWN its LEY_DISABLE sends the log's event interrupt and the global interrupt. -/
theorem thirdLinkDown_leyDisable : ∃ t : State, exec (.leyDisable 3) thirdLinkDown = .next t ∧
    t.dev.out.drop 4 = [.msix 16 1, .msix 16 0] :=
  ⟨_, exec_leyDisable (by decide) thirdLinkDown_reaches.1, by decide +kernel⟩

/-- Refutes O39: where the link-down of a LEY_DISABLE overruns its event crossing, the record of R52 sends the interrupt of its log, so
that not the four flits of DOWN alone go out. -/
theorem not_leyPortEvents : ¬ Obligations.LeyPortEvents := by
  intro h
  obtain ⟨-, hdisable, -⟩ := h thirdLinkDown 3 thirdLinkDown_reaches.1 (by decide) (by decide +kernel)
  obtain ⟨d, hexec, -, -, hactive, -⟩ := hdisable thirdLinkDown_reaches
  obtain ⟨-, -, -, -, -, -, -, fs, hfour, -, hout⟩ := hactive (by decide +kernel) (by decide +kernel)
  obtain ⟨t, ht, hbehind⟩ := thirdLinkDown_leyDisable
  obtain rfl : thirdLinkDown.settle d = t := Host.Outcome.next.inj (hexec.symm.trans ht)
  have hsent : d.out.length = 4 := by
    rw [hout, List.length_append, hfour, show thirdLinkDown.dev.out = [] by decide +kernel]
    rfl
  have hatMostOne := thirdLinkDown.settle_out_length_le d
  have htwo := congrArg List.length hbehind
  rw [List.length_drop, List.length_cons, List.length_singleton] at htwo
  omega

end Sys2Proof.Machine
end

section
/-! SUPPORT. An MGT entry from below that waits on a member since the upstream port's transmit queue has no slot (R46, R372): the stall sets
the crossing's overrun flag (R51). Where CROSS_INT_EN1 enables its summary bit, R52 raises a record, and a member queues its records for the
dealer (R376), so that the cascade's books change although the entry stays where it is. -/

namespace Sys2Proof.Machine

/-- A RECORD of member 6 on its way to the dealer. -/
def recordFromBelow : LeyEnt := { vc := 3, op := 0x25, dev := 6, dlen := 2, data := [0, 0] }

/-- A running die as member 7 at distance 1, which takes the dealer's entries: port 0 is its upstream port, and member 6 hangs from port 2. The transmit
queue of port 0 is full, a RECORD of member 6 waits behind it, and overruns of port 0's crossings are enabled in CROSS_INT_EN1. -/
def stalledRecord : State :=
  let s := State.reset
  let d := ((s.dev.setFld .casId F.casId_ROLE 7).setFld .casId F.casId_DIST 1).setFld .casId F.casId_UPPORT 0
  let d := (((d.setLeyState 0 4).setLeyState 2 4).setFld (.leyStat 2) F.leyStat_PDEV 6).setFld (.leyStat 2) F.leyStat_PDIST 2
  let d := (d.modLp 0 fun x => { x with txq := List.replicate 128 recordFromBelow }).modLp 2 fun x => { x with rxq := [(0, recordFromBelow)] }
  { s with dev := { d.wr .crossIntEn1 1 with mgt := { d.mgt with power := .on }, cas := { d.cas with takes := true } } }

/-- Its RECORD command leaves the entry where it is, and puts the record of R52 into the empty queue of records for the dealer. -/
theorem stalledRecord_queues_overrun_record : ∃ t : State, exec (.record 2) stalledRecord = .next t ∧
    (t.dev.lp 2).rxq = [(0, recordFromBelow)] ∧ stalledRecord.dev.cas.recs = [] ∧ t.dev.cas.recs.map (·.ty) = [0x0011] :=
  ⟨_, exec_record (by decide) (by decide +kernel), by decide +kernel, by decide +kernel, by decide +kernel⟩

/-- Refutes O40: where the wait of an entry to be forwarded sets an overrun flag that is enabled, the member queues the record of R52 for
its dealer, so that the books of the cascade do not stay as they were. -/
theorem not_cascadeEvents : ¬ Obligations.CascadeEvents := by
  intro h
  obtain ⟨-, -, -, -, -, -, -, -, -, hmember, -⟩ := h stalledRecord 2 (by decide +kernel) (by decide) (by decide +kernel)
  obtain ⟨d, hcas, -, -, -, -, -, hmgt, -⟩ := hmember 0x25 0 recordFromBelow (by decide +kernel) (by decide +kernel) (.inl (by decide))
  have hexec : exec (.record 2) stalledRecord = .next (stalledRecord.settle d) := hmgt (.record 2) (by simp)
  obtain ⟨t, ht, -, hempty, hrecord⟩ := stalledRecord_queues_overrun_record
  obtain rfl : stalledRecord.settle d = t := Host.Outcome.next.inj (hexec.symm.trans ht)
  have hnone : (stalledRecord.settle d).dev.cas.recs = [] := by rw [State.settle_cas, hcas, hempty]
  rw [hnone] at hrecord
  exact absurd hrecord (by decide)

end Sys2Proof.Machine
end

section
/-! SUPPORT. One step (O1, O2), the invariant at reset (O4) and the end of a command (O10, R476). -/

namespace Sys2Proof.Machine

open Sys2Proof

/-- Settles O1, by the front of the queue. -/
theorem frontCommandRuns : Obligations.FrontCommandRuns := by
  intro c rest s h
  unfold step
  rw [h]

/-- A tick of a die without power changes nothing. -/
theorem State.tick_down {s : State} (h : s.powered = false) : s.tick = s := by simp [State.tick, h]

/-- A tick of a powered die is one step of the management clock, with what work there is. -/
theorem State.tick_up {s : State} (h : s.powered = true) : s.tick = s.finish { s.dev with clk := s.dev.clk + 1 }.sweepTick := by
  simp [State.tick, h]

/-- Settles O2: with no command waiting, `step` is `State.tick`. -/
theorem emptyQueueTicks : Obligations.EmptyQueueTicks := by
  intro s h
  refine ⟨s.tick, ?_, ?_, s.tick_stile, s.tick_nv, State.tick_down, State.tick_up⟩
  · unfold step
    rw [h]
  · rw [s.tick_pending, h]

/-- A register of a file in which nothing was stored reads its reset value. -/
theorem RegFile.get_nil (r : Reg) : RegFile.get [] r = r.resetNat % 2 ^ 64 := BitVec.toNat_ofNat _ _

/-- Settles O4: both feeds are OFF at reset. -/
theorem resetHasInv : Obligations.ResetHasInv := ⟨Dram.wf_empty [], fun h => nomatch h.1⟩

/-! ### The end of a command -/

/-- The global interrupt has something to send: it is armed, and the masked status is not zero (R476). -/
def Dev.interruptDue (st : Stile) (d : Dev) : Prop :=
  d.flag .gblIntCtrl F.gblIntCtrl_ARMED = true ∧ d.intStat st &&& d.rd .gblIntEn ≠ 0

theorem Dev.interruptDue_iff (st : Stile) (d : Dev) : d.interruptDue st ↔
    (d.flag .gblIntCtrl F.gblIntCtrl_ARMED && d.intStat st &&& d.rd .gblIntEn != 0) = true := by
  rw [Bool.and_eq_true, bne_iff_ne]
  rfl

theorem Dev.globalInterrupt_of_due {st : Stile} {d : Dev} (h : d.interruptDue st) : d.globalInterrupt st =
    (d.setFlag .gblIntCtrl F.gblIntCtrl_ARMED false).emit (.msix 16 (d.fld .gblIntCtrl F.gblIntCtrl_VECTOR)) := by
  unfold Dev.globalInterrupt
  rw [if_pos ((d.interruptDue_iff st).mp h)]

theorem Dev.globalInterrupt_of_not_due {st : Stile} {d : Dev} (h : ¬ d.interruptDue st) : d.globalInterrupt st = d := by
  unfold Dev.globalInterrupt
  rw [if_neg (mt (d.interruptDue_iff st).mpr h)]

/-- The end of a command writes at most GBL_INT_CTRL. -/
theorem State.keepsRegs_settle (s : State) (d : Dev) : d.keepsRegs (s.settle d).dev [.gblIntCtrl] := fun _ h =>
  State.settle_rd d s (h _ (List.mem_singleton_self _))

theorem Dev.flag_of_regs_eq {d e : Dev} (h : e.regs = d.regs) (q : Reg) (g : Fld) : e.flag q g = d.flag q g := by
  simp only [Dev.flag, RegFile.flag, h]

theorem Dev.emit_out (d : Dev) (o : Out) : (d.emit o).out = d.out ++ [o] := rfl

theorem State.settle_dev (s : State) (d : Dev) : (s.settle d).dev = { d.globalInterrupt s.stile with bulk := [] } := rfl
theorem State.settle_regs (s : State) (d : Dev) : (s.settle d).dev.regs = (d.globalInterrupt s.stile).regs := rfl
theorem State.settle_out (s : State) (d : Dev) : (s.settle d).dev.out = (d.globalInterrupt s.stile).out := rfl

/-- Settles O10, by whether the global interrupt is due. -/
theorem endOfCommand : Obligations.EndOfCommand := by
  intro s d
  refine ⟨fun hdue => ?_, fun hnot => ?_, ?_, s.keepsRegs_settle d, State.settle_hp d s, State.settle_home d s,
    State.settle_chan d s, rfl, rfl, rfl⟩
  · have hsent := Dev.globalInterrupt_of_due hdue
    constructor
    · rw [Dev.flag_of_regs_eq (s.settle_regs d), hsent, Dev.emit_flag]
      exact Dev.flag_setFlag_self d .gblIntCtrl false (by decide) (by decide)
    · rw [s.settle_out, hsent, Dev.emit_out, Dev.setFlag_out]
  · rw [s.settle_dev, Dev.globalInterrupt_of_not_due hnot]
  · exact State.settle_dram d s

end Sys2Proof.Machine
end

section
/-! SUPPORT. DRAM by its cells (O11): a codeword is the 80 cells of its key, a write sets those cells and no others, and two DRAMs in
canonical form with the same fills and the same cells are one. -/

namespace Sys2Proof.Machine

/-! ### Bytes -/

theorem byteOf_succ (v i : Nat) : byteOf v (i + 1) = byteOf (v / 256) i := by
  simp only [byteOf, Nat.shiftRight_eq_div_pow, Nat.div_div_eq_div_mul, show 8 * (i + 1) = 8 + 8 * i by ring, pow_add]
  norm_num

/-- The bytes of a number spell it, modulo their width. -/
theorem ofBytes_toBytes (n : Nat) : ∀ v : Nat, ofBytes (toBytes n v) = v % 256 ^ n := by
  induction n with
  | zero => exact fun v => (Nat.mod_one v).symm
  | succ n ih =>
    intro v
    have htail : (List.range n).map (fun i => byteOf v (i + 1)) = toBytes n (v / 256) :=
      List.map_congr_left fun i _ => byteOf_succ v i
    have hcons : toBytes (n + 1) v = byteOf v 0 :: toBytes n (v / 256) := by
      rw [← htail, toBytes, List.range_succ_eq_map, List.map_cons, List.map_map]
      rfl
    rw [hcons, ofBytes, ih, pow_succ', Nat.mod_mul]
    simp [byteOf]

/-! ### Sparse data in canonical form -/

/-- What a key holds after a key was written. -/
theorem kvGet_set {α : Type} [DecidableEq α] (d : Nat → α) (m : List (Nat × α)) (a b : Nat) (x : α) :
    kvGet d (kvSet d m a x) b = if b = a then x else kvGet d m b := by
  split
  · next h => rw [h, kvGet_set_self]
  · next h => exact kvGet_set_other d m (Ne.symm h) x

/-- An unlisted key below the first listed one. -/
theorem kvFind?_of_lt {α : Type} {m : List (Nat × α)} {a : Nat} (h : ∀ p ∈ m, a < p.1) : kvFind? m a = none := by
  induction m with
  | nil => rfl
  | cons p m ih =>
    have hp : p.1 ≠ a := (h p (by simp)).ne'
    rw [kvFind?, if_neg hp]
    exact ih fun q hq => h q (List.mem_cons_of_mem _ hq)

theorem kvGet_of_lt {α : Type} {d : Nat → α} {m : List (Nat × α)} {a : Nat} (h : ∀ p ∈ m, a < p.1) : kvGet d m a = d a := by
  rw [kvGet, kvFind?_of_lt h]
  rfl

theorem kvGet_head {α : Type} (d : Nat → α) (p : Nat × α) (m : List (Nat × α)) : kvGet d (p :: m) p.1 = p.2 := by
  simp [kvGet, kvFind?]

/-- The first key of a list in canonical form is not below every key of a list with the same contents. -/
theorem kvWf_head_le {α : Type} [DecidableEq α] {d : Nat → α} {p : Nat × α} {m n : List (Nat × α)} (hm : ∀ q ∈ p :: m, q.2 ≠ d q.1)
    (h : ∀ a, kvGet d (p :: m) a = kvGet d n a) : ∃ q ∈ n, q.1 ≤ p.1 := by
  by_contra hnone
  have habove : ∀ q ∈ n, p.1 < q.1 := fun q hq => not_le.mp fun hle => hnone ⟨q, hq, hle⟩
  refine hm p (by simp) ?_
  rw [← kvGet_head d p m, h, kvGet_of_lt habove]

/-- Lists in canonical form with the same contents are equal. -/
theorem kvWf_ext {α : Type} [DecidableEq α] {d : Nat → α} {m : List (Nat × α)} : ∀ {n : List (Nat × α)},
    kvWf d m = true → kvWf d n = true → (∀ a, kvGet d m a = kvGet d n a) → m = n := by
  simp only [kvWf_iff]
  induction m with
  | nil =>
    intro n _ hn h
    cases n with
    | nil => rfl
    | cons q n => exact absurd (kvWf_head_le hn.2 fun a => (h a).symm) (by simp)
  | cons p m ih =>
    intro n hm hn h
    cases n with
    | nil => exact absurd (kvWf_head_le hm.2 h) (by simp)
    | cons q n =>
      obtain ⟨hpm, hm'⟩ := List.pairwise_cons.mp hm.1
      obtain ⟨hqn, hn'⟩ := List.pairwise_cons.mp hn.1
      have hkey : p.1 = q.1 := by
        obtain ⟨x, hx, hxp⟩ := kvWf_head_le hm.2 h
        obtain ⟨y, hy, hyq⟩ := kvWf_head_le hn.2 fun a => (h a).symm
        have hqx : q.1 ≤ x.1 := by
          rcases List.mem_cons.mp hx with rfl | hx
          · exact le_rfl
          · exact (hqn x hx).le
        have hpy : p.1 ≤ y.1 := by
          rcases List.mem_cons.mp hy with rfl | hy
          · exact le_rfl
          · exact (hpm y hy).le
        omega
      have hpq : p = q := Prod.ext hkey (by rw [← kvGet_head d p m, h, hkey, kvGet_head])
      subst hpq
      congr 1
      refine ih ⟨hm', fun x hx => hm.2 x (List.mem_cons_of_mem _ hx)⟩ ⟨hn', fun x hx => hn.2 x (List.mem_cons_of_mem _ hx)⟩ fun a => ?_
      by_cases ha : a = p.1
      · subst ha
        rw [kvGet_of_lt hpm, kvGet_of_lt hqn]
      · have hskip (l : List (Nat × α)) : kvGet d (p :: l) a = kvGet d l a := by
          simp [kvGet, kvFind?, Ne.symm ha]
        rw [← hskip, h, hskip]

/-! ### Cells of codewords -/

/-- A codeword is the bytes of its 80 cells. -/
theorem Dram.read_eq (m : Dram) (key : Nat) :
    m.read key = BitVec.ofNat 640 (ofBytes ((List.range 80).map fun j => (m.cell (key * 128 + j)).toNat)) := by
  have hbyte : ∀ j ∈ List.range 80, ((kvFind? m.cells (key * 128 + j)).getD (cwByte (baseWord m.fills key) j)).toNat =
      (m.cell (key * 128 + j)).toNat := fun j hj => by
    rw [← cellDefault_at m.fills key (List.mem_range.mp hj)]
    rfl
  unfold Dram.read
  dsimp only
  rw [List.map_congr_left hbyte]

/-- Writes of a codeword's bytes `l` set the cells of those bytes. -/
theorem kvGet_foldl_putByte (fs : List Fill) (key : Nat) (c : Codeword) (a : Nat) : ∀ (l : List Nat) (cs : List Host.Cell),
    (∀ j ∈ l, j < 80) → kvGet (cellDefault fs) (l.foldl (fun cs j =>
      kvSet (fun _ => cwByte (baseWord fs key) j) cs (key * 128 + j) (cwByte c j)) cs) a =
    if a / 128 = key ∧ a % 128 ∈ l then cwByte c (a % 128) else kvGet (cellDefault fs) cs a := by
  intro l
  induction l with
  | nil => intro cs _; simp
  | cons j l ih =>
    intro cs hl
    have hj : j < 80 := hl j (by simp)
    have hset : kvSet (fun _ => cwByte (baseWord fs key) j) cs (key * 128 + j) (cwByte c j) =
        kvSet (cellDefault fs) cs (key * 128 + j) (cwByte c j) := by
      unfold kvSet
      rw [cellDefault_at fs key hj]
    rw [List.foldl_cons, ih _ fun i hi => hl i (List.mem_cons_of_mem _ hi), hset, kvGet_set]
    by_cases ha : a = key * 128 + j
    · subst ha
      have hdiv : (key * 128 + j) / 128 = key := by omega
      have hmod : (key * 128 + j) % 128 = j := by omega
      simp [hdiv, hmod]
    · have hne : a / 128 = key → a % 128 ≠ j := by omega
      by_cases hk : a / 128 = key
      · simp [ha, hk, hne hk]
      · simp [ha, hk]

/-- A write sets the cells of its key. -/
theorem Dram.cell_put (m : Dram) (key : Nat) (c : Codeword) (a : Nat) :
    (m.put key c).cell a = if a / 128 = key ∧ a % 128 < 80 then cwByte c (a % 128) else m.cell a := by
  have h := kvGet_foldl_putByte m.fills key c a (List.range 80) m.cells fun j hj => List.mem_range.mp hj
  simp only [List.mem_range] at h
  exact h

theorem Dram.read_put_self (m : Dram) (key : Nat) (c : Codeword) : (m.put key c).read key = c := by
  have hbytes : (List.range 80).map (fun j => ((m.put key c).cell (key * 128 + j)).toNat) = toBytes 80 c.toNat := by
    refine List.map_congr_left fun j hj => ?_
    have hj := List.mem_range.mp hj
    rw [Dram.cell_put, if_pos (by omega), show (key * 128 + j) % 128 = j by omega]
    exact (BitVec.toNat_ofNat _ _).trans (Nat.mod_eq_of_lt (Nat.mod_lt _ (by decide)))
  rw [Dram.read_eq, hbytes, ofBytes_toBytes]
  apply BitVec.eq_of_toNat_eq
  have h640 : (256 : Nat) ^ 80 = 2 ^ 640 := by rw [show 256 = 2 ^ 8 by norm_num, ← pow_mul]
  rw [BitVec.toNat_ofNat, h640, Nat.mod_mod, Nat.mod_eq_of_lt c.isLt]

theorem Dram.read_put_other (m : Dram) {key k : Nat} (h : k ≠ key) (c : Codeword) : (m.put key c).read k = m.read k := by
  rw [Dram.read_eq, Dram.read_eq]
  congr 2
  refine List.map_congr_left fun j hj => ?_
  have hj := List.mem_range.mp hj
  rw [Dram.cell_put, if_neg (by omega)]

/-- DRAMs in canonical form with the same fills and the same cells are equal. -/
theorem Dram.wf_ext {m n : Dram} (hm : m.wf = true) (hn : n.wf = true) (hf : m.fills = n.fills) (h : ∀ a, m.cell a = n.cell a) : m = n := by
  obtain ⟨cells, fills⟩ := m
  obtain ⟨cells', fills'⟩ := n
  obtain rfl : fills = fills' := hf
  obtain rfl : cells = cells' := kvWf_ext hm hn h
  rfl

theorem Dram.put_fills (m : Dram) (key : Nat) (c : Codeword) : (m.put key c).fills = m.fills := rfl

/-- Writes of different lines commute. -/
theorem Dram.put_comm {m : Dram} (hm : m.wf = true) {key k : Nat} (h : k ≠ key) (c e : Codeword) :
    (m.put key c).put k e = (m.put k e).put key c := by
  refine Dram.wf_ext ((m.put key c).put_wf k e (m.put_wf key c hm)) ((m.put k e).put_wf key c (m.put_wf k e hm))
    (by simp only [Dram.put_fills]) fun a => ?_
  simp only [Dram.cell_put]
  by_cases hk : a / 128 = k
  · simp [hk, h]
  · simp [hk]

/-- Settles O11, cell by cell. -/
theorem dramReadsBack : Obligations.DramReadsBack := fun m key _ c e =>
  ⟨m.read_put_self key c, fun h => m.read_put_other h c, fun hm h => Dram.put_comm hm h c e⟩

/-- A codeword of a DRAM that was never written reads zeros. -/
theorem Dram.read_unwritten (key : Nat) : Dram.read { cells := [], fills := [] } key = 0 := by
  have hzero : (List.range 80).map (fun j => (Dram.cell { cells := [], fills := [] } (key * 128 + j)).toNat) = toBytes 80 0 :=
    List.map_congr_left fun j _ => by simp [Dram.cell, cellDefault, baseWord, cwByte, byteOf]
  rw [Dram.read_eq, hzero, ofBytes_toBytes, Nat.zero_mod]
  exact BitVec.ofNat_eq_ofNat

/-- Settles O3: nothing is stored in the reset state. -/
theorem resetState : Obligations.ResetState :=
  ⟨rfl, rfl, rfl, rfl, RegFile.get_nil, fun _ _ => rfl, rfl, rfl, Dram.read_unwritten⟩

end Sys2Proof.Machine
end

section
/-! SUPPORT. The feeds of Stile (R393 to R406), operation by operation: which feed each changes, and that none but the passing of the start
slot and the end of COOL puts a feed into RAMP (R394). -/

namespace Sys2Proof.Machine

variable (s : Stile) (i : Nat)

/-! ### Reading a feed after a change -/

@[simp] theorem Stile.feed_setFeed_self (f : Feed) : (s.setFeed i f).feed i = f := by
  unfold Stile.feed Stile.setFeed
  by_cases h : i = 0 <;> simp [h]

theorem Stile.feed_setFeed_other {i j : Nat} (h : ¬ (i = 0 ↔ j = 0)) (f : Feed) : (s.setFeed i f).feed j = s.feed j := by
  unfold Stile.feed Stile.setFeed
  by_cases hi : i = 0
  · rw [if_pos hi, if_neg (by tauto), if_neg (by tauto)]
  · rw [if_neg hi, if_pos (by tauto), if_pos (by tauto)]

/-- The two feeds are apart. -/
theorem feed_apart (i : Nat) : ¬ (i = 0 ↔ 1 - i = 0) := by omega

@[simp] theorem Stile.feed_setFeed_beside (f : Feed) : (s.setFeed i f).feed (1 - i) = s.feed (1 - i) :=
  s.feed_setFeed_other (feed_apart i) f

theorem Stile.feed_setFeed (f : Feed) (j : Nat) : (s.setFeed i f).feed j = f ∨ (s.setFeed i f).feed j = s.feed j := by
  by_cases h : i = 0 ↔ j = 0
  · left
    have hj : (s.setFeed i f).feed j = (s.setFeed i f).feed i := by
      unfold Stile.feed
      simp only [h]
    rw [hj, s.feed_setFeed_self]
  · exact .inr (s.feed_setFeed_other h f)

@[simp] theorem Stile.setFeed_regs (f : Feed) : (s.setFeed i f).regs = s.regs := by unfold Stile.setFeed; split <;> rfl
@[simp] theorem Stile.setFeed_time (f : Feed) : (s.setFeed i f).time = s.time := by unfold Stile.setFeed; split <;> rfl
@[simp] theorem Stile.setFeed_meas (f : Feed) : (s.setFeed i f).meas = s.meas := by unfold Stile.setFeed; split <;> rfl
@[simp] theorem Stile.setFeed_seq (f : Feed) : (s.setFeed i f).seq = s.seq := by unfold Stile.setFeed; split <;> rfl
@[simp] theorem Stile.setFeed_pg (f : Feed) : (s.setFeed i f).pg = s.pg := by unfold Stile.setFeed; split <;> rfl
@[simp] theorem Stile.setFeed_eject (f : Feed) : (s.setFeed i f).eject = s.eject := by unfold Stile.setFeed; split <;> rfl
@[simp] theorem Stile.setFeed_withdraw (f : Feed) : (s.setFeed i f).withdraw = s.withdraw := by unfold Stile.setFeed; split <;> rfl
@[simp] theorem Stile.setFeed_count (f : Feed) : (s.setFeed i f).count = s.count := by unfold Stile.setFeed; split <;> rfl
@[simp] theorem Stile.setFeed_oldest (f : Feed) : (s.setFeed i f).oldest = s.oldest := by unfold Stile.setFeed; split <;> rfl
@[simp] theorem Stile.setFeed_log (f : Feed) : (s.setFeed i f).log = s.log := by unfold Stile.setFeed; split <;> rfl
@[simp] theorem Stile.setFeed_ovf (f : Feed) : (s.setFeed i f).ovf = s.ovf := by unfold Stile.setFeed; split <;> rfl

/-- The fault log is no part of the feeds. -/
@[simp] theorem Stile.feed_logEvent (k cause : Nat) (latched : Bool) (vin : Nat) : (s.logEvent k cause latched vin).feed i = s.feed i := by
  unfold Stile.logEvent
  split <;> rfl

/-! ### Operations after which no feed is in RAMP that was not before -/

/-- No feed of `t` is in RAMP that was not in `s`. -/
def Stile.Quiet (s t : Stile) : Prop := ∀ j, (t.feed j).state = .ramp → (s.feed j).state = .ramp

variable {s} {t u : Stile}

theorem Stile.Quiet.refl (s : Stile) : s.Quiet s := fun _ h => h

theorem Stile.Quiet.trans (h : s.Quiet t) (k : t.Quiet u) : s.Quiet u := fun j hj => h j (k j hj)

theorem Stile.quiet_of_feeds (ha : t.feedA = s.feedA) (hb : t.feedB = s.feedB) : s.Quiet t := fun j h => by
  simpa only [Stile.feed, ha, hb] using h

/-- A feed is set without entering RAMP. -/
theorem Stile.quiet_setFeed {f : Feed} (h : f.state = .ramp → (s.feed i).state = .ramp) : s.Quiet (s.setFeed i f) := fun j hj => by
  by_cases hij : i = 0 ↔ j = 0
  · have hsame (x : Stile) : x.feed j = x.feed i := by unfold Stile.feed; simp only [hij]
    rw [hsame, Stile.feed_setFeed_self] at hj
    rw [hsame]
    exact h hj
  · rwa [Stile.feed_setFeed_other s hij] at hj

theorem Stile.Quiet.oneRamp (h : s.Quiet t) (hs : s.oneRamp) : t.oneRamp := fun ht => hs ⟨h 0 ht.1, h 1 ht.2⟩

variable (s)

theorem Stile.quiet_logEvent (k cause : Nat) (latched : Bool) (vin : Nat) : s.Quiet (s.logEvent k cause latched vin) := fun j hj => by
  rwa [Stile.feed_logEvent] at hj

/-- Retries are left for a feed that faults now (R398). -/
def Stile.retriesLeft : Bool :=
  match rtyLimit (s.f (.stlFeedCtrl i) F.stlFeedCtrl_RTY) with
  | none => true
  | some k => decide ((s.feed i).retries + 1 ≤ k)

/-- What a fault makes of a feed (R398). -/
def Stile.faulted (cause : Nat) : Feed :=
  { (s.feed i).gatesOff with state := if s.retriesLeft i then .cool else .latched, cause := cause,
                             retries := min ((s.feed i).retries + 1) 15, coolTime := 0, lowTime := 0, orderly := none }

variable {s i} in
theorem Stile.faulted_state_ne {q : FeedState} (hc : q ≠ .cool) (hl : q ≠ .latched) {cause : Nat} : (s.faulted i cause).state ≠ q := by
  unfold Stile.faulted
  dsimp only
  split
  · exact hc.symm
  · exact hl.symm

theorem Stile.fault_eq (cause vin : Nat) :
    s.fault i cause vin = (s.setFeed i (s.faulted i cause)).logEvent i cause (!s.retriesLeft i) vin := rfl

theorem Stile.quiet_fault (cause vin : Nat) : s.Quiet (s.fault i cause vin) := by
  rw [s.fault_eq]
  have hne : (s.faulted i cause).state ≠ .ramp := Stile.faulted_state_ne (by decide) (by decide)
  exact (Stile.quiet_setFeed i fun h => absurd h hne).trans (Stile.quiet_logEvent _ _ _ _ _)

theorem Stile.quiet_fetBad (cause vin : Nat) : s.Quiet (s.fetBad i cause vin) := by
  refine (Stile.quiet_setFeed i ?_).trans (Stile.quiet_logEvent _ _ _ _ _)
  exact nofun

theorem Stile.quiet_toQual : s.Quiet (s.toQual i) := Stile.quiet_setFeed i nofun

theorem Stile.quiet_rangeOff (cause vin : Nat) : s.Quiet (s.rangeOff i cause vin) :=
  ((Stile.quiet_setFeed i (f := { s.feed i with cause := cause }) id).trans (Stile.quiet_toQual _ i)).trans (Stile.quiet_logEvent _ _ _ _ _)

theorem Stile.quiet_orderlyOff (cause : Nat) : s.Quiet (s.orderlyOff i cause) := by
  unfold Stile.orderlyOff
  dsimp only
  split
  iterate 3 exact .refl s
  · split
    · exact .refl s
    · split
      · exact Stile.quiet_setFeed i id
      · exact Stile.quiet_setFeed i nofun
  · exact Stile.quiet_setFeed i nofun

theorem Stile.assertPfw_feedA : s.assertPfw.feedA = s.feedA := by unfold Stile.assertPfw; split <;> rfl
theorem Stile.assertPfw_feedB : s.assertPfw.feedB = s.feedB := by unfold Stile.assertPfw; split <;> rfl

theorem Stile.decideWithdraw_feedA : s.decideWithdraw.feedA = s.feedA := by
  unfold Stile.decideWithdraw; split
  · exact s.assertPfw_feedA
  · rfl
theorem Stile.decideWithdraw_feedB : s.decideWithdraw.feedB = s.feedB := by
  unfold Stile.decideWithdraw; split
  · exact s.assertPfw_feedB
  · rfl
@[simp] theorem Stile.decideWithdraw_feed : s.decideWithdraw.feed i = s.feed i := by
  simp only [Stile.feed, s.decideWithdraw_feedA, s.decideWithdraw_feedB]

theorem Stile.quiet_decideWithdraw : s.Quiet s.decideWithdraw := Stile.quiet_of_feeds s.decideWithdraw_feedA s.decideWithdraw_feedB

theorem Stile.quiet_withdrawPg : s.Quiet s.withdrawPg := Stile.quiet_of_feeds s.assertPfw_feedA s.assertPfw_feedB

/-- What the end of an orderly turn-off makes of a feed. -/
def Feed.orderlyEnd (f : Feed) : Feed := if f.orderly.isSome then f.toOff else f

theorem Stile.feed_orderlyGatesOff : s.orderlyGatesOff.feed i = (s.feed i).orderlyEnd := by
  unfold Stile.feed
  split <;> rfl

theorem Feed.orderlyEnd_ramp {f : Feed} (h : f.orderlyEnd.state = .ramp) : f.state = .ramp := by
  unfold Feed.orderlyEnd at h
  split at h
  · exact nomatch h
  · exact h

theorem Stile.quiet_orderlyGatesOff : s.Quiet s.orderlyGatesOff := fun j hj => by
  rw [Stile.feed_orderlyGatesOff] at hj
  exact Feed.orderlyEnd_ramp hj

theorem Stile.quiet_hotOff (vin : Nat) : s.Quiet (s.hotOff i vin) := by
  unfold Stile.hotOff
  dsimp only
  split
  iterate 3 exact .refl s
  refine (Stile.quiet_setFeed i ?_).trans (Stile.quiet_logEvent _ _ _ _ _)
  exact nofun

/-! ### The rows of an evaluation step (Table 15.6) -/

theorem Stile.quiet_tickFeed (x : StlSample) : s.Quiet (s.tickFeed x i) := Stile.quiet_setFeed i id

theorem Stile.quiet_offPin (low : Bool) : s.Quiet (s.offPin low) := by
  unfold Stile.offPin
  split
  · exact Stile.quiet_of_feeds rfl rfl
  · split <;> exact Stile.quiet_of_feeds rfl rfl

variable (x : StlSample) (p : Stile × List Nat)

theorem Stile.quiet_row1 : p.1.Quiet (Stile.row1 x p i).1 := by
  unfold Stile.row1
  dsimp only
  split
  · exact p.1.quiet_fault i _ _
  · split
    · split
      · exact Stile.quiet_setFeed i id
      · split
        · exact Stile.quiet_setFeed i id
        · exact .refl _
    · exact .refl _

theorem Stile.quiet_row2 : p.1.Quiet (Stile.row2 x p i).1 := by
  unfold Stile.row2
  dsimp only
  split
  · exact .refl _
  · split
    · exact p.1.quiet_fetBad i _ _
    · split
      · exact p.1.quiet_fetBad i _ _
      · exact .refl _

theorem Stile.quiet_row34 : p.1.Quiet (Stile.row34 x p i).1 := by
  unfold Stile.row34
  dsimp only
  split
  · exact .refl _
  · split
    · exact p.1.quiet_fault i _ _
    · split
      · exact p.1.quiet_fault i _ _
      · exact .refl _

theorem Stile.quiet_row56 : p.1.Quiet (Stile.row56 x p i).1 := by
  unfold Stile.row56
  dsimp only
  split
  · exact .refl _
  · split
    · exact p.1.quiet_rangeOff i _ _
    · split
      · exact p.1.quiet_rangeOff i _ _
      · exact .refl _

theorem Stile.quiet_row7 : p.1.Quiet (Stile.row7 p i).1 := by
  unfold Stile.row7
  dsimp only
  split
  · exact .refl _
  · split
    · exact .refl _
    · split
      · exact p.1.quiet_orderlyOff i _
      · split
        · exact p.1.quiet_orderlyOff i _
        · exact .refl _

theorem Stile.quiet_row8 : p.1.Quiet (Stile.row8 x p i).1 := by
  unfold Stile.row8
  dsimp only
  split
  · exact .refl _
  · split
    all_goals
      split
      · exact Stile.quiet_setFeed i id
      · split <;> exact Stile.quiet_setFeed i id

theorem Stile.quiet_assertPfw : s.Quiet s.assertPfw := Stile.quiet_of_feeds s.assertPfw_feedA s.assertPfw_feedB

variable {s} in
/-- A part of row 10: where its condition holds, `t` in place of `s`. -/
theorem Stile.quiet_ite {c : Prop} [Decidable c] {t : Stile} (h : s.Quiet t) : s.Quiet (if c then t else s) := by
  split
  · exact h
  · exact .refl s

theorem Stile.quiet_row10 (last : Nat) : s.Quiet (s.row10 x last).1 := by
  unfold Stile.row10
  extract_lets before had s1 s2 s3 s4 s5 s6 note
  have h1 : s.Quiet s1 := s.quiet_decideWithdraw
  have h2 : s1.Quiet s2 := Stile.quiet_ite s1.quiet_assertPfw
  have h3 : s2.Quiet s3 := Stile.quiet_ite s2.quiet_withdrawPg
  have h4 : s3.Quiet s4 := Stile.quiet_ite s3.quiet_orderlyGatesOff
  have h5 : s4.Quiet s5 := Stile.quiet_ite (Stile.quiet_of_feeds rfl rfl)
  have h6 : s5.Quiet s6 := Stile.quiet_ite (Stile.quiet_of_feeds rfl rfl)
  exact ((((h1.trans h2).trans h3).trans h4).trans h5).trans h6

/-! ### The start slot -/

variable {s} {p}

theorem Stile.feed_passSlot (h : s.slot = 0) : (∀ j, s.passSlot.feed j = s.feed j) ∨
    ∃ k, (s.feed k).state = .wait ∧ s.passSlot = s.toRamp k := by
  unfold Stile.passSlot
  rw [if_neg (not_not.mpr h)]
  split
  · next ha => exact .inr ⟨0, ha, rfl⟩
  · split
    · next hb => exact .inr ⟨1, hb, rfl⟩
    · exact .inl fun _ => rfl

theorem Stile.passSlot_of_held (h : s.slot ≠ 0) : s.passSlot = s := if_pos h

/-- A start slot that is free is held by no feed in RAMP. -/
theorem Stile.not_ramp_of_slot (h : s.slot = 0) (j : Nat) : (s.feed j).state ≠ .ramp := by
  intro hj
  unfold Stile.slot at h
  have hold {f : Feed} (hf : f.state = .ramp) : f.holdsSlot = true := by simp [Feed.holdsSlot, hf]
  unfold Stile.feed at hj
  split at hj
  · simp [hold hj] at h
  · rw [hold hj] at h
    split at h <;> simp at h

theorem Stile.toRamp_oneRamp {k : Nat} (h : (s.feed (1 - k)).state ≠ .ramp) : (s.toRamp k).oneRamp := by
  have hbeside : ((s.toRamp k).feed (1 - k)).state ≠ .ramp := by
    rwa [Stile.toRamp, Stile.feed_setFeed_beside]
  rintro ⟨ha, hb⟩
  by_cases hk : k = 0
  · subst hk
    exact hbeside hb
  · refine hbeside ?_
    have hk : 1 - k = 0 := by omega
    rw [hk]
    exact ha

theorem Stile.passSlot_oneRamp (h : s.oneRamp) : s.passSlot.oneRamp := by
  by_cases hs : s.slot = 0
  · rcases Stile.feed_passSlot hs with hsame | ⟨k, -, hk⟩
    · exact Stile.Quiet.oneRamp (fun j hj => by rwa [hsame] at hj) h
    · rw [hk]
      exact Stile.toRamp_oneRamp (Stile.not_ramp_of_slot hs _)
  · rwa [Stile.passSlot_of_held hs]

theorem Stile.coolDone_oneRamp (h : s.oneRamp) : (s.coolDone i).oneRamp := by
  unfold Stile.coolDone
  split
  · exact h
  · next hne => exact Stile.toRamp_oneRamp hne

theorem Stile.rampDone_oneRamp (h : s.oneRamp) : (s.rampDone i).oneRamp :=
  Stile.passSlot_oneRamp (Stile.Quiet.oneRamp (Stile.quiet_setFeed i (by nofun)) h)

theorem Stile.qualDone_oneRamp (h : s.oneRamp) : (s.qualDone i).oneRamp :=
  Stile.passSlot_oneRamp (Stile.Quiet.oneRamp (Stile.quiet_setFeed i (by nofun)) h)

theorem Stile.row9_oneRamp (h : p.1.oneRamp) : (Stile.row9 x p i).1.1.oneRamp := by
  unfold Stile.row9
  dsimp only
  split
  · exact Stile.rampDone_oneRamp i h
  · exact h

theorem Stile.moves_oneRamp (h : p.1.oneRamp) : (Stile.moves x p i).1.oneRamp := by
  have hqual : (p.1.toQual i).oneRamp := (p.1.quiet_toQual i).oneRamp h
  unfold Stile.moves
  dsimp only
  split
  · exact h
  · split
    · split
      · exact hqual
      · exact h
    · split
      · exact hqual
      · split
        · exact Stile.qualDone_oneRamp i h
        · exact h
    · split
      · exact hqual
      · exact h
    · split
      · exact Stile.coolDone_oneRamp i h
      · exact h
    · split
      · exact Stile.Quiet.oneRamp (Stile.quiet_setFeed i (by exact id)) h
      · exact h
    · split
      · exact Stile.Quiet.oneRamp (Stile.quiet_setFeed i (by nofun)) h
      · exact h
    · exact h

/-! ### The parts of an evaluation step, in order -/

/-- The timers of a step. -/
def Stile.timed (s : Stile) : Stile :=
  let s := { s with time := s.time + 1, pfwTime := s.pfwTime + 1, pgOffTime := if s.pg then 0 else s.pgOffTime + 1 }
  ((s.offPin x.offLow).tickFeed x 0).tickFeed x 1

/-- Rows 1 to 8, A before B in each. -/
def Stile.ranked (s : Stile) : Stile × List Nat :=
  let p := Stile.row1 x (Stile.row1 x (s.timed x, []) 0) 1
  let p := Stile.row2 x (Stile.row2 x p 0) 1
  let p := Stile.row34 x (Stile.row34 x p 0) 1
  let p := Stile.row56 x (Stile.row56 x p 0) 1
  let p := Stile.row7 (Stile.row7 p 0) 1
  Stile.row8 x (Stile.row8 x p 0) 1

/-- Row 9, the transitions that Table 15.6 does not rank, and the start slot. -/
def Stile.moved (s : Stile) : Stile :=
  (Stile.moves x (Stile.moves x (Stile.row9 x (Stile.row9 x (s.ranked x) 0).1 1).1 0) 1).1.passSlot

variable (s) in
/-- A step ends with row 10. -/
theorem Stile.evalStep_parts : ∃ last, (s.evalStep x).1 = ((s.moved x).row10 x last).1 := by
  unfold Stile.evalStep
  extract_lets s1 s2 s3 last p0 p1 p2 p3 p4 p5 p6
  have hranked : s.ranked x = p6 := by
    unfold Stile.ranked Stile.timed
    with_reducible rfl
  clear_value p6 last
  subst hranked
  rcases h0 : Stile.row9 x (s.ranked x) 0 with ⟨p7, n0⟩
  rcases h1 : Stile.row9 x p7 1 with ⟨p8, n1⟩
  simp only [Stile.moved, h0, h1]
  generalize (Stile.moves x (Stile.moves x p8 0) 1).1.passSlot = u
  exact ⟨_, rfl⟩

variable (s) in
theorem Stile.quiet_timed : s.Quiet (s.timed x) := by
  unfold Stile.timed
  extract_lets t
  have ht : s.Quiet t := Stile.quiet_of_feeds rfl rfl
  exact ((ht.trans (t.quiet_offPin _)).trans (Stile.quiet_tickFeed _ 0 x)).trans (Stile.quiet_tickFeed _ 1 x)

variable (s) in
theorem Stile.quiet_ranked : s.Quiet (s.ranked x).1 := by
  unfold Stile.ranked
  extract_lets p1 p2 p3 p4 p5
  have h1 : s.Quiet p1.1 := ((s.quiet_timed x).trans (Stile.quiet_row1 0 x (s.timed x, []))).trans (Stile.quiet_row1 1 x _)
  have h2 : p1.1.Quiet p2.1 := (Stile.quiet_row2 0 x p1).trans (Stile.quiet_row2 1 x _)
  have h3 : p2.1.Quiet p3.1 := (Stile.quiet_row34 0 x p2).trans (Stile.quiet_row34 1 x _)
  have h4 : p3.1.Quiet p4.1 := (Stile.quiet_row56 0 x p3).trans (Stile.quiet_row56 1 x _)
  have h5 : p4.1.Quiet p5.1 := (Stile.quiet_row7 0 p4).trans (Stile.quiet_row7 1 _)
  have h6 := (Stile.quiet_row8 0 x p5).trans (Stile.quiet_row8 1 x _)
  exact ((((h1.trans h2).trans h3).trans h4).trans h5).trans h6

theorem Stile.moved_oneRamp (h : s.oneRamp) : (s.moved x).oneRamp := by
  have hranked := (s.quiet_ranked x).oneRamp h
  have hrow9 := Stile.row9_oneRamp 1 x (Stile.row9_oneRamp 0 x hranked)
  exact Stile.passSlot_oneRamp (Stile.moves_oneRamp 1 x (Stile.moves_oneRamp 0 x hrow9))

theorem Stile.evalStep_oneRamp (h : s.oneRamp) : (s.evalStep x).1.oneRamp := by
  obtain ⟨last, hlast⟩ := s.evalStep_parts x
  rw [hlast]
  exact (Stile.quiet_row10 _ x last).oneRamp (Stile.moved_oneRamp x h)

end Sys2Proof.Machine
end

section
/-! SUPPORT. What the main die can make of Stile (R410, R411): a chain of register writes through the proxy and of loads of Stile's fields.
None puts a feed into RAMP. -/

namespace Sys2Proof.Machine

/-- `t` comes from `s` by writes through the proxy and loads of Stile's fields. -/
inductive Stile.Proxied (s : Stile) : Stile → Prop where
  | refl : s.Proxied s
  | write {t : Stile} (h : s.Proxied t) (r : Reg) (w : Nat) : s.Proxied (t.write r w)
  | load {t : Stile} (h : s.Proxied t) (b : Nat → Nat) : s.Proxied (t.load b)

variable {s t u : Stile}

theorem Stile.Proxied.trans (h : s.Proxied t) (k : t.Proxied u) : s.Proxied u := by
  induction k with
  | refl => exact h
  | write _ r w ih => exact ih.write r w
  | load _ b ih => exact ih.load b

/-! ### A write or a load puts no feed into RAMP -/

theorem Stile.quiet_writeVthr (s : Stile) (w : Nat) : s.Quiet (s.writeVthr w) := by
  unfold Stile.writeVthr
  dsimp only
  split <;> exact Stile.quiet_of_feeds rfl rfl

theorem Stile.quiet_toOff (s : Stile) (i : Nat) : s.Quiet (s.setFeed i (s.feed i).toOff) :=
  Stile.quiet_setFeed i (by nofun)

theorem Stile.quiet_restart (s : Stile) (i : Nat) : s.Quiet (s.restart i) := by
  unfold Stile.restart
  split
  · exact s.quiet_toOff i
  · exact Stile.quiet_of_feeds rfl rfl

theorem Stile.quiet_clrFet (s : Stile) (i : Nat) : s.Quiet (s.clrFet i) := by
  unfold Stile.clrFet
  split
  · exact s.quiet_toOff i
  · exact Stile.quiet_of_feeds rfl rfl

theorem Stile.quiet_pop (s : Stile) : s.Quiet s.pop := by
  unfold Stile.pop
  split <;> exact Stile.quiet_of_feeds rfl rfl

theorem Stile.quiet_disable (s : Stile) (i : Nat) : s.Quiet ((s.orderlyOff i 10).decideWithdraw) :=
  (s.quiet_orderlyOff i 10).trans (Stile.quiet_decideWithdraw _)

theorem Stile.quiet_writeFeedCtrl (s : Stile) (i w : Nat) : s.Quiet (s.writeFeedCtrl i w) := by
  unfold Stile.writeFeedCtrl
  extract_lets s1 s2 s3
  have h1 : s.Quiet s1 := Stile.quiet_of_feeds rfl rfl
  have h2 : s1.Quiet s2 := by
    show s1.Quiet (if s1.en i then s1 else _)
    split
    · exact .refl s1
    · exact s1.quiet_disable i
  have h3 : s2.Quiet s3 := Stile.quiet_ite (s2.quiet_restart i)
  exact ((h1.trans h2).trans h3).trans (Stile.quiet_ite (s3.quiet_clrFet i))

theorem Stile.quiet_write (s : Stile) (r : Reg) (w : Nat) : s.Quiet (s.write r w) := by
  unfold Stile.write
  split
  · exact s.quiet_writeVthr w
  · exact s.quiet_writeFeedCtrl _ w
  · extract_lets s1
    have h1 : s.Quiet s1 := Stile.quiet_ite (Stile.quiet_of_feeds rfl rfl)
    exact h1.trans (Stile.quiet_ite s1.quiet_pop)
  iterate 5 exact .refl s
  exact Stile.quiet_of_feeds rfl rfl

theorem Stile.quiet_load (s : Stile) (b : Nat → Nat) : s.Quiet (s.load b) := by
  unfold Stile.load
  split
  · exact .refl s
  · extract_lets word feed s1
    have h1 : s.Quiet s1 := Stile.Quiet.trans (t := feed (feed s 0) 1) (Stile.quiet_of_feeds rfl rfl) (Stile.quiet_writeVthr _ _)
    exact ((h1.trans (Stile.quiet_write _ _ _)).trans (Stile.quiet_write _ _ _)).trans (Stile.quiet_write _ _ _)

theorem Stile.Proxied.quiet (h : s.Proxied t) : s.Quiet t := by
  induction h with
  | refl => exact .refl s
  | write _ r w ih => exact ih.trans (Stile.quiet_write _ r w)
  | load _ b ih => exact ih.trans (Stile.quiet_load _ b)

/-! ### Bring-up by its steps (Table 16.1) -/

/-- Step 2: new keys, and the time of the boot. -/
def Dev.keyed (d : Dev) : Dev := { d.newKeys with mgt := { d.mgt with bootClk := d.clk } }

/-- Step 3: firmware `fw` runs, and GBL_BOOT and OTP_STAT show what it found. -/
def Dev.booted (nv : Nv) (wide : Option Nat) (fw : Nat) (d : Dev) : Dev :=
  let d := { d.keyed with mgt := { d.keyed.mgt with power := .on } }
  let d := if fw = nv.active % 2 then d else d.raise (vendorRec 0x0904 .failure 0x100 (nv.active % 2))
  ((d.setFlag .gblBoot F.gblBoot_FWSLOT (fw == 1)).setFlag .gblBoot F.gblBoot_COLD wide.isNone).wr .otpStat nv.stat

/-- A die in Hold: ports at reset, links on, and the record (R425). -/
def Dev.holds (nv : Nv) (d : Dev) : Dev :=
  let d := (List.range 4).foldl (fun d p => d.wr (.hpCfg p) (Reg.resetNat (.hpCfg p))) (d.setFlag .gblBoot F.gblBoot_HOLD true)
  let d := { d.modHp fun x => { x with split := [false, false, false, false] } with mgt := { d.mgt with linksOn := true } }
  d.raise (vendorRec 0x0901 .fatal 0x100 (nv.holdCause + d.fld .otpStat F.otpStat_GEN * 2 ^ 4))

/-- Steps 4 and 5: the fields of the generation, the set points, links on, and training starts. -/
def Dev.brought (nv : Nv) (wide : Option Nat) (nack crcBad : List Nat) (d : Dev) : Dev :=
  let d := (d.loadFields (nv.byte (nv.chosen.getD 0))).reDistance
  let d := (List.range 4).foldl (fun (d : Dev) q => d.emit (.avs q (avsCode (d.fld (.gblAvsQ q) F.gblAvsQ_SETPOINT)))) d
  let d := { d with mgt := { d.mgt with linksOn := true } }
  let d : Dev := match wide with
    | some c => d.raise (vendorRec 0x0906 .warning 0x100 c)
    | none => d
  let d := d.startTraining nv nack crcBad
  if d.role = 0 then d else d.leyStart

section
variable {nv : Nv} (st : Stile) (d : Dev) (wide : Option Nat) (nack crcBad : List Nat)

theorem Dev.bringUp_of_no_firmware (h : nv.fwRun = none) :
    d.bringUp nv st wide nack crcBad = ({ d.keyed with mgt := { d.keyed.mgt with power := .recovery } }, st) := by
  unfold Dev.bringUp Dev.keyed
  rw [h]

theorem Dev.bringUp_of_hold {fw : Nat} (h : nv.fwRun = some fw) (hc : nv.holdCause ≠ 0) :
    d.bringUp nv st wide nack crcBad = ((d.booted nv wide fw).holds nv, st) := by
  unfold Dev.bringUp Dev.booted Dev.keyed Dev.holds
  simp only [h, hc, ne_eq, not_false_eq_true, if_true]

theorem Dev.bringUp_of_generation {fw : Nat} (h : nv.fwRun = some fw) (hc : nv.holdCause = 0) :
    d.bringUp nv st wide nack crcBad = ((d.booted nv wide fw).brought nv wide nack crcBad,
      if ((d.booted nv wide fw).brought nv wide nack crcBad).mgt.stlLost || !st.running then st
      else st.load (nv.byte (nv.chosen.getD 0))) := by
  unfold Dev.bringUp Dev.booted Dev.keyed Dev.brought
  cases wide <;> simp only [h, hc, ne_eq, not_true_eq_false, if_false]

end

/-! ### The end of a burn by its steps (Table 16.6, steps 9 to 13) -/

/-- BEGIN and the body of the slot, as they burned. -/
def Burn.bodied (x : Burn) (stuck : List Nat) (nv : Nv) : Nv := burnWith stuck (burnWith stuck nv x.slot 0 [0xFF, 0xFF]) x.slot 4 x.body

/-- The body reads back as the image has it. -/
def Burn.bodyOk (x : Burn) (stuck : List Nat) (nv : Nv) : Bool := (x.bodied stuck nv).bytes x.slot 4 2036 == x.body

/-- What the burn leaves in the flash. -/
def Burn.done (x : Burn) (stuck : List Nat) (nv : Nv) : Nv :=
  if x.bodyOk stuck nv then burnWith stuck (x.bodied stuck nv) x.slot 0x7F8 x.tail else x.bodied stuck nv

/-- The slot verifies. -/
def Burn.verifies (x : Burn) (stuck : List Nat) (nv : Nv) : Bool := x.bodyOk stuck nv && (x.done stuck nv).sealValid x.slot

/-- The die when the burn has ended: OTP_STAT and OTP_COMMIT show it. -/
def Dev.burnShown (x : Burn) (stuck : List Nat) (nv : Nv) (d : Dev) : Dev :=
  ((d.modMgt fun m => { m with burn := none }).showSlots (x.done stuck nv)).commitEnds
    (if x.verifies stuck nv then 0 else 9) x.slot (x.slot + 1)

/-- The same, with the reset that a commit in Hold asks for. -/
def Dev.burned (x : Burn) (stuck : List Nat) (nv : Nv) (d : Dev) : Dev :=
  if x.verifies stuck nv && (d.burnShown x stuck nv).inHold then (d.burnShown x stuck nv).modMgt fun m => { m with holdReset := true }
  else d.burnShown x stuck nv

section
variable {x : Burn} (stuck : List Nat) (nv : Nv) (st : Stile) {d : Dev}

theorem Dev.burnComplete_of_idle (h : d.mgt.burn = none) : d.burnComplete stuck nv st = ((d, st), nv) := by
  unfold Dev.burnComplete
  rw [h]

/-- The end of a burn is `Dev.burned`, and a reset where one waited for it. -/
theorem Dev.burnComplete_of_burn (h : d.mgt.burn = some x) : d.burnComplete stuck nv st =
    (((d.burned x stuck nv).mgt.resetDue.elim (d.burned x stuck nv, st) ((d.burned x stuck nv).wideReset (x.done stuck nv) st)),
      x.done stuck nv) := by
  unfold Dev.burnComplete
  simp -zeta only [h]
  extract_lets d1 nv1 bodyOk nv2 ok d2 d3
  have hbodied : nv1 = x.bodied stuck nv := rfl
  have hok : bodyOk = x.bodyOk stuck nv := rfl
  have hdone : nv2 = x.done stuck nv := by
    show (if bodyOk then burnWith stuck nv1 x.slot 0x7F8 x.tail else nv1) = _
    rw [hok, hbodied, Burn.done]
  have hverifies : ok = x.verifies stuck nv := by
    show (bodyOk && nv2.sealValid x.slot) = _
    rw [hok, hdone, Burn.verifies]
  have hburned : d3 = d.burned x stuck nv := by
    have hshown : d2 = d.burnShown x stuck nv := by
      show (d1.showSlots nv2).commitEnds (if ok then 0 else 9) x.slot (x.slot + 1) = _
      rw [hverifies, hdone, Dev.burnShown]
    show (if ok && d2.inHold then d2.modMgt fun m => { m with holdReset := true } else d2) = _
    rw [hverifies, hshown, Dev.burned]
  clear_value d3 nv2
  rw [hburned, hdone]
  cases (d.burned x stuck nv).mgt.resetDue with
  | none => rw [Option.elim_none]
  | some c => rw [Option.elim_some]

end

/-! ### Resets and register writes of the main die -/

variable (nv : Nv) (st : Stile) (d : Dev)

theorem Dev.bringUp_proxied (wide : Option Nat) (nack crcBad : List Nat) : st.Proxied (d.bringUp nv st wide nack crcBad).2 := by
  cases h : nv.fwRun with
  | none =>
    rw [d.bringUp_of_no_firmware st wide nack crcBad h]
    exact .refl
  | some fw =>
    by_cases hc : nv.holdCause = 0
    · rw [d.bringUp_of_generation st wide nack crcBad h hc]
      dsimp only
      split
      · exact .refl
      · exact .load .refl _
    · rw [d.bringUp_of_hold st wide nack crcBad h hc]
      exact .refl

theorem Dev.wideReset_proxied (cause : Nat) : st.Proxied (d.wideReset nv st cause).2 := Dev.bringUp_proxied _ _ _ _ _ _

theorem Dev.askReset_proxied (cause : Nat) : st.Proxied (d.askReset nv st cause).2 := by
  unfold Dev.askReset
  split
  · exact .refl
  · exact d.wideReset_proxied nv st cause

theorem Dev.holdReset_proxied : st.Proxied (d.holdReset nv st).2 := by
  unfold Dev.holdReset
  split
  · exact d.askReset_proxied nv st 1
  · exact .refl

theorem Dev.watchdog_proxied : st.Proxied (d.watchdog nv st).2 := by
  unfold Dev.watchdog
  split
  · exact .refl
  · extract_lets second d1 m2 d2
    split
    · exact Dev.wideReset_proxied nv st _ 2
    · exact .refl

theorem Dev.powerOnRelease_proxied (s1 s2 s3 : Nat) (spd : List (Option Spd)) (nack crcBad : List Nat) :
    st.Proxied (d.powerOnRelease nv st s1 s2 s3 spd nack crcBad).2 := by
  unfold Dev.powerOnRelease
  split
  · exact .refl
  · exact Dev.bringUp_proxied _ _ _ _ _ _

theorem Dev.burnComplete_proxied (stuck : List Nat) : st.Proxied (Dev.burnComplete stuck nv st d).1.2 := by
  cases h : d.mgt.burn with
  | none =>
    rw [Dev.burnComplete_of_idle stuck nv st h]
    exact .refl
  | some x =>
    rw [Dev.burnComplete_of_burn stuck nv st h]
    dsimp only
    cases (d.burned x stuck nv).mgt.resetDue with
    | none => exact .refl
    | some c =>
      rw [Option.elim_some]
      exact Dev.wideReset_proxied _ st _ _

variable (p : Dev × Stile)

theorem Dev.writeReg_proxied (r : Reg) (w : Nat) : p.2.Proxied (Dev.writeReg nv p r w).2 := by
  unfold Dev.writeReg
  dsimp only
  split
  · exact .refl
  · split
    · exact .refl
    · split
      · dsimp only
        split
        · exact .refl
        · exact .write .refl r w
      · split
        · split
          · exact p.1.askReset_proxied nv p.2 0
          · exact .refl
        · exact .refl

theorem Dev.writeDword_proxied (x : RegSlot) (v : Nat) : p.2.Proxied (Dev.writeDword nv p x v).2 := by
  unfold Dev.writeDword
  split
  · exact Dev.writeReg_proxied nv p _ _
  · exact Dev.writeReg_proxied nv p _ _
  · exact .refl
  · exact .refl
  · exact .refl

/-- What a pass over a list does, where each of its steps is a chain of proxy writes. -/
theorem foldl_proxied {α : Type} {f : Dev × Stile → α → Dev × Stile} (h : ∀ (p : Dev × Stile) (a : α), p.2.Proxied (f p a).2) (l : List α) :
    ∀ p : Dev × Stile, p.2.Proxied (l.foldl f p).2 := by
  induction l with
  | nil => exact fun _ => .refl
  | cons a l ih => exact fun p => (h p a).trans (ih (f p a))

theorem Dev.writeAccess_proxied (view : RegView) (head off size v : Nat) :
    p.2.Proxied (Dev.writeAccess nv p view head off size v).2 := by
  unfold Dev.writeAccess
  split
  · exact Dev.writeReg_proxied nv p _ _
  · refine foldl_proxied (fun q i => ?_) _ p
    split
    · exact Dev.writeDword_proxied nv q _ _
    · exact .refl

theorem Dev.regWr_proxied (k : Nat) : st.Proxied (d.regWr nv st k).2 := by
  unfold Dev.regWr
  split
  · exact .refl
  · split
    · split
      · exact .refl
      · split
        · exact .refl
        · exact Dev.writeAccess_proxied nv (_, st) _ _ _ _ _
    · split <;> exact .refl

theorem Dev.regWrTurn_proxied (k : Nat) : st.Proxied (d.regWrTurn nv st k).2 := by
  unfold Dev.regWrTurn
  split
  · exact .refl
  · exact d.regWr_proxied nv st k

theorem rxMember_proxied (k : Nat) (e : Nat × LeyEnt) : p.2.Proxied (rxMember nv k p e).2 := by
  unfold rxMember
  split
  · exact .refl
  · split
    · exact p.1.regWr_proxied nv p.2 k
    · exact .refl

theorem leyKind_proxied (k : Nat) (kind : Nat) : p.2.Proxied (leyKind nv k p kind).2 := by
  unfold leyKind
  split
  · exact .refl
  · split
    · exact .refl
    · split
      · exact .refl
      · split
        · exact foldl_proxied (rxMember_proxied nv · k) _ p
        · exact .refl

theorem leyEvents_proxied (k : Nat) : p.2.Proxied (leyEvents nv k p).2 := by
  unfold leyEvents
  split
  · exact .refl
  · extract_lets t
    exact foldl_proxied (leyKind_proxied nv · k) t.1 (t.2, p.2)

theorem memberLinkDown_proxied (k : Nat) : p.2.Proxied (memberLinkDown nv k p).2 := by
  unfold memberLinkDown
  split
  · extract_lets t
    have ht : p.2.Proxied t.2 := leyEvents_proxied nv p k
    split
    · exact ht.trans (leyEvents_proxied nv t k)
    · exact ht
  · exact .refl

theorem crossingDelivery_proxied (x : XId) : p.2.Proxied (crossingDelivery nv x p).2 := by
  unfold crossingDelivery
  split
  · exact .refl
  · split
    · exact .refl
    · exact .refl
    · exact leyEvents_proxied nv p _
    · exact .refl

theorem Dev.stileDrain_quiet : st.Quiet (d.stileDrain st).2 := by
  have hdrain : ∀ (n : Nat) (q : Dev × Stile), q.2.Quiet (Stile.drain n q).2 := by
    intro n
    induction n with
    | zero => exact fun q => .refl q.2
    | succ n ih =>
      rintro ⟨d, s⟩
      unfold Stile.drain
      split
      · exact .refl s
      · exact s.quiet_pop.trans (ih (_, s.pop))
      · exact s.quiet_pop.trans (ih (_, s.pop))
  unfold Dev.stileDrain
  split
  · exact .refl st
  · exact hdrain 16 (d, st)

theorem Dev.viaStile_quiet {f : Stile → Stile} (h : st.Quiet (f st)) (r : Reg) : st.Quiet (d.viaStile st r f).2 := by
  unfold Dev.viaStile
  split
  · exact .refl st
  · split
    · exact .refl st
    · dsimp only
      split
      · exact .refl st
      · exact h

theorem Stile.quiet_setEn (i : Nat) (en : Bool) : st.Quiet (Stile.setEn i en st) := by
  unfold Stile.setEn
  extract_lets s1
  have h1 : st.Quiet s1 := Stile.quiet_of_feeds rfl rfl
  split
  · exact h1
  · exact h1.trans (s1.quiet_disable i)

/-! ### Stile's own events -/

theorem Stile.after_fst (i : Nat) (old s : Stile) : (Stile.after i old s).1 = s.passSlot.decideWithdraw := rfl

theorem Stile.after_oneRamp (i : Nat) (old : Stile) {s : Stile} (h : s.oneRamp) : (Stile.after i old s).1.oneRamp := by
  rw [Stile.after_fst]
  exact (Stile.quiet_decideWithdraw _).oneRamp (Stile.passSlot_oneRamp h)

theorem Stile.feedEvent_oneRamp {i : Nat} {c : Feed → Bool} {f : Stile → Stile} (hs : s.oneRamp) (hf : s.oneRamp → (f s).oneRamp) :
    (Stile.feedEvent i c f s).1.oneRamp := by
  unfold Stile.feedEvent
  split
  · exact Stile.after_oneRamp i s (hf hs)
  · exact hs

theorem Stile.ejected_oneRamp (h : s.oneRamp) : s.ejected.1.oneRamp := by
  refine Stile.after_oneRamp _ _ (Stile.Quiet.oneRamp ?_ h)
  have heject : s.Quiet { s with eject := true, offTime := 0 } := Stile.quiet_of_feeds rfl rfl
  exact (heject.trans (Stile.quiet_orderlyOff _ 0 9)).trans (Stile.quiet_orderlyOff _ 1 9)

theorem Stile.thermal_oneRamp (h : s.oneRamp) (vinA vinB : Nat) : (Stile.thermal vinA vinB s).1.oneRamp :=
  Stile.after_oneRamp _ _ (((s.quiet_hotOff 0 vinA).trans (Stile.quiet_hotOff _ 1 vinB)).oneRamp h)

theorem Stile.step_oneRamp (h : s.oneRamp) (x : StlSample) : (s.step x).1.oneRamp := by
  unfold Stile.step
  split
  · exact Stile.evalStep_oneRamp x h
  · split
    · exact Stile.evalStep_oneRamp x h
    · exact h

end Sys2Proof.Machine
end

section
/-! SUPPORT. What every step keeps (O5, O6, O7): DRAM in its canonical form, the bits of the OTP that are 1, and one start slot. -/

namespace Sys2Proof.Machine

open Sys2Proof

/-! ### The OTP only gains bits (R422) -/

variable {a b c : Nv}

theorem Nv.within_refl (a : Nv) : a.within a := fun _ _ _ h => h

theorem Nv.within.trans (h : a.within b) (k : b.within c) : a.within c := fun s i j hb => k s i j (h s i j hb)

theorem Nv.within_of_otp_eq (h : b.otp = a.otp) : a.within b := fun s i k hb => by
  rwa [show b.byte s i = a.byte s i by unfold Nv.byte; rw [h]]

theorem Nv.byte_burn (nv : Nv) (slot i v s j : Nat) : (nv.burn slot i v).byte s j =
    if s * 2048 + j = slot * 2048 + i then nv.byte s j ||| v % 256 else nv.byte s j :=
  kvGet_mod (fun _ => 0) nv.otp (slot * 2048 + i) (s * 2048 + j) fun x => x ||| v % 256

theorem Nv.within_burn (nv : Nv) (slot i v : Nat) : nv.within (nv.burn slot i v) := fun s j k h => by
  rw [Nv.byte_burn]
  split
  · rw [Nat.testBit_lor, h, Bool.true_or]
  · exact h

theorem Nv.within_burnAll (slot : Nat) (l : List Nat) : ∀ (nv : Nv) (i : Nat), nv.within (nv.burnAll slot i l) := by
  induction l with
  | nil => exact fun nv _ => nv.within_refl
  | cons v l ih => exact fun nv i => (nv.within_burn slot i v).trans (ih _ (i + 1))

theorem within_burnWith (stuck : List Nat) (nv : Nv) (slot i : Nat) (l : List Nat) : nv.within (burnWith stuck nv slot i l) :=
  Nv.within_burnAll slot _ nv i

theorem Burn.within_torn (x : Burn) (nv : Nv) (p : BurnPoint) : nv.within (x.torn nv p) := by
  unfold Burn.torn
  extract_lets n1 n2
  have hbegun : nv.within n1 := Nv.within_burnAll _ _ _ _
  have hbody : nv.within n2 := hbegun.trans (Nv.within_burnAll _ _ _ _)
  split
  · exact hbegun
  · split
    · exact hbody
    · exact hbody.trans (Nv.within_burnAll _ _ _ _)

theorem Burn.within_done (x : Burn) (stuck : List Nat) (nv : Nv) : nv.within (x.done stuck nv) := by
  have hbody : nv.within (x.bodied stuck nv) := (within_burnWith stuck nv _ _ _).trans (within_burnWith _ _ _ _ _)
  unfold Burn.done
  split
  · exact hbody.trans (within_burnWith _ _ _ _ _)
  · exact hbody

theorem Dev.within_burnComplete (stuck : List Nat) (nv : Nv) (st : Stile) (d : Dev) : nv.within (d.burnComplete stuck nv st).2 := by
  cases h : d.mgt.burn with
  | none =>
    rw [Dev.burnComplete_of_idle stuck nv st h]
    exact nv.within_refl
  | some x =>
    rw [Dev.burnComplete_of_burn stuck nv st h]
    dsimp only
    exact x.within_done stuck nv

theorem Nv.setFw_otp (nv : Nv) (slot : Nat) (x : FwSlot) : (nv.setFw slot x).otp = nv.otp := by unfold Nv.setFw; split <;> rfl

theorem Dev.transferFw_otp (nv : Nv) (d : Dev) (part : FwPart) (slot off len : Nat) (good : Bool) :
    (d.transferFw nv part slot off len good).2.otp = nv.otp := by
  unfold Dev.transferFw
  cases part with
  | abort => rfl
  | full =>
    dsimp only
    split
    · rfl
    · exact nv.setFw_otp _ _
  | first =>
    dsimp only
    split
    · rfl
    · split
      · rfl
      · exact nv.setFw_otp _ _
  | middle =>
    dsimp only
    split
    · split <;> rfl
    · rfl
  | last =>
    dsimp only
    split
    · split
      · exact nv.setFw_otp _ _
      · rfl
    · rfl

theorem Dev.activateFw_otp (nv : Nv) (d : Dev) (slot : Nat) (online : Bool) : (d.activateFw nv slot online).2.otp = nv.otp := by
  unfold Dev.activateFw
  dsimp only
  split
  · rfl
  · split
    · rfl
    · generalize (if slot = 0 then nv.fwA.valid else nv.fwB.valid) = valid
      cases valid <;> rfl

theorem Dev.firmware_otp {op : MboxOp} {nv : Nv} {f : Nv → Dev → Dev × Nv} (d : Dev) (h : (f nv d).2.otp = nv.otp) :
    (d.firmware op nv f).2.otp = nv.otp := by
  unfold Dev.firmware
  split
  · rfl
  · exact h

theorem Dev.trainingRecordWrite_otp (nv : Nv) (n : Nat) (ok : Bool) (d : Dev) : (d.trainingRecordWrite nv n ok).2.otp = nv.otp := by
  unfold Dev.trainingRecordWrite
  split
  · rfl
  · dsimp only
    split <;> rfl

/-! ### What a state keeps, by the ways in which a command ends -/

/-- What `t` keeps of `s`; Stile too where `same` says so. -/
structure State.Keeps (same : Bool) (s t : State) : Prop where
  dram : s.dram.wf = true → t.dram.wf = true
  otp : s.nv.within t.nv
  ramp : s.stile.oneRamp → t.stile.oneRamp
  stile : same = true → t.stile = s.stile

variable {same : Bool} {s t u : State}

theorem State.Keeps.of_eq (hdram : s.dram.wf = true → t.dram.wf = true) (hstile : t.stile = s.stile) (hnv : t.nv.otp = s.nv.otp) :
    s.Keeps same t :=
  ⟨hdram, Nv.within_of_otp_eq hnv, fun h => hstile ▸ h, fun _ => hstile⟩

theorem State.Keeps.refl (s : State) : s.Keeps same s := .of_eq id rfl rfl

theorem State.Keeps.settle (h : s.Keeps same t) (d : Dev) : s.Keeps same (t.settle d) :=
  ⟨fun hd => by
    rw [State.settle_dram]
    exact Dram.flush_wf _ _ (h.dram hd), h.otp, h.ramp, h.stile⟩

theorem State.Keeps.keepFailed (h : s.Keeps same t) : s.Keeps same t.keepFailed := by
  unfold State.keepFailed
  split
  · exact ⟨h.dram, h.otp.trans (Nv.within_of_otp_eq rfl), h.ramp, h.stile⟩
  · exact h

/-- A state whose Stile alone changes. -/
theorem State.keeps_of_stile {st : Stile} (h : s.stile.oneRamp → st.oneRamp) : s.Keeps false { s with stile := st } :=
  ⟨id, s.nv.within_refl, h, nofun⟩

theorem State.keeps_event (f : Dev → Dev) : s.Keeps same (s.event f) := by
  unfold State.event
  split
  · exact (State.Keeps.refl s).settle _
  · exact .refl s

theorem State.keeps_stiled {p : Stile × List StlNote} (h : s.stile.oneRamp → p.1.oneRamp) : s.Keeps false (s.stiled p) := by
  unfold State.stiled
  dsimp only
  split
  · exact (State.keeps_of_stile h).settle _
  · exact State.keeps_of_stile h

theorem State.keeps_onStile {f : Stile → Stile × List StlNote} (h : s.stile.oneRamp → (f s.stile).1.oneRamp) :
    s.Keeps false (s.onStile f) := by
  unfold State.onStile
  split
  · exact State.keeps_stiled h
  · exact .refl s

theorem Stile.setFeed_oneRamp {st : Stile} (i : Nat) {f : Feed} (hf : f.state = .ramp → (st.feed i).state = .ramp) :
    st.oneRamp → (st.setFeed i f).oneRamp := (Stile.quiet_setFeed i hf).oneRamp

theorem State.keeps_feedEvent (i : Nat) {w : Feed → Bool} {f : Stile → Stile} (h : s.stile.oneRamp → (f s.stile).oneRamp) :
    s.Keeps false (s.onStile (Stile.feedEvent i w f)) :=
  State.keeps_onStile fun hs => Stile.feedEvent_oneRamp hs h

section
variable {f : Dev → Dev × Stile} (h : s.stile.Quiet (f s.dev).2)
include h

theorem State.keeps_both : s.Keeps false (s.both f) := by
  unfold State.both
  dsimp only
  split
  · exact (State.keeps_of_stile h.oneRamp).settle _
  · exact .refl s

theorem State.keeps_bothWork : s.Keeps false (s.bothWork f) := by
  unfold State.bothWork
  dsimp only
  split
  · exact (State.keeps_of_stile h.oneRamp).settle _
  · exact .refl s

theorem State.keeps_bothPowered : s.Keeps false (s.bothPowered f) := by
  unfold State.bothPowered
  dsimp only
  split
  · exact (State.keeps_of_stile h.oneRamp).settle _
  · exact .refl s

end

theorem State.keeps_viaStile {r : Reg} {f : Stile → Stile} (h : s.stile.Quiet (f s.stile)) :
    s.Keeps false (s.both fun d => d.viaStile s.stile r f) :=
  State.keeps_both (Dev.viaStile_quiet s.stile s.dev h r)

/-- A register access that leaves Stile alone. -/
theorem State.keeps_bothPowered_same (f : Dev → Dev) : s.Keeps same (s.bothPowered fun d => (f d, s.stile)) := by
  unfold State.bothPowered
  dsimp only
  split
  · exact (State.Keeps.refl s).settle _
  · exact .refl s

theorem State.keeps_flash {f : Dev → Dev × Nv} (h : (f s.dev).2.otp = s.nv.otp) : s.Keeps same (s.flash f) := by
  unfold State.flash
  split
  · exact State.Keeps.settle (State.Keeps.of_eq (s := s) (t := { s with nv := (f s.dev).2 }) id rfl h) _
  · exact .refl s

theorem State.keeps_dropPower (p : BurnPoint) (tripped : Bool) : s.Keeps same (s.dropPower p tripped) := by
  refine ⟨fun _ => rfl, ?_, id, fun _ => rfl⟩
  unfold State.dropPower
  dsimp only
  split
  · exact Burn.within_torn _ _ _
  · exact s.nv.within_refl

theorem State.keeps_registerWrite (view : RegView) (h off size v : Nat) : s.Keeps false (s.registerWrite view h off size v) := by
  unfold State.registerWrite
  split
  · exact .refl s
  · split
    · exact (State.Keeps.refl s).settle _
    · split
      · exact (State.Keeps.refl s).settle _
      · split
        · exact (State.Keeps.refl s).settle _
        · have hq : s.stile.Quiet (Dev.writeAccess s.nv (s.dev, s.stile) view h off size v).2 :=
            (Dev.writeAccess_proxied s.nv (s.dev, s.stile) view h off size v).quiet
          exact ((State.keeps_of_stile hq.oneRamp).settle _).keepFailed

theorem State.keeps_burn (stuck : List Nat) :
    let p := Dev.burnComplete stuck s.nv s.stile s.dev
    s.Keeps false ({ s with stile := p.1.2, nv := p.2 }.settle p.1.1) := by
  intro p
  have hramp : s.stile.oneRamp → p.1.2.oneRamp := (Dev.burnComplete_proxied s.nv s.stile s.dev stuck).quiet.oneRamp
  have hkeeps : s.Keeps false { s with stile := p.1.2, nv := p.2 } :=
    ⟨id, Dev.within_burnComplete stuck s.nv s.stile s.dev, hramp, nofun⟩
  exact hkeeps.settle _

/-! ### Every command -/

/-- The answer is a next state that keeps what a step keeps; Stile too, where the command does not touch it. -/
def KeepsOn (i : Instr) (s : State) (r : Res) : Prop := ∃ t, r = .next t ∧ s.Keeps (!touchesStile i) t

variable {i : Instr}

theorem keepsOn_next (h : s.Keeps (!touchesStile i) t) : KeepsOn i s (.next t) := ⟨t, rfl, h⟩

theorem keepsOn_ifWf (h : s.Keeps (!touchesStile i) t) : KeepsOn i s (ifWf i s (.next t)) := by
  unfold ifWf
  split
  · exact keepsOn_next h
  · exact keepsOn_next (.refl s)

theorem Plain.keepsOn {r : Res} (h : Plain s r) : KeepsOn i s r := by
  obtain ⟨t, ht, -, hstile, hnv, hdram⟩ := h.keeps
  exact ⟨t, ht, .of_eq hdram hstile (by rw [hnv])⟩

/-- What each command keeps: those that act on the main die alone by `exec_plain`, the others by the way in which they end. -/
theorem exec_keepsOn (i : Instr) (s : State) : KeepsOn i s (exec i s) := by
  cases i with
  | crossingDelivery x =>
    exact keepsOn_ifWf (State.keeps_bothWork (crossingDelivery_proxied s.nv (s.dev, s.stile) x).quiet).keepFailed
  | regwr p => exact keepsOn_ifWf (State.keeps_bothWork (Dev.regWrTurn_proxied s.nv s.stile s.dev p).quiet).keepFailed
  | memberLinkDown p =>
    exact keepsOn_ifWf (State.keeps_bothWork (memberLinkDown_proxied s.nv (s.dev, s.stile) p).quiet).keepFailed
  | trainingRecordWrite c ok => exact keepsOn_ifWf (State.keeps_flash (Dev.trainingRecordWrite_otp _ _ _ _))
  | spareCopyComplete _ => exact keepsOn_ifWf (State.keeps_event _).keepFailed
  | stilePor s1 s2 s3 =>
    refine keepsOn_ifWf ?_
    split
    · exact State.keeps_stiled fun _ h => nomatch h.1
    · exact .refl s
  | stileEvaluationStep x => exact keepsOn_ifWf (State.keeps_stiled fun h => Stile.step_oneRamp h x)
  | qualificationComplete i => exact keepsOn_ifWf (State.keeps_feedEvent i (Stile.qualDone_oneRamp i))
  | rampTimeout i vin => exact keepsOn_ifWf (State.keeps_feedEvent i (Stile.quiet_fault _ i 4 vin).oneRamp)
  | currentLimit i => exact keepsOn_ifWf (State.keeps_feedEvent i (Stile.setFeed_oneRamp i (by exact id)))
  | faultTimerExpiry i vin => exact keepsOn_ifWf (State.keeps_feedEvent i (Stile.quiet_fault _ i _ vin).oneRamp)
  | faultTimerClear i => exact keepsOn_ifWf (State.keeps_feedEvent i (Stile.setFeed_oneRamp i (by exact id)))
  | fastTrip i vin => exact keepsOn_ifWf (State.keeps_feedEvent i (Stile.quiet_fault _ i 3 vin).oneRamp)
  | coolExpiry i => exact keepsOn_ifWf (State.keeps_feedEvent i (Stile.coolDone_oneRamp i))
  | retryCountReset i => exact keepsOn_ifWf (State.keeps_feedEvent i (Stile.setFeed_oneRamp i (by exact id)))
  | passFetDamaged i vin => exact keepsOn_ifWf (State.keeps_feedEvent i (Stile.quiet_fetBad _ i 5 vin).oneRamp)
  | oringFetDamaged i vin => exact keepsOn_ifWf (State.keeps_feedEvent i (Stile.quiet_fetBad _ i 6 vin).oneRamp)
  | reverseTurnOff i => exact keepsOn_ifWf (State.keeps_feedEvent i (Stile.setFeed_oneRamp i (by exact id)))
  | pgHoldExpiry => exact keepsOn_next (State.keeps_onStile (Stile.quiet_ite (Stile.quiet_withdrawPg _)).oneRamp)
  | orderlyGateOff =>
    refine keepsOn_next (State.keeps_onStile fun h => Stile.passSlot_oneRamp ?_)
    split
    · exact h
    · exact (Stile.quiet_orderlyGatesOff _).oneRamp h
  | latchInputLowExpiry i => exact keepsOn_ifWf (State.keeps_feedEvent i (Stile.quiet_toOff _ i).oneRamp)
  | stlOffNAssert => exact keepsOn_next (State.keeps_onStile Stile.ejected_oneRamp)
  | stlOffNRelease => exact keepsOn_next (State.keeps_onStile (Stile.quiet_of_feeds rfl rfl).oneRamp)
  | feedEnable i => exact keepsOn_ifWf (State.keeps_viaStile ((Stile.quiet_setEn _ i true)))
  | feedDisable i => exact keepsOn_ifWf (State.keeps_viaStile ((Stile.quiet_setEn _ i false)))
  | restart i => exact keepsOn_ifWf (State.keeps_viaStile ((Stile.quiet_restart _ i)))
  | clrFet i => exact keepsOn_ifWf (State.keeps_viaStile ((Stile.quiet_clrFet _ i)))
  | stlVthrWrite v => exact keepsOn_ifWf (State.keeps_viaStile ((Stile.quiet_writeVthr _ v)))
  | pop => exact keepsOn_next (State.keeps_viaStile ((Stile.quiet_pop _)))
  | stileLogDrain => exact keepsOn_next (State.keeps_both (Dev.stileDrain_quiet _ _))
  | stileMeasurement _ => exact keepsOn_ifWf (State.keeps_onStile (Stile.quiet_of_feeds rfl rfl).oneRamp)
  | stileThermalShutdown va vb => exact keepsOn_ifWf (State.keeps_onStile fun h => Stile.thermal_oneRamp h va vb)
  | stileStandbyLoss _ => exact keepsOn_ifWf (State.keeps_onStile (Stile.quiet_of_feeds rfl rfl).oneRamp)
  | pwrOkRise => exact keepsOn_next (.of_eq id rfl rfl)
  | pwrOkFall p => exact keepsOn_ifWf (State.keeps_dropPower p false)
  | thermtrip p =>
    refine keepsOn_ifWf ?_
    split
    · exact .refl s
    · exact State.keeps_dropPower p true
  | powerOnResetRelease s1 s2 s3 spd nack crcBad =>
    exact keepsOn_ifWf ((State.keeps_of_stile (Dev.powerOnRelease_proxied s.nv s.stile s.dev s1 s2 s3 spd nack crcBad).quiet.oneRamp).settle _)
  | watchdogExpiry => exact keepsOn_next (State.keeps_both (Dev.watchdog_proxied s.nv s.stile s.dev).quiet)
  | transferFw part slot off len good =>
    exact keepsOn_ifWf (State.keeps_flash (Dev.firmware_otp _ (Dev.transferFw_otp _ _ _ _ _ _ _)))
  | activateFw slot online => exact keepsOn_ifWf (State.keeps_flash (Dev.firmware_otp _ (Dev.activateFw_otp _ _ _ _)))
  | holdCommitReset => exact keepsOn_next (State.keeps_both (Dev.holdReset_proxied s.nv s.stile s.dev).quiet)
  | gblReset => exact keepsOn_next (State.keeps_bothPowered (Dev.askReset_proxied s.nv s.stile s.dev 0).quiet)
  | registerWrite view h off size v => exact keepsOn_ifWf (State.keeps_registerWrite view h off size v)
  | invalidRegisterAccess view h off size write => exact keepsOn_ifWf (State.keeps_bothPowered_same _)
  | commitBurnComplete stuck =>
    change KeepsOn _ s (if s.up then _ else _)
    split
    · exact keepsOn_next (State.keeps_burn stuck)
    · exact keepsOn_next (.refl s)
  | _ => exact (exec_plain _ s rfl).keepsOn

theorem State.keeps_tick (s : State) : s.Keeps same s.tick := by
  unfold State.tick
  split
  · exact (State.Keeps.refl s).settle _
  · exact .refl s

/-- Every step that goes on keeps it; on an empty queue a tick passes. -/
theorem Goes.keeps (h : Goes s t) : s.Keeps false t := by
  unfold Goes step at h
  split at h
  · cases h
    exact s.keeps_tick
  · next c rest _ =>
    obtain ⟨u, hu, hkeeps⟩ := exec_keepsOn c { s with pending := rest }
    rw [hu] at h
    cases h
    exact ⟨hkeeps.dram, hkeeps.otp, hkeeps.ramp, nofun⟩

/-- Settles O5, by what each command keeps. -/
theorem stepKeepsInv : Obligations.StepKeepsInv := fun _ _ hs h => ⟨h.keeps.dram hs.1, h.keeps.ramp hs.2⟩

/-- Settles O6, by what each command keeps: flash changes that do not burn leave the OTP, and a burn sets bits alone, also one cut off. -/
theorem otpOnlyGains : Obligations.OtpOnlyGains := fun _ _ h => h.keeps.otp

/-- Settles O7, by what each command keeps. -/
theorem stileKeepsToItself : Obligations.StileKeepsToItself := by
  intro c s t hc ht
  obtain ⟨u, hu, hkeeps⟩ := exec_keepsOn c s
  rw [ht] at hu
  cases hu
  exact hkeeps.stile (by rw [hc]; rfl)

end Sys2Proof.Machine
end

section
/-! SUPPORT. Stile's own commands (O41 to O45): what follows a change of a feed, and what the main die keeps. -/

namespace Sys2Proof.Machine

open Sys2Proof

/-! ### The main die beside a command of Stile -/

/-- The main die keeps everything that a record does not change. -/
structure Dev.Noted (d e : Dev) : Prop where
  home : e.home = d.home
  hp : e.hp = d.hp
  chan : e.chan = d.chan
  cip : e.cip = d.cip
  regs : e.regs = d.regs

theorem Dev.Noted.refl (d : Dev) : d.Noted d := ⟨rfl, rfl, rfl, rfl, rfl⟩

theorem Dev.Noted.trans {d e f : Dev} (h : d.Noted e) (k : e.Noted f) : d.Noted f :=
  ⟨k.home.trans h.home, k.hp.trans h.hp, k.chan.trans h.chan, k.cip.trans h.cip, k.regs.trans h.regs⟩

theorem Dev.noted_raise (d : Dev) (r : Rec) : d.Noted (d.raise r) :=
  ⟨d.raise_home r, d.raise_hp r, d.raise_chan r, d.raise_cip r, d.raise_regs r⟩

theorem Dev.noted_stileNote (old new : Stile) (d : Dev) : d.Noted (d.stileNote old new) := by
  unfold Dev.stileNote
  split
  · exact d.noted_raise _
  · exact .refl d

theorem Dev.noted_notes (l : List StlNote) : ∀ d : Dev, d.Noted (l.foldl (fun d n => d.raise n.record) d) := by
  induction l with
  | nil => exact .refl
  | cons n l ih => exact fun d => (d.noted_raise _).trans (ih _)

variable {s : State}

/-- A command of Stile ends on a die that was only noted. -/
theorem State.onlyStile_settle (st : Stile) {d : Dev} (h : s.dev.Noted d) : s.onlyStile ({ s with stile := st }.settle d) := by
  refine ⟨rfl, rfl, ?_, ?_, ?_, ?_, ?_⟩
  · rw [State.settle_home, h.home]
  · rw [State.settle_hp, h.hp]
  · rw [State.settle_chan, h.chan]
  · rw [State.settle_cip, h.cip]
  · exact (Dev.keepsRegs_of_regs_eq h.regs).trans (State.keepsRegs_settle _ _)

theorem State.onlyStile_refl (s : State) : s.onlyStile s := ⟨rfl, rfl, rfl, rfl, rfl, rfl, Dev.keepsRegs_refl _ _⟩

theorem State.onlyStile_stiled (p : Stile × List StlNote) : s.onlyStile (s.stiled p) := by
  unfold State.stiled
  dsimp only
  split
  · refine State.onlyStile_settle p.1 ?_
    split
    · exact .refl _
    · exact Dev.noted_notes _ _
  · exact ⟨rfl, rfl, rfl, rfl, rfl, rfl, Dev.keepsRegs_refl _ _⟩

@[simp] theorem State.stiled_stile (p : Stile × List StlNote) : (s.stiled p).stile = p.1 := by
  unfold State.stiled
  dsimp only
  split <;> rfl

section
variable {f : Stile → Stile × List StlNote}

theorem State.onlyStile_onStile : s.onlyStile (s.onStile f) := by
  unfold State.onStile
  split
  · exact State.onlyStile_stiled _
  · exact s.onlyStile_refl

theorem State.onStile_running (hr : s.stile.running = true) : (s.onStile f).stile = (f s.stile).1 := by
  rw [State.onStile, if_pos hr, State.stiled_stile]

theorem State.onStile_stopped (hr : s.stile.running = false) : s.onStile f = s := by
  rw [State.onStile, if_neg (by rw [hr]; exact Bool.false_ne_true)]

end

/-! ### What follows a change of a feed -/

variable {t : Stile} {i : Nat}

theorem Stile.passSlot_cases (t : Stile) : ∃ a b, t.passSlot = { t with feedA := a, feedB := b } := by
  unfold Stile.passSlot
  split
  · exact ⟨_, _, rfl⟩
  · split
    · exact ⟨_, _, rfl⟩
    · split
      · exact ⟨_, _, rfl⟩
      · exact ⟨_, _, rfl⟩

theorem Stile.assertPfw_cases (t : Stile) : ∃ p n, t.assertPfw = { t with pfw := p, pfwTime := n } := by
  unfold Stile.assertPfw
  split
  · exact ⟨_, _, rfl⟩
  · exact ⟨_, _, rfl⟩

theorem Stile.decideWithdraw_cases (t : Stile) : ∃ p n w, t.decideWithdraw = { t with pfw := p, pfwTime := n, withdraw := w } := by
  unfold Stile.decideWithdraw
  split
  · obtain ⟨p, n, h⟩ := t.assertPfw_cases
    rw [h]
    exact ⟨_, _, _, rfl⟩
  · exact ⟨_, _, _, rfl⟩

/-- A change of a feed, with what follows it, changes no more than the feeds, PFW_N and the withdrawal of PG. -/
theorem Stile.followed_cases (t : Stile) :
    ∃ a b p n w, t.passSlot.decideWithdraw = { t with feedA := a, feedB := b, pfw := p, pfwTime := n, withdraw := w } := by
  obtain ⟨a, b, h⟩ := t.passSlot_cases
  obtain ⟨p, n, w, k⟩ := t.passSlot.decideWithdraw_cases
  rw [k, h]
  exact ⟨_, _, _, _, _, rfl⟩

/-- A feed that does not wait does not get the slot. -/
theorem Stile.passSlot_feed (h : (t.feed i).state ≠ .wait) : t.passSlot.feed i = t.feed i := by
  by_cases hs : t.slot = 0
  · rcases Stile.feed_passSlot hs with hsame | ⟨k, hk, hpass⟩
    · exact hsame i
    · rw [hpass]
      refine t.feed_setFeed_other (fun hki => h ?_) _
      rwa [show t.feed i = t.feed k by unfold Stile.feed; simp only [hki]]
  · rw [Stile.passSlot_of_held hs]

theorem Stile.followed_feed (h : (t.feed i).state ≠ .wait) : t.passSlot.decideWithdraw.feed i = t.feed i := by
  rw [Stile.decideWithdraw_feed, Stile.passSlot_feed h]

section
variable {w : Feed → Bool} {f : Stile → Stile}

theorem Stile.feedEvent_fst (hi : i < 2) (hw : w (t.feed i) = true) :
    (Stile.feedEvent i w f t).1 = (f t).passSlot.decideWithdraw := by
  rw [Stile.feedEvent, if_pos ⟨hi, hw⟩, Stile.after_fst]

theorem Stile.feedEvent_idle (hw : w (t.feed i) = false) : Stile.feedEvent i w f t = (t, []) := by
  rw [Stile.feedEvent, if_neg (by rw [hw]; exact fun h => Bool.false_ne_true h.2)]

theorem State.feedEvent_stile (hr : s.stile.running = true) (hi : i < 2) (hw : w (s.stile.feed i) = true) :
    (s.onStile (Stile.feedEvent i w f)).stile = (f s.stile).passSlot.decideWithdraw := by
  rw [State.onStile_running hr, Stile.feedEvent_fst hi hw]

/-- An event of a feed that does not wait afterwards: the feed is as its operation left it. -/
theorem State.feedEvent_feed (hr : s.stile.running = true) (hi : i < 2) (hw : w (s.stile.feed i) = true)
    (hf : ((f s.stile).feed i).state ≠ .wait) : (s.onStile (Stile.feedEvent i w f)).stile.feed i = (f s.stile).feed i := by
  rw [State.feedEvent_stile hr hi hw, Stile.followed_feed hf]

end

/-! ### Faults (R395 to R398) -/

variable {cause vin : Nat}

theorem Stile.fault_feed : (t.fault i cause vin).feed i = t.faulted i cause := by
  rw [t.fault_eq, Stile.feed_logEvent, Stile.feed_setFeed_self]

/-- An event by which a feed faults leaves the feed as the fault left it. -/
theorem State.faultEvent_feed {w : Feed → Bool} {f : Stile → Stile} (hr : s.stile.running = true) (hi : i < 2)
    (hw : w (s.stile.feed i) = true) (hf : f s.stile = s.stile.fault i cause vin) :
    (s.onStile (Stile.feedEvent i w f)).stile.feed i = s.stile.faulted i cause := by
  rw [State.feedEvent_feed hr hi hw, hf, Stile.fault_feed]
  rw [hf, Stile.fault_feed]
  exact Stile.faulted_state_ne (by decide) (by decide)

theorem Stile.faulted_state : (t.faulted i cause).state = .cool ∨ (t.faulted i cause).state = .latched := by
  unfold Stile.faulted
  dsimp only
  split
  · exact .inl rfl
  · exact .inr rfl

/-- Settles O41, by the state in which a fault leaves its feed. -/
theorem fastTrips : Obligations.FastTrips := by
  intro s i vin hr hi hv hd
  have hfeed := State.faultEvent_feed (cause := 3) (vin := vin) (w := Feed.driven) (f := (·.fault i 3 vin)) hr hi hd rfl
  refine ⟨_, exec_fastTrip (by simp [Instr.wf, hi]; omega), ?_, ?_, ?_, ?_, State.onlyStile_onStile⟩
  · rw [hfeed]; rfl
  · rw [hfeed]; rfl
  · rw [hfeed]; rfl
  · rw [hfeed]
    exact Stile.faulted_state

/-- Retries are left, as R398 puts it. -/
theorem Stile.retriesLeft_iff : t.retriesLeft i = true ↔
    match rtyLimit (t.f (.stlFeedCtrl i) F.stlFeedCtrl_RTY) with
    | none => True
    | some k => (t.feed i).retries + 1 ≤ k := by
  unfold Stile.retriesLeft
  split
  · next h => simp [h]
  · next h => simp [h]

/-- The slot of the log that the next entry takes. -/
def Stile.logSlot (t : Stile) : Nat := if t.count < 16 then (t.oldest + t.count) % 16 else t.oldest

theorem Stile.logEvent_log (latched : Bool) : kvFind? (t.logEvent i cause latched vin).log t.logSlot =
    some ⟨t.time / 1000 % 2 ^ 32, i, cause, (t.feed i).retries, latched, vin⟩ := by
  unfold Stile.logEvent Stile.logSlot
  split
  · exact kvFind?_ins_self _ _ _
  · exact kvFind?_ins_self _ _ _

theorem Stile.logEvent_room (latched : Bool) (h : t.count < 16) :
    (t.logEvent i cause latched vin).count = t.count + 1 ∧ (t.logEvent i cause latched vin).oldest = t.oldest := by
  rw [Stile.logEvent, if_pos h]
  exact ⟨rfl, rfl⟩

theorem Stile.logEvent_full (latched : Bool) (h : 16 ≤ t.count) :
    (t.logEvent i cause latched vin).count = t.count ∧ (t.logEvent i cause latched vin).ovf = true ∧
      (t.logEvent i cause latched vin).oldest = (t.oldest + 1) % 16 := by
  rw [Stile.logEvent, if_neg (by omega)]
  exact ⟨rfl, rfl, rfl⟩

theorem Stile.logEvent_regs (latched : Bool) : (t.logEvent i cause latched vin).regs = t.regs := by
  unfold Stile.logEvent
  split <;> rfl

/-- What a fault leaves, from whatever event it comes. -/
theorem State.faultEvent_stile {w : Feed → Bool} {f : Stile → Stile} (hr : s.stile.running = true) (hi : i < 2)
    (hw : w (s.stile.feed i) = true) (hf : f s.stile = s.stile.fault i cause vin) :
    let t := (s.onStile (Stile.feedEvent i w f)).stile
    t.regs = s.stile.regs ∧
      (s.stile.count < 16 → t.count = s.stile.count + 1 ∧ t.oldest = s.stile.oldest) ∧
      (16 ≤ s.stile.count → t.count = s.stile.count ∧ t.ovf = true ∧ t.oldest = (s.stile.oldest + 1) % 16) ∧
      ∃ e, kvFind? t.log s.stile.logSlot = some e ∧ e.feed = i ∧ e.cause = cause ∧ e.vin = vin := by
  intro t
  let u := s.stile.setFeed i (s.stile.faulted i cause)
  obtain ⟨a, b, p, n, wd, ht⟩ := (s.stile.fault i cause vin).followed_cases
  have ht : t = { u.logEvent i cause (!s.stile.retriesLeft i) vin with feedA := a, feedB := b, pfw := p, pfwTime := n, withdraw := wd } := by
    rw [← s.stile.fault_eq i cause vin, ← ht, ← hf]
    exact State.feedEvent_stile hr hi hw
  have hcount : u.count = s.stile.count := Stile.setFeed_count _ _ _
  have holdest : u.oldest = s.stile.oldest := Stile.setFeed_oldest _ _ _
  have hslot : u.logSlot = s.stile.logSlot := by unfold Stile.logSlot; rw [hcount, holdest]
  rw [ht, ← hcount, ← holdest, ← hslot]
  refine ⟨?_, fun h => Stile.logEvent_room _ h, fun h => Stile.logEvent_full _ h, _, Stile.logEvent_log _, rfl, rfl, rfl⟩
  exact (Stile.logEvent_regs _).trans (Stile.setFeed_regs _ _ _)

/-- Settles O42: each of the three events comes to a fault of the feed. -/
theorem feedFaults : Obligations.FeedFaults := by
  intro s i vin hr hi hv f left c hc hcond
  have hleft : s.stile.retriesLeft i = true ↔ left := Stile.retriesLeft_iff
  have hv : vin < 65536 := hv
  obtain ⟨w, h, hexec, hw, hh⟩ : ∃ (w : Feed → Bool) (h : Stile → Stile), exec c.1 s = .next (s.onStile (Stile.feedEvent i w h)) ∧
      w f = true ∧ h s.stile = s.stile.fault i c.2.2 vin := by
    simp only [List.mem_cons, List.not_mem_nil, or_false] at hc
    rcases hc with rfl | rfl | rfl
    · exact ⟨_, _, exec_rampTimeout (by simp [Instr.wf, hi, hv]), beq_iff_eq.mpr hcond, rfl⟩
    · refine ⟨_, _, exec_faultTimerExpiry (by simp [Instr.wf, hi, hv]), hcond, ?_⟩
      simp only [Stile.timerExpiry, beq_iff_eq]
      rfl
    · exact ⟨_, _, exec_fastTrip (by simp [Instr.wf, hi, hv]), hcond, rfl⟩
  refine ⟨_, hexec, State.onlyStile_onStile, ?_⟩
  have hfeed := State.faultEvent_feed hr hi hw hh
  rw [hfeed]
  refine ⟨rfl, rfl, rfl, rfl, rfl, rfl, fun hl => ?_, fun hl => ?_, State.faultEvent_stile hr hi hw hh⟩
  · exact if_pos (hleft.mpr hl)
  · exact if_neg fun h => hl (hleft.mp h)

end Sys2Proof.Machine
end

section
/-! SUPPORT. The other events of a feed (O43, O44): damaged FETs, limits, qualification, the end of COOL, orderly turn-offs. -/

namespace Sys2Proof.Machine

open Sys2Proof

variable {s : State} {t : Stile} {i cause vin : Nat}

/-- Where the condition of its event does not hold, a feed has none. -/
theorem State.feedEvent_idle {w : Feed → Bool} {f : Stile → Stile} (hw : ¬ w (s.stile.feed i) = true) :
    (s.onStile (Stile.feedEvent i w f)).stile = s.stile := by
  unfold State.onStile
  split
  · rw [State.stiled_stile, Stile.feedEvent_idle (Bool.not_eq_true _ ▸ hw)]
  · rfl

theorem Stile.fetBad_feed : (t.fetBad i cause vin).feed i = { (t.feed i).gatesOff with state := .fetBad, cause := cause, orderly := none } := by
  rw [Stile.fetBad, Stile.feed_logEvent, Stile.feed_setFeed_self]

theorem Stile.limit_feed : (t.limit i).feed i = { t.feed i with
    ilim := true, belowTime := 0, ftRun := true, ftTime := if (t.feed i).ftRun then (t.feed i).ftTime else 0,
    ftBound := if (t.feed i).ftRun then (t.feed i).ftBound else t.ftMicros } := Stile.feed_setFeed_self _ _ _

theorem Stile.timerClear_feed : (t.timerClear i).feed i = { t.feed i with ilim := false, ftRun := false, ftTime := 0, belowTime := 0 } :=
  Stile.feed_setFeed_self _ _ _

/-- An event that sets its feed to `g`, which does not wait. -/
theorem State.setEvent_feed {w : Feed → Bool} {f : Stile → Stile} {g : Feed} (hr : s.stile.running = true) (hi : i < 2)
    (hw : w (s.stile.feed i) = true) (hf : (f s.stile).feed i = g) (hg : g.state ≠ .wait) :
    (s.onStile (Stile.feedEvent i w f)).stile.feed i = g := by
  rw [State.feedEvent_feed hr hi hw (by rwa [hf]), hf]

theorem Feed.driven_state {f : Feed} (h : f.driven = true) : f.state ≠ .wait := by
  rintro hw
  simp [Feed.driven, hw] at h

/-- Settles O43, event by event. -/
theorem fetsAndLimits : Obligations.FetsAndLimits := by
  intro s i vin hr hi hv f
  have hv : vin < 65536 := hv
  have hwf {c : Instr} (h : c = .currentLimit i ∨ c = .faultTimerClear i ∨ c = .reverseTurnOff i ∨ c = .retryCountReset i) :
      c.wf = true := by
    rcases h with rfl | rfl | rfl | rfl <;> simp [Instr.wf, hi]
  refine ⟨?_, ?_, ?_, ?_, ?_⟩
  · intro c hc hcond hne
    simp only [List.mem_cons, List.not_mem_nil, or_false] at hc
    rcases hc with rfl | rfl
    · refine ⟨_, exec_passFetDamaged (by simp [Instr.wf, hi, hv]), State.onlyStile_onStile, ?_⟩
      rw [State.setEvent_feed hr hi (by simp [f] at hcond hne; simp [hcond, hne]) Stile.fetBad_feed (by nofun)]
      exact ⟨rfl, rfl, rfl, rfl, rfl⟩
    · refine ⟨_, exec_oringFetDamaged (by simp [Instr.wf, hi, hv]), State.onlyStile_onStile, ?_⟩
      rw [State.setEvent_feed hr hi (by simp [f] at hcond hne; simp [hcond, hne]) Stile.fetBad_feed (by nofun)]
      exact ⟨rfl, rfl, rfl, rfl, rfl⟩
  · intro hd
    refine ⟨_, exec_currentLimit (hwf (.inl rfl)), State.onlyStile_onStile, ?_⟩
    rw [State.setEvent_feed hr hi hd Stile.limit_feed (Feed.driven_state hd)]
    exact ⟨rfl, rfl, rfl, rfl, rfl, fun h => ⟨if_neg (by simp [f] at h; simp [h]), if_neg (by simp [f] at h; simp [h])⟩⟩
  · intro hft hne
    refine ⟨_, exec_faultTimerClear (hwf (.inr (.inl rfl))), State.onlyStile_onStile, ?_⟩
    rw [State.setEvent_feed (w := fun f => f.ftRun) hr hi hft Stile.timerClear_feed hne]
    exact ⟨rfl, rfl, rfl⟩
  · intro c hc hcond
    obtain ⟨w, h, hexec, hw⟩ : ∃ (w : Feed → Bool) (h : Stile → Stile), exec c.1 s = .next (s.onStile (Stile.feedEvent i w h)) ∧
        (w f = true → c.2) := by
      simp only [List.mem_cons, List.not_mem_nil, or_false] at hc
      rcases hc with rfl | rfl | rfl | rfl | rfl | rfl | rfl | rfl | rfl | rfl | rfl | rfl
      · exact ⟨_, _, exec_rampTimeout (by simp [Instr.wf, hi, hv]), beq_iff_eq.mp⟩
      · exact ⟨_, _, exec_faultTimerExpiry (by simp [Instr.wf, hi, hv]), id⟩
      · exact ⟨_, _, exec_fastTrip (by simp [Instr.wf, hi, hv]), id⟩
      · exact ⟨_, _, exec_passFetDamaged (by simp [Instr.wf, hi, hv]), by simp [and_assoc]⟩
      · exact ⟨_, _, exec_oringFetDamaged (by simp [Instr.wf, hi, hv]), by simp⟩
      · exact ⟨_, _, exec_currentLimit (hwf (by simp)), id⟩
      · exact ⟨_, _, exec_faultTimerClear (hwf (by simp)), id⟩
      · exact ⟨_, _, exec_reverseTurnOff (hwf (by simp)), beq_iff_eq.mp⟩
      · exact ⟨_, _, exec_retryCountReset (hwf (by simp)), beq_iff_eq.mp⟩
      · exact ⟨_, _, exec_qualificationComplete (by simp [Instr.wf, hi]), beq_iff_eq.mp⟩
      · exact ⟨_, _, exec_coolExpiry (by simp [Instr.wf, hi]), beq_iff_eq.mp⟩
      · exact ⟨_, _, exec_latchInputLowExpiry (by simp [Instr.wf, hi]), beq_iff_eq.mp⟩
    exact ⟨_, hexec, State.onlyStile_onStile, State.feedEvent_idle fun h => hcond (hw h)⟩
  · intro hon
    have hon' : ((s.stile.feed i).state == .on) = true := beq_iff_eq.mpr hon
    have hne : (s.stile.feed i).state ≠ .wait := by rw [show (s.stile.feed i).state = .on from hon]; nofun
    constructor
    · refine ⟨_, exec_reverseTurnOff (hwf (.inr (.inr (.inl rfl)))), State.onlyStile_onStile, ?_⟩
      rw [State.setEvent_feed (w := fun f => f.state == .on) (f := fun t => t.setFeed i { t.feed i with gor := false }) hr hi hon'
        (Stile.feed_setFeed_self _ _ _) hne]
      exact ⟨rfl, rfl, hon⟩
    · refine ⟨_, exec_retryCountReset (hwf (.inr (.inr (.inr rfl)))), State.onlyStile_onStile, ?_⟩
      rw [State.setEvent_feed (w := fun f => f.state == .on) (f := fun t => t.setFeed i { t.feed i with retries := 0 }) hr hi hon'
        (Stile.feed_setFeed_self _ _ _) hne]
      exact ⟨rfl, hon⟩

/-! ### The start slot and the end of COOL (R394, R398) -/

theorem Stile.feed_toRamp : (t.toRamp i).feed i = { t.feed i with state := .ramp, gps := true, gor := false, rampTime := 0, coolTime := 0 } :=
  Stile.feed_setFeed_self _ _ _

/-- Which feeds hold the start slot settles who has it. -/
theorem Stile.slot_eq_zero_iff (hi : i < 2) : t.slot = 0 ↔ (t.feed i).holdsSlot = false ∧ (t.feed (1 - i)).holdsSlot = false := by
  have hpair : t.slot = 0 ↔ t.feedA.holdsSlot = false ∧ t.feedB.holdsSlot = false := by
    unfold Stile.slot
    cases t.feedA.holdsSlot <;> cases t.feedB.holdsSlot <;> decide
  obtain rfl | rfl : i = 0 ∨ i = 1 := by omega
  · exact hpair
  · exact hpair.trans and_comm

/-- The only feed that waits takes a free start slot. -/
theorem Stile.passSlot_of_wait (hi : i < 2) (hs : t.slot = 0) (hw : (t.feed i).state = .wait) (ho : (t.feed (1 - i)).state ≠ .wait) :
    t.passSlot = t.toRamp i := by
  unfold Stile.passSlot
  rw [if_neg (not_not.mpr hs)]
  obtain rfl | rfl : i = 0 ∨ i = 1 := by omega
  · exact if_pos hw
  · exact (if_neg ho).trans (if_pos hw)

theorem Stile.slot_setFeed_wait (hi : i < 2) (hq : (t.feed i).state = .qual) :
    (t.setFeed i { t.feed i with state := .wait }).slot = 0 ↔ t.slot = 0 := by
  rw [Stile.slot_eq_zero_iff hi, Stile.slot_eq_zero_iff hi, Stile.feed_setFeed_self, Stile.feed_setFeed_beside]
  simp [Feed.holdsSlot, hq]

/-- A feed that has qualified waits while the slot is held. -/
theorem Stile.qualDone_of_held (hi : i < 2) (hq : (t.feed i).state = .qual) (hs : t.slot ≠ 0) :
    (t.qualDone i).passSlot = t.setFeed i { t.feed i with state := .wait } := by
  have hheld : (t.setFeed i { t.feed i with state := .wait }).slot ≠ 0 := fun h => hs ((Stile.slot_setFeed_wait hi hq).mp h)
  rw [Stile.qualDone, Stile.passSlot_of_held hheld, Stile.passSlot_of_held hheld]

/-- A feed that has qualified ramps when the slot is free and the other feed does not wait. -/
theorem Stile.qualDone_of_free (hi : i < 2) (hq : (t.feed i).state = .qual) (hs : t.slot = 0) (ho : (t.feed (1 - i)).state ≠ .wait) :
    t.qualDone i = (t.setFeed i { t.feed i with state := .wait }).toRamp i := by
  refine Stile.passSlot_of_wait hi ((Stile.slot_setFeed_wait hi hq).mpr hs) ?_ ?_
  · rw [Stile.feed_setFeed_self]
  · rwa [Stile.feed_setFeed_beside]

/-! ### Orderly turn-offs (R393, R406, R408) -/

theorem Stile.orderlyOff_beside (t : Stile) (i cause : Nat) : (t.orderlyOff i cause).feed (1 - i) = t.feed (1 - i) := by
  unfold Stile.orderlyOff
  dsimp only
  split
  iterate 3 rfl
  · split
    · rfl
    · split <;> exact Stile.feed_setFeed_beside _ _ _
  · exact Stile.feed_setFeed_beside _ _ _

theorem Stile.orderlyOff_of_blocked (h : (t.feed i).state ∈ [FeedState.off, .latched, .fetBad]) : t.orderlyOff i cause = t := by
  simp only [List.mem_cons, List.not_mem_nil, or_false] at h
  unfold Stile.orderlyOff
  rcases h with h | h | h <;> simp only [h]

/-- A feed that is not ON and not blocked is OFF at once. -/
theorem Stile.orderlyOff_of_starting (h : (t.feed i).state ∈ [FeedState.qual, .wait, .ramp, .cool]) :
    t.orderlyOff i cause = t.setFeed i { (t.feed i).toOff with cause := cause } := by
  simp only [List.mem_cons, List.not_mem_nil, or_false] at h
  unfold Stile.orderlyOff
  rcases h with h | h | h | h <;> simp only [h]

theorem Stile.orderlyOff_off (h : (t.feed i).state ∈ [FeedState.off, .qual, .wait, .ramp, .cool]) :
    ((t.orderlyOff i cause).feed i).state = .off := by
  rw [List.mem_cons] at h
  rcases h with h | h
  · rw [Stile.orderlyOff_of_blocked (by rw [h]; simp), h]
  · rw [Stile.orderlyOff_of_starting h, Stile.feed_setFeed_self]
    rfl

theorem Stile.orderlyOff_eject (t : Stile) (i cause : Nat) : (t.orderlyOff i cause).eject = t.eject := by
  unfold Stile.orderlyOff
  dsimp only
  split
  iterate 3 rfl
  · split
    · rfl
    · split <;> exact Stile.setFeed_eject _ _ _
  · exact Stile.setFeed_eject _ _ _

/-- A feed that STL_OFF_N finds below ON is OFF, whichever feed is looked at first. -/
theorem Stile.bothOff_feed (hi : i < 2) (h : (t.feed i).state ∈ [FeedState.off, .qual, .wait, .ramp, .cool]) :
    (((t.orderlyOff 0 cause).orderlyOff 1 cause).feed i).state = .off := by
  obtain rfl | rfl : i = 0 ∨ i = 1 := by omega
  · rw [show ((t.orderlyOff 0 cause).orderlyOff 1 cause).feed 0 = (t.orderlyOff 0 cause).feed 0 from Stile.orderlyOff_beside _ 1 cause]
    exact Stile.orderlyOff_off h
  · refine Stile.orderlyOff_off ?_
    rwa [show (t.orderlyOff 0 cause).feed 1 = t.feed 1 from Stile.orderlyOff_beside _ 0 cause]

/-- Settles O44, command by command. -/
theorem feedTransitions : Obligations.FeedTransitions := by
  intro s i hr hi f o
  refine ⟨?_, ?_, ?_, ?_, ?_, ?_, ?_, ?_, ?_, ?_⟩
  · intro hq
    have hw : ((s.stile.feed i).state == .qual) = true := beq_iff_eq.mpr hq
    refine ⟨_, exec_qualificationComplete (by simp [Instr.wf, hi]), State.onlyStile_onStile, fun hs => ?_, fun hs ho => ?_⟩
    · rw [State.feedEvent_stile (w := fun f => f.state == .qual) (f := fun t => t.qualDone i) hr hi hw, Stile.decideWithdraw_feed,
        Stile.qualDone_of_held hi hq hs, Stile.feed_setFeed_self]
    · have hramp := Stile.qualDone_of_free hi hq hs ho
      rw [State.feedEvent_feed (w := fun f => f.state == .qual) (f := fun t => t.qualDone i) hr hi hw
        (by rw [hramp, Stile.feed_toRamp]; nofun), hramp, Stile.feed_toRamp]
      exact ⟨rfl, rfl⟩
  · intro hc ho
    have hw : ((s.stile.feed i).state == .cool) = true := beq_iff_eq.mpr hc
    have hheld : s.stile.slot ≠ 0 := fun h => by
      have hfree := ((Stile.slot_eq_zero_iff hi).mp h).1
      simp [Feed.holdsSlot, show (s.stile.feed i).state = .cool from hc] at hfree
    have hstay : s.stile.coolDone i = s.stile := if_pos ho
    refine ⟨_, exec_coolExpiry (by simp [Instr.wf, hi]), State.onlyStile_onStile, ?_⟩
    rw [State.feedEvent_stile (w := fun f => f.state == .cool) (f := fun t => t.coolDone i) hr hi hw, hstay,
      Stile.passSlot_of_held hheld, Stile.decideWithdraw_feed, Stile.decideWithdraw_feed]
    exact ⟨rfl, rfl⟩
  · intro hc ho
    have hw : ((s.stile.feed i).state == .cool) = true := beq_iff_eq.mpr hc
    have hramp : s.stile.coolDone i = s.stile.toRamp i := if_neg ho
    refine ⟨_, exec_coolExpiry (by simp [Instr.wf, hi]), State.onlyStile_onStile, ?_⟩
    rw [State.feedEvent_feed (w := fun f => f.state == .cool) (f := fun t => t.coolDone i) hr hi hw
      (by rw [hramp, Stile.feed_toRamp]; nofun), hramp, Stile.feed_toRamp]
    exact ⟨rfl, rfl, rfl⟩
  · intro hl
    have hw : ((s.stile.feed i).state == .latched) = true := beq_iff_eq.mpr hl
    refine ⟨_, exec_latchInputLowExpiry (by simp [Instr.wf, hi]), State.onlyStile_onStile, ?_⟩
    rw [State.setEvent_feed (w := fun f => f.state == .latched) (f := fun t => t.setFeed i (t.feed i).toOff) hr hi hw
      (Stile.feed_setFeed_self _ _ _) (by nofun)]
    exact ⟨rfl, rfl, rfl⟩
  · intro hw
    refine ⟨_, exec_pgHoldExpiry, State.onlyStile_onStile, ?_⟩
    rw [State.onStile_running hr]
    dsimp only
    rw [if_pos hw]
    refine ⟨rfl, ?_, rfl, Stile.assertPfw_feedA _, Stile.assertPfw_feedB _⟩
    show s.stile.assertPfw.pfw = true
    unfold Stile.assertPfw
    split
    · assumption
    · rfl
  · intro hw
    refine ⟨_, exec_pgHoldExpiry, State.onlyStile_onStile, ?_⟩
    rw [State.onStile_running hr]
    dsimp only
    rw [if_neg (by rw [hw]; exact Bool.false_ne_true)]
  · intro hp
    refine ⟨_, exec_orderlyGateOff, State.onlyStile_onStile, ?_⟩
    rw [State.onStile_running hr]
    dsimp only
    rw [if_pos hp]
  · intro hp ho
    have hend : (s.stile.orderlyGatesOff.feed i) = f.toOff := by
      rw [Stile.feed_orderlyGatesOff, Feed.orderlyEnd, if_pos ho]
    refine ⟨_, exec_orderlyGateOff, State.onlyStile_onStile, ?_⟩
    rw [State.onStile_running hr]
    dsimp only
    rw [if_neg (by rw [hp]; exact Bool.false_ne_true), Stile.passSlot_feed (by rw [hend]; nofun), hend]
    exact ⟨rfl, rfl, rfl⟩
  · refine ⟨_, exec_stlOffNAssert, State.onlyStile_onStile, ?_⟩
    rw [State.onStile_running hr, Stile.ejected, Stile.after_fst]
    constructor
    · obtain ⟨a, b, p, n, w, h⟩ := Stile.followed_cases
        ((({ s.stile with eject := true, offTime := 0 } : Stile).orderlyOff 0 9).orderlyOff 1 9)
      rw [h]
      dsimp only
      rw [Stile.orderlyOff_eject, Stile.orderlyOff_eject]
    · intro hf
      have hoff := Stile.bothOff_feed (t := { s.stile with eject := true, offTime := 0 }) (cause := 9) hi hf
      rw [Stile.followed_feed (by rw [hoff]; nofun), hoff]
  · refine ⟨_, exec_stlOffNRelease, State.onlyStile_onStile, ?_⟩
    rw [State.onStile_running hr]
    exact ⟨rfl, rfl, rfl⟩

end Sys2Proof.Machine
end

section
/-! SUPPORT. Stile as a whole (O45): its power-on reset, evaluation steps, measurements, thermal trips, and the loss of its supply. -/

namespace Sys2Proof.Machine

open Sys2Proof

variable {s : State} (t : Stile) (i cause vin : Nat) (x : StlSample) (p : Stile × List Nat)

/-! ### What no event of a feed changes -/

/-- The registers, the measurement set and the time of Stile. -/
def Stile.books (t : Stile) : RegFile × StlSample × Nat × Nat := (t.regs, t.meas, t.seq, t.time)

@[simp] theorem Stile.setFeed_books (f : Feed) : (t.setFeed i f).books = t.books := by unfold Stile.setFeed; split <;> rfl

@[simp] theorem Stile.logEvent_books (latched : Bool) : (t.logEvent i cause latched vin).books = t.books := by
  unfold Stile.logEvent; split <;> rfl

@[simp] theorem Stile.assertPfw_books : t.assertPfw.books = t.books := by unfold Stile.assertPfw; split <;> rfl

@[simp] theorem Stile.withdrawPg_books : t.withdrawPg.books = t.books := t.assertPfw_books

@[simp] theorem Stile.decideWithdraw_books : t.decideWithdraw.books = t.books := by
  obtain ⟨p, n, w, h⟩ := t.decideWithdraw_cases
  rw [h]
  rfl

@[simp] theorem Stile.passSlot_books : t.passSlot.books = t.books := by
  obtain ⟨a, b, h⟩ := t.passSlot_cases
  rw [h]
  rfl

@[simp] theorem Stile.orderlyGatesOff_books : t.orderlyGatesOff.books = t.books := rfl

@[simp] theorem Stile.toRamp_books : (t.toRamp i).books = t.books := Stile.setFeed_books _ _ _
@[simp] theorem Stile.toQual_books : (t.toQual i).books = t.books := Stile.setFeed_books _ _ _

@[simp] theorem Stile.fault_books : (t.fault i cause vin).books = t.books := by
  rw [t.fault_eq, Stile.logEvent_books, Stile.setFeed_books]

@[simp] theorem Stile.fetBad_books : (t.fetBad i cause vin).books = t.books := by
  rw [Stile.fetBad, Stile.logEvent_books, Stile.setFeed_books]

@[simp] theorem Stile.rangeOff_books : (t.rangeOff i cause vin).books = t.books := by
  rw [Stile.rangeOff, Stile.logEvent_books, Stile.toQual_books, Stile.setFeed_books]

@[simp] theorem Stile.orderlyOff_books : (t.orderlyOff i cause).books = t.books := by
  unfold Stile.orderlyOff
  dsimp only
  split
  iterate 3 rfl
  · split
    · rfl
    · split <;> exact Stile.setFeed_books _ _ _
  · exact Stile.setFeed_books _ _ _

@[simp] theorem Stile.coolDone_books : (t.coolDone i).books = t.books := by
  unfold Stile.coolDone
  split
  · rfl
  · exact t.toRamp_books i

@[simp] theorem Stile.qualDone_books : (t.qualDone i).books = t.books := by
  rw [Stile.qualDone, Stile.passSlot_books, Stile.setFeed_books]

@[simp] theorem Stile.rampDone_books : (t.rampDone i).books = t.books := by
  rw [Stile.rampDone, Stile.passSlot_books, Stile.setFeed_books]

/-! ### The rows of an evaluation step (Table 15.6) -/

@[simp] theorem Stile.row1_books : (Stile.row1 x p i).1.books = p.1.books := by unfold Stile.row1; dsimp only; split_ifs <;> simp
@[simp] theorem Stile.row2_books : (Stile.row2 x p i).1.books = p.1.books := by unfold Stile.row2; dsimp only; split_ifs <;> simp
@[simp] theorem Stile.row34_books : (Stile.row34 x p i).1.books = p.1.books := by unfold Stile.row34; dsimp only; split_ifs <;> simp
@[simp] theorem Stile.row56_books : (Stile.row56 x p i).1.books = p.1.books := by unfold Stile.row56; dsimp only; split_ifs <;> simp
@[simp] theorem Stile.row7_books : (Stile.row7 p i).1.books = p.1.books := by unfold Stile.row7; dsimp only; split_ifs <;> simp
@[simp] theorem Stile.row8_books : (Stile.row8 x p i).1.books = p.1.books := by unfold Stile.row8; dsimp only; split_ifs <;> simp
@[simp] theorem Stile.row9_books : (Stile.row9 x p i).1.1.books = p.1.books := by unfold Stile.row9; dsimp only; split_ifs <;> simp

@[simp] theorem Stile.moves_books : (Stile.moves x p i).1.books = p.1.books := by
  unfold Stile.moves
  dsimp only
  split
  · rfl
  · split
    iterate 6 (split_ifs <;> simp)
    · rfl

theorem Stile.ite_books {c : Prop} [Decidable c] {t u : Stile} (h : u.books = t.books) : (if c then u else t).books = t.books := by
  split
  · exact h
  · rfl

theorem Stile.row10_books (last : Nat) : (t.row10 x last).1.books = t.books := by
  unfold Stile.row10
  extract_lets before had s1 s2 s3 s4 s5 s6 note
  have h2 : s2.books = s1.books := Stile.ite_books s1.assertPfw_books
  have h3 : s3.books = s2.books := Stile.ite_books s2.withdrawPg_books
  have h4 : s4.books = s3.books := Stile.ite_books rfl
  have h5 : s5.books = s4.books := Stile.ite_books rfl
  have h6 : s6.books = s5.books := Stile.ite_books rfl
  rw [h6, h5, h4, h3, h2]
  exact t.decideWithdraw_books

theorem Stile.offPin_books (low : Bool) : (t.offPin low).books = t.books := by unfold Stile.offPin; split_ifs <;> rfl

theorem Stile.timed_books : (t.timed x).books = (t.regs, t.meas, t.seq, t.time + 1) := by
  unfold Stile.timed
  dsimp only
  rw [Stile.tickFeed, Stile.setFeed_books, Stile.tickFeed, Stile.setFeed_books, Stile.offPin_books]
  rfl

/-- A step counts one microsecond, and writes no register and no measurement. -/
theorem Stile.evalStep_books : (t.evalStep x).1.books = (t.regs, t.meas, t.seq, t.time + 1) := by
  obtain ⟨last, hlast⟩ := t.evalStep_parts x
  rw [hlast, Stile.row10_books]
  simp [Stile.moved, Stile.ranked, Stile.timed_books]

/-! ### Thermal trips (R491) -/

variable {t i vin}

theorem Stile.hotOff_beside (t : Stile) (i vin : Nat) : (t.hotOff i vin).feed (1 - i) = t.feed (1 - i) := by
  unfold Stile.hotOff
  dsimp only
  split
  iterate 3 rfl
  rw [Stile.feed_logEvent, Stile.feed_setFeed_beside]

/-- What the shutdown makes of a feed. -/
def Feed.tripped (f : Feed) : Feed :=
  { f.gatesOff with state := .latched, cause := 3, retries := min (f.retries + 1) 15, lowTime := 0, orderly := none }

theorem Stile.hotOff_feed (h : (t.feed i).state ∉ [FeedState.off, .latched, .fetBad]) : (t.hotOff i vin).feed i = (t.feed i).tripped := by
  simp only [List.mem_cons, List.not_mem_nil, or_false, not_or] at h
  obtain ⟨hoff, hlatched, hbad⟩ := h
  unfold Stile.hotOff
  dsimp only
  split
  iterate 3 contradiction
  rw [Stile.feed_logEvent, Stile.feed_setFeed_self]
  rfl

theorem Stile.bothHot_feed (vinA vinB : Nat) (hi : i < 2) (h : (t.feed i).state ∉ [FeedState.off, .latched, .fetBad]) :
    ((t.hotOff 0 vinA).hotOff 1 vinB).feed i = (t.feed i).tripped := by
  obtain rfl | rfl : i = 0 ∨ i = 1 := by omega
  · rw [show ((t.hotOff 0 vinA).hotOff 1 vinB).feed 0 = (t.hotOff 0 vinA).feed 0 from Stile.hotOff_beside _ 1 vinB]
    exact Stile.hotOff_feed h
  · have hbeside : (t.hotOff 0 vinA).feed 1 = t.feed 1 := Stile.hotOff_beside _ 0 vinA
    rw [Stile.hotOff_feed (by rwa [hbeside]), hbeside]

/-! ### The power-on reset (R389, R390) -/

theorem ftOfStrap_lt (c : Nat) : ftOfStrap c < 2 ^ 8 := by unfold ftOfStrap; split <;> decide
theorem rampOfStrap_lt (c : Nat) : rampOfStrap c < 2 ^ 8 := by unfold rampOfStrap; split <;> decide

variable (s1 s2 s3 : Nat)

/-- The straps' defaults, which stand in the two feeds' control registers and in STL_TIME alone. -/
theorem Stile.por_get {r : Reg} (h0 : (Reg.stlFeedCtrl 0).offset ≠ r.offset) (h1 : (Reg.stlFeedCtrl 1).offset ≠ r.offset)
    (ht : Reg.stlTime.offset ≠ r.offset) : (Stile.por s1 s2 s3).regs.get r = r.resetNat % 2 ^ 64 := by
  unfold Stile.por
  dsimp only
  simp only [RegFile.setFld]
  rw [RegFile.get_set_other _ ht, RegFile.get_set_other _ ht, RegFile.get_set_other _ h1, RegFile.get_set_other _ h1,
    RegFile.get_set_other _ h0, RegFile.get_set_other _ h0, RegFile.get_nil]

theorem Stile.por_ft : (Stile.por s1 s2 s3).f .stlTime F.stlTime_FT = ftOfStrap (majority3 s1 s2 s3 / 2 ^ 7 % 4) := by
  unfold Stile.por Stile.f
  dsimp only
  rw [RegFile.fld_setFld_field _ _ _ (by decide) (by decide) (by decide), RegFile.fld_setFld_self _ _ _ (by decide) (by decide)]
  rw [show bitsOf (majority3 s1 s2 s3) 8 7 = majority3 s1 s2 s3 / 2 ^ 7 % 4 by simp [bitsOf, Nat.shiftRight_eq_div_pow]]
  exact Nat.mod_eq_of_lt (ftOfStrap_lt _)

theorem Stile.por_ramp : (Stile.por s1 s2 s3).f .stlTime F.stlTime_RAMP = rampOfStrap (majority3 s1 s2 s3 / 2 ^ 5 % 4) := by
  unfold Stile.por Stile.f
  dsimp only
  rw [RegFile.fld_setFld_self _ _ _ (by decide) (by decide)]
  rw [show bitsOf (majority3 s1 s2 s3) 6 5 = majority3 s1 s2 s3 / 2 ^ 5 % 4 by simp [bitsOf, Nat.shiftRight_eq_div_pow]]
  exact Nat.mod_eq_of_lt (rampOfStrap_lt _)

theorem Stile.step_of_stopped (hr : t.running = false) {x : StlSample} (h : t.armed = true ∨ (x.vinA < 1800 ∧ x.vinB < 1800)) :
    t.step x = (t, []) := by
  unfold Stile.step
  rw [if_neg (by rw [hr]; exact Bool.false_ne_true), if_neg]
  rcases h with h | ⟨ha, hb⟩
  · simp [h]
  · simp [ha, hb]

/-- Settles O45, part by part. -/
theorem stileDie : Obligations.StileDie := by
  intro s
  refine ⟨?_, ?_, ?_, ?_⟩
  · intro s1 s2 s3 hr ha
    refine ⟨_, exec_stilePor rfl, ?_⟩
    rw [if_pos (by rw [ha, hr]; rfl)]
    refine ⟨State.onlyStile_stiled _, ?_⟩
    rw [State.stiled_stile]
    exact ⟨rfl, rfl, rfl, rfl, rfl, by simp [Stile.por, bitsOf],
      by simp [Stile.por, bitsOf, Nat.shiftRight_eq_div_pow], Stile.por_ft s1 s2 s3,
      Stile.por_ramp s1 s2 s3, Stile.por_get s1 s2 s3 (by decide) (by decide) (by decide),
      Stile.por_get s1 s2 s3 (by decide) (by decide) (by decide)⟩
  · intro s1 s2 s3 h
    rw [exec_stilePor rfl, if_neg]
    rcases h with h | h <;> simp [h]
  · intro hr
    constructor
    · intro x h
      refine ⟨_, exec_stileEvaluationStep rfl, ?_⟩
      rw [Stile.step_of_stopped hr h]
      exact ⟨State.onlyStile_stiled _, State.stiled_stile _⟩
    · intro i vin x hi hv c hc
      have hv : vin < 65536 := hv
      have hstop {f : Stile → Stile × List StlNote} {c : Instr} (h : exec c s = .next (s.onStile f)) : exec c s = .next s := by
        rw [h, State.onStile_stopped hr]
      simp only [List.mem_cons, List.not_mem_nil, or_false] at hc
      rcases hc with rfl | rfl | rfl | rfl | rfl | rfl | rfl | rfl | rfl | rfl | rfl | rfl | rfl | rfl | rfl | rfl | rfl | rfl
      · exact hstop (exec_rampTimeout (by simp [Instr.wf, hi, hv]))
      · exact hstop (exec_faultTimerExpiry (by simp [Instr.wf, hi, hv]))
      · exact hstop (exec_fastTrip (by simp [Instr.wf, hi, hv]))
      · exact hstop (exec_passFetDamaged (by simp [Instr.wf, hi, hv]))
      · exact hstop (exec_oringFetDamaged (by simp [Instr.wf, hi, hv]))
      · exact hstop (exec_currentLimit (by simp [Instr.wf, hi]))
      · exact hstop (exec_faultTimerClear (by simp [Instr.wf, hi]))
      · exact hstop (exec_reverseTurnOff (by simp [Instr.wf, hi]))
      · exact hstop (exec_retryCountReset (by simp [Instr.wf, hi]))
      · exact hstop (exec_qualificationComplete (by simp [Instr.wf, hi]))
      · exact hstop (exec_coolExpiry (by simp [Instr.wf, hi]))
      · exact hstop (exec_latchInputLowExpiry (by simp [Instr.wf, hi]))
      · exact hstop exec_pgHoldExpiry
      · exact hstop exec_orderlyGateOff
      · exact hstop exec_stlOffNAssert
      · exact hstop exec_stlOffNRelease
      · exact hstop (exec_stileMeasurement rfl)
      · exact hstop (exec_stileThermalShutdown (by simp [Instr.wf, hv]))
  · intro hr
    refine ⟨?_, ?_, ?_, ?_⟩
    · intro ms _
      exact ⟨_, exec_stileStandbyLoss rfl, State.onlyStile_onStile, State.onStile_running hr⟩
    · intro x
      have hbooks := s.stile.evalStep_books x
      have hstep : s.stile.step x = s.stile.evalStep x := by rw [Stile.step, if_pos hr]
      refine ⟨_, exec_stileEvaluationStep rfl, State.onlyStile_stiled _, ?_⟩
      rw [State.stiled_stile, hstep]
      simp only [Stile.books, Prod.mk.injEq] at hbooks
      obtain ⟨hregs, hmeas, hseq, htime⟩ := hbooks
      exact ⟨htime, hregs, hmeas, hseq⟩
    · intro x
      exact ⟨_, exec_stileMeasurement rfl, State.onlyStile_onStile, State.onStile_running hr⟩
    · intro va vb i hva hvb hi h
      have hva : va < 65536 := hva
      have hvb : vb < 65536 := hvb
      have hfeed := Stile.bothHot_feed va vb hi h
      refine ⟨_, exec_stileThermalShutdown (by simp [Instr.wf, hva, hvb]), State.onlyStile_onStile, ?_⟩
      rw [State.onStile_running hr, Stile.thermal, Stile.after_fst, Stile.followed_feed (by rw [hfeed]; nofun), hfeed]
      exact ⟨rfl, rfl, rfl, rfl⟩

end Sys2Proof.Machine
end

section
/-! SUPPORT. What the main die writes to Stile (O46): a write through the proxy, the thresholds, and the fault log. -/

namespace Sys2Proof.Machine

open Sys2Proof

variable {s : State} {t : Stile} {i : Nat} {r : Reg} {f : Stile → Stile}

/-! ### The proxy (R410) -/

/-- A write through the proxy that nothing refuses reaches a Stile that runs while the link is up. -/
theorem Dev.viaStile_of_reaches (h : s.reaches r) :
    s.dev.viaStile s.stile r f = (s.dev, if s.dev.mgt.stlLost || !s.stile.running then s.stile else f s.stile) := by
  obtain ⟨-, hat, hcause⟩ := h
  unfold Dev.viaStile
  rw [if_neg (not_not.mpr hat), hcause]

theorem State.both_of_up {g : Dev → Dev × Stile} (hu : s.up = true) :
    s.both g = { s with stile := (g s.dev).2 }.settle ((g s.dev).1.stileNote s.stile (g s.dev).2) := if_pos hu

theorem State.onlyStile_both {g : Dev → Dev × Stile} (h : s.dev.Noted (g s.dev).1) : s.onlyStile (s.both g) := by
  unfold State.both
  dsimp only
  split
  · exact State.onlyStile_settle _ (h.trans (Dev.noted_stileNote _ _ _))
  · exact s.onlyStile_refl

theorem State.both_stile {g : Dev → Dev × Stile} (hu : s.up = true) : (s.both g).stile = (g s.dev).2 := by
  rw [State.both_of_up hu]
  rfl

theorem State.onlyStile_viaStile (h : s.reaches r) : s.onlyStile (s.both fun d => d.viaStile s.stile r f) :=
  State.onlyStile_both (by rw [Dev.viaStile_of_reaches h]; exact .refl _)

theorem State.viaStile_written (h : s.reachesStile r) : (s.both fun d => d.viaStile s.stile r f).stile = f s.stile := by
  obtain ⟨hr, hl, hrun⟩ := h
  rw [State.both_stile hr.1, Dev.viaStile_of_reaches hr, hl, hrun]
  rfl

theorem State.viaStile_cut (h : s.reaches r) (hcut : s.dev.mgt.stlLost = true ∨ s.stile.running = false) :
    (s.both fun d => d.viaStile s.stile r f).stile = s.stile := by
  rw [State.both_stile h.1, Dev.viaStile_of_reaches h]
  rcases hcut with hcut | hcut <;> simp [hcut]

/-- A command that writes through a proxy that works. -/
theorem State.wrote {c : Instr} (hc : exec c s = .next (s.both fun d => d.viaStile s.stile r f)) (h : s.reachesStile r) :
    ∃ u, exec c s = .next u ∧ s.onlyStile u ∧ u.stile = f s.stile :=
  ⟨_, hc, State.onlyStile_viaStile h.1, State.viaStile_written h⟩

theorem State.wrote_nothing {c : Instr} (hc : exec c s = .next (s.both fun d => d.viaStile s.stile r f)) (h : s.reaches r)
    (hcut : s.dev.mgt.stlLost = true ∨ s.stile.running = false) : ∃ u, exec c s = .next u ∧ s.onlyStile u ∧ u.stile = s.stile :=
  ⟨_, hc, State.onlyStile_viaStile h, State.viaStile_cut h hcut⟩

/-! ### EN (R393, R406) -/

/-- A one-bit field reads as it was set. -/
theorem RegFile.flag_setFld_bit (m : RegFile) (r : Reg) (g : Fld) (b : Bool) (h : g.lo = g.hi) (h64 : g.hi < 64) :
    (m.setFld r g (b2n b)).flag r g = b := by
  unfold RegFile.flag
  rw [RegFile.fld_setFld_self _ _ _ h.le h64, show g.hi + 1 - g.lo = 1 by omega]
  cases b <;> rfl

theorem RegFile.flag_setFld_one (m : RegFile) (r : Reg) (g : Fld) (h : g.lo = g.hi) (h64 : g.hi < 64) :
    (m.setFld r g 1).flag r g = true := m.flag_setFld_bit r g true h h64

/-- Stile with EN of a feed as written. -/
def Stile.withEn (t : Stile) (i : Nat) (b : Bool) : Stile :=
  { t with regs := t.regs.setFld (.stlFeedCtrl i) F.stlFeedCtrl_EN (b2n b) }

theorem Stile.en_withEn (t : Stile) (i : Nat) (b : Bool) : (t.withEn i b).en i = b := by
  unfold Stile.en Stile.withEn
  dsimp only
  rw [RegFile.flag_setFld_bit _ _ _ b rfl (by decide)]

@[simp] theorem Stile.withEn_feed (t : Stile) (i : Nat) (b : Bool) (j : Nat) : (t.withEn i b).feed j = t.feed j := by
  unfold Stile.withEn Stile.feed
  dsimp only

@[simp] theorem Stile.withEn_pg (t : Stile) (i : Nat) (b : Bool) : (t.withEn i b).pg = t.pg := by
  unfold Stile.withEn
  dsimp only

theorem Stile.withEn_feeds (t : Stile) (i : Nat) (b : Bool) : (t.withEn i b).feedA = t.feedA ∧ (t.withEn i b).feedB = t.feedB := by
  unfold Stile.withEn
  exact ⟨rfl, rfl⟩

theorem Stile.setEn_true : Stile.setEn i true t = t.withEn i true := by
  unfold Stile.setEn
  exact if_pos rfl

theorem Stile.setEn_false : Stile.setEn i false t = ((t.withEn i false).orderlyOff i 10).decideWithdraw := by
  unfold Stile.setEn
  exact if_neg Bool.false_ne_true

theorem Stile.orderlyOff_regs (t : Stile) (i cause : Nat) : (t.orderlyOff i cause).regs = t.regs :=
  congrArg Prod.fst (t.orderlyOff_books i cause)

theorem Stile.decideWithdraw_regs (t : Stile) : t.decideWithdraw.regs = t.regs := congrArg Prod.fst t.decideWithdraw_books

theorem Stile.en_setEn_false (t : Stile) : (Stile.setEn i false t).en i = false := by
  have hen := t.en_withEn i false
  unfold Stile.en at hen ⊢
  rwa [Stile.setEn_false, Stile.decideWithdraw_regs, Stile.orderlyOff_regs]

/-- The last feed that is to stay ON waits for the withdrawal of PG. -/
theorem Stile.orderlyOff_last {cause : Nat} (hon : (t.feed i).state = .on) (ho : (t.feed i).orderly = none) (hp : t.pg = true)
    (hother : t.otherOn i = false) : t.orderlyOff i cause = t.setFeed i { t.feed i with cause := cause, orderly := some cause } := by
  unfold Stile.orderlyOff
  simp only [hon, ho, hp, hother]
  simp

/-- A feed that is ON beside another, or without PG, is off at once. -/
theorem Stile.orderlyOff_beside_on (hon : (t.feed i).state = .on) (ho : (t.feed i).orderly = none)
    (h : t.pg = false ∨ t.otherOn i = true) : t.orderlyOff i 10 = t.setFeed i { (t.feed i).toOff with cause := 10 } := by
  unfold Stile.orderlyOff
  simp only [hon, ho]
  rcases h with h | h <;> simp [h]

theorem Stile.noneRemains_iff (hi : i < 2) : t.noneRemains = true ↔
    ((t.feed i).state = .on → (t.feed i).orderly ≠ none) ∧ t.otherOn i = false := by
  have hfeed (f : Feed) : (!(f.state == .on && f.orderly.isNone)) = true ↔ (f.state = .on → f.orderly ≠ none) := by
    cases f.orderly <;> simp
  have hother (j : Nat) : t.otherOn j = false ↔ ((t.feed (1 - j)).state = .on → (t.feed (1 - j)).orderly ≠ none) := by
    rw [← hfeed, Stile.otherOn, Bool.not_eq_true']
  rw [Stile.noneRemains, Bool.and_eq_true, hfeed, hfeed, hother]
  obtain rfl | rfl : i = 0 ∨ i = 1 := by omega
  · rfl
  · exact and_comm

/-- PG is asserted and no feed is to remain ON: its withdrawal is decided. -/
theorem Stile.decideWithdraw_decides (hp : t.pg = true) (h : t.noneRemains = true) : t.decideWithdraw.withdraw = true := by
  unfold Stile.decideWithdraw
  split
  · rfl
  · next hno => simpa [hp, h] using hno

theorem Stile.decideWithdraw_pg (t : Stile) : t.decideWithdraw.pg = t.pg := by
  obtain ⟨p, n, w, h⟩ := t.decideWithdraw_cases
  rw [h]

theorem Stile.otherOn_setFeed {g : Feed} : (t.setFeed i g).otherOn i = t.otherOn i := by
  unfold Stile.otherOn
  rw [Stile.feed_setFeed_beside]

/-! ### The thresholds (R392) -/

theorem bitsOf_mod_two_pow (v : Nat) {hi lo n : Nat} (h : hi < n) : bitsOf (v % 2 ^ n) hi lo = bitsOf v hi lo := by
  rw [← BitVec.toNat_ofNat, bitsOf_toNat_ofNat v h]

/-- A field that is written reads what was written. -/
theorem RegFile.fld_set_applyWrite (m : RegFile) {r : Reg} {g : FieldDef} (hg : g ∈ r.fieldDefs) (hrw : g.acc = .rw) (h64 : g.hi < 64)
    (v w : Nat) : (m.set r (r.applyWrite false v w)).fld r ⟨g.hi, g.lo⟩ = bitsOf w g.hi g.lo := by
  unfold RegFile.fld
  rw [RegFile.get_set_self, bitsOf_mod_two_pow _ h64, Reg.bitsOf_applyWrite hg]
  simp [FieldDef.written, hrw]

section
variable {uvOff uvOn ovOff ovOn warn : Nat}

/-- The register word that holds the five thresholds. -/
def vthrWord (uvOff uvOn ovOff ovOn warn : Nat) : Nat := uvOff + uvOn * 2 ^ 10 + ovOff * 2 ^ 20 + ovOn * 2 ^ 30 + warn * 2 ^ 40

theorem vthrWord_bits (h1 : uvOff < 1024) (h2 : uvOn < 1024) (h3 : ovOff < 1024) (h4 : ovOn < 1024) (h5 : warn < 1024) :
    let w := vthrWord uvOff uvOn ovOff ovOn warn
    bitsOf w 9 0 = uvOff ∧ bitsOf w 19 10 = uvOn ∧ bitsOf w 29 20 = ovOff ∧ bitsOf w 39 30 = ovOn ∧ bitsOf w 49 40 = warn := by
  intro w
  refine ⟨?_, ?_, ?_, ?_, ?_⟩ <;> refine bitsOf_eq_of_mod ?_ <;> simp only [w, vthrWord] <;> omega

variable (t) (w : Nat)

/-- The order that R392 asks of the thresholds of a word. -/
def vthrOrdered (w : Nat) : Prop :=
  bitsOf w 9 0 < bitsOf w 19 10 ∧ bitsOf w 19 10 < bitsOf w 39 30 ∧ bitsOf w 39 30 < bitsOf w 29 20 ∧ bitsOf w 9 0 < bitsOf w 49 40 ∧
    bitsOf w 49 40 < bitsOf w 39 30

variable {t w}

theorem Stile.writeVthr_taken (h : vthrOrdered w) :
    t.writeVthr w = { t with regs := t.regs.set .stlVthr (Reg.applyWrite .stlVthr false (t.regs.get .stlVthr) w) } := if_pos h

theorem Stile.writeVthr_refused (h : ¬ vthrOrdered w) : t.writeVthr w = { t with regs := t.regs.setFld .stlVthr F.stlVthr_ERR 1 } := if_neg h

theorem Stile.writeVthr_taken_fields (h : vthrOrdered w) : (t.writeVthr w).uvOff = bitsOf w 9 0 * 10 ∧
    (t.writeVthr w).uvOn = bitsOf w 19 10 * 10 ∧ (t.writeVthr w).ovOff = bitsOf w 29 20 * 10 ∧
    (t.writeVthr w).ovOn = bitsOf w 39 30 * 10 ∧ (t.writeVthr w).warn = bitsOf w 49 40 * 10 := by
  have hfield {g : FieldDef} (hg : g ∈ Reg.stlVthr.fieldDefs) (hrw : g.acc = .rw) (h64 : g.hi < 64) :
      (t.writeVthr w).f .stlVthr ⟨g.hi, g.lo⟩ = bitsOf w g.hi g.lo := by
    rw [Stile.writeVthr_taken h]
    exact RegFile.fld_set_applyWrite _ hg hrw h64 _ _
  refine ⟨?_, ?_, ?_, ?_, ?_⟩
  · exact congrArg (· * 10) (hfield (g := ⟨9, 0, .rw, 360⟩) (by decide) rfl (by decide))
  · exact congrArg (· * 10) (hfield (g := ⟨19, 10, .rw, 385⟩) (by decide) rfl (by decide))
  · exact congrArg (· * 10) (hfield (g := ⟨29, 20, .rw, 620⟩) (by decide) rfl (by decide))
  · exact congrArg (· * 10) (hfield (g := ⟨39, 30, .rw, 605⟩) (by decide) rfl (by decide))
  · exact congrArg (· * 10) (hfield (g := ⟨49, 40, .rw, 400⟩) (by decide) rfl (by decide))

theorem Stile.writeVthr_refused_fields (h : ¬ vthrOrdered w) : (t.writeVthr w).regs.flag .stlVthr F.stlVthr_ERR = true ∧
    (t.writeVthr w).uvOff = t.uvOff ∧ (t.writeVthr w).uvOn = t.uvOn ∧ (t.writeVthr w).ovOff = t.ovOff ∧
    (t.writeVthr w).ovOn = t.ovOn ∧ (t.writeVthr w).warn = t.warn := by
  have hfield {g : Fld} (hg : g.hi < 63) : (t.writeVthr w).f .stlVthr g = t.f .stlVthr g := by
    rw [Stile.writeVthr_refused h]
    unfold Stile.f
    dsimp only
    rw [RegFile.fld_setFld_field _ _ _ (by decide) (by omega) (.inl hg)]
  refine ⟨?_, ?_, ?_, ?_, ?_, ?_⟩
  · rw [Stile.writeVthr_refused h]
    dsimp only
    rw [RegFile.flag_setFld_one _ _ _ rfl (by decide)]
  · exact congrArg (· * 10) (hfield (by decide))
  · exact congrArg (· * 10) (hfield (by decide))
  · exact congrArg (· * 10) (hfield (by decide))
  · exact congrArg (· * 10) (hfield (by decide))
  · exact congrArg (· * 10) (hfield (by decide))

end

/-! ### RESTART and CLR_FET (R393, R402) -/

theorem Stile.restart_latched (h : (t.feed i).state = .latched) : (t.restart i).feed i = (t.feed i).toOff := by
  rw [Stile.restart, if_pos h, Stile.feed_setFeed_self]

theorem Stile.clrFet_bad (h : (t.feed i).state = .fetBad) : (t.clrFet i).feed i = (t.feed i).toOff := by
  rw [Stile.clrFet, if_pos h, Stile.feed_setFeed_self]

/-- A feed that is not as asked keeps its state, and ERR sets. -/
def Stile.withErr (t : Stile) (i : Nat) : Stile := { t with regs := t.regs.setFld (.stlFeedCtrl i) F.stlFeedCtrl_ERR 1 }

theorem Stile.withErr_spec (t : Stile) (i : Nat) : (t.withErr i).feed i = t.feed i ∧
    (t.withErr i).regs.flag (.stlFeedCtrl i) F.stlFeedCtrl_ERR = true := by
  unfold Stile.withErr Stile.feed
  dsimp only
  rw [RegFile.flag_setFld_one _ _ _ rfl (by decide)]
  exact ⟨rfl, rfl⟩

theorem Stile.restart_other (h : (t.feed i).state ≠ .latched) : t.restart i = t.withErr i := if_neg h
theorem Stile.clrFet_other (h : (t.feed i).state ≠ .fetBad) : t.clrFet i = t.withErr i := if_neg h

/-! ### The fault log (R412) -/

/-- What the log drains is its oldest entries, one by one; the feeds and the registers stay. -/
theorem Stile.drain_spec (n : Nat) : ∀ p : Dev × Stile, p.1.Noted (Stile.drain n p).1 ∧ (Stile.drain n p).2.count = p.2.count - n ∧
    (Stile.drain n p).2.feedA = p.2.feedA ∧ (Stile.drain n p).2.feedB = p.2.feedB ∧ (Stile.drain n p).2.regs = p.2.regs := by
  induction n with
  | zero => exact fun p => ⟨.refl _, rfl, rfl, rfl, rfl⟩
  | succ n ih =>
    rintro ⟨d, t⟩
    have hpop (hc : t.count ≠ 0) (e : Dev) (he : d.Noted e) : d.Noted (Stile.drain n (e, t.pop)).1 ∧
        (Stile.drain n (e, t.pop)).2.count = t.count - (n + 1) ∧ (Stile.drain n (e, t.pop)).2.feedA = t.feedA ∧
        (Stile.drain n (e, t.pop)).2.feedB = t.feedB ∧ (Stile.drain n (e, t.pop)).2.regs = t.regs := by
      obtain ⟨hd, hcount, ha, hb, hregs⟩ := ih (e, t.pop)
      have hpop : t.pop = { t with log := kvDel t.log t.oldest, oldest := (t.oldest + 1) % 16, count := t.count - 1 } := if_neg hc
      simp only [hpop] at hcount ha hb hregs ⊢
      simp only [hpop] at hd
      exact ⟨he.trans hd, by omega, ha, hb, hregs⟩
    unfold Stile.drain
    split
    · next hc => exact ⟨.refl _, by simp only at hc ⊢; omega, rfl, rfl, rfl⟩
    · next hc => exact hpop (by simpa using hc) _ (d.noted_raise _)
    · next hc => exact hpop (by simpa using hc) _ (.refl _)

theorem Stile.pop_of_some (h : 0 < t.count) :
    t.pop = { t with log := kvDel t.log t.oldest, oldest := (t.oldest + 1) % 16, count := t.count - 1 } := if_neg (by omega)

theorem Stile.otherOn_withEn (t : Stile) (i : Nat) (b : Bool) : (t.withEn i b).otherOn i = t.otherOn i := by
  unfold Stile.otherOn
  rw [Stile.withEn_feed]

/-- An orderly turn-off with what follows it. -/
def Stile.turnedOff (t : Stile) (i : Nat) : Stile := (t.orderlyOff i 10).decideWithdraw

theorem Stile.turnedOff_feed (t : Stile) (i j : Nat) : (t.turnedOff i).feed j = (t.orderlyOff i 10).feed j :=
  Stile.decideWithdraw_feed _ j

theorem Stile.turnedOff_last (hi : i < 2) (hon : (t.feed i).state = .on) (ho : (t.feed i).orderly = none) (hp : t.pg = true)
    (hother : t.otherOn i = false) : (t.turnedOff i).feed i = { t.feed i with cause := 10, orderly := some 10 } ∧
      (t.turnedOff i).withdraw = true := by
  have hoff := Stile.orderlyOff_last (cause := 10) hon ho hp hother
  rw [Stile.turnedOff_feed, Stile.turnedOff, hoff, Stile.feed_setFeed_self]
  refine ⟨rfl, Stile.decideWithdraw_decides ?_ ?_⟩
  · rwa [Stile.setFeed_pg]
  · rw [Stile.noneRemains_iff hi, Stile.otherOn_setFeed, Stile.feed_setFeed_self]
    exact ⟨nofun, hother⟩

theorem Stile.turnedOff_beside_on (hon : (t.feed i).state = .on) (ho : (t.feed i).orderly = none) (h : t.pg = false ∨ t.otherOn i = true) :
    (t.turnedOff i).feed i = { (t.feed i).toOff with cause := 10 } ∧ (t.turnedOff i).pg = t.pg := by
  have hoff := Stile.orderlyOff_beside_on hon ho h
  rw [Stile.turnedOff_feed, Stile.turnedOff, hoff, Stile.feed_setFeed_self, Stile.decideWithdraw_pg, Stile.setFeed_pg]
  exact ⟨rfl, rfl⟩

/-- What FEED_DISABLE makes of the feed, by its state. -/
theorem Stile.turnedOff_spec (hi : i < 2) : let f := t.feed i; let u := t.turnedOff i
    (f.state ∈ [FeedState.qual, .wait, .ramp, .cool] → (u.feed i).state = .off ∧ (u.feed i).cause = 10) ∧
    (f.state = .on → f.orderly = none → t.pg = true → t.otherOn i = false → (u.feed i).state = .on ∧
      (u.feed i).orderly = some 10 ∧ (u.feed i).gps = f.gps ∧ (u.feed i).gor = f.gor ∧ u.withdraw = true) ∧
    (f.state = .on → f.orderly = none → t.pg = false ∨ t.otherOn i = true → (u.feed i).state = .off ∧
      (u.feed i).gps = false ∧ (u.feed i).gor = false ∧ u.pg = t.pg) ∧
    (f.state ∈ [FeedState.off, .latched, .fetBad] → u.feed i = f) ∧ u.feed (1 - i) = t.feed (1 - i) := by
  dsimp only
  refine ⟨fun h => ?_, fun hon ho hp hoth => ?_, fun hon ho h => ?_, fun h => ?_, ?_⟩
  · rw [Stile.turnedOff_feed, Stile.orderlyOff_of_starting h, Stile.feed_setFeed_self]
    exact ⟨rfl, rfl⟩
  · obtain ⟨hfeed, hwithdraw⟩ := Stile.turnedOff_last hi hon ho hp hoth
    rw [hfeed]
    exact ⟨hon, rfl, rfl, rfl, hwithdraw⟩
  · obtain ⟨hfeed, hpg⟩ := Stile.turnedOff_beside_on hon ho h
    rw [hfeed]
    exact ⟨rfl, rfl, rfl, hpg⟩
  · rw [Stile.turnedOff_feed, Stile.orderlyOff_of_blocked h]
  · rw [Stile.turnedOff_feed, Stile.orderlyOff_beside]

theorem Stile.setEn_false_eq (t : Stile) (i : Nat) : Stile.setEn i false t = (t.withEn i false).turnedOff i := Stile.setEn_false

/-- Settles O46, register by register. -/
theorem stileWrites : Obligations.StileWrites := by
  intro s i hi
  refine ⟨?_, ?_, ?_, ?_, ?_, ?_, ?_, ?_⟩
  · intro h f
    refine ⟨?_, ?_, ?_, ?_, ?_, ?_⟩
    · obtain ⟨u, hu, honly, hst⟩ := State.wrote (exec_feedEnable (by simp [Instr.wf, hi])) h
      refine ⟨u, hu, honly, ?_⟩
      rw [hst, Stile.setEn_true]
      exact ⟨Stile.en_withEn _ _ _, Stile.withEn_feeds _ _ _⟩
    · obtain ⟨u, hu, honly, hst⟩ := State.wrote (exec_feedDisable (by simp [Instr.wf, hi])) h
      refine ⟨u, hu, honly, ?_⟩
      have hspec := Stile.turnedOff_spec (t := s.stile.withEn i false) hi
      simp only [Stile.withEn_feed, Stile.withEn_pg, Stile.otherOn_withEn, ← Stile.setEn_false_eq] at hspec
      rw [hst]
      exact ⟨Stile.en_setEn_false _, hspec⟩
    · intro hl
      obtain ⟨u, hu, honly, hst⟩ := State.wrote (exec_restart (by simp [Instr.wf, hi])) h
      refine ⟨u, hu, honly, ?_⟩
      rw [hst, Stile.restart_latched hl]
    · intro hl
      obtain ⟨u, hu, honly, hst⟩ := State.wrote (exec_restart (by simp [Instr.wf, hi])) h
      refine ⟨u, hu, honly, ?_⟩
      rw [hst, Stile.restart_other hl]
      exact Stile.withErr_spec _ _
    · intro hb
      obtain ⟨u, hu, honly, hst⟩ := State.wrote (exec_clrFet (by simp [Instr.wf, hi])) h
      refine ⟨u, hu, honly, ?_⟩
      rw [hst, Stile.clrFet_bad hb]
    · intro hb
      obtain ⟨u, hu, honly, hst⟩ := State.wrote (exec_clrFet (by simp [Instr.wf, hi])) h
      refine ⟨u, hu, honly, ?_⟩
      rw [hst, Stile.clrFet_other hb]
      exact Stile.withErr_spec _ _
  · intro h uvOff uvOn ovOff ovOn warn h1 h2 h3 h4 h5 w
    have hw : w < 2 ^ 64 := by simp only [w]; omega
    obtain ⟨b1, b2, b3, b4, b5⟩ := vthrWord_bits h1 h2 h3 h4 h5
    have horder : vthrOrdered w ↔ uvOff < uvOn ∧ uvOn < ovOn ∧ ovOn < ovOff ∧ uvOff < warn ∧ warn < ovOn := by
      show vthrOrdered (vthrWord uvOff uvOn ovOff ovOn warn) ↔ _
      unfold vthrOrdered
      rw [b1, b2, b3, b4, b5]
    obtain ⟨u, hu, honly, hst⟩ := State.wrote (exec_stlVthrWrite (decide_eq_true hw)) h
    refine ⟨u, hu, honly, ?_⟩
    rw [hst]
    refine ⟨fun ho => ?_, fun ho => ?_⟩
    · obtain ⟨hoff, hon, hovOff, hovOn, hwarn⟩ := Stile.writeVthr_taken_fields (t := s.stile) (horder.mpr ho)
      refine ⟨hoff.trans ?_, hon.trans ?_, hovOff.trans ?_, hovOn.trans ?_, hwarn.trans ?_⟩
      · exact congrArg (· * 10) b1
      · exact congrArg (· * 10) b2
      · exact congrArg (· * 10) b3
      · exact congrArg (· * 10) b4
      · exact congrArg (· * 10) b5
    · exact Stile.writeVthr_refused_fields fun hv => ho (horder.mp hv)
  · intro c hc h hcut
    simp only [List.mem_cons, List.not_mem_nil, or_false] at hc
    rcases hc with rfl | rfl | rfl | rfl | rfl | rfl
    · exact State.wrote_nothing (exec_feedEnable (by simp [Instr.wf, hi])) h hcut
    · exact State.wrote_nothing (exec_feedDisable (by simp [Instr.wf, hi])) h hcut
    · exact State.wrote_nothing (exec_restart (by simp [Instr.wf, hi])) h hcut
    · exact State.wrote_nothing (exec_clrFet (by simp [Instr.wf, hi])) h hcut
    · exact State.wrote_nothing exec_pop h hcut
    · exact State.wrote_nothing (exec_stlVthrWrite (by decide)) h hcut
  · intro h hc
    obtain ⟨u, hu, honly, hst⟩ := State.wrote exec_pop h
    refine ⟨u, hu, honly, ?_⟩
    rw [hst, Stile.pop, if_pos hc]
  · intro hu hcut
    have hdrain : s.dev.stileDrain s.stile = (s.dev, s.stile) := by
      unfold Dev.stileDrain
      rw [if_pos]
      rcases hcut with hcut | hcut | hcut <;> simp [hcut]
    refine ⟨_, exec_stileLogDrain, State.onlyStile_both ?_, ?_⟩
    · rw [hdrain]
      exact .refl _
    · rw [State.both_stile hu, hdrain]
  · intro h hc
    obtain ⟨u, hu, honly, hst⟩ := State.wrote exec_pop h
    refine ⟨u, hu, honly, ?_⟩
    rw [hst, Stile.pop_of_some hc]
    exact ⟨rfl, rfl, kvFind?_del_self _ _, fun k hk => kvFind?_del_other _ hk.symm⟩
  · intro hu hl hre hrun
    have hdrain : s.dev.stileDrain s.stile = Stile.drain 16 (s.dev, s.stile) := by
      unfold Dev.stileDrain
      rw [if_neg (by simp [hl, hre, hrun])]
    obtain ⟨hnoted, hspec⟩ := Stile.drain_spec 16 (s.dev, s.stile)
    refine ⟨_, exec_stileLogDrain, State.onlyStile_both ?_, ?_⟩
    · rwa [hdrain]
    · rwa [State.both_stile hu, hdrain]
  · intro hu
    have hlost : s.dev.Noted s.dev.stileLost ∧ s.dev.stileLost.mgt.stlLost = true := by
      unfold Dev.stileLost
      split
      · next hl => exact ⟨.refl _, hl⟩
      · refine ⟨Dev.Noted.trans (e := { s.dev with mgt := { s.dev.mgt with stlLost := true } }) ⟨rfl, rfl, rfl, rfl, rfl⟩ (Dev.noted_raise _ _), ?_⟩
        rw [Dev.raise_mgt]
    refine ⟨_, exec_stileLinkLost hu, State.onlyStile_settle s.stile hlost.1, ?_, rfl⟩
    rw [State.settle_mgt]
    exact hlost.2

end Sys2Proof.Machine
end

section
/-! SUPPORT. Firmware images (O53, R418 to R420). -/

namespace Sys2Proof.Machine

open Sys2Proof

variable {s : State} {d : Dev} {nv : Nv} {slot off len : Nat} {good : Bool}

/-- A command on flash ends on the die and the flash that its operation gives. -/
theorem State.flash_of {f : Dev → Dev × Nv} (hp : s.powered = true) (h : f s.dev = (d, nv)) : s.flash f = { s with nv := nv }.settle d := by
  rw [State.flash, if_pos hp, h]

/-- The slot that the running firmware came from, or one that the device does not have, takes no image. -/
def Dev.slotTaken (d : Dev) (slot : Nat) : Prop :=
  2 ≤ slot ∨ (d.mgt.power == .on && b2n (d.flag .gblBoot F.gblBoot_FWSLOT) == slot) = true

theorem State.slotTaken_iff : s.dev.slotTaken slot ↔
    ¬ (slot < 2 ∧ ¬ (s.up = true ∧ b2n (s.dev.flag .gblBoot F.gblBoot_FWSLOT) = slot)) := by
  unfold Dev.slotTaken
  rw [Bool.and_eq_true, beq_iff_eq (a := b2n _), show (s.dev.mgt.power == .on) = s.up from rfl, not_and_or, not_not, Nat.not_lt]

/-- The answer of TRANSFER_FW. -/
def Dev.sayFw (d : Dev) (c : MboxCode) : Dev := d.emit (.mailbox 16 .transferFw c [])

/-- The die with what is noted of the parts so far. -/
def Dev.keepFw (d : Dev) (x : Option (Nat × Nat)) : Dev := d.modMgt fun m => { m with fw := x }

theorem Dev.transferFw_full_taken (h : d.slotTaken slot) :
    d.transferFw nv .full slot off len good = (d.sayFw .invalidSlot, nv) := if_pos h

theorem Dev.transferFw_full_open (h : ¬ d.slotTaken slot) :
    d.transferFw nv .full slot off len good = ((d.keepFw none).sayFw .success, nv.setFw slot { valid := good, size := len }) := if_neg h

theorem Dev.transferFw_first_taken (h : d.slotTaken slot) :
    d.transferFw nv .first slot off len good = (d.sayFw .invalidSlot, nv) := if_pos h

theorem Dev.transferFw_first_late (h : ¬ d.slotTaken slot) (ho : off ≠ 0) :
    d.transferFw nv .first slot off len good = (d.sayFw .transferOutOfOrder, nv) := (if_neg h).trans (if_pos ho)

theorem Dev.transferFw_first_open (h : ¬ d.slotTaken slot) (ho : off = 0) :
    d.transferFw nv .first slot off len good = ((d.keepFw (some (slot, len))).sayFw .success, nv.setFw slot {}) :=
  (if_neg h).trans (if_neg (not_not.mpr ho))

theorem Dev.transferFw_next {k : Nat} (h : d.mgt.fw = some (k, off)) :
    d.transferFw nv .middle slot off len good = ((d.keepFw (some (k, off + len))).sayFw .success, nv) ∧
    d.transferFw nv .last slot off len good = ((d.keepFw none).sayFw .success, nv.setFw k { valid := good, size := off + len }) := by
  unfold Dev.transferFw
  simp only [h, if_true]
  exact ⟨rfl, rfl⟩

/-- A part that does not follow the last one is out of order. -/
theorem Dev.transferFw_gap (h : ∀ k, d.mgt.fw ≠ some (k, off)) :
    d.transferFw nv .middle slot off len good = (d.sayFw .transferOutOfOrder, nv) ∧
    d.transferFw nv .last slot off len good = (d.sayFw .transferOutOfOrder, nv) := by
  unfold Dev.transferFw
  cases hfw : d.mgt.fw with
  | none => exact ⟨rfl, rfl⟩
  | some p =>
    have hne : p.2 ≠ off := fun ho => h p.1 (by rw [hfw, ← ho])
    exact ⟨if_neg hne, if_neg hne⟩

/-- The answer of ACTIVATE_FW. -/
def Dev.sayActive (d : Dev) (c : MboxCode) : Dev := d.emit (.mailbox 16 .activateFw c [])

/-- The image of a slot verifies. -/
def Nv.fwValid (nv : Nv) (slot : Nat) : Bool := if slot = 0 then nv.fwA.valid else nv.fwB.valid

theorem Dev.activateFw_online : d.activateFw nv slot true = (d.sayActive .unsupported, nv) := rfl

theorem Dev.activateFw_absent (h : 2 ≤ slot) : d.activateFw nv slot false = (d.sayActive .invalidSlot, nv) := if_pos h

theorem Dev.activateFw_bad (h : slot < 2) (hv : ¬ nv.fwValid slot = true) :
    d.activateFw nv slot false = (d.sayActive .verificationFailed, nv) :=
  (if_neg (by omega : ¬ 2 ≤ slot)).trans (if_pos (Bool.not_eq_true' _ ▸ Bool.not_eq_true _ ▸ hv))

theorem Dev.activateFw_good (h : slot < 2) (hv : nv.fwValid slot = true) :
    d.activateFw nv slot false = (d.sayActive .success, { nv with active := slot }) :=
  (if_neg (by omega : ¬ 2 ≤ slot)).trans (if_neg (by rw [show (if slot = 0 then nv.fwA.valid else nv.fwB.valid) = true from hv]; decide))

theorem Dev.firmware_busy {op : MboxOp} {f : Nv → Dev → Dev × Nv} (h : d.mgt.restarting = true) :
    d.firmware op nv f = (d.emit (.mailbox 16 op .busy []), nv) := if_pos h

theorem Dev.firmware_served {op : MboxOp} {f : Nv → Dev → Dev × Nv} (h : d.mgt.restarting = false) : d.firmware op nv f = f nv d :=
  if_neg (Bool.not_eq_true _ ▸ h)

/-- Settles O53, by the parts of an image and the causes of a refusal. -/
theorem firmwareUpdate : Obligations.FirmwareUpdate := by
  intro s slot off len good hp hoff hlen hslot say keep open_ run refused
  have hwf (part : FwPart) : (Instr.transferFw part slot off len good).wf = true := by simp [Instr.wf]; omega
  have hwfa (online : Bool) : (Instr.activateFw slot online).wf = true := by simp [Instr.wf]; omega
  have htaken : s.dev.slotTaken slot ↔ ¬ open_ := State.slotTaken_iff
  refine ⟨fun hre => ⟨fun part => ?_, fun online => ?_⟩, fun hre => ?_⟩
  · exact (exec_transferFw (hwf part)).trans (congrArg _ (State.flash_of hp (Dev.firmware_busy hre)))
  · exact (exec_activateFw (hwfa online)).trans (congrArg _ (State.flash_of hp (Dev.firmware_busy hre)))
  · have hrun {part : FwPart} {d : Dev} {nv : Nv} (h : s.dev.transferFw s.nv part slot off len good = (d, nv)) :
        run part = .next ({ s with nv := nv }.settle d) :=
      (exec_transferFw (hwf part)).trans (congrArg _ (State.flash_of hp ((Dev.firmware_served hre).trans h)))
    have hact {online : Bool} {d : Dev} {nv : Nv} (h : s.dev.activateFw s.nv slot online = (d, nv)) :
        exec (.activateFw slot online) s = .next ({ s with nv := nv }.settle d) :=
      (exec_activateFw (hwfa online)).trans (congrArg _ (State.flash_of hp ((Dev.firmware_served hre).trans h)))
    refine ⟨fun h => ?_, fun h ho => ?_, fun h ho => ?_, fun h => ⟨?_, ?_⟩, fun k n hfw hn => ?_, fun h => ?_, ?_, ?_, fun h hv => ?_,
      fun h hv => ?_, fun h => ?_⟩
    · exact hrun (Dev.transferFw_full_open fun ht => htaken.mp ht h)
    · exact hrun (Dev.transferFw_first_open (fun ht => htaken.mp ht h) ho)
    · exact hrun (Dev.transferFw_first_late (fun ht => htaken.mp ht h) ho)
    · exact hrun (Dev.transferFw_full_taken (htaken.mpr h))
    · exact hrun (Dev.transferFw_first_taken (htaken.mpr h))
    · subst hn
      exact ⟨hrun (Dev.transferFw_next hfw).1, hrun (Dev.transferFw_next hfw).2⟩
    · exact ⟨hrun (Dev.transferFw_gap h).1, hrun (Dev.transferFw_gap h).2⟩
    · exact hrun rfl
    · exact hact Dev.activateFw_online
    · exact hact (Dev.activateFw_good h hv)
    · exact hact (Dev.activateFw_bad h hv)
    · exact hact (Dev.activateFw_absent h)

end Sys2Proof.Machine
end

section
/-! SUPPORT. Configuration images and their commits (O54, R426 to R429). -/

namespace Sys2Proof.Machine

open Sys2Proof

variable {s : State} {d : Dev} {nv : Nv}

/-! ### The staging buffer (R427) -/

theorem Dev.pliuth_busy {op : MboxOp} {f : Dev → Dev} (h : d.mgt.burn.isSome = true ∨ d.mgt.restarting = true) :
    d.pliuth op f = d.emit (.mailbox 16 op .busy []) := if_pos (Bool.or_eq_true _ _ ▸ h)

theorem Dev.pliuth_served {op : MboxOp} {f : Dev → Dev} (hb : d.mgt.burn = none) (hr : d.mgt.restarting = false) : d.pliuth op f = f d := by
  rw [Dev.pliuth, hb, hr]
  rfl

/-- Bytes staged at an offset. -/
def stagePut (off : Nat) (data : List Nat) (n : Nat) (l : List (Nat × Nat)) : List (Nat × Nat) :=
  (List.range n).foldl (fun l i => kvIns l (off + i) (data.getD i 0 % 256)) l

theorem stagePut_succ (off : Nat) (data : List Nat) (n : Nat) (l : List (Nat × Nat)) :
    stagePut off data (n + 1) l = kvIns (stagePut off data n l) (off + n) (data.getD n 0 % 256) := by
  unfold stagePut
  rw [List.range_succ, List.foldl_append]
  rfl

/-- Each byte stands at its place; every other byte is as it was. -/
theorem kvFind?_stagePut (off : Nat) (data : List Nat) (n : Nat) (l : List (Nat × Nat)) :
    (∀ i < n, kvFind? (stagePut off data n l) (off + i) = some (data.getD i 0 % 256)) ∧
    ∀ k, (k < off ∨ off + n ≤ k) → kvFind? (stagePut off data n l) k = kvFind? l k := by
  induction n with
  | zero => exact ⟨nofun, fun _ _ => rfl⟩
  | succ n ih =>
    obtain ⟨hin, hout⟩ := ih
    simp only [stagePut_succ]
    refine ⟨fun i hi => ?_, fun k hk => ?_⟩
    · by_cases h : i = n
      · subst h
        exact kvFind?_ins_self _ _ _
      · rw [kvFind?_ins_other _ (by omega), hin i (by omega)]
    · rw [kvFind?_ins_other _ (by omega), hout k (by omega)]

theorem Dev.pliuthTransfer_taken {off : Nat} {data : List Nat} (h0 : 0 < data.length) (h1 : data.length ≤ 512) (h2 : off + data.length ≤ 2100) :
    d.pliuthTransfer off data =
      (d.modMgt fun m => { m with stage := stagePut off data data.length m.stage }).emit (.mailbox 16 .pliuthTransfer .success []) :=
  if_neg (by omega)

theorem Dev.pliuthTransfer_refused {off : Nat} {data : List Nat} (h : data = [] ∨ 512 < data.length ∨ 2100 < off + data.length) :
    d.pliuthTransfer off data = d.emit (.mailbox 16 .pliuthTransfer .invalidInput []) :=
  if_pos (by simpa only [List.length_eq_zero_iff] using h)

/-! ### Commits (R428) -/

/-- OTP_COMMIT when a commit has ended. -/
def Dev.commitMarked (d : Dev) (status : Nat) : Dev :=
  (d.setFlag .otpCommit F.otpCommit_BUSY false).setFld .otpCommit F.otpCommit_STATUS status

/-- The end of a commit notes it in OTP_COMMIT, and otherwise only logs and answers. -/
theorem Dev.commitEnds_cases (d : Dev) (status slot gen : Nat) : (d.commitEnds status slot gen).regs = (d.commitMarked status).regs ∧
    (d.commitEnds status slot gen).mgt = d.mgt := by
  unfold Dev.commitEnds Dev.draw
  extract_lets d1 seq d2
  have hmarked : d.commitMarked status = d1 := rfl
  have hmgt : d1.mgt = d.mgt := by simp [d1]
  rw [hmarked, ← hmgt]
  clear_value d1 seq
  have hd2 : d2.regs = d1.regs ∧ d2.mgt = d1.mgt := by
    simp only [d2]
    split
    · exact ⟨d1.raise_regs _, d1.raise_mgt _⟩
    · exact ⟨d1.raise_regs _, d1.raise_mgt _⟩
  clear_value d2
  exact hd2

/-- The die of a commit that begins: SEQ is counted, and the staging buffer is empty. -/
def Dev.commitBegun (d : Dev) : Dev :=
  (d.setFld .otpCommit F.otpCommit_SEQ ((d.fld .otpCommit F.otpCommit_SEQ + 1) % 2 ^ 16)).modMgt fun m => { m with stage := [] }

/-- The staged image's body. -/
def Dev.stagedBody (d : Dev) : List Nat := (List.range 2036).map fun j => kvGet (fun _ => 0) d.mgt.stage (64 + j)

theorem Dev.stagedBody_length (d : Dev) : d.stagedBody.length = 2036 := by rw [Dev.stagedBody, List.length_map, List.length_range]

theorem Dev.pliuthCommit_passed (h : d.commitStatus nv = 0) : d.pliuthCommit nv =
    ((d.commitBegun.setFlag .otpCommit F.otpCommit_BUSY true).setFld .otpCommit F.otpCommit_SLOT nv.target).modMgt fun m =>
      { m with burn := some { slot := nv.target, body := d.stagedBody } } := by
  unfold Dev.pliuthCommit
  rw [h]
  exact if_neg (by decide)

theorem Dev.pliuthCommit_failed (h : d.commitStatus nv ≠ 0) :
    d.pliuthCommit nv = d.commitBegun.commitEnds (d.commitStatus nv) 7 0 := by
  unfold Dev.pliuthCommit
  exact if_pos h

/-- A status of the checks, or none. -/
theorem Dev.commitStatus_lt (d : Dev) (nv : Nv) : d.commitStatus nv < 9 := by
  unfold Dev.commitStatus
  dsimp only
  split_ifs <;> omega

theorem Dev.commitMarked_spec {status : Nat} (h : status < 16) :
    (d.commitMarked status).flag .otpCommit F.otpCommit_BUSY = false ∧
    (d.commitMarked status).fld .otpCommit F.otpCommit_STATUS = status ∧ d.keepsRegs (d.commitMarked status) [.otpCommit] := by
  unfold Dev.commitMarked
  refine ⟨?_, ?_, ((Dev.keepsRegs_refl d _).setFlag (by simp) _ _).setFld (by simp) _ _⟩
  · rw [Dev.flag_setFld_field _ _ _ (by decide) (by decide) (by decide), Dev.flag_setFlag_self _ _ _ (by decide) (by decide)]
  · rw [Dev.fld_setFld_self _ _ _ (by decide) (by decide)]
    exact Nat.mod_eq_of_lt h

theorem Dev.commitBegun_spec (d : Dev) : d.commitBegun.mgt = { d.mgt with stage := [] } ∧ d.keepsRegs d.commitBegun [.otpCommit] ∧
    d.commitBegun.fld .otpCommit F.otpCommit_SEQ = (d.fld .otpCommit F.otpCommit_SEQ + 1) % 2 ^ 16 := by
  unfold Dev.commitBegun
  refine ⟨by simp [Dev.modMgt], ((Dev.keepsRegs_refl d _).setFld (List.mem_singleton.mpr rfl) _ _).regs_eq (Dev.modMgt_regs _ _), ?_⟩
  rw [Dev.modMgt_fld, Dev.fld_setFld_self _ _ _ (by decide) (by decide)]
  exact Nat.mod_eq_of_lt (Nat.mod_lt _ (by decide))

/-! ### The end of a burn (Table 16.6, steps 9 to 13) -/

variable {x : Burn} {stuck : List Nat}

/-- The die when the burn has ended, before the slots show and the reset of a commit in Hold is noted. -/
theorem Dev.showSlots_spec (d : Dev) (nv : Nv) : (d.showSlots nv).mgt = d.mgt ∧ d.keepsRegs (d.showSlots nv) [.otpStat] ∧
    (d.showSlots nv).rd .otpStat = d.rd .otpStat / 2 ^ 24 * 2 ^ 24 + nv.stat % 2 ^ 24 := by
  unfold Dev.showSlots
  refine ⟨Dev.wr_mgt _ _ _, Dev.keepsRegs_wr _ _ _, ?_⟩
  have hlt : d.rd .otpStat < 2 ^ 64 := RegFile.get_lt _ _
  rw [Dev.rd_wr_self]
  exact Nat.mod_eq_of_lt (by omega)

theorem Dev.burnShown_spec (d : Dev) (x : Burn) (stuck : List Nat) (nv : Nv) :
    (d.burnShown x stuck nv).mgt = { d.mgt with burn := none } ∧
    (d.burnShown x stuck nv).flag .otpCommit F.otpCommit_BUSY = false ∧ d.keepsRegs (d.burnShown x stuck nv) [.otpStat, .otpCommit] ∧
    (d.burnShown x stuck nv).rd .otpStat = d.rd .otpStat / 2 ^ 24 * 2 ^ 24 + (x.done stuck nv).stat % 2 ^ 24 := by
  unfold Dev.burnShown
  generalize hstatus : (if x.verifies stuck nv then 0 else 9) = status
  have hlt : status < 16 := by rw [← hstatus]; split <;> decide
  generalize x.done stuck nv = n
  obtain ⟨hshowMgt, hshow, hstat⟩ := (d.modMgt fun m => { m with burn := none }).showSlots_spec n
  generalize (d.modMgt fun m => { m with burn := none }).showSlots n = e at *
  obtain ⟨hregs, hmgt⟩ := e.commitEnds_cases status x.slot (x.slot + 1)
  obtain ⟨hbusy, -, hmarked⟩ := e.commitMarked_spec hlt
  refine ⟨?_, ?_, ?_, ?_⟩
  · rw [hmgt, hshowMgt]
    simp [Dev.modMgt]
  · rw [Dev.flag_of_regs_eq hregs, hbusy]
  · exact (hshow.trans_cons hmarked).regs_eq hregs
  · have hother : (e.commitMarked status).rd .otpStat = e.rd .otpStat := hmarked _ (by simp only [List.mem_singleton]; rintro r rfl; decide)
    rw [Dev.modMgt_rd] at hstat
    rw [← hstat, ← hother]
    simp only [Dev.rd, hregs]

theorem Dev.burned_spec (d : Dev) (x : Burn) (stuck : List Nat) (nv : Nv) :
    (d.burned x stuck nv).regs = (d.burnShown x stuck nv).regs ∧ (d.burned x stuck nv).mgt.burn = none ∧
    (d.burned x stuck nv).mgt.resetDue = d.mgt.resetDue := by
  have hmgt := (d.burnShown_spec x stuck nv).1
  unfold Dev.burned
  generalize d.burnShown x stuck nv = e at *
  split
  · simp [Dev.modMgt, hmgt]
  · simp [hmgt]

/-! ### A burn stays inside its slot -/

theorem Nv.byte_burnAll_outside {slot k j : Nat} (l : List Nat) (hk : k ≠ slot) (hj : j < 2048) :
    ∀ (nv : Nv) (i : Nat), i + l.length ≤ 2048 → (nv.burnAll slot i l).byte k j = nv.byte k j := by
  induction l with
  | nil => exact fun _ _ _ => rfl
  | cons v l ih =>
    intro nv i hi
    rw [List.length_cons] at hi
    have hplace : k * 2048 + j ≠ slot * 2048 + i := by omega
    exact (ih (nv.burn slot i v) (i + 1) (by omega)).trans ((nv.byte_burn slot i v k j).trans (if_neg hplace))

theorem byte_burnWith_outside (stuck : List Nat) (nv : Nv) {slot i k j : Nat} {l : List Nat} (hk : k ≠ slot) (hj : j < 2048)
    (hl : i + l.length ≤ 2048) : (burnWith stuck nv slot i l).byte k j = nv.byte k j :=
  Nv.byte_burnAll_outside _ hk hj nv i (by rwa [List.length_map, List.length_range])

theorem Burn.tail_length (x : Burn) : x.tail.length = 8 := by simp [Burn.tail, toBytes]

theorem Burn.done_outside (x : Burn) (stuck : List Nat) (nv : Nv) {k j : Nat} (hb : x.body.length = 2036) (hk : k ≠ x.slot) (hj : j < 2048) :
    (x.done stuck nv).byte k j = nv.byte k j := by
  have hbody : (x.bodied stuck nv).byte k j = nv.byte k j := by
    rw [Burn.bodied, byte_burnWith_outside _ _ hk hj (by omega), byte_burnWith_outside _ _ hk hj (by simp)]
  unfold Burn.done
  split
  · rw [byte_burnWith_outside _ _ hk hj (by rw [x.tail_length]), hbody]
  · exact hbody

/-- Settles O54: the staging buffer, the start of a burn, and its end. -/
theorem pliuthCommits : Obligations.PliuthCommits := by
  intro s off data stuck hu hoff hdata ops
  have hwf : (Instr.pliuthTransfer off data).wf = true := by
    simp only [Instr.wf, Bool.and_eq_true, decide_eq_true_eq, List.all_eq_true]
    exact ⟨hoff, hdata⟩
  refine ⟨fun hbusy c hc => ?_, fun hb hr => ⟨fun h0 h1 h2 => ?_, fun h => ?_, ?_, ?_, fun hst => ?_, fun hst => ?_⟩, fun hb => ?_,
    fun x c hb hdue => ?_, fun x hb hdue hlen => ?_⟩
  · simp only [ops, List.mem_cons, List.not_mem_nil, or_false] at hc
    rcases hc with rfl | rfl | rfl | rfl
    · rw [exec_pliuthTransfer hwf hu, Dev.pliuth_busy hbusy]
    · rw [exec_pliuthCommit hu, Dev.pliuth_busy hbusy]
    · rw [exec_getConfigurationState hu, Dev.pliuth_busy hbusy]
    · rw [exec_pliuthAbort hu, Dev.pliuth_busy hbusy]
  · obtain ⟨hin, hout⟩ := kvFind?_stagePut off data data.length s.dev.mgt.stage
    have hstage : (s.dev.pliuthTransfer off data).mgt.stage = stagePut off data data.length s.dev.mgt.stage := by
      rw [Dev.pliuthTransfer_taken h0 h1 h2]
      rfl
    refine ⟨s.dev.pliuthTransfer off data, ?_, ?_, ?_, fun i hi => ?_, fun k hk => ?_⟩
    · rw [exec_pliuthTransfer hwf hu, Dev.pliuth_served hb hr]
    · rw [Dev.pliuthTransfer_taken h0 h1 h2]
      rfl
    · rw [Dev.pliuthTransfer_taken h0 h1 h2]
      rfl
    · have hbyte : data.getD i 0 < 256 := by
        rw [List.getD_eq_getElem _ _ hi]
        exact hdata _ (List.getElem_mem hi)
      rw [hstage, hin i hi, Nat.mod_eq_of_lt hbyte]
    · rw [hstage, hout k hk]
  · rw [exec_pliuthTransfer hwf hu, Dev.pliuth_served hb hr, Dev.pliuthTransfer_refused h]
  · rw [exec_pliuthAbort hu, Dev.pliuth_served hb hr]
    rfl
  · rw [exec_getConfigurationState hu, Dev.pliuth_served hb hr]
    rfl
  · obtain ⟨hmgt, hkeeps, hseq⟩ := s.dev.commitBegun_spec
    have hbody := s.dev.stagedBody_length
    refine ⟨s.dev.pliuthCommit s.nv, { slot := s.nv.target, body := s.dev.stagedBody }, ?_, ?_⟩
    · rw [exec_pliuthCommit hu, Dev.pliuth_served hb hr]
    rw [Dev.pliuthCommit_passed hst]
    generalize s.dev.commitBegun = e at *
    generalize s.dev.stagedBody = body at *
    refine ⟨rfl, rfl, hbody, ?_, ?_, ?_, ?_⟩
    · rw [Dev.modMgt_flag, Dev.flag_setFld_field _ _ _ (by decide) (by decide) (by decide),
        Dev.flag_setFlag_self _ _ _ (by decide) (by decide)]
    · simp [Dev.modMgt, hmgt]
    · rw [Dev.modMgt_fld, Dev.fld_setFld_field _ _ _ (by decide) (by decide) (by decide),
        Dev.fld_setFlag_field _ _ _ (by decide) (by decide) (by decide), hseq]
    · exact ((hkeeps.setFlag (List.mem_singleton.mpr rfl) _ _).setFld (List.mem_singleton.mpr rfl) _ _).regs_eq (Dev.modMgt_regs _ _)
  · obtain ⟨hmgt, hkeeps, -⟩ := s.dev.commitBegun_spec
    obtain ⟨heregs, hemgt⟩ := s.dev.commitBegun.commitEnds_cases (s.dev.commitStatus s.nv) 7 0
    obtain ⟨hbusy, hstatus, hmarked⟩ :=
      s.dev.commitBegun.commitMarked_spec (by have := s.dev.commitStatus_lt s.nv; omega : s.dev.commitStatus s.nv < 16)
    refine ⟨s.dev.pliuthCommit s.nv, ?_, ?_⟩
    · rw [exec_pliuthCommit hu, Dev.pliuth_served hb hr]
    rw [Dev.pliuthCommit_failed hst, hemgt, hmgt, Dev.flag_of_regs_eq heregs, Dev.fld_of_regs_eq heregs]
    exact ⟨hb, hbusy, hstatus, rfl, (hkeeps.trans hmarked).regs_eq heregs⟩
  · rw [exec_commitBurnComplete rfl, if_pos hu]
    dsimp only
    rw [Dev.burnComplete_of_idle stuck s.nv s.stile hb]
  · obtain ⟨-, hburn, hdue'⟩ := s.dev.burned_spec x stuck s.nv
    refine ⟨s.dev.burned x stuck s.nv, x.done stuck s.nv, x.within_done stuck s.nv, hburn, ?_⟩
    rw [exec_commitBurnComplete rfl, if_pos hu]
    dsimp only
    rw [Dev.burnComplete_of_burn stuck s.nv s.stile hb, hdue', hdue, Option.elim_some]
  · obtain ⟨hregs, hburn, hdue'⟩ := s.dev.burned_spec x stuck s.nv
    obtain ⟨-, hbusy, hkeeps, hstat⟩ := s.dev.burnShown_spec x stuck s.nv
    refine ⟨s.dev.burned x stuck s.nv, x.done stuck s.nv, ?_, hburn, ?_, x.within_done stuck s.nv, fun k i hk hi => ?_, ?_, ?_⟩
    · rw [exec_commitBurnComplete rfl, if_pos hu]
      dsimp only
      rw [Dev.burnComplete_of_burn stuck s.nv s.stile hb, hdue', hdue, Option.elim_none]
    · rw [Dev.flag_of_regs_eq hregs, hbusy]
    · exact x.done_outside stuck s.nv hlen hk hi
    · exact hkeeps.regs_eq hregs
    · rw [← hstat]
      simp only [Dev.rd, hregs]

end Sys2Proof.Machine
end

section
/-! SUPPORT. What a device-wide reset keeps of the registers (O52, R470): the kept file is written register by register. -/

namespace Sys2Proof.Machine

open Sys2Proof

/-! ### Passes over a list -/

/-- What every step of a pass keeps, the pass keeps. -/
theorem foldl_preserves {α β : Type} {P : β → Prop} {f : β → α → β} {l : List α} (h : ∀ b, ∀ a ∈ l, P b → P (f b a)) :
    ∀ b, P b → P (l.foldl f b) := fun _ hb => List.foldlRecOn l f (motive := P) hb fun y hy x hx => h y x hx hy

/-- What one step of a pass sets and the others keep, the pass has set. -/
theorem foldl_sets {α β : Type} {P : β → Prop} {f : β → α → β} {a : α} (hset : ∀ b, P (f b a)) :
    ∀ {l : List α}, a ∈ l → (∀ b, ∀ x ∈ l, P b → P (f b x)) → ∀ b, P (l.foldl f b)
  | x :: l, ha, hkeep, b => by
    have hrest : ∀ b, ∀ y ∈ l, P b → P (f b y) := fun b y hy => hkeep b y (List.mem_cons_of_mem x hy)
    rcases List.mem_cons.mp ha with rfl | hl
    · exact foldl_preserves hrest _ (hset b)
    · exact foldl_sets hset hl hrest (f b x)

/-! ### One write of the kept file -/

variable (d : Dev) (m : RegFile) {q r : Reg} {f : Fld}

/-- A register is kept whole. -/
def Dev.keepWhole (m : RegFile) (r : Reg) : RegFile := m.set r (d.rd r)

/-- A field of a register is kept. -/
def Dev.keepFld (m : RegFile) (r : Reg) (f : Fld) : RegFile := m.setFld r f (d.fld r f)

theorem Dev.keepWhole_self : (d.keepWhole m r).get r = d.rd r := by
  rw [Dev.keepWhole, RegFile.get_set_self]
  exact Nat.mod_eq_of_lt (RegFile.get_lt _ _)

variable {m}

theorem Dev.keepWhole_get (h : r.offset ≠ q.offset) : (d.keepWhole m r).get q = m.get q := RegFile.get_set_other _ h _

theorem Dev.keepFld_get (h : r.offset ≠ q.offset) : (d.keepFld m r f).get q = m.get q := RegFile.get_set_other _ h _

theorem Dev.keepWhole_fld {g : Fld} (h : r.offset ≠ q.offset) : (d.keepWhole m r).fld q g = m.fld q g := by
  unfold RegFile.fld
  rw [d.keepWhole_get h]

theorem Dev.keepFld_fld {g : Fld} (h : r.offset ≠ q.offset) : (d.keepFld m r f).fld q g = m.fld q g := RegFile.fld_setFld_other _ _ h

variable (m) in
theorem Dev.keepFld_self (h : f.lo ≤ f.hi) (h64 : f.hi < 64) : (d.keepFld m r f).fld r f = d.fld r f := by
  rw [Dev.keepFld, RegFile.fld_setFld_self _ _ _ h h64]
  exact Nat.mod_eq_of_lt (bitsOf_lt _ _ _)

theorem Dev.keepFld_field {g : Fld} (h : f.lo ≤ f.hi) (h64 : g.hi < 64) (hd : g.hi < f.lo ∨ f.hi < g.lo) :
    (d.keepFld m r f).fld r g = m.fld r g := RegFile.fld_setFld_field _ _ _ h h64 hd

/-! ### The kept file by its parts -/

variable (m)

/-- GBL_STRAP, GBL_LOCK, the management controller's overrun flags, and the role. -/
def Dev.keptRoot : RegFile := d.keepFld (d.keepWhole (d.keepWhole (d.keepWhole [] .gblStrap) .gblLock) .crossMgt) .casId F.casId_ROLE

/-- What stays of port and quarter `p`. -/
def Dev.keptPort (p : Nat) : RegFile :=
  d.keepFld (d.keepFld (d.keepWhole m (.crossLey p)) (.hpCfg p) F.hpCfg_SPLIT) (.chnQcfg p) F.chnQcfg_MAXRATE

/-- What stays of head `n`. -/
def Dev.keptHead (n : Nat) : RegFile := d.keepWhole m (.crossHead n)

/-- What stays of LD `n`'s key register: it counts the change. -/
def Dev.keptKey (n : Nat) : RegFile := (d.keepFld m (.cipLdkey n) F.cipLdkey_ERASE_ON_RESET).setFld (.cipLdkey n) F.cipLdkey_CHANGES
  (satTo 16 (d.fld (.cipLdkey n) F.cipLdkey_CHANGES + 1))

/-- What stays of channel `c`. -/
def Dev.keptChan (c : Nat) : RegFile :=
  d.keepFld (d.keepFld (d.keepFld (d.keepFld (d.keepFld (d.keepWhole m (.crossChn c)) (.chnTrain c) F.chnTrain_ALT) (.chnSpare c) F.chnSpare_EN)
    (.chnSpare c) F.chnSpare_RANK) (.chnSpare c) F.chnSpare_FAILED) (.chnFchgTime c) F.chnFchgTime_MAX

theorem Dev.keptRegs_eq : d.keptRegs = (List.range 24).foldl d.keptChan ((List.range 16).foldl d.keptKey
    ((List.range 8).foldl d.keptHead ((List.range 4).foldl d.keptPort d.keptRoot))) := rfl

variable {m}

theorem Dev.keptRoot_get (h : ∀ r ∈ [Reg.gblStrap, .gblLock, .crossMgt, .casId], r.offset ≠ q.offset) :
    d.keptRoot.get q = q.resetNat % 2 ^ 64 := by
  rw [Dev.keptRoot, d.keepFld_get (h _ (by simp)), d.keepWhole_get (h _ (by simp)), d.keepWhole_get (h _ (by simp)),
    d.keepWhole_get (h _ (by simp)), RegFile.get_nil]

theorem Dev.keptPort_get {p : Nat} (h : ∀ r ∈ [Reg.crossLey p, .hpCfg p, .chnQcfg p], r.offset ≠ q.offset) :
    (d.keptPort m p).get q = m.get q := by
  rw [Dev.keptPort, d.keepFld_get (h _ (by simp)), d.keepFld_get (h _ (by simp)), d.keepWhole_get (h _ (by simp))]

theorem Dev.keptHead_get {n : Nat} (h : (Reg.crossHead n).offset ≠ q.offset) : (d.keptHead m n).get q = m.get q := d.keepWhole_get h

theorem Dev.keptKey_get {n : Nat} (h : (Reg.cipLdkey n).offset ≠ q.offset) : (d.keptKey m n).get q = m.get q :=
  (RegFile.get_set_other _ h _).trans (d.keepFld_get h)

theorem Dev.keptChan_get {c : Nat} (h : ∀ r ∈ [Reg.crossChn c, .chnTrain c, .chnSpare c, .chnFchgTime c], r.offset ≠ q.offset) :
    (d.keptChan m c).get q = m.get q := by
  rw [Dev.keptChan, d.keepFld_get (h _ (by simp)), d.keepFld_get (h _ (by simp)), d.keepFld_get (h _ (by simp)),
    d.keepFld_get (h _ (by simp)), d.keepFld_get (h _ (by simp)), d.keepWhole_get (h _ (by simp))]

/-- The registers that the passes over ports, heads, LDs and channels write. -/
def keptPortRegs (p : Nat) : List Reg := [.crossLey p, .hpCfg p, .chnQcfg p]
def keptChanRegs (c : Nat) : List Reg := [.crossChn c, .chnTrain c, .chnSpare c, .chnFchgTime c]

theorem Dev.keptChans_get (h : ∀ c < 24, ∀ r ∈ keptChanRegs c, r.offset ≠ q.offset) :
    ((List.range 24).foldl d.keptChan m).get q = m.get q :=
  foldl_preserves (P := fun x => x.get q = m.get q) (fun _ c hc hb => (d.keptChan_get (h c (List.mem_range.mp hc))).trans hb) m rfl

theorem Dev.keptKeys_get (h : ∀ n < 16, (Reg.cipLdkey n).offset ≠ q.offset) :
    ((List.range 16).foldl d.keptKey m).get q = m.get q :=
  foldl_preserves (P := fun x => x.get q = m.get q) (fun _ n hn hb => (d.keptKey_get (h n (List.mem_range.mp hn))).trans hb) m rfl

theorem Dev.keptHeads_get (h : ∀ n < 8, (Reg.crossHead n).offset ≠ q.offset) :
    ((List.range 8).foldl d.keptHead m).get q = m.get q :=
  foldl_preserves (P := fun x => x.get q = m.get q) (fun _ n hn hb => (d.keptHead_get (h n (List.mem_range.mp hn))).trans hb) m rfl

theorem Dev.keptPorts_get (h : ∀ p < 4, ∀ r ∈ keptPortRegs p, r.offset ≠ q.offset) :
    ((List.range 4).foldl d.keptPort m).get q = m.get q :=
  foldl_preserves (P := fun x => x.get q = m.get q) (fun _ p hp hb => (d.keptPort_get (h p (List.mem_range.mp hp))).trans hb) m rfl

/-! ### Where the kept registers lie -/

section
variable {o : Nat}

theorem keptChanRegs_apart (hchn : o < 0x900000 ∨ 0xC00000 ≤ o) (hcross : o < 0x1200040 ∨ 0x12000A0 ≤ o) :
    ∀ c < 24, ∀ r ∈ keptChanRegs c, r.offset ≠ o := by
  intro c hc r hr
  simp only [keptChanRegs, List.mem_cons, List.not_mem_nil, or_false] at hr
  rcases hr with rfl | rfl | rfl | rfl <;> simp only [Reg.offset] <;> omega

theorem cipLdkey_apart (h : o < 0x800000 ∨ 0x800040 ≤ o) : ∀ n < 16, (Reg.cipLdkey n).offset ≠ o := by
  intro n hn
  simp only [Reg.offset]
  omega

theorem crossHead_apart (h : o < 0x1200000 ∨ 0x1200020 ≤ o) : ∀ n < 8, (Reg.crossHead n).offset ≠ o := by
  intro n hn
  simp only [Reg.offset]
  omega

theorem keptPortRegs_apart (hport : o < 0x200000 ∨ 0xC00000 ≤ o) (hcross : o < 0x12000C0 ∨ 0x12000D0 ≤ o) :
    ∀ p < 4, ∀ r ∈ keptPortRegs p, r.offset ≠ o := by
  intro p hp r hr
  simp only [keptPortRegs, List.mem_cons, List.not_mem_nil, or_false] at hr
  rcases hr with rfl | rfl | rfl <;> simp only [Reg.offset] <;> omega

end

/-- A register that R470's passes do not write is as the first writes left it. -/
theorem Dev.keptRegs_get (hc : ∀ c < 24, ∀ r ∈ keptChanRegs c, r.offset ≠ q.offset) (hk : ∀ n < 16, (Reg.cipLdkey n).offset ≠ q.offset)
    (hh : ∀ n < 8, (Reg.crossHead n).offset ≠ q.offset) (hp : ∀ p < 4, ∀ r ∈ keptPortRegs p, r.offset ≠ q.offset) :
    d.keptRegs.get q = d.keptRoot.get q := by
  rw [d.keptRegs_eq, d.keptChans_get hc, d.keptKeys_get hk, d.keptHeads_get hh, d.keptPorts_get hp]

/-- The registers of the first writes lie apart from the passes. -/
theorem Dev.keptRegs_root (h : q = .gblStrap ∨ q = .gblLock ∨ q = .crossMgt) : d.keptRegs.get q = d.rd q := by
  have ho : q.offset < 0x200000 ∨ 0x12000e0 ≤ q.offset := by rcases h with rfl | rfl | rfl <;> decide
  rw [d.keptRegs_get (keptChanRegs_apart (by omega) (by omega)) (cipLdkey_apart (by omega)) (crossHead_apart (by omega))
    (keptPortRegs_apart (by omega) (by omega)), Dev.keptRoot]
  rcases h with rfl | rfl | rfl
  · rw [d.keepFld_get (by decide), d.keepWhole_get (by decide), d.keepWhole_get (by decide), d.keepWhole_self]
  · rw [d.keepFld_get (by decide), d.keepWhole_get (by decide), d.keepWhole_self]
  · rw [d.keepFld_get (by decide), d.keepWhole_self]

theorem Dev.keptRegs_crossHead {n : Nat} (hn : n < 8) : d.keptRegs.get (.crossHead n) = d.rd (.crossHead n) := by
  have ho : (Reg.crossHead n).offset = 0x1200000 + 0x4 * n := rfl
  rw [d.keptRegs_eq, d.keptChans_get (keptChanRegs_apart (by omega) (by omega)), d.keptKeys_get (cipLdkey_apart (by omega))]
  refine foldl_sets (f := d.keptHead) (P := fun m => m.get (.crossHead n) = d.rd (.crossHead n)) (fun m => d.keepWhole_self m) (List.mem_range.mpr hn)
    (fun m k hk hm => ?_) _
  by_cases h : k = n
  · rw [h]
    exact d.keepWhole_self m
  · exact (d.keptHead_get (by simp only [Reg.offset]; omega)).trans hm

theorem Dev.keptPort_crossLey (m : RegFile) (p : Nat) : (d.keptPort m p).get (.crossLey p) = d.rd (.crossLey p) := by
  rw [Dev.keptPort, d.keepFld_get (by simp only [Reg.offset]; omega), d.keepFld_get (by simp only [Reg.offset]; omega), d.keepWhole_self]

theorem Dev.keptRegs_crossLey {p : Nat} (hp : p < 4) : d.keptRegs.get (.crossLey p) = d.rd (.crossLey p) := by
  have ho : (Reg.crossLey p).offset = 0x12000c0 + 0x4 * p := rfl
  rw [d.keptRegs_eq, d.keptChans_get (keptChanRegs_apart (by omega) (by omega)), d.keptKeys_get (cipLdkey_apart (by omega)),
    d.keptHeads_get (crossHead_apart (by omega))]
  refine foldl_sets (f := d.keptPort) (P := fun m => m.get (.crossLey p) = d.rd (.crossLey p)) (fun m => d.keptPort_crossLey m p) (List.mem_range.mpr hp)
    (fun m k hk hm => ?_) _
  by_cases h : k = p
  · rw [h]
    exact d.keptPort_crossLey m p
  · have hk := List.mem_range.mp hk
    refine (d.keptPort_get fun r hr => ?_).trans hm
    simp only [List.mem_cons, List.not_mem_nil, or_false] at hr
    rcases hr with rfl | rfl | rfl <;> simp only [Reg.offset] <;> omega

theorem Dev.keptChan_crossChn (m : RegFile) {c : Nat} (hc : c < 24) : (d.keptChan m c).get (.crossChn c) = d.rd (.crossChn c) := by
  rw [Dev.keptChan, d.keepFld_get (by simp only [Reg.offset]; omega), d.keepFld_get (by simp only [Reg.offset]; omega),
    d.keepFld_get (by simp only [Reg.offset]; omega), d.keepFld_get (by simp only [Reg.offset]; omega),
    d.keepFld_get (by simp only [Reg.offset]; omega), d.keepWhole_self]

theorem Dev.keptRegs_crossChn {c : Nat} (hc : c < 24) : d.keptRegs.get (.crossChn c) = d.rd (.crossChn c) := by
  rw [d.keptRegs_eq]
  refine foldl_sets (f := d.keptChan) (P := fun m => m.get (.crossChn c) = d.rd (.crossChn c)) (fun m => d.keptChan_crossChn m hc)
    (List.mem_range.mpr hc) (fun m k hk hm => ?_) _
  by_cases h : k = c
  · rw [h]
    exact d.keptChan_crossChn m hc
  · have hk := List.mem_range.mp hk
    refine (d.keptChan_get fun r hr => ?_).trans hm
    simp only [List.mem_cons, List.not_mem_nil, or_false] at hr
    rcases hr with rfl | rfl | rfl | rfl <;> simp only [Reg.offset] <;> omega

theorem Dev.keptChan_failed (m : RegFile) {c : Nat} :
    (d.keptChan m c).fld (.chnSpare c) F.chnSpare_FAILED = d.fld (.chnSpare c) F.chnSpare_FAILED := by
  rw [Dev.keptChan, d.keepFld_fld (by simp only [Reg.offset]; omega), d.keepFld_self _ (by decide) (by decide)]

theorem RegFile.fld_of_get_eq {m n : RegFile} (h : m.get q = n.get q) (g : Fld) : m.fld q g = n.fld q g := by
  unfold RegFile.fld
  rw [h]

theorem Dev.keptRegs_failed {c : Nat} (hc : c < 24) :
    d.keptRegs.fld (.chnSpare c) F.chnSpare_FAILED = d.fld (.chnSpare c) F.chnSpare_FAILED := by
  rw [d.keptRegs_eq]
  refine foldl_sets (f := d.keptChan) (P := fun m => m.fld (.chnSpare c) F.chnSpare_FAILED = d.fld (.chnSpare c) F.chnSpare_FAILED)
    (fun m => d.keptChan_failed m) (List.mem_range.mpr hc) (fun m k hk hm => ?_) _
  by_cases h : k = c
  · rw [h]
    exact d.keptChan_failed m
  · have hk := List.mem_range.mp hk
    refine (RegFile.fld_of_get_eq (d.keptChan_get fun r hr => ?_) _).trans hm
    simp only [List.mem_cons, List.not_mem_nil, or_false] at hr
    rcases hr with rfl | rfl | rfl | rfl <;> simp only [Reg.offset] <;> omega

theorem Dev.keptPort_split (m : RegFile) {p : Nat} (hp : p < 4) :
    (d.keptPort m p).fld (.hpCfg p) F.hpCfg_SPLIT = d.fld (.hpCfg p) F.hpCfg_SPLIT := by
  rw [Dev.keptPort, d.keepFld_fld (by simp only [Reg.offset]; omega), d.keepFld_self _ (by decide) (by decide)]

theorem Dev.keptRegs_split {p : Nat} (hp : p < 4) : d.keptRegs.fld (.hpCfg p) F.hpCfg_SPLIT = d.fld (.hpCfg p) F.hpCfg_SPLIT := by
  have ho : (Reg.hpCfg p).offset = 0x200000 + 0x40000 * p := rfl
  have hlater : d.keptRegs.get (.hpCfg p) = ((List.range 4).foldl d.keptPort d.keptRoot).get (.hpCfg p) := by
    rw [d.keptRegs_eq, d.keptChans_get (keptChanRegs_apart (by omega) (by omega)), d.keptKeys_get (cipLdkey_apart (by omega)),
      d.keptHeads_get (crossHead_apart (by omega))]
  refine (RegFile.fld_of_get_eq hlater _).trans ?_
  refine foldl_sets (f := d.keptPort) (P := fun m => m.fld (.hpCfg p) F.hpCfg_SPLIT = d.fld (.hpCfg p) F.hpCfg_SPLIT)
    (fun m => d.keptPort_split m hp) (List.mem_range.mpr hp) (fun m k hk hm => ?_) _
  by_cases h : k = p
  · rw [h]
    exact d.keptPort_split m hp
  · have hk := List.mem_range.mp hk
    refine (RegFile.fld_of_get_eq (d.keptPort_get fun r hr => ?_) _).trans hm
    simp only [List.mem_cons, List.not_mem_nil, or_false] at hr
    rcases hr with rfl | rfl | rfl <;> simp only [Reg.offset] <;> omega

theorem Dev.wideCleared_regs : d.wideCleared.regs = d.keptRegs := by
  unfold Dev.wideCleared
  dsimp only

/-- What else a device-wide reset keeps, and what it discards. -/
theorem Dev.wideCleared_rest : let e := d.wideCleared
    e.clk = d.clk ∧ e.logs = d.logs ∧ e.home.txns = [] ∧ e.home.dir = retiredOnly d.home.dir ∧ e.rng.run = [] ∧ e.bal.jobs = [] ∧
      e.mgt.stlLost = d.mgt.stlLost := by
  unfold Dev.wideCleared Dev.unpowered
  simp only [and_self]

/-- Settles O52, register by register. -/
theorem wideResetKeeps : Obligations.WideResetKeeps := by
  intro d e
  have hregs : e.regs = d.keptRegs := d.wideCleared_regs
  have hrd {q : Reg} {v : Nat} (h : d.keptRegs.get q = v) : e.rd q = v := by rw [Dev.rd, hregs, h]
  have hfld {q : Reg} {g : Fld} {v : Nat} (h : d.keptRegs.fld q g = v) : e.fld q g = v := by rw [Dev.fld, hregs, h]
  refine ⟨fun q hq => ?_, fun n hn => hrd (d.keptRegs_crossHead hn), fun c hc => hrd (d.keptRegs_crossChn hc),
    fun p hp => hrd (d.keptRegs_crossLey hp), fun c hc => hfld (d.keptRegs_failed hc), fun p hp => hfld (d.keptRegs_split hp),
    fun q hq => hrd ?_, d.wideCleared_rest⟩
  · exact hrd (d.keptRegs_root (by simpa using hq))
  · simp only [List.forall_mem_append, List.forall_mem_map, List.mem_range] at hq
    obtain ⟨⟨⟨⟨⟨⟨⟨⟨⟨hroot, hley⟩, hhp⟩, hquarter⟩, hhead⟩, hkey⟩, hchn⟩, htrain⟩, hspare⟩, hfchg⟩ := hq
    have hports : ∀ p < 4, ∀ r ∈ keptPortRegs p, r.offset ≠ q.offset := fun p hp =>
      List.forall_mem_cons.mpr ⟨hley p hp, List.forall_mem_cons.mpr ⟨hhp p hp, List.forall_mem_singleton.mpr (hquarter p hp)⟩⟩
    have hchans : ∀ c < 24, ∀ r ∈ keptChanRegs c, r.offset ≠ q.offset := fun c hc =>
      List.forall_mem_cons.mpr ⟨hchn c hc, List.forall_mem_cons.mpr ⟨htrain c hc, List.forall_mem_cons.mpr
        ⟨hspare c hc, List.forall_mem_singleton.mpr (hfchg c hc)⟩⟩⟩
    exact (d.keptRegs_get hchans hkey hhead hports).trans (d.keptRoot_get hroot)

end Sys2Proof.Machine
end

section
/-! SUPPORT. What the bring-up does to the management controller's state and to GBL_BOOT (O50, O51). -/

namespace Sys2Proof.Machine

open Sys2Proof

variable (d : Dev) (b : Nat → Nat) (n : Nat)

/-! ### The management controller's state, operation by operation -/

@[simp] theorem Dev.headView_mgt : (d.headView n).mgt = d.mgt := by
  unfold Dev.headView
  split
  · rfl
  · simp

@[simp] theorem Dev.bindEnable_mgt : (d.bindEnable n).mgt = d.mgt := by
  unfold Dev.bindEnable
  split
  · rfl
  · split
    · rw [Dev.setFlag_mgt]
    · rw [Dev.headView_mgt, Dev.setFlag_mgt]

@[simp] theorem Dev.loadPorts_mgt : (Dev.loadPorts b d n).mgt = d.mgt := by simp [Dev.loadPorts]
@[simp] theorem Dev.loadQuarter_mgt : (Dev.loadQuarter b d n).mgt = d.mgt := by simp [Dev.loadQuarter]
@[simp] theorem Dev.loadChannel_mgt : (Dev.loadChannel b d n).mgt = d.mgt := by simp [Dev.loadChannel]
@[simp] theorem Dev.loadLey_mgt : (Dev.loadLey b d n).mgt = d.mgt := by simp [Dev.loadLey]

@[simp] theorem Dev.loadLd_mgt : (Dev.loadLd b d n).mgt = d.mgt := by
  unfold Dev.loadLd
  dsimp only
  split <;> simp

@[simp] theorem Dev.loadFields_mgt : (d.loadFields b).mgt = d.mgt := by
  unfold Dev.loadFields
  dsimp only
  rw [foldl_keeps Dev.mgt fun d p => d.loadLey_mgt b p, foldl_keeps Dev.mgt fun d n => d.loadLd_mgt b n,
    foldl_keeps Dev.mgt fun d c => d.loadChannel_mgt b c, foldl_keeps Dev.mgt fun d q => d.loadQuarter_mgt b q, Dev.modHp_mgt,
    foldl_keeps Dev.mgt fun d p => d.loadPorts_mgt b p]

@[simp] theorem Dev.reDistance_mgt : d.reDistance.mgt = d.mgt := by
  unfold Dev.reDistance
  split
  · rfl
  · dsimp only
    split <;> rw [Dev.setFld_mgt, Dev.setFld_mgt]

@[simp] theorem Dev.discover_mgt (s0 s1 : Option Spd) (mode : Nat) : (d.discover n s0 s1 mode).mgt = d.mgt := by
  unfold Dev.discover Dev.sessionLost
  dsimp only
  split
  · rw [Dev.setFld_mgt, Dev.setFlag_mgt, Dev.wr_mgt]
  · split
    · rw [Dev.raise_mgt, Dev.setFlag_mgt, Dev.setFld_mgt, Dev.setFld_mgt, Dev.setFlag_mgt, Dev.wr_mgt]
    · rw [Dev.modChn_mgt, Dev.setFld_mgt, Dev.setFld_mgt, Dev.setFld_mgt, Dev.setFlag_mgt, Dev.wr_mgt, Dev.setFlag_mgt, Dev.wr_mgt]

@[simp] theorem Dev.storedCheck_mgt (nv : Nv) (crcBad : Bool) (mode : Nat) : (d.storedCheck nv n crcBad mode).mgt = d.mgt := by
  unfold Dev.storedCheck Dev.trainSteps
  split
  · dsimp only
    split <;> simp
  · rfl

@[simp] theorem Dev.sidebandError_mgt (bus hub : Nat) : (d.sidebandError bus hub).mgt = d.mgt := by simp [Dev.sidebandError]

@[simp] theorem Dev.startTraining_mgt (nv : Nv) (nack crcBad : List Nat) : (d.startTraining nv nack crcBad).mgt = d.mgt := by
  unfold Dev.startTraining
  extract_lets slot pairs d1 d2
  have h1 : d1.mgt = d.mgt := foldl_keeps Dev.mgt (fun d i => d.sidebandError_mgt _ _) _ d
  have h2 : d2.mgt = d1.mgt := foldl_keeps Dev.mgt (fun d q => d.setFld_mgt _ _ _) _ d1
  rw [← h1, ← h2]
  clear_value d2
  refine foldl_keeps Dev.mgt (fun d c => ?_) _ d2
  rw [Dev.storedCheck_mgt, Dev.setFld_mgt, Dev.discover_mgt]

@[simp] theorem Dev.leyEnable_mgt : (d.leyEnable n).mgt = d.mgt := by
  unfold Dev.leyEnable Dev.setLeyState
  split
  · rw [Dev.setFld_mgt]
  · rfl

@[simp] theorem Dev.leyStart_mgt : d.leyStart.mgt = d.mgt := by
  unfold Dev.leyStart
  refine foldl_keeps Dev.mgt (fun d p => ?_) _ d
  split
  · exact d.leyEnable_mgt p
  · rfl

@[simp] theorem Dev.newKeys_mgt : d.newKeys.mgt = d.mgt := by unfold Dev.newKeys; split <;> simp

/-! ### The three ends of a bring-up -/

variable {nv : Nv} (wide : Option Nat) (nack crcBad : List Nat) (fw : Nat)

theorem Dev.booted_mgt : (d.booted nv wide fw).mgt = { d.mgt with bootClk := d.clk, power := .on } := by
  unfold Dev.booted Dev.keyed
  dsimp only
  rw [Dev.wr_mgt, Dev.setFlag_mgt, Dev.setFlag_mgt]
  split <;> simp

theorem Dev.holds_mgt : (d.holds nv).mgt = { d.mgt with linksOn := true } := by
  unfold Dev.holds
  dsimp only
  rw [Dev.raise_mgt, foldl_keeps Dev.mgt fun d p => d.wr_mgt _ _, Dev.setFlag_mgt]

theorem Dev.brought_mgt : (d.brought nv wide nack crcBad).mgt = { d.mgt with linksOn := true } := by
  have hloaded : ((List.range 4).foldl (fun (d : Dev) q => d.emit (.avs q (avsCode (d.fld (.gblAvsQ q) F.gblAvsQ_SETPOINT))))
      (d.loadFields (nv.byte (nv.chosen.getD 0))).reDistance).mgt = d.mgt := by
    rw [foldl_keeps Dev.mgt fun d q => d.emit_mgt _, Dev.reDistance_mgt, Dev.loadFields_mgt]
  unfold Dev.brought
  extract_lets d1 d2 m d3 d4 d5
  have h3 : d3.mgt = { d.mgt with linksOn := true } := by
    show { d2.mgt with linksOn := true } = _
    rw [hloaded]
  have h4 : d4.mgt = d3.mgt := by
    simp only [d4]
    cases wide
    · rfl
    · exact Dev.raise_mgt _ _
  have h5 : d5.mgt = d4.mgt := Dev.startTraining_mgt _ _ _ _
  clear_value d3 d4 d5
  rw [← h3, ← h4, ← h5]
  split
  · rfl
  · exact d5.leyStart_mgt

end Sys2Proof.Machine
end

section
/-! SUPPORT. Power of the main die (O50, R415, R416). -/

namespace Sys2Proof.Machine

open Sys2Proof

variable {s : State} {nv : Nv} (d : Dev)

/-! ### What a die in Hold shows -/

/-- HP_CFG of every port at its reset value. -/
def Dev.portsReset : Dev := (List.range 4).foldl (fun d p => d.wr (.hpCfg p) (Reg.resetNat (.hpCfg p))) d

theorem Dev.portsReset_rd {q : Reg} (hports : ∀ p < 4, (Reg.hpCfg p).offset ≠ q.offset) : d.portsReset.rd q = d.rd q :=
  foldl_preserves (P := fun e => e.rd q = d.rd q) (fun e p hp he => (Dev.rd_wr_other e (hports p (List.mem_range.mp hp)) _).trans he) d rfl

theorem Dev.holds_regs : (d.holds nv).regs = (d.setFlag .gblBoot F.gblBoot_HOLD true).portsReset.regs := by
  unfold Dev.holds Dev.portsReset
  dsimp only
  rw [Dev.raise_regs]
  dsimp only
  rw [Dev.modHp_regs]

/-- A die in Hold reads as before but for GBL_BOOT and the ports' configuration. -/
theorem Dev.holds_rd {q : Reg} (hports : ∀ p < 4, (Reg.hpCfg p).offset ≠ q.offset) :
    (d.holds nv).rd q = (d.setFlag .gblBoot F.gblBoot_HOLD true).rd q := by
  rw [← (d.setFlag .gblBoot F.gblBoot_HOLD true).portsReset_rd hports, Dev.rd, Dev.rd, d.holds_regs]

theorem Dev.holds_boot {g : Fld} : (d.holds nv).flag .gblBoot g = (d.setFlag .gblBoot F.gblBoot_HOLD true).flag .gblBoot g := by
  have hrd := d.holds_rd (nv := nv) (q := .gblBoot) (by decide)
  unfold Dev.rd at hrd
  unfold Dev.flag RegFile.flag RegFile.fld
  rw [hrd]

theorem Dev.holds_inHold : (d.holds nv).inHold = true :=
  d.holds_boot.trans (Dev.flag_setFlag_self _ _ _ (by decide) (by decide))

theorem Dev.booted_shows (wide : Option Nat) (fw : Nat) : (d.booted nv wide fw).rd .otpStat = nv.stat % 2 ^ 64 ∧
    (d.booted nv wide fw).flag .gblBoot F.gblBoot_COLD = wide.isNone := by
  unfold Dev.booted
  dsimp only
  refine ⟨Dev.rd_wr_self _ _ _, ?_⟩
  rw [Dev.flag_wr_other _ (by decide), Dev.flag_setFlag_self _ _ _ (by decide) (by decide)]

/-! ### The straps (R416) -/

/-- The die that comes out of power-on reset, with its straps. -/
def Dev.strapped (s1 s2 s3 : Nat) (spd : List (Option Spd)) : Dev :=
  let v := majority3 s1 s2 s3 % 32
  let differ := !(s1 % 32 == s2 % 32 && s2 % 32 == s3 % 32)
  let e := { d.unpowered .rising with mgt := { power := .rising, spd := (List.range 48).map fun i => spd.getD i none } }
  (((e.setFlag .gblStrap F.gblStrap_VOTE_DIFF differ).setFld .gblStrap F.gblStrap_MGT_SBA (v / 8)).setFld
    .gblStrap F.gblStrap_CAS_ROLE (v % 8)).setFld .casId F.casId_ROLE (v % 8)

variable (s1 s2 s3 : Nat) (spd : List (Option Spd))

theorem Dev.powerOnRelease_of_rising {st : Stile} {nack crcBad : List Nat} (h : d.mgt.power = .rising) :
    d.powerOnRelease nv st s1 s2 s3 spd nack crcBad = (d.strapped s1 s2 s3 spd).bringUp nv st none nack crcBad := by
  unfold Dev.powerOnRelease
  rw [if_neg (not_not.mpr h)]
  rfl

theorem Dev.strapped_stlLost : (d.strapped s1 s2 s3 spd).mgt.stlLost = false := by
  unfold Dev.strapped
  dsimp only
  rw [Dev.setFld_mgt, Dev.setFld_mgt, Dev.setFld_mgt, Dev.setFlag_mgt]

theorem Dev.strapped_spec : (d.strapped s1 s2 s3 spd).fld .gblStrap F.gblStrap_CAS_ROLE = majority3 s1 s2 s3 % 8 ∧
    (d.strapped s1 s2 s3 spd).fld .gblStrap F.gblStrap_MGT_SBA = majority3 s1 s2 s3 % 32 / 8 ∧
    (d.strapped s1 s2 s3 spd).fld .casId F.casId_ROLE = majority3 s1 s2 s3 % 8 := by
  unfold Dev.strapped
  dsimp only
  refine ⟨?_, ?_, ?_⟩
  · rw [Dev.fld_setFld_other _ _ (by decide), Dev.fld_setFld_self _ _ _ (by decide) (by decide)]
    simp only [F.gblStrap_CAS_ROLE]
    omega
  · rw [Dev.fld_setFld_other _ _ (by decide), Dev.fld_setFld_field _ _ _ (by decide) (by decide) (by decide),
      Dev.fld_setFld_self _ _ _ (by decide) (by decide)]
    simp only [F.gblStrap_MGT_SBA]
    omega
  · rw [Dev.fld_setFld_self _ _ _ (by decide) (by decide)]
    simp only [F.casId_ROLE]
    omega

theorem Dev.keyed_regs : d.keyed.regs = d.regs := by
  unfold Dev.keyed Dev.newKeys
  dsimp only
  split <;> rfl

/-! ### A bring-up of a cold die -/

section
variable (st : Stile) (nack crcBad : List Nat) (hfw : nv.fwRun ≠ none)
include hfw

/-- The die runs with its links on; Stile's fields are loaded where a generation is used and the Stile link is up. -/
theorem Dev.bringUp_runs (wide : Option Nat) : (d.bringUp nv st wide nack crcBad).1.mgt.power = .on ∧
    (d.bringUp nv st wide nack crcBad).1.mgt.linksOn = true := by
  obtain ⟨fw, hfw⟩ := Option.ne_none_iff_exists'.mp hfw
  by_cases hc : nv.holdCause = 0
  · rw [Dev.bringUp_of_generation st d wide nack crcBad hfw hc]
    dsimp only
    rw [Dev.brought_mgt, Dev.booted_mgt]
    exact ⟨rfl, rfl⟩
  · rw [Dev.bringUp_of_hold st d wide nack crcBad hfw hc]
    dsimp only
    rw [Dev.holds_mgt, Dev.booted_mgt]
    exact ⟨rfl, rfl⟩

theorem Dev.bringUp_holds (wide : Option Nat) (hc : nv.holdCause ≠ 0) : let p := d.bringUp nv st wide nack crcBad
    p.2 = st ∧ p.1.rd .otpStat = nv.stat % 2 ^ 64 ∧ p.1.inHold = true ∧ p.1.flag .gblBoot F.gblBoot_COLD = wide.isNone := by
  obtain ⟨fw, hfw⟩ := Option.ne_none_iff_exists'.mp hfw
  obtain ⟨hstat, hcold⟩ := d.booted_shows (nv := nv) wide fw
  rw [Dev.bringUp_of_hold st d wide nack crcBad hfw hc]
  refine ⟨rfl, ?_, Dev.holds_inHold _, ?_⟩
  · rw [Dev.holds_rd _ (by decide), Dev.setFlag, Dev.rd_setFld_other _ _ (by decide), hstat]
  · rw [Dev.holds_boot, Dev.flag_setFlag_field _ _ _ (by decide) (by decide) (by decide), hcold]

theorem Dev.bringUp_loads (wide : Option Nat) (hc : nv.holdCause = 0) (hr : st.running = true) (hl : d.mgt.stlLost = false) :
    (d.bringUp nv st wide nack crcBad).2 = st.load (nv.byte (nv.chosen.getD 0)) := by
  obtain ⟨fw, hfw⟩ := Option.ne_none_iff_exists'.mp hfw
  rw [Dev.bringUp_of_generation st d wide nack crcBad hfw hc]
  dsimp only
  rw [Dev.brought_mgt, Dev.booted_mgt, if_neg]
  dsimp only
  rw [hl, hr]
  decide

end

/-! ### Loss of power -/

theorem State.dropPower_nv (p : BurnPoint) (tripped : Bool) : (s.dev.mgt.burn = none → (s.dropPower p tripped).nv = s.nv) ∧
    ∀ x, s.dev.mgt.burn = some x → (s.dropPower p tripped).nv = x.torn s.nv p := by
  unfold State.dropPower
  exact ⟨fun h => by rw [h], fun x h => by rw [h]⟩

/-- Settles O50, command by command. -/
theorem powerOnAndOff : Obligations.PowerOnAndOff := by
  intro s
  refine ⟨fun hp ht => ?_, fun h => ?_, fun b hp => ?_, fun hp s1 s2 s3 spd nack crcBad hspd => ?_, fun b c hc h => ?_,
    fun s1 s2 s3 spd nack crcBad hp hspd => ?_⟩
  · refine ⟨_, exec_pwrOkRise, ?_⟩
    rw [Dev.pwrRise, if_pos ⟨hp, by rw [ht]; rfl⟩]
    exact ⟨rfl, rfl, rfl, rfl, rfl⟩
  · rw [exec_pwrOkRise, Dev.pwrRise, if_neg]
    rintro ⟨hheld, htrip⟩
    rcases h with h | h
    · exact h hheld
    · rw [h] at htrip
      exact Bool.false_ne_true htrip
  · rw [exec_thermtrip rfl, if_pos hp]
  · rw [exec_powerOnResetRelease (by simpa [Instr.wf] using hspd)]
    dsimp only
    rw [Dev.powerOnRelease, if_pos hp]
  · have hexec : exec c.1 s = .next (s.dropPower b c.2) := by
      simp only [List.mem_cons, List.not_mem_nil, or_false] at hc
      rcases hc with rfl | rfl
      · exact exec_pwrOkFall rfl
      · rw [exec_thermtrip rfl, if_neg (h.resolve_right Bool.noConfusion)]
    obtain ⟨hnone, hsome⟩ := s.dropPower_nv b c.2
    exact ⟨_, hexec, rfl, rfl, rfl, rfl, rfl, rfl, hnone, hsome⟩
  · let p := (s.dev.strapped s1 s2 s3 spd).bringUp s.nv s.stile none nack crcBad
    refine ⟨p.1, p.2, ?_, fun hfw => ?_, fun hfw => ?_, fun hfw hc => ?_, fun hfw hc hr => ?_⟩
    · rw [exec_powerOnResetRelease (by simpa [Instr.wf] using hspd)]
      dsimp only
      rw [Dev.powerOnRelease_of_rising _ _ _ _ _ hp]
    · obtain ⟨hrole, hsba, hid⟩ := s.dev.strapped_spec s1 s2 s3 spd
      have hp : p = ({ (s.dev.strapped s1 s2 s3 spd).keyed with mgt :=
          { (s.dev.strapped s1 s2 s3 spd).keyed.mgt with power := .recovery } }, s.stile) := Dev.bringUp_of_no_firmware _ _ _ _ _ hfw
      have hregs : p.1.regs = (s.dev.strapped s1 s2 s3 spd).regs := by
        rw [hp]
        exact Dev.keyed_regs _
      rw [Dev.fld_of_regs_eq hregs, Dev.fld_of_regs_eq hregs, Dev.fld_of_regs_eq hregs]
      exact ⟨by rw [hp], by rw [hp], hrole, hsba, hid⟩
    · exact Dev.bringUp_runs _ _ _ _ hfw none
    · exact Dev.bringUp_holds _ _ _ _ hfw none hc
    · exact Dev.bringUp_loads _ _ _ _ hfw none hc hr (Dev.strapped_stlLost _ _ _ _ _)

end Sys2Proof.Machine
end

section
/-! SUPPORT. Device-wide resets, the watchdog, and DRAM_READY (O51, R416, R420, R428 to R430). -/

namespace Sys2Proof.Machine

open Sys2Proof

variable {s : State} (d : Dev) {nv : Nv} (st : Stile)

/-! ### Resets that are asked for (R429) -/

theorem Dev.askReset_idle (c : Nat) (h : d.mgt.burn = none) : d.askReset nv st c = d.wideReset nv st c := by
  rw [Dev.askReset, h]
  rfl

/-- A reset that waits for the end of a burn is noted, with the cause that came first. -/
def Dev.resetNoted (c : Nat) : Dev := { d with mgt := { d.mgt with resetDue := some (d.mgt.resetDue.getD c) } }

theorem Dev.askReset_burning (c : Nat) (h : d.mgt.burn.isSome = true) : d.askReset nv st c = (d.resetNoted c, st) := if_pos h

theorem Dev.holdReset_due (h : d.mgt.holdReset = true) : d.holdReset nv st = d.askReset nv st 1 := if_pos h

theorem Dev.holdReset_not_due (h : d.mgt.holdReset = false) : d.holdReset nv st = (d, st) := if_neg (Bool.not_eq_true _ ▸ h)

section
variable {f : Dev → Dev × Stile} {p : Dev × Stile}

theorem State.both_eq (hu : s.up = true) (h : f s.dev = p) : s.both f = { s with stile := p.2 }.settle (p.1.stileNote s.stile p.2) := by
  rw [State.both_of_up hu, h]

theorem State.bothPowered_eq (hp : s.powered = true) (h : f s.dev = p) :
    s.bothPowered f = { s with stile := p.2 }.settle (p.1.stileNote s.stile p.2) := by
  subst h
  exact if_pos hp

/-- A command that leaves Stile alone. -/
theorem State.both_same {e : Dev} (hu : s.up = true) (h : f s.dev = (e, s.stile)) : s.both f = s.settle e := by
  rw [State.both_eq hu h, Dev.stileNote_same]

theorem State.bothPowered_same {e : Dev} (hp : s.powered = true) (h : f s.dev = (e, s.stile)) : s.bothPowered f = s.settle e := by
  rw [State.bothPowered_eq hp h, Dev.stileNote_same]

end

/-! ### The watchdog (R420) -/

@[simp] theorem Dev.thermalRead_mgt (c : Nat) (t0 t1 : Option Nat) : (d.thermalRead c t0 t1).mgt = d.mgt := by
  unfold Dev.thermalRead
  extract_lets t2x slot a b t old new d'
  have hd' : d'.mgt = d.mgt := Dev.setFld_mgt _ _ _ _
  clear_value d'
  split
  · rw [Dev.raise_mgt, Dev.modChn_mgt, hd']
  · split
    · rw [Dev.modChn_mgt, hd']
    · exact hd'

/-- An expiry is the second where one came less than 10 s ago. -/
def Dev.expiredBefore : Bool :=
  match d.mgt.expiry with
  | some t => decide (d.clk < t + 8000000000)
  | none => false

/-- The die after an expiry has been recorded. -/
def Dev.expired : Dev :=
  let e := d.raise (vendorRec 0x0905 .warning 0x100 (b2n d.expiredBefore))
  { e with mgt := { e.mgt with expiry := some e.clk } }

/-- A first expiry restarts the controller and reads the modules' temperatures anew. -/
def Dev.restarted : Dev :=
  (List.range 24).foldl (fun d c => if d.inService c then d.thermalRead c none none else d)
    { d.expired.islandReset 36 with mgt := { d.expired.mgt with restarting := true } }

theorem Dev.watchdog_suspended (h : d.mgt.power ≠ .on ∨ d.mgt.burn.isSome = true) : d.watchdog nv st = (d, st) := if_pos h

theorem Dev.islandReset_mgt (k : Nat) : (d.islandReset k).mgt = d.mgt := by unfold Dev.islandReset; split <;> rfl

theorem Dev.watchdog_first (hp : d.mgt.power = .on) (hb : d.mgt.burn = none) (h : d.expiredBefore = false) :
    d.watchdog nv st = (d.restarted, st) := by
  unfold Dev.watchdog
  rw [if_neg (by rw [hp, hb]; decide)]
  extract_lets second d1 m d2 d3
  have hsecond : ¬ second = true := Bool.not_eq_true _ ▸ h
  have hexpired : d2 = d.expired := rfl
  rw [if_neg hsecond, Dev.restarted, ← hexpired]

theorem Dev.watchdog_second (hp : d.mgt.power = .on) (hb : d.mgt.burn = none) (h : d.expiredBefore = true) :
    d.watchdog nv st = d.expired.wideReset nv st 2 := by
  unfold Dev.watchdog
  rw [if_neg (by rw [hp, hb]; decide)]
  extract_lets second d1 m d2 d3
  have hsecond : second = true := h
  have hexpired : d2 = d.expired := rfl
  rw [if_pos hsecond, hexpired]

theorem Dev.restarted_mgt : d.restarted.mgt = { d.mgt with expiry := some d.clk, restarting := true } := by
  unfold Dev.restarted
  rw [foldl_keeps Dev.mgt fun d c => by split; exacts [d.thermalRead_mgt c none none, rfl]]
  unfold Dev.expired
  dsimp only
  rw [Dev.raise_mgt, Dev.raise_clk]

theorem Dev.expired_regs : d.expired.regs = d.regs := by
  unfold Dev.expired
  dsimp only
  exact d.raise_regs _

/-! ### DRAM_READY (R416 step 6) -/

/-- What DRAM_READY waits for: no Hold, and no channel with modules that still trains. -/
def Dev.readyNow : Prop := d.inHold = false ∧ d.flag .gblBoot F.gblBoot_DRAM_READY = false ∧
  ∀ c < 24, d.rd (.chnPop c) ≠ 0 → d.flag (.chnTrain c) F.chnTrain_DONE = true

/-- The die with DRAM_READY set, and what GBL_BOOT shows with it. -/
def Dev.readied : Dev :=
  let stored := (List.range 24).all fun c => !(d.rd (.chnPop c) != 0) || d.chState c == 4 || d.flag (.chnStat c) F.chnStat_STORED
  let e := (d.tapRelease.setFlag .gblBoot F.gblBoot_DRAM_READY true).setFlag .gblBoot F.gblBoot_STORED_ALL stored
  e.setFld .gblBoot F.gblBoot_BOOT_MS (satTo 24 ((e.clk - e.mgt.bootClk) / 800000))

theorem Dev.dramReady_waits_iff (hp : d.mgt.power = .on) : (d.inHold || d.mgt.power != .on || d.flag .gblBoot F.gblBoot_DRAM_READY ||
    (List.range 24).any fun c => d.rd (.chnPop c) != 0 && !d.flag (.chnTrain c) F.chnTrain_DONE) = true ↔ ¬ d.readyNow := by
  unfold Dev.readyNow
  simp only [Bool.or_eq_true, List.any_eq_true, List.mem_range, Bool.and_eq_true, bne_iff_ne, ne_eq, Bool.not_eq_true', hp,
    not_true_eq_false, or_false, ← Bool.not_eq_true]
  constructor
  · rintro ((h | h) | ⟨c, hc, hpop, hdone⟩) ⟨hhold, hready, hall⟩
    · exact hhold h
    · exact hready h
    · exact hdone (hall c hc hpop)
  · intro h
    by_contra hno
    push Not at hno
    exact h ⟨hno.1.1, hno.1.2, hno.2⟩

theorem Dev.dramReady_waits (hp : d.mgt.power = .on) (h : ¬ d.readyNow) : d.dramReady = d := if_pos ((d.dramReady_waits_iff hp).mpr h)

theorem Dev.dramReady_now (hp : d.mgt.power = .on) (h : d.readyNow) :
    d.dramReady = if d.readied.role ≠ 0 then d.readied else ((List.range 8).foldl Dev.headView d.readied).leyStart :=
  if_neg fun hw => (d.dramReady_waits_iff hp).mp hw h

theorem Dev.keepsRegs_readied : d.keepsRegs d.readied [.gblBoot] := by
  unfold Dev.readied Dev.tapRelease
  dsimp only
  have hm : Reg.gblBoot ∈ [Reg.gblBoot] := List.mem_singleton.mpr rfl
  exact (((d.keepsRegs_refl _).setFlag hm _ _).setFlag hm _ _).setFld hm _ _

theorem Dev.readied_role : d.readied.role = d.role :=
  d.keepsRegs_readied.fld (by simp only [List.mem_singleton]; rintro r rfl; decide) _

theorem Dev.readied_flag : d.readied.flag .gblBoot F.gblBoot_DRAM_READY = true := by
  unfold Dev.readied
  dsimp only
  rw [Dev.flag_setFld_field _ _ _ (by decide) (by decide) (by decide), Dev.flag_setFlag_field _ _ _ (by decide) (by decide) (by decide),
    Dev.flag_setFlag_self _ _ _ (by decide) (by decide)]

theorem Dev.headView_boot (h : Nat) (g : Fld) : (d.headView h).flag .gblBoot g = d.flag .gblBoot g := by
  have hapart : ∀ r ∈ [headReg h], r.offset ≠ Reg.gblBoot.offset := by
    simp only [List.mem_singleton]
    rintro r rfl
    have := headReg_offset_ge h
    simp only [Reg.offset] at this ⊢
    omega
  unfold Dev.flag RegFile.flag
  rw [show (d.headView h).regs.fld .gblBoot g = d.regs.fld .gblBoot g from (d.keepsRegs_headView h).fld hapart g]

theorem Dev.leyStart_boot (g : Fld) : d.leyStart.flag .gblBoot g = d.flag .gblBoot g := by
  unfold Dev.leyStart
  refine foldl_keeps (fun e => e.flag .gblBoot g) (fun e p => ?_) _ d
  split
  · unfold Dev.leyEnable
    split
    · exact Dev.flag_setFld_other _ _ (by simp only [Reg.offset]; omega)
    · rfl
  · rfl

/-- Settles O51, by the causes of a reset, the two expiries of the watchdog, and what DRAM_READY waits for. -/
theorem deviceResetsAndWatchdog : Obligations.DeviceResetsAndWatchdog := by
  intro s hp resets rest
  have hon (hu : s.up = true) : s.dev.mgt.power = .on := beq_iff_eq.mp hu
  refine ⟨fun hb => ?_, fun i c hi hb hhold => ?_, fun hu hr hb => ?_, fun hu hr => ?_, fun hu hb => ?_, fun hu hb hexp => ?_,
    fun t hu hb hexp hclk => ?_, fun hu => exec_controllerRestartComplete hu, fun hu => ?_⟩
  · exact exec_gblReset.trans (congrArg _ (State.bothPowered_eq hp (s.dev.askReset_idle s.stile 0 hb)))
  · refine ⟨s.dev.resetNoted c, ?_, rfl, rfl⟩
    simp only [List.mem_cons, Prod.mk.injEq, List.not_mem_nil, or_false] at hi
    rcases hi with ⟨rfl, rfl⟩ | ⟨rfl, rfl⟩
    · exact exec_gblReset.trans (congrArg _ (State.bothPowered_same hp (s.dev.askReset_burning s.stile 0 hb)))
    · obtain ⟨hu, hr⟩ := hhold rfl
      exact exec_holdCommitReset.trans (congrArg _ (State.both_same hu
        ((s.dev.holdReset_due s.stile hr).trans (s.dev.askReset_burning s.stile 1 hb))))
  · exact exec_holdCommitReset.trans (congrArg _ (State.both_eq hu
      ((s.dev.holdReset_due s.stile hr).trans (s.dev.askReset_idle s.stile 1 hb))))
  · exact exec_holdCommitReset.trans (congrArg _ (State.both_same hu (s.dev.holdReset_not_due s.stile hr)))
  · exact exec_watchdogExpiry.trans (congrArg _ (State.both_same hu (s.dev.watchdog_suspended s.stile (.inr hb))))
  · have hfirst : s.dev.expiredBefore = false := by
      unfold Dev.expiredBefore
      split
      · next t ht => exact decide_eq_false (by have := hexp t ht; omega)
      · rfl
    refine ⟨s.dev.restarted, ?_, ?_⟩
    · exact exec_watchdogExpiry.trans (congrArg _ (State.both_same hu (s.dev.watchdog_first s.stile (hon hu) hb hfirst)))
    · rw [Dev.restarted_mgt]
      exact ⟨rfl, rfl, hon hu⟩
  · have hsecond : s.dev.expiredBefore = true := by
      unfold Dev.expiredBefore
      rw [hexp]
      exact decide_eq_true hclk
    refine ⟨s.dev.expired, s.dev.expired_regs, ?_⟩
    exact exec_watchdogExpiry.trans (congrArg _ (State.both_eq hu (s.dev.watchdog_second s.stile (hon hu) hb hsecond)))
  · intro ready
    refine ⟨fun h => ?_, fun h => ⟨s.dev.dramReady, exec_dramReady hu, ?_, fun hrole => ?_⟩⟩
    · rw [exec_dramReady hu, s.dev.dramReady_waits (hon hu) h]
    · rw [s.dev.dramReady_now (hon hu) h]
      split
      · exact s.dev.readied_flag
      · exact (Dev.leyStart_boot _ _).trans
          ((foldl_keeps (fun e : Dev => e.flag .gblBoot F.gblBoot_DRAM_READY) (fun e h => e.headView_boot h _) _ _).trans
            s.dev.readied_flag)
    · rw [s.dev.dramReady_now (hon hu) h, if_pos (by rwa [Dev.readied_role])]
      exact s.dev.keepsRegs_readied

end Sys2Proof.Machine
end


section
/-! SUPPORT. Samples (R449 to R452): what SAMPLE_RECORD_COMPLETE does with the oldest sample that is done, and what
SAMPLE_RECORD_WRITE leaves of the sampler. -/

namespace Sys2Proof.Machine

variable (d : Dev) {n : Nat} {r : SampleRec} {rest : List SampleRec}

/-! ### A sample that is done (R449, R451) -/

theorem Dev.sampleComplete_of_none (h : d.home.sampleDone = []) : d.sampleComplete = d := by
  unfold Dev.sampleComplete
  rw [h]

theorem Dev.sampleComplete_of_some (h : d.home.sampleDone = r :: rest) : d.sampleComplete =
    (let d0 := d.modHome fun x => { x with sampleDone := rest }
     if (!(d.sampler r.ld).en) = true then d0
     else if (d.sampler r.ld).staged.length < 64 then d0.modSampler r.ld fun x => { x with staged := x.staged ++ [r] }
     else (d0.countLd r.ld 7).modSampler r.ld fun x => { x with loss := true }) := by
  unfold Dev.sampleComplete
  rw [h]
  rfl

/-! ### The record of a staged sample (R450 to R452) -/

/-- The record that is written sends the message: THRESH of them, or a whole buffer, have been written. -/
def Sampler.hit (x : Sampler) : Bool := x.thresh != 0 && decide (min x.thresh x.slots ≤ x.since + 1)

theorem Sampler.hit_iff (x : Sampler) : x.hit = true ↔ x.thresh ≠ 0 ∧ min x.thresh x.slots ≤ x.since + 1 := by
  simp [Sampler.hit]

/-- The sampler after its oldest staged record has been written. -/
def Sampler.moved (x : Sampler) (rest : List SampleRec) : Sampler :=
  { x with staged := rest, slot := (x.slot + 1) % x.slots, phase := if (x.slot + 1) % x.slots = 0 then !x.phase else x.phase,
           loss := false, since := if x.hit then 0 else x.since + 1 }

/-- The write of an LD's oldest staged record, counted. -/
def Dev.recordWritten (n : Nat) (r : SampleRec) : Dev :=
  let x := d.sampler n
  (d.emit (.hostWrite (d.ldHead n) (x.base + 32 * x.slot) (toBytes 32 (r.num x.phase x.loss)) false)).countLd n 6

/-- The die after the write of an LD's oldest staged record, before its message. -/
def Dev.recordMoved (n : Nat) (r : SampleRec) (rest : List SampleRec) : Dev :=
  { d.recordWritten n r with samp := d.samp.modify n (·.moved rest) }

theorem Dev.sampleWrite_of_none (h : (d.sampler n).staged = []) : d.sampleWrite n = d := by
  unfold Dev.sampleWrite
  dsimp only
  rw [h]

theorem Dev.recordWritten_samp : (d.recordWritten n r).samp = d.samp :=
  (Dev.countLd_samp _ n 6).trans (Dev.emit_samp _ _)

theorem Dev.sampler_recordMoved (hn : n < d.samp.length) : (d.recordMoved n r rest).sampler n = (d.sampler n).moved rest := by
  simp [Dev.recordMoved, Dev.sampler, hn]

theorem Dev.sampleWrite_of_some (hn : n < d.samp.length) (h : (d.sampler n).staged = r :: rest) : d.sampleWrite n =
    if (d.sampler n).hit then (d.recordMoved n r rest).emit (.msix n (d.sampler n).vector) else d.recordMoved n r rest := by
  have hmod : (d.recordWritten n r).modSampler n (fun s =>
      { s with staged := rest, slot := ((d.sampler n).slot + 1) % (d.sampler n).slots,
               phase := if ((d.sampler n).slot + 1) % (d.sampler n).slots = 0 then !s.phase else s.phase, loss := false,
               since := if (d.sampler n).hit then 0 else s.since + 1 }) = d.recordMoved n r rest := by
    unfold Dev.modSampler Dev.recordMoved
    rw [Dev.recordWritten_samp]
    congr 1
    refine List.ext_getElem (by simp) fun i hi _ => ?_
    rw [List.getElem_modify, List.getElem_modify]
    split
    · next hin =>
      subst hin
      have hget : d.samp[n] = d.sampler n := by simp [Dev.sampler, hn]
      rw [hget]
      rfl
    · rfl
  unfold Dev.sampleWrite
  dsimp only
  rw [h, ← hmod]
  rfl

theorem Dev.recordMoved_out : (d.recordMoved n r rest).out = d.out ++
    [.hostWrite (d.ldHead n) ((d.sampler n).base + 32 * (d.sampler n).slot)
      (toBytes 32 (r.num (d.sampler n).phase (d.sampler n).loss)) false] :=
  Dev.countLd_out _ n 6

theorem Dev.recordMoved_regs : (d.recordMoved n r rest).regs = d.regs := Dev.countLd_regs _ n 6

theorem Dev.out_sampleWrite (hn : n < d.samp.length) (h : (d.sampler n).staged = r :: rest) : (d.sampleWrite n).out =
    (d.recordMoved n r rest).out ++ if (d.sampler n).hit then [.msix n (d.sampler n).vector] else [] := by
  rw [d.sampleWrite_of_some hn h]
  split
  · rfl
  · rw [List.append_nil]

theorem Dev.regs_sampleWrite (hn : n < d.samp.length) (h : (d.sampler n).staged = r :: rest) : (d.sampleWrite n).regs = d.regs := by
  rw [d.sampleWrite_of_some hn h]
  exact view_ite (p := Dev.regs) (d.recordMoved_regs (r := r) (rest := rest)) d.recordMoved_regs

theorem Dev.sampler_sampleWrite (hn : n < d.samp.length) (h : (d.sampler n).staged = r :: rest) :
    (d.sampleWrite n).sampler n = (d.sampler n).moved rest := by
  rw [d.sampleWrite_of_some hn h]
  split
  · exact d.sampler_recordMoved (r := r) hn
  · exact d.sampler_recordMoved hn

/-- Settles O49: each case is the branch of the operation that the state of the sampler selects. -/
theorem sampleRecords : Obligations.SampleRecords := by
  unfold Obligations.SampleRecords
  intro s hu
  refine ⟨fun hnone => ?_, fun n hn hnone => ?_, fun r rest hsome => ⟨fun hen hroom => ?_, fun hen hfull => ?_, fun hen => ?_⟩,
    fun n r rest hn hsome hlen => ?_⟩
  · rw [exec_sampleRecordComplete hu, s.dev.sampleComplete_of_none hnone]
  · rw [exec_sampleRecordWrite (decide_eq_true hn) hu, s.dev.sampleWrite_of_none hnone]
  · rw [exec_sampleRecordComplete hu, s.dev.sampleComplete_of_some hsome, if_neg (by simp [hen]), if_pos hroom]
  · rw [exec_sampleRecordComplete hu, s.dev.sampleComplete_of_some hsome, if_neg (by simp [hen]), if_neg (by omega)]
  · rw [exec_sampleRecordComplete hu, s.dev.sampleComplete_of_some hsome, if_pos (by simp [hen])]
  · have hn' : n < s.dev.samp.length := by omega
    have hx := s.dev.sampler_sampleWrite hn' hsome
    refine ⟨s.dev.sampleWrite n, exec_sampleRecordWrite (decide_eq_true hn) hu, ?_, congrArg Sampler.staged hx,
      congrArg Sampler.slot hx, congrArg Sampler.loss hx, congrArg Sampler.phase hx, ?_, s.dev.regs_sampleWrite hn' hsome⟩
    · rw [s.dev.out_sampleWrite hn' hsome, Dev.recordMoved_out]
      simp only [Sampler.hit_iff]
    · rw [hx]
      simp only [Sampler.moved, Sampler.hit_iff]

end Sys2Proof.Machine
end


section
/-! SUPPORT. What the errors that a pass over the counters meets leave (R438, R444): logs, cleared counters and TAL_STAT. -/

namespace Sys2Proof.Machine

variable (d : Dev) {e f : Dev} {par ue : List Nat} {ce : Nat} {image : Bool}

/-! ### One error at a time -/

/-- A counter whose parity fails is cleared, flagged and recorded. -/
def Dev.parityMet (d : Dev) (id : Nat) : Dev :=
  let d := (d.counterClear id).setFlag .talStat F.talStat_PAR_SEEN true
  d.raiseLimited 0 { vendorRec 0x0A02 .warning 0x0C00 (1 + id * 2 ^ 16) with addr1 := d.nowNs }

/-- A word of the buffer that fails is flagged and recorded. -/
def Dev.wordMet (image : Bool) (d : Dev) (id : Nat) : Dev :=
  (d.setFlag .talStat F.talStat_ECC_UE_SEEN true).raiseLimited 0
    { vendorRec 0x0A02 .warning 0x0C00 ((if image then 0xFFFF else id) * 2 ^ 16) with addr1 := d.nowNs }

/-- The errors of a pass before the corrected ones are counted. -/
def Dev.errorsMet (d : Dev) (par ue : List Nat) (image : Bool) : Dev := ue.foldl (Dev.wordMet image) (par.foldl Dev.parityMet d)

theorem Dev.passErrors_eq : d.passErrors par ue ce image =
    (d.errorsMet par ue image).setFld .talStat F.talStat_ECC_CE
      (satTo 16 ((d.errorsMet par ue image).fld .talStat F.talStat_ECC_CE + ce)) := rfl

/-! ### What they change -/

/-- `e` differs from `d` only in what the errors of a pass leave. -/
structure Dev.errorsBeside (d e : Dev) : Prop where
  parts : ∃ l x o t v m, e = { d with logs := l, cas := x, out := d.out ++ o, tally := t, events := v, regs := m }
  regs : d.keepsRegs e [.talStat]

theorem Dev.errorsBeside.refl : d.errorsBeside d :=
  ⟨⟨d.logs, d.cas, [], d.tally, d.events, d.regs, by rw [List.append_nil]⟩, d.keepsRegs_refl _⟩

variable {d} in
theorem Dev.errorsBeside.trans (h : d.errorsBeside e) (h' : e.errorsBeside f) : d.errorsBeside f := by
  obtain ⟨l, x, o, t, v, m, rfl⟩ := h.parts
  obtain ⟨l', x', o', t', v', m', rfl⟩ := h'.parts
  exact ⟨⟨l', x', o ++ o', t', v', m', by rw [List.append_assoc]⟩, h.regs.trans h'.regs⟩

theorem Dev.errorsBeside_setFld (g : Fld) (n : Nat) : d.errorsBeside (d.setFld .talStat g n) :=
  ⟨⟨d.logs, d.cas, [], d.tally, d.events, (d.setFld .talStat g n).regs, by rw [List.append_nil]; rfl⟩,
    (d.keepsRegs_refl _).setFld (List.mem_singleton.mpr rfl) g n⟩

theorem Dev.errorsBeside_raiseLimited (k : Nat) (r : Rec) : d.errorsBeside (d.raiseLimited k r) := by
  obtain ⟨l, x, o, h⟩ := d.raiseLimited_cases k r
  exact ⟨⟨l, x, o, d.tally, d.events, d.regs, h⟩, Dev.keepsRegs_of_regs_eq (d.raiseLimited_regs k r)⟩

theorem Dev.counterClear_cases (id : Nat) : ∃ t v, d.counterClear id = { d with tally := t, events := v } := by
  unfold Dev.counterClear
  split
  · exact ⟨_, d.events, rfl⟩
  · split
    · exact ⟨d.tally, _, rfl⟩
    · exact ⟨_, d.events, rfl⟩

theorem Dev.errorsBeside_counterClear (id : Nat) : d.errorsBeside (d.counterClear id) := by
  obtain ⟨t, v, h⟩ := d.counterClear_cases id
  exact ⟨⟨d.logs, d.cas, [], t, v, d.regs, by rw [h, List.append_nil]⟩, Dev.keepsRegs_of_regs_eq (by rw [h])⟩

theorem Dev.errorsBeside_parityMet (id : Nat) : d.errorsBeside (d.parityMet id) :=
  (d.errorsBeside_counterClear id).trans ((Dev.errorsBeside_setFld _ _ _).trans (Dev.errorsBeside_raiseLimited _ _ _))

theorem Dev.errorsBeside_wordMet (id : Nat) : d.errorsBeside (d.wordMet image id) :=
  (d.errorsBeside_setFld _ _).trans (Dev.errorsBeside_raiseLimited _ _ _)

theorem Dev.errorsBeside_errorsMet : d.errorsBeside (d.errorsMet par ue image) :=
  foldl_preserves (P := d.errorsBeside) (fun _ id _ h => h.trans (Dev.errorsBeside_wordMet _ id)) _
    (foldl_preserves (P := d.errorsBeside) (fun _ id _ h => h.trans (Dev.errorsBeside_parityMet _ id)) _ (Dev.errorsBeside.refl d))

theorem Dev.errorsBeside_passErrors : d.errorsBeside (d.passErrors par ue ce image) :=
  d.errorsBeside_errorsMet.trans (Dev.errorsBeside_setFld _ _ _)

section
variable {d}

theorem Dev.errorsBeside.rng (h : d.errorsBeside e) : e.rng = d.rng := by
  obtain ⟨l, x, o, t, v, m, rfl⟩ := h.parts
  rfl

theorem Dev.errorsBeside.tal (h : d.errorsBeside e) : e.tal = d.tal := by
  obtain ⟨l, x, o, t, v, m, rfl⟩ := h.parts
  rfl

end

theorem Dev.out_passErrors : ∃ more, (par = [] → ue = [] → more = []) ∧ (d.passErrors par ue ce image).out = d.out ++ more := by
  by_cases hnone : par = [] ∧ ue = []
  · obtain ⟨rfl, rfl⟩ := hnone
    exact ⟨[], fun _ _ => rfl, (List.append_nil _).symm⟩
  · obtain ⟨l, x, o, t, v, m, h⟩ := (d.errorsBeside_passErrors (par := par) (ue := ue) (ce := ce) (image := image)).parts
    exact ⟨o, fun hpar hue => absurd ⟨hpar, hue⟩ hnone, by rw [h]⟩

/-! ### TAL_STAT -/

theorem Dev.parityMet_flag (id : Nat) : (d.parityMet id).flag .talStat F.talStat_PAR_SEEN = true :=
  (Dev.raiseLimited_flag _ _ _ _ _).trans (Dev.flag_setFlag_self _ _ _ (by decide) (by decide))

theorem Dev.wordMet_flag (id : Nat) : (d.wordMet image id).flag .talStat F.talStat_ECC_UE_SEEN = true :=
  (Dev.raiseLimited_flag _ _ _ _ _).trans (Dev.flag_setFlag_self _ _ _ (by decide) (by decide))

theorem Dev.wordMet_parity (id : Nat) :
    (d.wordMet image id).flag .talStat F.talStat_PAR_SEEN = d.flag .talStat F.talStat_PAR_SEEN :=
  (Dev.raiseLimited_flag _ _ _ _ _).trans (Dev.flag_setFlag_field _ _ _ (by decide) (by decide) (by decide))

theorem Dev.wordMet_corrected (id : Nat) :
    (d.wordMet image id).fld .talStat F.talStat_ECC_CE = d.fld .talStat F.talStat_ECC_CE :=
  (Dev.raiseLimited_fld _ _ _ _ _).trans (Dev.fld_setFlag_field _ _ _ (by decide) (by decide) (by decide))

theorem Dev.parityMet_corrected (id : Nat) : (d.parityMet id).fld .talStat F.talStat_ECC_CE = d.fld .talStat F.talStat_ECC_CE := by
  obtain ⟨t, v, h⟩ := d.counterClear_cases id
  refine (Dev.raiseLimited_fld _ _ _ _ _).trans ((Dev.fld_setFlag_field _ _ _ (by decide) (by decide) (by decide)).trans ?_)
  exact Dev.fld_of_regs_eq (by rw [h]) _ _

theorem Dev.passErrors_parity (h : par ≠ []) : (d.passErrors par ue ce image).flag .talStat F.talStat_PAR_SEEN = true := by
  obtain ⟨id, hid⟩ := List.exists_mem_of_ne_nil par h
  rw [Dev.passErrors_eq, Dev.flag_setFld_field _ _ _ (by decide) (by decide) (by decide), Dev.errorsMet]
  refine (foldl_keeps (fun e : Dev => e.flag .talStat F.talStat_PAR_SEEN) (fun e id => e.wordMet_parity id) _ _).trans ?_
  exact foldl_establishes (P := fun (_ : Nat) (e : Dev) => e.flag .talStat F.talStat_PAR_SEEN = true)
    (fun e id => e.parityMet_flag id) (fun _ e id _ => e.parityMet_flag id) par d hid

theorem Dev.passErrors_word (h : ue ≠ []) : (d.passErrors par ue ce image).flag .talStat F.talStat_ECC_UE_SEEN = true := by
  obtain ⟨id, hid⟩ := List.exists_mem_of_ne_nil ue h
  rw [Dev.passErrors_eq, Dev.flag_setFld_field _ _ _ (by decide) (by decide) (by decide), Dev.errorsMet]
  exact foldl_establishes (P := fun (_ : Nat) (e : Dev) => e.flag .talStat F.talStat_ECC_UE_SEEN = true)
    (fun e id => e.wordMet_flag id) (fun _ e id _ => e.wordMet_flag id) ue _ hid

theorem Dev.errorsMet_corrected : (d.errorsMet par ue image).fld .talStat F.talStat_ECC_CE = d.fld .talStat F.talStat_ECC_CE :=
  (foldl_keeps (fun e : Dev => e.fld .talStat F.talStat_ECC_CE) (fun e id => e.wordMet_corrected id) _ _).trans
    (foldl_keeps (fun e : Dev => e.fld .talStat F.talStat_ECC_CE) (fun e id => e.parityMet_corrected id) _ _)

theorem Dev.passErrors_corrected :
    (d.passErrors par ue ce image).fld .talStat F.talStat_ECC_CE = satTo 16 (d.fld .talStat F.talStat_ECC_CE + ce) := by
  rw [Dev.passErrors_eq, Dev.fld_setFld_self _ _ _ (by decide) (by decide), Dev.errorsMet_corrected]
  refine Nat.mod_eq_of_lt ?_
  unfold satTo
  exact lt_of_le_of_lt (min_le_right _ _) (by decide)

/-! ### The counters whose parity failed -/

/-- A named counter of an LD's group reads zero. -/
def Dev.cleared (id : Nat) (d : Dev) : Prop := 256 ≤ id → id < 384 → kvGet (fun _ => 0) d.tally id = 0

theorem Dev.counter_of_cleared {id : Nat} (h : d.cleared id) (hlo : 256 ≤ id) (hhi : id < 384) : d.counter id = 0 := by
  unfold Dev.counter
  dsimp only
  split
  · rfl
  · rw [if_pos ⟨hlo, hhi⟩, h hlo hhi]

theorem Dev.cleared_counterClear (id : Nat) : (d.counterClear id).cleared id := by
  intro hlo hhi
  rw [Dev.counterClear, if_pos ⟨hlo, hhi⟩]
  exact kvGet_set_self (fun _ => (0 : Nat)) d.tally id 0

theorem Dev.cleared_counterClear_other {id : Nat} (other : Nat) (h : d.cleared id) : (d.counterClear other).cleared id := by
  intro hlo hhi
  rcases eq_or_ne other id with rfl | hne
  · exact d.cleared_counterClear other hlo hhi
  unfold Dev.counterClear
  split
  · exact (kvGet_set_other (fun _ => (0 : Nat)) d.tally hne 0).trans (h hlo hhi)
  · split
    · exact h hlo hhi
    · exact (kvGet_set_other (fun _ => (0 : Nat)) d.tally hne (d.gained other)).trans (h hlo hhi)

theorem Dev.parityMet_tally (id : Nat) : (d.parityMet id).tally = (d.counterClear id).tally := by
  rw [Dev.parityMet, Dev.raiseLimited_tally, Dev.setFlag_tally]
theorem Dev.wordMet_tally (id : Nat) : (d.wordMet image id).tally = d.tally := by
  rw [Dev.wordMet, Dev.raiseLimited_tally, Dev.setFlag_tally]

theorem Dev.passErrors_cleared {id : Nat} (h : id ∈ par) : (d.passErrors par ue ce image).cleared id := by
  have hpar : (par.foldl Dev.parityMet d).cleared id :=
    foldl_establishes (P := fun id e => Dev.cleared id e)
      (fun e id hlo hhi => by rw [Dev.parityMet_tally]; exact e.cleared_counterClear id hlo hhi)
      (fun id e other he hlo hhi => by rw [Dev.parityMet_tally]; exact e.cleared_counterClear_other other he hlo hhi) par d h
  have hword : (d.passErrors par ue ce image).tally = (par.foldl Dev.parityMet d).tally :=
    foldl_keeps Dev.tally (fun e id => e.wordMet_tally id) _ _
  intro hlo hhi
  rw [hword]
  exact hpar hlo hhi

end Sys2Proof.Machine
end

section
/-! SUPPORT. A snapshot pass (R442 to R444): its records, and the status that it shows. -/

namespace Sys2Proof.Machine

variable (d : Dev) {c : RingCmd} {par ue : List Nat} {ce : Nat}

/-- The counters of a snapshot that its buffer holds. -/
def RingCmd.snapIds (c : RingCmd) : List Nat := (snapSelect c.set c.x).take (c.n / 16)

/-- STATUS of a snapshot: its buffer is too small for what it selects. -/
def RingCmd.snapStatus (c : RingCmd) : Nat := if c.snapIds.length < (snapSelect c.set c.x).length then 0x07 else 0

/-- The write of a snapshot's record `i`. -/
def Dev.snapWrite (d : Dev) (c : RingCmd) (par ue : List Nat) (i : Nat) : Out :=
  .hostWrite (d.setHead c.set) (c.a + 16 * i) (toBytes 16 (d.snapRecord par ue i (c.snapIds.getD i 0))) false

/-- The die after a snapshot's records. -/
def Dev.snapWritten (d : Dev) (c : RingCmd) (par ue : List Nat) : Dev :=
  { d with out := d.out ++ (List.range c.snapIds.length).map (d.snapWrite c par ue) }

/-- The die after a snapshot's records and the errors that it met. -/
def Dev.snapPassed (d : Dev) (c : RingCmd) (par ue : List Nat) (ce : Nat) : Dev :=
  (d.snapWritten c par ue).passErrors (par.filter c.snapIds.contains) (ue.filter c.snapIds.contains) ce false

/-- SEQ of the snapshot that a pass completes. -/
def Dev.snapSeq (d : Dev) (c : RingCmd) : Nat := (d.fld (.rngSnapstat c.set) F.rngSnapstat_SEQ + 1) % 2 ^ 16

theorem Dev.snapSeq_eq : d.snapSeq c = (d.fld (.rngSnapstat c.set) F.rngSnapstat_SEQ + 1) % 2 ^ 16 := rfl

theorem Dev.snapSeq_lt : d.snapSeq c < 2 ^ 16 := Nat.mod_lt _ (by decide)

theorem foldl_emit (f : Nat → Out) (l : List Nat) (d : Dev) :
    l.foldl (fun (d : Dev) i => d.emit (f i)) d = { d with out := d.out ++ l.map f } := by
  induction l generalizing d with
  | nil => rw [List.map_nil, List.append_nil]; rfl
  | cons i l ih =>
    rw [List.foldl_cons, ih, List.map_cons]
    simp [Dev.emit]

theorem Dev.snapshotPass_of_none (h : (d.rng.run.find? fun c => c.op == .snapshot) = none) : d.snapshotPass par ue ce = d := by
  unfold Dev.snapshotPass
  rw [h]

theorem Dev.snapshotPass_of_some (h : (d.rng.run.find? fun c => c.op == .snapshot) = some c) : ∃ r0 r1,
    d.snapshotPass par ue ce = (((d.snapPassed c par ue ce).wr (.rngSnapstat c.set)
      ((d.snapPassed c par ue ce).snapSeq c * 2 ^ 48 + c.snapStatus * 2 ^ 40 + c.ring * 2 ^ 32 + c.tag)).ringFinish c c.snapStatus r0 r1
        ((d.snapPassed c par ue ce).snapSeq c)) := by
  refine ⟨c.snapIds.length, if c.snapIds.isEmpty then 0 else d.readTime 0, ?_⟩
  have hfold : (List.range c.snapIds.length).foldl (fun (e : Dev) i => e.emit (.hostWrite (d.setHead c.set) (c.a + 16 * i)
      (toBytes 16 (((List.range c.snapIds.length).map fun i => d.snapRecord par ue i (c.snapIds.getD i 0)).getD i 0)) false)) d =
        d.snapWritten c par ue := by
    refine (List.foldl_ext _ (fun (e : Dev) i => e.emit (d.snapWrite c par ue i)) d fun e i hi => ?_).trans (foldl_emit _ _ d)
    rw [List.getD_eq_getElem?_getD, List.getElem?_map, List.getElem?_range (List.mem_range.mp hi)]
    rfl
  unfold Dev.snapshotPass
  rw [h]
  dsimp only
  rw [show (snapSelect c.set c.x).take (c.n / 16) = c.snapIds from rfl, List.length_map, List.length_range, hfold]
  rfl

theorem Dev.errorsBeside_snapPassed : (d.snapWritten c par ue).errorsBeside (d.snapPassed c par ue ce) :=
  Dev.errorsBeside_passErrors _

theorem Dev.snapPassed_keeps : d.keepsRegs (d.snapPassed c par ue ce) [.talStat] :=
  (d.errorsBeside_snapPassed (c := c) (par := par) (ue := ue) (ce := ce)).regs

theorem Dev.snapPassed_rng : (d.snapPassed c par ue ce).rng = d.rng := d.errorsBeside_snapPassed.rng

theorem Dev.snapPassed_seq : (d.snapPassed c par ue ce).snapSeq c = d.snapSeq c := by
  unfold Dev.snapSeq
  rw [d.snapPassed_keeps.fld (by simp only [List.mem_singleton, forall_eq, Reg.offset]; omega)]

theorem Dev.snapPassed_out : ∃ more, (par = [] → ue = [] → more = []) ∧ (d.snapPassed c par ue ce).out =
    d.out ++ (List.range c.snapIds.length).map (d.snapWrite c par ue) ++ more := by
  obtain ⟨more, hnone, hout⟩ := (d.snapWritten c par ue).out_passErrors (par := par.filter c.snapIds.contains)
    (ue := ue.filter c.snapIds.contains) (ce := ce) (image := false)
  refine ⟨more, ?_, hout⟩
  rintro rfl rfl
  exact hnone rfl rfl

theorem RingCmd.snapStatus_lt (c : RingCmd) : c.snapStatus < 2 ^ 8 := by
  unfold RingCmd.snapStatus
  split <;> decide

/-- The fields of RNG_SNAPSTAT lie beside one another. -/
theorem fld_snapstat {s seq status ring tag : Nat} (hseq : seq < 2 ^ 16) (hstatus : status < 2 ^ 8) (hring : ring < 8) (htag : tag < 2 ^ 32) :
    let e := d.wr (.rngSnapstat s) (seq * 2 ^ 48 + status * 2 ^ 40 + ring * 2 ^ 32 + tag)
    e.fld (.rngSnapstat s) F.rngSnapstat_SEQ = seq ∧ e.fld (.rngSnapstat s) F.rngSnapstat_TAG = tag ∧
      e.fld (.rngSnapstat s) F.rngSnapstat_RING = ring := by
  intro e
  have hfld (g : Fld) : e.fld (.rngSnapstat s) g = bitsOf (seq * 2 ^ 48 + status * 2 ^ 40 + ring * 2 ^ 32 + tag) g.hi g.lo := by
    have hrd : e.rd (.rngSnapstat s) = _ := Dev.rd_wr_self _ _ _
    rw [Nat.mod_eq_of_lt (by omega)] at hrd
    rw [← hrd]
    rfl
  simp only [hfld]
  refine ⟨bitsOf_eq_of_mod ?_, bitsOf_eq_of_mod ?_, bitsOf_eq_of_mod ?_⟩
  all_goals
    simp only [F.rngSnapstat_SEQ, F.rngSnapstat_TAG, F.rngSnapstat_RING]
    omega

theorem Dev.keepsRegs_snapshotPass (h : (d.rng.run.find? fun c => c.op == .snapshot) = some c) :
    d.keepsRegs (d.snapshotPass par ue ce) [.rngSnapstat c.set, .talStat] := by
  obtain ⟨r0, r1, hpass⟩ := d.snapshotPass_of_some (par := par) (ue := ue) (ce := ce) h
  rw [hpass]
  have hpassed : d.keepsRegs (d.snapPassed c par ue ce) [.rngSnapstat c.set, .talStat] :=
    d.snapPassed_keeps.mono fun _ => List.mem_cons_of_mem _
  exact (hpassed.wr List.mem_cons_self _).regs_eq (Dev.modRng_regs _ _)

/-- The status that a pass shows, and the command that it finishes. -/
theorem Dev.snapshotPass_shows (h : (d.rng.run.find? fun c => c.op == .snapshot) = some c) (hring : c.ring < 8) (htag : c.tag < 2 ^ 32) :
    let e := d.snapshotPass par ue ce
    e.fld (.rngSnapstat c.set) F.rngSnapstat_SEQ = d.snapSeq c ∧ e.fld (.rngSnapstat c.set) F.rngSnapstat_TAG = c.tag ∧
      e.fld (.rngSnapstat c.set) F.rngSnapstat_RING = c.ring ∧ e.rng.run = d.rng.run.filter (·.id != c.id) ∧
      ∃ x ∈ e.rng.fin, x.id = c.id := by
  obtain ⟨r0, r1, hpass⟩ := d.snapshotPass_of_some (par := par) (ue := ue) (ce := ce) h
  obtain ⟨hfseq, hftag, hfring⟩ := fld_snapstat (d.snapPassed c par ue ce) (s := c.set) d.snapSeq_lt c.snapStatus_lt hring htag
  rw [Dev.snapPassed_seq] at hpass
  rw [hpass]
  have hfld (f : Rings → Rings) (e : Dev) (g : Fld) : (e.modRng f).fld (.rngSnapstat c.set) g = e.fld (.rngSnapstat c.set) g :=
    Dev.fld_of_regs_eq (e.modRng_regs f) _ _
  refine ⟨(hfld _ _ _).trans hfseq, (hfld _ _ _).trans hftag, (hfld _ _ _).trans hfring, ?_, c.fin c.snapStatus r0 r1 (d.snapSeq c), List.mem_append_right _ (List.mem_singleton.mpr rfl), rfl⟩
  rw [← d.snapPassed_rng (c := c) (par := par) (ue := ue) (ce := ce)]
  rfl

theorem Dev.out_snapshotPass (h : (d.rng.run.find? fun c => c.op == .snapshot) = some c) :
    (d.snapshotPass par ue ce).out = (d.snapPassed c par ue ce).out := by
  obtain ⟨r0, r1, hpass⟩ := d.snapshotPass_of_some (par := par) (ue := ue) (ce := ce) h
  rw [hpass, Dev.ringFinish, Dev.modRng_out, Dev.wr_out]

/-- Settles O48: a pass writes its records, shows its status, and finishes the command. -/
theorem snapshotPasses : Obligations.SnapshotPasses := by
  unfold Obligations.SnapshotPasses
  intro s par ue ce hu x
  have hexec := exec_snapshotPass (par := par) (ue := ue) (ce := ce) rfl hu
  refine ⟨fun hx => hexec.trans (by rw [s.dev.snapshotPass_of_none hx]), ?_⟩
  intro c hx _ hring htag ids
  obtain ⟨more, hnone, hout⟩ := s.dev.snapPassed_out (c := c) (par := par) (ue := ue) (ce := ce)
  obtain ⟨hseq, htag, hring, hrun, hfin⟩ := s.dev.snapshotPass_shows (par := par) (ue := ue) (ce := ce) hx hring htag
  exact ⟨s.dev.snapshotPass par ue ce, more, hexec, hnone, (s.dev.out_snapshotPass hx).trans hout, hseq.trans (Dev.snapSeq_eq _), htag, hring, hrun, hfin,
    s.dev.keepsRegs_snapshotPass hx⟩

end Sys2Proof.Machine
end


section
/-! SUPPORT. A sweep and its watches (R441, R446). -/

namespace Sys2Proof.Machine

variable (d : Dev) {e : Dev} {par ue : List Nat} {ce k : Nat}

/-- What a pass over distinct elements comes to for one of them, where the steps of the others leave its part alone: `e` is what its
step finds. -/
theorem foldl_meets {α β γ : Type} {f : β → α → β} {a : α} (p : β → γ) (hother : ∀ b x, x ≠ a → p (f b x) = p b) :
    ∀ {l : List α}, l.Nodup → a ∈ l → ∀ b, ∃ e, p e = p b ∧ p (l.foldl f b) = p (f e a)
  | x :: l, hl, ha, b => by
    obtain ⟨hx, hl⟩ := List.nodup_cons.mp hl
    rcases List.mem_cons.mp ha with rfl | hal
    · have hrest (b : β) : p (l.foldl f b) = p b :=
        foldl_preserves (P := fun c => p c = p b) (fun c y hy hc => (hother c y (fun h => hx (h ▸ hy))).trans hc) b rfl
      exact ⟨b, rfl, hrest _⟩
    · have hne : x ≠ a := fun h => hx (h ▸ hal)
      obtain ⟨e, he, hfold⟩ := foldl_meets p hother hl hal (f b x)
      exact ⟨e, he.trans (hother b x hne), hfold⟩

/-! ### What the sweep reads -/

/-- A counter's value comes from the books, the clock, and the registers of the role and of the channels' rates. -/
theorem Dev.counter_of_eq (hclk : e.clk = d.clk) (hmgt : e.mgt = d.mgt) (hchan : e.chan = d.chan) (htally : e.tally = d.tally)
    (hevents : e.events = d.events) (hrole : e.fld .casId F.casId_ROLE = d.fld .casId F.casId_ROLE)
    (hrate : ∀ c, e.fld (.chnStat c) F.chnStat_RATE = d.fld (.chnStat c) F.chnStat_RATE) (id : Nat) : e.counter id = d.counter id := by
  have hoff : e.counterOff id = d.counterOff id := by rw [Dev.counterOff, Dev.isMember, hrole, Dev.counterOff, Dev.isMember]
  have hway (k : EvKey) : e.underWay k = d.underWay k := by
    simp only [Dev.underWay, Dev.pdCycles, Dev.chn, hclk, hchan, hrate]
  have hgain : e.gained id = d.gained id := by rw [Dev.gained, hclk, hmgt, Dev.gained]
  unfold Dev.counter
  rw [hoff, htally, hgain, hclk, hevents]
  simp only [hway]

/-- The period that a sweep completes, or the first one. -/
def Dev.sweepPeriodDone (d : Dev) : Dev × Periodic :=
  if d.tal.sweep.running then d.lagDone .sweep d.tal.sweep d.nowNs (d.nowNs - d.tal.sweep.grid) d.sweepPeriod
  else (d, Periodic.begin d.nowNs d.sweepPeriod)

/-- The die with the image of a sweep. -/
def Dev.swept (d : Dev) : Dev :=
  { d.sweepPeriodDone.1 with tal := { d.sweepPeriodDone.1.tal with sweep := d.sweepPeriodDone.2, image := (List.range 3608).map d.sweepPeriodDone.1.counter } }

/-- The watches, one after another. -/
def Dev.watched (d : Dev) (par ue : List Nat) : Dev := (List.range 16).foldl (fun d k => d.watchEval par ue k) d

theorem Dev.tallySweep_off (h : d.flag .talCtrl F.talCtrl_EN = false) :
    d.tallySweep par ue ce = { d with tal := { d.tal with sweep := {} } } := if_pos (by rw [h]; rfl)

theorem Dev.tallySweep_on (h : d.flag .talCtrl F.talCtrl_EN = true) :
    d.tallySweep par ue ce = (d.swept.watched par ue).passErrors par ue ce true := by
  refine (if_neg (by simp [h])).trans ?_
  rfl

/-! ### The image -/

/-- What a completed period leaves alone. -/
def Dev.sweepSide (d : Dev) := (d.clk, d.mgt, d.chan, d.tally, d.events, d.tal)

/-- A completed period is in the registers of its lag, and maybe in the logs. -/
theorem Dev.sweepPeriodDone_keeps : d.sweepPeriodDone.1.sweepSide = d.sweepSide ∧
    d.keepsRegs d.sweepPeriodDone.1 [.talSweepLag, .talSweepMaxlag] := by
  unfold Dev.sweepPeriodDone
  split
  · obtain ⟨v, w, h⟩ := d.lagDone_keeps (fun e => (e.regs, e.sweepSide)) (fun e r => by simp [Dev.sweepSide]) .sweep d.tal.sweep
      d.nowNs (d.nowNs - d.tal.sweep.grid) d.sweepPeriod
    obtain ⟨hregs, hside⟩ := Prod.mk.injEq .. ▸ h
    exact ⟨hside, (((d.keepsRegs_refl _).wr List.mem_cons_self v).wr (List.mem_cons_of_mem _ List.mem_cons_self) w).regs_eq hregs⟩
  · exact ⟨rfl, d.keepsRegs_refl _⟩

/-- The registers that hold a sweep's lag are apart from a register of another block, or at another place in theirs. -/
theorem sweepLag_apart {q : Reg} (h : q.offset < 0xF00000 ∨ q.offset % 0x20000 = 0 ∨ 0xF00100 ≤ q.offset) :
    ∀ r ∈ [Reg.talSweepLag, .talSweepMaxlag], r.offset ≠ q.offset := by
  generalize q.offset = o at h ⊢
  simp only [List.mem_cons, List.not_mem_nil, or_false, forall_eq_or_imp, forall_eq, Reg.offset]
  omega

theorem Dev.swept_keeps : d.keepsRegs d.swept [.talSweepLag, .talSweepMaxlag] := d.sweepPeriodDone_keeps.2

theorem Dev.counter_sweepPeriodDone (id : Nat) : d.sweepPeriodDone.1.counter id = d.counter id := by
  obtain ⟨hside, hregs⟩ := d.sweepPeriodDone_keeps
  simp only [Dev.sweepSide, Prod.mk.injEq] at hside
  obtain ⟨hclk, hmgt, hchan, htally, hevents, -⟩ := hside
  exact d.counter_of_eq hclk hmgt hchan htally hevents (hregs.fld (sweepLag_apart (by simp [Reg.offset])) _)
    (fun c => hregs.fld (sweepLag_apart (by simp only [Reg.offset]; omega)) _) id

theorem Dev.swept_image {id : Nat} (h : id ≤ 3607) : d.swept.tal.image.getD id 0 = d.counter id := by
  rw [← d.counter_sweepPeriodDone id, Dev.swept]
  dsimp only
  rw [List.getD_eq_getElem?_getD, List.getElem?_map, List.getElem?_range (by omega)]
  rfl

theorem Dev.swept_prev : d.swept.tal.prev = d.tal.prev := by
  have hside := d.sweepPeriodDone_keeps.1
  simp only [Dev.sweepSide, Prod.mk.injEq] at hside
  obtain ⟨-, -, -, -, -, htal⟩ := hside
  show d.sweepPeriodDone.1.tal.prev = d.tal.prev
  rw [htal]

/-! ### One watch -/

/-- What watch `k` is, what it has kept, and whether it has hit. -/
def Dev.watchSide (k : Nat) (d : Dev) := (d.tal.image, kvFind? d.tal.prev k, bitOf (d.rd .talWatchstat) k, d.rd (.talWatch k))

/-- A watch keeps a value. -/
def Dev.watchKept (d : Dev) (k v : Nat) : Dev := { d with tal := { d.tal with prev := kvIns d.tal.prev k v } }

/-- The test value passes THRESH. -/
def Dev.watchPasses (d : Dev) (k old : Nat) : Bool :=
  let v := d.tal.image.getD (d.fld (.talWatch k) F.talWatch_ID) 0
  let test := if counterIsLevel (d.fld (.talWatch k) F.talWatch_ID) then v else (v + 2 ^ 48 - old) % 2 ^ 48
  if d.flag (.talWatch k) F.talWatch_BELOW then decide (test < d.fld (.talWatch k) F.talWatch_THRESH)
  else decide (d.fld (.talWatch k) F.talWatch_THRESH < test)

/-- The watch has a value of the last sweep, and the test value passes. -/
def Dev.watchHits (d : Dev) (k : Nat) : Bool := ((kvFind? d.tal.prev k).map (d.watchPasses k)).getD false

/-- A watch that is not evaluated: off, on no counter, or on a counter whose words of the buffer fail. -/
def Dev.watchIdle (d : Dev) (par ue : List Nat) (k : Nat) : Bool :=
  !d.flag (.talWatch k) F.talWatch_EN || decide (3607 < d.fld (.talWatch k) F.talWatch_ID) ||
    (ue.contains (d.fld (.talWatch k) F.talWatch_ID) && !par.contains (d.fld (.talWatch k) F.talWatch_ID))

theorem Dev.watchIdle_iff : d.watchIdle par ue k = true ↔ d.flag (.talWatch k) F.talWatch_EN = false ∨
    3607 < d.fld (.talWatch k) F.talWatch_ID ∨
      d.fld (.talWatch k) F.talWatch_ID ∈ ue ∧ d.fld (.talWatch k) F.talWatch_ID ∉ par := by
  simp [Dev.watchIdle, or_assoc]

/-- The value that a watch which is evaluated keeps. -/
def Dev.watchValue (d : Dev) (par : List Nat) (k : Nat) : Nat :=
  if par.contains (d.fld (.talWatch k) F.talWatch_ID) then 0 else d.tal.image.getD (d.fld (.talWatch k) F.talWatch_ID) 0

/-- A watch that is evaluated keeps its value and, where it hits, sets its bit and raises its record. -/
theorem Dev.watchEval_cases : d.watchEval par ue k = d ∧ d.watchIdle par ue k = true ∨
    d.watchIdle par ue k = false ∧
      (d.watchEval par ue k = d.watchKept k (d.watchValue par k) ∧
          (par.contains (d.fld (.talWatch k) F.talWatch_ID) = false → d.watchHits k = false) ∨
        ∃ r, d.watchEval par ue k = ((d.watchKept k (d.watchValue par k)).setBit .talWatchstat k true).raiseLimited k r) := by
  unfold Dev.watchEval
  dsimp only
  split
  · next hidle => exact .inl ⟨rfl, hidle⟩
  next hidle =>
  refine .inr ⟨Bool.eq_false_iff.mpr hidle, ?_⟩
  unfold Dev.watchValue
  split
  · next hpar => exact .inl ⟨rfl, fun h => absurd (h.symm.trans hpar) (by decide)⟩
  unfold Dev.watchHits
  split
  · next hnone => exact .inl ⟨rfl, fun _ => by rw [hnone]; rfl⟩
  · next old hold =>
    by_cases hhit : d.watchPasses k old = true
    · exact .inr ⟨_, if_pos hhit⟩
    · exact .inl ⟨if_neg hhit, fun _ => by rw [hold]; exact Bool.eq_false_iff.mpr hhit⟩

variable {d}

theorem Dev.watchSide_kept_other {j v : Nat} (h : j ≠ k) : Dev.watchSide k (d.watchKept j v) = Dev.watchSide k d := by
  have hprev : kvFind? (d.watchKept j v).tal.prev k = kvFind? d.tal.prev k := kvFind?_ins_other d.tal.prev h v
  unfold Dev.watchSide
  rw [hprev]
  rfl

theorem Dev.watchEval_of_idle (h : d.watchIdle par ue k = true) : d.watchEval par ue k = d := if_pos h

theorem Dev.watchSide_eval_other {j : Nat} (hk : k < 16) (h : j ≠ k) : Dev.watchSide k (d.watchEval par ue j) = Dev.watchSide k d := by
  have hreg : Reg.talWatchstat.offset ≠ (Reg.talWatch k).offset := by
    simp only [Reg.offset]
    omega
  rcases d.watchEval_cases (par := par) (ue := ue) (k := j) with ⟨heq, -⟩ | ⟨-, ⟨heq, -⟩ | ⟨r, heq⟩⟩
  · rw [heq]
  · rw [heq, Dev.watchSide_kept_other h]
  · rw [heq, ← Dev.watchSide_kept_other (d := d) (v := d.watchValue par j) h]
    unfold Dev.watchSide
    rw [Dev.raiseLimited_tal, Dev.raiseLimited_rd, Dev.raiseLimited_rd, Dev.bitOf_setBit_bit _ _ h (by omega),
      Dev.rd_setBit_other _ hreg]
    rfl

theorem Dev.find_watchEval (h : d.watchIdle par ue k = false) :
    kvFind? (d.watchEval par ue k).tal.prev k = some (d.watchValue par k) := by
  have hkept : kvFind? (d.watchKept k (d.watchValue par k)).tal.prev k = some (d.watchValue par k) := kvFind?_ins_self _ _ _
  rcases d.watchEval_cases (par := par) (ue := ue) (k := k) with ⟨-, hidle⟩ | ⟨-, ⟨heq, -⟩ | ⟨r, heq⟩⟩
  · exact absurd (h.symm.trans hidle) (by decide)
  · rw [heq, hkept]
  · rw [heq, Dev.raiseLimited_tal]
    exact hkept

theorem Dev.bitOf_watchEval (hk : k < 16) (h : d.watchIdle par ue k = false)
    (hpar : par.contains (d.fld (.talWatch k) F.talWatch_ID) = false) (hhit : d.watchHits k = true) :
    bitOf ((d.watchEval par ue k).rd .talWatchstat) k = true := by
  rcases d.watchEval_cases (par := par) (ue := ue) (k := k) with ⟨-, hidle⟩ | ⟨-, ⟨-, hmiss⟩ | ⟨r, heq⟩⟩
  · exact absurd (h.symm.trans hidle) (by decide)
  · exact absurd ((hmiss hpar).symm.trans hhit) (by decide)
  · rw [heq, Dev.raiseLimited_rd, Dev.bitOf_setBit_self _ _ (by omega)]

/-! ### The watches in turn -/

/-- The watches leave each other alone: each finds its own state when its turn comes. -/
theorem Dev.watchSide_watched (hk : k < 16) : ∃ e : Dev, Dev.watchSide k e = Dev.watchSide k d ∧
    Dev.watchSide k (d.watched par ue) = Dev.watchSide k (e.watchEval par ue k) :=
  foldl_meets (Dev.watchSide k) (fun _ _ h => Dev.watchSide_eval_other hk h) List.nodup_range (List.mem_range.mpr hk) d

theorem Dev.keepsRegs_watchEval : d.keepsRegs (d.watchEval par ue k) [.talWatchstat] := by
  have hkept : d.keepsRegs (d.watchKept k (d.watchValue par k)) [.talWatchstat] := Dev.keepsRegs_of_regs_eq rfl
  rcases d.watchEval_cases (par := par) (ue := ue) (k := k) with ⟨heq, -⟩ | ⟨-, ⟨heq, -⟩ | ⟨r, heq⟩⟩
  · rw [heq]
    exact d.keepsRegs_refl _
  · rwa [heq]
  · rw [heq]
    exact (hkept.setBit List.mem_cons_self k true).regs_eq (Dev.raiseLimited_regs _ _ _)

theorem Dev.keepsRegs_watched : d.keepsRegs (d.watched par ue) [.talWatchstat] :=
  foldl_preserves (P := fun e => d.keepsRegs e [.talWatchstat]) (fun _ _ _ h => h.trans Dev.keepsRegs_watchEval) d (d.keepsRegs_refl _)

/-! ### The whole sweep -/

/-- What watch `k` finds when its turn in a sweep comes, and that the sweep ends with what its evaluation leaves. -/
theorem Dev.tallySweep_watch (hk : k < 16) (hon : d.flag .talCtrl F.talCtrl_EN = true) : ∃ e : Dev,
    (∀ g, e.fld (.talWatch k) g = d.fld (.talWatch k) g) ∧ (∀ id ≤ 3607, e.tal.image.getD id 0 = d.counter id) ∧
      kvFind? e.tal.prev k = kvFind? d.tal.prev k ∧
      kvFind? (d.tallySweep par ue ce).tal.prev k = kvFind? (e.watchEval par ue k).tal.prev k ∧
      bitOf ((d.tallySweep par ue ce).rd .talWatchstat) k = bitOf ((e.watchEval par ue k).rd .talWatchstat) k := by
  obtain ⟨e, hbefore, hafter⟩ := Dev.watchSide_watched (d := d.swept) (par := par) (ue := ue) hk
  simp only [Dev.watchSide, Prod.mk.injEq] at hbefore hafter
  obtain ⟨himage, hprev, -, hreg⟩ := hbefore
  obtain ⟨-, hprev', hhit', -⟩ := hafter
  have herr := Dev.errorsBeside_passErrors (d.swept.watched par ue) (par := par) (ue := ue) (ce := ce) (image := true)
  have hwatch : e.rd (.talWatch k) = d.rd (.talWatch k) :=
    hreg.trans (d.swept_keeps _ (sweepLag_apart (by simp only [Reg.offset]; omega)))
  refine ⟨e, fun g => RegFile.fld_of_get_eq hwatch g, fun id hid => by rw [himage, d.swept_image hid], hprev.trans (by rw [d.swept_prev]),
    ?_, ?_⟩
  · rw [d.tallySweep_on hon, herr.tal, hprev']
  · rw [d.tallySweep_on hon, herr.regs _ (by simp [Reg.offset]), hhit']

/-- A sweep writes the registers of its lag, the watches' bits and the errors' flags. -/
theorem Dev.tallySweep_corrected (hon : d.flag .talCtrl F.talCtrl_EN = true) :
    (d.tallySweep par ue ce).fld .talStat F.talStat_ECC_CE = satTo 16 (d.fld .talStat F.talStat_ECC_CE + ce) := by
  rw [d.tallySweep_on hon, Dev.passErrors_corrected, Dev.keepsRegs_watched.fld (by simp [Reg.offset]),
    d.swept_keeps.fld (by simp [Reg.offset])]

/-- Settles O47: each watch keeps what its own evaluation finds, and each error leaves its flag. -/
theorem sweepsAndWatches : Obligations.SweepsAndWatches := by
  unfold Obligations.SweepsAndWatches
  intro s par ue ce hu run
  have hrun : run = .next (s.settle (s.dev.tallySweep par ue ce)) := exec_tallySweep rfl hu
  refine ⟨fun hoff => ⟨_, hrun, ?_⟩, fun hon => ⟨_, hrun, fun k hk hen hid => ?_, fun k hk hen => ?_, fun id hid hlo hhi => ?_,
    fun hpar => ?_, fun hue => ?_, Dev.tallySweep_corrected hon⟩⟩
  · rw [s.dev.tallySweep_off hoff]
    exact ⟨rfl, rfl, rfl⟩
  · intro id v
    obtain ⟨e, hfld, himage, hprev, hprev', hhit'⟩ := Dev.tallySweep_watch (par := par) (ue := ue) (ce := ce) hk hon
    have hflag (g : Fld) : e.flag (.talWatch k) g = s.dev.flag (.talWatch k) g := congrArg (· != 0) (hfld g)
    have hidle : e.watchIdle par ue k = true ↔ id ∈ ue ∧ id ∉ par := by
      rw [Dev.watchIdle_iff, hflag, hfld, hen]
      exact ⟨fun h => h.elim nofun fun h => h.resolve_left hid.not_gt, fun h => .inr (.inr h)⟩
    have hbusy (h : id ∈ par ∨ id ∉ ue) : e.watchIdle par ue k = false :=
      Bool.eq_false_iff.mpr fun hi => h.elim (hidle.mp hi).2 (fun hue => hue (hidle.mp hi).1)
    have hval : e.watchValue par k = if par.contains id then 0 else v := by rw [Dev.watchValue, hfld, himage _ hid]
    refine ⟨fun hpar => ?_, fun hpar hue => ?_, fun hpar hue => ⟨?_, fun old hold hpass => ?_⟩⟩
    · rw [hprev', Dev.find_watchEval (hbusy (.inl hpar)), hval, if_pos (List.contains_iff_mem.mpr hpar)]
    · rw [hprev', Dev.watchEval_of_idle (hidle.mpr ⟨hue, hpar⟩), hprev]
    · rw [hprev', Dev.find_watchEval (hbusy (.inr hue)), hval, if_neg (by rwa [List.contains_iff_mem])]
    · have hpasses : e.watchPasses k old = true := by
        rw [Dev.watchPasses, hflag, hfld, hfld, himage _ hid]
        dsimp only at hpass ⊢
        split at hpass
        · next hbelow => rw [if_pos hbelow]; exact decide_eq_true hpass
        · next habove => rw [if_neg habove]; exact decide_eq_true hpass
      rw [hhit']
      refine Dev.bitOf_watchEval hk (hbusy (.inr hue)) ?_ ?_
      · rwa [hfld, ← Bool.not_eq_true, List.contains_iff_mem]
      · rw [Dev.watchHits, hprev, hold]
        exact hpasses
  · obtain ⟨e, hfld, -, hprev, hprev', -⟩ := Dev.tallySweep_watch (par := par) (ue := ue) (ce := ce) hk hon
    have hoff : e.flag (.talWatch k) F.talWatch_EN = false := (congrArg (· != 0) (hfld _)).trans hen
    rw [hprev', Dev.watchEval_of_idle ((Dev.watchIdle_iff e).mpr (.inl hoff)), hprev]
  · rw [s.dev.tallySweep_on hon]
    exact Dev.counter_of_cleared _ (Dev.passErrors_cleared _ hid) hlo hhi
  · rw [s.dev.tallySweep_on hon]
    exact Dev.passErrors_parity _ hpar
  · rw [s.dev.tallySweep_on hon]
    exact Dev.passErrors_word _ hue

end Sys2Proof.Machine
end


section
/-! SUPPORT. Where the counters stand in the views (R437, Tables 17.2 and 18.4): each run of counters by its unit, clear of the registers
of its block. -/

namespace Sys2Proof.Machine

variable {off id i j : Nat}

/-! ### Runs -/

theorem runIndex_eq_none {base cnt stride : Nat} (h : off < base ∨ (off - base) % stride ≠ 0 ∨ cnt ≤ (off - base) / stride) :
    runIndex base cnt stride off = none := if_neg fun ⟨hbase, hstride, hcnt⟩ => by
  rcases h with h | h | h
  · exact absurd hbase h.not_ge
  · exact h hstride
  · exact absurd hcnt h.not_gt

theorem runIndex2_eq_none {base cnt stride cnt2 stride2 : Nat}
    (h : off < base ∨ (off - base) % stride % stride2 ≠ 0 ∨ cnt ≤ (off - base) / stride ∨ cnt2 ≤ (off - base) % stride / stride2) :
    runIndex2 base cnt stride cnt2 stride2 off = none := if_neg fun ⟨hbase, hcnt, hstride, hcnt2⟩ => by
  rcases h with h | h | h | h
  · exact absurd hbase h.not_ge
  · exact h hstride
  · exact absurd hcnt h.not_gt
  · exact absurd hcnt2 h.not_gt

theorem counterRun_eq_none {base n stride c : Nat} (h : off < base ∨ n ≤ (off - base) / stride ∨ c ≤ (off - base) % stride / 8) :
    counterRun off base n stride c id = none := by
  rw [counterRun, runIndex2_eq_none (h.imp_right .inr)]
  rfl

theorem counterRun_eq {base n stride c : Nat} (hbase : base ≤ off) (hi : (off - base) / stride = i) (hj : (off - base) % stride = 8 * j)
    (hin : i < n) (hjc : j < c) : counterRun off base n stride c id = some (id + i * c + j) := by
  subst hi
  rw [counterRun, runIndex2, hj, if_pos ⟨hbase, hin, by omega, by omega⟩, Nat.mul_div_cancel_left _ (by decide)]
  rfl

/-! ### The management view -/

/-- The management view shows a counter. -/
def CounterShown (id : Nat) : Prop := ∃ off, RegView.slot .mgmt off = some (.counter id false)

theorem counterShown_of (hlo : 0x103000 ≤ off) (h8 : off % 8 = 0) (hreg : regAt off = none) (hctr : counterAt off = some id) :
    CounterShown id := by
  refine ⟨off, ?_⟩
  rw [RegView.slot, mgmtSlot, if_neg (by omega), if_neg (by omega), hreg]
  dsimp only
  rw [if_neg (by omega), show off / 8 * 8 = off by omega, hctr]
  simp [h8]

/-- An offset outside the head ports' counters. -/
theorem hpRun_eq_none (h : ∀ p < 4, off < 0x210000 + 0x40000 * p ∨ 2 ≤ (off - (0x210000 + 0x40000 * p)) / 0x100) :
    ((List.range 4).findSome? fun p => counterRun off (0x210000 + 0x40000 * p) 2 0x100 32 (64 * p)) = none :=
  List.findSome?_eq_none_iff.mpr fun p hp => counterRun_eq_none ((h p (List.mem_range.mp hp)).imp_right .inl)

/-- The counters of a head port. -/
theorem counterShown_port {p : Nat} (hp : p < 4) (hi : i < 2) (hj : j < 32) : CounterShown (64 * p + i * 32 + j) := by
  obtain ⟨off, hoff⟩ : ∃ off, off = 0x210000 + 0x40000 * p + 0x100 * i + 8 * j := ⟨_, rfl⟩
  refine counterShown_of (off := off) (by omega) (by omega) ?_ ?_
  · rw [regAt, show off / 0x100000 = 2 by omega]
    simp (disch := omega) only [regAtBlock02, runIndex_eq_none, runIndex2_eq_none, Option.map_none]
    rfl
  · have hport : ((List.range 4).findSome? fun p => counterRun off (0x210000 + 0x40000 * p) 2 0x100 32 (64 * p)) =
        some (64 * p + i * 32 + j) := by
      rw [show List.range 4 = [0, 1, 2, 3] from rfl]
      interval_cases p <;>
        simp (disch := omega) only [List.findSome?_cons, counterRun_eq_none, counterRun_eq (i := i) (j := j)]
    rw [counterAt, hport]
    rfl

theorem counterShown_ld (hi : i < 16) (hj : j < 8) : CounterShown (256 + i * 8 + j) := by
  obtain ⟨off, hoff⟩ : ∃ off, off = 0x220000 + 0x40 * i + 8 * j := ⟨_, rfl⟩
  refine counterShown_of (off := off) (by omega) (by omega) ?_ ?_
  · rw [regAt, show off / 0x100000 = 2 by omega]
    simp (disch := omega) only [regAtBlock02, runIndex_eq_none, runIndex2_eq_none, Option.map_none]
    rfl
  · rw [counterAt, hpRun_eq_none (by omega)]
    simp (disch := omega) only [counterRun_eq_none, counterRun_eq (i := i) (j := j)]
    rfl

theorem counterShown_home (hi : i < 16) (hj : j < 40) : CounterShown (384 + i * 40 + j) := by
  obtain ⟨off, hoff⟩ : ∃ off, off = 0x408000 + 0x10000 * i + 8 * j := ⟨_, rfl⟩
  refine counterShown_of (off := off) (by omega) (by omega) ?_ ?_
  · rw [regAt, show off / 0x100000 = 4 by omega]
    simp (disch := omega) only [regAtBlock04, if_neg, runIndex_eq_none, Option.map_none]
    rfl
  · rw [counterAt, hpRun_eq_none (by omega)]
    simp (disch := omega) only [counterRun_eq_none, counterRun_eq (i := i) (j := j)]
    rfl

theorem counterShown_sward (hi : i < 16) (hj : j < 12) : CounterShown (1024 + i * 12 + j) := by
  obtain ⟨off, hoff⟩ : ∃ off, off = 0x500000 + 0x100 * i + 8 * j := ⟨_, rfl⟩
  refine counterShown_of (off := off) (by omega) (by omega) ?_ ?_
  · rw [regAt, show off / 0x100000 = 5 by omega]
    rfl
  · rw [counterAt, hpRun_eq_none (by omega)]
    simp (disch := omega) only [counterRun_eq_none, counterRun_eq (i := i) (j := j)]
    rfl

theorem counterShown_tedder (hi : i < 4) (hj : j < 32) : CounterShown (1216 + i * 32 + j) := by
  obtain ⟨off, hoff⟩ : ∃ off, off = 0x610000 + 0x40000 * i + 8 * j := ⟨_, rfl⟩
  refine counterShown_of (off := off) (by omega) (by omega) ?_ ?_
  · rw [regAt, show off / 0x100000 = 6 by omega]
    simp (disch := omega) only [regAtBlock06, if_neg, runIndex_eq_none, Option.map_none]
    rfl
  · rw [counterAt, hpRun_eq_none (by omega)]
    simp (disch := omega) only [counterRun_eq_none, counterRun_eq (i := i) (j := j)]
    rfl

theorem counterShown_baler (hi : i < 32) (hj : j < 16) : CounterShown (1344 + i * 16 + j) := by
  obtain ⟨off, hoff⟩ : ∃ off, off = 0x701000 + 0x80 * i + 8 * j := ⟨_, rfl⟩
  refine counterShown_of (off := off) (by omega) (by omega) ?_ ?_
  · rw [regAt, show off / 0x100000 = 7 by omega]
    simp (disch := omega) only [regAtBlock07, if_neg, runIndex_eq_none, Option.map_none]
    rfl
  · rw [counterAt, hpRun_eq_none (by omega)]
    simp (disch := omega) only [counterRun_eq_none, counterRun_eq (i := i) (j := j)]
    rfl

theorem counterShown_cipher (hi : i < 28) (hj : j < 10) : CounterShown (1856 + i * 10 + j) := by
  obtain ⟨off, hoff⟩ : ∃ off, off = 0x801000 + 0x80 * i + 8 * j := ⟨_, rfl⟩
  refine counterShown_of (off := off) (by omega) (by omega) ?_ ?_
  · rw [regAt, show off / 0x100000 = 8 by omega]
    simp (disch := omega) only [regAtBlock08, if_neg, runIndex_eq_none, Option.map_none]
    rfl
  · rw [counterAt, hpRun_eq_none (by omega)]
    simp (disch := omega) only [counterRun_eq_none, counterRun_eq (i := i) (j := j)]
    rfl

theorem counterShown_cipherQuarter (hi : i < 4) (hj : j < 8) : CounterShown (2136 + i * 8 + j) := by
  obtain ⟨off, hoff⟩ : ∃ off, off = 0x802000 + 0x40 * i + 8 * j := ⟨_, rfl⟩
  refine counterShown_of (off := off) (by omega) (by omega) ?_ ?_
  · rw [regAt, show off / 0x100000 = 8 by omega]
    simp (disch := omega) only [regAtBlock08, if_neg, runIndex_eq_none, Option.map_none]
    rfl
  · rw [counterAt, hpRun_eq_none (by omega)]
    simp (disch := omega) only [counterRun_eq_none, counterRun_eq (i := i) (j := j)]
    rfl

theorem counterShown_channel (hi : i < 24) (hj : j < 50) : CounterShown (2168 + i * 50 + j) := by
  obtain ⟨off, hoff⟩ : ∃ off, off = 0x910000 + 0x20000 * i + 8 * j := ⟨_, rfl⟩
  refine counterShown_of (off := off) (by omega) (by omega) ?_ ?_
  · have hblock : off / 0x100000 = 9 ∨ off / 0x100000 = 10 ∨ off / 0x100000 = 11 := by omega
    have hnone : regAtBlock09 off = none := by
      simp (disch := omega) only [regAtBlock09, runIndex_eq_none, runIndex2_eq_none, Option.map_none]
      rfl
    rcases hblock with h | h | h <;> rw [regAt, h] <;> exact hnone
  · rw [counterAt, hpRun_eq_none (by omega)]
    simp (disch := omega) only [counterRun_eq_none, counterRun_eq (i := i) (j := j)]
    rfl

theorem counterShown_ley (hi : i < 4) (hj : j < 24) : CounterShown (3368 + i * 24 + j) := by
  obtain ⟨off, hoff⟩ : ∃ off, off = 0xC08000 + 0x10000 * i + 8 * j := ⟨_, rfl⟩
  refine counterShown_of (off := off) (by omega) (by omega) ?_ ?_
  · rw [regAt, show off / 0x100000 = 12 by omega]
    simp (disch := omega) only [regAtBlock0C, runIndex_eq_none, runIndex2_eq_none, Option.map_none]
    rfl
  · rw [counterAt, hpRun_eq_none (by omega)]
    simp (disch := omega) only [counterRun_eq_none, counterRun_eq (i := i) (j := j)]
    rfl

theorem counterShown_ring (hi : i < 17) (hj : j < 8) : CounterShown (3464 + i * 8 + j) := by
  obtain ⟨off, hoff⟩ : ∃ off, off = 0xE01000 + 0x2000 * i + 8 * j := ⟨_, rfl⟩
  refine counterShown_of (off := off) (by omega) (by omega) ?_ ?_
  · rw [regAt, show off / 0x100000 = 14 by omega]
    simp (disch := omega) only [regAtBlock0E, runIndex_eq_none, runIndex2_eq_none, Option.map_none]
    rfl
  · rw [counterAt, hpRun_eq_none (by omega)]
    simp (disch := omega) only [counterRun_eq_none, counterRun_eq (i := i) (j := j)]
    rfl

theorem counterShown_tally (hi : i < 1) (hj : j < 8) : CounterShown (3600 + i * 8 + j) := by
  obtain ⟨off, hoff⟩ : ∃ off, off = 0xF01000 + 0x40 * i + 8 * j := ⟨_, rfl⟩
  refine counterShown_of (off := off) (by omega) (by omega) ?_ ?_
  · rw [regAt, show off / 0x100000 = 15 by omega]
    simp (disch := omega) only [regAtBlock0F, if_neg, runIndex_eq_none, Option.map_none]
    rfl
  · rw [counterAt, hpRun_eq_none (by omega)]
    simp (disch := omega) only [counterRun_eq_none, counterRun_eq (i := i) (j := j)]
    rfl

/-- The management view shows every counter: each ID lies in one of the runs of Table 17.2. -/
theorem counterShown (h : id < 3608) : CounterShown id := by
  rcases Nat.lt_or_ge id 256 with h1 | h1
  · rw [show id = 64 * (id / 64) + id % 64 / 32 * 32 + id % 32 by omega]
    exact counterShown_port (by omega) (by omega) (by omega)
  have run {lo n c : Nat} (hc : 0 < c) (hs : ∀ {i j}, i < n → j < c → CounterShown (lo + i * c + j)) (hlo : lo ≤ id)
      (hhi : id < lo + n * c) : CounterShown id := by
    have hid : id = lo + (id - lo) / c * c + (id - lo) % c := by
      have := Nat.div_add_mod' (id - lo) c
      omega
    rw [hid]
    exact hs (Nat.div_lt_of_lt_mul (by rw [Nat.mul_comm]; omega)) (Nat.mod_lt _ hc)
  rcases Nat.lt_or_ge id 384 with h2 | h2
  · exact run (by decide) counterShown_ld h1 h2
  rcases Nat.lt_or_ge id 1024 with h3 | h3
  · exact run (by decide) counterShown_home h2 h3
  rcases Nat.lt_or_ge id 1216 with h4 | h4
  · exact run (by decide) counterShown_sward h3 h4
  rcases Nat.lt_or_ge id 1344 with h5 | h5
  · exact run (by decide) counterShown_tedder h4 h5
  rcases Nat.lt_or_ge id 1856 with h6 | h6
  · exact run (by decide) counterShown_baler h5 h6
  rcases Nat.lt_or_ge id 2136 with h7 | h7
  · exact run (by decide) counterShown_cipher h6 h7
  rcases Nat.lt_or_ge id 2168 with h8 | h8
  · exact run (by decide) counterShown_cipherQuarter h7 h8
  rcases Nat.lt_or_ge id 3368 with h9 | h9
  · exact run (by decide) counterShown_channel h8 h9
  rcases Nat.lt_or_ge id 3464 with h10 | h10
  · exact run (by decide) counterShown_ley h9 h10
  rcases Nat.lt_or_ge id 3600 with h11 | h11
  · exact run (by decide) counterShown_ring h10 h11
  · exact run (by decide) counterShown_tally h11 h

/-! ### A tenant's window -/

/-- The counters of a tenant's window: its LD's own group, and that of its ring set. -/
theorem tenantSlot_counter {n : Nat} {hi : Bool} (h : tenantSlot n off = some (.counter id hi)) :
    ∃ k < 8, id = 256 + 8 * n + k ∨ id = 3464 + 8 * n + k := by
  unfold tenantSlot at h
  split_ifs at h with h1 h2 h3 h4 h5
  · cases h
  · cases h
  · split at h
    · cases h
    · next x hx => exact absurd h (hx id hi)
  · obtain ⟨rfl, -⟩ := RegSlot.counter.inj (Option.some.inj h)
    exact ⟨(off - 0x30000) / 8, by omega, .inl rfl⟩
  · obtain ⟨rfl, -⟩ := RegSlot.counter.inj (Option.some.inj h)
    exact ⟨(off - 0x30040) / 8, by omega, .inr rfl⟩
  · cases h
  · cases h
  · cases h
  · cases h

theorem tenantSlot_ld {n k : Nat} (h : k < 8) : tenantSlot n (0x30000 + 8 * k) = some (.counter (256 + 8 * n + k) false) := by
  rw [tenantSlot, if_neg (by omega), if_neg (by omega), if_neg (by omega), if_pos (by omega), Nat.add_sub_cancel_left,
    Nat.mul_div_cancel_left _ (by decide), show (0x30000 + 8 * k) % 8 = 0 by omega]
  rfl

theorem tenantSlot_ring {n k : Nat} (h : k < 8) : tenantSlot n (0x30040 + 8 * k) = some (.counter (3464 + 8 * n + k) false) := by
  rw [tenantSlot, if_neg (by omega), if_neg (by omega), if_neg (by omega), if_neg (by omega), if_pos (by omega), Nat.add_sub_cancel_left,
    Nat.mul_div_cancel_left _ (by decide), show (0x30040 + 8 * k) % 8 = 0 by omega]
  rfl

/-- Settles O60: a tenant's window names two groups by its LD, and the management view's runs cover every ID. -/
theorem tenantCounters : Obligations.TenantCounters := by
  unfold Obligations.TenantCounters
  exact ⟨fun _ _ _ _ _ h => tenantSlot_counter h, fun _ _ _ hk => ⟨⟨_, tenantSlot_ld hk⟩, ⟨_, tenantSlot_ring hk⟩⟩,
    fun _ h => counterShown h⟩

end Sys2Proof.Machine
end


section
/-! SUPPORT. Each command runs the operation that carries its rule (O9): the law of `exec` for it, case by case. -/

namespace Sys2Proof.Machine

open Sys2Proof

/-- A command whose operands are in range runs its operation while the main die runs. -/
theorem exec_eq_effectOf {c : Instr} {s : State} (hu : s.up = true) (hwf : c.wf = true) : exec c s = .next (effectOf c s) := by
  cases c with
  | memRd => exact exec_memRd hwf hu
  | memRdData => exact exec_memRdData hwf hu
  | memInv => exact exec_memInv hwf hu
  | memInvNt => exact exec_memInvNt hwf hu
  | memSpecRd => exact exec_memSpecRd hwf hu
  | memClnEvct => exact exec_memClnEvct hwf hu
  | memWr => exact exec_memWr hwf hu
  | memWrPtl => exact exec_memWrPtl hwf hu
  | birsp => exact exec_birsp hwf hu
  | biconflict => exact exec_biconflict hwf hu
  | directoryEvictionComplete => exact exec_directoryEvictionComplete hwf hu
  | lineLockRelease => exact exec_lineLockRelease hwf hu
  | bisnpTimeout => exact exec_bisnpTimeout hwf hu
  | unresponsiveSweepComplete => exact exec_unresponsiveSweepComplete hwf hu
  | homeGrantWrite => exact exec_homeGrantWrite hwf hu
  | grantRevocationComplete => exact exec_grantRevocationComplete hwf hu
  | defhintWrite => exact exec_defhintWrite hwf hu
  | tedderSample => exact exec_tedderSample hwf hu
  | headLinkUp => exact exec_headLinkUp hwf hu
  | perstNAssert => exact exec_perstNAssert hwf hu
  | perstNRelease => exact exec_perstNRelease hwf hu
  | hotReset => exact exec_hotReset hwf hu
  | linkDown => exact exec_linkDown hwf hu
  | flr => exact exec_flr hwf hu
  | cxlReset => exact exec_cxlReset hwf hu
  | headResetDelivery => exact exec_headResetDelivery hwf hu
  | flrComplete => exact exec_flrComplete hwf hu
  | ideCheckFailure => exact exec_ideCheckFailure hwf hu
  | ideKm => exact exec_ideKm hwf hu
  | ldbindEnable => exact exec_ldbindEnable hwf hu
  | ldbindDisable => exact exec_ldbindDisable hwf hu
  | mediaReady => exact exec_mediaReady hwf hu
  | doeDiscovery => exact exec_doeDiscovery hwf hu
  | spdm => exact exec_spdm hwf hu
  | cdatTableAccess => exact exec_cdatTableAccess hwf hu
  | deckRequest => exact exec_deckRequest hwf hu
  | readCompletion => exact exec_readCompletion hwf hu
  | completionTimeout => exact exec_completionTimeout hwf hu
  | tagQuarantineEnd => exact exec_tagQuarantineEnd hwf hu
  | hdmCommit => exact exec_hdmCommit hwf hu
  | hdmCommitTakesEffect => exact exec_hdmCommitTakesEffect hwf hu
  | hdmUncommit => exact exec_hdmUncommit hwf hu
  | hdmUncommitTakesEffect => exact exec_hdmUncommitTakesEffect hwf hu
  | addCapacity => exact exec_addCapacity hwf hu
  | releaseDynamicCapacity => exact exec_releaseDynamicCapacity hwf hu
  | forcedRemoval => exact exec_forcedRemoval hwf hu
  | dcRegionConfigure => exact exec_dcRegionConfigure hwf hu
  | extentRemovalComplete => exact exec_extentRemovalComplete hwf hu
  | ldwinEnable => exact exec_ldwinEnable hwf hu
  | windowBuildComplete => exact exec_windowBuildComplete hwf hu
  | ldwinDisable => exact exec_ldwinDisable hwf hu
  | windowTeardownComplete => exact exec_windowTeardownComplete hwf hu
  | setCommit => exact exec_setCommit hwf hu
  | setCommitted => exact exec_setCommitted hwf hu
  | counterRegionReady => exact exec_counterRegionReady hwf hu
  | setUncommit => exact exec_setUncommit hwf hu
  | valueCrossingOffer => exact exec_valueCrossingOffer hwf hu
  | valueCrossingAck => exact exec_valueCrossingAck hwf hu
  | eventCrossingOffer => exact exec_eventCrossingOffer hwf hu
  | eventCrossingAck => exact exec_eventCrossingAck hwf hu
  | queueEntryOffer => exact exec_queueEntryOffer hwf hu
  | queueSlotCredit => exact exec_queueSlotCredit hwf hu
  | crossingDelivery => exact exec_crossingDelivery hwf
  | islandReset => exact exec_islandReset hwf hu
  | lagBeyondPeriod => exact exec_lagBeyondPeriod hwf hu
  | maxlagClr => exact exec_maxlagClr hwf hu
  | avsDecision => exact exec_avsDecision hu
  | avsSettleEnd => exact exec_avsSettleEnd hu
  | speedWindowEnd => exact exec_speedWindowEnd hwf hu
  | avsbusFailure => exact exec_avsbusFailure hwf hu
  | avsSetpointWrite => exact exec_avsSetpointWrite hwf hu
  | busErrClear => exact exec_busErrClear hwf hu
  | promotionStart => exact exec_promotionStart hwf hu
  | promotionCommit => exact exec_promotionCommit hwf hu
  | sheafRelease => exact exec_sheafRelease hwf hu
  | promotionHoldExpiry => exact exec_promotionHoldExpiry hwf hu
  | tedderEpoch => exact exec_tedderEpoch hwf hu
  | demotionStart => exact exec_demotionStart hwf hu
  | relocation => exact exec_relocation hwf hu
  | fallowMove => exact exec_fallowMove hwf hu
  | tedderMoveCommit => exact exec_tedderMoveCommit hwf hu
  | poolEnable => exact exec_poolEnable hwf hu
  | poolDrain => exact exec_poolDrain hwf hu
  | poolDrained => exact exec_poolDrained hwf hu
  | poolDisable => exact exec_poolDisable hwf hu
  | watermarkWrite => exact exec_watermarkWrite hwf hu
  | releaseRequestInterval => exact exec_releaseRequestInterval hu
  | balerJobWaitDispatch => exact exec_balerJobWaitDispatch hu
  | balerJobStart => exact exec_balerJobStart hwf hu
  | balerJobComplete => exact exec_balerJobComplete hwf hu
  | balerFault => exact exec_balerFault hwf hu
  | balerReset => exact exec_balerReset hwf hu
  | balEnWrite => exact exec_balEnWrite hwf hu
  | counterLineMerge => exact exec_counterLineMerge hu
  | reencryptionEntryFree => exact exec_reencryptionEntryFree hwf hu
  | reencryptionComplete => exact exec_reencryptionComplete hwf hu
  | eraseSweepComplete => exact exec_eraseSweepComplete hwf hu
  | channelReadReturn => exact exec_channelReadReturn hwf hu
  | writeAcceptance => exact exec_writeAcceptance hwf hu
  | channelCommandEntry => exact exec_channelCommandEntry hwf hu
  | commandIssue => exact exec_commandIssue hwf hu
  | pageIdleTimeout => exact exec_pageIdleTimeout hwf hu
  | refreshDue => exact exec_refreshDue hwf hu
  | nrfReseed => exact exec_nrfReseed hwf hu
  | dimmThermalRead => exact exec_dimmThermalRead hwf hu
  | sidebandError => exact exec_sidebandError hwf hu
  | pmicFault => exact exec_pmicFault hwf hu
  | channelTrainingComplete => exact exec_channelTrainingComplete hwf hu
  | trainingRecordWrite => exact exec_trainingRecordWrite hwf
  | zqCalibration => exact exec_zqCalibration hwf hu
  | dqsOscillatorRead => exact exec_dqsOscillatorRead hwf hu
  | codewordRead => exact exec_codewordRead hwf hu
  | eccWindowEnd => exact exec_eccWindowEnd hwf hu
  | scrubRead => exact exec_scrubRead hwf hu
  | spareStart => exact exec_spareStart hwf hu
  | spareCopyRead => exact exec_spareCopyRead hwf hu
  | spareCopyComplete => exact exec_spareCopyComplete hwf
  | rankRetire => exact exec_rankRetire hwf hu
  | frequencyChange => exact exec_frequencyChange hwf hu
  | frequencyChangeCheck => exact exec_frequencyChangeCheck hwf hu
  | powerDownEntry => exact exec_powerDownEntry hwf hu
  | doorbell => exact exec_doorbell hwf hu
  | descriptorFetch => exact exec_descriptorFetch hwf hu
  | crEnable => exact exec_crEnable hwf hu
  | crDisable => exact exec_crDisable hwf hu
  | cqEnable => exact exec_cqEnable hwf hu
  | cqDisable => exact exec_cqDisable hwf hu
  | cqHeadWrite => exact exec_cqHeadWrite hwf hu
  | nop => exact exec_nop hu
  | setHint => exact exec_setHint hu
  | tierPolicy => exact exec_tierPolicy hu
  | compPolicy => exact exec_compPolicy hu
  | promote => exact exec_promote hu
  | demote => exact exec_demote hu
  | fill => exact exec_fill hu
  | zero => exact exec_zero hu
  | copy => exact exec_copy hu
  | sanitize => exact exec_sanitize hu
  | capQuery => exact exec_capQuery hu
  | releaseAck => exact exec_releaseAck hu
  | snapshot => exact exec_snapshot hu
  | sampleCfg => exact exec_sampleCfg hu
  | commandComplete => exact exec_commandComplete hu
  | interruptCoalescingTimeout => exact exec_interruptCoalescingTimeout hwf hu
  | leyEnable => exact exec_leyEnable hwf hu
  | leyDisable => exact exec_leyDisable hwf hu
  | leyPartnerDetect => exact exec_leyPartnerDetect hwf hu
  | leyTrainComplete => exact exec_leyTrainComplete hwf hu
  | leyFlitReceive => exact exec_leyFlitReceive hwf hu
  | leyFlitTransmit => exact exec_leyFlitTransmit hwf hu
  | replayTimeout => exact exec_replayTimeout hwf hu
  | settledWindow => exact exec_settledWindow hwf hu
  | rtReq => exact exec_rtReq hwf hu
  | rsReq => exact exec_rsReq hwf hu
  | laneLockLoss => exact exec_laneLockLoss hwf hu
  | rtrq => exact exec_rtrq hwf hu
  | rtack => exact exec_rtack hwf hu
  | rsrq => exact exec_rsrq hwf hu
  | rsack => exact exec_rsack hwf hu
  | resizeComplete => exact exec_resizeComplete hwf hu
  | resizeTimeout => exact exec_resizeTimeout hwf hu
  | ident => exact exec_ident hwf hu
  | resync => exact exec_resync hwf hu
  | down => exact exec_down hwf hu
  | retrainStepTimeout => exact exec_retrainStepTimeout hwf hu
  | leyDownExpiry => exact exec_leyDownExpiry hwf hu
  | leyCredClr => exact exec_leyCredClr hwf hu
  | fold => exact exec_fold hwf hu
  | rd => exact exec_rd hwf hu
  | wr => exact exec_wr hwf hu
  | rdata => exact exec_rdata hwf hu
  | wacc => exact exec_wacc hwf hu
  | join => exact exec_join hwf hu
  | memberJoinReady => exact exec_memberJoinReady hu
  | joinrsp => exact exec_joinrsp hwf hu
  | regrd => exact exec_regrd hwf hu
  | regwr => exact exec_regwr hwf
  | regrsp => exact exec_regrsp hwf hu
  | record => exact exec_record hwf hu
  | foldnote => exact exec_foldnote hwf hu
  | reopen => exact exec_reopen hwf hu
  | casReopen => exact exec_casReopen hu
  | forget => exact exec_forget hu
  | memberRegAccess => exact exec_memberRegAccess hu
  | foldmapEnable => exact exec_foldmapEnable hu
  | memberRecoveryComplete => exact exec_memberRecoveryComplete hwf hu
  | memberLinkDown => exact exec_memberLinkDown hwf
  | downstreamLinkDown => exact exec_downstreamLinkDown hwf hu
  | stilePor => exact exec_stilePor hwf
  | stileEvaluationStep => exact exec_stileEvaluationStep hwf
  | qualificationComplete => exact exec_qualificationComplete hwf
  | rampTimeout => exact exec_rampTimeout hwf
  | currentLimit => exact exec_currentLimit hwf
  | faultTimerExpiry => exact exec_faultTimerExpiry hwf
  | faultTimerClear => exact exec_faultTimerClear hwf
  | fastTrip => exact exec_fastTrip hwf
  | coolExpiry => exact exec_coolExpiry hwf
  | retryCountReset => exact exec_retryCountReset hwf
  | passFetDamaged => exact exec_passFetDamaged hwf
  | oringFetDamaged => exact exec_oringFetDamaged hwf
  | reverseTurnOff => exact exec_reverseTurnOff hwf
  | pgHoldExpiry => exact exec_pgHoldExpiry
  | orderlyGateOff => exact exec_orderlyGateOff
  | latchInputLowExpiry => exact exec_latchInputLowExpiry hwf
  | stlOffNAssert => exact exec_stlOffNAssert
  | stlOffNRelease => exact exec_stlOffNRelease
  | feedEnable => exact exec_feedEnable hwf
  | feedDisable => exact exec_feedDisable hwf
  | restart => exact exec_restart hwf
  | clrFet => exact exec_clrFet hwf
  | stlVthrWrite => exact exec_stlVthrWrite hwf
  | pop => exact exec_pop
  | stileLogDrain => exact exec_stileLogDrain
  | stileLinkLost => exact exec_stileLinkLost hu
  | stileMeasurement => exact exec_stileMeasurement hwf
  | stileThermalShutdown => exact exec_stileThermalShutdown hwf
  | pwrOkRise => exact exec_pwrOkRise
  | pwrOkFall => exact exec_pwrOkFall hwf
  | powerOnResetRelease => exact exec_powerOnResetRelease hwf
  | dramReady => exact exec_dramReady hu
  | watchdogExpiry => exact exec_watchdogExpiry
  | transferFw => exact exec_transferFw hwf
  | activateFw => exact exec_activateFw hwf
  | pliuthTransfer => exact exec_pliuthTransfer hwf hu
  | pliuthCommit => exact exec_pliuthCommit hu
  | getConfigurationState => exact exec_getConfigurationState hu
  | pliuthAbort => exact exec_pliuthAbort hu
  | holdCommitReset => exact exec_holdCommitReset
  | gblReset => exact exec_gblReset
  | tallySweep => exact exec_tallySweep hwf hu
  | snapshotPass => exact exec_snapshotPass hwf hu
  | sampleRecordComplete => exact exec_sampleRecordComplete hu
  | sampleRecordWrite => exact exec_sampleRecordWrite hwf hu
  | registerWrite => exact exec_registerWrite hwf
  | invalidRegisterAccess => exact exec_invalidRegisterAccess hwf
  | gblLockSet => exact exec_gblLockSet hu
  | interruptAck => exact exec_interruptAck hu
  | thermtrip => exact exec_thermtrip hwf
  | boundaryScanInstruction => exact exec_boundaryScanInstruction hwf hu
  | controllerRestartComplete => exact exec_controllerRestartComplete hu
  | commitBurnComplete => exact (exec_commitBurnComplete hwf).trans (if_pos hu)
  | stileStandbyLoss => exact exec_stileStandbyLoss hwf
  | responseCreditReturn => exact exec_responseCreditReturn hwf hu
  | clearEventRecords => exact exec_clearEventRecords hwf hu

/-- Settles O9: the law of `exec` for each command. -/
theorem everyCommandCompletes : Obligations.EveryCommandCompletes := fun _ _ => exec_eq_effectOf

end Sys2Proof.Machine
end


section
/-! SUPPORT. The lock (R473): what a locked device's writes leave, and the commands that set GBL_LOCK and ARMED. -/

namespace Sys2Proof.Machine

open Sys2Proof

variable {d : Dev} {r : Reg} (v w : Nat)

/-- On a locked device a write of a register of RWL and reserved fields changes nothing. -/
theorem Reg.applyWrite_locked (h : ∀ f ∈ r.fieldDefs, f.acc = .rwl ∨ f.acc = .rsv) : r.applyWrite true v w = v := by
  refine foldl_preserves (P := (· = v)) (fun b f hf hb => ?_) v rfl
  rcases h f hf with hacc | hacc <;> simpa [hacc] using hb

theorem Dev.rd_writeFields_locked (hlock : d.flag .gblLock F.gblLock_LOCK = true)
    (h : ∀ f ∈ r.fieldDefs, f.acc = .rwl ∨ f.acc = .rsv) : (d.writeFields r w).rd r = d.rd r := by
  rw [Dev.writeFields, Dev.rd_wr_self, hlock, Reg.applyWrite_locked _ _ h]
  exact Nat.mod_eq_of_lt (RegFile.get_lt _ _)

theorem Dev.writeDev_gblLock_locked (hlock : d.flag .gblLock F.gblLock_LOCK = true) :
    (d.writeDev .gblLock w).rd .gblLock = d.rd .gblLock :=
  Dev.rd_writeFields_locked w hlock (by decide)

theorem Dev.writeDev_gblFtab_locked (hlock : d.flag .gblLock F.gblLock_LOCK = true) :
    (d.writeDev .gblFtab w).rd .gblFtab = d.rd .gblFtab := by
  show (if d.anyWindow then d else d.writeFields .gblFtab w).rd .gblFtab = d.rd .gblFtab
  split
  · rfl
  · exact Dev.rd_writeFields_locked w hlock (by decide)

theorem Dev.commitStatus_locked (nv : Nv) (hlock : d.flag .gblLock F.gblLock_LOCK = true) : d.commitStatus nv = 8 := if_pos hlock

/-- Settles O58: the lock is a flag that every later write of its register and of GBL_FTAB finds set. -/
theorem lockAndInterruptAck : Obligations.LockAndInterruptAck := by
  unfold Obligations.LockAndInterruptAck
  intro s
  refine ⟨fun h => ?_, fun h => ?_⟩
  · have hexec : exec .gblLockSet s = .next (s.settle (s.dev.setFlag .gblLock F.gblLock_LOCK true)) := by
      rw [exec_gblLockSet h.1, Dev.viaReg_of_reaches h (by decide)]
    have hlock : (s.dev.setFlag .gblLock F.gblLock_LOCK true).flag .gblLock F.gblLock_LOCK = true :=
      Dev.flag_setFlag_self _ _ _ (by decide) (by decide)
    exact ⟨_, hexec, hlock, (s.dev.keepsRegs_refl _).setFlag List.mem_cons_self _ _, rfl, rfl, Dev.commitStatus_locked _ hlock,
      fun w => ⟨Dev.writeDev_gblLock_locked w hlock, RegFile.fld_of_get_eq (Dev.writeDev_gblFtab_locked w hlock) _⟩⟩
  · have hexec : exec .interruptAck s = .next (s.settle (s.dev.setFlag .gblIntCtrl F.gblIntCtrl_ARMED true)) := by
      rw [exec_interruptAck h.1, Dev.viaReg_of_reaches h (by decide)]
    exact ⟨_, hexec, Dev.flag_setFlag_self _ _ _ (by decide) (by decide),
      Dev.fld_setFlag_field _ _ _ (by decide) (by decide) (by decide), (s.dev.keepsRegs_refl _).setFlag List.mem_cons_self _ _, Dev.setFlag_out _ _ _ _⟩

end Sys2Proof.Machine
end


section
/-! SUPPORT. Refused accesses (R474): what GBL_ACCERR holds of one, what a read of it answers, and that no tenant sees the register. -/

namespace Sys2Proof.Machine

open Sys2Proof

variable (d : Dev) {view : RegView} {h off size cause mgt ld : Nat}

/-! ### GBL_ACCERR -/

/-- A refused access is counted. -/
def Dev.accCounted (d : Dev) : Dev := d.bumpFld .gblAccerr F.gblAccerr_COUNT

/-- A refused access is described. -/
def Dev.accDescribed (d : Dev) (cause h mgt ld off : Nat) : Dev :=
  (((((d.setFlag .gblAccerr F.gblAccerr_SEEN true).setFld .gblAccerr F.gblAccerr_CAUSE cause).setFld .gblAccerr F.gblAccerr_HEAD
    (h % 8)).setFld .gblAccerr F.gblAccerr_MGT mgt).setFld .gblAccerr F.gblAccerr_LD ld).setFld .gblAccerr F.gblAccerr_OFFSET off

/-- MGT of an access through a view. -/
def RegView.mgtBit (view : RegView) : Nat := match view with | .tenant _ => 0 | _ => 1

/-- LD of an access through a view. -/
def RegView.accLd (view : RegView) : Nat := match view with | .tenant n => n | _ => 0

theorem Dev.accErr_seen (hs : d.flag .gblAccerr F.gblAccerr_SEEN = true) : d.accErr view h off cause = d.accCounted := by
  unfold Dev.accErr
  exact if_pos hs

theorem Dev.accErr_unseen (hs : d.flag .gblAccerr F.gblAccerr_SEEN = false) :
    d.accErr view h off cause = d.accCounted.accDescribed cause h view.mgtBit view.accLd off := by
  unfold Dev.accErr
  refine (if_neg (by simp [hs])).trans ?_
  cases view <;> rfl

theorem Dev.accCounted_count : d.accCounted.fld .gblAccerr F.gblAccerr_COUNT = min (d.fld .gblAccerr F.gblAccerr_COUNT + 1) (2 ^ 16 - 1) := by
  unfold Dev.accCounted Dev.bumpFld
  rw [Dev.fld_setFld_self _ _ _ (by decide) (by decide)]
  refine Nat.mod_eq_of_lt ?_
  exact lt_of_le_of_lt (min_le_right _ _) (by decide)

theorem Dev.accCounted_field {g : Fld} (h64 : g.hi < 64) (hg : g.hi < 32 ∨ 47 < g.lo) :
    d.accCounted.fld .gblAccerr g = d.fld .gblAccerr g := Dev.fld_setFld_field _ _ _ (by decide) h64 hg

theorem Dev.accDescribed_count :
    (d.accDescribed cause h mgt ld off).fld .gblAccerr F.gblAccerr_COUNT = d.fld .gblAccerr F.gblAccerr_COUNT := by
  unfold Dev.accDescribed
  repeat rw [Dev.fld_setFld_field _ _ _ (by decide) (by decide) (by decide)]
  exact Dev.fld_setFlag_field _ _ _ (by decide) (by decide) (by decide)

theorem Dev.accDescribed_seen : (d.accDescribed cause h mgt ld off).flag .gblAccerr F.gblAccerr_SEEN = true := by
  unfold Dev.accDescribed
  repeat rw [Dev.flag_setFld_field _ _ _ (by decide) (by decide) (by decide)]
  exact Dev.flag_setFlag_self _ _ _ (by decide) (by decide)

theorem Dev.accDescribed_fields :
    let e := d.accDescribed cause h mgt ld off
    e.fld .gblAccerr F.gblAccerr_CAUSE = cause % 8 ∧ e.fld .gblAccerr F.gblAccerr_HEAD = h % 8 % 8 ∧
      e.fld .gblAccerr F.gblAccerr_OFFSET = off % 2 ^ 25 ∧ e.fld .gblAccerr F.gblAccerr_MGT = mgt % 2 ∧
      e.fld .gblAccerr F.gblAccerr_LD = ld % 16 := by
  unfold Dev.accDescribed
  dsimp only
  refine ⟨?_, ?_, ?_, ?_, ?_⟩
  all_goals
    repeat rw [Dev.fld_setFld_field _ _ _ (by decide) (by decide) (by decide)]
    exact Dev.fld_setFld_self _ _ _ (by decide) (by decide)

/-- A record of an access is in GBL_ACCERR alone. -/
theorem Dev.keepsRegs_accErr : d.keepsRegs (d.accErr view h off cause) [.gblAccerr] := by
  have hself : Reg.gblAccerr ∈ [Reg.gblAccerr] := List.mem_cons_self
  have hcount : d.keepsRegs d.accCounted [.gblAccerr] := (d.keepsRegs_refl _).setFld hself _ _
  cases hs : d.flag .gblAccerr F.gblAccerr_SEEN with
  | true => rwa [d.accErr_seen hs]
  | false =>
    rw [d.accErr_unseen hs]
    unfold Dev.accDescribed
    exact (((((hcount.setFlag hself _ _).setFld hself _ _).setFld hself _ _).setFld hself _ _).setFld hself _ _).setFld hself _ _

theorem Dev.accErr_keeps {γ : Type} (p : Dev → γ) (hset : ∀ (e : Dev) f x, p (e.setFld .gblAccerr f x) = p e) :
    p (d.accErr view h off cause) = p d := by
  cases hs : d.flag .gblAccerr F.gblAccerr_SEEN with
  | true =>
    rw [d.accErr_seen hs]
    exact hset _ _ _
  | false =>
    rw [d.accErr_unseen hs]
    unfold Dev.accDescribed Dev.setFlag
    repeat rw [hset]
    exact hset _ _ _

theorem Dev.accErr_count : (d.accErr view h off cause).fld .gblAccerr F.gblAccerr_COUNT =
    min (d.fld .gblAccerr F.gblAccerr_COUNT + 1) (2 ^ 16 - 1) := by
  cases hs : d.flag .gblAccerr F.gblAccerr_SEEN with
  | true => rw [d.accErr_seen hs, d.accCounted_count]
  | false => rw [d.accErr_unseen hs, Dev.accDescribed_count, d.accCounted_count]

theorem Dev.accErr_flag : (d.accErr view h off cause).flag .gblAccerr F.gblAccerr_SEEN = true := by
  cases hs : d.flag .gblAccerr F.gblAccerr_SEEN with
  | true =>
    rw [d.accErr_seen hs]
    exact (congrArg (· != 0) (d.accCounted_field (by decide) (by decide))).trans hs
  | false => rw [d.accErr_unseen hs, Dev.accDescribed_seen]

/-! ### What a read that is refused answers -/

theorem Dev.readAccess_refused (st : Stile) (hc : d.accessCause view off size = some cause) :
    d.readAccess st view off size = if cause = 3 then 2 ^ (8 * size) - 1 else 0 := by
  have hcfg : ¬ view.isConfig = true := fun h => by simp [Dev.accessCause, h] at hc
  unfold Dev.readAccess
  rw [if_neg hcfg, hc]
  split
  · next h => cases h; rfl
  · next hne h =>
    cases h
    rw [if_neg hne]
  · next h => cases h

theorem Dev.readSlot_lt (st : Stile) (x : RegSlot) : d.readSlot st x < 2 ^ 32 := Nat.mod_lt _ (by decide)

theorem Dev.readAccess_open (st : Stile) (hcfg : ¬ view.isConfig = true) (hc : d.accessCause view off size = none) :
    d.readAccess st view off size = ((List.range (size / 4)).map fun i =>
      ((view.slot (off + 4 * i)).map (d.readSlot st)).getD 0 * 2 ^ (32 * i)).sum := by
  unfold Dev.readAccess
  rw [if_neg hcfg, hc]

theorem sum_two_dwords (f : Nat → Nat) : ((List.range (8 / 4)).map fun i => f i * 2 ^ (32 * i)).sum = f 0 + f 1 * 2 ^ 32 := by
  rw [show List.range (8 / 4) = [0, 1] from rfl, List.map_cons, List.map_cons, List.map_nil, List.sum_cons, List.sum_cons, List.sum_nil,
    Nat.mul_zero, pow_zero, Nat.mul_one, Nat.mul_one, Nat.add_zero]

/-- A read whose address holds no register in one of its dwords reads zero there. -/
theorem Dev.readAccess_hole (st : Stile) {o : Nat} (hc : d.accessCause view off size = none) (hole : view.hole off size = some o) :
    d.readAccess st view off size < 2 ^ 64 ∧ d.readAccess st view off size / 2 ^ (8 * (o - off)) % 2 ^ 32 = 0 := by
  unfold RegView.hole at hole
  split at hole
  · cases hole
  next h =>
  simp only [Bool.or_eq_true, bne_iff_ne, ne_eq, not_or, not_not] at h
  obtain ⟨hcfg, rfl⟩ := h
  have hread : d.readAccess st view off 8 =
      ((view.slot off).map (d.readSlot st)).getD 0 + ((view.slot (off + 4)).map (d.readSlot st)).getD 0 * 2 ^ 32 := by
    rw [d.readAccess_open st hcfg hc]
    exact sum_two_dwords fun i => ((view.slot (off + 4 * i)).map (d.readSlot st)).getD 0
  have hlt (x : Option RegSlot) : (x.map (d.readSlot st)).getD 0 < 2 ^ 32 := by
    cases x with
    | none => exact Nat.two_pow_pos 32
    | some x => exact d.readSlot_lt st x
  have hlow := hlt (view.slot off)
  have hhigh := hlt (view.slot (off + 4))
  have ho : o = off ∧ view.slot off = none ∨ o = off + 4 ∧ view.slot (off + 4) = none := by
    have hmem := List.mem_of_head? hole
    simp only [List.mem_filter, List.mem_cons, List.not_mem_nil, or_false, Option.isNone_iff_eq_none] at hmem
    obtain ⟨rfl | rfl, hnone⟩ := hmem
    · exact .inl ⟨rfl, hnone⟩
    · exact .inr ⟨rfl, hnone⟩
  rw [hread]
  refine ⟨by omega, ?_⟩
  rcases ho with ⟨rfl, hnone⟩ | ⟨rfl, hnone⟩
  · rw [hnone]
    simp
  · rw [hnone, show 8 * (off + 4 - off) = 32 by omega]
    simp only [Option.map_none, Option.getD_none]
    omega

/-! ### Where GBL_ACCERR stands -/

theorem findSome?_ne_of_not_mem {l : List (Option Reg)} {r : Reg} (h : some r ∉ l) : l.findSome? id ≠ some r := fun hl => by
  obtain ⟨x, hx, rfl⟩ := List.exists_of_findSome?_eq_some hl
  exact h hx

/-- No block from the rings on has GBL_ACCERR. -/
theorem regAt_ne_gblAccerr (h : 0xE00000 ≤ off) : regAt off ≠ some .gblAccerr := by
  have hblock : off / 0x100000 = 14 ∨ off / 0x100000 = 15 ∨ off / 0x100000 = 16 ∨ off / 0x100000 = 17 ∨ off / 0x100000 = 18 ∨
      19 ≤ off / 0x100000 := by omega
  rcases hblock with hk | hk | hk | hk | hk | hk
  · rw [regAt, hk]
    exact findSome?_ne_of_not_mem (by simp)
  · rw [regAt, hk]
    exact findSome?_ne_of_not_mem (by simp)
  · rw [regAt, hk]
    exact findSome?_ne_of_not_mem (by simp)
  · rw [regAt, hk]
    exact findSome?_ne_of_not_mem (by simp)
  · rw [regAt, hk]
    exact findSome?_ne_of_not_mem (by simp)
  · unfold regAt
    split
    case h_17 => nofun
    all_goals omega

theorem mgmtSlot_ne_gblAccerr (h : 0xE00000 ≤ off) {x : RegSlot} (hx : mgmtSlot off = some x) : x.reg ≠ some .gblAccerr := by
  unfold mgmtSlot at hx
  rw [if_neg (by omega), if_neg (by omega)] at hx
  intro hreg
  have hlow : off % 8 = 4 → 0xE00000 ≤ off - 4 := by omega
  cases hat : regAt off with
  | some r =>
    rw [hat] at hx
    refine regAt_ne_gblAccerr h (hat.trans (Eq.trans ?_ hreg))
    cases hx
    split <;> rfl
  | none =>
    rw [hat] at hx
    dsimp only at hx
    split at hx
    · next r hat' =>
      split at hat'
      · next h4 =>
        refine regAt_ne_gblAccerr (hlow h4) (hat'.trans (Eq.trans ?_ hreg))
        split at hx <;> cases hx
        rfl
      · cases hat'
    · obtain ⟨id, -, rfl⟩ := Option.map_eq_some_iff.mp hx
      cases hreg

theorem tenantSlot_ne_gblAccerr {n : Nat} {x : RegSlot} (hx : tenantSlot n off = some x) : x.reg ≠ some .gblAccerr := by
  unfold tenantSlot at hx
  split_ifs at hx
  · cases hx
    nofun
  · cases hx
    nofun
  · split at hx
    · cases hx
    · exact mgmtSlot_ne_gblAccerr (by omega) hx
  · cases hx
    nofun
  · cases hx
    nofun
  · cases hx
    nofun
  · cases hx
    nofun
  · cases hx
    nofun
  · cases hx
    nofun

/-! ### The two commands -/

theorem Dev.unreached_beside : d.keepsRegs (d.unreached h) [] ∧ (d.unreached h).home = d.home := by
  unfold Dev.unreached
  split
  · obtain ⟨f, sev, ⟨c, rfl⟩, heq⟩ := d.aer_cases h 0xFF .unsupportedRequest
    rw [heq]
    exact ⟨Dev.keepsRegs_of_regs_eq rfl, rfl⟩
  · exact ⟨d.keepsRegs_refl _, rfl⟩

section
variable {d} {s : State} {st : Stile} {write : Bool} {fn v : Nat}

theorem Dev.invalidAccess_unreached (hr : d.reaches h fn = false) : d.invalidAccess st view h off size write fn = d.unreached h :=
  if_pos (by rw [hr]; rfl)

theorem Dev.invalidAccess_write_open (hr : d.reaches h fn = true) (hc : d.accessCause view off size = none) :
    d.invalidAccess st view h off size true fn = d := by
  unfold Dev.invalidAccess
  rw [if_neg (by simp [hr]), hc]
  rfl

theorem Dev.invalidAccess_read_open (hr : d.reaches h fn = true) (hc : d.accessCause view off size = none) :
    d.invalidAccess st view h off size false fn = (match view.hole off size with
      | some o => (d.accErr view h o 1).emit (.readData fn off (d.readAccess st view off size))
      | none => d) := by
  unfold Dev.invalidAccess
  rw [if_neg (by simp [hr]), hc]
  rfl

theorem Dev.invalidAccess_refused (hr : d.reaches h fn = true) (hc : d.accessCause view off size = some cause) :
    d.invalidAccess st view h off size write fn =
      if write then d.accErr view h off cause
      else (d.accErr view h off cause).emit (.readData fn off (if cause = 3 then 2 ^ (8 * size) - 1 else 0)) := by
  unfold Dev.invalidAccess
  rw [if_neg (by simp [hr]), hc, ← d.readAccess_refused st hc]

theorem State.registerWrite_unreached (hp : s.powered = true) (hr : s.dev.reaches h view.fn = false) :
    s.registerWrite view h off size v = s.settle (s.dev.unreached h) := by
  unfold State.registerWrite
  rw [if_neg (by simp [hp]), if_pos (by simp [hr])]

theorem State.registerWrite_refused (hp : s.powered = true) (hr : s.dev.reaches h view.fn = true)
    (hc : s.dev.accessCause view off size = some cause) :
    s.registerWrite view h off size v = s.settle (s.dev.accErr view h off cause) := by
  have hcfg : ¬ view.isConfig = true := fun h => by simp [Dev.accessCause, h] at hc
  unfold State.registerWrite
  rw [if_neg (by simp [hp]), if_neg (by simp [hr]), if_neg hcfg, hc]

end

theorem RegView.accLd_lt (hv : view.ok = true) : view.accLd < 16 := by
  cases view with
  | tenant n => exact of_decide_eq_true hv
  | mgmt => exact Nat.zero_lt_succ _
  | config n => exact Nat.zero_lt_succ _

theorem RegView.mgtBit_lt : view.mgtBit < 2 := by
  unfold RegView.mgtBit
  split <;> omega

/-- The description that GBL_ACCERR takes while SEEN is clear. -/
theorem Dev.accErr_fields (hs : d.flag .gblAccerr F.gblAccerr_SEEN = false) (hv : view.ok = true) (hoff : off < 2 ^ 25) :
    let e := d.accErr view h off cause
    e.fld .gblAccerr F.gblAccerr_CAUSE = cause % 8 ∧ e.fld .gblAccerr F.gblAccerr_HEAD = h % 8 ∧
      e.fld .gblAccerr F.gblAccerr_OFFSET = off ∧ e.fld .gblAccerr F.gblAccerr_MGT = view.mgtBit ∧
      e.fld .gblAccerr F.gblAccerr_LD = view.accLd := by
  obtain ⟨hcause, hhead, hoffset, hmgt, hld⟩ := d.accCounted.accDescribed_fields (cause := cause) (h := h) (mgt := view.mgtBit)
    (ld := view.accLd) (off := off)
  rw [d.accErr_unseen hs]
  exact ⟨hcause, hhead.trans (Nat.mod_mod _ _), hoffset.trans (Nat.mod_eq_of_lt hoff), hmgt.trans (Nat.mod_eq_of_lt RegView.mgtBit_lt),
    hld.trans (Nat.mod_eq_of_lt (RegView.accLd_lt hv))⟩

/-- While SEEN is set only COUNT changes. -/
theorem Dev.accErr_keeps_fields (hs : d.flag .gblAccerr F.gblAccerr_SEEN = true) :
    ∀ f ∈ [F.gblAccerr_CAUSE, F.gblAccerr_HEAD, F.gblAccerr_MGT, F.gblAccerr_LD, F.gblAccerr_OFFSET],
      (d.accErr view h off cause).fld .gblAccerr f = d.fld .gblAccerr f := by
  rw [d.accErr_seen hs]
  have hfields : ∀ f ∈ [F.gblAccerr_CAUSE, F.gblAccerr_HEAD, F.gblAccerr_MGT, F.gblAccerr_LD, F.gblAccerr_OFFSET],
      f.hi < 64 ∧ (f.hi < 32 ∨ 47 < f.lo) := by decide
  exact fun f hf => d.accCounted_field (hfields f hf).1 (hfields f hf).2

/-- Settles O55: an access comes to the same record whichever command makes it. -/
theorem refusedAccesses : Obligations.RefusedAccesses := by
  unfold Obligations.RefusedAccesses
  refine ⟨fun s view h off size hp hv hh hoff => ?_, fun _ _ _ => tenantSlot_ne_gblAccerr⟩
  have hbad (write : Bool) : exec (.invalidRegisterAccess view h off size write) s =
      .next (s.settle (s.dev.invalidAccess s.stile view h off size write view.fn)) := by
    rw [exec_invalidRegisterAccess (by simp [Instr.wf, hv, hh]; omega), State.bothPowered_same hp rfl]
  have hwrite (v : Nat) (hv64 : v < 2 ^ 64) (hsize : size = 4 ∨ size = 8) : exec (.registerWrite view h off size v) s =
      .next (s.registerWrite view h off size v) := exec_registerWrite (by simp [Instr.wf, hv, hh, hsize]; omega)
  refine ⟨fun hr => ?_, fun hr hc => ⟨?_, fun hole => ?_, fun o hole => ?_⟩, fun c hr hc => ?_⟩
  · refine ⟨s.dev.unreached h, s.dev.unreached_beside.1, s.dev.unreached_beside.2, fun write => ?_, fun v hv64 hsize => ?_⟩
    · exact (hbad write).trans (by rw [Dev.invalidAccess_unreached hr])
    · rw [hwrite v hv64 hsize, State.registerWrite_unreached hp hr]
  · exact (hbad true).trans (by rw [Dev.invalidAccess_write_open hr hc])
  · exact (hbad false).trans (by rw [Dev.invalidAccess_read_open hr hc, hole])
  · obtain ⟨hlt, hzero⟩ := s.dev.readAccess_hole s.stile hc hole
    refine ⟨s.dev.readAccess s.stile view off size, hlt, hzero, ?_⟩
    exact (hbad false).trans (by rw [Dev.invalidAccess_read_open hr hc, hole])
  · refine ⟨s.dev.accErr view h off c, ?_, ?_, fun v hv64 hsize => ?_, s.dev.accErr_keeps Dev.out (fun _ _ _ => rfl),
      s.dev.accErr_keeps Dev.home (fun _ _ _ => rfl), s.dev.accErr_keeps Dev.rng (fun _ _ _ => rfl), s.dev.keepsRegs_accErr,
      s.dev.accErr_count, s.dev.accErr_flag, fun hs => s.dev.accErr_fields hs hv hoff, s.dev.accErr_keeps_fields⟩
    · exact (hbad true).trans (by rw [Dev.invalidAccess_refused hr hc, if_pos rfl])
    · exact (hbad false).trans (by rw [Dev.invalidAccess_refused hr hc, if_neg Bool.false_ne_true])
    · rw [hwrite v hv64 hsize, State.registerWrite_refused hp hr hc]

end Sys2Proof.Machine
end


section
/-! SUPPORT. Writes of registers and of configuration space (R461, R467): the write of a plain register, a host error of a tenant's ring
set, and the bits of a dword of configuration space. -/

namespace Sys2Proof.Machine

open Sys2Proof

variable (d : Dev) {n off v : Nat}

/-! ### Bits -/

theorem add_eq_lor_of_disjoint {a b : Nat} (h : a &&& b = 0) : a + b = a ||| b := by
  have hlt : a + b < 2 ^ (a + b) := Nat.lt_two_pow_self
  have ha : a % 2 ^ (a + b) = a := Nat.mod_eq_of_lt (by omega)
  have hb : b % 2 ^ (a + b) = b := Nat.mod_eq_of_lt (by omega)
  have hzero : BitVec.ofNat (a + b) a &&& BitVec.ofNat (a + b) b = 0#(a + b) :=
    BitVec.eq_of_toNat_eq (by rw [BitVec.toNat_and, BitVec.toNat_ofNat, BitVec.toNat_ofNat, ha, hb, h, BitVec.toNat_ofNat, Nat.zero_mod])
  have hsum := congrArg BitVec.toNat (BitVec.add_eq_or_of_and_eq_zero _ _ hzero)
  rw [BitVec.toNat_add, BitVec.toNat_or, BitVec.toNat_ofNat, BitVec.toNat_ofNat, ha, hb, Nat.mod_eq_of_lt hlt] at hsum
  exact hsum

theorem sub_land_eq_ldiff (a m : Nat) : a - (a &&& m) = Nat.ldiff a m := by
  have hdisjoint : (a &&& m) &&& Nat.ldiff a m = 0 := Nat.eq_of_testBit_eq fun i => by
    simp only [Nat.testBit_and, Nat.testBit_ldiff, Nat.zero_testBit]
    cases a.testBit i <;> cases m.testBit i <;> rfl
  have hunion : (a &&& m) ||| Nat.ldiff a m = a := Nat.eq_of_testBit_eq fun i => by
    simp only [Nat.testBit_or, Nat.testBit_and, Nat.testBit_ldiff]
    cases a.testBit i <;> cases m.testBit i <;> rfl
  have hsum := add_eq_lor_of_disjoint hdisjoint
  omega

/-- A write that stores the bits of `rw`, clears the bits of `w1c` that it sets, and keeps the rest. -/
theorem testBit_stored (old rw w1c v b : Nat) : ((old - (old &&& (rw ||| (w1c &&& v)))) + (v &&& rw)).testBit b =
    if rw.testBit b then v.testBit b else old.testBit b && !(w1c.testBit b && v.testBit b) := by
  rw [sub_land_eq_ldiff, add_eq_lor_of_disjoint]
  · simp only [Nat.testBit_or, Nat.testBit_and, Nat.testBit_ldiff]
    cases rw.testBit b <;> simp
  · refine Nat.eq_of_testBit_eq fun i => ?_
    simp only [Nat.testBit_or, Nat.testBit_and, Nat.testBit_ldiff, Nat.zero_testBit]
    cases rw.testBit i <;> simp

/-! ### Configuration space -/

/-- The host error of a Completion Timeout Value that does not exist. -/
def Dev.timeoutChecked (d : Dev) (n off v : Nat) : Dev :=
  if off = 0x78 ∧ !([0, 1, 2, 5, 6, 9, 10, 13, 14].contains (v % 16)) then d.goWild n else d

/-- What a dword of configuration space holds after a write. -/
def Dev.cfgStored (d : Dev) (n off v : Nat) : Nat :=
  (d.cfg n off - (d.cfg n off &&& (cfgRw n off ||| (cfgRw1c off &&& v)))) + (v &&& cfgRw n off)

theorem Dev.cfgWrite_state (h : off = 0x44 ∧ (v % 4 = 1 ∨ v % 4 = 2)) : d.cfgWrite n off v = d := if_pos h

theorem Dev.cfgWrite_stores (h : ¬ (off = 0x44 ∧ (v % 4 = 1 ∨ v % 4 = 2))) :
    d.cfgWrite n off v = (d.timeoutChecked n off v).setCfg n off (d.cfgStored n off v) := if_neg h

theorem Dev.timeoutChecked_keeps {γ : Type} (p : Dev → γ) (h : p (d.goWild n) = p d) : p (d.timeoutChecked n off v) = p d := by
  unfold Dev.timeoutChecked
  split
  · exact h
  · rfl

theorem Dev.goWild_cfg (n m o : Nat) : (d.goWild n).cfg m o = d.cfg m o := by
  unfold Dev.goWild
  split <;> rfl

theorem Dev.cfg_setCfg_self (n off v : Nat) : (d.setCfg n off v).cfg n off = v := kvGet_set_self _ _ _ _

theorem Dev.cfg_setCfg_other {m o : Nat} (h : m * 2 ^ 12 + o ≠ n * 2 ^ 12 + off) (v : Nat) : (d.setCfg n off v).cfg m o = d.cfg m o :=
  kvGet_set_other _ _ h.symm _

theorem Dev.timeoutChecked_wild (hn : n < 16) (hv : v % 16 ∉ [0, 1, 2, 5, 6, 9, 10, 13, 14]) :
    (d.timeoutChecked n 0x78 v).isWild n = true := by
  rw [Dev.timeoutChecked, if_pos ⟨rfl, by simpa using hv⟩]
  exact d.isWild_goWild_self hn

/-! ### One register -/

section
variable {d} {s : State} {st : Stile} {view : RegView} {h : Nat} {r : Reg}

/-- A write of one dword that holds a whole register is a write of that register. -/
theorem Dev.writeAccess_whole (nv : Nv) (hslot : view.slot off = some (.whole r)) (hv : v < 2 ^ 32) :
    Dev.writeAccess nv (d, st) view h off 4 v = Dev.writeReg nv (d, st) r v := by
  show (match view.slot (off + 4 * 0) with
    | some x => Dev.writeDword nv (d, st) x (v / 2 ^ (32 * 0) % 2 ^ 32)
    | none => (d.accErr view h (off + 4 * 0) 1, st)) = _
  rw [Nat.mul_zero, Nat.add_zero, hslot]
  dsimp only
  rw [pow_zero, Nat.div_one, Nat.mod_eq_of_lt hv]
  rfl

theorem Dev.writeReg_hostError (nv : Nv) (hrsv : r.rsvError v = true) (hring : r.ringLd = some n) :
    Dev.writeReg nv (d, st) r v = (d.goWild n, st) := by
  unfold Dev.writeReg
  rw [if_pos hrsv, hring]

/-- A write of a register of no ring set, which a member shows, and which is neither on Stile nor GBL_RESET. -/
theorem Dev.writeReg_plain (nv : Nv) (hring : r.ringLd = none) (hcas : d.casHidden r = false)
    (hstile : ¬ (0x1000000 ≤ r.offset ∧ r.offset < 0x1100000)) (hreset : r ≠ .gblReset) :
    Dev.writeReg nv (d, st) r v = (d.writeDev r v, st) := by
  have hnone : (if r.rsvError v then r.ringLd else none) = none := by rw [hring, ite_self]
  unfold Dev.writeReg
  rw [hnone]
  dsimp only
  rw [if_neg (by simp [hcas]), if_neg hstile, if_neg hreset]

theorem State.registerWrite_open (hp : s.powered = true) (hr : s.dev.reaches h view.fn = true) (hcfg : view.isConfig = false)
    (hc : s.dev.accessCause view off 4 = none) {e : Dev} (hw : Dev.writeAccess s.nv (s.dev, s.stile) view h off 4 v = (e, s.stile)) :
    s.registerWrite view h off 4 v = (s.finish e).keepFailed := by
  unfold State.registerWrite
  rw [if_neg (by simp [hp]), if_neg (by simp [hr]), if_neg (by simp [hcfg]), hc, hw]
  dsimp only
  rw [Dev.stileNote_same]

theorem State.registerWrite_config {size : Nat} (hp : s.powered = true) (hr : s.dev.reaches h n = true) :
    s.registerWrite (.config n) h off size v = s.settle (s.dev.configAccess n off size v) := by
  unfold State.registerWrite
  rw [if_neg (by simp [hp]), if_neg (by simpa [RegView.fn] using hr), if_pos (show (RegView.config n).isConfig = true from rfl)]
  rfl

end

/-- Registers that hold plain fields: each stands whole at its offset, on no ring set, and its write is that of its fields. -/
def plainRegs : List Reg := [.gblIntEn, .crossIntEn0, .talCtrl, .gblAvsCtrl, .gblLock]

theorem plainRegs_slot : ∀ r ∈ plainRegs, RegView.slot .mgmt r.offset = some (.whole r) := by
  decide

theorem plainRegs_apart : ∀ r ∈ plainRegs, r.ringLd = none ∧ (r.offset < 0xD00000 ∨ 0xE00000 ≤ r.offset) ∧
    ¬ (0x1000000 ≤ r.offset ∧ r.offset < 0x1100000) ∧ r ≠ .gblReset ∧ r.offset < 2 ^ 25 := by
  decide

theorem Dev.writeDev_plain : ∀ r ∈ plainRegs, d.writeDev r v = d.writeFields r v := by
  simp only [plainRegs, List.mem_cons, List.not_mem_nil, or_false, forall_eq_or_imp, forall_eq]
  exact ⟨rfl, rfl, rfl, rfl, rfl⟩

/-- Settles O57: a write goes to the one register, or dword, that stands at its offset. -/
theorem registerWrites : Obligations.RegisterWrites := by
  unfold Obligations.RegisterWrites
  intro s h v hp hh hv
  have hexec {view : RegView} {off size : Nat} (hok : view.ok = true) (hoff : off < 2 ^ 25) (hsize : size = 4 ∨ size = 8) :
      exec (.registerWrite view h off size v) s = .next (s.registerWrite view h off size v) :=
    exec_registerWrite (by simp [Instr.wf, hok, hh, hsize]; omega)
  refine ⟨fun r hmem hr hc => ?_, fun n off r hn hoff hslot hring hrsv hr hc => ?_, fun n off hok hr hoff hal => ?_,
    fun n off size hok hr hoff hsize hout => ?_⟩
  · obtain ⟨hring, hcas, hstile, hreset, hoff⟩ := plainRegs_apart r hmem
    have hw : Dev.writeAccess s.nv (s.dev, s.stile) .mgmt h r.offset 4 v = (s.dev.writeFields r v, s.stile) := by
      rw [Dev.writeAccess_whole s.nv (plainRegs_slot r hmem) hv,
        Dev.writeReg_plain s.nv hring (Dev.casHidden_outside _ hcas) hstile hreset, Dev.writeDev_plain _ r hmem]
    exact (hexec rfl hoff (.inl rfl)).trans (by rw [State.registerWrite_open hp hr rfl hc hw, Dev.writeFields])
  · refine ⟨s.dev.goWild n, (hexec (view := .tenant n) (decide_eq_true hn) hoff (.inl rfl)).trans ?_, s.dev.isWild_goWild_self hn,
      fun m hm => s.dev.isWild_goWild_other hm, s.dev.goWild_regs n, s.dev.goWild_out n⟩
    rw [State.registerWrite_open hp hr rfl hc
      ((Dev.writeAccess_whole s.nv hslot hv).trans (Dev.writeReg_hostError s.nv hrsv hring))]
  · have hrun : exec (.registerWrite (.config n) h off 4 v) s = .next (s.settle (s.dev.cfgWrite n off v)) := by
      rw [hexec hok (by omega) (.inl rfl), State.registerWrite_config hp hr, Dev.configAccess, if_pos ⟨hoff, hal, rfl⟩]
    refine ⟨fun hstate => hrun.trans (by rw [Dev.cfgWrite_state _ hstate]), fun hstate => ?_⟩
    rw [Dev.cfgWrite_stores _ hstate] at hrun
    refine ⟨_, hrun, fun b => ?_, fun m o hmo => ?_, ?_, ?_, ?_⟩
    · rw [Dev.cfg_setCfg_self]
      exact testBit_stored _ _ _ _ b
    · rw [Dev.cfg_setCfg_other _ hmo]
      exact s.dev.timeoutChecked_keeps (fun e => e.cfg m o) (s.dev.goWild_cfg n m o)
    · exact s.dev.timeoutChecked_keeps Dev.regs (s.dev.goWild_regs n)
    · exact s.dev.timeoutChecked_keeps Dev.out (s.dev.goWild_out n)
    · rintro rfl hv hn
      exact s.dev.timeoutChecked_wild hn hv
  · rw [hexec hok hoff hsize, State.registerWrite_config hp hr, Dev.configAccess, if_neg hout]

end Sys2Proof.Machine
end


section
/-! SUPPORT. A request past the last credit of its head (O17, O18; R46, R52): the overrun flag that it sets raises a record where its
enable is set, and the record's event interrupt is one more effect of the request. A die whose cipher results keep all the internal steps of a
command busy shows that this message comes from nothing else. -/

namespace Sys2Proof.Machine

open Sys2Proof

variable {d : Dev} {n : Nat}

/-! ### A die whose internal steps hand over cipher results only -/

/-- A result of the cipher units that nobody waits for. -/
def idleResult : AccOwner × Nat × AccRes := (.none, 0, .accepted)

/-- The next `n` internal steps hand over results that nobody waits for. -/
def Dev.clogged (d : Dev) (n : Nat) : Prop := d.cip.accs = [] ∧ d.cip.done = List.replicate n idleResult

theorem Dev.pumpStep_clogged (m : Dram) (h : d.clogged (n + 1)) :
    d.pumpStep m = some (d.modCip fun c => { c with done := List.replicate n idleResult }) := by
  obtain ⟨haccs, hdone⟩ := h
  have hacc : d.accPass m = none := by rw [Dev.accPass, haccs, Dev.accPassGo]
  have hcip : d.cipDeliver = some (d.modCip fun c => { c with done := List.replicate n idleResult }) := by
    rw [Dev.cipDeliver, hdone, List.replicate_succ]
    rfl
  rw [Dev.pumpStep, hacc, hcip]
  rfl

theorem Dev.pump_clogged (m : Dram) (d : Dev) (h : d.clogged n) : (Dev.pump m n d).out = d.out ∧ (Dev.pump m n d).regs = d.regs := by
  induction n generalizing d with
  | zero => exact ⟨rfl, rfl⟩
  | succ n ih =>
    rw [Dev.pump, Dev.pumpStep_clogged m h]
    exact ih _ ⟨h.1, rfl⟩

/-- Pages that are taken again add requests, and are marked in their commands. -/
theorem Dev.takePage_keeps {γ : Type} (p : Dev → γ) (hhome : ∀ (e : Dev) f, p (e.modHome f) = p e) (hrng : ∀ (e : Dev) f, p (e.modRng f) = p e)
    (d : Dev) (c : RingCmd) : p (d.takePage c) = p d := by
  unfold Dev.takePage
  dsimp only
  rw [Dev.modCmd, hrng]
  refine foldl_keeps p (fun e i => ?_) _ d
  rw [Dev.ringTxn, Dev.addTxn, hhome]

theorem Dev.retakePages_keeps {γ : Type} (p : Dev → γ) (hhome : ∀ (e : Dev) f, p (e.modHome f) = p e)
    (hrng : ∀ (e : Dev) f, p (e.modRng f) = p e) (d : Dev) : p d.retakePages = p d :=
  foldl_keeps p (fun e _ => Dev.takePage_keeps p hhome hrng e _) _ d

/-- With every interrupt masked the end of a command sends nothing. -/
theorem State.settle_masked (s : State) (hint : d.rd .gblIntEn = 0) : (s.settle d).dev.out = d.out := by
  have hquiet : ¬ (d.flag .gblIntCtrl F.gblIntCtrl_ARMED = true ∧ d.intStat s.stile &&& d.rd .gblIntEn ≠ 0) := by
    rintro ⟨-, hne⟩
    exact hne (by rw [hint, Nat.and_zero])
  obtain ⟨-, hsettle, -⟩ := endOfCommand s d
  rw [hsettle hquiet]

theorem State.finish_clogged (s : State) (h : d.clogged pumpFuel) (hint : d.rd .gblIntEn = 0) : (s.finish d).dev.out = d.out := by
  have hout := Dev.retakePages_keeps Dev.out Dev.modHome_out Dev.modRng_out d
  have hcip := Dev.retakePages_keeps Dev.cip Dev.modHome_cip Dev.modRng_cip d
  have hregs := Dev.retakePages_keeps Dev.regs Dev.modHome_regs Dev.modRng_regs d
  rw [State.finish]
  generalize pumpFuel = n at h ⊢
  obtain ⟨hpump, hpumpRegs⟩ := Dev.pump_clogged s.dram d.retakePages (n := n) (by unfold Dev.clogged; rwa [hcip])
  rw [s.settle_masked (by rw [Dev.rd, hpumpRegs, hregs, ← Dev.rd, hint]), hpump, hout]

/-- On such a die a command that ends on another output than that of its request has not only entered a request. -/
theorem State.not_enters {s : State} {c : Instr} {e : Dev} {h ld hpa tag line : Nat} {op : HomeOp} {data : Line} {mask : BitVec 64}
    {poison : Bool} (hexec : exec c s = .next (s.finish e)) (hclog : s.dev.clogged pumpFuel) (hint : s.dev.rd .gblIntEn = 0)
    (hcip : e.cip = s.dev.cip) (hregs : e.rd .gblIntEn = 0) (hout : e.out ≠ s.dev.out) :
    ¬ s.enters c h ld hpa tag line op data mask poison := by
  rintro ⟨d, t, hd, -, -, -, -, -, -, -, -, -, -, hkeep, hdout, -, hdcip, -⟩
  have hdint : d.rd .gblIntEn = 0 := (hkeep _ (by simp only [List.mem_singleton, forall_eq, Reg.offset]; omega)).trans hint
  have hsame : s.finish d = s.finish e := by
    have := hd.symm.trans hexec
    injection this
  refine hout ?_
  calc e.out = (s.finish e).dev.out := (s.finish_clogged (by rwa [Dev.clogged, hcip]) hregs).symm
    _ = (s.finish d).dev.out := by rw [hsame]
    _ = d.out := s.finish_clogged (by rwa [Dev.clogged, hdcip]) hdint
    _ = s.dev.out := hdout

/-! ### A head past its last credit -/

/-- Head 0, up at CXL 3.1, serves LD 0, whose decoder binds the first 256 MiB to its window. -/
def servingDev : Dev :=
  let d : Dev := State.reset.dev
  let d := ((d.setFlag (headReg 0) F.hpStat_UP true).setFld (headReg 0) F.hpStat_PROTO 3).setFlag (headReg 0) F.hpStat_MEMOPEN true
  let d := (d.setFlag (.gblLdbind 0) F.gblLdbind_EN true).setFlag (.gblLdwin 0) F.gblLdwin_EN true
  let d := (d.setFld (.gblLdwin 0) F.gblLdwin_FIELDS 128).setHdm 0 0 { base := 0, size := 2 ^ 28, commit := true, committed := true }
  { d with mgt := { d.mgt with power := .on, linksOn := true }, hp := { d.hp with memActive := d.hp.memActive.set 0 true } }

/-- As `servingDev`, with all 96 slots of the head's receive crossing taken, the enable of its overrun flags set, an event interrupt of the
management log, and cipher results that nobody waits for. -/
def crowdedDev : Dev :=
  let d := servingDev.wr .crossIntEn0 1
  { d with
    home := { d.home with txns := List.replicate 96 { id := 0, src := .host 0 0 0, op := .rdI, line := 0, own := 0 } }
    logs := { d.logs with policy := [(80, 64)] }
    cip := { d.cip with done := List.replicate pumpFuel idleResult } }

def crowded : State := { State.reset with dev := crowdedDev }

theorem crowded_up : crowded.up = true := by decide

theorem crowded_serves : crowded.dev.serves 0 0 0 0 0 := by
  unfold Dev.serves
  decide +kernel

theorem crowded_clogged : crowded.dev.clogged pumpFuel := ⟨rfl, rfl⟩

theorem crowded_masked : crowded.dev.rd .gblIntEn = 0 := by decide +kernel

/-- The request raises the record of R52, whose event interrupt is a message; cipher results and interrupt enables stay. -/
structure HostReq.Noted (q : HostReq) : Prop where
  out : (crowded.dev.hostRequest q).out = [.msix 16 64]
  cip : (crowded.dev.hostRequest q).cip = crowded.dev.cip
  masked : (crowded.dev.hostRequest q).rd .gblIntEn = 0

theorem HostReq.Noted.not_enters {q : HostReq} (hq : q.Noted) {c : Instr} (hexec : exec c crowded = .next (crowded.finish (crowded.dev.hostRequest q)))
    {h ld hpa tag line : Nat} {op : HomeOp} {data : Line} {mask : BitVec 64} {poison : Bool} :
    ¬ crowded.enters c h ld hpa tag line op data mask poison :=
  State.not_enters hexec crowded_clogged crowded_masked hq.cip hq.masked (by rw [hq.out]; nofun)

theorem Dev.sramError_none (d : Dev) (q : HostReq) : d.sramError q .none = d := by
  unfold Dev.sramError
  split <;> rfl

/-- The read of MEM_RD with MetaValue S. -/
def crowdedRead : HostReq := { head := 0, ldid := 0, hpa := 0, tag := 0, op := .rdS, noData := false, opc := 0 }

theorem crowdedRead_noted : crowdedRead.Noted := ⟨by decide +kernel, rfl, by decide +kernel⟩

theorem exec_crowdedRead : exec (.memRd 0 0 0 0 .s false .none) crowded = .next (crowded.finish (crowded.dev.hostRequest crowdedRead)) := by
  rw [exec_memRd (by decide) crowded_up, Dev.memRead, Dev.memRequest, Dev.sramError_none]
  rfl

/-- The write of MEM_WR with MetaValue I. -/
def crowdedWrite : HostReq :=
  { head := 0, ldid := 0, hpa := 0, tag := 0, op := .wr false, data := 0, mask := BitVec.allOnes 64, poison := false, opc := 7 }

theorem crowdedWrite_noted : crowdedWrite.Noted := ⟨by decide +kernel, rfl, by decide +kernel⟩

theorem exec_crowdedWrite : exec (.memWr 0 0 0 0 .i 0 false false .none) crowded =
    .next (crowded.finish (crowded.dev.hostRequest crowdedWrite)) := by
  rw [exec_memWr (by decide) crowded_up, Dev.memWrite, Dev.memRequest, Dev.sramError_none]
  rfl

/-- Refutes O17: a read past the last credit of its head sets the overrun flag (R46), and where the flag's enable is set that raises the
record of R52, whose event interrupt is a message; the statement has the request enter with no output. -/
theorem not_hostReadsEnterTheHome : ¬ Obligations.HostReadsEnterTheHome := by
  unfold Obligations.HostReadsEnterTheHome
  intro h
  obtain ⟨-, hserved, -⟩ := h crowded 0 0 0 0 crowded_up (by decide) (by decide) (by decide) (by decide)
  obtain ⟨h31, -⟩ := hserved 0 0 crowded_serves
  obtain ⟨hread, -⟩ := h31 (by decide +kernel) (by decide +kernel)
  exact crowdedRead_noted.not_enters exec_crowdedRead hread

/-- Refutes O18, as O17: the write past the last credit of its head sends the message of the overrun's record. -/
theorem not_hostWritesEnterTheHome : ¬ Obligations.HostWritesEnterTheHome := by
  unfold Obligations.HostWritesEnterTheHome
  intro h
  obtain ⟨-, hserved⟩ := h crowded 0 0 0 0 .i 0 0 false crowded_up (by decide) (by decide) (by decide) (by decide)
  obtain ⟨hwrite, -⟩ := hserved 0 0 crowded_serves (by decide +kernel)
  exact crowdedWrite_noted.not_enters exec_crowdedWrite hwrite

end Sys2Proof.Machine
end
